-- ==== Sys2Proof/Word.lean ====
section
/-!
DEFINITION. The word types of the hub: 32-bit register words (R1), bytes, and the 16 lanes of 32 bits of a mason's vector register (R222).
-/

namespace Sys2Proof

/-- A register word; bit 31 is the most significant (R1). -/
abbrev Word := BitVec 32

/-- A byte. -/
abbrev Byte := BitVec 8

end Sys2Proof
end

