-- ==== Sys2Proof/Syntax.lean ====
section
/-!
DEFINITION. The commands of the hub: one constructor for every row of the operation table, with the row's operands. A command is an
operation that a requester asks of the hub, or an event that comes about at one of its balls, links, clocks or analogue stages; the values
that the spec lets the outside world decide (a measured code, a received field) are operands.
-/

namespace Sys2Proof

/-- The requesters of the register space (R28): the host through any UP port, the manager, the sixteen masons and the JTAG port. -/
inductive Req where
  | host
  | manager
  | mason (m : Fin 16)
  | jtag
  deriving DecidableEq, Repr

/-- The blocks whose storage carries ECC or triple redundancy and is scrubbed, or whose crossing FIFO can fail (R11, R74, R142, R172, R203,
R218, R281, R302, R336, R411, R480). -/
inductive Blk where
  | tile (t : Fin 24)
  | filter (t : Fin 24) (p : Fin 8)
  | trig
  | mason (m : Fin 16)
  | streams
  | pallet (q : Fin 64)
  | yard
  | press
  | lane (n : Fin 32)
  | cornerstone
  | log
  deriving DecidableEq, Repr

/-- A word of a mason that the host may write: a word of IMEM or of DMEM, MC_ENTRY or MC_TVEC (R187). -/
inductive MemTarget where
  | imem (k : Fin 16384)
  | dmem (k : Fin 32768)
  | entry
  | tvec
  deriving DecidableEq, Repr

/-- Where an uncorrectable error of a mason stands: a word of IMEM or of DMEM, its inbox, or the stream table (R203). -/
inductive MasonErr where
  | imem (k : Fin 16384)
  | dmem (k : Fin 32768)
  | inbox
  | streams
  deriving DecidableEq, Repr

/-- What a calibration of one slice leaves: its offset trim, its gain trim (R75, SLICE_OFS and SLICE_GN) and a name for its linearity trims,
which no register shows. -/
structure Trim where
  ofs : BitVec 24
  gn : BitVec 24
  lin : Nat
  deriving DecidableEq, Repr

/-- A training set as a lane's deserialiser received it (R321, R322, R324): the bit position of its comma in the word, the symbols by which its lane
marker comes after the earliest lane's, and its sixteen 10-bit groups as they stand on the line, first bit highest. -/
structure TrainSet where
  pos : Fin 40
  late : Nat
  groups : List (BitVec 10)
  deriving DecidableEq, Repr

/-- What a lane's deserialiser received while hods passed (R311 to R313): the running disparity before it, negative or not, and 10-bit groups as they
stand on the line, first bit highest. The idle between hods is no command, so the disparity comes with the groups. -/
structure LineIn where
  neg : Bool
  groups : List (BitVec 10)
  deriving DecidableEq, Repr

/-- A path of a filter engine. -/
structure FePath where
  t : Fin 24
  p : Fin 8
  deriving DecidableEq, Repr

/-- When a grout set came (R318, R324): the symbols since the K28.5 of the set before it, and those by which it comes after the port's earliest lane's. -/
structure GroutAt where
  dist : Nat
  late : Nat
  deriving DecidableEq, Repr

/-- So many symbols in a row of a lane that carry no data (R320). -/
structure PlainRun where
  lane : Fin 32
  syms : Nat
  deriving DecidableEq, Repr

/-- Bits that arrive at lane 0 of a quad, first bit first (R334). -/
structure QuadBits where
  quad : Fin 8
  bits : List Bool
  deriving DecidableEq, Repr

/-- How long what may bring a reset has lasted, and the pulse of an MRAM batch that such a reset waits for (R439, R440, R442). -/
structure Lasted where
  len : Nat
  cut : BitVec 7
  deriving DecidableEq, Repr

/-- Who made a fabric access: a port's oldest request, the management port, a mason's rld, or another requester (R234, R358, R417). -/
inductive Accessor where
  | port (p : Fin 16)
  | manager
  | mason (m : Fin 16)
  | other
  deriving DecidableEq, Repr

/-- A fabric access that has not been completed (R358, R437): who made it, the microseconds that it has lasted, and the pulse of an MRAM batch that a reset
waits for. -/
structure Stuck where
  who : Accessor
  us : Nat
  cut : BitVec 7
  deriving DecidableEq, Repr

/-- The voltages of the main rails in mV (R436, R485). -/
structure Rails where
  core : Nat
  ana : Nat
  ser : Nat
  serh : Nat
  yard : Nat
  io : Nat
  deriving DecidableEq, Repr

/-- How far a kiln segment has come (R464): the microseconds it has run, and whether the signature of the full pattern set matched. -/
structure SegRun where
  us : Nat
  sigOk : Bool
  deriving DecidableEq, Repr

/-- The commands of the hub, one constructor for every row of the operation table, in its order. -/
inductive Instr where
  /-- REGISTER_WRITE (R5). A write by any requester to a register or field that has no row of its own, with the access checks of R2, R4, R29 and the field-type behaviour of R5. -/
  | registerWrite (r : Req) (a : Word) (v : Word)
  /-- RC_READ (R8). A read of an RC field, which returns the value and clears it for every reader. -/
  | rcRead (r : Req) (a : Word)
  /-- LOW_WORD_READ (R106). A read of the low word of a multi-word value, which snapshots the whole value into the reader's own shadow. -/
  | lowWordRead (r : Req) (a : Word) (bad : Bool)
  /-- CROSSING_UNCORR (R11). An uncorrectable ECC error or an overflow in a crossing FIFO raises the receiving block's fault and sends the hub to SAFE. -/
  | crossingUncorr (b : Blk)
  /-- SCRUB (R74). The periodic scrub of triple-redundant configuration storage, at least once every 1 ms, corrects and counts errors. -/
  | scrub (b : Blk) (fixed : Word) (uncorr : Option (Fin 1024))
  /-- HELLO (R365). A HELLO LINKCTL hod is received; the hub records the peer, updates its DEPTH and may add a descendant entry. -/
  | hello (p : Fin 16) (host : Bool) (primary : Bool) (depth : BitVec 4) (port : BitVec 4) (hid : BitVec 14)
  /-- ROUTE_ADD (R366). A ROUTE_ADD hod received on a DOWN port adds the HIDs it names to the descendant table and passes them upstream. -/
  | routeAdd (p : Fin 16) (hids : List (BitVec 14))
  /-- ROUTE_DEL (R366). A ROUTE_DEL hod received on a DOWN port clears the entries it names and passes them upstream. -/
  | routeDel (p : Fin 16) (hids : List (BitVec 14))
  /-- DOWNSTREAM_ROUTE (R23). A downstream hod is consumed, forwarded on the DOWN port of its descendant entry, or discarded. -/
  | downstreamRoute (p : Fin 16) (header : BitVec 64) (payload : List Word)
  /-- RELAY_HOD (R24). An upstream hod from a child is relayed cut-through on VC3 through the primary UP port, aborted upstream if it fails its checks. -/
  | relayHod (p : Fin 16) (ok : Bool) (header : BitVec 64) (payload : List Word)
  /-- CONVERT_SAMPLE (R43). A slice conversion is turned into a channel word with slice trims, offset and gain. -/
  | convertSample (t : Fin 24) (sl : Fin 17) (code : BitVec 16) (edge : Nat) (tau : Nat)
  /-- GAIN_CHANGE (R37). A write of TILE_PGA[i].GAIN changes an input's gain and, in an ACTIVE tile, starts the settling count. -/
  | gainChange (r : Req) (t : Fin 24) (ch : Fin 16) (v : Word)
  /-- GAIN_SETTLE_DONE (R37). GAIN_SETTLE slice clocks after a gain change expire and CH_STAT.UNSETTLED clears. -/
  | gainSettleDone (t : Fin 24) (ch : Fin 16)
  /-- TILE_CTL_WRITE (R40). A write of TILE_CTL or TILE_ILV, accepted for a changed RDIV or ILV only in SLEEP and checked as a filter path change. -/
  | tileCtlWrite (r : Req) (t : Fin 24) (ilv : Bool) (v : Word)
  /-- TILE_APPLY (R46). A write of TILE_APPLY.APPLY copies staged offsets and gains to their values in use. -/
  | tileApply (r : Req) (t : Fin 24) (v : Word)
  /-- TILE_WAKE (R70). A tile in SLEEP whose wake condition holds powers its front end and slices and enters WAKING. -/
  | tileWake (t : Fin 24)
  /-- TILE_READY (R70). Bias settling and foreground calibration complete; the tile closes its switches, sets READY and becomes ACTIVE. -/
  | tileReady (t : Fin 24) (trims : List Trim)
  /-- TILE_SLEEP (R70). A tile that no active stream draws on and without FORCE_ON goes to SLEEP. -/
  | tileSleep (t : Fin 24)
  /-- ROTATION_BOUNDARY (R48). A rotation period boundary is reached; a rotation starts on the next slice and the spare connects for the first overlap. -/
  | rotationBoundary (t : Fin 24)
  /-- HAND_IN (R50). At the end of the first overlap the spare takes over the input if the residual is within tolerance, and the slice goes to calibration. -/
  | handIn (t : Fin 24)
  /-- SLICE_CAL_DONE (R50). The slice's 65,536-clock calibration ends and it reconnects to its input for the second overlap. -/
  | sliceCalDone (t : Fin 24) (trim : Trim)
  /-- HAND_BACK (R50). At the end of the second overlap the slice takes its input back and the residual fades out while the spare calibrates. -/
  | handBack (t : Fin 24)
  /-- FADE_RESIDUAL_DONE (R50). The 4,096-sample fade of the hand-back residual completes. -/
  | fadeResidualDone (t : Fin 24)
  /-- SPARE_CAL_DONE (R50). The spare's self-calibration ends, the rotation returns to IDLE and TILE_CAL_CNT increments by 2. -/
  | spareCalDone (t : Fin 24) (trim : Trim)
  /-- SKEW_UPDATE (R58). Once per rotation period the tile updates a pair's skew estimate and steps the trim by one step if needed. -/
  | skewUpdate (t : Fin 24) (k : Fin 8) (quiet : Bool) (est : Int)
  /-- EXC_CTL_WRITE (R66). A write of EXC_CTL or EXC_LVL sets a new target for the excitation output and starts a ramp. -/
  | excCtlWrite (r : Req) (t : Fin 24) (lvl : Bool) (v : Word)
  /-- EXC_RAMP_STEP (R66). RAMP microseconds expire and the excitation output moves one code step towards its target. -/
  | excRampStep (t : Fin 24) (iload : BitVec 12)
  /-- EXC_FAULT (R67). Load current above 30 mA for 10 µs disconnects the excitation output at once. -/
  | excFault (t : Fin 24) (iload : BitVec 12)
  /-- TILE_UNCORR (R74). An uncorrectable error in tile storage sends the hub to SAFE. -/
  | tileUncorr (t : Fin 24)
  /-- ST_LOAD (R82). A write of ST_LOAD.LOAD copies ST_SET into the system time counter. -/
  | stLoad (r : Req) (v : Word)
  /-- GRID_PER_WRITE (R87). A write of GRID_PER_NS or GRID_PER_FRAC, checked against the minimum period and the capacity checks. -/
  | gridPerWrite (r : Req) (g : Fin 4) (frac : Bool) (v : Word)
  /-- GRID_CTL_WRITE (R87). A write of GRID_CTL that changes TYPE or CDIV of a STOPPED grid. -/
  | gridCtlWrite (r : Req) (g : Fin 4) (v : Word)
  /-- GRID_STOP (R91). A write of GRID_CTL.STOP stops a grid that no active stream uses. -/
  | gridStop (r : Req) (g : Fin 4) (v : Word)
  /-- GRID_SYNC_AT (R89). GRID_SYNC_CMD with MODE AT arms the named grids for a given instant. -/
  | gridSyncAt (r : Req) (m : BitVec 4)
  /-- GRID_SYNC_NEXT_SEC (R89). GRID_SYNC_CMD with MODE NEXT_SEC arms the named grids for the next whole second at least 100 µs away. -/
  | gridSyncNextSec (r : Req) (m : BitVec 4)
  /-- GRID_SYNC_CANCEL (R89). GRID_SYNC_CMD with MODE CANCEL disarms the named grids. -/
  | gridSyncCancel (r : Req) (m : BitVec 4)
  /-- GRID_SYNC_INSTANT (R88). ST reaches an armed SYNC instant; the grid sets its epoch, restarts at course 0 and restarts its filter histories. -/
  | gridSyncInstant (g : Fin 4) (edge : Nat)
  /-- COURSE_INSTANT (R86). ST reaches the instant of a grid's next course and a course event crosses to the DSP domain. -/
  | courseInstant (g : Fin 4) (edge : Nat) (tau : Nat)
  /-- SMPL_CTL_WRITE (R96). A write of SMPL_CTL, or of MCLK_CTL changing MMUL, accepted only while every tile sleeps or is stopped. -/
  | smplCtlWrite (r : Req) (mclk : Bool) (v : Word)
  /-- SMPL_PHASE_WRITE (R97). A write of SMPL_PHASE starts moving the SMPL interpolator towards the new phase. -/
  | smplPhaseWrite (r : Req) (v : Word)
  /-- MCLK_LOCK_ACQUIRED (R503). The VCO acquires lock to MCLK and sets LOCK and SMPL_LOCK. -/
  | mclkLockAcquired (freq : BitVec 24)
  /-- MCLK_RELOCK (R98). A write of MCLK_CTL.RELOCK makes the VCO relock to a returned MCLK, restarting MACHINE-grid filter histories. -/
  | mclkRelock (r : Req) (v : Word)
  /-- MCLK_LOSS (R98). No MCLK edge for 2 µs, or the product leaving its range, while locked puts the VCO into holdover. -/
  | mclkLoss (los : Bool) (freq : BitVec 24)
  /-- MCLK_RETURN (R98). MCLK edges arrive for 100 µs without a gap and LOS clears. -/
  | mclkReturn (freq : BitVec 24)
  /-- PPS_IN_EDGE (R99). A PPS_IN edge is stamped and accepted or rejected against its window; for a root it gives one servo measurement. -/
  | ppsInEdge (t : Nat) (falling : Bool)
  /-- PPS_MISS (R99). 1.1 s of ST passes without an accepted PPS_IN edge and PPS_OK clears. -/
  | ppsMiss
  /-- TOD_MESSAGE (R100). A complete time-of-day message arrives on TOD_RX and is accepted or discarded. -/
  | todMessage (bytes : List Byte) (frameErr : Bool)
  /-- PPS_OUT_RISE (R101). At a whole second of ST plus PPS_OUT_ADJ, PPS_OUT goes high. -/
  | ppsOutRise
  /-- PPS_OUT_FALL (R101). WIDTH milliseconds after a rise, PPS_OUT goes low. -/
  | ppsOutFall
  /-- RTC_GO (R103). A write of RTC_CTL.GO loads RTC_SET into the RTC and sets VALID. -/
  | rtcGo (r : Req) (v : Word)
  /-- RTC_FOLLOW (R104). At a LOCKED whole second of ST the RTC is set to the ST seconds. -/
  | rtcFollow
  /-- XTAL_STOP (R102). The 32.768 kHz crystal stops and RTC_STAT.VALID clears. -/
  | xtalStop
  /-- FP_CONFIG_WRITE (R113). A write of FP_CTL, FP_CIC, FP_TAPS or FP_GD, accepted only while the path is IDLE and checked against its limits. -/
  | fpConfigWrite (r : Req) (t : Fin 24) (p : Fin 8) (which : Fin 4) (v : Word)
  /-- COEF_WRITE (R135). A write of a FIR coefficient, refused for the active bank of a busy path or during a fade. -/
  | coefWrite (r : Req) (t : Fin 24) (p : Fin 8) (b : Fin 2) (k : Fin 256) (v : Word)
  /-- FILTER_OUTPUT (R123). Once its last input has arrived, a filter path computes and releases the output for one course of its channels. -/
  | filterOutput (t : Fin 24) (p : Fin 8)
  /-- FADE_GO (R136). A write of FP_FADE.GO starts a cross-fade from the active coefficient bank to the other. -/
  | fadeGo (r : Req) (t : Fin 24) (p : Fin 8) (v : Word)
  /-- FADE_BLEND_START (R137). W courses after the fade starts, the new bank's history is warm and blending begins. -/
  | fadeBlendStart (t : Fin 24) (p : Fin 8)
  /-- FADE_DONE (R137). LEN blended courses complete, the active bank toggles and FADE_DONE is raised. -/
  | fadeDone (t : Fin 24) (p : Fin 8)
  /-- DET_CTL_WRITE (R139). A write of DET_CTL enables or disables a detector, checked like a stream addition. -/
  | detCtlWrite (r : Req) (t : Fin 24) (d : Fin 32) (which : Fin 3) (v : Word)
  /-- DETECT_OUTPUT (R140). A detector's window of W courses ends and it outputs its value. -/
  | detectOutput (t : Fin 24) (d : Fin 32)
  /-- FE_UNCORR (R142). An uncorrectable error in filter engine storage sends the hub to SAFE. -/
  | feUncorr (x : FePath)
  /-- TU_CTL_WRITE (R146). A write of TU_CTL enables or disables a trigger unit after checking its source and group. -/
  | tuCtlWrite (r : Req) (u : Fin 64) (src : Bool) (v : Word)
  /-- TU_EVALUATE (R148). A trigger unit evaluates one course value against level and hysteresis and may fire or suppress an edge. -/
  | tuEvaluate (u : Fin 64) (n : Nat)
  /-- HOLDOFF_END (R152). TU_HOLDOFF courses after an accepted trigger pass and the unit's holdoff ends. -/
  | holdoffEnd (u : Fin 64)
  /-- TU_AUTO_FORCE (R153). N courses pass without an accepted trigger and the unit forces a trigger. -/
  | tuAutoForce (u : Fin 64)
  /-- GROUP_EVALUATE (R155). A trigger group evaluates a course once all its units have, taking one trigger and opening or merging a keep window. -/
  | groupEvaluate (g : Fin 64) (n : Nat)
  /-- WINDOW_CLOSE (R161). The group evaluates the course after an open window's last course without a merging trigger, and the window closes. -/
  | windowClose (g : Fin 64)
  /-- TRIGIO_PULSE_END (R496). 100 ns after the last trigger the TRIGIO pulse ends. -/
  | trigioPulseEnd (k : Fin 4)
  /-- STORE_RELEASE (R158). The window store releases a linked course to its reducer once the group has evaluated course n + PRE. -/
  | storeRelease (sid : Fin 8192)
  /-- WS_LINK_WRITE (R156). A write of WS_LINK links or unlinks a stream to a trigger group after its checks. -/
  | wsLinkWrite (r : Req) (l : Fin 1024) (v : Word)
  /-- TG_CTL_WRITE (R154). A write of TG_CTL or TG_POST, refused while a unit of the group is enabled or a linked stream is active. -/
  | tgCtlWrite (r : Req) (g : Fin 64) (post : Bool) (v : Word)
  /-- RP_WRITE (R166). A write of a reduction profile register, refused while an active stream names the profile. -/
  | rpWrite (r : Req) (p : Fin 64) (which : Fin 4) (v : Word)
  /-- DELTA_HEARTBEAT (R167). HB courses pass since a DELTA stream's last stored entry and a heartbeat entry is stored. -/
  | deltaHeartbeat (sid : Fin 8192)
  /-- TRIG_UNCORR (R172). An uncorrectable error in trigger storage sends the hub to SAFE. -/
  | trigUncorr
  /-- STREAM_ADD (R178). A STREAM_ADD request creates a stream table entry at the lowest free SID, optionally activating it. -/
  | streamAdd (p : Fin 16) (tag : BitVec 7) (ws : List Word)
  /-- STREAM_DEL (R182). A STREAM_DEL request deletes an inactive unreferenced stream and marks its SID RETIRING. -/
  | streamDel (p : Fin 16) (tag : BitVec 7) (ws : List Word)
  /-- SID_FREE (R182). The last hod of a retiring SID leaves the yard and the SID becomes free again. -/
  | sidFree (sid : Fin 8192)
  /-- SE_CONFIG_WRITE (R177). A write of a stream entry's configuration fields, accepted only while the entry is valid and inactive. -/
  | seConfigWrite (r : Req) (sid : Fin 8192) (which : Fin 3) (v : Word)
  /-- STREAM_ACTIVATE (R180). A write of SE_CTL.ACT = 1 activates a stream after its activation checks. -/
  | streamActivate (r : Req) (sid : Fin 8192) (v : Word)
  /-- STREAM_DEACTIVATE (R181). A write of SE_CTL.ACT = 0 deactivates a stream, closes its record and hands its hod to the yard. -/
  | streamDeactivate (r : Req) (sid : Fin 8192) (v : Word)
  /-- MC_GO (R186). A write of MC_CTL.GO starts a mason from RESET or resumes it from HALT. -/
  | mcGo (r : Req) (m : Fin 16) (v : Word)
  /-- MC_HALT (R186). A write of MC_CTL.HALT asks a running or waiting mason to stop at the next instruction boundary. -/
  | mcHalt (r : Req) (m : Fin 16) (v : Word)
  /-- MASON_HALTED (R186). A mason reaches the instruction boundary after a HALT and enters HALT. -/
  | masonHalted (m : Fin 16)
  /-- MC_STOP (R186). A write of MC_CTL.STOP returns a mason to RESET, handing its hods to the yard and emptying its inbox. -/
  | mcStop (r : Req) (m : Fin 16) (v : Word)
  /-- MASON_MEM_WRITE (R187). A host write of IMEM, DMEM, MC_ENTRY or MC_TVEC, accepted only in RESET, HALT or FAULT and locked for LEGAL images. -/
  | masonMemWrite (r : Req) (m : Fin 16) (t : MemTarget) (v : Word)
  /-- DOORBELL_WRITE (R199). A host write of MC_DOORBELL sets doorbell bits that can wake the mason. -/
  | doorbellWrite (r : Req) (m : Fin 16) (v : Word)
  /-- MASON_WAKE (R199). A wake source of a wait becomes true and the mason resumes in RUN. -/
  | masonWake (m : Fin 16)
  /-- TRAP_TAKEN (R201). A trapping instruction stores EPC, CAUSE and TVAL, sets IN_TRAP and continues at MC_TVEC. -/
  | trapTaken (m : Fin 16)
  /-- MASON_UNCORR (R203). An uncorrectable error in an inbox or the stream table sends the hub to SAFE. -/
  | masonUncorr (m : Fin 16) (e : MasonErr)
  /-- BEGIN (R207). A PROGRAM BEGIN hod opens the load session and clears staging. -/
  | begin (p : Fin 16) (tag : BitVec 7) (ws : List Word)
  /-- DATA (R207). A PROGRAM DATA hod writes data into staging at an offset. -/
  | data (p : Fin 16) (tag : BitVec 7) (ws : List Word)
  /-- COMMIT (R208). A PROGRAM COMMIT hod checks the staged image and installs it in the target masons with its streams. -/
  | commit (p : Fin 16) (tag : BitVec 7) (ws : List Word) (vh : BitVec 16)
  /-- ABORT (R207). A PROGRAM ABORT hod closes the session and discards staging. -/
  | abort (p : Fin 16) (tag : BitVec 7) (ws : List Word)
  /-- PQ_PUSH (R216). A host write of PQ_PUSH pushes one word into a pallet queue. -/
  | pqPush (r : Req) (q : Fin 64) (v : Word)
  /-- PQ_POP (R213). A host read of PQ_POP pops the oldest committed word, or reports an underrun. -/
  | pqPop (r : Req) (q : Fin 64)
  /-- PQ_FLUSH (R215). PQ_CTL.FLUSH empties a queue including any open item. -/
  | pqFlush (r : Req) (q : Fin 64) (v : Word)
  /-- PQ_OPEN (R214). PQ_CTL.OPEN opens a framed item with a tag. -/
  | pqOpen (r : Req) (q : Fin 64) (v : Word)
  /-- PQ_CLOSE (R214). PQ_CTL.CLOSE writes the item header and commits the item. -/
  | pqClose (r : Req) (q : Fin 64) (v : Word)
  /-- PQ_UNCORR (R218). An uncorrectable error in a queue memory sends the hub to SAFE. -/
  | pqUncorr (q : Fin 64)
  /-- ADD (R230). add gd, ga, gb. -/
  | add (m : Fin 16) (gd : Fin 32) (ga : Fin 32) (gb : Fin 32)
  /-- SUB (R230). sub gd, ga, gb. -/
  | sub (m : Fin 16) (gd : Fin 32) (ga : Fin 32) (gb : Fin 32)
  /-- AND (R230). Bitwise AND of two registers. -/
  | and (m : Fin 16) (gd : Fin 32) (ga : Fin 32) (gb : Fin 32)
  /-- OR (R230). Bitwise OR of two registers. -/
  | or (m : Fin 16) (gd : Fin 32) (ga : Fin 32) (gb : Fin 32)
  /-- XOR (R230). Bitwise XOR of two registers. -/
  | xor (m : Fin 16) (gd : Fin 32) (ga : Fin 32) (gb : Fin 32)
  /-- SLL (R230). Left shift by a register amount. -/
  | sll (m : Fin 16) (gd : Fin 32) (ga : Fin 32) (gb : Fin 32)
  /-- SRL (R230). Logical right shift by a register amount. -/
  | srl (m : Fin 16) (gd : Fin 32) (ga : Fin 32) (gb : Fin 32)
  /-- SRA (R230). Arithmetic right shift by a register amount. -/
  | sra (m : Fin 16) (gd : Fin 32) (ga : Fin 32) (gb : Fin 32)
  /-- SLLI (R230). Left shift by SH. -/
  | slli (m : Fin 16) (gd : Fin 32) (ga : Fin 32) (sh : Fin 32)
  /-- SRLI (R230). Logical right shift by SH. -/
  | srli (m : Fin 16) (gd : Fin 32) (ga : Fin 32) (sh : Fin 32)
  /-- SRAI (R230). Arithmetic right shift by SH. -/
  | srai (m : Fin 16) (gd : Fin 32) (ga : Fin 32) (sh : Fin 32)
  /-- SLT (R230). Signed set-less-than. -/
  | slt (m : Fin 16) (gd : Fin 32) (ga : Fin 32) (gb : Fin 32)
  /-- SLTU (R230). Unsigned set-less-than. -/
  | sltu (m : Fin 16) (gd : Fin 32) (ga : Fin 32) (gb : Fin 32)
  /-- MIN (R230). Signed minimum. -/
  | min (m : Fin 16) (gd : Fin 32) (ga : Fin 32) (gb : Fin 32)
  /-- MAX (R230). Signed maximum. -/
  | max (m : Fin 16) (gd : Fin 32) (ga : Fin 32) (gb : Fin 32)
  /-- MINU (R230). Unsigned minimum. -/
  | minu (m : Fin 16) (gd : Fin 32) (ga : Fin 32) (gb : Fin 32)
  /-- MAXU (R230). Unsigned maximum. -/
  | maxu (m : Fin 16) (gd : Fin 32) (ga : Fin 32) (gb : Fin 32)
  /-- MUL (R230). Low 32 bits of the product. -/
  | mul (m : Fin 16) (gd : Fin 32) (ga : Fin 32) (gb : Fin 32)
  /-- MULH (R230). High 32 bits of the signed product. -/
  | mulh (m : Fin 16) (gd : Fin 32) (ga : Fin 32) (gb : Fin 32)
  /-- MULHU (R230). High 32 bits of the unsigned product. -/
  | mulhu (m : Fin 16) (gd : Fin 32) (ga : Fin 32) (gb : Fin 32)
  /-- CTZ (R230). Count of trailing zero bits. -/
  | ctz (m : Fin 16) (gd : Fin 32) (ga : Fin 32)
  /-- CLZ (R230). Count of leading zero bits. -/
  | clz (m : Fin 16) (gd : Fin 32) (ga : Fin 32)
  /-- POPC (R230). Count of set bits. -/
  | popc (m : Fin 16) (gd : Fin 32) (ga : Fin 32)
  /-- CMP (R232). Sets Z, N, C and V from ga − gb. -/
  | cmp (m : Fin 16) (ga : Fin 32) (gb : Fin 32)
  /-- TST (R230). Sets Z and N from ga AND gb and clears C and V. -/
  | tst (m : Fin 16) (ga : Fin 32) (gb : Fin 32)
  /-- JR (R236). Jump to the address in ga. -/
  | jr (m : Fin 16) (ga : Fin 32)
  /-- JALR (R236). Jump to ga and write the return address to gd. -/
  | jalr (m : Fin 16) (gd : Fin 32) (ga : Fin 32)
  /-- ADDI (R231). Add a sign-extended immediate. -/
  | addi (m : Fin 16) (gd : Fin 32) (ga : Fin 32) (imm : BitVec 16)
  /-- ANDI (R231). AND with a zero-extended immediate. -/
  | andi (m : Fin 16) (gd : Fin 32) (ga : Fin 32) (imm : BitVec 16)
  /-- ORI (R231). OR with a zero-extended immediate. -/
  | ori (m : Fin 16) (gd : Fin 32) (ga : Fin 32) (imm : BitVec 16)
  /-- XORI (R231). XOR with a zero-extended immediate. -/
  | xori (m : Fin 16) (gd : Fin 32) (ga : Fin 32) (imm : BitVec 16)
  /-- SLTI (R231). Signed set-less-than immediate. -/
  | slti (m : Fin 16) (gd : Fin 32) (ga : Fin 32) (imm : BitVec 16)
  /-- SLTIU (R231). Unsigned set-less-than immediate. -/
  | sltiu (m : Fin 16) (gd : Fin 32) (ga : Fin 32) (imm : BitVec 16)
  /-- LUI (R231). Load the immediate into the upper half. -/
  | lui (m : Fin 16) (gd : Fin 32) (imm : BitVec 16)
  /-- CMPI (R232). Sets flags from ga minus a sign-extended immediate. -/
  | cmpi (m : Fin 16) (ga : Fin 32) (imm : BitVec 16)
  /-- LDW (R233). Load a DMEM word. -/
  | ldw (m : Fin 16) (gd : Fin 32) (ga : Fin 32) (off : BitVec 16)
  /-- LDH (R233). Load a sign-extended halfword. -/
  | ldh (m : Fin 16) (gd : Fin 32) (ga : Fin 32) (off : BitVec 16)
  /-- LDHU (R233). Load a zero-extended halfword. -/
  | ldhu (m : Fin 16) (gd : Fin 32) (ga : Fin 32) (off : BitVec 16)
  /-- LDB (R233). Load a sign-extended byte. -/
  | ldb (m : Fin 16) (gd : Fin 32) (ga : Fin 32) (off : BitVec 16)
  /-- LDBU (R233). Load a zero-extended byte. -/
  | ldbu (m : Fin 16) (gd : Fin 32) (ga : Fin 32) (off : BitVec 16)
  /-- STW (R233). Store a word to DMEM. -/
  | stw (m : Fin 16) (gs : Fin 32) (ga : Fin 32) (off : BitVec 16)
  /-- STH (R233). Store a halfword to DMEM. -/
  | sth (m : Fin 16) (gs : Fin 32) (ga : Fin 32) (off : BitVec 16)
  /-- STB (R233). Store a byte to DMEM. -/
  | stb (m : Fin 16) (gs : Fin 32) (ga : Fin 32) (off : BitVec 16)
  /-- VLD (R233). Load 64 bytes into a vector register. -/
  | vld (m : Fin 16) (vd : Fin 8) (ga : Fin 32) (off : BitVec 16)
  /-- VST (R233). Store a vector register as 64 bytes. -/
  | vst (m : Fin 16) (vs : Fin 8) (ga : Fin 32) (off : BitVec 16)
  /-- RLD (R234). Register load through the fabric, trapping on any status but OK. -/
  | rld (m : Fin 16) (gd : Fin 32) (ga : Fin 32) (off : BitVec 16)
  /-- B_COND (R235). Conditional branch on the flags. -/
  | bCond (m : Fin 16) (cond : BitVec 5) (off : BitVec 21)
  /-- BL (R235). Branch and link into g31. -/
  | bl (m : Fin 16) (off : BitVec 21)
  /-- VADD (R238). Lane-wise wrapping add. -/
  | vadd (m : Fin 16) (vd : Fin 8) (va : Fin 8) (vb : Fin 8)
  /-- VSUB (R238). Lane-wise wrapping subtract. -/
  | vsub (m : Fin 16) (vd : Fin 8) (va : Fin 8) (vb : Fin 8)
  /-- VADDS (R238). Lane-wise saturating add. -/
  | vadds (m : Fin 16) (vd : Fin 8) (va : Fin 8) (vb : Fin 8)
  /-- VSUBS (R238). Lane-wise saturating subtract. -/
  | vsubs (m : Fin 16) (vd : Fin 8) (va : Fin 8) (vb : Fin 8)
  /-- VMUL (R238). Lane-wise low product. -/
  | vmul (m : Fin 16) (vd : Fin 8) (va : Fin 8) (vb : Fin 8)
  /-- VMULQ (R238). Lane-wise product scaled by 2^−23, rounded and saturated. -/
  | vmulq (m : Fin 16) (vd : Fin 8) (va : Fin 8) (vb : Fin 8)
  /-- VMIN (R238). Lane-wise signed minimum. -/
  | vmin (m : Fin 16) (vd : Fin 8) (va : Fin 8) (vb : Fin 8)
  /-- VMAX (R238). Lane-wise signed maximum. -/
  | vmax (m : Fin 16) (vd : Fin 8) (va : Fin 8) (vb : Fin 8)
  /-- VAND (R238). Lane-wise AND. -/
  | vand (m : Fin 16) (vd : Fin 8) (va : Fin 8) (vb : Fin 8)
  /-- VOR (R238). Lane-wise OR. -/
  | vor (m : Fin 16) (vd : Fin 8) (va : Fin 8) (vb : Fin 8)
  /-- VXOR (R238). Lane-wise XOR. -/
  | vxor (m : Fin 16) (vd : Fin 8) (va : Fin 8) (vb : Fin 8)
  /-- VCGT (R238). Lane-wise signed greater-than mask. -/
  | vcgt (m : Fin 16) (vd : Fin 8) (va : Fin 8) (vb : Fin 8)
  /-- VCEQ (R238). Lane-wise equality mask. -/
  | vceq (m : Fin 16) (vd : Fin 8) (va : Fin 8) (vb : Fin 8)
  /-- VABS (R238). Lane-wise saturating absolute value. -/
  | vabs (m : Fin 16) (vd : Fin 8) (va : Fin 8)
  /-- VPAIR (R238). Swap lanes within pairs. -/
  | vpair (m : Fin 16) (vd : Fin 8) (va : Fin 8)
  /-- VSAT24 (R238). Clamp lanes to 24-bit range. -/
  | vsat24 (m : Fin 16) (vd : Fin 8) (va : Fin 8)
  /-- VMOV (R238). Copy a vector register. -/
  | vmov (m : Fin 16) (vd : Fin 8) (va : Fin 8)
  /-- VSPLAT (R239). Copy a scalar into every lane. -/
  | vsplat (m : Fin 16) (vd : Fin 8) (ga : Fin 32)
  /-- VEXT (R239). Extract one lane to a scalar. -/
  | vext (m : Fin 16) (gd : Fin 32) (va : Fin 8) (lane : Fin 16)
  /-- VINS (R239). Insert a scalar into one lane. -/
  | vins (m : Fin 16) (vd : Fin 8) (ga : Fin 32) (lane : Fin 16)
  /-- VMASK (R239). Build a lane mask from scalar bits. -/
  | vmask (m : Fin 16) (vd : Fin 8) (ga : Fin 32)
  /-- VMOVMSK (R239). Gather lane sign bits into a scalar. -/
  | vmovmsk (m : Fin 16) (gd : Fin 32) (va : Fin 8)
  /-- VREDSUM (R239). Saturating sum of the lanes. -/
  | vredsum (m : Fin 16) (gd : Fin 32) (va : Fin 8)
  /-- VREDMAX (R239). Signed maximum of the lanes. -/
  | vredmax (m : Fin 16) (gd : Fin 32) (va : Fin 8)
  /-- VREDMIN (R239). Signed minimum of the lanes. -/
  | vredmin (m : Fin 16) (gd : Fin 32) (va : Fin 8)
  /-- VARGMAX (R239). Lowest lane holding the maximum. -/
  | vargmax (m : Fin 16) (gd : Fin 32) (va : Fin 8)
  /-- VSLLI (R239). Lane-wise left shift by SH. -/
  | vslli (m : Fin 16) (vd : Fin 8) (va : Fin 8) (sh : Fin 32)
  /-- VSRAI (R239). Lane-wise arithmetic right shift by SH. -/
  | vsrai (m : Fin 16) (vd : Fin 8) (va : Fin 8) (sh : Fin 32)
  /-- VSRLI (R239). Lane-wise logical right shift by SH. -/
  | vsrli (m : Fin 16) (vd : Fin 8) (va : Fin 8) (sh : Fin 32)
  /-- VADDG (R239). Add a scalar to every lane. -/
  | vaddg (m : Fin 16) (vd : Fin 8) (va : Fin 8) (ga : Fin 32)
  /-- VCGTG (R239). Lane-wise greater-than-scalar mask. -/
  | vcgtg (m : Fin 16) (vd : Fin 8) (va : Fin 8) (ga : Fin 32)
  /-- COURSE (R243). Pop the oldest inbox packet into registers, or fail with BUSY when empty. -/
  | course (m : Fin 16) (gd : Fin 32) (vd : Fin 8)
  /-- COURSE_W (R243). Pop the oldest inbox packet, stalling until one arrives. -/
  | courseW (m : Fin 16) (gd : Fin 32) (vd : Fin 8)
  /-- TGET (R244). Read ST and time quality into four registers. -/
  | tget (m : Fin 16) (gd : Fin 32)
  /-- TGETC (R242). Read the latest course number of a grid. -/
  | tgetc (m : Fin 16) (gd : Fin 32) (ga : Fin 32)
  /-- HOPEN (R192). Open a hod for a SID in a free slot. -/
  | hopen (m : Fin 16) (gd : Fin 32) (ga : Fin 32) (gb : Fin 32)
  /-- HPUT (R193). Copy one whole record from DMEM into an open hod after ordered checks. -/
  | hput (m : Fin 16) (ga : Fin 32) (gb : Fin 32) (gc : Fin 32)
  /-- HCLOSE (R195). Hand a slot's hod to the yard through the shared packer. -/
  | hclose (m : Fin 16) (ga : Fin 32)
  /-- MARK (R245). Append a MARK record built from operands. -/
  | mark (m : Fin 16) (ga : Fin 32) (gb : Fin 32) (gc : Fin 32) (gd : Fin 32)
  /-- GAP (R245). Append a GAP record of reason 3 built from operands. -/
  | gap (m : Fin 16) (ga : Fin 32) (gb : Fin 32) (gc : Fin 32)
  /-- PQGET (R242). Pop the oldest committed queue word. -/
  | pqget (m : Fin 16) (gd : Fin 32) (ga : Fin 32)
  /-- PQPUT (R242). Push a word, stalling while the queue is full. -/
  | pqput (m : Fin 16) (ga : Fin 32) (gb : Fin 32)
  /-- PQPUTN (R242). Push a word, failing with BUSY when full. -/
  | pqputn (m : Fin 16) (ga : Fin 32) (gb : Fin 32)
  /-- PQOPEN (R214). Open a framed item on a queue. -/
  | pqopen (m : Fin 16) (ga : Fin 32) (gb : Fin 32)
  /-- PQCLOSE (R214). Close a framed item and commit it. -/
  | pqclose (m : Fin 16) (ga : Fin 32)
  /-- PQFLUSH (R215). Empty a queue. -/
  | pqflush (m : Fin 16) (ga : Fin 32)
  /-- PQCNT (R242). Read a queue's PQ_CNT image. -/
  | pqcnt (m : Fin 16) (gd : Fin 32) (ga : Fin 32)
  /-- WAIT (R199). Gate the mason's clock until a named wake source occurs. -/
  | wait (m : Fin 16) (gd : Fin 32) (ga : Fin 32) (src : Fin 8)
  /-- EVT (R198). Raise a program event with a 32-bit detail. -/
  | evt (m : Fin 16) (ga : Fin 32) (code : Fin 128)
  /-- TRAP (R246). Trap with cause TRAP. -/
  | trap (m : Fin 16) (imm : BitVec 10)
  /-- RFT (R246). Return from trap to EPC and clear IN_TRAP. -/
  | rft (m : Fin 16)
  /-- MFF (R246). Read FL into a register. -/
  | mff (m : Fin 16) (gd : Fin 32)
  /-- MTF (R246). Write FL from a register. -/
  | mtf (m : Fin 16) (ga : Fin 32)
  /-- SPRD (R247). Read a special register. -/
  | sprd (m : Fin 16) (gd : Fin 32) (n : BitVec 10)
  /-- SPRW (R247). Write a special register. -/
  | sprw (m : Fin 16) (ga : Fin 32) (n : BitVec 10)
  /-- HOD_HAND_ON (R265). A record packer hands an open hod to the yard, at a full hod, deactivation, mode change or eviction. -/
  | hodHandOn (sid : Fin 8192)
  /-- YARD_FLUSH_EXPIRE (R265). YARD_FLUSH microseconds pass since a hod was opened and the packer hands it on. -/
  | yardFlushExpire (sid : Fin 8192)
  /-- HOD_ADMIT (R268). The yard admits a handed-on hod into its ring with the next YSEQ, or refuses it into GAP runs and kept records. -/
  | hodAdmit
  /-- STREAM_HOD_TRANSMIT (R270). An UP port sends the next hod of its ring in YSEQ order as VC2 credit allows. -/
  | streamHodTransmit (p : Fin 16)
  /-- HORIZON (R272). A HORIZON hod acknowledges ring hods up to YSEQ n and frees them. -/
  | horizon (p : Fin 16) (ws : List Word)
  /-- REWIND (R273). A REWIND hod makes a port resend its ring from YSEQ n. -/
  | rewind (p : Fin 16) (ws : List Word)
  /-- RESERVE_HOD_WRITE (R278). A resumed stream's reserve hods of GAP and kept records are written into the ring and its run closes. -/
  | reserveHodWrite (p : Fin 16) (sid : Fin 8192)
  /-- DRAIN_END (R269). The drain after leaving ACQUIRE has admitted or refused every hod the change handed on. -/
  | drainEnd
  /-- YARD_SCRUB (R280). The yard scrub reads and corrects yard words, at least once every 10 s. -/
  | yardScrub (fixed : Word) (uncorr : Option (BitVec 26))
  /-- RSV_UNCORR (R281). An uncorrectable error in the reserve or yard state sends the hub to SAFE. -/
  | rsvUncorr
  /-- YARD_SREF_ENTER (R282). The yard has been empty and idle for 10 µs and enters self-refresh. -/
  | yardSrefEnter
  /-- RING_CFG_WRITE (R267). A write of RING_CFG.SIZE resizes the rings when they are empty. -/
  | ringCfgWrite (r : Req) (p : Fin 16) (v : Word)
  /-- PK_CTL_WRITE (R257). A write of PK_CTL.W16 selects 16-bit samples, refused while an affected stream is active. -/
  | pkCtlWrite (r : Req) (t : Fin 24) (v : Word)
  /-- BLOCK_END (R293). A compress engine ends the block of an open hod and hands the pressed hod to the yard. -/
  | blockEnd (e : Fin 4)
  /-- PC_CTL_WRITE (R292). A write of PC_CTL.RMAX or PRED, refused while an active stream uses the engine. -/
  | pcCtlWrite (r : Req) (e : Fin 4) (v : Word)
  /-- PC_MRES_WRITE (R287). A write of PC_MRES reserves press rate for mason streams, checked against the engine limit. -/
  | pcMresWrite (r : Req) (e : Fin 4) (v : Word)
  /-- PX_GO (R297). A write of PX_CTL.GO starts a host expansion job with its header scan. -/
  | pxGo (r : Req) (v : Word)
  /-- PX_JOB_END (R299). A PX job completes its expansion, or stops on a failure, and PX returns to IDLE. -/
  | pxJobEnd
  /-- PRESS_UNCORR (R302). An uncorrectable press error sends the hub to SAFE. -/
  | pressUncorr
  /-- QUAD_CTL_WRITE (R309). A write of QUAD_CTL sets roles, rates and widths, starting or stopping training. -/
  | quadCtlWrite (r : Req) (q : Fin 8) (v : Word)
  /-- PORT_RETRAIN (R330). A write of QUAD_CTL.RETRAIN0 or RETRAIN1 restarts a port at DETECT. -/
  | portRetrain (r : Req) (q : Fin 8) (v : Word)
  /-- DETECT_DONE (R327). LOS and LOL stay clear for 10 µs and a lane enters ALIGN. -/
  | detectDone (n : Fin 32)
  /-- TRAINING_SET (R321). A training set is received and advances the lane's training state. -/
  | trainingSet (n : Fin 32) (ts : TrainSet)
  /-- ORDER_DECIDE (R325). The DOWN end decides the port's lanes once every lane is in ORDER or 2 ms pass. -/
  | orderDecide (p : Fin 16) (first : Nat) (own : Nat)
  /-- TRAIN_TIMEOUT (R327). A training state's time limit expires and the port fails training. -/
  | trainTimeout (n : Fin 32)
  /-- BACKOFF_EXPIRE (R328). The back-off time after a failure expires and the lanes send TS again. -/
  | backoffExpire (p : Fin 16)
  /-- EQ_CONVERGED (R327). Local equaliser adaptation converges and the lane sends DONE. -/
  | eqConverged (n : Fin 32) (ctle : BitVec 4) (dfe : BitVec 30)
  /-- LANE_DOWN (R329). A port leaves UP and discards its replay, credit and sequences. -/
  | laneDown (p : Fin 16) (cause : Fin 5)
  /-- LOS_CHANGE (R331). A lane's signal amplitude or CDR lock crosses its threshold for 100 ns and LOS or LOL changes. -/
  | losChange (n : Fin 32) (mv : Nat) (lol : Bool)
  /-- QPLL_LOSS (R307). A quad transmit PLL loses lock and its ports go to DETECT. -/
  | qpllLoss (q : Fin 8) (refclk : Bool)
  /-- CODE_ERROR (R314). A received symbol is not a valid code group and an error marker replaces it. -/
  | codeError (n : Fin 32) (l : LineIn)
  /-- GROUT_SEND (R315). Every 1,024 symbols a transmitter sends one grout set. -/
  | groutSend (n : Fin 32)
  /-- GROUT_RECEIVE (R316). A received grout set lets the elastic buffer add or delete a K28.0 and checks alignment. -/
  | groutReceive (n : Fin 32) (g : GroutAt) (data : Bool) (fill : Fin 33)
  /-- EB_SLIP (R317). An elastic buffer runs empty or full and restarts, passing error markers. -/
  | ebSlip (n : Fin 32)
  /-- EQ_FREEZE (R320). 4,096 symbols without data freeze equaliser adaptation. -/
  | eqFreeze (x : PlainRun)
  /-- LANE_CTL_WRITE (R332). A write of LANE_CTL, including a loopback selection refused on a port in use. -/
  | laneCtlWrite (r : Req) (n : Fin 32) (v : Word)
  /-- PRBS_CTL_WRITE (R333). A write of PRBS_CTL enabling the generator or checker or changing the pattern. -/
  | prbsCtlWrite (r : Req) (q : Fin 8) (v : Word)
  /-- INJ1 (R335). PRBS_CTL.INJ1 inverts one line bit of the generator's next word. -/
  | inj1 (r : Req) (q : Fin 8) (v : Word)
  /-- INJB (R335). PRBS_CTL.INJB inverts BURST consecutive line bits. -/
  | injb (r : Req) (q : Fin 8) (v : Word)
  /-- PRBS_LOCK (R334). The checker matches 256 consecutive bits and locks. -/
  | prbsLock (x : QuadBits)
  /-- PRBS_LOCK_LOST (R334). 32 of 256 bits mismatch and the checker loses lock. -/
  | prbsLockLost (q : Fin 8) (before : List Bool) (last : List Bool)
  /-- HOD_ARRIVAL (R343). A sequenced hod arrives and the receiver accepts, discards as duplicate, or NAKs it. -/
  | hodArrival (p : Fin 16) (lines : List LineIn)
  /-- LINK (R346). A LINK hod is received; ACK or NAK frees or replays entries and credit limits update. -/
  | link (p : Fin 16) (nak : Bool) (seq : BitVec 12) (l0 : BitVec 16) (l1 : BitVec 16) (l2 : BitVec 16) (l3 : BitVec 16)
  /-- LINK_HOD_SEND (R344). An end sends a LINK hod after an acceptance, 16 hods, a NAK, a credit rise, or 10 µs. -/
  | linkHodSend (p : Fin 16)
  /-- REPLAY_TIMEOUT (R346). The oldest replay entry stays unacknowledged for REPLAY_TMO and every entry is sent again. -/
  | replayTimeout (p : Fin 16)
  /-- LINK_SILENT (R346). No valid LINK hod for 1 ms in UP and the port leaves UP. -/
  | linkSilent (p : Fin 16)
  /-- READ (R355). A REQ READ reads COUNT words in one fabric access and answers with a CPL. -/
  | read (p : Fin 16) (tag : BitVec 7) (ws : List Word)
  /-- WRITE (R355). A REQ WRITE writes COUNT words in one fabric access and answers with a CPL. -/
  | write (p : Fin 16) (tag : BitVec 7) (ws : List Word)
  /-- EVENT_HOD_SEND (R363). A queued EVENT hod leaves on the primary UP port. -/
  | eventHodSend
  /-- LINK_CFG_WRITE (R364). A write of LINK_CFG names the primary and second parent ports. -/
  | linkCfgWrite (r : Req) (v : Word)
  /-- T_REQ_SEND (R374). The exchange interval expires and the hub sends a T_REQ to its parent. -/
  | tReqSend (second : Bool) (t1 : Nat)
  /-- T_REQ (R375). A T_REQ arriving on a DOWN port is answered with a T_RESP or discarded. -/
  | tReq (p : Fin 16) (hid : BitVec 14) (tsid : BitVec 8) (t2 : Nat) (t3 : Nat)
  /-- T_RESP (R376). A T_RESP is received, validated and turned into a servo measurement. -/
  | tResp (p : Fin 16) (tsid : BitVec 8) (steps : BitVec 8) (q : BitVec 2) (t2 : Nat) (t3 : Nat) (t4 : Nat)
  /-- SRC_LOST (R381). Sixteen intervals pass without a valid measurement, or the source drops, and the servo coasts. -/
  | srcLost
  /-- TT_PROBE (R379). A write of TT_PROBE sends one PROBE hod and queues its transmit stamp. -/
  | ttProbe (r : Req) (v : Word) (t : Nat)
  /-- TSQ_POP (R378). A read of TSQ_POP removes the oldest transmit stamp into the reader's shadow. -/
  | tsqPop (r : Req) (p : Fin 16)
  /-- TT_STEP_IMMEDIATE (R383). A write of TT_STEP with MODE IMMEDIATE schedules a step 20 µs away. -/
  | ttStepImmediate (r : Req) (v : Word)
  /-- TT_STEP_NEXT_SEC (R383). A write of TT_STEP with MODE NEXT_SEC schedules a step at the next whole second. -/
  | ttStepNextSec (r : Req) (v : Word)
  /-- TT_STEP_CANCEL (R383). A write of TT_STEP with MODE CANCEL drops a pending step. -/
  | ttStepCancel (r : Req) (v : Word)
  /-- FORCED_SLEW (R387). A write of TT_STEP.SLEW in JUMP starts a forced slew. -/
  | forcedSlew (r : Req) (v : Word)
  /-- TIME_STEP (R384). The step instant arrives; ST moves by Δ, grid epochs move, and TDISC records are built. -/
  | timeStep
  /-- TIME_SRC_WRITE (R381). A write of TIME_CTL.SRC resets the servo to FREE or WAIT. -/
  | timeSrcWrite (r : Req) (v : Word)
  /-- TT_ASYM_WRITE (R390). A write of TT_ASYM sets the hop asymmetry and ends a pending route change. -/
  | ttAsymWrite (r : Req) (second : Bool) (v : Word)
  /-- TT_CTL_WRITE (R381). A write of TT_CTL, including FREEZE that holds the servo in COAST. -/
  | ttCtlWrite (r : Req) (v : Word)
  /-- APPLY (R408). CS_CMD APPLY checks the staged cornerstone set and puts it in force as a legally relevant change. -/
  | apply (r : Req) (arg : BitVec 16) (vh : BitVec 16)
  /-- RELOAD (R408). CS_CMD RELOAD copies the active set into the stage. -/
  | reload (r : Req)
  /-- FW_BLOCK (R408). CS_CMD FW_BLOCK writes one block of the inactive firmware copy. -/
  | fwBlock (r : Req) (arg : BitVec 16) (vh : BitVec 16)
  /-- FW_COMMIT (R408). CS_CMD FW_COMMIT checks the firmware digest, switches copies and restarts the cornerstone core. -/
  | fwCommit (r : Req) (arg : BitVec 16) (vh : BitVec 16)
  /-- METER_SAMPLE (R397). A meter samples its inputs on a metered SMPL edge and updates its integrators. -/
  | meterSample (j : Fin 16) (edge : Nat) (tau : Nat)
  /-- INTERVAL_END (R402). A metering interval ends; the meter builds a METER record, updates IMP and EXP and saves the energy slot. -/
  | intervalEnd (j : Fin 16) (vh : BitVec 16)
  /-- METER_RECORD_PLACE (R405). A buffered METER record is placed in its carrier stream once the carrier is active in ACQUIRE. -/
  | meterRecordPlace (j : Fin 16)
  /-- SEAL_OPEN (R406). SEAL_N held low for 1 ms unseals the partition. -/
  | sealOpen
  /-- SEAL_CLOSE (R406). SEAL_N held high for 1 ms seals the partition. -/
  | sealClose
  /-- IDENTITY_DONE (R409). The cornerstone finishes recomputing its identity and ID_BUSY clears. -/
  | identityDone
  /-- CS_UNCORR (R411). An uncorrectable cornerstone error stops metering and sends the hub to SAFE. -/
  | csUncorr
  /-- MGP_NOP (R416). A management frame with OP NOP has no effect on registers. -/
  | mgpNop (frame : BitVec 72) (edges : Nat)
  /-- MGP_REPEAT (R418). A NOP with data 1 makes the next response repeat the last RESULT. -/
  | mgpRepeat (frame : BitVec 72) (edges : Nat)
  /-- MGP_READ (R417). A management READ frame is accepted and becomes a pending fabric read. -/
  | mgpRead (frame : BitVec 72) (edges : Nat)
  /-- MGP_WRITE (R417). A management WRITE frame is accepted and becomes a pending fabric write. -/
  | mgpWrite (frame : BitVec 72) (edges : Nat)
  /-- MGP_ACCESS_DONE (R417). A pending management access completes and its RESULT waits. -/
  | mgpAccessDone
  /-- MGP_RESPONSE_LOAD (R418). At the falling edge of MSCS_N the response for the frame is loaded into the shift register. -/
  | mgpResponseLoad
  /-- MODE_OWNER_WRITE (R421). A write of MODE_OWNER.OWNER claims or releases the right to change MODE. -/
  | modeOwnerWrite (r : Req) (v : Word)
  /-- OWNER_FORCED (R423). A manager write of MODE_OWNER.FORCE takes ownership whatever it was. -/
  | ownerForced (r : Req) (own : BitVec 2)
  /-- OWNER_RELEASED (R423). Host ownership lapses after 100 ms without the primary port, or JTAG ownership at a TAP reset. -/
  | ownerReleased (jtag : Bool)
  /-- GUARD_CONVERSION (R427). The guard scan converts one temperature or supply and checks its trip and warning levels. -/
  | guardConversion (k : Fin 28) (code : BitVec 12)
  /-- HK_GO (R429). A write of HK_TRIG.GO triggers a sequencer run. -/
  | hkGo (r : Req) (v : Word)
  /-- HK_PERIOD_TICK (R429). In PERIODIC mode the timer expires and triggers a sequencer run. -/
  | hkPeriodTick
  /-- HK_SEQ_ENTRY (R428). A sequencer entry completes its conversions and writes its result, checking limits. -/
  | hkSeqEntry (sum : BitVec 19)
  /-- HK_RUN_END (R429). A sequencer run ends and any pending run starts. -/
  | hkRunEnd
  /-- HK_CTL_WRITE (R430). A write of HK_CTL enables or disables the sequencer. -/
  | hkCtlWrite (r : Req) (v : Word)
  /-- POR (R437). VDD_AON falls below its power-on level and the hub resets, keeping only the VBAT registers and MRAM. -/
  | por
  /-- BOR (R437). A main supply falls below its brown-out level outside DORMANT and the hub resets. -/
  | bor (x : Rails)
  /-- PIN (R439). RST_N held low resets the hub, deferred past an MRAM pulse. -/
  | pin (x : Lasted)
  /-- WDOG_EXPIRE (R440). The watchdog count expires without a kick, warning the first time and resetting the second. -/
  | wdogExpire (x : Lasted)
  /-- WDT_KICK (R440). A write of 0x4B49 to WDT_KICK restarts the watchdog count. -/
  | wdtKick (r : Req) (v : Word)
  /-- SOFT (R441). A write of RST_CTL.SOFT resets the hub. -/
  | soft (r : Req) (v : Word) (n : BitVec 7)
  /-- DEBUG (R437). A reset request through the JTAG port resets the hub. -/
  | debugReset (n : BitVec 7)
  /-- CLKF (R438). A monitored clock fails and the hub resets. -/
  | clkf (clock : Fin 3) (n : BitVec 7)
  /-- LOCKUP (R437). A mason double fault or fabric timeout resets the hub, or is only logged with LOCKUP_ACT set. -/
  | lockup (x : Stuck)
  /-- NV_BATCH_DONE (R442). An MRAM write batch completes its rows. -/
  | nvBatchDone
  /-- MAIN_POWER_GOOD (R436). All main rails stay above their power-good levels for 100 µs. -/
  | mainPowerGood
  /-- OPTION_LOAD (R447). The option-load state machine loads copy A, copy B or defaults and applies the strap. -/
  | optionLoad (raw : BitVec 12) (errA : Bool) (errB : Bool)
  /-- READ_A (R449). OPT_CMD READ_A copies option copy A into staging. -/
  | readA (r : Req)
  /-- READ_B (R449). OPT_CMD READ_B copies option copy B into staging. -/
  | readB (r : Req)
  /-- WRITE_A (R449). OPT_CMD WRITE_A checks staging and writes it as option copy A. -/
  | writeA (r : Req) (vh : BitVec 16)
  /-- WRITE_B (R449). OPT_CMD WRITE_B checks staging and writes it as option copy B. -/
  | writeB (r : Req) (vh : BitVec 16)
  /-- NV_CMD (R450). A write of NV_CMD writes rows of a boot image from NV_BUF as one batch. -/
  | nvCmd (r : Req) (v : Word) (vh : BitVec 16)
  /-- RELEASE_STEP (R453). A release step reports ready and the RPC releases the next block, entering HOLD or SAFE after the last. -/
  | releaseStep (vh : BitVec 16)
  /-- BLK_RST (R452). A write of BLK_RST resets one idle block to its POR state. -/
  | blkRst (r : Req) (v : Word)
  /-- MODE_ACQUIRE (R455). A MODE write of ACQUIRE from HOLD starts streams and triggers. -/
  | modeAcquire (r : Req)
  /-- MODE_HOLD (R455). A MODE write of HOLD from ACQUIRE hands on open hods and drains into the yard. -/
  | modeHold (r : Req)
  /-- MODE_SAFE (R455). A MODE write of SAFE from HOLD or ACQUIRE stops the data path. -/
  | modeSafe (r : Req)
  /-- MODE_DORMANT (R456). A MODE write of DORMANT closes mason hods, stops tiles and grids and enters KILN or DORMANT. -/
  | modeDormant (r : Req) (nokiln : Bool) (discard : Bool)
  /-- MODE_BRINGUP (R455). A manager MODE write of BRINGUP in DORMANT with main power good starts the release. -/
  | modeBringup (r : Req)
  /-- SAFE_ENTRY (R455). A fault or HK_OVERTEMP sends the hub to SAFE by itself. -/
  | safeEntry (cause : BitVec 16)
  /-- ALERT_CTL_WRITE (R460). A write of ALERT_CTL.READY releases ALERT_N in HOLD or ACQUIRE. -/
  | alertCtlWrite (r : Req) (v : Word)
  /-- TRIGIO_CTL_WRITE (R496). A write of TRIGIO_CTL configures a trigger I/O ball. -/
  | trigioCtlWrite (r : Req) (k : Fin 4) (v : Word)
  /-- SEGMENT_END (R464). A kiln segment completes its pattern set or its budget expires and reports its result. -/
  | segmentEnd (run : SegRun) (fault : Bool) (patterns : BitVec 24) (map : BitVec 18)
  /-- KILN_DONE (R468). The shutdown kiln writes its record and the hub enters DORMANT. -/
  | kilnDone (vh : BitVec 16)
  /-- KILN_GO (R473). A write of KILN_CTL.GO starts an on-demand test of one idle block. -/
  | kilnGo (r : Req) (v : Word)
  /-- INTSCAN (R476). The INTSCAN instruction zeroises secrets and connects internal scan, or is refused while sealed. -/
  | intscan
  /-- DBG_RESET (R498). The DBG_RESET instruction raises a DEBUG reset at Update-IR. -/
  | dbgReset (n : BitVec 7)
  /-- EXTEST (R498). The EXTEST instruction drives and samples the balls. -/
  | extest (seen : BitVec 1472) (set_ : BitVec 1472)
  /-- SAMPLE_PRELOAD (R498). The SAMPLE/PRELOAD instruction samples the balls. -/
  | samplePreload (seen : BitVec 1472) (set_ : BitVec 1472)
  /-- IDCODE (R498). The IDCODE instruction selects the identification register. -/
  | idcode
  /-- CLAMP (R498). The CLAMP instruction holds boundary values at the balls. -/
  | clamp
  /-- HIGHZ (R498). The HIGHZ instruction puts all outputs in high impedance. -/
  | highz
  /-- EXTEST_PULSE (R498). The IEEE 1149.6 pulse test of the lane balls. -/
  | extestPulse (seen : BitVec 1472) (set_ : BitVec 1472)
  /-- EXTEST_TRAIN (R498). The IEEE 1149.6 pulse-train test of the lane balls. -/
  | extestTrain (seen : BitVec 1472) (set_ : BitVec 1472)
  /-- BYPASS (R498). The BYPASS instruction, also taken by every unlisted code. -/
  | bypass
  /-- LOG_CLEAR (R479). A write of LOG_CTL.CLEAR empties the trouble log. -/
  | logClear (r : Req) (v : Word)
  /-- QUAD_PLL_LOCK (R307). A quad transmit PLL regains lock, PLL_LOCK reads 1 again and training of its ports resumes. -/
  | quadPllLock (q : Fin 8)
  /-- VDD_AON_POWER_ON (R453). VDD_AON rises above its power-on level, ending POR and starting option load and the release. -/
  | vddAonPowerOn
  /-- RST_N_HIGH (R439). RST_N returns high and the hub begins the release of R453 once any deferral has ended. -/
  | rstNHigh
  /-- VDD_CST_LOSS (R410). VDD_CST falls below its loss level and the cornerstone is reset. -/
  | vddCstLoss
  /-- VDD_CST_RETURN (R410). VDD_CST returns and the cornerstone restores its state from the newest valid MRAM slots and recomputes its identity. -/
  | vddCstReturn
  /-- VBAT_LOSS (R102). VBAT is lost while VDD_AON is absent, and the RTC and the registers it keeps lose their contents. -/
  | vbatLoss
  /-- MAIN_POWER_LOSS (R457). Main supplies are removed in DORMANT, where the BOR monitor is disarmed, and main power good clears. -/
  | mainPowerLoss
  deriving DecidableEq, Repr

end Sys2Proof
end

