-- ==== Sys2Proof/Config.lean ====
section
/-!
DEFINITION. What the spec leaves to the silicon or leaves open, as constants without a body: no proof can see a value of them, so a statement
about them holds whatever they are (notes/assumptions/4.md and 5.md).
-/

namespace Sys2Proof

/-- The `n`-th value that the spec leaves open in a run. -/
opaque Config.freeValue (w : Nat) : Nat → BitVec w

/-- The linearity correction of a slice conversion, in word steps: by the name of the slice's linearity trims and the 16-bit code
(R43). -/
opaque Config.trimCorr : Nat → Nat → Int

/-- The aperture trim of slice `sl` of tile `t`: how far its sampling instant lies from its clock edge, in units of 1/(5 · 2^32) ns (R123, R126). -/
opaque Config.aperture : Nat → Nat → Int

/-- The taps of the half-band filters, 31 signed values with 15 fraction bits, by index (R118): the spec gives their response and not their
values. -/
opaque Config.hbTap : Nat → Int

/-- The resampler's prototype, by phase row and tap (R122): the spec gives its response and not its values. -/
opaque Config.resTap : Nat → Nat → Int

/-- The outputs F and S of the time servo's loop filter, before their limits, in units of 2^-40: by whether the source is ROOT, the offset in
1/65,536 ns, F before, and LOG_INTV. The spec gives the loop's order and bandwidth and not its gains (R380). -/
opaque Config.servo : Bool → Int → Int → Nat → Int × Int

/-- The fixed latency of a lane from its serialiser to the ball, by RATE, in units of 1/65,536 ns (R371). -/
opaque Config.txLat : Nat → Nat

/-- The fixed latency of a lane from the ball to its deserialiser, by RATE, in units of 1/65,536 ns (R371). -/
opaque Config.rxLat : Nat → Nat

/-- Where the rich idle of a lane begins in its sequence (R319). -/
opaque Config.idleSeed : Nat → Nat

/-- Where the pattern of a generator begins in its sequence (R333). -/
opaque Config.prbsSeed : Nat → Nat

/-- The word that a shift register, a line or a pin carries where the spec says only that the outside world gives it none. -/
opaque Config.floating : Nat → BitVec 32

/-- The hub's unique identifier, eight bytes (R404, R413). -/
opaque Config.uid : BitVec 64

/-- The device key of the cornerstone's one-time-programmable memory (R404): the spec gives no length of it. -/
opaque Config.csKey : List Byte

/-- The full pattern count of kiln segment `s` (R465): the spec gives it for one segment, in an example. -/
opaque Config.kilnExp : Nat → BitVec 24

/-- How far the comparator of a level of a main rail lies from the level: modulo 21, less 10, in mV. The levels carry ±10 mV of tolerance (R485). The
power-good level of rail `k` is `2 * k` and its brown-out level `2 * k + 1`. -/
opaque Config.railTol : Nat → Nat

/-- A ball with boundary-scan cells (R498): the analogue, REFBYP and supply balls have none. -/
inductive Ball where
  | trigio (k : Nat)
  | ppsOut
  | mirqN
  | alertN
  | msdo
  | lane (n : Nat)
  deriving DecidableEq, Repr

/-- What the boundary-scan cells drive at a ball for the values that they hold: a level, or nothing. The order of the cells stands in a file that the
spec does not hold (R498). -/
opaque Config.bsrDrive : BitVec 1472 → Ball → Option Bool

/-- The length of the internal scan chains, which the spec does not give (R476, R498). -/
opaque Config.scanLen : Nat

/-- Whether the fuses name the -X grade, whose trip level is 135 °C (R427, R490). -/
opaque Config.gradeX : Bool

end Sys2Proof
end

