-- ==== Sys2Proof/Machine/Bits.lean ====
section
/-!
DEFINITION. Bit fields, sign extension, saturation and rounding, over natural numbers and integers, once for the whole model.
-/

namespace Sys2Proof.Machine

/-- Bits `hi` to `lo` of a number. -/
def bits (n hi lo : Nat) : Nat := n / 2 ^ lo % 2 ^ (hi + 1 - lo)

/-- One bit of a number. -/
def bit (n i : Nat) : Bool := n / 2 ^ i % 2 == 1

/-- A number with bits `hi` to `lo` replaced by the low bits of `v`. -/
def putBits (n hi lo v : Nat) : Nat :=
  n / 2 ^ (hi + 1) * 2 ^ (hi + 1) + v % 2 ^ (hi + 1 - lo) * 2 ^ lo + n % 2 ^ lo

/-- 1 for true and 0 for false. -/
def b2n (b : Bool) : Nat := if b then 1 else 0

/-- The signed value of the low `w` bits of a number. -/
def sx (w n : Nat) : Int :=
  let m := n % 2 ^ w
  if 2 * m < 2 ^ w then (m : Int) else (m : Int) - 2 ^ w

/-- The low `w` bits of an integer, as a number. -/
def wrap (w : Nat) (i : Int) : Nat := (i % 2 ^ w).toNat

/-- An integer brought into the range of a signed number of `w` bits. -/
def satS (w : Nat) (i : Int) : Int :=
  if i < -(2 ^ (w - 1)) then -(2 ^ (w - 1)) else if 2 ^ (w - 1) - 1 < i then 2 ^ (w - 1) - 1 else i

/-- A counter that stops at its largest value ("saturates"). -/
def satAdd (w a b : Nat) : Nat := if a + b < 2 ^ w then a + b else 2 ^ w - 1

/-- The quotient rounded to nearest, ties away from zero. -/
def divRound (a b : Int) : Int :=
  if 0 ≤ a then (2 * a + b) / (2 * b) else -((2 * (-a) + b) / (2 * b))

/-- The quotient rounded to nearest, ties to the even neighbour (convergent rounding, R43, R122). -/
def divEven (a : Int) (b : Nat) : Int :=
  let q := a / (b : Int)
  let r := a - q * b
  if 2 * r < b then q else if (b : Int) < 2 * r then q + 1 else if q % 2 = 0 then q else q + 1

/-- The least `s` with `n ≤ 2 ^ s`. -/
def clog2 (n : Nat) : Nat := if n ≤ 1 then 0 else Nat.log2 (n - 1) + 1

/-- The quotient of naturals rounded up. -/
def ceilDiv (a b : Nat) : Nat := (a + b - 1) / b

/-- The absolute value of an integer as a natural number. -/
def iabs (i : Int) : Nat := i.natAbs

/-- One bit of a register word. -/
def wbit (w : Word) (i : Nat) : Bool := bit w.toNat i

/-- The bytes of a register word, most significant first (R3). -/
def wordBE (w : Word) : List Byte :=
  [BitVec.ofNat 8 (w.toNat / 2 ^ 24), BitVec.ofNat 8 (w.toNat / 2 ^ 16), BitVec.ofNat 8 (w.toNat / 2 ^ 8), BitVec.ofNat 8 w.toNat]

/-- The number that a list of bytes spells, most significant first (R3). -/
def beNat (bs : List Byte) : Nat := bs.foldl (fun n b => n * 256 + b.toNat) 0

/-- The low `k` bytes of a number, most significant first. -/
def natBE : Nat → Nat → List Byte
  | 0, _ => []
  | k + 1, n => BitVec.ofNat 8 (n / 256 ^ k) :: natBE k n

/-- A list of bytes as words, most significant byte first; a last group of fewer than four bytes is dropped. -/
def bytesToWords : List Byte → List Word
  | a :: b :: c :: d :: r => BitVec.ofNat 32 (beNat [a, b, c, d]) :: bytesToWords r
  | _ => []

/-- A list of words as bytes, most significant byte first. -/
def wordsToBytes : List Word → List Byte
  | [] => []
  | w :: ws => wordBE w ++ wordsToBytes ws

/-- The numbers from `a`, `n` of them. -/
def range' : Nat → Nat → List Nat
  | _, 0 => []
  | a, n + 1 => a :: range' (a + 1) n

/-- A field of a register: its register's byte address and its bits. -/
structure Fld where
  addr : Nat
  hi : Nat
  lo : Nat
  deriving DecidableEq, Repr

/-- A course number is 48 bits wide (R93). -/
def c48 (n : Nat) : Nat := n % 2 ^ 48

end Sys2Proof.Machine
end

