-- ==== Sys2Proof/Machine/Codec.lean ====
section
/-!
DEFINITION. Check values and the hod header: CRC-32 (R339), CRC-32C (R288), CRC-8 (R100), SHA-256 and HMAC (R404, R409), the 64-bit header
of a hod (R340), and strings of values packed in words (R256).
-/

namespace Sys2Proof.Machine

/-! ### Cyclic redundancy checks -/

/-- `k` shifts of a reflected CRC register. -/
def crcShift (poly : Nat) : Nat → Nat → Nat
  | 0, c => c
  | k + 1, c => crcShift poly k (if c % 2 = 1 then Nat.xor (c / 2) poly else c / 2)

/-- A reflected 32-bit CRC over bytes, initial value and final complement 0xFFFF_FFFF. -/
def crcReflected (poly : Nat) (bs : List Byte) : Nat :=
  Nat.xor (bs.foldl (fun c b => crcShift poly 8 (Nat.xor c b.toNat)) 0xFFFFFFFF) 0xFFFFFFFF

/-- CRC-32 of IEEE 802.3 (R339). -/
def crc32 (bs : List Byte) : Nat := crcReflected 0xEDB88320 bs

/-- CRC-32C (R204, R288). -/
def crc32c (bs : List Byte) : Nat := crcReflected 0x82F63B78 bs

/-- `k` shifts of the CRC-8 register of x^8 + x^2 + x + 1, most significant bit first. -/
def crc8Shift : Nat → Nat → Nat
  | 0, c => c
  | k + 1, c => crc8Shift k (if 128 ≤ c then Nat.xor (c * 2 % 256) 7 else c * 2)

/-- The CRC-8 of a time-of-day message and of a training set, initial value 0 (R100, R321). -/
def crc8 (bs : List Byte) : Nat := bs.foldl (fun c b => crc8Shift 8 (Nat.xor c b.toNat)) 0

/-! ### SHA-256 and HMAC (FIPS 180-4, FIPS 198-1) -/

/-- Word `i` of eight that a number of 256 bits spells, most significant first. -/
def word256 (x i : Nat) : Nat := x / 2 ^ (32 * (7 - i)) % 2 ^ 32

/-- The round constants of SHA-256 in rows of eight: of each of the first 64 primes, 32 bits of its cube root behind the point. -/
def shaRow : Nat → Nat
  | 0 => 0x428A2F9871374491B5C0FBCFE9B5DBA53956C25B59F111F1923F82A4AB1C5ED5
  | 1 => 0xD807AA9812835B01243185BE550C7DC372BE5D7480DEB1FE9BDC06A7C19BF174
  | 2 => 0xE49B69C1EFBE47860FC19DC6240CA1CC2DE92C6F4A7484AA5CB0A9DC76F988DA
  | 3 => 0x983E5152A831C66DB00327C8BF597FC7C6E00BF3D5A7914706CA635114292967
  | 4 => 0x27B70A852E1B21384D2C6DFC53380D13650A7354766A0ABB81C2C92E92722C85
  | 5 => 0xA2BFE8A1A81A664BC24B8B70C76C51A3D192E819D6990624F40E3585106AA070
  | 6 => 0x19A4C1161E376C082748774C34B0BCB5391C0CB34ED8AA4A5B9CCA4F682E6FF3
  | _ => 0x748F82EE78A5636F84C878148CC7020890BEFFFAA4506CEBBEF9A3F7C67178F2

/-- The hash value before the first block: of each of the first eight primes, 32 bits of its square root behind the point. -/
def shaStart : List Nat := (range' 0 8).map (word256 0x6A09E667BB67AE853C6EF372A54FF53A510E527F9B05688C1F83D9AB5BE0CD19)

/-- The exclusive or of three rotations of a 32-bit word to the right. -/
def turn3 (x i j k : Nat) : Nat :=
  let r (n : Nat) : Nat := x / 2 ^ n + x % 2 ^ n * 2 ^ (32 - n)
  Nat.xor (r i) (Nat.xor (r j) (r k))

/-- The exclusive or of two rotations and a shift of a 32-bit word to the right. -/
def turn2 (x i j k : Nat) : Nat :=
  let r (n : Nat) : Nat := x / 2 ^ n + x % 2 ^ n * 2 ^ (32 - n)
  Nat.xor (r i) (Nat.xor (r j) (x / 2 ^ k))

/-- The working variables of SHA-256. -/
structure Sha where
  a : Nat
  b : Nat
  c : Nat
  d : Nat
  e : Nat
  f : Nat
  g : Nat
  h : Nat

/-- One round with its constant and its schedule word together. -/
def Sha.round (v : Sha) (kw : Nat) : Sha :=
  let pick := Nat.xor v.g (Nat.land v.e (Nat.xor v.f v.g))
  let most := Nat.lor (Nat.land v.a v.b) (Nat.land v.c (Nat.lor v.a v.b))
  let t := v.h + turn3 v.e 6 11 25 + pick + kw
  ⟨(t + turn3 v.a 2 13 22 + most) % 2 ^ 32, v.a, v.b, v.c, (v.d + t) % 2 ^ 32, v.e, v.f, v.g⟩

/-- `n` rounds from round `i` on; the list holds the sixteen schedule words from round `i`'s on, oldest first. -/
def shaRounds : Nat → Nat → List Nat → Sha → Sha
  | 0, _, _, v => v
  | n + 1, i, ws, v =>
    let w (k : Nat) : Nat := ws.getD k 0
    let new := (w 0 + turn2 (w 1) 7 18 3 + w 9 + turn2 (w 14) 17 19 10) % 2 ^ 32
    shaRounds n (i + 1) (ws.drop 1 ++ [new]) (v.round (word256 (shaRow (i / 8)) (i % 8) + w 0))

/-- One 64-byte block of SHA-256 from a hash value of eight words. -/
def shaBlock (hs : List Nat) (blk : List Byte) : List Nat :=
  let h (k : Nat) : Nat := hs.getD k 0
  let v := shaRounds 64 0 ((bytesToWords blk).map BitVec.toNat) ⟨h 0, h 1, h 2, h 3, h 4, h 5, h 6, h 7⟩
  List.zipWith (fun x y => (x + y) % 2 ^ 32) hs [v.a, v.b, v.c, v.d, v.e, v.f, v.g, v.h]

/-- SHA-256 over `n` blocks of a padded message. -/
def shaBlocks : Nat → List Nat → List Byte → List Nat
  | 0, h, _ => h
  | n + 1, h, bs => shaBlocks n (shaBlock h (bs.take 64)) (bs.drop 64)

/-- The padding of SHA-256 for a message of `n` bytes. -/
def shaPad (n : Nat) : List Byte := (0x80 : Byte) :: List.replicate ((119 - n % 64) % 64) 0 ++ natBE 8 (8 * n)

/-- SHA-256 of a message, 32 bytes. -/
def sha256 (m : List Byte) : List Byte :=
  let p := m ++ shaPad m.length
  (shaBlocks (p.length / 64) shaStart p).flatMap (natBE 4)

/-- HMAC-SHA-256: a key longer than a block is hashed first (FIPS 198-1, R404). -/
def hmac256 (key m : List Byte) : List Byte :=
  let k0 := if 64 < key.length then sha256 key else key
  let k := k0 ++ List.replicate (64 - k0.length) 0
  let pad (x : Byte) := k.map fun b => b ^^^ x
  sha256 (pad 0x5C ++ sha256 (pad 0x36 ++ m))

/-! ### The hod -/

/-- A hod as fields (R339, R340): `sub` is the SID, or the OP and TAG, of header bits [28:16]. -/
structure Hod where
  typ : Nat
  vc : Nat
  flags : Nat
  hid : Nat
  sub : Nat
  lseq : Nat
  payload : List Word
  deriving DecidableEq, Repr

/-- The header of a hod as a 64-bit number (R340). -/
def Hod.header (h : Hod) : Nat :=
  h.typ % 16 * 2 ^ 60 + h.vc % 4 * 2 ^ 58 + h.flags % 16 * 2 ^ 54 + h.payload.length % 2 ^ 11 * 2 ^ 43 + h.hid % 2 ^ 14 * 2 ^ 29
    + h.sub % 2 ^ 13 * 2 ^ 16 + h.lseq % 2 ^ 12

/-- The header and payload bytes of a hod in wire order (R3, R339). -/
def Hod.bytes (h : Hod) : List Byte := natBE 8 h.header ++ wordsToBytes h.payload

/-- The CRC a hod carries on the wire (R339). -/
def Hod.crc (h : Hod) : Nat := crc32 h.bytes

/-- OP and TAG in header bits [28:16] (R340). -/
def opTag (op tag : Nat) : Nat := op % 64 * 128 + tag % 128

/-! ### Values packed in words -/

/-- The number of data words of `n` values of `w` bits (R256). -/
def dataWords (w n : Nat) : Nat := ceilDiv (n * w) 32

/-- The low `k` words of a number, most significant first. -/
def natWords : Nat → Nat → List Word
  | 0, _ => []
  | k + 1, n => BitVec.ofNat 32 (n / 2 ^ (32 * k)) :: natWords k n

/-- Values of `w` bits as one bit string, most significant bit first, padded with zeros to whole words (R256). -/
def packVals (w : Nat) (vs : List Nat) : List Word :=
  let d := dataWords w vs.length
  let n := vs.foldl (fun a v => a * 2 ^ w + v % 2 ^ w) 0
  natWords d (n * 2 ^ (32 * d - w * vs.length))

/-- The number that a list of words spells. -/
def wordsNat (ws : List Word) : Nat := ws.foldl (fun a v => a * 2 ^ 32 + v.toNat) 0

/-- The first `n` values of `w` bits of a bit string of `len` bits. -/
def unpackGo (w x len : Nat) : Nat → Nat → List Nat
  | 0, _ => []
  | n + 1, k => x / 2 ^ (len - w * (k + 1)) % 2 ^ w :: unpackGo w x len n (k + 1)

/-- The first `n` values of `w` bits in data words (R256). -/
def unpackVals (w n : Nat) (ws : List Word) : List Nat := unpackGo w (wordsNat ws) (32 * ws.length) n 0

end Sys2Proof.Machine
end

