-- ==== Sys2Proof/Machine/Coding.lean ====
section
/-!
DEFINITION. What travels on a lane, as data: symbols and their 8b/10b code (R312; the code table is that of IEEE 802.3 clause 36, which the spec names
and does not print: notes/assumptions/104.md), words and grout (R311, R315), the frame of a hod (R339), training sets (R321), and the pattern sequences
with their checker (R319, R333, R334).
-/

namespace Sys2Proof.Machine

/-- A symbol of a lane: a data byte, a special symbol by its byte, or what stands for a code error, of the running disparity or not (R312, R314). -/
inductive Sym where
  | d (b : Byte)
  | k (b : Byte)
  | bad (disp : Bool)
  deriving DecidableEq, Repr

/-! ### The special symbols (R312) -/

/-- K28.5, the comma. -/
def Sym.comma : Sym := .k 0xBC
/-- K28.0, the grout fill. -/
def Sym.fill : Sym := .k 0x1C
/-- K28.3, the lane marker. -/
def Sym.marker : Sym := .k 0x7C
/-- K27.7, SOF. -/
def Sym.sof : Sym := .k 0xFB
/-- K23.7, the SOF of a TIME hod. -/
def Sym.timeSof : Sym := .k 0xF7
/-- K29.7, EOF. -/
def Sym.eof : Sym := .k 0xFD
/-- K30.7, abort. -/
def Sym.abort : Sym := .k 0xFE

/-- The special symbols that the hub uses; any other is a code error (R312, R314). -/
def specials : List Sym := [.comma, .fill, .marker, .sof, .timeSof, .eof, .abort]

/-! ### The 8b/10b code (R312) -/

/-- abcdei of D.x with negative running disparity, a first; that of K23, K27, K29 and K30 as well. -/
def six (x : Nat) : Nat :=
  [39, 29, 45, 49, 53, 41, 25, 56, 57, 37, 21, 52, 13, 44, 28, 23, 27, 35, 19, 50, 11, 42, 26, 58, 51, 38, 22, 54, 14, 46, 30, 43].getD x 0

/-- The bits of a group of `w` that are one. -/
def groupOnes : Nat → Nat → Nat
  | 0, _ => 0
  | w + 1, n => n % 2 + groupOnes w (n / 2)

/-- The running disparity is negative after a sub-block of `w` bits (6 or 4), by its bits: the all-but-balanced 000111, 111000, 0011 and 1100 set it too. -/
def negAfter (w : Nat) (neg : Bool) (g : Nat) : Bool :=
  if g = 2 ^ (w / 2) - 1 then false
  else if g = 2 ^ w - 2 ^ (w / 2) then true
  else if w < 2 * groupOnes w g then false
  else if 2 * groupOnes w g < w then true
  else neg

/-- The first six bits of a group. -/
def code6 (neg k : Bool) (x : Nat) : Nat :=
  let g := if k && x == 28 then 15 else six x
  if !neg && (groupOnes 6 g != 3 || g == 56) then 63 - g else g

/-- The last four bits of a group, from the running disparity after the first six. -/
def code4 (neg k : Bool) (x y : Nat) : Nat :=
  if k && x == 28 then
    let g := [4, 9, 5, 3, 2, 10, 6, 8].getD y 0
    if neg then 15 - g else g
  else
    let alt := k || if neg then [17, 18, 20].contains x else [11, 13, 14].contains x
    let g := if y = 7 ∧ alt then 7 else [11, 9, 5, 12, 13, 10, 6, 14].getD y 0
    if !neg && (groupOnes 4 g != 2 || g == 12) then 15 - g else g

/-- The group of a byte, a first, and whether the running disparity is negative after it. -/
def encGroup (neg k : Bool) (b : Nat) : Nat × Bool :=
  let g6 := code6 neg k (b % 32)
  let n1 := negAfter 6 neg g6
  let g4 := code4 n1 k (b % 32) (b / 32)
  (g6 * 16 + g4, negAfter 4 n1 g4)

/-- The first number below `n` that satisfies a test, from 0 up. -/
def firstNat (n : Nat) (p : Nat → Bool) : Option Nat := (range' 0 n).find? p

/-- The special symbols of the code table, by byte: K28.0 to K28.7, K23.7, K27.7, K29.7 and K30.7. -/
def codeSpecials : List Nat := [28, 60, 92, 124, 156, 188, 220, 252, 247, 251, 253, 254]

/-- The symbol of a group with a running disparity, where the code table has it in that column. -/
def findGroup (neg : Bool) (g : Nat) : Option Sym :=
  match codeSpecials.find? fun b => (encGroup neg true b).1 == g with
  | some b => some (.k (BitVec.ofNat 8 b))
  | none =>
    match firstNat 32 fun x => code6 neg false x == g / 16 with
    | none => none
    | some x =>
      let n1 := negAfter 6 neg (g / 16)
      match firstNat 8 fun y => code4 n1 false x y == g % 16 with
      | some y => some (.d (BitVec.ofNat 8 (32 * y + x)))
      | none => none

/-- A group as the receiver reads it: a symbol of the table, or a code error (R314): a group of the other disparity, or one that is in no column or is a
special symbol that the hub does not use. -/
def readGroup (neg : Bool) (g : Nat) : Sym :=
  match findGroup neg g with
  | some (.k b) => if specials.contains (.k b) then .k b else .bad false
  | some y => y
  | none => if (findGroup (!neg) g).isSome then .bad true else .bad false

/-- The running disparity is negative after a received group, code error or not. -/
def negNext (neg : Bool) (g : Nat) : Bool := negAfter 4 (negAfter 6 neg (g / 16)) (g % 16)

/-- Received groups as symbols, from a running disparity on; `inv` is the polarity of R322. -/
def readLine (inv : Bool) : Bool → List (BitVec 10) → List Sym
  | _, [] => []
  | neg, g :: gs =>
    let n := (if inv then ~~~g else g).toNat
    readGroup neg n :: readLine inv (negNext neg n) gs

/-- The running disparity after received groups. -/
def lineNeg (inv : Bool) (neg : Bool) (gs : List (BitVec 10)) : Bool := gs.foldl (fun n g => negNext n (if inv then ~~~g else g).toNat) neg

/-- A symbol as its group. A code error is never sent. -/
def Sym.enc (neg : Bool) : Sym → Nat × Bool
  | .d b => encGroup neg false b.toNat
  | .k b => encGroup neg true b.toNat
  | .bad _ => (0, neg)

/-- Symbols as the groups that a transmitter sends, and the running disparity it ends with. -/
def sendLine : Bool → List Sym → List (BitVec 10) × Bool
  | neg, [] => ([], neg)
  | neg, y :: ys =>
    let (g, n1) := y.enc neg
    let (gs, n2) := sendLine n1 ys
    (BitVec.ofNat 10 g :: gs, n2)

/-! ### Words, lanes and grout (R311, R315) -/

/-- The groups of four that a list falls into; a last part is kept. -/
def wordsOf4 {α : Type} : List α → List (List α)
  | a :: b :: c :: d :: r => [a, b, c, d] :: wordsOf4 r
  | [] => []
  | r => [r]

/-- Word k of a stream travels on lane k mod W: the words of lane `i` of `w` (R311). -/
def laneWords {α : Type} (w i : Nat) (ws : List α) : List α :=
  ((ws.zip (range' 0 ws.length)).filter fun x => x.2 % w == i).map Prod.fst

/-- The stream of lanes whose words are taken in turn, as far as they reach (R311); `fuel` is the number of words of one lane. -/
def weave {α : Type} : Nat → List (List α) → List α
  | 0, _ => []
  | n + 1, ls => ls.filterMap List.head? ++ weave n (ls.map fun l => l.drop 1)

/-- A grout set (R315). -/
def groutSet : List Sym := [.comma, .fill, .fill, .fill]

/-- A lane's symbols without its grout sets: every K28.0, and the K28.5 before one (R313, R316). -/
def ungrout (ys : List Sym) : List Sym :=
  ((ys.zip (ys.drop 1 ++ [.comma])).filter fun x => x.1 != .fill && !(x.1 == .comma && x.2 == .fill)).map Prod.fst

/-! ### The frame of a hod (R313, R339, R343) -/

/-- A hod on the wire (R339). -/
def Hod.frame (h : Hod) : List Sym :=
  (if h.typ = 4 then .timeSof else .sof) :: (h.bytes ++ natBE 4 h.crc).map .d ++ [.eof]

/-- A hod that the sender abandons at its CRC: K30.7 ends it there (R312, R368; DESIGN CHOICE, notes/assumptions/124.md). -/
def Hod.aborted (h : Hod) : List Sym := (if h.typ = 4 then .timeSof else .sof) :: h.bytes.map .d ++ [.abort]

/-- A hod as it arrived (R339 to R343): whether its CRC was good and it held no error marker, whether K30.7 ended it, whether SOF was the time-frame one,
its 64 header bits, its payload words, and its payload bytes. -/
structure Arrival where
  crcOk : Bool
  abort : Bool
  timeSof : Bool
  header : BitVec 64
  payload : List Word
  size : Nat
  deriving DecidableEq, Repr

/-- The bytes of data symbols; none where another symbol stands among them. -/
def dataBytes : List Sym → Option (List Byte)
  | [] => some []
  | .d b :: r => (dataBytes r).map fun bs => b :: bs
  | _ :: _ => none

/-- An arrival that is discarded as a bad frame (R343). -/
def Arrival.broken (time : Bool) : Arrival := ⟨false, false, time, 0, [], 0⟩

/-- What stands between SOF and EOF as a hod: header, payload and CRC (R339, R343). -/
def closeFrame (time : Bool) (ys : List Sym) : Arrival :=
  match dataBytes ys with
  | none => .broken time
  | some bs =>
    let n := bs.length - 4
    if bs.length < 12 ∨ 4108 < bs.length ∨ crc32 (bs.take n) ≠ beNat (bs.drop n) then .broken time
    else ⟨true, false, time, BitVec.ofNat 64 (beNat (bs.take 8)), bytesToWords ((bs.take n).drop 8), n - 8⟩

/-- The hods of a stream (R313, R343): outside a hod everything but a SOF is discarded; a SOF within a hod ends that one as a bad frame and begins the
next. `cur` holds the SOF's kind and the symbols since, newest first. A hod that has not ended is none yet. -/
def framesOf : Option (Bool × List Sym) → List Sym → List Arrival
  | _, [] => []
  | none, y :: ys =>
    if y = .sof then framesOf (some (false, [])) ys
    else if y = .timeSof then framesOf (some (true, [])) ys
    else framesOf none ys
  | some (t, acc), y :: ys =>
    if y = .eof then closeFrame t acc.reverse :: framesOf none ys
    else if y = .abort then { Arrival.broken t with abort := true } :: framesOf none ys
    else if y = .sof then .broken t :: framesOf (some (false, [])) ys
    else if y = .timeSof then .broken t :: framesOf (some (true, [])) ys
    else framesOf (some (t, y :: acc)) ys

/-! ### Training sets (R321, R322) -/

/-- The ten fillers of a training set, D21.5. -/
def tsFill : List Sym := List.replicate 10 (.d 0xB5)

/-- A training set of three bytes (R321). -/
def tsOf (lane rate state : Nat) : List Sym :=
  let bs : List Byte := [BitVec.ofNat 8 lane, BitVec.ofNat 8 rate, BitVec.ofNat 8 state]
  .comma :: .marker :: bs.map .d ++ [.d (BitVec.ofNat 8 (crc8 bs))] ++ tsFill

/-- What a training set with a valid CRC says. -/
structure TsRead where
  sel : Bool
  nok : Bool
  width : Nat
  idx : Nat
  rate : Nat
  role : Nat
  state : Nat
  done : Bool
  deriving DecidableEq, Repr

/-- A comma in either disparity: 0011111010 or 1100000101. -/
def isComma (g : BitVec 10) : Bool := g == 0x0FA || g == 0x305

/-- A received training set, read with the lane's polarity and from the disparity of its comma; none where its form or its CRC is wrong (R321). -/
def readTs (inv : Bool) (gs : List (BitVec 10)) : Option TsRead :=
  match readLine inv ((gs.headD 0 == 0x0FA) != inv) (gs.take 6) with
  | [k0, k1, .d l, .d r, .d t, .d c] =>
    if k0 = .comma ∧ k1 = .marker ∧ crc8 [l, r, t] = c.toNat then
      some ⟨bit l.toNat 7, bit l.toNat 6, bits l.toNat 5 4, bits l.toNat 1 0, bits r.toNat 2 0, bits r.toNat 7 6, bits t.toNat 2 0, bit t.toNat 7⟩
    else none
  | _ => none

/-- The ten fillers on the line: `some false` all D21.5, `some true` all D10.2, none else (R322). -/
def tsPolarity (gs : List (BitVec 10)) : Option Bool :=
  let fs := gs.drop 6
  if !isComma (gs.headD 0) || fs.length != 10 then none
  else if fs.all fun g => g == 0x2AA then some false
  else if fs.all fun g => g == 0x155 then some true
  else none

/-! ### Pattern sequences (R319, R333, R334) -/

/-- The next bit of the sequence x^n + x^m + 1 from a register of its last `n` bits, the latest lowest. -/
def prbsBit (n m r : Nat) : Bool := bit r (n - 1) != bit r (m - 1)

/-- The register with one more bit. -/
def shiftIn (n r : Nat) (b : Bool) : Nat := (2 * r + b2n b) % 2 ^ n

/-- `k` bits of the sequence from a register on, and the register after them. -/
def prbsBits (n m : Nat) : Nat → Nat → List Bool × Nat
  | 0, r => ([], r)
  | k + 1, r =>
    let b := prbsBit n m r
    let (bs, r1) := prbsBits n m k (shiftIn n r b)
    (b :: bs, r1)

/-- The degrees of a pattern, by POLY (R333). -/
def polyOf (p : Nat) : Nat × Nat := match p with
  | 0 => (7, 6)
  | 1 => (15, 14)
  | 2 => (23, 18)
  | _ => (31, 28)

/-- The number that bits spell, first bit highest. -/
def bitsNat (bs : List Bool) : Nat := bs.foldl (fun a b => 2 * a + b2n b) 0

/-- Bits as bytes, most significant first. -/
def bitBytes (n : Nat) (bs : List Bool) : List Byte := natBE n (bitsNat bs)

/-- A checker (R334): its register and how many received bits it has loaded, the matching bits in a row, and while locked the mismatches among the last
256 bits, newest lowest, and their number. -/
structure Chk where
  reg : Nat
  have_ : Nat
  run : Nat
  win : Nat
  bad : Nat
  deriving DecidableEq, Repr

/-- A checker that has loaded nothing. -/
def Chk.init : Chk := ⟨0, 0, 0, 0, 0⟩

/-- What a checker has come to: itself, whether it is locked, whether it has lost lock, and the bits mismatched and compared while locked. -/
structure ChkRun where
  chk : Chk
  lock : Bool
  lost : Bool
  errs : Nat
  cmp : Nat
  deriving DecidableEq, Repr

/-- One received bit. Before lock the register follows the received bits; while locked it follows the sequence (R334). -/
def ChkRun.take (n m : Nat) (x : ChkRun) (b : Bool) : ChkRun :=
  let c := x.chk
  if c.have_ < n then { x with chk := { c with reg := shiftIn n c.reg b, have_ := c.have_ + 1 } }
  else
    let p := prbsBit n m c.reg
    if !x.lock then
      let run := if p = b then c.run + 1 else 0
      if run = 256 then { x with chk := { c with reg := shiftIn n c.reg b, run := 0, win := 0, bad := 0 }, lock := true }
      else { x with chk := { c with reg := shiftIn n c.reg b, run := run } }
    else
      let e := b2n (p != b)
      let bad := c.bad + e - b2n (bit c.win 255)
      let y := { x with errs := x.errs + e, cmp := x.cmp + 1 }
      if 32 ≤ bad then { y with chk := Chk.init, lock := false, lost := true }
      else { y with chk := { c with reg := shiftIn n c.reg p, win := (2 * c.win + e) % 2 ^ 256, bad := bad } }

end Sys2Proof.Machine
end

