-- ==== Sys2Proof/Machine/RegNames.lean ====
section
/-!
DEFINITION. The names of the register map: the byte address of every register (`R.<NAME>`) and every field of it (`F.<NAME>_<FIELD>`),
as the register tables and region maps of spec/02 to spec/17 give them (R31, R75, R77, R109, R110, R143, R144, R173, R174, R219, R220, R283, R284,
R303, R304, R337, R338, R369, R370, R391, R393, R412, R413, R434, R435, R461, R462, R481, R482, R496).
-/

namespace Sys2Proof.Machine

/-- TILE_ID[t]: [23:16] SLICES RO; [15:8] INPUTS RO; [4:0] TILE RO. -/
def R.TILE_ID (t : Nat) : Nat := 0x200000 + 0x10000 * t
def F.TILE_ID_SLICES (t : Nat) : Fld := ⟨R.TILE_ID t, 23, 16⟩
def F.TILE_ID_INPUTS (t : Nat) : Fld := ⟨R.TILE_ID t, 15, 8⟩
def F.TILE_ID_TILE (t : Nat) : Fld := ⟨R.TILE_ID t, 4, 0⟩
/-- TILE_CTL[t]: [13:8] RDIV RW; [1] ROT_EN RW; [0] FORCE_ON RW. -/
def R.TILE_CTL (t : Nat) : Nat := 0x200004 + 0x10000 * t
def F.TILE_CTL_RDIV (t : Nat) : Fld := ⟨R.TILE_CTL t, 13, 8⟩
def F.TILE_CTL_ROT_EN (t : Nat) : Fld := ⟨R.TILE_CTL t, 1, 1⟩
def F.TILE_CTL_FORCE_ON (t : Nat) : Fld := ⟨R.TILE_CTL t, 0, 0⟩
/-- TILE_STAT[t]: [20:16] SPARE_POS RO; [15:12] PHASE RO; [10] RATE_ERR RO; [9] SPARE_FAILED RO; [8] CAL_FROZEN RO; [3] IDLE RO; [2] READY RO; [1:0] PSTATE RO. -/
def R.TILE_STAT (t : Nat) : Nat := 0x200008 + 0x10000 * t
def F.TILE_STAT_SPARE_POS (t : Nat) : Fld := ⟨R.TILE_STAT t, 20, 16⟩
def F.TILE_STAT_PHASE (t : Nat) : Fld := ⟨R.TILE_STAT t, 15, 12⟩
def F.TILE_STAT_RATE_ERR (t : Nat) : Fld := ⟨R.TILE_STAT t, 10, 10⟩
def F.TILE_STAT_SPARE_FAILED (t : Nat) : Fld := ⟨R.TILE_STAT t, 9, 9⟩
def F.TILE_STAT_CAL_FROZEN (t : Nat) : Fld := ⟨R.TILE_STAT t, 8, 8⟩
def F.TILE_STAT_IDLE (t : Nat) : Fld := ⟨R.TILE_STAT t, 3, 3⟩
def F.TILE_STAT_READY (t : Nat) : Fld := ⟨R.TILE_STAT t, 2, 2⟩
def F.TILE_STAT_PSTATE (t : Nat) : Fld := ⟨R.TILE_STAT t, 1, 0⟩
/-- TILE_ILV[t]: [7:0] ILV RW. -/
def R.TILE_ILV (t : Nat) : Nat := 0x20000C + 0x10000 * t
def F.TILE_ILV_ILV (t : Nat) : Fld := ⟨R.TILE_ILV t, 7, 0⟩
/-- TILE_ROT[t]: [20:16] PERIOD_LOG2 RW; [7:0] HO_TOL RW. -/
def R.TILE_ROT (t : Nat) : Nat := 0x200010 + 0x10000 * t
def F.TILE_ROT_PERIOD_LOG2 (t : Nat) : Fld := ⟨R.TILE_ROT t, 20, 16⟩
def F.TILE_ROT_HO_TOL (t : Nat) : Fld := ⟨R.TILE_ROT t, 7, 0⟩
/-- TILE_RETIRE[t]: [16] SPARE RO; [15:0] SLICE RO. -/
def R.TILE_RETIRE (t : Nat) : Nat := 0x200014 + 0x10000 * t
def F.TILE_RETIRE_SPARE (t : Nat) : Fld := ⟨R.TILE_RETIRE t, 16, 16⟩
def F.TILE_RETIRE_SLICE (t : Nat) : Fld := ⟨R.TILE_RETIRE t, 15, 0⟩
/-- TILE_FAILED[t]: [15:0] INPUT RO. -/
def R.TILE_FAILED (t : Nat) : Nat := 0x200018 + 0x10000 * t
def F.TILE_FAILED_INPUT (t : Nat) : Fld := ⟨R.TILE_FAILED t, 15, 0⟩
/-- TILE_CAL_CNT[t]: [31:0] COUNT RO. -/
def R.TILE_CAL_CNT (t : Nat) : Nat := 0x20001C + 0x10000 * t
def F.TILE_CAL_CNT_COUNT (t : Nat) : Fld := ⟨R.TILE_CAL_CNT t, 31, 0⟩
/-- TILE_HO_ABORT[t]: [31:16] BACK RC; [15:0] IN RC. -/
def R.TILE_HO_ABORT (t : Nat) : Nat := 0x200020 + 0x10000 * t
def F.TILE_HO_ABORT_BACK (t : Nat) : Fld := ⟨R.TILE_HO_ABORT t, 31, 16⟩
def F.TILE_HO_ABORT_IN (t : Nat) : Fld := ⟨R.TILE_HO_ABORT t, 15, 0⟩
/-- TILE_EVT[t]: [8] UNCORR W1C; [7] RATE_ERR W1C; [6] SKEW_LIMIT W1C; [5] EXC_FAULT W1C; [4] CLIP W1C; [3] INPUT_FAILED W1C; [2] CAL_FROZEN W1C; [1] CAL_FAIL W1C; [0] HO_ABORT W1C. -/
def R.TILE_EVT (t : Nat) : Nat := 0x200024 + 0x10000 * t
def F.TILE_EVT_UNCORR (t : Nat) : Fld := ⟨R.TILE_EVT t, 8, 8⟩
def F.TILE_EVT_RATE_ERR (t : Nat) : Fld := ⟨R.TILE_EVT t, 7, 7⟩
def F.TILE_EVT_SKEW_LIMIT (t : Nat) : Fld := ⟨R.TILE_EVT t, 6, 6⟩
def F.TILE_EVT_EXC_FAULT (t : Nat) : Fld := ⟨R.TILE_EVT t, 5, 5⟩
def F.TILE_EVT_CLIP (t : Nat) : Fld := ⟨R.TILE_EVT t, 4, 4⟩
def F.TILE_EVT_INPUT_FAILED (t : Nat) : Fld := ⟨R.TILE_EVT t, 3, 3⟩
def F.TILE_EVT_CAL_FROZEN (t : Nat) : Fld := ⟨R.TILE_EVT t, 2, 2⟩
def F.TILE_EVT_CAL_FAIL (t : Nat) : Fld := ⟨R.TILE_EVT t, 1, 1⟩
def F.TILE_EVT_HO_ABORT (t : Nat) : Fld := ⟨R.TILE_EVT t, 0, 0⟩
/-- TILE_CFG_FIX[t]: [31:0] COUNT RC. -/
def R.TILE_CFG_FIX (t : Nat) : Nat := 0x200028 + 0x10000 * t
def F.TILE_CFG_FIX_COUNT (t : Nat) : Fld := ⟨R.TILE_CFG_FIX t, 31, 0⟩
/-- TILE_APPLY[t]: [0] APPLY WO. -/
def R.TILE_APPLY (t : Nat) : Nat := 0x20002C + 0x10000 * t
def F.TILE_APPLY_APPLY (t : Nat) : Fld := ⟨R.TILE_APPLY t, 0, 0⟩
/-- EXC_CTL[t]: [31:16] RAMP RW; [0] EN RW. -/
def R.EXC_CTL (t : Nat) : Nat := 0x200030 + 0x10000 * t
def F.EXC_CTL_RAMP (t : Nat) : Fld := ⟨R.EXC_CTL t, 31, 16⟩
def F.EXC_CTL_EN (t : Nat) : Fld := ⟨R.EXC_CTL t, 0, 0⟩
/-- EXC_LVL[t]: [11:0] LVL RW. -/
def R.EXC_LVL (t : Nat) : Nat := 0x200034 + 0x10000 * t
def F.EXC_LVL_LVL (t : Nat) : Fld := ⟨R.EXC_LVL t, 11, 0⟩
/-- EXC_STAT[t]: [31:20] NOW RO; [19:8] ILOAD RO; [2] FAULT W1C; [1] RAMPING RO; [0] CONNECTED RO. -/
def R.EXC_STAT (t : Nat) : Nat := 0x200038 + 0x10000 * t
def F.EXC_STAT_NOW (t : Nat) : Fld := ⟨R.EXC_STAT t, 31, 20⟩
def F.EXC_STAT_ILOAD (t : Nat) : Fld := ⟨R.EXC_STAT t, 19, 8⟩
def F.EXC_STAT_FAULT (t : Nat) : Fld := ⟨R.EXC_STAT t, 2, 2⟩
def F.EXC_STAT_RAMPING (t : Nat) : Fld := ⟨R.EXC_STAT t, 1, 1⟩
def F.EXC_STAT_CONNECTED (t : Nat) : Fld := ⟨R.EXC_STAT t, 0, 0⟩
/-- TILE_PGA[t][i]: [2:0] GAIN RW. -/
def R.TILE_PGA (t : Nat) (i : Nat) : Nat := 0x200040 + 0x10000 * t + 0x4 * i
def F.TILE_PGA_GAIN (t : Nat) (i : Nat) : Fld := ⟨R.TILE_PGA t i, 2, 0⟩
/-- CH_OFF[t][i]: [23:0] OFF RW. -/
def R.CH_OFF (t : Nat) (i : Nat) : Nat := 0x200080 + 0x10000 * t + 0x4 * i
def F.CH_OFF_OFF (t : Nat) (i : Nat) : Fld := ⟨R.CH_OFF t i, 23, 0⟩
/-- CH_GAIN[t][i]: [23:0] GAIN RW. -/
def R.CH_GAIN (t : Nat) (i : Nat) : Nat := 0x2000C0 + 0x10000 * t + 0x4 * i
def F.CH_GAIN_GAIN (t : Nat) (i : Nat) : Fld := ⟨R.CH_GAIN t i, 23, 0⟩
/-- CH_OFF_ACT[t][i]: [23:0] OFF RO. -/
def R.CH_OFF_ACT (t : Nat) (i : Nat) : Nat := 0x200100 + 0x10000 * t + 0x4 * i
def F.CH_OFF_ACT_OFF (t : Nat) (i : Nat) : Fld := ⟨R.CH_OFF_ACT t i, 23, 0⟩
/-- CH_GAIN_ACT[t][i]: [23:0] GAIN RO. -/
def R.CH_GAIN_ACT (t : Nat) (i : Nat) : Nat := 0x200140 + 0x10000 * t + 0x4 * i
def F.CH_GAIN_ACT_GAIN (t : Nat) (i : Nat) : Fld := ⟨R.CH_GAIN_ACT t i, 23, 0⟩
/-- CH_STAT[t][i]: [20:16] SRC0 RO; [12:8] SRC1 RO; [4] UNSETTLED RO; [3] FAILED RO; [2] PARTNER_OFF RO; [1] METERED RO; [0] CLIP W1C. -/
def R.CH_STAT (t : Nat) (i : Nat) : Nat := 0x200180 + 0x10000 * t + 0x4 * i
def F.CH_STAT_SRC0 (t : Nat) (i : Nat) : Fld := ⟨R.CH_STAT t i, 20, 16⟩
def F.CH_STAT_SRC1 (t : Nat) (i : Nat) : Fld := ⟨R.CH_STAT t i, 12, 8⟩
def F.CH_STAT_UNSETTLED (t : Nat) (i : Nat) : Fld := ⟨R.CH_STAT t i, 4, 4⟩
def F.CH_STAT_FAILED (t : Nat) (i : Nat) : Fld := ⟨R.CH_STAT t i, 3, 3⟩
def F.CH_STAT_PARTNER_OFF (t : Nat) (i : Nat) : Fld := ⟨R.CH_STAT t i, 2, 2⟩
def F.CH_STAT_METERED (t : Nat) (i : Nat) : Fld := ⟨R.CH_STAT t i, 1, 1⟩
def F.CH_STAT_CLIP (t : Nat) (i : Nat) : Fld := ⟨R.CH_STAT t i, 0, 0⟩
/-- CH_CLIP_CNT[t][i]: [31:0] COUNT RC. -/
def R.CH_CLIP_CNT (t : Nat) (i : Nat) : Nat := 0x2001C0 + 0x10000 * t + 0x4 * i
def F.CH_CLIP_CNT_COUNT (t : Nat) (i : Nat) : Fld := ⟨R.CH_CLIP_CNT t i, 31, 0⟩
/-- SLICE_OFS[t][s]: [23:0] TRIM RO. -/
def R.SLICE_OFS (t : Nat) (s : Nat) : Nat := 0x200200 + 0x10000 * t + 0x8 * s
def F.SLICE_OFS_TRIM (t : Nat) (s : Nat) : Fld := ⟨R.SLICE_OFS t s, 23, 0⟩
/-- SLICE_GN[t][s]: [23:0] TRIM RO. -/
def R.SLICE_GN (t : Nat) (s : Nat) : Nat := 0x200204 + 0x10000 * t + 0x8 * s
def F.SLICE_GN_TRIM (t : Nat) (s : Nat) : Fld := ⟨R.SLICE_GN t s, 23, 0⟩
/-- SKEW[t][k]: [9] LIMIT W1C; [8] HOLD RO; [7:0] TRIM RO. -/
def R.SKEW (t : Nat) (k : Nat) : Nat := 0x200300 + 0x10000 * t + 0x4 * k
def F.SKEW_LIMIT (t : Nat) (k : Nat) : Fld := ⟨R.SKEW t k, 9, 9⟩
def F.SKEW_HOLD (t : Nat) (k : Nat) : Fld := ⟨R.SKEW t k, 8, 8⟩
def F.SKEW_TRIM (t : Nat) (k : Nat) : Fld := ⟨R.SKEW t k, 7, 0⟩
/-- TIME_CTL: [1:0] SRC RW. -/
def R.TIME_CTL : Nat := 0x20000
def F.TIME_CTL_SRC : Fld := ⟨R.TIME_CTL, 1, 0⟩
/-- TIME_STAT: [6] SMPL_LOCK RO; [5] TOD_OK RO; [4] PPS_OK RO; [3] SEED_INVALID RO; [2] SEEDED RO; [1:0] QUALITY RO. -/
def R.TIME_STAT : Nat := 0x20004
def F.TIME_STAT_SMPL_LOCK : Fld := ⟨R.TIME_STAT, 6, 6⟩
def F.TIME_STAT_TOD_OK : Fld := ⟨R.TIME_STAT, 5, 5⟩
def F.TIME_STAT_PPS_OK : Fld := ⟨R.TIME_STAT, 4, 4⟩
def F.TIME_STAT_SEED_INVALID : Fld := ⟨R.TIME_STAT, 3, 3⟩
def F.TIME_STAT_SEEDED : Fld := ⟨R.TIME_STAT, 2, 2⟩
def F.TIME_STAT_QUALITY : Fld := ⟨R.TIME_STAT, 1, 0⟩
/-- TIME_EVT: [9:0] EVT W1C. -/
def R.TIME_EVT : Nat := 0x20008
def F.TIME_EVT_EVT : Fld := ⟨R.TIME_EVT, 9, 0⟩
/-- TIME_RATE: [31:0] RATE RO. -/
def R.TIME_RATE : Nat := 0x2000C
def F.TIME_RATE_RATE : Fld := ⟨R.TIME_RATE, 31, 0⟩
/-- ST_LOAD: [0] LOAD WO. -/
def R.ST_LOAD : Nat := 0x20030
def F.ST_LOAD_LOAD : Fld := ⟨R.ST_LOAD, 0, 0⟩
/-- SMPL_CTL: [16] SRC RW; [12:0] VDIV RW. -/
def R.SMPL_CTL : Nat := 0x20034
def F.SMPL_CTL_SRC : Fld := ⟨R.SMPL_CTL, 16, 16⟩
def F.SMPL_CTL_VDIV : Fld := ⟨R.SMPL_CTL, 12, 0⟩
/-- SMPL_PHASE: [18:0] STEPS RW. -/
def R.SMPL_PHASE : Nat := 0x20038
def F.SMPL_PHASE_STEPS : Fld := ⟨R.SMPL_PHASE, 18, 0⟩
/-- MCLK_CTL: [28:16] MMUL RW; [0] RELOCK WO. -/
def R.MCLK_CTL : Nat := 0x2003C
def F.MCLK_CTL_MMUL : Fld := ⟨R.MCLK_CTL, 28, 16⟩
def F.MCLK_CTL_RELOCK : Fld := ⟨R.MCLK_CTL, 0, 0⟩
/-- MCLK_STAT: [31:8] FREQ RO; [2] HOLDOVER RO; [1] LOS RO; [0] LOCK RO. -/
def R.MCLK_STAT : Nat := 0x20040
def F.MCLK_STAT_FREQ : Fld := ⟨R.MCLK_STAT, 31, 8⟩
def F.MCLK_STAT_HOLDOVER : Fld := ⟨R.MCLK_STAT, 2, 2⟩
def F.MCLK_STAT_LOS : Fld := ⟨R.MCLK_STAT, 1, 1⟩
def F.MCLK_STAT_LOCK : Fld := ⟨R.MCLK_STAT, 0, 0⟩
/-- PPS_CTL: [25:16] WIDTH RW; [1] IN_POL RW; [0] OUT_EN RW. -/
def R.PPS_CTL : Nat := 0x20044
def F.PPS_CTL_WIDTH : Fld := ⟨R.PPS_CTL, 25, 16⟩
def F.PPS_CTL_IN_POL : Fld := ⟨R.PPS_CTL, 1, 1⟩
def F.PPS_CTL_OUT_EN : Fld := ⟨R.PPS_CTL, 0, 0⟩
/-- PPS_OUT_ADJ: [31:0] ADJ RW. -/
def R.PPS_OUT_ADJ : Nat := 0x20048
def F.PPS_OUT_ADJ_ADJ : Fld := ⟨R.PPS_OUT_ADJ, 31, 0⟩
/-- PPS_IN_ADJ: [31:0] ADJ RW. -/
def R.PPS_IN_ADJ : Nat := 0x2004C
def F.PPS_IN_ADJ_ADJ : Fld := ⟨R.PPS_IN_ADJ, 31, 0⟩
/-- TOD_CTL: [31:12] BAUD RW; [0] EN RW. -/
def R.TOD_CTL : Nat := 0x20060
def F.TOD_CTL_BAUD : Fld := ⟨R.TOD_CTL, 31, 12⟩
def F.TOD_CTL_EN : Fld := ⟨R.TOD_CTL, 0, 0⟩
/-- TOD_STAT: [31:16] BAD RC; [15:0] GOOD RC. -/
def R.TOD_STAT : Nat := 0x20064
def F.TOD_STAT_BAD : Fld := ⟨R.TOD_STAT, 31, 16⟩
def F.TOD_STAT_GOOD : Fld := ⟨R.TOD_STAT, 15, 0⟩
/-- GRID_SYNC_CMD: [9:8] MODE WO; [3:0] GRIDS WO. -/
def R.GRID_SYNC_CMD : Nat := 0x2007C
def F.GRID_SYNC_CMD_MODE : Fld := ⟨R.GRID_SYNC_CMD, 9, 8⟩
def F.GRID_SYNC_CMD_GRIDS : Fld := ⟨R.GRID_SYNC_CMD, 3, 0⟩
/-- RTC_SUB: [14:0] SUB RO. -/
def R.RTC_SUB : Nat := 0x20080
def F.RTC_SUB_SUB : Fld := ⟨R.RTC_SUB, 14, 0⟩
/-- RTC_CAL_DATE: [27:16] YEAR SH; [11:8] MONTH SH; [4:0] DAY SH. -/
def R.RTC_CAL_DATE : Nat := 0x2008C
def F.RTC_CAL_DATE_YEAR : Fld := ⟨R.RTC_CAL_DATE, 27, 16⟩
def F.RTC_CAL_DATE_MONTH : Fld := ⟨R.RTC_CAL_DATE, 11, 8⟩
def F.RTC_CAL_DATE_DAY : Fld := ⟨R.RTC_CAL_DATE, 4, 0⟩
/-- RTC_CAL_TIME: [26:24] WDAY SH; [20:16] HOUR SH; [13:8] MIN SH; [5:0] SEC SH. -/
def R.RTC_CAL_TIME : Nat := 0x20090
def F.RTC_CAL_TIME_WDAY : Fld := ⟨R.RTC_CAL_TIME, 26, 24⟩
def F.RTC_CAL_TIME_HOUR : Fld := ⟨R.RTC_CAL_TIME, 20, 16⟩
def F.RTC_CAL_TIME_MIN : Fld := ⟨R.RTC_CAL_TIME, 13, 8⟩
def F.RTC_CAL_TIME_SEC : Fld := ⟨R.RTC_CAL_TIME, 5, 0⟩
/-- RTC_CTL: [1] FOLLOW RW; [0] GO WO. -/
def R.RTC_CTL : Nat := 0x200A0
def F.RTC_CTL_FOLLOW : Fld := ⟨R.RTC_CTL, 1, 1⟩
def F.RTC_CTL_GO : Fld := ⟨R.RTC_CTL, 0, 0⟩
/-- RTC_STAT: [1] CAL_VALID RO; [0] VALID RO. -/
def R.RTC_STAT : Nat := 0x200A4
def F.RTC_STAT_CAL_VALID : Fld := ⟨R.RTC_STAT, 1, 1⟩
def F.RTC_STAT_VALID : Fld := ⟨R.RTC_STAT, 0, 0⟩
/-- GRID_CTL[g]: [27:16] CDIV RW; [1] STOP WO; [0] TYPE RW. -/
def R.GRID_CTL (g : Nat) : Nat := 0x20100 + 0x40 * g
def F.GRID_CTL_CDIV (g : Nat) : Fld := ⟨R.GRID_CTL g, 27, 16⟩
def F.GRID_CTL_STOP (g : Nat) : Fld := ⟨R.GRID_CTL g, 1, 1⟩
def F.GRID_CTL_TYPE (g : Nat) : Fld := ⟨R.GRID_CTL g, 0, 0⟩
/-- GRID_STAT[g]: [31:16] WRAPS RO; [1:0] STATE RO. -/
def R.GRID_STAT (g : Nat) : Nat := 0x20104 + 0x40 * g
def F.GRID_STAT_WRAPS (g : Nat) : Fld := ⟨R.GRID_STAT g, 31, 16⟩
def F.GRID_STAT_STATE (g : Nat) : Fld := ⟨R.GRID_STAT g, 1, 0⟩
/-- FE_ID[t]: [23:16] DETS RO; [15:8] PATHS RO; [4:0] ENGINE RO. -/
def R.FE_ID (t : Nat) : Nat := 0x201000 + 0x10000 * t
def F.FE_ID_DETS (t : Nat) : Fld := ⟨R.FE_ID t, 23, 16⟩
def F.FE_ID_PATHS (t : Nat) : Fld := ⟨R.FE_ID t, 15, 8⟩
def F.FE_ID_ENGINE (t : Nat) : Fld := ⟨R.FE_ID t, 4, 0⟩
/-- FE_STAT[t]: [11:8] ACTIVE RO; [0] IDLE RO. -/
def R.FE_STAT (t : Nat) : Nat := 0x201004 + 0x10000 * t
def F.FE_STAT_ACTIVE (t : Nat) : Fld := ⟨R.FE_STAT t, 11, 8⟩
def F.FE_STAT_IDLE (t : Nat) : Fld := ⟨R.FE_STAT t, 0, 0⟩
/-- FE_LOAD[t]: [31:0] LOAD RO. -/
def R.FE_LOAD (t : Nat) : Nat := 0x201008 + 0x10000 * t
def F.FE_LOAD_LOAD (t : Nat) : Fld := ⟨R.FE_LOAD t, 31, 0⟩
/-- FE_EVT[t]: [2] UNCORR W1C; [1] SAT W1C; [0] FADE_DONE W1C. -/
def R.FE_EVT (t : Nat) : Nat := 0x20100C + 0x10000 * t
def F.FE_EVT_UNCORR (t : Nat) : Fld := ⟨R.FE_EVT t, 2, 2⟩
def F.FE_EVT_SAT (t : Nat) : Fld := ⟨R.FE_EVT t, 1, 1⟩
def F.FE_EVT_FADE_DONE (t : Nat) : Fld := ⟨R.FE_EVT t, 0, 0⟩
/-- FE_FIX[t]: [31:0] COUNT RC. -/
def R.FE_FIX (t : Nat) : Nat := 0x201010 + 0x10000 * t
def F.FE_FIX_COUNT (t : Nat) : Fld := ⟨R.FE_FIX t, 31, 0⟩
/-- FP_CTL[t][p]: [31] MUTE RW; [29:28] GRID RW; [26:24] PLACE RW; [21] FIR_EN RW; [20:16] FIR_DEC RW; [13:12] HB RW; [10:8] CIC_N RW. -/
def R.FP_CTL (t : Nat) (p : Nat) : Nat := 0x201100 + 0x10000 * t + 0x40 * p
def F.FP_CTL_MUTE (t : Nat) (p : Nat) : Fld := ⟨R.FP_CTL t p, 31, 31⟩
def F.FP_CTL_GRID (t : Nat) (p : Nat) : Fld := ⟨R.FP_CTL t p, 29, 28⟩
def F.FP_CTL_PLACE (t : Nat) (p : Nat) : Fld := ⟨R.FP_CTL t p, 26, 24⟩
def F.FP_CTL_FIR_EN (t : Nat) (p : Nat) : Fld := ⟨R.FP_CTL t p, 21, 21⟩
def F.FP_CTL_FIR_DEC (t : Nat) (p : Nat) : Fld := ⟨R.FP_CTL t p, 20, 16⟩
def F.FP_CTL_HB (t : Nat) (p : Nat) : Fld := ⟨R.FP_CTL t p, 13, 12⟩
def F.FP_CTL_CIC_N (t : Nat) (p : Nat) : Fld := ⟨R.FP_CTL t p, 10, 8⟩
/-- FP_CIC[t][p]: [12:0] RATIO RW. -/
def R.FP_CIC (t : Nat) (p : Nat) : Nat := 0x201104 + 0x10000 * t + 0x40 * p
def F.FP_CIC_RATIO (t : Nat) (p : Nat) : Fld := ⟨R.FP_CIC t p, 12, 0⟩
/-- FP_TAPS[t][p]: [24:16] TAPS1 RW; [8:0] TAPS0 RW. -/
def R.FP_TAPS (t : Nat) (p : Nat) : Nat := 0x201108 + 0x10000 * t + 0x40 * p
def F.FP_TAPS_TAPS1 (t : Nat) (p : Nat) : Fld := ⟨R.FP_TAPS t p, 24, 16⟩
def F.FP_TAPS_TAPS0 (t : Nat) (p : Nat) : Fld := ⟨R.FP_TAPS t p, 8, 0⟩
/-- FP_GD[t][p]: [31:16] GD1 RW; [15:0] GD0 RW. -/
def R.FP_GD (t : Nat) (p : Nat) : Nat := 0x20110C + 0x10000 * t + 0x40 * p
def F.FP_GD_GD1 (t : Nat) (p : Nat) : Fld := ⟨R.FP_GD t p, 31, 16⟩
def F.FP_GD_GD0 (t : Nat) (p : Nat) : Fld := ⟨R.FP_GD t p, 15, 0⟩
/-- FP_FADE[t][p]: [31] GO WO; [15:0] LEN RW. -/
def R.FP_FADE (t : Nat) (p : Nat) : Nat := 0x201110 + 0x10000 * t + 0x40 * p
def F.FP_FADE_GO (t : Nat) (p : Nat) : Fld := ⟨R.FP_FADE t p, 31, 31⟩
def F.FP_FADE_LEN (t : Nat) (p : Nat) : Fld := ⟨R.FP_FADE t p, 15, 0⟩
/-- FP_STAT[t][p]: [31:16] CHANS RO; [9:8] STATE RO; [4] SETTLING RO; [0] ACT RO. -/
def R.FP_STAT (t : Nat) (p : Nat) : Nat := 0x201114 + 0x10000 * t + 0x40 * p
def F.FP_STAT_CHANS (t : Nat) (p : Nat) : Fld := ⟨R.FP_STAT t p, 31, 16⟩
def F.FP_STAT_STATE (t : Nat) (p : Nat) : Fld := ⟨R.FP_STAT t p, 9, 8⟩
def F.FP_STAT_SETTLING (t : Nat) (p : Nat) : Fld := ⟨R.FP_STAT t p, 4, 4⟩
def F.FP_STAT_ACT (t : Nat) (p : Nat) : Fld := ⟨R.FP_STAT t p, 0, 0⟩
/-- FP_NORM[t][p]: [29:24] SHIFT RO; [23:0] NORM RO. -/
def R.FP_NORM (t : Nat) (p : Nat) : Nat := 0x201118 + 0x10000 * t + 0x40 * p
def F.FP_NORM_SHIFT (t : Nat) (p : Nat) : Fld := ⟨R.FP_NORM t p, 29, 24⟩
def F.FP_NORM_NORM (t : Nat) (p : Nat) : Fld := ⟨R.FP_NORM t p, 23, 0⟩
/-- DET_CTL[t][d]: [31] EN RW; [25:24] TYPE RW; [18:16] PATH RW; [3:0] CH RW. -/
def R.DET_CTL (t : Nat) (d : Nat) : Nat := 0x201400 + 0x10000 * t + 0x20 * d
def F.DET_CTL_EN (t : Nat) (d : Nat) : Fld := ⟨R.DET_CTL t d, 31, 31⟩
def F.DET_CTL_TYPE (t : Nat) (d : Nat) : Fld := ⟨R.DET_CTL t d, 25, 24⟩
def F.DET_CTL_PATH (t : Nat) (d : Nat) : Fld := ⟨R.DET_CTL t d, 18, 16⟩
def F.DET_CTL_CH (t : Nat) (d : Nat) : Fld := ⟨R.DET_CTL t d, 3, 0⟩
/-- DET_WIN[t][d]: [15:0] LEN RW. -/
def R.DET_WIN (t : Nat) (d : Nat) : Nat := 0x201404 + 0x10000 * t + 0x20 * d
def F.DET_WIN_LEN (t : Nat) (d : Nat) : Fld := ⟨R.DET_WIN t d, 15, 0⟩
/-- DET_ENV[t][d]: [31:16] ATT RW; [15:0] REL RW. -/
def R.DET_ENV (t : Nat) (d : Nat) : Nat := 0x201408 + 0x10000 * t + 0x20 * d
def F.DET_ENV_ATT (t : Nat) (d : Nat) : Fld := ⟨R.DET_ENV t d, 31, 16⟩
def F.DET_ENV_REL (t : Nat) (d : Nat) : Fld := ⟨R.DET_ENV t d, 15, 0⟩
/-- DET_VAL[t][d]: [23:0] VALUE RO. -/
def R.DET_VAL (t : Nat) (d : Nat) : Nat := 0x20140C + 0x10000 * t + 0x20 * d
def F.DET_VAL_VALUE (t : Nat) (d : Nat) : Fld := ⟨R.DET_VAL t d, 23, 0⟩
/-- DET_VAL2[t][d]: [23:0] VALUE RO. -/
def R.DET_VAL2 (t : Nat) (d : Nat) : Nat := 0x201410 + 0x10000 * t + 0x20 * d
def F.DET_VAL2_VALUE (t : Nat) (d : Nat) : Fld := ⟨R.DET_VAL2 t d, 23, 0⟩
/-- COEF[t][p][b][k]: [15:0] COEF RW. -/
def R.COEF (t : Nat) (p : Nat) (b : Nat) (k : Nat) : Nat := 0x208000 + 0x10000 * t + 0x800 * p + 0x400 * b + 0x4 * k
def F.COEF_COEF (t : Nat) (p : Nat) (b : Nat) (k : Nat) : Fld := ⟨R.COEF t p b k, 15, 0⟩
/-- TU_CTL[u]: [31] EN RW; [25:24] EDGE RW; [23] AUTO_EN RW; [21:16] GROUP RW; [13:12] SRC_KIND RW. -/
def R.TU_CTL (u : Nat) : Nat := 0x40000 + 0x100 * u
def F.TU_CTL_EN (u : Nat) : Fld := ⟨R.TU_CTL u, 31, 31⟩
def F.TU_CTL_EDGE (u : Nat) : Fld := ⟨R.TU_CTL u, 25, 24⟩
def F.TU_CTL_AUTO_EN (u : Nat) : Fld := ⟨R.TU_CTL u, 23, 23⟩
def F.TU_CTL_GROUP (u : Nat) : Fld := ⟨R.TU_CTL u, 21, 16⟩
def F.TU_CTL_SRC_KIND (u : Nat) : Fld := ⟨R.TU_CTL u, 13, 12⟩
/-- TU_SRC[u]: [28:24] TILE RW; [20:16] DET RW; [12:0] SID RW. -/
def R.TU_SRC (u : Nat) : Nat := 0x40004 + 0x100 * u
def F.TU_SRC_TILE (u : Nat) : Fld := ⟨R.TU_SRC u, 28, 24⟩
def F.TU_SRC_DET (u : Nat) : Fld := ⟨R.TU_SRC u, 20, 16⟩
def F.TU_SRC_SID (u : Nat) : Fld := ⟨R.TU_SRC u, 12, 0⟩
/-- TU_STAT[u]: [3] SRC_IDLE RO; [2] INIT RO; [1] HOLDOFF RO; [0] S RO. -/
def R.TU_STAT (u : Nat) : Nat := 0x40018 + 0x100 * u
def F.TU_STAT_SRC_IDLE (u : Nat) : Fld := ⟨R.TU_STAT u, 3, 3⟩
def F.TU_STAT_INIT (u : Nat) : Fld := ⟨R.TU_STAT u, 2, 2⟩
def F.TU_STAT_HOLDOFF (u : Nat) : Fld := ⟨R.TU_STAT u, 1, 1⟩
def F.TU_STAT_S (u : Nat) : Fld := ⟨R.TU_STAT u, 0, 0⟩
/-- TG_CTL[g]: [29:28] GRID RW; [12:0] PRE RW. -/
def R.TG_CTL (g : Nat) : Nat := 0x40040 + 0x100 * g
def F.TG_CTL_GRID (g : Nat) : Fld := ⟨R.TG_CTL g, 29, 28⟩
def F.TG_CTL_PRE (g : Nat) : Fld := ⟨R.TG_CTL g, 12, 0⟩
/-- TG_STAT[g]: [24:16] LINKS RO; [15:1] SUPP RO; [0] WIN RO. -/
def R.TG_STAT (g : Nat) : Nat := 0x40048 + 0x100 * g
def F.TG_STAT_LINKS (g : Nat) : Fld := ⟨R.TG_STAT g, 24, 16⟩
def F.TG_STAT_SUPP (g : Nat) : Fld := ⟨R.TG_STAT g, 15, 1⟩
def F.TG_STAT_WIN (g : Nat) : Fld := ⟨R.TG_STAT g, 0, 0⟩
/-- RP_CTL[r]: [4] DMODE RW; [2:0] REP RW. -/
def R.RP_CTL (r : Nat) : Nat := 0x44000 + 0x10 * r
def F.RP_CTL_DMODE (r : Nat) : Fld := ⟨R.RP_CTL r, 4, 4⟩
def F.RP_CTL_REP (r : Nat) : Fld := ⟨R.RP_CTL r, 2, 0⟩
/-- TRIG_EVT: [1] UNCORR W1C; [0] SRC_IDLE W1C. -/
def R.TRIG_EVT : Nat := 0x44400
def F.TRIG_EVT_UNCORR : Fld := ⟨R.TRIG_EVT, 1, 1⟩
def F.TRIG_EVT_SRC_IDLE : Fld := ⟨R.TRIG_EVT, 0, 0⟩
/-- WS_LINK[k]: [31] VALID RW; [29:24] GROUP RW; [12:0] SID RW. -/
def R.WS_LINK (k : Nat) : Nat := 0x48000 + 0x4 * k
def F.WS_LINK_VALID (k : Nat) : Fld := ⟨R.WS_LINK k, 31, 31⟩
def F.WS_LINK_GROUP (k : Nat) : Fld := ⟨R.WS_LINK k, 29, 24⟩
def F.WS_LINK_SID (k : Nat) : Fld := ⟨R.WS_LINK k, 12, 0⟩
/-- WS_BIN[k]: [26:16] SKEW RO; [12:0] WORDS RO. -/
def R.WS_BIN (k : Nat) : Nat := 0x49000 + 0x4 * k
def F.WS_BIN_SKEW (k : Nat) : Fld := ⟨R.WS_BIN k, 26, 16⟩
def F.WS_BIN_WORDS (k : Nat) : Fld := ⟨R.WS_BIN k, 12, 0⟩
/-- SE_CTL[s]: [31] VALID RO; [30] ACT RW; [29] PATH RW; [28:27] SRC_KIND RW; [25:24] GRID RW; [22:20] FPATH RW; [17:16] PRIO RW; [11:8] PORT RW; [7:4] MASON RW. -/
def R.SE_CTL (s : Nat) : Nat := 0x100000 + 0x20 * s
def F.SE_CTL_VALID (s : Nat) : Fld := ⟨R.SE_CTL s, 31, 31⟩
def F.SE_CTL_ACT (s : Nat) : Fld := ⟨R.SE_CTL s, 30, 30⟩
def F.SE_CTL_PATH (s : Nat) : Fld := ⟨R.SE_CTL s, 29, 29⟩
def F.SE_CTL_SRC_KIND (s : Nat) : Fld := ⟨R.SE_CTL s, 28, 27⟩
def F.SE_CTL_GRID (s : Nat) : Fld := ⟨R.SE_CTL s, 25, 24⟩
def F.SE_CTL_FPATH (s : Nat) : Fld := ⟨R.SE_CTL s, 22, 20⟩
def F.SE_CTL_PRIO (s : Nat) : Fld := ⟨R.SE_CTL s, 17, 16⟩
def F.SE_CTL_PORT (s : Nat) : Fld := ⟨R.SE_CTL s, 11, 8⟩
def F.SE_CTL_MASON (s : Nat) : Fld := ⟨R.SE_CTL s, 7, 4⟩
/-- SE_SRC[s]: [28:24] TILE RW; [20:16] DET RW; [8:0] CH RW. -/
def R.SE_SRC (s : Nat) : Nat := 0x100004 + 0x20 * s
def F.SE_SRC_TILE (s : Nat) : Fld := ⟨R.SE_SRC s, 28, 24⟩
def F.SE_SRC_DET (s : Nat) : Fld := ⟨R.SE_SRC s, 20, 16⟩
def F.SE_SRC_CH (s : Nat) : Fld := ⟨R.SE_SRC s, 8, 0⟩
/-- SE_REP[s]: [29:24] NORMAL RW; [21:16] FALLBACK RW; [11] PRESS_EN RW; [9:8] ENG RW. -/
def R.SE_REP (s : Nat) : Nat := 0x100008 + 0x20 * s
def F.SE_REP_NORMAL (s : Nat) : Fld := ⟨R.SE_REP s, 29, 24⟩
def F.SE_REP_FALLBACK (s : Nat) : Fld := ⟨R.SE_REP s, 21, 16⟩
def F.SE_REP_PRESS_EN (s : Nat) : Fld := ⟨R.SE_REP s, 11, 11⟩
def F.SE_REP_ENG (s : Nat) : Fld := ⟨R.SE_REP s, 9, 8⟩
/-- SE_STAT[s]: [5] WINDOW RO; [4] FALLBACK RO; [3] GAP RO; [2] SETTLING RO; [1] RETIRING RO; [0] LINKED RO. -/
def R.SE_STAT (s : Nat) : Nat := 0x10000C + 0x20 * s
def F.SE_STAT_WINDOW (s : Nat) : Fld := ⟨R.SE_STAT s, 5, 5⟩
def F.SE_STAT_FALLBACK (s : Nat) : Fld := ⟨R.SE_STAT s, 4, 4⟩
def F.SE_STAT_GAP (s : Nat) : Fld := ⟨R.SE_STAT s, 3, 3⟩
def F.SE_STAT_SETTLING (s : Nat) : Fld := ⟨R.SE_STAT s, 2, 2⟩
def F.SE_STAT_RETIRING (s : Nat) : Fld := ⟨R.SE_STAT s, 1, 1⟩
def F.SE_STAT_LINKED (s : Nat) : Fld := ⟨R.SE_STAT s, 0, 0⟩
/-- MC_CTL[m]: [2] STOP WO; [1] HALT WO; [0] GO WO. -/
def R.MC_CTL (m : Nat) : Nat := 0x430000 + 0x40000 * m
def F.MC_CTL_STOP (m : Nat) : Fld := ⟨R.MC_CTL m, 2, 2⟩
def F.MC_CTL_HALT (m : Nat) : Fld := ⟨R.MC_CTL m, 1, 1⟩
def F.MC_CTL_GO (m : Nat) : Fld := ⟨R.MC_CTL m, 0, 0⟩
/-- MC_STAT[m]: [19:16] HODS RO; [9] STALLED RO; [8] IN_TRAP RO; [7] LOADED RO; [2:0] STATE RO. -/
def R.MC_STAT (m : Nat) : Nat := 0x430004 + 0x40000 * m
def F.MC_STAT_HODS (m : Nat) : Fld := ⟨R.MC_STAT m, 19, 16⟩
def F.MC_STAT_STALLED (m : Nat) : Fld := ⟨R.MC_STAT m, 9, 9⟩
def F.MC_STAT_IN_TRAP (m : Nat) : Fld := ⟨R.MC_STAT m, 8, 8⟩
def F.MC_STAT_LOADED (m : Nat) : Fld := ⟨R.MC_STAT m, 7, 7⟩
def F.MC_STAT_STATE (m : Nat) : Fld := ⟨R.MC_STAT m, 2, 0⟩
/-- MC_EVT[m]: [3] UNCORR W1C; [2] INBOX_LOSS W1C; [1] DFAULT W1C; [0] TRAP W1C. -/
def R.MC_EVT (m : Nat) : Nat := 0x430028 + 0x40000 * m
def F.MC_EVT_UNCORR (m : Nat) : Fld := ⟨R.MC_EVT m, 3, 3⟩
def F.MC_EVT_INBOX_LOSS (m : Nat) : Fld := ⟨R.MC_EVT m, 2, 2⟩
def F.MC_EVT_DFAULT (m : Nat) : Fld := ⟨R.MC_EVT m, 1, 1⟩
def F.MC_EVT_TRAP (m : Nat) : Fld := ⟨R.MC_EVT m, 0, 0⟩
/-- PQ_PUSH[q]: [31:0] DATA WO. -/
def R.PQ_PUSH (q : Nat) : Nat := 0xC0000 + 0x40 * q
def F.PQ_PUSH_DATA (q : Nat) : Fld := ⟨R.PQ_PUSH q, 31, 0⟩
/-- PQ_POP[q]: [31:0] DATA RC. -/
def R.PQ_POP (q : Nat) : Nat := 0xC0004 + 0x40 * q
def F.PQ_POP_DATA (q : Nat) : Fld := ⟨R.PQ_POP q, 31, 0⟩
/-- PQ_CNT[q]: [24:16] OCC RO; [8:0] CNT RO. -/
def R.PQ_CNT (q : Nat) : Nat := 0xC0008 + 0x40 * q
def F.PQ_CNT_OCC (q : Nat) : Fld := ⟨R.PQ_CNT q, 24, 16⟩
def F.PQ_CNT_CNT (q : Nat) : Fld := ⟨R.PQ_CNT q, 8, 0⟩
/-- PQ_STAT[q]: [7] FRAME_ERR W1C; [6] ORPHAN W1C; [5] OVF W1C; [4] UNDERRUN W1C; [1] OPEN RO; [0] EMPTY RO. -/
def R.PQ_STAT (q : Nat) : Nat := 0xC000C + 0x40 * q
def F.PQ_STAT_FRAME_ERR (q : Nat) : Fld := ⟨R.PQ_STAT q, 7, 7⟩
def F.PQ_STAT_ORPHAN (q : Nat) : Fld := ⟨R.PQ_STAT q, 6, 6⟩
def F.PQ_STAT_OVF (q : Nat) : Fld := ⟨R.PQ_STAT q, 5, 5⟩
def F.PQ_STAT_UNDERRUN (q : Nat) : Fld := ⟨R.PQ_STAT q, 4, 4⟩
def F.PQ_STAT_OPEN (q : Nat) : Fld := ⟨R.PQ_STAT q, 1, 1⟩
def F.PQ_STAT_EMPTY (q : Nat) : Fld := ⟨R.PQ_STAT q, 0, 0⟩
/-- PQ_CTL[q]: [31:16] TAG WO; [2] CLOSE WO; [1] OPEN WO; [0] FLUSH WO. -/
def R.PQ_CTL (q : Nat) : Nat := 0xC0010 + 0x40 * q
def F.PQ_CTL_TAG (q : Nat) : Fld := ⟨R.PQ_CTL q, 31, 16⟩
def F.PQ_CTL_CLOSE (q : Nat) : Fld := ⟨R.PQ_CTL q, 2, 2⟩
def F.PQ_CTL_OPEN (q : Nat) : Fld := ⟨R.PQ_CTL q, 1, 1⟩
def F.PQ_CTL_FLUSH (q : Nat) : Fld := ⟨R.PQ_CTL q, 0, 0⟩
/-- YARD_CTL: [22:16] HYST RW; [14:8] W2_LVL RW; [6:0] W1_LVL RW. -/
def R.YARD_CTL : Nat := 0x60000
def F.YARD_CTL_HYST : Fld := ⟨R.YARD_CTL, 22, 16⟩
def F.YARD_CTL_W2_LVL : Fld := ⟨R.YARD_CTL, 14, 8⟩
def F.YARD_CTL_W1_LVL : Fld := ⟨R.YARD_CTL, 6, 0⟩
/-- YARD_STAT: [2] RSV_FULL RO; [1] SREF RO; [0] READY RO. -/
def R.YARD_STAT : Nat := 0x60004
def F.YARD_STAT_RSV_FULL : Fld := ⟨R.YARD_STAT, 2, 2⟩
def F.YARD_STAT_SREF : Fld := ⟨R.YARD_STAT, 1, 1⟩
def F.YARD_STAT_READY : Fld := ⟨R.YARD_STAT, 0, 0⟩
/-- YARD_EVT: [9:0] EVT W1C. -/
def R.YARD_EVT : Nat := 0x60008
def F.YARD_EVT_EVT : Fld := ⟨R.YARD_EVT, 9, 0⟩
/-- RING_CFG[p]: [25:16] BASE RO; [9:0] SIZE RW. -/
def R.RING_CFG (p : Nat) : Nat := 0x60100 + 0x40 * p
def F.RING_CFG_BASE (p : Nat) : Fld := ⟨R.RING_CFG p, 25, 16⟩
def F.RING_CFG_SIZE (p : Nat) : Fld := ⟨R.RING_CFG p, 9, 0⟩
/-- RING_STAT[p]: [27] ACTIVE RO; [26] REWINDING RO; [25] W3_N RO; [24] W3_0 RO; [17:16] FB RO; [6:0] FILL RO. -/
def R.RING_STAT (p : Nat) : Nat := 0x60104 + 0x40 * p
def F.RING_STAT_ACTIVE (p : Nat) : Fld := ⟨R.RING_STAT p, 27, 27⟩
def F.RING_STAT_REWINDING (p : Nat) : Fld := ⟨R.RING_STAT p, 26, 26⟩
def F.RING_STAT_W3_N (p : Nat) : Fld := ⟨R.RING_STAT p, 25, 25⟩
def F.RING_STAT_W3_0 (p : Nat) : Fld := ⟨R.RING_STAT p, 24, 24⟩
def F.RING_STAT_FB (p : Nat) : Fld := ⟨R.RING_STAT p, 17, 16⟩
def F.RING_STAT_FILL (p : Nat) : Fld := ⟨R.RING_STAT p, 6, 0⟩
/-- RING_BAD[p]: [31:16] REWIND RC; [15:0] HORIZON RC. -/
def R.RING_BAD (p : Nat) : Nat := 0x6011C + 0x40 * p
def F.RING_BAD_REWIND (p : Nat) : Fld := ⟨R.RING_BAD p, 31, 16⟩
def F.RING_BAD_HORIZON (p : Nat) : Fld := ⟨R.RING_BAD p, 15, 0⟩
/-- PK_CTL[t]: [15:0] W16 RW. -/
def R.PK_CTL (t : Nat) : Nat := 0x60800 + 0x4 * t
def F.PK_CTL_W16 (t : Nat) : Fld := ⟨R.PK_CTL t, 15, 0⟩
/-- PK_STAT[k]: [31:16] EVICT RC; [6:0] BUFS RO. -/
def R.PK_STAT (k : Nat) : Nat := 0x60880 + 0x4 * k
def F.PK_STAT_EVICT (k : Nat) : Fld := ⟨R.PK_STAT k, 31, 16⟩
def F.PK_STAT_BUFS (k : Nat) : Fld := ⟨R.PK_STAT k, 6, 0⟩
/-- PRESS_EVT: [2] UNCORR W1C; [1] EXPAND_LIMIT W1C; [0] PX_REJECT W1C. -/
def R.PRESS_EVT : Nat := 0x50000
def F.PRESS_EVT_UNCORR : Fld := ⟨R.PRESS_EVT, 2, 2⟩
def F.PRESS_EVT_EXPAND_LIMIT : Fld := ⟨R.PRESS_EVT, 1, 1⟩
def F.PRESS_EVT_PX_REJECT : Fld := ⟨R.PRESS_EVT, 0, 0⟩
/-- PC_CTL[e]: [25:16] RMAX RW; [0] PRED RW. -/
def R.PC_CTL (e : Nat) : Nat := 0x50100 + 0x40 * e
def F.PC_CTL_RMAX (e : Nat) : Fld := ⟨R.PC_CTL e, 25, 16⟩
def F.PC_CTL_PRED (e : Nat) : Fld := ⟨R.PC_CTL e, 0, 0⟩
/-- PC_STAT[e]: [31:16] EVICT RC; [6:0] BUFS RO. -/
def R.PC_STAT (e : Nat) : Nat := 0x50104 + 0x40 * e
def F.PC_STAT_EVICT (e : Nat) : Fld := ⟨R.PC_STAT e, 31, 16⟩
def F.PC_STAT_BUFS (e : Nat) : Fld := ⟨R.PC_STAT e, 6, 0⟩
/-- PX_CTL: [0] GO WO. -/
def R.PX_CTL : Nat := 0x50200
def F.PX_CTL_GO : Fld := ⟨R.PX_CTL, 0, 0⟩
/-- PX_JOB: [28:16] IN_LEN RW; [14:0] OUT_LIMIT RW. -/
def R.PX_JOB : Nat := 0x50204
def F.PX_JOB_IN_LEN : Fld := ⟨R.PX_JOB, 28, 16⟩
def F.PX_JOB_OUT_LIMIT : Fld := ⟨R.PX_JOB, 14, 0⟩
/-- PX_STAT: [15:8] STATUS RO; [4] OWNER RO; [3] VALID RO; [1:0] STATE RO. -/
def R.PX_STAT : Nat := 0x50208
def F.PX_STAT_STATUS : Fld := ⟨R.PX_STAT, 15, 8⟩
def F.PX_STAT_OWNER : Fld := ⟨R.PX_STAT, 4, 4⟩
def F.PX_STAT_VALID : Fld := ⟨R.PX_STAT, 3, 3⟩
def F.PX_STAT_STATE : Fld := ⟨R.PX_STAT, 1, 0⟩
/-- LANE_CTL[n]: [19:16] LOS_THR RW; [15:12] TX_DEEMPH RW; [11:8] TX_SWING RW; [5:4] LB RW; [0] IDLE RW. -/
def R.LANE_CTL (n : Nat) : Nat := 0x80000 + 0x400 * n
def F.LANE_CTL_LOS_THR (n : Nat) : Fld := ⟨R.LANE_CTL n, 19, 16⟩
def F.LANE_CTL_TX_DEEMPH (n : Nat) : Fld := ⟨R.LANE_CTL n, 15, 12⟩
def F.LANE_CTL_TX_SWING (n : Nat) : Fld := ⟨R.LANE_CTL n, 11, 8⟩
def F.LANE_CTL_LB (n : Nat) : Fld := ⟨R.LANE_CTL n, 5, 4⟩
def F.LANE_CTL_IDLE (n : Nat) : Fld := ⟨R.LANE_CTL n, 0, 0⟩
/-- LANE_STAT[n]: [31:28] LAST_FAIL RO; [27:24] BACKOFF RO; [17:16] PLANE RO; [15:12] PORT RO; [11] INPORT RO; [8] RX_INV RO; [5] LOL RO; [4] LOS RO; [2:0] STATE RO. -/
def R.LANE_STAT (n : Nat) : Nat := 0x80004 + 0x400 * n
def F.LANE_STAT_LAST_FAIL (n : Nat) : Fld := ⟨R.LANE_STAT n, 31, 28⟩
def F.LANE_STAT_BACKOFF (n : Nat) : Fld := ⟨R.LANE_STAT n, 27, 24⟩
def F.LANE_STAT_PLANE (n : Nat) : Fld := ⟨R.LANE_STAT n, 17, 16⟩
def F.LANE_STAT_PORT (n : Nat) : Fld := ⟨R.LANE_STAT n, 15, 12⟩
def F.LANE_STAT_INPORT (n : Nat) : Fld := ⟨R.LANE_STAT n, 11, 11⟩
def F.LANE_STAT_RX_INV (n : Nat) : Fld := ⟨R.LANE_STAT n, 8, 8⟩
def F.LANE_STAT_LOL (n : Nat) : Fld := ⟨R.LANE_STAT n, 5, 5⟩
def F.LANE_STAT_LOS (n : Nat) : Fld := ⟨R.LANE_STAT n, 4, 4⟩
def F.LANE_STAT_STATE (n : Nat) : Fld := ⟨R.LANE_STAT n, 2, 0⟩
/-- LANE_EVT[n]: [3] CODE_ERR W1C; [2] EB_SLIP W1C; [1] LANE_DOWN W1C; [0] TRAIN_FAIL W1C. -/
def R.LANE_EVT (n : Nat) : Nat := 0x80008 + 0x400 * n
def F.LANE_EVT_CODE_ERR (n : Nat) : Fld := ⟨R.LANE_EVT n, 3, 3⟩
def F.LANE_EVT_EB_SLIP (n : Nat) : Fld := ⟨R.LANE_EVT n, 2, 2⟩
def F.LANE_EVT_LANE_DOWN (n : Nat) : Fld := ⟨R.LANE_EVT n, 1, 1⟩
def F.LANE_EVT_TRAIN_FAIL (n : Nat) : Fld := ⟨R.LANE_EVT n, 0, 0⟩
/-- LANE_EQ[n]: [31] HOLD RW; [4] FROZEN RO; [3:0] CTLE RO. -/
def R.LANE_EQ (n : Nat) : Nat := 0x80018 + 0x400 * n
def F.LANE_EQ_HOLD (n : Nat) : Fld := ⟨R.LANE_EQ n, 31, 31⟩
def F.LANE_EQ_FROZEN (n : Nat) : Fld := ⟨R.LANE_EQ n, 4, 4⟩
def F.LANE_EQ_CTLE (n : Nat) : Fld := ⟨R.LANE_EQ n, 3, 0⟩
/-- LANE_DFE[n]: [29:24] T5 RO; [23:18] T4 RO; [17:12] T3 RO; [11:6] T2 RO; [5:0] T1 RO. -/
def R.LANE_DFE (n : Nat) : Nat := 0x8001C + 0x400 * n
def F.LANE_DFE_T5 (n : Nat) : Fld := ⟨R.LANE_DFE n, 29, 24⟩
def F.LANE_DFE_T4 (n : Nat) : Fld := ⟨R.LANE_DFE n, 23, 18⟩
def F.LANE_DFE_T3 (n : Nat) : Fld := ⟨R.LANE_DFE n, 17, 12⟩
def F.LANE_DFE_T2 (n : Nat) : Fld := ⟨R.LANE_DFE n, 11, 6⟩
def F.LANE_DFE_T1 (n : Nat) : Fld := ⟨R.LANE_DFE n, 5, 0⟩
/-- PRBS_CTL[n]: [23:16] BURST RW; [9] INJB WO; [8] INJ1 WO; [6] INV RW; [5:4] POLY RW; [1] CHK_EN RW; [0] GEN_EN RW. -/
def R.PRBS_CTL (n : Nat) : Nat := 0x80100 + 0x400 * n
def F.PRBS_CTL_BURST (n : Nat) : Fld := ⟨R.PRBS_CTL n, 23, 16⟩
def F.PRBS_CTL_INJB (n : Nat) : Fld := ⟨R.PRBS_CTL n, 9, 9⟩
def F.PRBS_CTL_INJ1 (n : Nat) : Fld := ⟨R.PRBS_CTL n, 8, 8⟩
def F.PRBS_CTL_INV (n : Nat) : Fld := ⟨R.PRBS_CTL n, 6, 6⟩
def F.PRBS_CTL_POLY (n : Nat) : Fld := ⟨R.PRBS_CTL n, 5, 4⟩
def F.PRBS_CTL_CHK_EN (n : Nat) : Fld := ⟨R.PRBS_CTL n, 1, 1⟩
def F.PRBS_CTL_GEN_EN (n : Nat) : Fld := ⟨R.PRBS_CTL n, 0, 0⟩
/-- PRBS_STAT[n]: [2] INJ_PEND RO; [1] LOCK_LOST W1C; [0] LOCK RO. -/
def R.PRBS_STAT (n : Nat) : Nat := 0x80104 + 0x400 * n
def F.PRBS_STAT_INJ_PEND (n : Nat) : Fld := ⟨R.PRBS_STAT n, 2, 2⟩
def F.PRBS_STAT_LOCK_LOST (n : Nat) : Fld := ⟨R.PRBS_STAT n, 1, 1⟩
def F.PRBS_STAT_LOCK (n : Nat) : Fld := ⟨R.PRBS_STAT n, 0, 0⟩
/-- QUAD_CTL[q]: [25] RETRAIN1 WO; [24] RETRAIN0 WO; [17] NARROW1 RW; [16] NARROW0 RW; [15:14] ROLE1 RW; [13:12] ROLE0 RW; [11:10] W1 RW; [9:8] W0 RW; [2:0] RATE RW. -/
def R.QUAD_CTL (q : Nat) : Nat := 0x88000 + 0x20 * q
def F.QUAD_CTL_RETRAIN1 (q : Nat) : Fld := ⟨R.QUAD_CTL q, 25, 25⟩
def F.QUAD_CTL_RETRAIN0 (q : Nat) : Fld := ⟨R.QUAD_CTL q, 24, 24⟩
def F.QUAD_CTL_NARROW1 (q : Nat) : Fld := ⟨R.QUAD_CTL q, 17, 17⟩
def F.QUAD_CTL_NARROW0 (q : Nat) : Fld := ⟨R.QUAD_CTL q, 16, 16⟩
def F.QUAD_CTL_ROLE1 (q : Nat) : Fld := ⟨R.QUAD_CTL q, 15, 14⟩
def F.QUAD_CTL_ROLE0 (q : Nat) : Fld := ⟨R.QUAD_CTL q, 13, 12⟩
def F.QUAD_CTL_W1 (q : Nat) : Fld := ⟨R.QUAD_CTL q, 11, 10⟩
def F.QUAD_CTL_W0 (q : Nat) : Fld := ⟨R.QUAD_CTL q, 9, 8⟩
def F.QUAD_CTL_RATE (q : Nat) : Fld := ⟨R.QUAD_CTL q, 2, 0⟩
/-- QUAD_STAT[q]: [17] REV1 RO; [16] REV0 RO; [15:14] PS1 RO; [13:12] PS0 RO; [11:10] AW1 RO; [9:8] AW0 RO; [1] REFCLK_OK RO; [0] PLL_LOCK RO. -/
def R.QUAD_STAT (q : Nat) : Nat := 0x88004 + 0x20 * q
def F.QUAD_STAT_REV1 (q : Nat) : Fld := ⟨R.QUAD_STAT q, 17, 17⟩
def F.QUAD_STAT_REV0 (q : Nat) : Fld := ⟨R.QUAD_STAT q, 16, 16⟩
def F.QUAD_STAT_PS1 (q : Nat) : Fld := ⟨R.QUAD_STAT q, 15, 14⟩
def F.QUAD_STAT_PS0 (q : Nat) : Fld := ⟨R.QUAD_STAT q, 13, 12⟩
def F.QUAD_STAT_AW1 (q : Nat) : Fld := ⟨R.QUAD_STAT q, 11, 10⟩
def F.QUAD_STAT_AW0 (q : Nat) : Fld := ⟨R.QUAD_STAT q, 9, 8⟩
def F.QUAD_STAT_REFCLK_OK (q : Nat) : Fld := ⟨R.QUAD_STAT q, 1, 1⟩
def F.QUAD_STAT_PLL_LOCK (q : Nat) : Fld := ⟨R.QUAD_STAT q, 0, 0⟩
/-- QUAD_EVT[q]: [4] QPLL_LOSS W1C; [3] NARROW1 W1C; [2] NARROW0 W1C; [1] TRAINED1 W1C; [0] TRAINED0 W1C. -/
def R.QUAD_EVT (q : Nat) : Nat := 0x88008 + 0x20 * q
def F.QUAD_EVT_QPLL_LOSS (q : Nat) : Fld := ⟨R.QUAD_EVT q, 4, 4⟩
def F.QUAD_EVT_NARROW1 (q : Nat) : Fld := ⟨R.QUAD_EVT q, 3, 3⟩
def F.QUAD_EVT_NARROW0 (q : Nat) : Fld := ⟨R.QUAD_EVT q, 2, 2⟩
def F.QUAD_EVT_TRAINED1 (q : Nat) : Fld := ⟨R.QUAD_EVT q, 1, 1⟩
def F.QUAD_EVT_TRAINED0 (q : Nat) : Fld := ⟨R.QUAD_EVT q, 0, 0⟩
/-- LINK_CFG: [23:16] REPLAY_TMO RW; [12] SECOND_EN RW; [11:8] SECOND RW; [3:0] PRIMARY RW. -/
def R.LINK_CFG : Nat := 0x90000
def F.LINK_CFG_REPLAY_TMO : Fld := ⟨R.LINK_CFG, 23, 16⟩
def F.LINK_CFG_SECOND_EN : Fld := ⟨R.LINK_CFG, 12, 12⟩
def F.LINK_CFG_SECOND : Fld := ⟨R.LINK_CFG, 11, 8⟩
def F.LINK_CFG_PRIMARY : Fld := ⟨R.LINK_CFG, 3, 0⟩
/-- LINK_STAT: [20] PRIMARY_UP RO; [19:16] DEPTH RO; [13:0] HID RO. -/
def R.LINK_STAT : Nat := 0x90004
def F.LINK_STAT_PRIMARY_UP : Fld := ⟨R.LINK_STAT, 20, 20⟩
def F.LINK_STAT_DEPTH : Fld := ⟨R.LINK_STAT, 19, 16⟩
def F.LINK_STAT_HID : Fld := ⟨R.LINK_STAT, 13, 0⟩
/-- EVT_MASK: [14:1] EN RW. -/
def R.EVT_MASK : Nat := 0x9000C
def F.EVT_MASK_EN : Fld := ⟨R.EVT_MASK, 14, 1⟩
/-- PL_STAT[p]: [31] ACTIVE RO; [27:16] RX_NEXT RO; [11:0] TX_NEXT RO. -/
def R.PL_STAT (p : Nat) : Nat := 0x90100 + 0x40 * p
def F.PL_STAT_ACTIVE (p : Nat) : Fld := ⟨R.PL_STAT p, 31, 31⟩
def F.PL_STAT_RX_NEXT (p : Nat) : Fld := ⟨R.PL_STAT p, 27, 16⟩
def F.PL_STAT_TX_NEXT (p : Nat) : Fld := ⟨R.PL_STAT p, 11, 0⟩
/-- PL_PEER[p]: [31] VALID RO; [30] HOST RO; [29] PRIMARY RO; [27:24] DEPTH RO; [23:20] PORT RO; [13:0] HID RO. -/
def R.PL_PEER (p : Nat) : Nat := 0x90104 + 0x40 * p
def F.PL_PEER_VALID (p : Nat) : Fld := ⟨R.PL_PEER p, 31, 31⟩
def F.PL_PEER_HOST (p : Nat) : Fld := ⟨R.PL_PEER p, 30, 30⟩
def F.PL_PEER_PRIMARY (p : Nat) : Fld := ⟨R.PL_PEER p, 29, 29⟩
def F.PL_PEER_DEPTH (p : Nat) : Fld := ⟨R.PL_PEER p, 27, 24⟩
def F.PL_PEER_PORT (p : Nat) : Fld := ⟨R.PL_PEER p, 23, 20⟩
def F.PL_PEER_HID (p : Nat) : Fld := ⟨R.PL_PEER p, 13, 0⟩
/-- DESC[k]: [31] VALID RO; [27:24] PORT RO; [13:0] HID RO. -/
def R.DESC (k : Nat) : Nat := 0x90800 + 0x4 * k
def F.DESC_VALID (k : Nat) : Fld := ⟨R.DESC k, 31, 31⟩
def F.DESC_PORT (k : Nat) : Fld := ⟨R.DESC k, 27, 24⟩
def F.DESC_HID (k : Nat) : Fld := ⟨R.DESC k, 13, 0⟩
/-- TT_CTL: [24:16] SLEW_MAX RW; [11:8] LOG_INTV RW; [2] TSQ_ALL RW; [1] FREEZE RW; [0] SERVE RW. -/
def R.TT_CTL : Nat := 0x20200
def F.TT_CTL_SLEW_MAX : Fld := ⟨R.TT_CTL, 24, 16⟩
def F.TT_CTL_LOG_INTV : Fld := ⟨R.TT_CTL, 11, 8⟩
def F.TT_CTL_TSQ_ALL : Fld := ⟨R.TT_CTL, 2, 2⟩
def F.TT_CTL_FREEZE : Fld := ⟨R.TT_CTL, 1, 1⟩
def F.TT_CTL_SERVE : Fld := ⟨R.TT_CTL, 0, 0⟩
/-- TT_STAT: [11] FREQ_LIMIT RO; [10:8] STATE RO; [5:4] PARENT_Q RO; [3] SECOND_OK RO; [2] ROUTE_PEND RO; [1] JUMP_PEND RO; [0] STEP_PEND RO. -/
def R.TT_STAT : Nat := 0x20204
def F.TT_STAT_FREQ_LIMIT : Fld := ⟨R.TT_STAT, 11, 11⟩
def F.TT_STAT_STATE : Fld := ⟨R.TT_STAT, 10, 8⟩
def F.TT_STAT_PARENT_Q : Fld := ⟨R.TT_STAT, 5, 4⟩
def F.TT_STAT_SECOND_OK : Fld := ⟨R.TT_STAT, 3, 3⟩
def F.TT_STAT_ROUTE_PEND : Fld := ⟨R.TT_STAT, 2, 2⟩
def F.TT_STAT_JUMP_PEND : Fld := ⟨R.TT_STAT, 1, 1⟩
def F.TT_STAT_STEP_PEND : Fld := ⟨R.TT_STAT, 0, 0⟩
/-- TT_STEP: [9:8] MODE WO; [4] SRC WO; [0] SLEW WO. -/
def R.TT_STEP : Nat := 0x2020C
def F.TT_STEP_MODE : Fld := ⟨R.TT_STEP, 9, 8⟩
def F.TT_STEP_SRC : Fld := ⟨R.TT_STEP, 4, 4⟩
def F.TT_STEP_SLEW : Fld := ⟨R.TT_STEP, 0, 0⟩
/-- TT_PROBE: [27:24] PORT WO; [7:0] TSID WO. -/
def R.TT_PROBE : Nat := 0x20238
def F.TT_PROBE_PORT : Fld := ⟨R.TT_PROBE, 27, 24⟩
def F.TT_PROBE_TSID : Fld := ⟨R.TT_PROBE, 7, 0⟩
/-- TSQ_POP[p]: [31] VALID RC; [30] EXCH RC; [23:16] TSID RC; [15:0] SUBNS RC. -/
def R.TSQ_POP (p : Nat) : Nat := 0x20300 + 0x10 * p
def F.TSQ_POP_VALID (p : Nat) : Fld := ⟨R.TSQ_POP p, 31, 31⟩
def F.TSQ_POP_EXCH (p : Nat) : Fld := ⟨R.TSQ_POP p, 30, 30⟩
def F.TSQ_POP_TSID (p : Nat) : Fld := ⟨R.TSQ_POP p, 23, 16⟩
def F.TSQ_POP_SUBNS (p : Nat) : Fld := ⟨R.TSQ_POP p, 15, 0⟩
/-- TSQ_STAT[p]: [31:16] DROP RC; [3:0] DEPTH RO. -/
def R.TSQ_STAT (p : Nat) : Nat := 0x2030C + 0x10 * p
def F.TSQ_STAT_DROP (p : Nat) : Fld := ⟨R.TSQ_STAT p, 31, 16⟩
def F.TSQ_STAT_DEPTH (p : Nat) : Fld := ⟨R.TSQ_STAT p, 3, 0⟩
/-- CS_STAT: [4] FW_COPY RO; [3] ID_BUSY RO; [2] METERING RO; [1] RESTORED RO; [0] SEALED RO. -/
def R.CS_STAT : Nat := 0xB0000
def F.CS_STAT_FW_COPY : Fld := ⟨R.CS_STAT, 4, 4⟩
def F.CS_STAT_ID_BUSY : Fld := ⟨R.CS_STAT, 3, 3⟩
def F.CS_STAT_METERING : Fld := ⟨R.CS_STAT, 2, 2⟩
def F.CS_STAT_RESTORED : Fld := ⟨R.CS_STAT, 1, 1⟩
def F.CS_STAT_SEALED : Fld := ⟨R.CS_STAT, 0, 0⟩
/-- CS_CMD: [23:8] ARG WO; [2:0] OP WO. -/
def R.CS_CMD : Nat := 0xB000C
def F.CS_CMD_ARG : Fld := ⟨R.CS_CMD, 23, 8⟩
def F.CS_CMD_OP : Fld := ⟨R.CS_CMD, 2, 0⟩
/-- CSI_CH[k]: [31] EN RO; [18:16] PGA RO; [8:0] CH RO. -/
def R.CSI_CH (k : Nat) : Nat := 0xB0100 + 0x10 * k
def F.CSI_CH_EN (k : Nat) : Fld := ⟨R.CSI_CH k, 31, 31⟩
def F.CSI_CH_PGA (k : Nat) : Fld := ⟨R.CSI_CH k, 18, 16⟩
def F.CSI_CH_CH (k : Nat) : Fld := ⟨R.CSI_CH k, 8, 0⟩
/-- CSM_CFG[j]: [31] EN RO; [28:24] VIN RO; [20:16] IIN RO; [15] I_EN RO; [11:0] MDIV RO. -/
def R.CSM_CFG (j : Nat) : Nat := 0xB0300 + 0x10 * j
def F.CSM_CFG_EN (j : Nat) : Fld := ⟨R.CSM_CFG j, 31, 31⟩
def F.CSM_CFG_VIN (j : Nat) : Fld := ⟨R.CSM_CFG j, 28, 24⟩
def F.CSM_CFG_IIN (j : Nat) : Fld := ⟨R.CSM_CFG j, 20, 16⟩
def F.CSM_CFG_I_EN (j : Nat) : Fld := ⟨R.CSM_CFG j, 15, 15⟩
def F.CSM_CFG_MDIV (j : Nat) : Fld := ⟨R.CSM_CFG j, 11, 0⟩
/-- MODE_OWNER: [8] FORCE WO; [1:0] OWNER RW. -/
def R.MODE_OWNER : Nat := 0x20
def F.MODE_OWNER_FORCE : Fld := ⟨R.MODE_OWNER, 8, 8⟩
def F.MODE_OWNER_OWNER : Fld := ⟨R.MODE_OWNER, 1, 0⟩
/-- HK_CTL: [31:16] PERIOD RW; [12:8] LEN RW; [5:4] TMODE RW; [0] EN RW. -/
def R.HK_CTL : Nat := 0x30000
def F.HK_CTL_PERIOD : Fld := ⟨R.HK_CTL, 31, 16⟩
def F.HK_CTL_LEN : Fld := ⟨R.HK_CTL, 12, 8⟩
def F.HK_CTL_TMODE : Fld := ⟨R.HK_CTL, 5, 4⟩
def F.HK_CTL_EN : Fld := ⟨R.HK_CTL, 0, 0⟩
/-- HK_STAT: [12:8] ENTRY RO; [2] IDLE RO; [1] PEND RO; [0] RUN RO. -/
def R.HK_STAT : Nat := 0x30004
def F.HK_STAT_ENTRY : Fld := ⟨R.HK_STAT, 12, 8⟩
def F.HK_STAT_IDLE : Fld := ⟨R.HK_STAT, 2, 2⟩
def F.HK_STAT_PEND : Fld := ⟨R.HK_STAT, 1, 1⟩
def F.HK_STAT_RUN : Fld := ⟨R.HK_STAT, 0, 0⟩
/-- HK_CFGR: [31] MARGINAL RO; [19:16] CODE RO; [11:0] RAW RO. -/
def R.HK_CFGR : Nat := 0x3001C
def F.HK_CFGR_MARGINAL : Fld := ⟨R.HK_CFGR, 31, 31⟩
def F.HK_CFGR_CODE : Fld := ⟨R.HK_CFGR, 19, 16⟩
def F.HK_CFGR_RAW : Fld := ⟨R.HK_CFGR, 11, 0⟩
/-- HK_SEQ[n]: [16] LIM_EN RW; [10:8] AVG RW; [5:0] INPUT RW. -/
def R.HK_SEQ (n : Nat) : Nat := 0x30100 + 0x4 * n
def F.HK_SEQ_LIM_EN (n : Nat) : Fld := ⟨R.HK_SEQ n, 16, 16⟩
def F.HK_SEQ_AVG (n : Nat) : Fld := ⟨R.HK_SEQ n, 10, 8⟩
def F.HK_SEQ_INPUT (n : Nat) : Fld := ⟨R.HK_SEQ n, 5, 0⟩
/-- HK_RES[n]: [31] NEW RC; [30] OVR RC; [15:0] VALUE RO. -/
def R.HK_RES (n : Nat) : Nat := 0x30200 + 0x4 * n
def F.HK_RES_NEW (n : Nat) : Fld := ⟨R.HK_RES n, 31, 31⟩
def F.HK_RES_OVR (n : Nat) : Fld := ⟨R.HK_RES n, 30, 30⟩
def F.HK_RES_VALUE (n : Nat) : Fld := ⟨R.HK_RES n, 15, 0⟩
/-- GLOBAL_ID: [31:16] PART RO; [15:8] STEP RO. -/
def R.GLOBAL_ID : Nat := 0x0
def F.GLOBAL_ID_PART : Fld := ⟨R.GLOBAL_ID, 31, 16⟩
def F.GLOBAL_ID_STEP : Fld := ⟨R.GLOBAL_ID, 15, 8⟩
/-- MODE: [9] NOKILN WO; [8] DISCARD WO; [2:0] MODE RW. -/
def R.MODE : Nat := 0x4
def F.MODE_NOKILN : Fld := ⟨R.MODE, 9, 9⟩
def F.MODE_DISCARD : Fld := ⟨R.MODE, 8, 8⟩
def F.MODE_MODE : Fld := ⟨R.MODE, 2, 0⟩
/-- RST_CAUSE: [31:16] COUNT RO; [11:8] LAST RO; [7:0] SEEN RS. -/
def R.RST_CAUSE : Nat := 0x10000
def F.RST_CAUSE_COUNT : Fld := ⟨R.RST_CAUSE, 31, 16⟩
def F.RST_CAUSE_LAST : Fld := ⟨R.RST_CAUSE, 11, 8⟩
def F.RST_CAUSE_SEEN : Fld := ⟨R.RST_CAUSE, 7, 0⟩
/-- RST_CTL: [8] LOCKUP_ACT RW; [0] SOFT WO. -/
def R.RST_CTL : Nat := 0x10004
def F.RST_CTL_LOCKUP_ACT : Fld := ⟨R.RST_CTL, 8, 8⟩
def F.RST_CTL_SOFT : Fld := ⟨R.RST_CTL, 0, 0⟩
/-- BLK_RST: [27:24] KIND WO; [7:0] INDEX WO. -/
def R.BLK_RST : Nat := 0x10008
def F.BLK_RST_KIND : Fld := ⟨R.BLK_RST, 27, 24⟩
def F.BLK_RST_INDEX : Fld := ⟨R.BLK_RST, 7, 0⟩
/-- WDT_CTL: [31] EN RW; [15:0] PERIOD RW. -/
def R.WDT_CTL : Nat := 0x10010
def F.WDT_CTL_EN : Fld := ⟨R.WDT_CTL, 31, 31⟩
def F.WDT_CTL_PERIOD : Fld := ⟨R.WDT_CTL, 15, 0⟩
/-- BOOT_STAT: [31:16] MASONS RO; [11:8] STEP RO; [1:0] IMAGE RO. -/
def R.BOOT_STAT : Nat := 0x10024
def F.BOOT_STAT_MASONS : Fld := ⟨R.BOOT_STAT, 31, 16⟩
def F.BOOT_STAT_STEP : Fld := ⟨R.BOOT_STAT, 11, 8⟩
def F.BOOT_STAT_IMAGE : Fld := ⟨R.BOOT_STAT, 1, 0⟩
/-- OPT_STAT: [9:8] FAILS RO; [4] STRAP RO; [3] BLANK RO; [2] OPT_FAULT RO; [1:0] SRC RO. -/
def R.OPT_STAT : Nat := 0x10030
def F.OPT_STAT_FAILS : Fld := ⟨R.OPT_STAT, 9, 8⟩
def F.OPT_STAT_STRAP : Fld := ⟨R.OPT_STAT, 4, 4⟩
def F.OPT_STAT_BLANK : Fld := ⟨R.OPT_STAT, 3, 3⟩
def F.OPT_STAT_OPT_FAULT : Fld := ⟨R.OPT_STAT, 2, 2⟩
def F.OPT_STAT_SRC : Fld := ⟨R.OPT_STAT, 1, 0⟩
/-- NV_CMD: [29:28] TARGET WO; [25:24] ROWS WO; [13:0] ROW WO. -/
def R.NV_CMD : Nat := 0x10038
def F.NV_CMD_TARGET : Fld := ⟨R.NV_CMD, 29, 28⟩
def F.NV_CMD_ROWS : Fld := ⟨R.NV_CMD, 25, 24⟩
def F.NV_CMD_ROW : Fld := ⟨R.NV_CMD, 13, 0⟩
/-- NV_STAT: [15:8] STATUS RO; [0] BUSY RO. -/
def R.NV_STAT : Nat := 0x1003C
def F.NV_STAT_STATUS : Fld := ⟨R.NV_STAT, 15, 8⟩
def F.NV_STAT_BUSY : Fld := ⟨R.NV_STAT, 0, 0⟩
/-- KILN_CTL: [31] GO WO; [27:24] KIND WO; [7:0] INDEX WO. -/
def R.KILN_CTL : Nat := 0xA0000
def F.KILN_CTL_GO : Fld := ⟨R.KILN_CTL, 31, 31⟩
def F.KILN_CTL_KIND : Fld := ⟨R.KILN_CTL, 27, 24⟩
def F.KILN_CTL_INDEX : Fld := ⟨R.KILN_CTL, 7, 0⟩
/-- KILN_STAT: [27:25] REASON RO; [24] SKIPPED RO; [23:16] SEG RO; [1:0] STATE RO. -/
def R.KILN_STAT : Nat := 0xA0004
def F.KILN_STAT_REASON : Fld := ⟨R.KILN_STAT, 27, 25⟩
def F.KILN_STAT_SKIPPED : Fld := ⟨R.KILN_STAT, 24, 24⟩
def F.KILN_STAT_SEG : Fld := ⟨R.KILN_STAT, 23, 16⟩
def F.KILN_STAT_STATE : Fld := ⟨R.KILN_STAT, 1, 0⟩
/-- KILN_RES[s]: [31:30] RESULT RO; [23:0] PATTERNS RO. -/
def R.KILN_RES (s : Nat) : Nat := 0xA0100 + 0x4 * s
def F.KILN_RES_RESULT (s : Nat) : Fld := ⟨R.KILN_RES s, 31, 30⟩
def F.KILN_RES_PATTERNS (s : Nat) : Fld := ⟨R.KILN_RES s, 23, 0⟩
/-- TRIGIO_CTL[k]: [31] IN RO; [21:16] GROUP RW; [9:8] MODE RW; [0] LEVEL RW. -/
def R.TRIGIO_CTL (k : Nat) : Nat := 0x40 + 0x4 * k
def F.TRIGIO_CTL_IN (k : Nat) : Fld := ⟨R.TRIGIO_CTL k, 31, 31⟩
def F.TRIGIO_CTL_GROUP (k : Nat) : Fld := ⟨R.TRIGIO_CTL k, 21, 16⟩
def F.TRIGIO_CTL_MODE (k : Nat) : Fld := ⟨R.TRIGIO_CTL k, 9, 8⟩
def F.TRIGIO_CTL_LEVEL (k : Nat) : Fld := ⟨R.TRIGIO_CTL k, 0, 0⟩
/-- ST: [15:0] SUBNS RO. -/
def R.ST : Nat := 0x20010
def F.ST_SUBNS : Fld := ⟨R.ST, 15, 0⟩
/-- ST_NS: [31:0] V SH. -/
def R.ST_NS : Nat := 0x20014
/-- ST_SECL: [31:0] V SH. -/
def R.ST_SECL : Nat := 0x20018
/-- ST_SECH: [15:0] V SH. -/
def R.ST_SECH : Nat := 0x2001C
def F.ST_SECH_V : Fld := ⟨R.ST_SECH, 15, 0⟩
/-- ST_SET: [15:0] SUBNS RW. -/
def R.ST_SET : Nat := 0x20020
def F.ST_SET_SUBNS : Fld := ⟨R.ST_SET, 15, 0⟩
/-- ST_SET_NS: [31:0] V RW. -/
def R.ST_SET_NS : Nat := 0x20024
/-- ST_SET_SECL: [31:0] V RW. -/
def R.ST_SET_SECL : Nat := 0x20028
/-- ST_SET_SECH: [15:0] V RW. -/
def R.ST_SET_SECH : Nat := 0x2002C
def F.ST_SET_SECH_V : Fld := ⟨R.ST_SET_SECH, 15, 0⟩
/-- PPS_IN_STAMP: [15:0] SUBNS RO. -/
def R.PPS_IN_STAMP : Nat := 0x20050
def F.PPS_IN_STAMP_SUBNS : Fld := ⟨R.PPS_IN_STAMP, 15, 0⟩
/-- PPS_IN_STAMP_NS: [31:0] V SH. -/
def R.PPS_IN_STAMP_NS : Nat := 0x20054
/-- PPS_IN_STAMP_SECL: [31:0] V SH. -/
def R.PPS_IN_STAMP_SECL : Nat := 0x20058
/-- PPS_IN_STAMP_SECH: [15:0] V SH. -/
def R.PPS_IN_STAMP_SECH : Nat := 0x2005C
def F.PPS_IN_STAMP_SECH_V : Fld := ⟨R.PPS_IN_STAMP_SECH, 15, 0⟩
/-- TOD_SEC: [31:0] V RO. -/
def R.TOD_SEC : Nat := 0x20068
/-- TOD_SEC_H: [15:0] V SH. -/
def R.TOD_SEC_H : Nat := 0x2006C
def F.TOD_SEC_H_V : Fld := ⟨R.TOD_SEC_H, 15, 0⟩
/-- GRID_SYNC_NS: [31:0] V RW. -/
def R.GRID_SYNC_NS : Nat := 0x20070
/-- GRID_SYNC_SEC: [31:0] V RW. -/
def R.GRID_SYNC_SEC : Nat := 0x20074
/-- GRID_SYNC_SEC_H: [15:0] V RW. -/
def R.GRID_SYNC_SEC_H : Nat := 0x20078
def F.GRID_SYNC_SEC_H_V : Fld := ⟨R.GRID_SYNC_SEC_H, 15, 0⟩
/-- RTC_SEC: [31:0] V SH. -/
def R.RTC_SEC : Nat := 0x20084
/-- RTC_SEC_H: [7:0] V SH. -/
def R.RTC_SEC_H : Nat := 0x20088
def F.RTC_SEC_H_V : Fld := ⟨R.RTC_SEC_H, 7, 0⟩
/-- RTC_SET_SUB: [14:0] V RW. -/
def R.RTC_SET_SUB : Nat := 0x20094
def F.RTC_SET_SUB_V : Fld := ⟨R.RTC_SET_SUB, 14, 0⟩
/-- RTC_SET_SEC: [31:0] V RW. -/
def R.RTC_SET_SEC : Nat := 0x20098
/-- RTC_SET_SEC_H: [7:0] V RW. -/
def R.RTC_SET_SEC_H : Nat := 0x2009C
def F.RTC_SET_SEC_H_V : Fld := ⟨R.RTC_SET_SEC_H, 7, 0⟩
/-- RTC_UTC_OFS: [31:0] V RW. -/
def R.RTC_UTC_OFS : Nat := 0x200A8
/-- GRID_PER_NS[g]: [31:0] V RW. -/
def R.GRID_PER_NS (g : Nat) : Nat := 0x20108 + 0x40 * g
/-- GRID_PER_FRAC[g]: [31:0] V RW. -/
def R.GRID_PER_FRAC (g : Nat) : Nat := 0x2010C + 0x40 * g
/-- GRID_EPOCH[g]: [15:0] SUBNS RO. -/
def R.GRID_EPOCH (g : Nat) : Nat := 0x20110 + 0x40 * g
def F.GRID_EPOCH_SUBNS (g : Nat) : Fld := ⟨R.GRID_EPOCH g, 15, 0⟩
/-- GRID_EPOCH_NS[g]: [31:0] V SH. -/
def R.GRID_EPOCH_NS (g : Nat) : Nat := 0x20114 + 0x40 * g
/-- GRID_EPOCH_SECL[g]: [31:0] V SH. -/
def R.GRID_EPOCH_SECL (g : Nat) : Nat := 0x20118 + 0x40 * g
/-- GRID_EPOCH_SECH[g]: [15:0] V SH. -/
def R.GRID_EPOCH_SECH (g : Nat) : Nat := 0x2011C + 0x40 * g
def F.GRID_EPOCH_SECH_V (g : Nat) : Fld := ⟨R.GRID_EPOCH_SECH g, 15, 0⟩
/-- GRID_COURSE[g]: [31:0] V RO. -/
def R.GRID_COURSE (g : Nat) : Nat := 0x20120 + 0x40 * g
/-- GRID_COURSE_H[g]: [15:0] V SH. -/
def R.GRID_COURSE_H (g : Nat) : Nat := 0x20124 + 0x40 * g
def F.GRID_COURSE_H_V (g : Nat) : Fld := ⟨R.GRID_COURSE_H g, 15, 0⟩
/-- GRID_MSTAMP[g]: [15:0] SUBNS RO. -/
def R.GRID_MSTAMP (g : Nat) : Nat := 0x20128 + 0x40 * g
def F.GRID_MSTAMP_SUBNS (g : Nat) : Fld := ⟨R.GRID_MSTAMP g, 15, 0⟩
/-- GRID_MSTAMP_NS[g]: [31:0] V SH. -/
def R.GRID_MSTAMP_NS (g : Nat) : Nat := 0x2012C + 0x40 * g
/-- GRID_MSTAMP_SECL[g]: [31:0] V SH. -/
def R.GRID_MSTAMP_SECL (g : Nat) : Nat := 0x20130 + 0x40 * g
/-- GRID_MSTAMP_SECH[g]: [15:0] V SH. -/
def R.GRID_MSTAMP_SECH (g : Nat) : Nat := 0x20134 + 0x40 * g
def F.GRID_MSTAMP_SECH_V (g : Nat) : Fld := ⟨R.GRID_MSTAMP_SECH g, 15, 0⟩
/-- GRID_MSTAMP_C[g]: [31:0] V SH. -/
def R.GRID_MSTAMP_C (g : Nat) : Nat := 0x20138 + 0x40 * g
/-- GRID_MSTAMP_C_H[g]: [15:0] V SH. -/
def R.GRID_MSTAMP_C_H (g : Nat) : Nat := 0x2013C + 0x40 * g
def F.GRID_MSTAMP_C_H_V (g : Nat) : Fld := ⟨R.GRID_MSTAMP_C_H g, 15, 0⟩
/-- FP_SETTLE[t][p]: [31:0] V RO. -/
def R.FP_SETTLE (t : Nat) (p : Nat) : Nat := 0x20111C + 0x10000 * t + 0x40 * p
/-- FP_TAIL[t][p]: [31:0] V RO. -/
def R.FP_TAIL (t : Nat) (p : Nat) : Nat := 0x201120 + 0x10000 * t + 0x40 * p
/-- FP_LOAD[t][p]: [31:0] V RO. -/
def R.FP_LOAD (t : Nat) (p : Nat) : Nat := 0x201124 + 0x10000 * t + 0x40 * p
/-- FP_SAT_CNT[t][p]: [31:0] V RC. -/
def R.FP_SAT_CNT (t : Nat) (p : Nat) : Nat := 0x201128 + 0x10000 * t + 0x40 * p
/-- FP_GD_TOT[t][p]: [31:0] V RO. -/
def R.FP_GD_TOT (t : Nat) (p : Nat) : Nat := 0x20112C + 0x10000 * t + 0x40 * p
/-- FP_GD_TOT_H[t][p]: [15:0] V SH. -/
def R.FP_GD_TOT_H (t : Nat) (p : Nat) : Nat := 0x201130 + 0x10000 * t + 0x40 * p
def F.FP_GD_TOT_H_V (t : Nat) (p : Nat) : Fld := ⟨R.FP_GD_TOT_H t p, 15, 0⟩
/-- FP_FADE_C[t][p]: [31:0] V RO. -/
def R.FP_FADE_C (t : Nat) (p : Nat) : Nat := 0x201134 + 0x10000 * t + 0x40 * p
/-- FP_FADE_C_H[t][p]: [15:0] V SH. -/
def R.FP_FADE_C_H (t : Nat) (p : Nat) : Nat := 0x201138 + 0x10000 * t + 0x40 * p
def F.FP_FADE_C_H_V (t : Nat) (p : Nat) : Fld := ⟨R.FP_FADE_C_H t p, 15, 0⟩
/-- TU_LEVEL[u]: [23:0] L RW. -/
def R.TU_LEVEL (u : Nat) : Nat := 0x40008 + 0x100 * u
def F.TU_LEVEL_L (u : Nat) : Fld := ⟨R.TU_LEVEL u, 23, 0⟩
/-- TU_HYST[u]: [23:0] H RW. -/
def R.TU_HYST (u : Nat) : Nat := 0x4000C + 0x100 * u
def F.TU_HYST_H (u : Nat) : Fld := ⟨R.TU_HYST u, 23, 0⟩
/-- TU_HOLDOFF[u]: [15:0] V RW. -/
def R.TU_HOLDOFF (u : Nat) : Nat := 0x40010 + 0x100 * u
def F.TU_HOLDOFF_V (u : Nat) : Fld := ⟨R.TU_HOLDOFF u, 15, 0⟩
/-- TU_AUTO[u]: [31:0] COUNT RW. -/
def R.TU_AUTO (u : Nat) : Nat := 0x40014 + 0x100 * u
def F.TU_AUTO_COUNT (u : Nat) : Fld := ⟨R.TU_AUTO u, 31, 0⟩
/-- TU_FIRE_CNT[u]: [31:0] V RC. -/
def R.TU_FIRE_CNT (u : Nat) : Nat := 0x4001C + 0x100 * u
/-- TU_SUPP_CNT[u]: [31:0] V RC. -/
def R.TU_SUPP_CNT (u : Nat) : Nat := 0x40020 + 0x100 * u
/-- TU_FORCE_CNT[u]: [31:0] V RC. -/
def R.TU_FORCE_CNT (u : Nat) : Nat := 0x40024 + 0x100 * u
/-- TU_LAST[u]: [31:0] V RO. -/
def R.TU_LAST (u : Nat) : Nat := 0x40028 + 0x100 * u
/-- TU_LAST_H[u]: [15:0] V SH. -/
def R.TU_LAST_H (u : Nat) : Nat := 0x4002C + 0x100 * u
def F.TU_LAST_H_V (u : Nat) : Fld := ⟨R.TU_LAST_H u, 15, 0⟩
/-- TG_POST[g]: [15:0] V RW. -/
def R.TG_POST (g : Nat) : Nat := 0x40044 + 0x100 * g
def F.TG_POST_V (g : Nat) : Fld := ⟨R.TG_POST g, 15, 0⟩
/-- TG_MARK_CNT[g]: [31:0] V RC. -/
def R.TG_MARK_CNT (g : Nat) : Nat := 0x4004C + 0x100 * g
/-- TG_WIN_END[g]: [31:0] V RO. -/
def R.TG_WIN_END (g : Nat) : Nat := 0x40050 + 0x100 * g
/-- TG_WIN_END_H[g]: [15:0] V SH. -/
def R.TG_WIN_END_H (g : Nat) : Nat := 0x40054 + 0x100 * g
def F.TG_WIN_END_H_V (g : Nat) : Fld := ⟨R.TG_WIN_END_H g, 15, 0⟩
/-- RP_DB[r]: [23:0] V RW. -/
def R.RP_DB (r : Nat) : Nat := 0x44004 + 0x10 * r
def F.RP_DB_V (r : Nat) : Fld := ⟨R.RP_DB r, 23, 0⟩
/-- RP_DEC[r]: [15:0] V RW. -/
def R.RP_DEC (r : Nat) : Nat := 0x44008 + 0x10 * r
def F.RP_DEC_V (r : Nat) : Fld := ⟨R.RP_DEC r, 15, 0⟩
/-- RP_HB[r]: [15:0] V RW. -/
def R.RP_HB (r : Nat) : Nat := 0x4400C + 0x10 * r
def F.RP_HB_V (r : Nat) : Fld := ⟨R.RP_HB r, 15, 0⟩
/-- TRIG_FIX: [31:0] V RC. -/
def R.TRIG_FIX : Nat := 0x44404
/-- WS_USED: [20:0] V RO. -/
def R.WS_USED : Nat := 0x44408
def F.WS_USED_V : Fld := ⟨R.WS_USED, 20, 0⟩
/-- SE_BYTES[s]: [31:0] V RO. -/
def R.SE_BYTES (s : Nat) : Nat := 0x100010 + 0x20 * s
/-- SE_BYTES_H[s]: [15:0] V SH. -/
def R.SE_BYTES_H (s : Nat) : Nat := 0x100014 + 0x20 * s
def F.SE_BYTES_H_V (s : Nat) : Fld := ⟨R.SE_BYTES_H s, 15, 0⟩
/-- SE_LOST[s]: [31:0] V RO. -/
def R.SE_LOST (s : Nat) : Nat := 0x100018 + 0x20 * s
/-- SE_LOST_H[s]: [15:0] V SH. -/
def R.SE_LOST_H (s : Nat) : Nat := 0x10001C + 0x20 * s
def F.SE_LOST_H_V (s : Nat) : Fld := ⟨R.SE_LOST_H s, 15, 0⟩
/-- MC_ENTRY[m]: [15:0] V RW. -/
def R.MC_ENTRY (m : Nat) : Nat := 0x430008 + 0x40000 * m
def F.MC_ENTRY_V (m : Nat) : Fld := ⟨R.MC_ENTRY m, 15, 0⟩
/-- MC_TVEC[m]: [15:0] V RW. -/
def R.MC_TVEC (m : Nat) : Nat := 0x43000C + 0x40000 * m
def F.MC_TVEC_V (m : Nat) : Fld := ⟨R.MC_TVEC m, 15, 0⟩
/-- MC_EPC[m]: [15:0] V RO. -/
def R.MC_EPC (m : Nat) : Nat := 0x430010 + 0x40000 * m
def F.MC_EPC_V (m : Nat) : Fld := ⟨R.MC_EPC m, 15, 0⟩
/-- MC_CAUSE[m]: [2:0] V RO. -/
def R.MC_CAUSE (m : Nat) : Nat := 0x430014 + 0x40000 * m
def F.MC_CAUSE_V (m : Nat) : Fld := ⟨R.MC_CAUSE m, 2, 0⟩
/-- MC_TVAL[m]: [31:0] V RO. -/
def R.MC_TVAL (m : Nat) : Nat := 0x430018 + 0x40000 * m
/-- MC_DOORBELL[m]: [31:0] V W1S. -/
def R.MC_DOORBELL (m : Nat) : Nat := 0x43001C + 0x40000 * m
/-- MC_INBOX[m]: [6:0] V RO. -/
def R.MC_INBOX (m : Nat) : Nat := 0x430020 + 0x40000 * m
def F.MC_INBOX_V (m : Nat) : Fld := ⟨R.MC_INBOX m, 6, 0⟩
/-- MC_LOST[m]: [31:0] V RC. -/
def R.MC_LOST (m : Nat) : Nat := 0x430024 + 0x40000 * m
/-- MC_FIX[m]: [31:0] V RC. -/
def R.MC_FIX (m : Nat) : Nat := 0x43002C + 0x40000 * m
/-- MC_PC[m]: [15:0] V RO. -/
def R.MC_PC (m : Nat) : Nat := 0x430030 + 0x40000 * m
def F.MC_PC_V (m : Nat) : Fld := ⟨R.MC_PC m, 15, 0⟩
/-- MC_CYCLES[m]: [31:0] V RO. -/
def R.MC_CYCLES (m : Nat) : Nat := 0x430038 + 0x40000 * m
/-- MC_CYCLES_H[m]: [15:0] V SH. -/
def R.MC_CYCLES_H (m : Nat) : Nat := 0x43003C + 0x40000 * m
def F.MC_CYCLES_H_V (m : Nat) : Fld := ⟨R.MC_CYCLES_H m, 15, 0⟩
/-- MC_INSTR[m]: [31:0] V RO. -/
def R.MC_INSTR (m : Nat) : Nat := 0x430040 + 0x40000 * m
/-- MC_INSTR_H[m]: [15:0] V SH. -/
def R.MC_INSTR_H (m : Nat) : Nat := 0x430044 + 0x40000 * m
def F.MC_INSTR_H_V (m : Nat) : Fld := ⟨R.MC_INSTR_H m, 15, 0⟩
/-- PQ_NE_L: [31:0] V RO. -/
def R.PQ_NE_L : Nat := 0xC1000
/-- PQ_NE_H: [31:0] V SH. -/
def R.PQ_NE_H : Nat := 0xC1004
/-- PQ_FIX: [31:0] V RC. -/
def R.PQ_FIX : Nat := 0xC1008
/-- SE_FIX: [31:0] V RC. -/
def R.SE_FIX : Nat := 0xC1010
/-- YARD_FIX: [31:0] V RC. -/
def R.YARD_FIX : Nat := 0x6000C
/-- YARD_FLUSH: [19:0] V RW. -/
def R.YARD_FLUSH : Nat := 0x60010
def F.YARD_FLUSH_V : Fld := ⟨R.YARD_FLUSH, 19, 0⟩
/-- RSV_USED: [19:0] V RO. -/
def R.RSV_USED : Nat := 0x60014
def F.RSV_USED_V : Fld := ⟨R.RSV_USED, 19, 0⟩
/-- RSV_DROP: [31:0] V RC. -/
def R.RSV_DROP : Nat := 0x60018
/-- YARD_SUBST: [31:0] V RC. -/
def R.YARD_SUBST : Nat := 0x6001C
/-- DRAIN_DROP: [31:0] V RC. -/
def R.DRAIN_DROP : Nat := 0x60020
/-- RING_USED[p]: [29:0] V RO. -/
def R.RING_USED (p : Nat) : Nat := 0x60108 + 0x40 * p
def F.RING_USED_V (p : Nat) : Fld := ⟨R.RING_USED p, 29, 0⟩
/-- RING_WSEQ[p]: [31:0] V RO. -/
def R.RING_WSEQ (p : Nat) : Nat := 0x6010C + 0x40 * p
/-- RING_TSEQ[p]: [31:0] V RO. -/
def R.RING_TSEQ (p : Nat) : Nat := 0x60110 + 0x40 * p
/-- RING_HSEQ[p]: [31:0] V RO. -/
def R.RING_HSEQ (p : Nat) : Nat := 0x60114 + 0x40 * p
/-- RING_REFUSED[p]: [31:0] V RC. -/
def R.RING_REFUSED (p : Nat) : Nat := 0x60118 + 0x40 * p
/-- RING_BYTES[p]: [31:0] V RO. -/
def R.RING_BYTES (p : Nat) : Nat := 0x60120 + 0x40 * p
/-- RING_BYTES_H[p]: [15:0] V SH. -/
def R.RING_BYTES_H (p : Nat) : Nat := 0x60124 + 0x40 * p
def F.RING_BYTES_H_V (p : Nat) : Fld := ⟨R.RING_BYTES_H p, 15, 0⟩
/-- RING_RESENT[p]: [31:0] V RC. -/
def R.RING_RESENT (p : Nat) : Nat := 0x60128 + 0x40 * p
/-- PRESS_FIX: [31:0] V RC. -/
def R.PRESS_FIX : Nat := 0x50004
/-- PC_LOAD[e]: [31:0] V RO. -/
def R.PC_LOAD (e : Nat) : Nat := 0x50108 + 0x40 * e
/-- PC_MRES[e]: [31:0] V RW. -/
def R.PC_MRES (e : Nat) : Nat := 0x5010C + 0x40 * e
/-- PC_IN[e]: [31:0] V RO. -/
def R.PC_IN (e : Nat) : Nat := 0x50110 + 0x40 * e
/-- PC_IN_H[e]: [15:0] V SH. -/
def R.PC_IN_H (e : Nat) : Nat := 0x50114 + 0x40 * e
def F.PC_IN_H_V (e : Nat) : Fld := ⟨R.PC_IN_H e, 15, 0⟩
/-- PC_OUT[e]: [31:0] V RO. -/
def R.PC_OUT (e : Nat) : Nat := 0x50118 + 0x40 * e
/-- PC_OUT_H[e]: [15:0] V SH. -/
def R.PC_OUT_H (e : Nat) : Nat := 0x5011C + 0x40 * e
def F.PC_OUT_H_V (e : Nat) : Fld := ⟨R.PC_OUT_H e, 15, 0⟩
/-- PC_RAW[e]: [31:0] V RC. -/
def R.PC_RAW (e : Nat) : Nat := 0x50120 + 0x40 * e
/-- PC_CUT[e]: [31:0] V RC. -/
def R.PC_CUT (e : Nat) : Nat := 0x50124 + 0x40 * e
/-- PX_OUT_CNT: [14:0] V RO. -/
def R.PX_OUT_CNT : Nat := 0x5020C
def F.PX_OUT_CNT_V : Fld := ⟨R.PX_OUT_CNT, 14, 0⟩
/-- PX_INBUF[k]: [31:0] V RW. -/
def R.PX_INBUF (k : Nat) : Nat := 0x58000 + 0x4 * k
/-- PX_OUTBUF[k]: [31:0] V RO. -/
def R.PX_OUTBUF (k : Nat) : Nat := 0x5C000 + 0x4 * k
/-- LANE_ERR[n]: [31:16] DISP RC; [15:0] CODE RC. -/
def R.LANE_ERR (n : Nat) : Nat := 0x8000C + 0x400 * n
def F.LANE_ERR_DISP (n : Nat) : Fld := ⟨R.LANE_ERR n, 31, 16⟩
def F.LANE_ERR_CODE (n : Nat) : Fld := ⟨R.LANE_ERR n, 15, 0⟩
/-- LANE_TRAIN[n]: [31:16] FAIL RC; [15:0] UP RC. -/
def R.LANE_TRAIN (n : Nat) : Nat := 0x80010 + 0x400 * n
def F.LANE_TRAIN_FAIL (n : Nat) : Fld := ⟨R.LANE_TRAIN n, 31, 16⟩
def F.LANE_TRAIN_UP (n : Nat) : Fld := ⟨R.LANE_TRAIN n, 15, 0⟩
/-- LANE_EB[n]: [31:24] SLIP RC; [21:16] FILL RO; [15:0] ADJ RC. -/
def R.LANE_EB (n : Nat) : Nat := 0x80014 + 0x400 * n
def F.LANE_EB_SLIP (n : Nat) : Fld := ⟨R.LANE_EB n, 31, 24⟩
def F.LANE_EB_FILL (n : Nat) : Fld := ⟨R.LANE_EB n, 21, 16⟩
def F.LANE_EB_ADJ (n : Nat) : Fld := ⟨R.LANE_EB n, 15, 0⟩
/-- LANE_TS_TX[n]: [31:0] V RW. -/
def R.LANE_TS_TX (n : Nat) : Nat := 0x80020 + 0x400 * n
/-- LANE_TS_RX[n]: [31:0] V RW. -/
def R.LANE_TS_RX (n : Nat) : Nat := 0x80024 + 0x400 * n
/-- PRBS_ERR[n]: [31:0] V RO. -/
def R.PRBS_ERR (n : Nat) : Nat := 0x80108 + 0x400 * n
/-- PRBS_BITS[n]: [31:0] V RO. -/
def R.PRBS_BITS (n : Nat) : Nat := 0x8010C + 0x400 * n
/-- PRBS_BITS_H[n]: [15:0] V SH. -/
def R.PRBS_BITS_H (n : Nat) : Nat := 0x80110 + 0x400 * n
def F.PRBS_BITS_H_V (n : Nat) : Fld := ⟨R.PRBS_BITS_H n, 15, 0⟩
/-- LINK_EVT: [8:0] EVT W1C. -/
def R.LINK_EVT : Nat := 0x90008
def F.LINK_EVT_EVT : Fld := ⟨R.LINK_EVT, 8, 0⟩
/-- EVT_DROP: [31:0] V RC. -/
def R.EVT_DROP : Nat := 0x90010
/-- TAG_OUT: [7:0] V RO. -/
def R.TAG_OUT : Nat := 0x90014
def F.TAG_OUT_V : Fld := ⟨R.TAG_OUT, 7, 0⟩
/-- UNROUTE_CNT: [31:0] V RC. -/
def R.UNROUTE_CNT : Nat := 0x90018
/-- PL_ERR[p]: [31:16] CRC RC; [15:0] MALF RC. -/
def R.PL_ERR (p : Nat) : Nat := 0x90108 + 0x40 * p
def F.PL_ERR_CRC (p : Nat) : Fld := ⟨R.PL_ERR p, 31, 16⟩
def F.PL_ERR_MALF (p : Nat) : Fld := ⟨R.PL_ERR p, 15, 0⟩
/-- PL_MISC[p]: [31:16] ABORT RC; [15:0] MISDIR RC. -/
def R.PL_MISC (p : Nat) : Nat := 0x9010C + 0x40 * p
def F.PL_MISC_ABORT (p : Nat) : Fld := ⟨R.PL_MISC p, 31, 16⟩
def F.PL_MISC_MISDIR (p : Nat) : Fld := ⟨R.PL_MISC p, 15, 0⟩
/-- PL_REPLAY[p]: [31:0] V RC. -/
def R.PL_REPLAY (p : Nat) : Nat := 0x90110 + 0x40 * p
/-- PL_DROP[p]: [31:16] CPL RC; [15:0] RELAY RC. -/
def R.PL_DROP (p : Nat) : Nat := 0x90114 + 0x40 * p
def F.PL_DROP_CPL (p : Nat) : Fld := ⟨R.PL_DROP p, 31, 16⟩
def F.PL_DROP_RELAY (p : Nat) : Fld := ⟨R.PL_DROP p, 15, 0⟩
/-- PL_CRED[p]: [31:24] VC3 RO; [23:16] VC2 RO; [15:8] VC1 RO; [7:0] VC0 RO. -/
def R.PL_CRED (p : Nat) : Nat := 0x90118 + 0x40 * p
def F.PL_CRED_VC3 (p : Nat) : Fld := ⟨R.PL_CRED p, 31, 24⟩
def F.PL_CRED_VC2 (p : Nat) : Fld := ⟨R.PL_CRED p, 23, 16⟩
def F.PL_CRED_VC1 (p : Nat) : Fld := ⟨R.PL_CRED p, 15, 8⟩
def F.PL_CRED_VC0 (p : Nat) : Fld := ⟨R.PL_CRED p, 7, 0⟩
/-- TT_EVT: [8:0] EVT W1C. -/
def R.TT_EVT : Nat := 0x20208
def F.TT_EVT_EVT : Fld := ⟨R.TT_EVT, 8, 0⟩
/-- STEP_LIMIT: [29:0] V RW. -/
def R.STEP_LIMIT : Nat := 0x20210
def F.STEP_LIMIT_V : Fld := ⟨R.STEP_LIMIT, 29, 0⟩
/-- ROUTE_TOL: [13:0] V RW. -/
def R.ROUTE_TOL : Nat := 0x20214
def F.ROUTE_TOL_V : Fld := ⟨R.ROUTE_TOL, 13, 0⟩
/-- LOCK_THR: [17:0] V RW. -/
def R.LOCK_THR : Nat := 0x20218
def F.LOCK_THR_V : Fld := ⟨R.LOCK_THR, 17, 0⟩
/-- TT_ASYM: [31:0] V RW. -/
def R.TT_ASYM : Nat := 0x2021C
/-- TT_ASYM2: [31:0] V RW. -/
def R.TT_ASYM2 : Nat := 0x20220
/-- TT_OFS: [31:0] V RO. -/
def R.TT_OFS : Nat := 0x20224
/-- TT_OFS2: [31:0] V RO. -/
def R.TT_OFS2 : Nat := 0x20228
/-- TT_RTT: [31:0] V RO. -/
def R.TT_RTT : Nat := 0x2022C
/-- TT_RTT_REF: [31:0] V RO. -/
def R.TT_RTT_REF : Nat := 0x20230
/-- TT_SLEW: [31:0] V RO. -/
def R.TT_SLEW : Nat := 0x20234
/-- TT_CNT: [31:16] STEPS RO; [15:0] BAD RC. -/
def R.TT_CNT : Nat := 0x2023C
def F.TT_CNT_STEPS : Fld := ⟨R.TT_CNT, 31, 16⟩
def F.TT_CNT_BAD : Fld := ⟨R.TT_CNT, 15, 0⟩
/-- TT_JUMP: [15:0] SUBNS RO. -/
def R.TT_JUMP : Nat := 0x20240
def F.TT_JUMP_SUBNS : Fld := ⟨R.TT_JUMP, 15, 0⟩
/-- TT_JUMP_NS: [31:0] V SH. -/
def R.TT_JUMP_NS : Nat := 0x20244
/-- TT_JUMP_SECL: [31:0] V SH. -/
def R.TT_JUMP_SECL : Nat := 0x20248
/-- TT_JUMP_SECH: [31] SIGN SH; [15:0] V SH. -/
def R.TT_JUMP_SECH : Nat := 0x2024C
def F.TT_JUMP_SECH_SIGN : Fld := ⟨R.TT_JUMP_SECH, 31, 31⟩
def F.TT_JUMP_SECH_V : Fld := ⟨R.TT_JUMP_SECH, 15, 0⟩
/-- TT_DELTA: [15:0] SUBNS RW. -/
def R.TT_DELTA : Nat := 0x20250
def F.TT_DELTA_SUBNS : Fld := ⟨R.TT_DELTA, 15, 0⟩
/-- TT_DELTA_NS: [31:0] V RW. -/
def R.TT_DELTA_NS : Nat := 0x20254
/-- TT_DELTA_SECL: [31:0] V RW. -/
def R.TT_DELTA_SECL : Nat := 0x20258
/-- TT_DELTA_SECH: [31] SIGN RW; [15:0] V RW. -/
def R.TT_DELTA_SECH : Nat := 0x2025C
def F.TT_DELTA_SECH_SIGN : Fld := ⟨R.TT_DELTA_SECH, 31, 31⟩
def F.TT_DELTA_SECH_V : Fld := ⟨R.TT_DELTA_SECH, 15, 0⟩
/-- TT_STEP_AT: [15:0] SUBNS RO. -/
def R.TT_STEP_AT : Nat := 0x20260
def F.TT_STEP_AT_SUBNS : Fld := ⟨R.TT_STEP_AT, 15, 0⟩
/-- TT_STEP_AT_NS: [31:0] V SH. -/
def R.TT_STEP_AT_NS : Nat := 0x20264
/-- TT_STEP_AT_SECL: [31:0] V SH. -/
def R.TT_STEP_AT_SECL : Nat := 0x20268
/-- TT_STEP_AT_SECH: [15:0] V SH. -/
def R.TT_STEP_AT_SECH : Nat := 0x2026C
def F.TT_STEP_AT_SECH_V : Fld := ⟨R.TT_STEP_AT_SECH, 15, 0⟩
/-- TSQ_NS[p]: [31:0] V SH. -/
def R.TSQ_NS (p : Nat) : Nat := 0x20304 + 0x10 * p
/-- TSQ_SEC[p]: [31:0] V SH. -/
def R.TSQ_SEC (p : Nat) : Nat := 0x20308 + 0x10 * p
/-- CS_EVT: [8:0] EVT W1C. -/
def R.CS_EVT : Nat := 0xB0004
def F.CS_EVT_EVT : Fld := ⟨R.CS_EVT, 8, 0⟩
/-- CS_EVCNT: [31:0] V RO. -/
def R.CS_EVCNT : Nat := 0xB0008
/-- CS_CMD_STAT: [7:0] STATUS RO. -/
def R.CS_CMD_STAT : Nat := 0xB0010
def F.CS_CMD_STAT_STATUS : Fld := ⟨R.CS_CMD_STAT, 7, 0⟩
/-- CS_FIX: [31:0] V RC. -/
def R.CS_FIX : Nat := 0xB0014
/-- CS_UID: [31:0] V RO. -/
def R.CS_UID : Nat := 0xB0018
/-- CS_UID_H: [31:0] V RO. -/
def R.CS_UID_H : Nat := 0xB001C
/-- CS_IDENT[k]: [31:0] V RO. -/
def R.CS_IDENT (k : Nat) : Nat := 0xB0020 + 0x4 * k
/-- CS_LEGAL: [15:0] V RO. -/
def R.CS_LEGAL : Nat := 0xB0040
def F.CS_LEGAL_V : Fld := ⟨R.CS_LEGAL, 15, 0⟩
/-- CS_FWDIG[k]: [31:0] V RW. -/
def R.CS_FWDIG (k : Nat) : Nat := 0xB0044 + 0x4 * k
/-- CSP_IVL: [11:0] V RO. -/
def R.CSP_IVL : Nat := 0xB00F0
def F.CSP_IVL_V : Fld := ⟨R.CSP_IVL, 11, 0⟩
/-- CSI_OFF[k]: [23:0] V RO. -/
def R.CSI_OFF (k : Nat) : Nat := 0xB0104 + 0x10 * k
def F.CSI_OFF_V (k : Nat) : Fld := ⟨R.CSI_OFF k, 23, 0⟩
/-- CSI_GAIN[k]: [23:0] V RO. -/
def R.CSI_GAIN (k : Nat) : Nat := 0xB0108 + 0x10 * k
def F.CSI_GAIN_V (k : Nat) : Fld := ⟨R.CSI_GAIN k, 23, 0⟩
/-- CSM_OUT[j]: [31] EN RW; [12:0] SID RW. -/
def R.CSM_OUT (j : Nat) : Nat := 0xB0304 + 0x10 * j
def F.CSM_OUT_EN (j : Nat) : Fld := ⟨R.CSM_OUT j, 31, 31⟩
def F.CSM_OUT_SID (j : Nat) : Fld := ⟨R.CSM_OUT j, 12, 0⟩
/-- CSM_MSEQ[j]: [31:0] V RO. -/
def R.CSM_MSEQ (j : Nat) : Nat := 0xB0308 + 0x10 * j
/-- CSM_DROP[j]: [31:0] V RC. -/
def R.CSM_DROP (j : Nat) : Nat := 0xB030C + 0x10 * j
/-- CS_STAGE[k]: [31:0] V RW. -/
def R.CS_STAGE (k : Nat) : Nat := 0xB0400 + 0x4 * k
/-- CSM_IMP[j]: [31:0] V RO. -/
def R.CSM_IMP (j : Nat) : Nat := 0xB0800 + 0x10 * j
/-- CSM_IMP_H[j]: [31:0] V SH. -/
def R.CSM_IMP_H (j : Nat) : Nat := 0xB0804 + 0x10 * j
/-- CSM_EXP[j]: [31:0] V RO. -/
def R.CSM_EXP (j : Nat) : Nat := 0xB0808 + 0x10 * j
/-- CSM_EXP_H[j]: [31:0] V SH. -/
def R.CSM_EXP_H (j : Nat) : Nat := 0xB080C + 0x10 * j
/-- CS_FWBUF[k]: [31:0] V RW. -/
def R.CS_FWBUF (k : Nat) : Nat := 0xB1000 + 0x4 * k
/-- MGP_EVT: [4:0] EVT W1C. -/
def R.MGP_EVT : Nat := 0x200
def F.MGP_EVT_EVT : Fld := ⟨R.MGP_EVT, 4, 0⟩
/-- MGP_CNT: [31:16] CRC RC; [15:8] FRAME RC; [7:0] OVERRUN RC. -/
def R.MGP_CNT : Nat := 0x204
def F.MGP_CNT_CRC : Fld := ⟨R.MGP_CNT, 31, 16⟩
def F.MGP_CNT_FRAME : Fld := ⟨R.MGP_CNT, 15, 8⟩
def F.MGP_CNT_OVERRUN : Fld := ⟨R.MGP_CNT, 7, 0⟩
/-- MGP_IRQ_EN: [14:1] EN RW. -/
def R.MGP_IRQ_EN : Nat := 0x208
def F.MGP_IRQ_EN_EN : Fld := ⟨R.MGP_IRQ_EN, 14, 1⟩
/-- MGP_PEND: [14:1] PEND W1C. -/
def R.MGP_PEND : Nat := 0x20C
def F.MGP_PEND_PEND : Fld := ⟨R.MGP_PEND, 14, 1⟩
/-- HK_EVT: [4:0] EVT W1C. -/
def R.HK_EVT : Nat := 0x30008
def F.HK_EVT_EVT : Fld := ⟨R.HK_EVT, 4, 0⟩
/-- HK_TRIG: [0] GO WO. -/
def R.HK_TRIG : Nat := 0x3000C
def F.HK_TRIG_GO : Fld := ⟨R.HK_TRIG, 0, 0⟩
/-- HK_TRIG_CNT: [31:0] V RC. -/
def R.HK_TRIG_CNT : Nat := 0x30010
/-- HK_GUARD: [7:0] TWARN RW. -/
def R.HK_GUARD : Nat := 0x30014
def F.HK_GUARD_TWARN : Fld := ⟨R.HK_GUARD, 7, 0⟩
/-- HK_VHOLD: [31:16] COUNT RO; [15:0] VALUE RO. -/
def R.HK_VHOLD : Nat := 0x30018
def F.HK_VHOLD_COUNT : Fld := ⟨R.HK_VHOLD, 31, 16⟩
def F.HK_VHOLD_VALUE : Fld := ⟨R.HK_VHOLD, 15, 0⟩
/-- HK_LIM_STAT: [31:0] V W1C. -/
def R.HK_LIM_STAT : Nat := 0x30020
/-- HK_GRD_FLAG: [27:12] SUPPLY RO; [11:0] TEMP RO. -/
def R.HK_GRD_FLAG : Nat := 0x30024
def F.HK_GRD_FLAG_SUPPLY : Fld := ⟨R.HK_GRD_FLAG, 27, 12⟩
def F.HK_GRD_FLAG_TEMP : Fld := ⟨R.HK_GRD_FLAG, 11, 0⟩
/-- HK_LIM[n]: [27:16] HI RW; [11:0] LO RW. -/
def R.HK_LIM (n : Nat) : Nat := 0x30180 + 0x4 * n
def F.HK_LIM_HI (n : Nat) : Fld := ⟨R.HK_LIM n, 27, 16⟩
def F.HK_LIM_LO (n : Nat) : Fld := ⟨R.HK_LIM n, 11, 0⟩
/-- HK_GRD[k]: [15:0] V RO. -/
def R.HK_GRD (k : Nat) : Nat := 0x30300 + 0x4 * k
def F.HK_GRD_V (k : Nat) : Fld := ⟨R.HK_GRD k, 15, 0⟩
/-- ALERT_CTL: [0] READY RW. -/
def R.ALERT_CTL : Nat := 0x8
def F.ALERT_CTL_READY : Fld := ⟨R.ALERT_CTL, 0, 0⟩
/-- RPC_EVT: [14:0] EVT W1C. -/
def R.RPC_EVT : Nat := 0x1000C
def F.RPC_EVT_EVT : Fld := ⟨R.RPC_EVT, 14, 0⟩
/-- WDT_KICK: [15:0] V WO. -/
def R.WDT_KICK : Nat := 0x10014
def F.WDT_KICK_V : Fld := ⟨R.WDT_KICK, 15, 0⟩
/-- WDT_STAT: [0] WARN RO. -/
def R.WDT_STAT : Nat := 0x10018
def F.WDT_STAT_WARN : Fld := ⟨R.WDT_STAT, 0, 0⟩
/-- FAB_TMO: [15:0] V RW. -/
def R.FAB_TMO : Nat := 0x1001C
def F.FAB_TMO_V : Fld := ⟨R.FAB_TMO, 15, 0⟩
/-- PWR_STAT: [8] CST RO; [5:0] PG RO. -/
def R.PWR_STAT : Nat := 0x10020
def F.PWR_STAT_CST : Fld := ⟨R.PWR_STAT, 8, 8⟩
def F.PWR_STAT_PG : Fld := ⟨R.PWR_STAT, 5, 0⟩
/-- OPT_CMD: [2:0] OP WO. -/
def R.OPT_CMD : Nat := 0x10034
def F.OPT_CMD_OP : Fld := ⟨R.OPT_CMD, 2, 0⟩
/-- OPT_STAGE[k]: [31:0] V RW. -/
def R.OPT_STAGE (k : Nat) : Nat := 0x10100 + 0x4 * k
/-- OPT_CUR[k]: [31:0] V RO. -/
def R.OPT_CUR (k : Nat) : Nat := 0x10180 + 0x4 * k
/-- NV_BUF[k]: [31:0] V RW. -/
def R.NV_BUF (k : Nat) : Nat := 0x10200 + 0x4 * k
/-- KILN_OD: [31:30] RESULT RO; [23:0] PATTERNS RO. -/
def R.KILN_OD : Nat := 0xA0008
def F.KILN_OD_RESULT : Fld := ⟨R.KILN_OD, 31, 30⟩
def F.KILN_OD_PATTERNS : Fld := ⟨R.KILN_OD, 23, 0⟩
/-- KILN_EVT: [8:0] EVT W1C. -/
def R.KILN_EVT : Nat := 0xA000C
def F.KILN_EVT_EVT : Fld := ⟨R.KILN_EVT, 8, 0⟩
/-- SCAN_STAT: [0] ZEROISED RO. -/
def R.SCAN_STAT : Nat := 0xA0010
def F.SCAN_STAT_ZEROISED : Fld := ⟨R.SCAN_STAT, 0, 0⟩
/-- KILN_MAP[t]: [17:0] MAP RO. -/
def R.KILN_MAP (t : Nat) : Nat := 0xA0300 + 0x4 * t
def F.KILN_MAP_MAP (t : Nat) : Fld := ⟨R.KILN_MAP t, 17, 0⟩
/-- KILN_EXP[s]: [23:0] V RO. -/
def R.KILN_EXP (s : Nat) : Nat := 0xA0400 + 0x4 * s
def F.KILN_EXP_V (s : Nat) : Fld := ⟨R.KILN_EXP s, 23, 0⟩
/-- LOG_HEAD: [31:0] V RO. -/
def R.LOG_HEAD : Nat := 0x70000
/-- LOG_COUNT: [10:0] V RO. -/
def R.LOG_COUNT : Nat := 0x70004
def F.LOG_COUNT_V : Fld := ⟨R.LOG_COUNT, 10, 0⟩
/-- LOG_OVWR: [31:0] V RO. -/
def R.LOG_OVWR : Nat := 0x70008
/-- LOG_CTL: [0] CLEAR WO. -/
def R.LOG_CTL : Nat := 0x7000C
def F.LOG_CTL_CLEAR : Fld := ⟨R.LOG_CTL, 0, 0⟩
/-- LOG_FIX: [31:0] V RC. -/
def R.LOG_FIX : Nat := 0x70010
/-- LOG_ENT[k]: [31:0] V RO. -/
def R.LOG_ENT (k : Nat) : Nat := 0x78000 + 0x20 * k
/-- LOG_ENT_W1[k]: [31:0] V SH. -/
def R.LOG_ENT_W1 (k : Nat) : Nat := 0x78004 + 0x20 * k
/-- LOG_ENT_W2[k]: [31:0] V SH. -/
def R.LOG_ENT_W2 (k : Nat) : Nat := 0x78008 + 0x20 * k
/-- LOG_ENT_W3[k]: [31:0] V SH. -/
def R.LOG_ENT_W3 (k : Nat) : Nat := 0x7800C + 0x20 * k
/-- LOG_ENT_W4[k]: [31:0] V SH. -/
def R.LOG_ENT_W4 (k : Nat) : Nat := 0x78010 + 0x20 * k
/-- LOG_ENT_W5[k]: [31:0] V SH. -/
def R.LOG_ENT_W5 (k : Nat) : Nat := 0x78014 + 0x20 * k
/-- LOG_ENT_W6[k]: [31:0] V SH. -/
def R.LOG_ENT_W6 (k : Nat) : Nat := 0x78018 + 0x20 * k
/-- LOG_ENT_W7[k]: [31:0] V SH. -/
def R.LOG_ENT_W7 (k : Nat) : Nat := 0x7801C + 0x20 * k

end Sys2Proof.Machine
end

