-- ==== Sys2Proof/Machine/RegMap.lean ====
section
/-!
DEFINITION. The register map as data: one `Row` for every register (or array of registers) of the region maps, with its field types (R5)
and its reset value. The reset values that the option record or the MRAM gives are those of a blank part (notes/assumptions/2.md).
-/

namespace Sys2Proof.Machine

/-- One register, or one array of registers, of the map: `base`, two dimensions `(stride, count)` (count 1 and stride 0 where it has fewer;
a third only for the coefficients), the bits of each type code of R5, the reset value with its step along each dimension, and the number of
words that a read of it snapshots (R106, R107; 0 for a register that fills no shadow). -/
structure Row where
  base : Nat
  s1 : Nat
  n1 : Nat
  s2 : Nat
  n2 : Nat
  rw : Nat
  w1c : Nat
  w1s : Nat
  ro : Nat
  rc : Nat
  sh : Nat
  rst : Nat
  r1 : Nat
  r2 : Nat
  mw : Nat
  deriving DecidableEq, Repr

/-- The registers of the region at 0x0. -/
def rowsGlobal : List Row := [
  ⟨0x20, 0x0, 1, 0x0, 1, 0x3, 0x0, 0x0, 0x0, 0x0, 0x0, 0x0, 0x0, 0x0, 0⟩,
  ⟨0x0, 0x0, 1, 0x0, 1, 0x0, 0x0, 0x0, 0xFFFFFF00, 0x0, 0x0, 0x384A100, 0x0, 0x0, 0⟩,
  ⟨0x4, 0x0, 1, 0x0, 1, 0x7, 0x0, 0x0, 0x0, 0x0, 0x0, 0x1, 0x0, 0x0, 0⟩,
  ⟨0x40, 0x4, 4, 0x0, 1, 0x3F0301, 0x0, 0x0, 0x80000000, 0x0, 0x0, 0x0, 0x0, 0x0, 0⟩,
  ⟨0x200, 0x0, 1, 0x0, 1, 0x0, 0x1F, 0x0, 0x0, 0x0, 0x0, 0x0, 0x0, 0x0, 0⟩,
  ⟨0x204, 0x0, 1, 0x0, 1, 0x0, 0x0, 0x0, 0x0, 0xFFFFFFFF, 0x0, 0x0, 0x0, 0x0, 0⟩,
  ⟨0x208, 0x0, 1, 0x0, 1, 0x7FFE, 0x0, 0x0, 0x0, 0x0, 0x0, 0x0, 0x0, 0x0, 0⟩,
  ⟨0x20C, 0x0, 1, 0x0, 1, 0x0, 0x7FFE, 0x0, 0x0, 0x0, 0x0, 0x0, 0x0, 0x0, 0⟩,
  ⟨0x8, 0x0, 1, 0x0, 1, 0x1, 0x0, 0x0, 0x0, 0x0, 0x0, 0x0, 0x0, 0x0, 0⟩]

/-- The registers of the region at 0x10000. -/
def rowsRpc : List Row := [
  ⟨0x10000, 0x0, 1, 0x0, 1, 0x0, 0x0, 0x0, 0xFFFF0FFF, 0x0, 0x0, 0x1, 0x0, 0x0, 0⟩,
  ⟨0x10004, 0x0, 1, 0x0, 1, 0x100, 0x0, 0x0, 0x0, 0x0, 0x0, 0x0, 0x0, 0x0, 0⟩,
  ⟨0x10008, 0x0, 1, 0x0, 1, 0x0, 0x0, 0x0, 0x0, 0x0, 0x0, 0x0, 0x0, 0x0, 0⟩,
  ⟨0x10010, 0x0, 1, 0x0, 1, 0x8000FFFF, 0x0, 0x0, 0x0, 0x0, 0x0, 0x0, 0x0, 0x0, 0⟩,
  ⟨0x10024, 0x0, 1, 0x0, 1, 0x0, 0x0, 0x0, 0xFFFF0F03, 0x0, 0x0, 0x0, 0x0, 0x0, 0⟩,
  ⟨0x10030, 0x0, 1, 0x0, 1, 0x0, 0x0, 0x0, 0x31F, 0x0, 0x0, 0x0, 0x0, 0x0, 0⟩,
  ⟨0x10038, 0x0, 1, 0x0, 1, 0x0, 0x0, 0x0, 0x0, 0x0, 0x0, 0x0, 0x0, 0x0, 0⟩,
  ⟨0x1003C, 0x0, 1, 0x0, 1, 0x0, 0x0, 0x0, 0xFF01, 0x0, 0x0, 0x0, 0x0, 0x0, 0⟩,
  ⟨0x1000C, 0x0, 1, 0x0, 1, 0x0, 0x7FFF, 0x0, 0x0, 0x0, 0x0, 0x0, 0x0, 0x0, 0⟩,
  ⟨0x10014, 0x0, 1, 0x0, 1, 0x0, 0x0, 0x0, 0x0, 0x0, 0x0, 0x0, 0x0, 0x0, 0⟩,
  ⟨0x10018, 0x0, 1, 0x0, 1, 0x0, 0x0, 0x0, 0x1, 0x0, 0x0, 0x0, 0x0, 0x0, 0⟩,
  ⟨0x1001C, 0x0, 1, 0x0, 1, 0xFFFF, 0x0, 0x0, 0x0, 0x0, 0x0, 0x3E8, 0x0, 0x0, 0⟩,
  ⟨0x10020, 0x0, 1, 0x0, 1, 0x0, 0x0, 0x0, 0x13F, 0x0, 0x0, 0x100, 0x0, 0x0, 0⟩,
  ⟨0x10034, 0x0, 1, 0x0, 1, 0x0, 0x0, 0x0, 0x0, 0x0, 0x0, 0x0, 0x0, 0x0, 0⟩,
  ⟨0x10100, 0x4, 32, 0x0, 1, 0xFFFFFFFF, 0x0, 0x0, 0x0, 0x0, 0x0, 0x0, 0x0, 0x0, 0⟩,
  ⟨0x10180, 0x4, 32, 0x0, 1, 0x0, 0x0, 0x0, 0xFFFFFFFF, 0x0, 0x0, 0x0, 0x0, 0x0, 0⟩,
  ⟨0x10200, 0x4, 64, 0x0, 1, 0xFFFFFFFF, 0x0, 0x0, 0x0, 0x0, 0x0, 0x0, 0x0, 0x0, 0⟩]

/-- The registers of the region at 0x20000. -/
def rowsTime : List Row := [
  ⟨0x20000, 0x0, 1, 0x0, 1, 0x3, 0x0, 0x0, 0x0, 0x0, 0x0, 0x0, 0x0, 0x0, 0⟩,
  ⟨0x20004, 0x0, 1, 0x0, 1, 0x0, 0x0, 0x0, 0x7F, 0x0, 0x0, 0x3, 0x0, 0x0, 0⟩,
  ⟨0x20008, 0x0, 1, 0x0, 1, 0x0, 0x3FF, 0x0, 0x0, 0x0, 0x0, 0x0, 0x0, 0x0, 0⟩,
  ⟨0x2000C, 0x0, 1, 0x0, 1, 0x0, 0x0, 0x0, 0xFFFFFFFF, 0x0, 0x0, 0x0, 0x0, 0x0, 0⟩,
  ⟨0x20030, 0x0, 1, 0x0, 1, 0x0, 0x0, 0x0, 0x0, 0x0, 0x0, 0x0, 0x0, 0x0, 0⟩,
  ⟨0x20034, 0x0, 1, 0x0, 1, 0x11FFF, 0x0, 0x0, 0x0, 0x0, 0x0, 0x7D, 0x0, 0x0, 0⟩,
  ⟨0x20038, 0x0, 1, 0x0, 1, 0x7FFFF, 0x0, 0x0, 0x0, 0x0, 0x0, 0x0, 0x0, 0x0, 0⟩,
  ⟨0x2003C, 0x0, 1, 0x0, 1, 0x1FFF0000, 0x0, 0x0, 0x0, 0x0, 0x0, 0x7D0000, 0x0, 0x0, 0⟩,
  ⟨0x20040, 0x0, 1, 0x0, 1, 0x0, 0x0, 0x0, 0xFFFFFF07, 0x0, 0x0, 0x0, 0x0, 0x0, 0⟩,
  ⟨0x20044, 0x0, 1, 0x0, 1, 0x3FF0003, 0x0, 0x0, 0x0, 0x0, 0x0, 0x640000, 0x0, 0x0, 0⟩,
  ⟨0x20048, 0x0, 1, 0x0, 1, 0xFFFFFFFF, 0x0, 0x0, 0x0, 0x0, 0x0, 0x0, 0x0, 0x0, 0⟩,
  ⟨0x2004C, 0x0, 1, 0x0, 1, 0xFFFFFFFF, 0x0, 0x0, 0x0, 0x0, 0x0, 0x0, 0x0, 0x0, 0⟩,
  ⟨0x20060, 0x0, 1, 0x0, 1, 0xFFFFF001, 0x0, 0x0, 0x0, 0x0, 0x0, 0x1C200000, 0x0, 0x0, 0⟩,
  ⟨0x20064, 0x0, 1, 0x0, 1, 0x0, 0x0, 0x0, 0x0, 0xFFFFFFFF, 0x0, 0x0, 0x0, 0x0, 0⟩,
  ⟨0x2007C, 0x0, 1, 0x0, 1, 0x0, 0x0, 0x0, 0x0, 0x0, 0x0, 0x0, 0x0, 0x0, 0⟩,
  ⟨0x20080, 0x0, 1, 0x0, 1, 0x0, 0x0, 0x0, 0x7FFF, 0x0, 0x0, 0x0, 0x0, 0x0, 5⟩,
  ⟨0x2008C, 0x0, 1, 0x0, 1, 0x0, 0x0, 0x0, 0x0, 0x0, 0xFFF0F1F, 0x0, 0x0, 0x0, 0⟩,
  ⟨0x20090, 0x0, 1, 0x0, 1, 0x0, 0x0, 0x0, 0x0, 0x0, 0x71F3F3F, 0x0, 0x0, 0x0, 0⟩,
  ⟨0x200A0, 0x0, 1, 0x0, 1, 0x2, 0x0, 0x0, 0x0, 0x0, 0x0, 0x2, 0x0, 0x0, 0⟩,
  ⟨0x200A4, 0x0, 1, 0x0, 1, 0x0, 0x0, 0x0, 0x3, 0x0, 0x0, 0x0, 0x0, 0x0, 0⟩,
  ⟨0x20100, 0x40, 4, 0x0, 1, 0xFFF0001, 0x0, 0x0, 0x0, 0x0, 0x0, 0x10000, 0x0, 0x0, 0⟩,
  ⟨0x20104, 0x40, 4, 0x0, 1, 0x0, 0x0, 0x0, 0xFFFF0003, 0x0, 0x0, 0x0, 0x0, 0x0, 0⟩,
  ⟨0x20200, 0x0, 1, 0x0, 1, 0x1FF0F07, 0x0, 0x0, 0x0, 0x0, 0x0, 0x320401, 0x0, 0x0, 0⟩,
  ⟨0x20204, 0x0, 1, 0x0, 1, 0x0, 0x0, 0x0, 0xF3F, 0x0, 0x0, 0x730, 0x0, 0x0, 0⟩,
  ⟨0x2020C, 0x0, 1, 0x0, 1, 0x0, 0x0, 0x0, 0x0, 0x0, 0x0, 0x0, 0x0, 0x0, 0⟩,
  ⟨0x20238, 0x0, 1, 0x0, 1, 0x0, 0x0, 0x0, 0x0, 0x0, 0x0, 0x0, 0x0, 0x0, 0⟩,
  ⟨0x20300, 0x10, 16, 0x0, 1, 0x0, 0x0, 0x0, 0x0, 0xC0FFFFFF, 0x0, 0x0, 0x0, 0x0, 3⟩,
  ⟨0x2030C, 0x10, 16, 0x0, 1, 0x0, 0x0, 0x0, 0xF, 0xFFFF0000, 0x0, 0x0, 0x0, 0x0, 0⟩,
  ⟨0x20010, 0x0, 1, 0x0, 1, 0x0, 0x0, 0x0, 0xFFFF, 0x0, 0x0, 0x0, 0x0, 0x0, 4⟩,
  ⟨0x20014, 0x0, 1, 0x0, 1, 0x0, 0x0, 0x0, 0x0, 0x0, 0xFFFFFFFF, 0x0, 0x0, 0x0, 0⟩,
  ⟨0x20018, 0x0, 1, 0x0, 1, 0x0, 0x0, 0x0, 0x0, 0x0, 0xFFFFFFFF, 0x0, 0x0, 0x0, 0⟩,
  ⟨0x2001C, 0x0, 1, 0x0, 1, 0x0, 0x0, 0x0, 0x0, 0x0, 0xFFFF, 0x0, 0x0, 0x0, 0⟩,
  ⟨0x20020, 0x0, 1, 0x0, 1, 0xFFFF, 0x0, 0x0, 0x0, 0x0, 0x0, 0x0, 0x0, 0x0, 0⟩,
  ⟨0x20024, 0x0, 1, 0x0, 1, 0xFFFFFFFF, 0x0, 0x0, 0x0, 0x0, 0x0, 0x0, 0x0, 0x0, 0⟩,
  ⟨0x20028, 0x0, 1, 0x0, 1, 0xFFFFFFFF, 0x0, 0x0, 0x0, 0x0, 0x0, 0x0, 0x0, 0x0, 0⟩,
  ⟨0x2002C, 0x0, 1, 0x0, 1, 0xFFFF, 0x0, 0x0, 0x0, 0x0, 0x0, 0x0, 0x0, 0x0, 0⟩,
  ⟨0x20050, 0x0, 1, 0x0, 1, 0x0, 0x0, 0x0, 0xFFFF, 0x0, 0x0, 0x0, 0x0, 0x0, 4⟩,
  ⟨0x20054, 0x0, 1, 0x0, 1, 0x0, 0x0, 0x0, 0x0, 0x0, 0xFFFFFFFF, 0x0, 0x0, 0x0, 0⟩,
  ⟨0x20058, 0x0, 1, 0x0, 1, 0x0, 0x0, 0x0, 0x0, 0x0, 0xFFFFFFFF, 0x0, 0x0, 0x0, 0⟩,
  ⟨0x2005C, 0x0, 1, 0x0, 1, 0x0, 0x0, 0x0, 0x0, 0x0, 0xFFFF, 0x0, 0x0, 0x0, 0⟩,
  ⟨0x20068, 0x0, 1, 0x0, 1, 0x0, 0x0, 0x0, 0xFFFFFFFF, 0x0, 0x0, 0x0, 0x0, 0x0, 2⟩,
  ⟨0x2006C, 0x0, 1, 0x0, 1, 0x0, 0x0, 0x0, 0x0, 0x0, 0xFFFF, 0x0, 0x0, 0x0, 0⟩,
  ⟨0x20070, 0x0, 1, 0x0, 1, 0xFFFFFFFF, 0x0, 0x0, 0x0, 0x0, 0x0, 0x0, 0x0, 0x0, 0⟩,
  ⟨0x20074, 0x0, 1, 0x0, 1, 0xFFFFFFFF, 0x0, 0x0, 0x0, 0x0, 0x0, 0x0, 0x0, 0x0, 0⟩,
  ⟨0x20078, 0x0, 1, 0x0, 1, 0xFFFF, 0x0, 0x0, 0x0, 0x0, 0x0, 0x0, 0x0, 0x0, 0⟩,
  ⟨0x20084, 0x0, 1, 0x0, 1, 0x0, 0x0, 0x0, 0x0, 0x0, 0xFFFFFFFF, 0x0, 0x0, 0x0, 0⟩,
  ⟨0x20088, 0x0, 1, 0x0, 1, 0x0, 0x0, 0x0, 0x0, 0x0, 0xFF, 0x0, 0x0, 0x0, 0⟩,
  ⟨0x20094, 0x0, 1, 0x0, 1, 0x7FFF, 0x0, 0x0, 0x0, 0x0, 0x0, 0x0, 0x0, 0x0, 0⟩,
  ⟨0x20098, 0x0, 1, 0x0, 1, 0xFFFFFFFF, 0x0, 0x0, 0x0, 0x0, 0x0, 0x0, 0x0, 0x0, 0⟩,
  ⟨0x2009C, 0x0, 1, 0x0, 1, 0xFF, 0x0, 0x0, 0x0, 0x0, 0x0, 0x0, 0x0, 0x0, 0⟩,
  ⟨0x200A8, 0x0, 1, 0x0, 1, 0xFFFFFFFF, 0x0, 0x0, 0x0, 0x0, 0x0, 0x0, 0x0, 0x0, 0⟩,
  ⟨0x20108, 0x40, 4, 0x0, 1, 0xFFFFFFFF, 0x0, 0x0, 0x0, 0x0, 0x0, 0x3E8, 0x0, 0x0, 0⟩,
  ⟨0x2010C, 0x40, 4, 0x0, 1, 0xFFFFFFFF, 0x0, 0x0, 0x0, 0x0, 0x0, 0x0, 0x0, 0x0, 0⟩,
  ⟨0x20110, 0x40, 4, 0x0, 1, 0x0, 0x0, 0x0, 0xFFFF, 0x0, 0x0, 0x0, 0x0, 0x0, 4⟩,
  ⟨0x20114, 0x40, 4, 0x0, 1, 0x0, 0x0, 0x0, 0x0, 0x0, 0xFFFFFFFF, 0x0, 0x0, 0x0, 0⟩,
  ⟨0x20118, 0x40, 4, 0x0, 1, 0x0, 0x0, 0x0, 0x0, 0x0, 0xFFFFFFFF, 0x0, 0x0, 0x0, 0⟩,
  ⟨0x2011C, 0x40, 4, 0x0, 1, 0x0, 0x0, 0x0, 0x0, 0x0, 0xFFFF, 0x0, 0x0, 0x0, 0⟩,
  ⟨0x20120, 0x40, 4, 0x0, 1, 0x0, 0x0, 0x0, 0xFFFFFFFF, 0x0, 0x0, 0x0, 0x0, 0x0, 2⟩,
  ⟨0x20124, 0x40, 4, 0x0, 1, 0x0, 0x0, 0x0, 0x0, 0x0, 0xFFFF, 0x0, 0x0, 0x0, 0⟩,
  ⟨0x20128, 0x40, 4, 0x0, 1, 0x0, 0x0, 0x0, 0xFFFF, 0x0, 0x0, 0x0, 0x0, 0x0, 6⟩,
  ⟨0x2012C, 0x40, 4, 0x0, 1, 0x0, 0x0, 0x0, 0x0, 0x0, 0xFFFFFFFF, 0x0, 0x0, 0x0, 0⟩,
  ⟨0x20130, 0x40, 4, 0x0, 1, 0x0, 0x0, 0x0, 0x0, 0x0, 0xFFFFFFFF, 0x0, 0x0, 0x0, 0⟩,
  ⟨0x20134, 0x40, 4, 0x0, 1, 0x0, 0x0, 0x0, 0x0, 0x0, 0xFFFF, 0x0, 0x0, 0x0, 0⟩,
  ⟨0x20138, 0x40, 4, 0x0, 1, 0x0, 0x0, 0x0, 0x0, 0x0, 0xFFFFFFFF, 0x0, 0x0, 0x0, 0⟩,
  ⟨0x2013C, 0x40, 4, 0x0, 1, 0x0, 0x0, 0x0, 0x0, 0x0, 0xFFFF, 0x0, 0x0, 0x0, 0⟩,
  ⟨0x20208, 0x0, 1, 0x0, 1, 0x0, 0x1FF, 0x0, 0x0, 0x0, 0x0, 0x0, 0x0, 0x0, 0⟩,
  ⟨0x20210, 0x0, 1, 0x0, 1, 0x3FFFFFFF, 0x0, 0x0, 0x0, 0x0, 0x0, 0x2710, 0x0, 0x0, 0⟩,
  ⟨0x20214, 0x0, 1, 0x0, 1, 0x3FFF, 0x0, 0x0, 0x0, 0x0, 0x0, 0xC8, 0x0, 0x0, 0⟩,
  ⟨0x20218, 0x0, 1, 0x0, 1, 0x3FFFF, 0x0, 0x0, 0x0, 0x0, 0x0, 0x3E8, 0x0, 0x0, 0⟩,
  ⟨0x2021C, 0x0, 1, 0x0, 1, 0xFFFFFFFF, 0x0, 0x0, 0x0, 0x0, 0x0, 0x0, 0x0, 0x0, 0⟩,
  ⟨0x20220, 0x0, 1, 0x0, 1, 0xFFFFFFFF, 0x0, 0x0, 0x0, 0x0, 0x0, 0x0, 0x0, 0x0, 0⟩,
  ⟨0x20224, 0x0, 1, 0x0, 1, 0x0, 0x0, 0x0, 0xFFFFFFFF, 0x0, 0x0, 0x0, 0x0, 0x0, 0⟩,
  ⟨0x20228, 0x0, 1, 0x0, 1, 0x0, 0x0, 0x0, 0xFFFFFFFF, 0x0, 0x0, 0x0, 0x0, 0x0, 0⟩,
  ⟨0x2022C, 0x0, 1, 0x0, 1, 0x0, 0x0, 0x0, 0xFFFFFFFF, 0x0, 0x0, 0x0, 0x0, 0x0, 0⟩,
  ⟨0x20230, 0x0, 1, 0x0, 1, 0x0, 0x0, 0x0, 0xFFFFFFFF, 0x0, 0x0, 0x0, 0x0, 0x0, 0⟩,
  ⟨0x20234, 0x0, 1, 0x0, 1, 0x0, 0x0, 0x0, 0xFFFFFFFF, 0x0, 0x0, 0x0, 0x0, 0x0, 0⟩,
  ⟨0x2023C, 0x0, 1, 0x0, 1, 0x0, 0x0, 0x0, 0xFFFF0000, 0xFFFF, 0x0, 0x0, 0x0, 0x0, 0⟩,
  ⟨0x20240, 0x0, 1, 0x0, 1, 0x0, 0x0, 0x0, 0xFFFF, 0x0, 0x0, 0x0, 0x0, 0x0, 4⟩,
  ⟨0x20244, 0x0, 1, 0x0, 1, 0x0, 0x0, 0x0, 0x0, 0x0, 0xFFFFFFFF, 0x0, 0x0, 0x0, 0⟩,
  ⟨0x20248, 0x0, 1, 0x0, 1, 0x0, 0x0, 0x0, 0x0, 0x0, 0xFFFFFFFF, 0x0, 0x0, 0x0, 0⟩,
  ⟨0x2024C, 0x0, 1, 0x0, 1, 0x0, 0x0, 0x0, 0x0, 0x0, 0x8000FFFF, 0x0, 0x0, 0x0, 0⟩,
  ⟨0x20250, 0x0, 1, 0x0, 1, 0xFFFF, 0x0, 0x0, 0x0, 0x0, 0x0, 0x0, 0x0, 0x0, 0⟩,
  ⟨0x20254, 0x0, 1, 0x0, 1, 0xFFFFFFFF, 0x0, 0x0, 0x0, 0x0, 0x0, 0x0, 0x0, 0x0, 0⟩,
  ⟨0x20258, 0x0, 1, 0x0, 1, 0xFFFFFFFF, 0x0, 0x0, 0x0, 0x0, 0x0, 0x0, 0x0, 0x0, 0⟩,
  ⟨0x2025C, 0x0, 1, 0x0, 1, 0x8000FFFF, 0x0, 0x0, 0x0, 0x0, 0x0, 0x0, 0x0, 0x0, 0⟩,
  ⟨0x20260, 0x0, 1, 0x0, 1, 0x0, 0x0, 0x0, 0xFFFF, 0x0, 0x0, 0x0, 0x0, 0x0, 4⟩,
  ⟨0x20264, 0x0, 1, 0x0, 1, 0x0, 0x0, 0x0, 0x0, 0x0, 0xFFFFFFFF, 0x0, 0x0, 0x0, 0⟩,
  ⟨0x20268, 0x0, 1, 0x0, 1, 0x0, 0x0, 0x0, 0x0, 0x0, 0xFFFFFFFF, 0x0, 0x0, 0x0, 0⟩,
  ⟨0x2026C, 0x0, 1, 0x0, 1, 0x0, 0x0, 0x0, 0x0, 0x0, 0xFFFF, 0x0, 0x0, 0x0, 0⟩,
  ⟨0x20304, 0x10, 16, 0x0, 1, 0x0, 0x0, 0x0, 0x0, 0x0, 0xFFFFFFFF, 0x0, 0x0, 0x0, 0⟩,
  ⟨0x20308, 0x10, 16, 0x0, 1, 0x0, 0x0, 0x0, 0x0, 0x0, 0xFFFFFFFF, 0x0, 0x0, 0x0, 0⟩]

/-- The registers of the region at 0x30000. -/
def rowsHkc : List Row := [
  ⟨0x30000, 0x0, 1, 0x0, 1, 0xFFFF1F31, 0x0, 0x0, 0x0, 0x0, 0x0, 0x3E80000, 0x0, 0x0, 0⟩,
  ⟨0x30004, 0x0, 1, 0x0, 1, 0x0, 0x0, 0x0, 0x1F07, 0x0, 0x0, 0x4, 0x0, 0x0, 0⟩,
  ⟨0x3001C, 0x0, 1, 0x0, 1, 0x0, 0x0, 0x0, 0x800F0FFF, 0x0, 0x0, 0x0, 0x0, 0x0, 0⟩,
  ⟨0x30100, 0x4, 32, 0x0, 1, 0x1073F, 0x0, 0x0, 0x0, 0x0, 0x0, 0x0, 0x0, 0x0, 0⟩,
  ⟨0x30200, 0x4, 32, 0x0, 1, 0x0, 0x0, 0x0, 0xFFFF, 0xC0000000, 0x0, 0x0, 0x0, 0x0, 0⟩,
  ⟨0x30008, 0x0, 1, 0x0, 1, 0x0, 0x1F, 0x0, 0x0, 0x0, 0x0, 0x0, 0x0, 0x0, 0⟩,
  ⟨0x3000C, 0x0, 1, 0x0, 1, 0x0, 0x0, 0x0, 0x0, 0x0, 0x0, 0x0, 0x0, 0x0, 0⟩,
  ⟨0x30010, 0x0, 1, 0x0, 1, 0x0, 0x0, 0x0, 0x0, 0xFFFFFFFF, 0x0, 0x0, 0x0, 0x0, 0⟩,
  ⟨0x30014, 0x0, 1, 0x0, 1, 0xFF, 0x0, 0x0, 0x0, 0x0, 0x0, 0x69, 0x0, 0x0, 0⟩,
  ⟨0x30018, 0x0, 1, 0x0, 1, 0x0, 0x0, 0x0, 0xFFFFFFFF, 0x0, 0x0, 0x0, 0x0, 0x0, 0⟩,
  ⟨0x30020, 0x0, 1, 0x0, 1, 0x0, 0xFFFFFFFF, 0x0, 0x0, 0x0, 0x0, 0x0, 0x0, 0x0, 0⟩,
  ⟨0x30024, 0x0, 1, 0x0, 1, 0x0, 0x0, 0x0, 0xFFFFFFF, 0x0, 0x0, 0x0, 0x0, 0x0, 0⟩,
  ⟨0x30180, 0x4, 32, 0x0, 1, 0xFFF0FFF, 0x0, 0x0, 0x0, 0x0, 0x0, 0xFFF0000, 0x0, 0x0, 0⟩,
  ⟨0x30300, 0x4, 28, 0x0, 1, 0x0, 0x0, 0x0, 0xFFFF, 0x0, 0x0, 0x0, 0x0, 0x0, 0⟩]

/-- The registers of the region at 0x40000. -/
def rowsTrig : List Row := [
  ⟨0x40000, 0x100, 64, 0x0, 1, 0x83BF3000, 0x0, 0x0, 0x0, 0x0, 0x0, 0x0, 0x10000, 0x0, 0⟩,
  ⟨0x40004, 0x100, 64, 0x0, 1, 0x1F1F1FFF, 0x0, 0x0, 0x0, 0x0, 0x0, 0x0, 0x0, 0x0, 0⟩,
  ⟨0x40018, 0x100, 64, 0x0, 1, 0x0, 0x0, 0x0, 0xF, 0x0, 0x0, 0x0, 0x0, 0x0, 0⟩,
  ⟨0x40040, 0x100, 64, 0x0, 1, 0x30001FFF, 0x0, 0x0, 0x0, 0x0, 0x0, 0x0, 0x0, 0x0, 0⟩,
  ⟨0x40048, 0x100, 64, 0x0, 1, 0x0, 0x0, 0x0, 0x1FFFFFF, 0x0, 0x0, 0x0, 0x0, 0x0, 0⟩,
  ⟨0x44000, 0x10, 64, 0x0, 1, 0x17, 0x0, 0x0, 0x0, 0x0, 0x0, 0x0, 0x0, 0x0, 0⟩,
  ⟨0x44400, 0x0, 1, 0x0, 1, 0x0, 0x3, 0x0, 0x0, 0x0, 0x0, 0x0, 0x0, 0x0, 0⟩,
  ⟨0x48000, 0x4, 1024, 0x0, 1, 0xBF001FFF, 0x0, 0x0, 0x0, 0x0, 0x0, 0x0, 0x0, 0x0, 0⟩,
  ⟨0x49000, 0x4, 1024, 0x0, 1, 0x0, 0x0, 0x0, 0x7FF1FFF, 0x0, 0x0, 0x0, 0x0, 0x0, 0⟩,
  ⟨0x40008, 0x100, 64, 0x0, 1, 0xFFFFFF, 0x0, 0x0, 0x0, 0x0, 0x0, 0x0, 0x0, 0x0, 0⟩,
  ⟨0x4000C, 0x100, 64, 0x0, 1, 0xFFFFFF, 0x0, 0x0, 0x0, 0x0, 0x0, 0x0, 0x0, 0x0, 0⟩,
  ⟨0x40010, 0x100, 64, 0x0, 1, 0xFFFF, 0x0, 0x0, 0x0, 0x0, 0x0, 0x0, 0x0, 0x0, 0⟩,
  ⟨0x40014, 0x100, 64, 0x0, 1, 0xFFFFFFFF, 0x0, 0x0, 0x0, 0x0, 0x0, 0xFFFFFFFF, 0x0, 0x0, 0⟩,
  ⟨0x4001C, 0x100, 64, 0x0, 1, 0x0, 0x0, 0x0, 0x0, 0xFFFFFFFF, 0x0, 0x0, 0x0, 0x0, 0⟩,
  ⟨0x40020, 0x100, 64, 0x0, 1, 0x0, 0x0, 0x0, 0x0, 0xFFFFFFFF, 0x0, 0x0, 0x0, 0x0, 0⟩,
  ⟨0x40024, 0x100, 64, 0x0, 1, 0x0, 0x0, 0x0, 0x0, 0xFFFFFFFF, 0x0, 0x0, 0x0, 0x0, 0⟩,
  ⟨0x40028, 0x100, 64, 0x0, 1, 0x0, 0x0, 0x0, 0xFFFFFFFF, 0x0, 0x0, 0x0, 0x0, 0x0, 2⟩,
  ⟨0x4002C, 0x100, 64, 0x0, 1, 0x0, 0x0, 0x0, 0x0, 0x0, 0xFFFF, 0x0, 0x0, 0x0, 0⟩,
  ⟨0x40044, 0x100, 64, 0x0, 1, 0xFFFF, 0x0, 0x0, 0x0, 0x0, 0x0, 0x0, 0x0, 0x0, 0⟩,
  ⟨0x4004C, 0x100, 64, 0x0, 1, 0x0, 0x0, 0x0, 0x0, 0xFFFFFFFF, 0x0, 0x0, 0x0, 0x0, 0⟩,
  ⟨0x40050, 0x100, 64, 0x0, 1, 0x0, 0x0, 0x0, 0xFFFFFFFF, 0x0, 0x0, 0x0, 0x0, 0x0, 2⟩,
  ⟨0x40054, 0x100, 64, 0x0, 1, 0x0, 0x0, 0x0, 0x0, 0x0, 0xFFFF, 0x0, 0x0, 0x0, 0⟩,
  ⟨0x44004, 0x10, 64, 0x0, 1, 0xFFFFFF, 0x0, 0x0, 0x0, 0x0, 0x0, 0x0, 0x0, 0x0, 0⟩,
  ⟨0x44008, 0x10, 64, 0x0, 1, 0xFFFF, 0x0, 0x0, 0x0, 0x0, 0x0, 0x0, 0x0, 0x0, 0⟩,
  ⟨0x4400C, 0x10, 64, 0x0, 1, 0xFFFF, 0x0, 0x0, 0x0, 0x0, 0x0, 0xFFFF, 0x0, 0x0, 0⟩,
  ⟨0x44404, 0x0, 1, 0x0, 1, 0x0, 0x0, 0x0, 0x0, 0xFFFFFFFF, 0x0, 0x0, 0x0, 0x0, 0⟩,
  ⟨0x44408, 0x0, 1, 0x0, 1, 0x0, 0x0, 0x0, 0x1FFFFF, 0x0, 0x0, 0x0, 0x0, 0x0, 0⟩]

/-- The registers of the region at 0x50000. -/
def rowsPress : List Row := [
  ⟨0x50000, 0x0, 1, 0x0, 1, 0x0, 0x7, 0x0, 0x0, 0x0, 0x0, 0x0, 0x0, 0x0, 0⟩,
  ⟨0x50100, 0x40, 4, 0x0, 1, 0x3FF0001, 0x0, 0x0, 0x0, 0x0, 0x0, 0x1000000, 0x0, 0x0, 0⟩,
  ⟨0x50104, 0x40, 4, 0x0, 1, 0x0, 0x0, 0x0, 0x7F, 0xFFFF0000, 0x0, 0x0, 0x0, 0x0, 0⟩,
  ⟨0x50200, 0x0, 1, 0x0, 1, 0x0, 0x0, 0x0, 0x0, 0x0, 0x0, 0x0, 0x0, 0x0, 0⟩,
  ⟨0x50204, 0x0, 1, 0x0, 1, 0x1FFF7FFF, 0x0, 0x0, 0x0, 0x0, 0x0, 0x10001, 0x0, 0x0, 0⟩,
  ⟨0x50208, 0x0, 1, 0x0, 1, 0x0, 0x0, 0x0, 0xFF1B, 0x0, 0x0, 0x0, 0x0, 0x0, 0⟩,
  ⟨0x50004, 0x0, 1, 0x0, 1, 0x0, 0x0, 0x0, 0x0, 0xFFFFFFFF, 0x0, 0x0, 0x0, 0x0, 0⟩,
  ⟨0x50108, 0x40, 4, 0x0, 1, 0x0, 0x0, 0x0, 0xFFFFFFFF, 0x0, 0x0, 0x0, 0x0, 0x0, 0⟩,
  ⟨0x5010C, 0x40, 4, 0x0, 1, 0xFFFFFFFF, 0x0, 0x0, 0x0, 0x0, 0x0, 0x0, 0x0, 0x0, 0⟩,
  ⟨0x50110, 0x40, 4, 0x0, 1, 0x0, 0x0, 0x0, 0xFFFFFFFF, 0x0, 0x0, 0x0, 0x0, 0x0, 2⟩,
  ⟨0x50114, 0x40, 4, 0x0, 1, 0x0, 0x0, 0x0, 0x0, 0x0, 0xFFFF, 0x0, 0x0, 0x0, 0⟩,
  ⟨0x50118, 0x40, 4, 0x0, 1, 0x0, 0x0, 0x0, 0xFFFFFFFF, 0x0, 0x0, 0x0, 0x0, 0x0, 2⟩,
  ⟨0x5011C, 0x40, 4, 0x0, 1, 0x0, 0x0, 0x0, 0x0, 0x0, 0xFFFF, 0x0, 0x0, 0x0, 0⟩,
  ⟨0x50120, 0x40, 4, 0x0, 1, 0x0, 0x0, 0x0, 0x0, 0xFFFFFFFF, 0x0, 0x0, 0x0, 0x0, 0⟩,
  ⟨0x50124, 0x40, 4, 0x0, 1, 0x0, 0x0, 0x0, 0x0, 0xFFFFFFFF, 0x0, 0x0, 0x0, 0x0, 0⟩,
  ⟨0x5020C, 0x0, 1, 0x0, 1, 0x0, 0x0, 0x0, 0x7FFF, 0x0, 0x0, 0x0, 0x0, 0x0, 0⟩,
  ⟨0x58000, 0x4, 4096, 0x0, 1, 0xFFFFFFFF, 0x0, 0x0, 0x0, 0x0, 0x0, 0x0, 0x0, 0x0, 0⟩,
  ⟨0x5C000, 0x4, 4096, 0x0, 1, 0x0, 0x0, 0x0, 0xFFFFFFFF, 0x0, 0x0, 0x0, 0x0, 0x0, 0⟩]

/-- The registers of the region at 0x60000. -/
def rowsYard : List Row := [
  ⟨0x60000, 0x0, 1, 0x0, 1, 0x7F7F7F, 0x0, 0x0, 0x0, 0x0, 0x0, 0xA5A4B, 0x0, 0x0, 0⟩,
  ⟨0x60004, 0x0, 1, 0x0, 1, 0x0, 0x0, 0x0, 0x7, 0x0, 0x0, 0x0, 0x0, 0x0, 0⟩,
  ⟨0x60008, 0x0, 1, 0x0, 1, 0x0, 0x3FF, 0x0, 0x0, 0x0, 0x0, 0x0, 0x0, 0x0, 0⟩,
  ⟨0x60100, 0x40, 16, 0x0, 1, 0x3FF, 0x0, 0x0, 0x3FF0000, 0x0, 0x0, 0x0, 0x0, 0x0, 0⟩,
  ⟨0x60104, 0x40, 16, 0x0, 1, 0x0, 0x0, 0x0, 0xF03007F, 0x0, 0x0, 0x0, 0x0, 0x0, 0⟩,
  ⟨0x6011C, 0x40, 16, 0x0, 1, 0x0, 0x0, 0x0, 0x0, 0xFFFFFFFF, 0x0, 0x0, 0x0, 0x0, 0⟩,
  ⟨0x60800, 0x4, 24, 0x0, 1, 0xFFFF, 0x0, 0x0, 0x0, 0x0, 0x0, 0x0, 0x0, 0x0, 0⟩,
  ⟨0x60880, 0x4, 25, 0x0, 1, 0x0, 0x0, 0x0, 0x7F, 0xFFFF0000, 0x0, 0x0, 0x0, 0x0, 0⟩,
  ⟨0x6000C, 0x0, 1, 0x0, 1, 0x0, 0x0, 0x0, 0x0, 0xFFFFFFFF, 0x0, 0x0, 0x0, 0x0, 0⟩,
  ⟨0x60010, 0x0, 1, 0x0, 1, 0xFFFFF, 0x0, 0x0, 0x0, 0x0, 0x0, 0x3E8, 0x0, 0x0, 0⟩,
  ⟨0x60014, 0x0, 1, 0x0, 1, 0x0, 0x0, 0x0, 0xFFFFF, 0x0, 0x0, 0x0, 0x0, 0x0, 0⟩,
  ⟨0x60018, 0x0, 1, 0x0, 1, 0x0, 0x0, 0x0, 0x0, 0xFFFFFFFF, 0x0, 0x0, 0x0, 0x0, 0⟩,
  ⟨0x6001C, 0x0, 1, 0x0, 1, 0x0, 0x0, 0x0, 0x0, 0xFFFFFFFF, 0x0, 0x0, 0x0, 0x0, 0⟩,
  ⟨0x60020, 0x0, 1, 0x0, 1, 0x0, 0x0, 0x0, 0x0, 0xFFFFFFFF, 0x0, 0x0, 0x0, 0x0, 0⟩,
  ⟨0x60108, 0x40, 16, 0x0, 1, 0x0, 0x0, 0x0, 0x3FFFFFFF, 0x0, 0x0, 0x0, 0x0, 0x0, 0⟩,
  ⟨0x6010C, 0x40, 16, 0x0, 1, 0x0, 0x0, 0x0, 0xFFFFFFFF, 0x0, 0x0, 0x0, 0x0, 0x0, 0⟩,
  ⟨0x60110, 0x40, 16, 0x0, 1, 0x0, 0x0, 0x0, 0xFFFFFFFF, 0x0, 0x0, 0x0, 0x0, 0x0, 0⟩,
  ⟨0x60114, 0x40, 16, 0x0, 1, 0x0, 0x0, 0x0, 0xFFFFFFFF, 0x0, 0x0, 0x0, 0x0, 0x0, 0⟩,
  ⟨0x60118, 0x40, 16, 0x0, 1, 0x0, 0x0, 0x0, 0x0, 0xFFFFFFFF, 0x0, 0x0, 0x0, 0x0, 0⟩,
  ⟨0x60120, 0x40, 16, 0x0, 1, 0x0, 0x0, 0x0, 0xFFFFFFFF, 0x0, 0x0, 0x0, 0x0, 0x0, 2⟩,
  ⟨0x60124, 0x40, 16, 0x0, 1, 0x0, 0x0, 0x0, 0x0, 0x0, 0xFFFF, 0x0, 0x0, 0x0, 0⟩,
  ⟨0x60128, 0x40, 16, 0x0, 1, 0x0, 0x0, 0x0, 0x0, 0xFFFFFFFF, 0x0, 0x0, 0x0, 0x0, 0⟩]

/-- The registers of the region at 0x70000. -/
def rowsLog : List Row := [
  ⟨0x70000, 0x0, 1, 0x0, 1, 0x0, 0x0, 0x0, 0xFFFFFFFF, 0x0, 0x0, 0x0, 0x0, 0x0, 0⟩,
  ⟨0x70004, 0x0, 1, 0x0, 1, 0x0, 0x0, 0x0, 0x7FF, 0x0, 0x0, 0x0, 0x0, 0x0, 0⟩,
  ⟨0x70008, 0x0, 1, 0x0, 1, 0x0, 0x0, 0x0, 0xFFFFFFFF, 0x0, 0x0, 0x0, 0x0, 0x0, 0⟩,
  ⟨0x7000C, 0x0, 1, 0x0, 1, 0x0, 0x0, 0x0, 0x0, 0x0, 0x0, 0x0, 0x0, 0x0, 0⟩,
  ⟨0x70010, 0x0, 1, 0x0, 1, 0x0, 0x0, 0x0, 0x0, 0xFFFFFFFF, 0x0, 0x0, 0x0, 0x0, 0⟩,
  ⟨0x78000, 0x20, 1024, 0x0, 1, 0x0, 0x0, 0x0, 0xFFFFFFFF, 0x0, 0x0, 0x0, 0x0, 0x0, 8⟩,
  ⟨0x78004, 0x20, 1024, 0x0, 1, 0x0, 0x0, 0x0, 0x0, 0x0, 0xFFFFFFFF, 0x0, 0x0, 0x0, 0⟩,
  ⟨0x78008, 0x20, 1024, 0x0, 1, 0x0, 0x0, 0x0, 0x0, 0x0, 0xFFFFFFFF, 0x0, 0x0, 0x0, 0⟩,
  ⟨0x7800C, 0x20, 1024, 0x0, 1, 0x0, 0x0, 0x0, 0x0, 0x0, 0xFFFFFFFF, 0x0, 0x0, 0x0, 0⟩,
  ⟨0x78010, 0x20, 1024, 0x0, 1, 0x0, 0x0, 0x0, 0x0, 0x0, 0xFFFFFFFF, 0x0, 0x0, 0x0, 0⟩,
  ⟨0x78014, 0x20, 1024, 0x0, 1, 0x0, 0x0, 0x0, 0x0, 0x0, 0xFFFFFFFF, 0x0, 0x0, 0x0, 0⟩,
  ⟨0x78018, 0x20, 1024, 0x0, 1, 0x0, 0x0, 0x0, 0x0, 0x0, 0xFFFFFFFF, 0x0, 0x0, 0x0, 0⟩,
  ⟨0x7801C, 0x20, 1024, 0x0, 1, 0x0, 0x0, 0x0, 0x0, 0x0, 0xFFFFFFFF, 0x0, 0x0, 0x0, 0⟩]

/-- The registers of the region at 0x80000. -/
def rowsLanes : List Row := [
  ⟨0x80000, 0x400, 32, 0x0, 1, 0xFFF31, 0x0, 0x0, 0x0, 0x0, 0x0, 0x40800, 0x0, 0x0, 0⟩,
  ⟨0x80004, 0x400, 32, 0x0, 1, 0x0, 0x0, 0x0, 0xFF03F937, 0x0, 0x0, 0x7, 0x0, 0x0, 0⟩,
  ⟨0x80008, 0x400, 32, 0x0, 1, 0x0, 0xF, 0x0, 0x0, 0x0, 0x0, 0x0, 0x0, 0x0, 0⟩,
  ⟨0x80018, 0x400, 32, 0x0, 1, 0x80000000, 0x0, 0x0, 0x1F, 0x0, 0x0, 0x0, 0x0, 0x0, 0⟩,
  ⟨0x8001C, 0x400, 32, 0x0, 1, 0x0, 0x0, 0x0, 0x3FFFFFFF, 0x0, 0x0, 0x0, 0x0, 0x0, 0⟩,
  ⟨0x80100, 0x1000, 8, 0x0, 1, 0xFF0073, 0x0, 0x0, 0x0, 0x0, 0x0, 0x10000, 0x0, 0x0, 0⟩,
  ⟨0x80104, 0x1000, 8, 0x0, 1, 0x0, 0x2, 0x0, 0x5, 0x0, 0x0, 0x0, 0x0, 0x0, 0⟩,
  ⟨0x88000, 0x20, 8, 0x0, 1, 0x3FF07, 0x0, 0x0, 0x0, 0x0, 0x0, 0x0, 0x0, 0x0, 0⟩,
  ⟨0x88004, 0x20, 8, 0x0, 1, 0x0, 0x0, 0x0, 0x3FF03, 0x0, 0x0, 0x0, 0x0, 0x0, 0⟩,
  ⟨0x88008, 0x20, 8, 0x0, 1, 0x0, 0x1F, 0x0, 0x0, 0x0, 0x0, 0x0, 0x0, 0x0, 0⟩,
  ⟨0x8000C, 0x400, 32, 0x0, 1, 0x0, 0x0, 0x0, 0x0, 0xFFFFFFFF, 0x0, 0x0, 0x0, 0x0, 0⟩,
  ⟨0x80010, 0x400, 32, 0x0, 1, 0x0, 0x0, 0x0, 0x0, 0xFFFFFFFF, 0x0, 0x0, 0x0, 0x0, 0⟩,
  ⟨0x80014, 0x400, 32, 0x0, 1, 0x0, 0x0, 0x0, 0x3F0000, 0xFF00FFFF, 0x0, 0x0, 0x0, 0x0, 0⟩,
  ⟨0x80020, 0x400, 32, 0x0, 1, 0xFFFFFFFF, 0x0, 0x0, 0x0, 0x0, 0x0, 0x0, 0x0, 0x0, 0⟩,
  ⟨0x80024, 0x400, 32, 0x0, 1, 0xFFFFFFFF, 0x0, 0x0, 0x0, 0x0, 0x0, 0x0, 0x0, 0x0, 0⟩,
  ⟨0x80108, 0x1000, 8, 0x0, 1, 0x0, 0x0, 0x0, 0xFFFFFFFF, 0x0, 0x0, 0x0, 0x0, 0x0, 0⟩,
  ⟨0x8010C, 0x1000, 8, 0x0, 1, 0x0, 0x0, 0x0, 0xFFFFFFFF, 0x0, 0x0, 0x0, 0x0, 0x0, 2⟩,
  ⟨0x80110, 0x1000, 8, 0x0, 1, 0x0, 0x0, 0x0, 0x0, 0x0, 0xFFFF, 0x0, 0x0, 0x0, 0⟩]

/-- The registers of the region at 0x90000. -/
def rowsPorts : List Row := [
  ⟨0x90000, 0x0, 1, 0x0, 1, 0xFF1F0F, 0x0, 0x0, 0x0, 0x0, 0x0, 0x140000, 0x0, 0x0, 0⟩,
  ⟨0x90004, 0x0, 1, 0x0, 1, 0x0, 0x0, 0x0, 0x1F3FFF, 0x0, 0x0, 0x0, 0x0, 0x0, 0⟩,
  ⟨0x9000C, 0x0, 1, 0x0, 1, 0x7FFE, 0x0, 0x0, 0x0, 0x0, 0x0, 0x7FFE, 0x0, 0x0, 0⟩,
  ⟨0x90100, 0x40, 16, 0x0, 1, 0x0, 0x0, 0x0, 0x8FFF0FFF, 0x0, 0x0, 0x0, 0x0, 0x0, 0⟩,
  ⟨0x90104, 0x40, 16, 0x0, 1, 0x0, 0x0, 0x0, 0xEFF03FFF, 0x0, 0x0, 0x0, 0x0, 0x0, 0⟩,
  ⟨0x90800, 0x4, 63, 0x0, 1, 0x0, 0x0, 0x0, 0x8F003FFF, 0x0, 0x0, 0x0, 0x0, 0x0, 0⟩,
  ⟨0x90008, 0x0, 1, 0x0, 1, 0x0, 0x1FF, 0x0, 0x0, 0x0, 0x0, 0x0, 0x0, 0x0, 0⟩,
  ⟨0x90010, 0x0, 1, 0x0, 1, 0x0, 0x0, 0x0, 0x0, 0xFFFFFFFF, 0x0, 0x0, 0x0, 0x0, 0⟩,
  ⟨0x90014, 0x0, 1, 0x0, 1, 0x0, 0x0, 0x0, 0xFF, 0x0, 0x0, 0x0, 0x0, 0x0, 0⟩,
  ⟨0x90018, 0x0, 1, 0x0, 1, 0x0, 0x0, 0x0, 0x0, 0xFFFFFFFF, 0x0, 0x0, 0x0, 0x0, 0⟩,
  ⟨0x90108, 0x40, 16, 0x0, 1, 0x0, 0x0, 0x0, 0x0, 0xFFFFFFFF, 0x0, 0x0, 0x0, 0x0, 0⟩,
  ⟨0x9010C, 0x40, 16, 0x0, 1, 0x0, 0x0, 0x0, 0x0, 0xFFFFFFFF, 0x0, 0x0, 0x0, 0x0, 0⟩,
  ⟨0x90110, 0x40, 16, 0x0, 1, 0x0, 0x0, 0x0, 0x0, 0xFFFFFFFF, 0x0, 0x0, 0x0, 0x0, 0⟩,
  ⟨0x90114, 0x40, 16, 0x0, 1, 0x0, 0x0, 0x0, 0x0, 0xFFFFFFFF, 0x0, 0x0, 0x0, 0x0, 0⟩,
  ⟨0x90118, 0x40, 16, 0x0, 1, 0x0, 0x0, 0x0, 0xFFFFFFFF, 0x0, 0x0, 0x0, 0x0, 0x0, 0⟩]

/-- The registers of the region at 0xA0000. -/
def rowsKiln : List Row := [
  ⟨0xA0000, 0x0, 1, 0x0, 1, 0x0, 0x0, 0x0, 0x0, 0x0, 0x0, 0x0, 0x0, 0x0, 0⟩,
  ⟨0xA0004, 0x0, 1, 0x0, 1, 0x0, 0x0, 0x0, 0xFFF0003, 0x0, 0x0, 0x0, 0x0, 0x0, 0⟩,
  ⟨0xA0100, 0x4, 92, 0x0, 1, 0x0, 0x0, 0x0, 0xC0FFFFFF, 0x0, 0x0, 0x0, 0x0, 0x0, 0⟩,
  ⟨0xA0008, 0x0, 1, 0x0, 1, 0x0, 0x0, 0x0, 0xC0FFFFFF, 0x0, 0x0, 0x0, 0x0, 0x0, 0⟩,
  ⟨0xA000C, 0x0, 1, 0x0, 1, 0x0, 0x1FF, 0x0, 0x0, 0x0, 0x0, 0x0, 0x0, 0x0, 0⟩,
  ⟨0xA0010, 0x0, 1, 0x0, 1, 0x0, 0x0, 0x0, 0x1, 0x0, 0x0, 0x0, 0x0, 0x0, 0⟩,
  ⟨0xA0300, 0x4, 24, 0x0, 1, 0x0, 0x0, 0x0, 0x3FFFF, 0x0, 0x0, 0x0, 0x0, 0x0, 0⟩,
  ⟨0xA0400, 0x4, 92, 0x0, 1, 0x0, 0x0, 0x0, 0xFFFFFF, 0x0, 0x0, 0x0, 0x0, 0x0, 0⟩]

/-- The registers of the region at 0xB0000. -/
def rowsCst : List Row := [
  ⟨0xB0000, 0x0, 1, 0x0, 1, 0x0, 0x0, 0x0, 0x1F, 0x0, 0x0, 0x8, 0x0, 0x0, 0⟩,
  ⟨0xB000C, 0x0, 1, 0x0, 1, 0x0, 0x0, 0x0, 0x0, 0x0, 0x0, 0x0, 0x0, 0x0, 0⟩,
  ⟨0xB0100, 0x10, 32, 0x0, 1, 0x0, 0x0, 0x0, 0x800701FF, 0x0, 0x0, 0x0, 0x0, 0x0, 0⟩,
  ⟨0xB0300, 0x10, 16, 0x0, 1, 0x0, 0x0, 0x0, 0x9F1F8FFF, 0x0, 0x0, 0x0, 0x0, 0x0, 0⟩,
  ⟨0xB0004, 0x0, 1, 0x0, 1, 0x0, 0x1FF, 0x0, 0x0, 0x0, 0x0, 0x0, 0x0, 0x0, 0⟩,
  ⟨0xB0008, 0x0, 1, 0x0, 1, 0x0, 0x0, 0x0, 0xFFFFFFFF, 0x0, 0x0, 0x0, 0x0, 0x0, 0⟩,
  ⟨0xB0010, 0x0, 1, 0x0, 1, 0x0, 0x0, 0x0, 0xFF, 0x0, 0x0, 0x0, 0x0, 0x0, 0⟩,
  ⟨0xB0014, 0x0, 1, 0x0, 1, 0x0, 0x0, 0x0, 0x0, 0xFFFFFFFF, 0x0, 0x0, 0x0, 0x0, 0⟩,
  ⟨0xB0018, 0x0, 1, 0x0, 1, 0x0, 0x0, 0x0, 0xFFFFFFFF, 0x0, 0x0, 0x0, 0x0, 0x0, 2⟩,
  ⟨0xB001C, 0x0, 1, 0x0, 1, 0x0, 0x0, 0x0, 0x0, 0x0, 0xFFFFFFFF, 0x0, 0x0, 0x0, 0⟩,
  ⟨0xB0020, 0x4, 8, 0x0, 1, 0x0, 0x0, 0x0, 0xFFFFFFFF, 0x0, 0x0, 0x0, 0x0, 0x0, 0⟩,
  ⟨0xB0040, 0x0, 1, 0x0, 1, 0x0, 0x0, 0x0, 0xFFFF, 0x0, 0x0, 0x0, 0x0, 0x0, 0⟩,
  ⟨0xB0044, 0x4, 8, 0x0, 1, 0xFFFFFFFF, 0x0, 0x0, 0x0, 0x0, 0x0, 0x0, 0x0, 0x0, 0⟩,
  ⟨0xB00F0, 0x0, 1, 0x0, 1, 0x0, 0x0, 0x0, 0xFFF, 0x0, 0x0, 0x0, 0x0, 0x0, 0⟩,
  ⟨0xB0104, 0x10, 32, 0x0, 1, 0x0, 0x0, 0x0, 0xFFFFFF, 0x0, 0x0, 0x0, 0x0, 0x0, 0⟩,
  ⟨0xB0108, 0x10, 32, 0x0, 1, 0x0, 0x0, 0x0, 0xFFFFFF, 0x0, 0x0, 0x800000, 0x0, 0x0, 0⟩,
  ⟨0xB0304, 0x10, 16, 0x0, 1, 0x80001FFF, 0x0, 0x0, 0x0, 0x0, 0x0, 0x0, 0x0, 0x0, 0⟩,
  ⟨0xB0308, 0x10, 16, 0x0, 1, 0x0, 0x0, 0x0, 0xFFFFFFFF, 0x0, 0x0, 0x0, 0x0, 0x0, 0⟩,
  ⟨0xB030C, 0x10, 16, 0x0, 1, 0x0, 0x0, 0x0, 0x0, 0xFFFFFFFF, 0x0, 0x0, 0x0, 0x0, 0⟩,
  ⟨0xB0400, 0x4, 256, 0x0, 1, 0xFFFFFFFF, 0x0, 0x0, 0x0, 0x0, 0x0, 0x0, 0x0, 0x0, 0⟩,
  ⟨0xB0800, 0x10, 16, 0x0, 1, 0x0, 0x0, 0x0, 0xFFFFFFFF, 0x0, 0x0, 0x0, 0x0, 0x0, 2⟩,
  ⟨0xB0804, 0x10, 16, 0x0, 1, 0x0, 0x0, 0x0, 0x0, 0x0, 0xFFFFFFFF, 0x0, 0x0, 0x0, 0⟩,
  ⟨0xB0808, 0x10, 16, 0x0, 1, 0x0, 0x0, 0x0, 0xFFFFFFFF, 0x0, 0x0, 0x0, 0x0, 0x0, 2⟩,
  ⟨0xB080C, 0x10, 16, 0x0, 1, 0x0, 0x0, 0x0, 0x0, 0x0, 0xFFFFFFFF, 0x0, 0x0, 0x0, 0⟩,
  ⟨0xB1000, 0x4, 1024, 0x0, 1, 0xFFFFFFFF, 0x0, 0x0, 0x0, 0x0, 0x0, 0x0, 0x0, 0x0, 0⟩]

/-- The registers of the region at 0xC0000. -/
def rowsPallet : List Row := [
  ⟨0xC0000, 0x40, 64, 0x0, 1, 0x0, 0x0, 0x0, 0x0, 0x0, 0x0, 0x0, 0x0, 0x0, 0⟩,
  ⟨0xC0004, 0x40, 64, 0x0, 1, 0x0, 0x0, 0x0, 0x0, 0xFFFFFFFF, 0x0, 0x0, 0x0, 0x0, 0⟩,
  ⟨0xC0008, 0x40, 64, 0x0, 1, 0x0, 0x0, 0x0, 0x1FF01FF, 0x0, 0x0, 0x0, 0x0, 0x0, 0⟩,
  ⟨0xC000C, 0x40, 64, 0x0, 1, 0x0, 0xF0, 0x0, 0x3, 0x0, 0x0, 0x1, 0x0, 0x0, 0⟩,
  ⟨0xC0010, 0x40, 64, 0x0, 1, 0x0, 0x0, 0x0, 0x0, 0x0, 0x0, 0x0, 0x0, 0x0, 0⟩,
  ⟨0xC1000, 0x0, 1, 0x0, 1, 0x0, 0x0, 0x0, 0xFFFFFFFF, 0x0, 0x0, 0x0, 0x0, 0x0, 2⟩,
  ⟨0xC1004, 0x0, 1, 0x0, 1, 0x0, 0x0, 0x0, 0x0, 0x0, 0xFFFFFFFF, 0x0, 0x0, 0x0, 0⟩,
  ⟨0xC1008, 0x0, 1, 0x0, 1, 0x0, 0x0, 0x0, 0x0, 0xFFFFFFFF, 0x0, 0x0, 0x0, 0x0, 0⟩,
  ⟨0xC1010, 0x0, 1, 0x0, 1, 0x0, 0x0, 0x0, 0x0, 0xFFFFFFFF, 0x0, 0x0, 0x0, 0x0, 0⟩]

/-- The registers of the region at 0x100000. -/
def rowsStreams : List Row := [
  ⟨0x100000, 0x20, 8192, 0x0, 1, 0x7B730FF0, 0x0, 0x0, 0x80000000, 0x0, 0x0, 0x0, 0x0, 0x0, 0⟩,
  ⟨0x100004, 0x20, 8192, 0x0, 1, 0x1F1F01FF, 0x0, 0x0, 0x0, 0x0, 0x0, 0x0, 0x0, 0x0, 0⟩,
  ⟨0x100008, 0x20, 8192, 0x0, 1, 0x3F3F0B00, 0x0, 0x0, 0x0, 0x0, 0x0, 0x0, 0x0, 0x0, 0⟩,
  ⟨0x10000C, 0x20, 8192, 0x0, 1, 0x0, 0x0, 0x0, 0x3F, 0x0, 0x0, 0x0, 0x0, 0x0, 0⟩,
  ⟨0x100010, 0x20, 8192, 0x0, 1, 0x0, 0x0, 0x0, 0xFFFFFFFF, 0x0, 0x0, 0x0, 0x0, 0x0, 2⟩,
  ⟨0x100014, 0x20, 8192, 0x0, 1, 0x0, 0x0, 0x0, 0x0, 0x0, 0xFFFF, 0x0, 0x0, 0x0, 0⟩,
  ⟨0x100018, 0x20, 8192, 0x0, 1, 0x0, 0x0, 0x0, 0xFFFFFFFF, 0x0, 0x0, 0x0, 0x0, 0x0, 2⟩,
  ⟨0x10001C, 0x20, 8192, 0x0, 1, 0x0, 0x0, 0x0, 0x0, 0x0, 0xFFFF, 0x0, 0x0, 0x0, 0⟩]

/-- The registers of the region at 0x200000. -/
def rowsTile : List Row := [
  ⟨0x200000, 0x10000, 24, 0x0, 1, 0x0, 0x0, 0x0, 0xFFFF1F, 0x0, 0x0, 0x111000, 0x1, 0x0, 0⟩,
  ⟨0x200004, 0x10000, 24, 0x0, 1, 0x3F03, 0x0, 0x0, 0x0, 0x0, 0x0, 0x102, 0x0, 0x0, 0⟩,
  ⟨0x200008, 0x10000, 24, 0x0, 1, 0x0, 0x0, 0x0, 0x1FF70F, 0x0, 0x0, 0x10000B, 0x0, 0x0, 0⟩,
  ⟨0x20000C, 0x10000, 24, 0x0, 1, 0xFF, 0x0, 0x0, 0x0, 0x0, 0x0, 0x0, 0x0, 0x0, 0⟩,
  ⟨0x200010, 0x10000, 24, 0x0, 1, 0x1F00FF, 0x0, 0x0, 0x0, 0x0, 0x0, 0x140040, 0x0, 0x0, 0⟩,
  ⟨0x200014, 0x10000, 24, 0x0, 1, 0x0, 0x0, 0x0, 0x1FFFF, 0x0, 0x0, 0x0, 0x0, 0x0, 0⟩,
  ⟨0x200018, 0x10000, 24, 0x0, 1, 0x0, 0x0, 0x0, 0xFFFF, 0x0, 0x0, 0x0, 0x0, 0x0, 0⟩,
  ⟨0x20001C, 0x10000, 24, 0x0, 1, 0x0, 0x0, 0x0, 0xFFFFFFFF, 0x0, 0x0, 0x0, 0x0, 0x0, 0⟩,
  ⟨0x200020, 0x10000, 24, 0x0, 1, 0x0, 0x0, 0x0, 0x0, 0xFFFFFFFF, 0x0, 0x0, 0x0, 0x0, 0⟩,
  ⟨0x200024, 0x10000, 24, 0x0, 1, 0x0, 0x1FF, 0x0, 0x0, 0x0, 0x0, 0x0, 0x0, 0x0, 0⟩,
  ⟨0x200028, 0x10000, 24, 0x0, 1, 0x0, 0x0, 0x0, 0x0, 0xFFFFFFFF, 0x0, 0x0, 0x0, 0x0, 0⟩,
  ⟨0x20002C, 0x10000, 24, 0x0, 1, 0x0, 0x0, 0x0, 0x0, 0x0, 0x0, 0x0, 0x0, 0x0, 0⟩,
  ⟨0x200030, 0x10000, 24, 0x0, 1, 0xFFFF0001, 0x0, 0x0, 0x0, 0x0, 0x0, 0x0, 0x0, 0x0, 0⟩,
  ⟨0x200034, 0x10000, 24, 0x0, 1, 0xFFF, 0x0, 0x0, 0x0, 0x0, 0x0, 0x0, 0x0, 0x0, 0⟩,
  ⟨0x200038, 0x10000, 24, 0x0, 1, 0x0, 0x4, 0x0, 0xFFFFFF03, 0x0, 0x0, 0x0, 0x0, 0x0, 0⟩,
  ⟨0x200040, 0x10000, 24, 0x4, 16, 0x7, 0x0, 0x0, 0x0, 0x0, 0x0, 0x0, 0x0, 0x0, 0⟩,
  ⟨0x200080, 0x10000, 24, 0x4, 16, 0xFFFFFF, 0x0, 0x0, 0x0, 0x0, 0x0, 0x0, 0x0, 0x0, 0⟩,
  ⟨0x2000C0, 0x10000, 24, 0x4, 16, 0xFFFFFF, 0x0, 0x0, 0x0, 0x0, 0x0, 0x800000, 0x0, 0x0, 0⟩,
  ⟨0x200100, 0x10000, 24, 0x4, 16, 0x0, 0x0, 0x0, 0xFFFFFF, 0x0, 0x0, 0x0, 0x0, 0x0, 0⟩,
  ⟨0x200140, 0x10000, 24, 0x4, 16, 0x0, 0x0, 0x0, 0xFFFFFF, 0x0, 0x0, 0x800000, 0x0, 0x0, 0⟩,
  ⟨0x200180, 0x10000, 24, 0x4, 16, 0x0, 0x1, 0x0, 0x1F1F1E, 0x0, 0x0, 0x1F00, 0x0, 0x10000, 0⟩,
  ⟨0x2001C0, 0x10000, 24, 0x4, 16, 0x0, 0x0, 0x0, 0x0, 0xFFFFFFFF, 0x0, 0x0, 0x0, 0x0, 0⟩,
  ⟨0x200200, 0x10000, 24, 0x8, 17, 0x0, 0x0, 0x0, 0xFFFFFF, 0x0, 0x0, 0x0, 0x0, 0x0, 0⟩,
  ⟨0x200204, 0x10000, 24, 0x8, 17, 0x0, 0x0, 0x0, 0xFFFFFF, 0x0, 0x0, 0x800000, 0x0, 0x0, 0⟩,
  ⟨0x200300, 0x10000, 24, 0x4, 8, 0x0, 0x200, 0x0, 0x1FF, 0x0, 0x0, 0x0, 0x0, 0x0, 0⟩,
  ⟨0x201000, 0x10000, 24, 0x0, 1, 0x0, 0x0, 0x0, 0xFFFF1F, 0x0, 0x0, 0x200800, 0x1, 0x0, 0⟩,
  ⟨0x201004, 0x10000, 24, 0x0, 1, 0x0, 0x0, 0x0, 0xF01, 0x0, 0x0, 0x1, 0x0, 0x0, 0⟩,
  ⟨0x201008, 0x10000, 24, 0x0, 1, 0x0, 0x0, 0x0, 0xFFFFFFFF, 0x0, 0x0, 0x0, 0x0, 0x0, 0⟩,
  ⟨0x20100C, 0x10000, 24, 0x0, 1, 0x0, 0x7, 0x0, 0x0, 0x0, 0x0, 0x0, 0x0, 0x0, 0⟩,
  ⟨0x201010, 0x10000, 24, 0x0, 1, 0x0, 0x0, 0x0, 0x0, 0xFFFFFFFF, 0x0, 0x0, 0x0, 0x0, 0⟩,
  ⟨0x201100, 0x10000, 24, 0x40, 8, 0xB73F3700, 0x0, 0x0, 0x0, 0x0, 0x0, 0x10100, 0x0, 0x0, 0⟩,
  ⟨0x201104, 0x10000, 24, 0x40, 8, 0x1FFF, 0x0, 0x0, 0x0, 0x0, 0x0, 0x1, 0x0, 0x0, 0⟩,
  ⟨0x201108, 0x10000, 24, 0x40, 8, 0x1FF01FF, 0x0, 0x0, 0x0, 0x0, 0x0, 0x10001, 0x0, 0x0, 0⟩,
  ⟨0x20110C, 0x10000, 24, 0x40, 8, 0xFFFFFFFF, 0x0, 0x0, 0x0, 0x0, 0x0, 0x0, 0x0, 0x0, 0⟩,
  ⟨0x201110, 0x10000, 24, 0x40, 8, 0xFFFF, 0x0, 0x0, 0x0, 0x0, 0x0, 0x1, 0x0, 0x0, 0⟩,
  ⟨0x201114, 0x10000, 24, 0x40, 8, 0x0, 0x0, 0x0, 0xFFFF0311, 0x0, 0x0, 0x0, 0x0, 0x0, 0⟩,
  ⟨0x201118, 0x10000, 24, 0x40, 8, 0x0, 0x0, 0x0, 0x3FFFFFFF, 0x0, 0x0, 0x800000, 0x0, 0x0, 0⟩,
  ⟨0x201400, 0x10000, 24, 0x20, 32, 0x8307000F, 0x0, 0x0, 0x0, 0x0, 0x0, 0x0, 0x0, 0x0, 0⟩,
  ⟨0x201404, 0x10000, 24, 0x20, 32, 0xFFFF, 0x0, 0x0, 0x0, 0x0, 0x0, 0x0, 0x0, 0x0, 0⟩,
  ⟨0x201408, 0x10000, 24, 0x20, 32, 0xFFFFFFFF, 0x0, 0x0, 0x0, 0x0, 0x0, 0xFFFF0000, 0x0, 0x0, 0⟩,
  ⟨0x20140C, 0x10000, 24, 0x20, 32, 0x0, 0x0, 0x0, 0xFFFFFF, 0x0, 0x0, 0x0, 0x0, 0x0, 0⟩,
  ⟨0x201410, 0x10000, 24, 0x20, 32, 0x0, 0x0, 0x0, 0xFFFFFF, 0x0, 0x0, 0x0, 0x0, 0x0, 0⟩,
  ⟨0x208000, 0x10000, 24, 0x4, 4096, 0xFFFF, 0x0, 0x0, 0x0, 0x0, 0x0, 0x0, 0x0, 0x0, 0⟩,
  ⟨0x20111C, 0x10000, 24, 0x40, 8, 0x0, 0x0, 0x0, 0xFFFFFFFF, 0x0, 0x0, 0x0, 0x0, 0x0, 0⟩,
  ⟨0x201120, 0x10000, 24, 0x40, 8, 0x0, 0x0, 0x0, 0xFFFFFFFF, 0x0, 0x0, 0x0, 0x0, 0x0, 0⟩,
  ⟨0x201124, 0x10000, 24, 0x40, 8, 0x0, 0x0, 0x0, 0xFFFFFFFF, 0x0, 0x0, 0x0, 0x0, 0x0, 0⟩,
  ⟨0x201128, 0x10000, 24, 0x40, 8, 0x0, 0x0, 0x0, 0x0, 0xFFFFFFFF, 0x0, 0x0, 0x0, 0x0, 0⟩,
  ⟨0x20112C, 0x10000, 24, 0x40, 8, 0x0, 0x0, 0x0, 0xFFFFFFFF, 0x0, 0x0, 0x0, 0x0, 0x0, 2⟩,
  ⟨0x201130, 0x10000, 24, 0x40, 8, 0x0, 0x0, 0x0, 0x0, 0x0, 0xFFFF, 0x0, 0x0, 0x0, 0⟩,
  ⟨0x201134, 0x10000, 24, 0x40, 8, 0x0, 0x0, 0x0, 0xFFFFFFFF, 0x0, 0x0, 0x0, 0x0, 0x0, 2⟩,
  ⟨0x201138, 0x10000, 24, 0x40, 8, 0x0, 0x0, 0x0, 0x0, 0x0, 0xFFFF, 0x0, 0x0, 0x0, 0⟩]

/-- The registers of the region at 0x400000. -/
def rowsMason : List Row := [
  ⟨0x430000, 0x40000, 16, 0x0, 1, 0x0, 0x0, 0x0, 0x0, 0x0, 0x0, 0x0, 0x0, 0x0, 0⟩,
  ⟨0x430004, 0x40000, 16, 0x0, 1, 0x0, 0x0, 0x0, 0xF0387, 0x0, 0x0, 0x0, 0x0, 0x0, 0⟩,
  ⟨0x430028, 0x40000, 16, 0x0, 1, 0x0, 0xF, 0x0, 0x0, 0x0, 0x0, 0x0, 0x0, 0x0, 0⟩,
  ⟨0x430008, 0x40000, 16, 0x0, 1, 0xFFFF, 0x0, 0x0, 0x0, 0x0, 0x0, 0x0, 0x0, 0x0, 0⟩,
  ⟨0x43000C, 0x40000, 16, 0x0, 1, 0xFFFF, 0x0, 0x0, 0x0, 0x0, 0x0, 0x0, 0x0, 0x0, 0⟩,
  ⟨0x430010, 0x40000, 16, 0x0, 1, 0x0, 0x0, 0x0, 0xFFFF, 0x0, 0x0, 0x0, 0x0, 0x0, 0⟩,
  ⟨0x430014, 0x40000, 16, 0x0, 1, 0x0, 0x0, 0x0, 0x7, 0x0, 0x0, 0x0, 0x0, 0x0, 0⟩,
  ⟨0x430018, 0x40000, 16, 0x0, 1, 0x0, 0x0, 0x0, 0xFFFFFFFF, 0x0, 0x0, 0x0, 0x0, 0x0, 0⟩,
  ⟨0x43001C, 0x40000, 16, 0x0, 1, 0x0, 0x0, 0xFFFFFFFF, 0x0, 0x0, 0x0, 0x0, 0x0, 0x0, 0⟩,
  ⟨0x430020, 0x40000, 16, 0x0, 1, 0x0, 0x0, 0x0, 0x7F, 0x0, 0x0, 0x0, 0x0, 0x0, 0⟩,
  ⟨0x430024, 0x40000, 16, 0x0, 1, 0x0, 0x0, 0x0, 0x0, 0xFFFFFFFF, 0x0, 0x0, 0x0, 0x0, 0⟩,
  ⟨0x43002C, 0x40000, 16, 0x0, 1, 0x0, 0x0, 0x0, 0x0, 0xFFFFFFFF, 0x0, 0x0, 0x0, 0x0, 0⟩,
  ⟨0x430030, 0x40000, 16, 0x0, 1, 0x0, 0x0, 0x0, 0xFFFF, 0x0, 0x0, 0x0, 0x0, 0x0, 0⟩,
  ⟨0x430038, 0x40000, 16, 0x0, 1, 0x0, 0x0, 0x0, 0xFFFFFFFF, 0x0, 0x0, 0x0, 0x0, 0x0, 2⟩,
  ⟨0x43003C, 0x40000, 16, 0x0, 1, 0x0, 0x0, 0x0, 0x0, 0x0, 0xFFFF, 0x0, 0x0, 0x0, 0⟩,
  ⟨0x430040, 0x40000, 16, 0x0, 1, 0x0, 0x0, 0x0, 0xFFFFFFFF, 0x0, 0x0, 0x0, 0x0, 0x0, 2⟩,
  ⟨0x430044, 0x40000, 16, 0x0, 1, 0x0, 0x0, 0x0, 0x0, 0x0, 0xFFFF, 0x0, 0x0, 0x0, 0⟩]

/-- The regions of the address map (R31) with their registers. -/
def regionRows (a : Nat) : List Row :=
  if a ≤ 0xFFFF then rowsGlobal
  else if a ≤ 0x1FFFF then rowsRpc
  else if a ≤ 0x2FFFF then rowsTime
  else if a ≤ 0x3FFFF then rowsHkc
  else if a ≤ 0x4FFFF then rowsTrig
  else if a ≤ 0x5FFFF then rowsPress
  else if a ≤ 0x6FFFF then rowsYard
  else if a ≤ 0x7FFFF then rowsLog
  else if a ≤ 0x8FFFF then rowsLanes
  else if a ≤ 0x9FFFF then rowsPorts
  else if a ≤ 0xAFFFF then rowsKiln
  else if a ≤ 0xBFFFF then rowsCst
  else if a ≤ 0xCFFFF then rowsPallet
  else if a ≤ 0x13FFFF then rowsStreams
  else if a ≤ 0x37FFFF then rowsTile
  else if a ≤ 0x7FFFFF then rowsMason
  else []

/-- Whether a row holds the register at byte address `a`, and at which index. -/
def Row.idx (r : Row) (a : Nat) : Option (Nat × Nat) :=
  if a < r.base then none
  else
    let d := a - r.base
    let i := if r.n1 = 1 then 0 else d / r.s1
    let e := if r.n1 = 1 then d else d % r.s1
    let j := if r.n2 = 1 then 0 else e / r.s2
    let g := if r.n2 = 1 then e else e % r.s2
    if i < r.n1 ∧ j < r.n2 ∧ g = 0 then some (i, j) else none

/-- The row of the register at byte address `a`, `none` at an unassigned offset (R2). -/
def findRow (rs : List Row) (a : Nat) : Option (Row × Nat × Nat) :=
  match rs with
  | [] => none
  | r :: rs =>
    match r.idx a with
    | some (i, j) => some (r, i, j)
    | none => findRow rs a

/-- The row of the register at byte address `a`. -/
def rowAt (a : Nat) : Option (Row × Nat × Nat) := findRow (regionRows a) a

/-- The value of the register at byte address `a` after POR (the Reset columns of the register tables). -/
def resetWord (a : Nat) : Word :=
  if a = R.QUAD_CTL 0 then 0x11003
  else match rowAt a with
  | some (r, i, j) => BitVec.ofNat 32 (r.rst + r.r1 * i + r.r2 * j)
  | none => 0

end Sys2Proof.Machine
end

