-- ==== Sys2Proof/Machine/Tab.lean ====
section
/-!
DEFINITION. The one sparse table of the model: a list of key and value pairs, keys strictly rising, no entry equal to what an unlisted
key reads as. Registers, memories and the per-block state are all held in it.
-/

namespace Sys2Proof.Machine

/-- A sparse table: keys strictly rising. -/
abbrev Tab (α : Type) := List (Nat × α)

/-- The value at a key; an unlisted key reads as `d`. -/
def Tab.get {α : Type} (d : Nat → α) : Tab α → Nat → α
  | [], k => d k
  | (a, v) :: r, k => if a = k then v else Tab.get d r k

/-- The table without a key. -/
def Tab.del {α : Type} : Tab α → Nat → Tab α
  | [], _ => []
  | (a, v) :: r, k => if a = k then Tab.del r k else (a, v) :: Tab.del r k

/-- The table with an entry put at its place. -/
def Tab.ins {α : Type} : Tab α → Nat → α → Tab α
  | [], k, v => [(k, v)]
  | (a, w) :: r, k, v => if k < a then (k, v) :: (a, w) :: r else if k = a then (k, v) :: r else (a, w) :: Tab.ins r k v

/-- The table with `v` at key `k`: writing what an unlisted key reads as removes the entry. -/
def Tab.set {α : Type} [DecidableEq α] (d : Nat → α) (m : Tab α) (k : Nat) (v : α) : Tab α :=
  if v = d k then Tab.del m k else Tab.ins m k v

/-- Keys strictly rising from a bound, no entry equal to what an unlisted key reads as. -/
def Tab.wfFrom {α : Type} [DecidableEq α] (d : Nat → α) : Nat → Tab α → Bool
  | _, [] => true
  | n, (a, v) :: r => decide (n ≤ a) && decide (v ≠ d a) && Tab.wfFrom d (a + 1) r

/-- The canonical form of a table. -/
def Tab.wf {α : Type} [DecidableEq α] (d : Nat → α) (m : Tab α) : Bool := Tab.wfFrom d 0 m

end Sys2Proof.Machine
end

