-- ==== Sys2Proof/Machine/State.lean ====
section
/-!
DEFINITION. The state of the hub as plain data: its registers, its memories, the hidden state of every block, the queue of waiting
commands, and the state right after reset.

Every register of spec/02 to spec/17 has one home, the table `regs`, keyed by its host byte address; what an unlisted address holds is
`resetWord`, the Reset columns of the register tables. The other fields hold what the spec gives the hub beside its registers.
-/

namespace Sys2Proof.Machine

/-- Why the hub would stop. No command of the table stops it (see NOTES.md, Stops). -/
inductive Fault where
  /-- Raised by no command: kept so that the type of reasons has a member. Safe. -/
  | none
  deriving DecidableEq, Repr

/-- Why the model refuses a command. -/
inductive Refusal where
  /-- A command that has no meaning yet, by its mnemonic. Raised by `exec` alone. Safe. -/
  | notModelled (mnemonic : String)
  deriving DecidableEq, Repr

/-- The completion status codes of R360. -/
inductive Status where
  | ok | busy | length | addr | locked | tableFull | busyTest | nvEnergy | mode | tag | crc | unsupported
  deriving DecidableEq, Repr

/-- The code of a status on the wire, in FL.STATUS and in the status registers (R360). -/
def Status.code : Status → Nat
  | .ok => 0 | .busy => 1 | .length => 2 | .addr => 3 | .locked => 4 | .tableFull => 5
  | .busyTest => 6 | .nvEnergy => 7 | .mode => 8 | .tag => 9 | .crc => 10 | .unsupported => 11

/-- The completion of an access: its status and the words it returns. -/
structure Cpl where
  status : Status
  data : List Word
  deriving DecidableEq, Repr

/-- The hidden state of one tile beside its registers (R48 to R59, R66). All sums and words are in 24-bit word steps. -/
structure Tile where
  /-- The next slice that a rotation takes, 0 to 15 (R48). -/
  nextK : Nat
  /-- PERIOD_LOG2 in force since the last period boundary (R48). -/
  perLog : Nat
  /-- Whether the spare's self-calibration or an aborted hand-in's calibration still runs (R50, R54). -/
  spareCal : Bool
  /-- Slice clocks still to pass before the overlap's first counted sample (16, R50). -/
  ovWait : Nat
  /-- Sample pairs counted in the present overlap, 0 to 256. -/
  ovCount : Nat
  /-- D in the first overlap, E in the second (R50). -/
  ovSum : Int
  /-- The trimmed word of slice k, with its SMPL edge, waiting for the spare's word of the same sample. -/
  ovSlice : Option (Nat × Int)
  /-- The trimmed word of the spare, with its SMPL edge, waiting for slice k's word of the same sample. -/
  ovSpare : Option (Nat × Int)
  /-- The SMPL edge of the sample at which the overlap was last restarted: the other slice's word of it does not count (R52). -/
  ovSkip : Option Nat
  /-- Whether a gain change holds the overlap until UNSETTLED clears (R53). -/
  ovHold : Bool
  /-- 256 r, the sum that the spare's words are corrected by (R50, R55). -/
  rSum : Int
  /-- The slice whose hand-back residual fades, with 256 e and the samples m already faded (R50). -/
  fade : Option (Nat × Int × Nat)
  /-- Whether the present hand-back repeats an aborted one (R55). -/
  repeated : Bool
  /-- Calibrations of the rotation in progress that are complete and not yet counted in TILE_CAL_CNT (R50, R75). -/
  cals : Nat
  /-- Consecutive aborted hand-ins on the next slice (R54). -/
  aborts : Nat
  /-- The linearity trims of slice 0 to 16, as the calibration that produced them left them: no register shows them (R43). -/
  lin : Tab Nat
  /-- The channel words last delivered, by input (R43), which the meters read (R397). -/
  word : Tab Int
  /-- The inputs that an APPLY changed and whose first word with the new values has not come yet, a bit each (R46, R131). -/
  applied : Nat
  /-- The inputs whose last word was clipped, a bit each (R45, R403). -/
  clip : Nat
  /-- The faulty slices that no spare replaces, a bit each (R64). -/
  bad : Nat
  deriving DecidableEq, Repr

/-- A tile after reset. -/
def Tile.init : Tile :=
  { nextK := 0, perLog := 20, spareCal := false, ovWait := 0, ovCount := 0, ovSum := 0, ovSlice := none, ovSpare := none, ovSkip := none, ovHold := false,
    rSum := 0, fade := none, repeated := false, cals := 0, aborts := 0, lin := [], word := [], applied := 0, clip := 0,
    bad := 0 }

/-- One EVENT hod waiting for the primary UP port (R362): its eight words. -/
abbrev EvtHod := List Word

/-! ### Filter engines -/

/-- A disturbance of a channel (R131, R132): it starts at T_a and ends at T_b, or a gain change still holds it open; `why` is the reason of R134. Which
outputs carry SETTLING for it follows from the path's delays. Instants are in units of 1/(5 · 2^32) ns. -/
structure Settle where
  since : Nat
  until_ : Nat
  open_ : Bool
  /-- It came while a run was in progress, which it extends without a gap (R132). -/
  joined : Bool
  why : Nat
  deriving DecidableEq, Repr

/-- One channel of a filter path: the delay lines, integrators and combs of its stages (R117 to R127), newest value first. -/
structure Chan where
  /-- Words received since the last history restart. -/
  count : Nat
  ints : List Nat
  combs : List Nat
  hb1 : List Int
  hb2 : List Int
  fir : List Int
  /-- Outputs of the chain with the active bank: instant, SMPL edge, value. -/
  out : List (Nat × Nat × Int)
  /-- Outputs of the chain with the other bank during a fade, and in the tail of a SYNC that ended one (R136, R138). -/
  out2 : List (Nat × Nat × Int)
  /-- How many of the outputs have come since the last history restart; those before count as zero for the courses that the restart concerns (R130). -/
  since : Nat
  /-- Words of the SCS interval: instant, SMPL edge, value. -/
  scs : List (Nat × Nat × Int)
  /-- How many of them came before the last history restart (R130). -/
  zeros : Nat
  /-- The position of the first course after the restart of a wake (R130). -/
  first : Option Nat
  /-- The disturbances in force, newest first (R131). -/
  wins : List Settle
  /-- The restart of a waking tile still waits for its first word (R130). -/
  held : Bool
  /-- The reason of the SETTLING run in progress, if the latest output carried SETTLING (R132, R134). -/
  run : Option Nat
  deriving DecidableEq, Repr

/-- A channel of a path with zero history. -/
def Chan.init : Chan :=
  { count := 0, ints := [], combs := [], hb1 := [], hb2 := [], fir := [], out := [], out2 := [], since := 0, scs := [], zeros := 0, first := none,
    wins := [], held := false, run := none }

/-- A course that a path still has to output: its position, its instant in units of 1/(5 · 2^32) ns, and its SMPL edge in a MACHINE grid. The
position counts a grid's courses in the order in which they fall, through wraps and SYNCs; its low 48 bits are the course number (R93). -/
structure Due where
  p : Nat
  at_ : Nat
  edge : Nat
  /-- In the tail of an old numbering, its place from the tail's end, from 1; 0 outside a tail (R130). -/
  tail : Nat
  /-- The reason of the tail (R134). -/
  tailWhy : Nat
  /-- The time quality at the course's instant (R85). -/
  q : Nat
  deriving DecidableEq, Repr

/-- A cross-fade of a path (R136, R137): the courses before n_g still to come, the courses of warm-up left, and the blended courses so far. -/
structure Fade where
  pre : Nat
  warm : Nat
  m : Nat
  /-- LEN at the GO. -/
  len : Nat
  deriving DecidableEq, Repr

/-- A filter path's hidden state. -/
structure Path where
  chans : Tab Chan
  due : List Due
  fade : Option Fade
  /-- The fade that a SYNC has ended, as the tail of the old numbering goes on with it, and its phase: 0 not begun, 2 WARM, 3 BLEND, 4 over (R138). -/
  tail : Option (Fade × Nat)
  /-- Channels without a record of their own wait for the first word after a wake (R130). -/
  held : Bool
  deriving DecidableEq, Repr

/-- An idle path. -/
def Path.init : Path := { chans := [], due := [], fade := none, tail := none, held := false }

/-- An output of a detector: its window's first course, the courses covered, its last course's position, DET_VAL and DET_VAL2, SETTLING with the reason of its run, and the
quality of its last course. -/
structure DetOut where
  first : Nat
  count : Nat
  p : Nat
  v1 : Int
  v2 : Int
  settling : Bool
  why : Nat
  q : Nat
  deriving DecidableEq, Repr

/-- A detector's hidden state (R140, R141). -/
structure Det where
  first : Nat
  count : Nat
  p : Nat
  hi : Int
  lo : Int
  sq : Nat
  /-- The envelope, 16 fraction bits. -/
  env : Nat
  settling : Bool
  why : Nat
  q : Nat
  /-- A history restart lets the next window open at whatever course comes (R141). -/
  anew : Bool
  /-- Outputs computed and not yet released by DETECT_OUTPUT, oldest first. -/
  ready : List DetOut
  deriving DecidableEq, Repr

/-- A detector before its first course. -/
def Det.init : Det := { first := 0, count := 0, p := 0, hi := 0, lo := 0, sq := 0, env := 0, settling := false, why := 0, q := 3, anew := false, ready := [] }

/-! ### Triggers and the window store -/

/-- A value a trigger unit still has to evaluate: its course's position, the value, SETTLING, the time quality, and whether it is the
first value since the source became active again (R149). -/
structure TuVal where
  p : Nat
  x : Int
  settling : Bool
  q : Nat
  fresh : Bool
  deriving DecidableEq, Repr

/-- An accepted trigger that the group has not evaluated yet: its course's position, whether an edge fired, and the time quality. -/
structure Hit where
  p : Nat
  edge : Bool
  q : Nat
  deriving DecidableEq, Repr

/-- A trigger unit's hidden state (R148 to R153). Courses are positions. -/
structure Tu where
  /-- Values waiting for evaluation, oldest first. -/
  vals : List TuVal
  /-- The course the unit has evaluated last. -/
  done : Option Nat
  /-- n_a: the course of the last accepted trigger, or of the first course evaluated (R153). -/
  na : Option Nat
  /-- The course of the last accepted trigger, for holdoff (R152). -/
  trig : Option Nat
  /-- Accepted triggers that the group has not evaluated yet. -/
  hits : List Hit
  /-- The source has become active again, and no value has come since (R149). -/
  anew : Bool
  /-- The first course to which TU_AUTO and TU_HOLDOFF as written apply (R151). -/
  autoFrom : Nat
  deriving DecidableEq, Repr

/-- A trigger unit before its first course. -/
def Tu.init : Tu := { vals := [], done := none, na := none, trig := none, hits := [], anew := false, autoFrom := 0 }

/-- A trigger group's hidden state (R155 to R161). Courses are positions. -/
structure Tg where
  /-- The course evaluated last. -/
  done : Option Nat
  /-- The earliest course held since the store was last emptied (R160). -/
  ne : Option Nat
  /-- The windows, first and last course, newest first (R160). -/
  wins : List (Nat × Nat)
  /-- The pending suppressed count, as the MARK field keeps it (R152, R164). -/
  supp : Nat
  deriving DecidableEq, Repr

/-- A group without a window. -/
def Tg.init : Tg := { done := none, ne := none, wins := [], supp := 0 }

/-- A course of a stream on its way to the reducer, or held in the window store: position, value, SETTLING with its reason, quality, and
the reason of its loss where it carries no value (0: it carries one; R64, R158). -/
structure Held where
  p : Nat
  x : Int
  settling : Bool
  why : Nat
  q : Nat
  gap : Nat
  deriving DecidableEq, Repr

/-! ### Records, hods and the yard -/

/-- A record: its words, header first, its first course (48 bits), and the courses it covers (none for MARK, TDISC, METER and STAT). -/
structure Rec where
  words : List Word
  first : Nat
  cover : Nat
  deriving DecidableEq, Repr

/-- The record that a packer is filling (R255, R258): its type (1 SAMPLES, 2 DELTA), the course of its first value, the courses it covers,
its values oldest first (for DELTA the value and the tag of each entry), and what its header says. -/
structure Cur where
  typ : Nat
  first : Nat
  cover : Nat
  vals : List (Int × Nat)
  settling : Bool
  inWin : Bool
  fb : Bool
  q : Nat
  dec : Nat
  dmode : Nat
  cw : Bool
  w16 : Bool
  deriving DecidableEq, Repr

/-- A hod being assembled (R263, R292): its stream, COURSE_L, closed records, the open record of a tile's packer, the cursor of R254, and
the time of its opening by `State.cyc`. -/
structure Open where
  sid : Nat
  course : Nat
  recs : List Rec
  cursor : Nat
  opened : Nat
  deriving DecidableEq, Repr

/-- A hod handed on and not yet admitted (R266, R296): the records it stands for, and its payload after YSEQ and COURSE_L, which a press
engine still has to code where `engine` is given, with the predictor as PC_CTL set it while the block was filled (R293). -/
structure Handed where
  sid : Nat
  course : Nat
  recs : List Rec
  engine : Option Nat
  pressed : Bool
  body : List Word
  cut : Bool
  pred : Bool
  deriving DecidableEq, Repr

/-- A hod of a ring (R268): YSEQ, SID, PRESSED, payload words, offset and bytes in the ring, whether it has been sent, and the courses it covers. -/
structure RHod where
  yseq : Nat
  sid : Nat
  pressed : Bool
  len : Nat
  off : Nat
  size : Nat
  sent : Bool
  deriving DecidableEq, Repr

/-- A ring: its hods from the rewind mark on (R270), and its write point as an offset. -/
structure Ring where
  hods : List RHod
  wr : Nat
  deriving DecidableEq, Repr

/-- A run of lost courses: first course, courses, REASON, quality, DROPPED (R259, R277). -/
structure GRun where
  first : Nat
  count : Nat
  reason : Nat
  q : Nat
  dropped : Bool
  deriving DecidableEq, Repr

/-- A stream's hidden state: its reducer (R167 to R171), its open record, its runs, and the records the hub still has to place in it. -/
structure Str where
  cur : Option Cur
  /-- v_s and the course of the last stored entry (R167). -/
  ref : Option (Int × Nat)
  /-- The next value starts after a break (R169). -/
  brk : Bool
  /-- The position of the first course after a SYNC, whose break is still to come (R169). -/
  sync : Option Nat
  /-- The position of the first course at which the stream is active (R163). -/
  since : Nat
  /-- The profile the reducer uses: fallback or normal (R171). -/
  fb : Bool
  /-- The last course handled lay in a keep window. -/
  inWin : Bool
  /-- The open MEAN block: its number, courses so far, their sum, SETTLING (R170). -/
  blk : Option (Nat × Nat × Int × Bool)
  /-- The open run of lost courses of reason 1 or 2 (R64, R191). -/
  lost : Option GRun
  /-- The open muted SETTLE run: first course, courses, reason, quality (R134). -/
  mute : Option (Nat × Nat × Nat × Nat)
  /-- MARK and TDISC records waiting for their course, by its position (R163, R261). -/
  ins : List (Nat × Rec)
  /-- Courses held in the window store, oldest first (R158). -/
  held : List Held
  /-- The course that the reducer handled last. -/
  last : Option Held
  deriving DecidableEq, Repr

/-- A stream that has handled nothing since its activation. -/
def Str.init : Str :=
  { cur := none, ref := none, brk := true, sync := none, since := 0, fb := false, inWin := false, blk := none, lost := none, mute := none, ins := [], held := [], last := none }

/-! ### Masons and pallet queues -/

/-- A mason's state beside its control registers (R184, R190, R192, R198, R199). -/
structure Mason where
  /-- g0 to g31; g0 has no entry (R223). -/
  g : Tab Word
  /-- The lanes of v0 to v7, by 16 × register + lane. -/
  v : Tab Word
  pc : Nat
  /-- FL as a word (R224). -/
  fl : Nat
  /-- The special registers that hold what a program writes, by number (R247). -/
  sr : Tab Word
  /-- Packets waiting, oldest first: four header words and sixteen lanes (R189). -/
  inbox : List (List Word)
  /-- Packets lost since the last one delivered to the inbox (R189). -/
  lost : Nat
  /-- There was a packet before, and it was delivered (R191). -/
  delivered : Bool
  /-- The open hods by slot (R192). -/
  slots : Tab (Option Open)
  /-- When the last evt was, by `State.cyc` (R198). -/
  evtAt : Option Nat
  /-- The wait in progress: its sources, when TIMER expires by `State.cyc`, and the base register of its result (R199). -/
  wait : Option (Nat × Nat × Nat)
  /-- A HALT that waits for the instruction boundary (R186). -/
  haltReq : Bool
  deriving DecidableEq, Repr

/-- A mason after reset. -/
def Mason.init : Mason :=
  { g := [], v := [], pc := 0, fl := 0, sr := [], inbox := [], lost := 0, delivered := false, slots := [], evtAt := none, wait := none,
    haltReq := false }

/-- A pallet queue (R211 to R216): committed words oldest first, the open item with its tag, whether an orphan CLOSE is awaited, and the
word a pop returned last. -/
structure Pq where
  words : List Word
  item : Option (Nat × List Word)
  orphan : Bool
  last : Word
  deriving DecidableEq, Repr

/-- An empty queue. -/
def Pq.init : Pq := { words := [], item := none, orphan := false, last := 0 }

/-- A grid's hidden state (R86 to R95). -/
structure Grid where
  /-- The held SYNC instant, in units of `st` (R88). -/
  sync : Option Nat
  /-- The SYNC instant of a MACHINE grid whose course 0 has still to fall, in units of `st` (R92). -/
  at0 : Option Nat
  /-- The number of the next course. -/
  next : Nat
  /-- The instant of the last GRID_MSTAMP capture since the last SYNC, in units of 1/(5 · 2^32) ns (R97). -/
  cap : Option Nat
  /-- The last capture interval departed from the nominal one by more than 100 ppm (R97). -/
  drift : Bool
  /-- The number of the course before course 0 of the present numbering (R88, R242). -/
  prev : Nat
  /-- The SMPL edge of course 0 of a MACHINE grid (R92). -/
  edge0 : Nat
  /-- The position of course 0 of the present numbering, a multiple of 2^48. -/
  base : Nat
  /-- The time quality of the grid's courses, newest first: from which position on it holds (R85, R164). -/
  quals : List (Nat × Nat)
  /-- The steps of ST since the last course of a MACHINE grid, oldest first, with the streams that get a TDISC record at the next one (R261, R384). -/
  steps : List (Int × List Nat)
  /-- The latest history restarts of the grid's paths by a SYNC or a re-lock, newest first: the position of the first course after each, and its reason
  (R130, R134). -/
  anew : List (Nat × Nat)
  deriving DecidableEq, Repr

/-- A stopped grid. -/
def Grid.init : Grid :=
  { sync := none, at0 := none, next := 0, cap := none, drift := false, prev := 2 ^ 48 - 1, edge0 := 0, base := 0, quals := [],
    steps := [], anew := [] }

/-- The sampling clock (R39, R92, R97, R98, R123): the common count's edge `edge` fell at the instant `at_`, in units of 1/(5 · 2^32) ns, with the phase
interpolator `disp` steps from its zero, whole turns counted in. -/
structure Smpl where
  edge : Nat
  at_ : Int
  disp : Int
  /-- The frequency that the VCO holds in holdover, in Hz (R98). -/
  hold : Nat
  /-- When it began to hold, by `State.cyc` (R98). -/
  since : Nat
  /-- The last SYNC instant that started a MACHINE grid, in units of `st`, and the SMPL edge of its course 0 (R89). -/
  sync : Option (Nat × Nat)
  deriving DecidableEq, Repr

/-- The root's inputs and the second pulse (R99 to R101). -/
structure Pps where
  /-- The last accepted PPS_IN edge, by `State.cyc`. -/
  last : Option Nat
  /-- From when the 1.1 s without an accepted edge count, by `State.cyc`: the last accepted edge, the write that made the hub a root, or the start of
  ST. -/
  from_ : Nat
  /-- Consecutive accepted edges. -/
  run : Nat
  /-- The 1.1 s without an accepted edge have passed. -/
  missed : Bool
  /-- The seconds of the valid time-of-day message since the last accepted edge. -/
  tod : Option Nat
  /-- Consecutive accepted edges with a valid message before each. -/
  todRun : Nat
  /-- PPS_OUT is high, and when it rose, by `State.cyc`. -/
  out : Option Nat
  /-- The last second that PPS_OUT marked. -/
  mark : Option Nat
  deriving DecidableEq, Repr

/-- Before any edge. -/
def Pps.init : Pps := { last := none, from_ := 0, run := 0, missed := false, tod := none, todRun := 0, out := none, mark := none }

/-- A pending step (R383): its instant, and Δ in units of `st` where it was given; a measured one is taken at the instant. -/
structure Step1 where
  at_ : Nat
  given : Option Int
  deriving DecidableEq, Repr

/-- A port's time exchange (R374 to R376). -/
structure Xchg where
  /-- The next T_REQ's number. -/
  tsid : Nat
  /-- The last T_REQ sent: its number and t1. -/
  sent : Option (Nat × Nat)
  /-- The parent's and this hub's step counts at the previous matching T_RESP. -/
  steps : Option (Nat × Nat)
  /-- When a T_REQ was last answered on the port, by `State.cyc`. -/
  answered : Option Nat
  deriving DecidableEq, Repr

/-- A port before any exchange. -/
def Xchg.init : Xchg := { tsid := 0, sent := none, steps := none, answered := none }

/-- The servo's hidden state (R380 to R389); offsets and round trips in units of 1/65,536 ns. -/
structure Servo where
  /-- F in units of 2^-40. -/
  f : Int
  /-- Consecutive measurements with |θ| ≥ STEP_LIMIT, below it, below LOCK_THR, above 4 × LOCK_THR. -/
  big : Nat
  small : Nat
  under : Nat
  above : Nat
  theta : Option Int
  /-- When the last valid measurement arrived, by `State.cyc`. -/
  measAt : Option Nat
  /-- The last 16 offsets and round trips of the primary port, newest first. -/
  offs : List Int
  rtts : List Int
  /-- The last 16 offsets of the second port, newest first. -/
  offs2 : List Int
  /-- The last 16 offsets of the second port while in LOCK with that parent LOCKED (R389). -/
  ref2 : List Int
  /-- QUALITY of the second parent's latest T_RESP. -/
  q2 : Nat
  /-- Whether RTT_REF has been set (R388). -/
  refSet : Bool
  /-- Measurements since RTT_REF was last considered, and whether one of them departed from it (R388). -/
  refCnt : Nat
  refDev : Bool
  /-- Consecutive RTTs that departed from RTT_REF (R388). -/
  dev : Nat
  /-- Valid measurements on each port since the route change (R389). -/
  cnt1 : Nat
  cnt2 : Nat
  /-- The primary port retrained, or an RTT departed, since COAST began (R381). -/
  coastDev : Bool
  /-- A step was applied since the servo was last in LOCK (R382). -/
  stepped : Bool
  /-- The correction being slewed. -/
  pend : Option Step1
  deriving DecidableEq, Repr

/-- The servo after reset. -/
def Servo.init : Servo :=
  { f := 0, big := 0, small := 0, under := 0, above := 0, theta := none, measAt := none, offs := [], rtts := [], offs2 := [], ref2 := [], q2 := 3,
    refSet := false, refCnt := 0, refDev := false, dev := 0, cnt1 := 0, cnt2 := 0, coastDev := false, stepped := false, pend := none }

/-- A lane's hidden state (R316 to R328). -/
structure Lane where
  /-- The transmitter is in electrical idle for the back-off (R328). -/
  quiet : Bool
  /-- Consecutive training sets counted in the present state, and the kind of fillers counted in ALIGN (R327). -/
  n : Nat
  inv : Bool
  /-- Consecutive sets with another RATE code, and with the same role (R326). -/
  badRate : Nat
  badRole : Nat
  /-- What the last set read in ORDER said: port lane index, width, NARROW_OK, SEL (R321, R323). -/
  idx : Option Nat
  width : Nat
  narrow : Bool
  sel : Bool
  /-- The lane has converged, and its sets carry DONE; one such set has been sent; consecutive sets received with DONE (R327). -/
  done : Bool
  doneTx : Bool
  doneCnt : Nat
  /-- Consecutive grout sets that missed their place (R318). -/
  miss : Nat
  /-- The elastic buffer waits for a grout set to restart at (R317). -/
  slipped : Bool
  /-- Grout sets sent since the lane left electrical idle (R315). -/
  grout : Nat
  /-- The transmitter's running disparity is negative (R312). -/
  txNeg : Bool
  /-- The running disparity of the groups received from the lane's own transmitter in a near-end loopback is negative (R332). -/
  rxNeg : Bool
  /-- Words sent since the last grout set, or since the lane left electrical idle, 0 to 255 (R315). -/
  slot : Nat
  /-- What is left to send of a training set, or of a set of rich idle, begun (R319, R321). -/
  part : List Sym
  /-- Training sets with STATE UP still to send before idle and hods (R327). -/
  upTs : Nat
  /-- The register of rich idle; 0 before the first (R319). -/
  idle : Nat
  /-- The 10-bit groups that the transmitter has sent since, and with, the words up to its last GROUT_SEND; in a far-end loopback, those it sent back last
  (R312, R332). -/
  tx : List (BitVec 10)
  /-- The symbols by which the lane's last lane marker or grout set came after the earliest lane's (R324). -/
  late : Nat
  /-- SEL as the DOWN end sends it (R325). -/
  selTx : Bool
  /-- The comma's position in the word at the last training set of ALIGN (R327). -/
  pos : Nat
  deriving DecidableEq, Repr

/-- A lane that does not train. -/
def Lane.init : Lane :=
  { quiet := false, n := 0, inv := false, badRate := 0, badRole := 0, idx := none, width := 0, narrow := false, sel := false, done := false,
    doneTx := false, doneCnt := 0, miss := 0, slipped := false, grout := 0, txNeg := true, rxNeg := true, slot := 0, part := [], upTs := 0,
    idle := 0, tx := [], late := 0, selTx := false, pos := 0 }

/-- A hod that waits for a port: its credit class on the hop, the port whose buffer it holds, the events queued before it that go first, and the hod
(R348, R349). -/
structure Wait where
  cls : Nat
  from_ : Option Nat
  ahead : Nat
  hod : Hod
  deriving DecidableEq, Repr

/-- A request accepted on a port that has not taken effect (R348, R357, R358): its TYPE (1 REQ, 6 HORIZON, 7 REWIND, 8 PROGRAM), OP and TAG, and whether
it still holds a buffer of the port's present link. -/
structure Reqd where
  typ : Nat
  op : Nat
  tag : Nat
  held : Bool
  deriving DecidableEq, Repr

/-- The pattern generator and checker of a quad (R333 to R335): the generator's register, the part of a word's time that has passed in units of 0.1 ns,
the injections that wait, the bits of a burst still to invert, and the checker. -/
structure Prbs where
  gen : Nat
  phase : Nat
  inject : List Nat
  burst : Nat
  chk : Chk
  deriving DecidableEq, Repr

/-- Before GEN_EN and CHK_EN. -/
def Prbs.init : Prbs := { gen := 0, phase := 0, inject := [], burst := 0, chk := Chk.init }

/-- A port's link layer beside its registers (R342 to R349). -/
structure Port where
  /-- A LINK hod has been received since UP (R348). -/
  gotLink : Bool
  /-- SENT and the partner's LIMIT, and the buffers freed since UP, by class (R348). -/
  sent : Tab Nat
  lim : Tab Nat
  freed : Tab Nat
  /-- Hods of a class accepted since UP, for the credit that is withheld (R26). -/
  taken : Nat
  /-- Sequenced hods sent and not acknowledged, oldest first (R342). -/
  replay : List Hod
  /-- Resends in a row that left the oldest entry unacknowledged (R346). -/
  fails : Nat
  /-- A NAK has been sent and no hod accepted since (R343). -/
  nakSent : Bool
  /-- Hods accepted since the last LINK hod was sent (R344). -/
  unacked : Nat
  /-- Hods that wait to be sent, oldest first (R349). -/
  waiting : List Wait
  /-- Requests accepted that have not taken effect, oldest first (R357, R358). -/
  reqs : List Reqd
  /-- Of VC2 and VC3 the port sent VC3 last (R349). -/
  last3 : Bool
  /-- Relaying on the port has stopped (R22). -/
  conflict : Bool
  /-- The hod that the port sent last. -/
  lastTx : Option Hod
  deriving DecidableEq, Repr

/-- A port that is not UP. -/
def Port.init : Port :=
  { gotLink := false, sent := [], lim := [], freed := [], taken := 0, replay := [], fails := 0, nakSent := false, unacked := 0, waiting := [],
    reqs := [], last3 := false, conflict := false, lastTx := none }


/-- A meter's hidden state (R400 to R405). Its cumulative registers and its record number are in the register table. -/
structure Meter where
  /-- The start of the interval in progress, as ST; none while the meter does not sample. -/
  start : Option Nat
  /-- Samples of the interval. -/
  n : Nat
  sv : Int
  svv : Int
  si : Int
  sii : Int
  sp : Int
  clips : Nat
  missing : Bool
  failed : Bool
  /-- The highest QUALITY code of the interval. -/
  q : Nat
  /-- The partition has been sealed since the interval's start. -/
  sealed : Bool
  /-- MSEQ of the next record. -/
  next : Nat
  /-- The next record carries RESTORED. -/
  restored : Bool
  /-- The carried import and export remainders. -/
  rimp : Nat
  rexp : Nat
  /-- Records waiting for the carrier, oldest first. -/
  buf : List (List Word)
  deriving DecidableEq, Repr

/-- A meter that has never been enabled. -/
def Meter.init : Meter :=
  { start := none, n := 0, sv := 0, svv := 0, si := 0, sii := 0, sp := 0, clips := 0, missing := false, failed := false, q := 0, sealed := false,
    next := 0, restored := false, rimp := 0, rexp := 0, buf := [] }

/-- A legally relevant change that comes into force once the save of its parameter slot is complete (R407): an APPLY with the words of the set, whether
it clears the cumulative registers, and the VHOLD value for the saves that follow; a switch to a firmware copy; an image, with the boot image that
it is, where it is one. -/
inductive CsPend where
  | set (words : List Word) (clear : Bool) (vh : Nat)
  | firmware (copy : Bool)
  | image (bytes : List Byte) (boot : Option Bool) (vh : Nat)
  deriving DecidableEq, Repr

/-- An MRAM batch in progress (R442 to R444): its target (0 and 1 the option copies, 2 and 3 the boot images, 4 the kiln record, 5
a parameter slot, 6 an energy slot, 7 a firmware block), its first byte and its rows. -/
structure Batch where
  writer : Nat
  addr : Nat
  rows : List (List Byte)
  deriving DecidableEq, Repr

/-- The load session of PROGRAM hods (R207): LEN, COMP, and the staged words written since BEGIN. -/
structure Prog where
  len : Nat
  comp : Bool
  words : Tab (Option Word)
  deriving DecidableEq, Repr

/-- The management port (R415 to R418): the request in progress (its command byte, word address and data), the result that waits, the last
result, the reject that waits, whether the next response repeats the last result, the response in the shift register, and whether MSCS_N is low. -/
structure Mgp where
  pend : Option (Nat × Nat × Nat)
  res : Option (List Byte)
  last : Option (List Byte)
  rej : Option Nat
  rep : Bool
  shift : List Byte
  sel : Bool
  deriving DecidableEq, Repr

/-- An idle port. -/
def Mgp.init : Mgp := { pend := none, res := none, last := none, rej := none, rep := false, shift := [], sel := false }

/-- The guard scan's memory of the conversion before, a bit each: temperatures above the trip level, those whose event has been given, temperatures
above TWARN, those whose warning has been given, and supplies out of their window, with the input that it converts next (R427); and whether the run in
progress has converted its last entry (R428), and whether a write of EN = 0 ends it after the conversion in progress (R430). -/
structure Hk where
  hot : Nat
  tripped : Nat
  warm : Nat
  warned : Nat
  sup : Nat
  next : Nat
  done : Bool
  ending : Bool
  deriving DecidableEq, Repr

/-- Before any conversion. -/
def Hk.init : Hk := { hot := 0, tripped := 0, warm := 0, warned := 0, sup := 0, next := 0, done := false, ending := false }

/-- The state of the hub. -/
structure State where
  /-- Every register of the host-visible map, by byte address (R31); unlisted: its reset value. -/
  regs : Tab Word
  /-- The bytes of IMEM, DMEM and the yard's DRAM, by host byte address (R31, R184, R266); unlisted: zero. -/
  mem : List Host.Cell
  /-- The bytes of the MRAM; unlisted: 0xFF, as it leaves the factory (R446). The addresses are the model's (notes/assumptions/3.md). -/
  nvm : List Host.Cell
  /-- The byte addresses of words whose storage holds an uncorrectable error that a scrub or a read has found, rising (R74, R280, R480). -/
  bad : List Nat
  /-- The shadows of the multi-word values, by requester and byte address (R106). -/
  shadows : Tab Word
  /-- The completion of the last access. -/
  cpl : Cpl
  /-- The commands that wait, first in, first out. -/
  pending : List Instr
  /-- The model's own: how many free values the run has drawn so far (notes/assumptions/4.md). -/
  free : Nat
  /-- VDD_AON stands above its power-on level (R437). -/
  aon : Bool
  /-- Main power is good: every main rail has been above its power-good level for 100 µs (R436). -/
  pgood : Bool
  /-- The main rails that the brown-out monitor sees below their level, a bit each, in the order of PWR_STAT (R437, R485). -/
  brown : Nat
  /-- VBAT has not been lost since VDD_AON was last there (R102). -/
  vbat : Bool
  /-- RST_N is held low, and the hub is in reset (R439). -/
  rstLow : Bool
  /-- The internal scan chains are connected and every clock but TCK stands still (R476). -/
  scan : Bool
  /-- System time, in units of 1/65,536 ns (R77). -/
  st : Nat
  /-- The time that SYS has counted, in the units of `st`: no load and no step of ST moves it (R82, R385). -/
  cyc : Nat
  /-- The RTC, in units of 2^-15 s (R102). -/
  rtc : Nat
  /-- EVENT hods waiting for the primary UP port, oldest first (R363). -/
  evtq : List EvtHod
  /-- Events not sent since the previous EVENT hod (R362). -/
  evtDropped : Nat
  /-- The kind and index of the block under an on-demand kiln test (R473). -/
  kilnTest : Option (Nat × Nat)
  /-- The registers of the block under test as they read when the test or its segment started (R419, R474). -/
  snap : Tab Word
  /-- The hidden state of the tiles, by tile. -/
  tiles : Tab Tile
  /-- The filter paths' hidden state, by 8 × tile + path (R111). -/
  paths : Tab Path
  /-- The detectors' hidden state, by 32 × tile + detector (R139). -/
  detsH : Tab Det
  /-- The trigger units' hidden state (R145). -/
  tus : Tab Tu
  /-- The trigger groups' hidden state (R154). -/
  tgs : Tab Tg
  /-- The streams' hidden state, by SID (R175). -/
  strs : Tab Str
  /-- The open hods of the 24 tile packers, and of the output buffers of the four compress engines at 100 to 103, oldest first (R263, R292). -/
  packs : Tab (List Open)
  /-- Hods handed on and not yet admitted or refused, in the order of hand-on (R266, R269). -/
  handed : List Handed
  /-- The yard's rings, by port (R267). -/
  rings : Tab Ring
  /-- The open GAP run of reason 0 of each stream, in the gap reserve (R277). -/
  runs : Tab (Option GRun)
  /-- The records kept in the gap reserve with their SID, in the order in which they were kept (R276, R277). -/
  kept : List (Nat × Rec)
  /-- The SIDs whose next runs carry DROPPED, since the reserve discarded a record of theirs, rising (R277). -/
  lossy : List Nat
  /-- The drain after leaving ACQUIRE runs (R269). -/
  draining : Bool
  /-- Streams whose class has resumed and whose reserve hods are not written yet, with their port (R278). -/
  resumed : List (Nat × Nat)
  /-- The masons' state, by mason (R184). -/
  masons : Tab Mason
  /-- The pallet queues, by queue (R211). -/
  pqs : Tab Pq
  /-- The records of hput in the crossing FIFO into the shared packer, oldest first: the millionths of a word still to cross, and the compress engine of a
  pressed stream, whose reserved rate they cross at (R193, R287). -/
  hputs : List (Nat × Option Nat)
  /-- The course grids' hidden state (R86). -/
  grids : Tab Grid
  /-- The sampling clock (R96, R97). -/
  smpl : Smpl
  /-- PPS_IN, TOD_RX and PPS_OUT (R99 to R101). -/
  pps : Pps
  /-- The time servo (R380). -/
  servo : Servo
  /-- The ports' time exchanges (R374). -/
  xchg : Tab Xchg
  /-- The ports' transmit time-stamp queues, oldest first: EXCH, TSID, stamp (R378). -/
  tsq : Tab (List (Bool × Nat × Nat))
  /-- The part of an RTC step that has passed, in units of 2^-15 ns (R102). -/
  rtcPhase : Nat
  /-- What the RTC takes at its next step instead of counting (R103, R104). -/
  rtcLoad : Option Nat
  /-- The TRIGIO pulses in progress: when each ball's pulse ends, by `State.cyc`, by ball (R496). -/
  pulses : Tab (Option Nat)
  /-- The lanes' hidden state (R316 to R328). -/
  lanes : Tab Lane
  /-- The ports' link layers (R342 to R352). -/
  ports : Tab Port
  /-- The pattern generators and checkers, by quad (R333 to R335). -/
  prbs : Tab Prbs
  /-- The release step that runs, 2 to 9; 1 while the release waits for main power good; 10 after step 9 while WAIT_PORT or WAIT_TIME holds the hub in BRINGUP; 0 while no release runs (R453). -/
  rel : Nat
  /-- The release follows a wake from DORMANT and not a reset (R453). -/
  relWake : Bool
  /-- The release ends in SAFE, with this detail of event 0x0103 (R448, R472). -/
  safeNext : Option Nat
  /-- The MRAM batch in progress (R444). -/
  nv : Option Batch
  /-- Whose request the batch in progress holds open: a port's below 16, or the management port's, 16 (R358, R418). -/
  owed : Option Nat
  /-- The change that the parameter slot being saved carries (R407). -/
  csPend : Option CsPend
  /-- The cornerstone is to restore its state as soon as its clock runs (R410). -/
  csWait : Bool
  /-- A save of the energy slot that waits for the batch in progress, by the meter whose interval ended last (R401, R444). -/
  enDue : Option Nat
  /-- The digests of the LEGAL images in the identity, by mason (R409). -/
  csDig : Tab (List Byte)
  /-- An uncorrectable error has stopped metering (R411). -/
  csStop : Bool
  /-- The secrets that the cornerstone keeps in SRAM: its key copies, its HMAC and SHA-256 working state, and its session values (R476). -/
  secret : List Byte
  /-- The meters' hidden state (R396 to R405). -/
  meters : Tab Meter
  /-- The load session (R207). -/
  prog : Option Prog
  /-- The management port (R414 to R418). -/
  mgp : Mgp
  /-- The guard scan (R427). -/
  hk : Hk
  /-- The SHA-256 of the boot image installed at the last bring-up; empty where none was (R470). -/
  bootSha : List Byte
  /-- The tiles' fault maps of the kiln record that this bring-up read with a valid CRC (R472). -/
  recMaps : Tab Nat
  /-- The words of the kiln record that release step 7 has read, while the batch that clears the record is in progress (R471). -/
  kilnWords : List Nat
  /-- The instruction in the test access port's instruction register (R498). -/
  tap : Nat
  /-- What the boundary-scan cells have captured from the balls (R498). -/
  bsrIn : BitVec 1472
  /-- What the boundary-scan cells hold for the balls (R498). -/
  bsrOut : BitVec 1472
  /-- Every segment of the shutdown kiln has run, and the record is still to be written (R468). -/
  kilnEnd : Bool
  deriving DecidableEq, Repr

/-- The hub right after a POR, with a blank MRAM and the release of R453 about to begin: every register at the value its table gives, and
the values that the option record gives at their factory defaults (notes/assumptions/2.md). -/
def State.reset : State :=
  { regs := [], mem := [], nvm := [], bad := [], shadows := [], cpl := ⟨.ok, []⟩, pending := [], free := 0, aon := true, pgood := false, brown := 0x3F, vbat := true, rstLow := false,
    scan := false, st := 0, cyc := 0, rtc := 0, evtq := [], evtDropped := 0, kilnTest := none, snap := [], tiles := [],
    paths := [],
    detsH := [],
    tus := [],
    tgs := [],
    strs := [],
    packs := [],
    handed := [],
    rings := [],
    runs := [],
    kept := [],
    lossy := [],
    draining := false,
    resumed := [],
    masons := [],
    pqs := [],
    hputs := [],
    grids := [],
    smpl := ⟨0, 0, 0, 5000000000, 0, none⟩,
    pps := Pps.init,
    servo := Servo.init,
    xchg := [],
    tsq := [],
    rtcPhase := 0,
    rtcLoad := none,
    pulses := [],
    lanes := [],
    ports := [],
    prbs := [],
    rel := 1,
    relWake := false,
    safeNext := none,
    nv := none,
    owed := none,
    csPend := none,
    csWait := false,
    enDue := none,
    csDig := [],
    csStop := false,
    secret := [],
    meters := [],
    prog := none,
    mgp := Mgp.init,
    hk := Hk.init,
    bootSha := [],
    recMaps := [],
    kilnWords := [],
    tap := 2,
    bsrIn := 0,
    bsrOut := 0,
    kilnEnd := false }

end Sys2Proof.Machine
end

