-- ==== Sys2Proof/Machine/Ops.lean ====
section
/-!
DEFINITION. The operations every command is written with: reading and writing a register and a field, the memories, the completion of an
access, the access checks of the register space, raising an event, and the free values.
-/

namespace Sys2Proof.Machine

/-! ### Registers and fields -/

/-- The word a register holds. -/
def State.w (s : State) (a : Nat) : Word := Tab.get resetWord s.regs a

/-- The hub with a register holding `v`. -/
def State.setW (s : State) (a : Nat) (v : Word) : State := { s with regs := Tab.set resetWord s.regs a v }

/-- The value a field holds. -/
def State.f (s : State) (x : Fld) : Nat := bits (s.w x.addr).toNat x.hi x.lo

/-- Whether a field is not zero. -/
def State.b (s : State) (x : Fld) : Bool := s.f x != 0

/-- The hub with a field holding the low bits of `v`. -/
def State.setF (s : State) (x : Fld) (v : Nat) : State :=
  s.setW x.addr (BitVec.ofNat 32 (putBits (s.w x.addr).toNat x.hi x.lo v))

/-- A counter field raised by `n`; it stops at its largest value ("saturates"). -/
def State.bump (s : State) (x : Fld) (n : Nat) : State := s.setF x (satAdd (x.hi + 1 - x.lo) (s.f x) n)

/-- A 32-bit counter register raised by `n`; it stops at 0xFFFF_FFFF. -/
def State.bumpW (s : State) (a : Nat) (n : Nat) : State := s.setW a (BitVec.ofNat 32 (satAdd 32 (s.w a).toNat n))

/-- A two-word count at `a` (low word first). -/
def State.two (s : State) (a : Nat) : Nat := (s.w a).toNat + 2 ^ 32 * (s.w (a + 4)).toNat

/-- A two-word count written; it wraps at 2^48. -/
def State.setTwo (s : State) (a : Nat) (n : Nat) : State :=
  (s.setW a (BitVec.ofNat 32 n)).setW (a + 4) (BitVec.ofNat 32 (n / 2 ^ 32 % 2 ^ 16))

/-- A bit of a register set. -/
def State.setBit (s : State) (a i : Nat) : State := s.setW a (s.w a ||| BitVec.ofNat 32 (2 ^ i))

/-- A bit of a register cleared. -/
def State.clrBit (s : State) (a i : Nat) : State := s.setW a (s.w a &&& ~~~(BitVec.ofNat 32 (2 ^ i)))

/-! ### Memories -/

/-- A byte of a memory; an unlisted address reads `d`. -/
def cellGet (d : Byte) (m : List Host.Cell) (a : Nat) : Byte := Tab.get (fun _ => d) m a

/-- A byte of a memory written. -/
def cellSet (d : Byte) (m : List Host.Cell) (a : Nat) (v : Byte) : List Host.Cell := Tab.set (fun _ => d) m a v

/-- A byte of IMEM, DMEM or the yard, by host address. -/
def State.byte (s : State) (a : Nat) : Byte := cellGet 0 s.mem a

/-- A byte of IMEM, DMEM or the yard written. -/
def State.setByte (s : State) (a : Nat) (v : Byte) : State := { s with mem := cellSet 0 s.mem a v }

/-- `n` bytes from an address on. -/
def State.bytes (s : State) (a : Nat) : Nat → List Byte
  | 0 => []
  | n + 1 => s.byte a :: s.bytes (a + 1) n

/-- Bytes written from an address on. -/
def State.setBytes (s : State) (a : Nat) : List Byte → State
  | [] => s
  | b :: bs => (s.setByte a b).setBytes (a + 1) bs

/-- A byte of the MRAM. -/
def State.nvByte (s : State) (a : Nat) : Byte := cellGet 0xFF s.nvm a

/-- `n` bytes of the MRAM from an address on. -/
def State.nvBytes (s : State) (a : Nat) : Nat → List Byte
  | 0 => []
  | n + 1 => s.nvByte a :: s.nvBytes (a + 1) n

/-- Bytes of the MRAM written from an address on. -/
def State.setNvBytes (s : State) (a : Nat) : List Byte → State
  | [] => s
  | b :: bs => ({ s with nvm := cellSet 0xFF s.nvm a b }).setNvBytes (a + 1) bs

/-- A little-endian word of a mason's memory (R3). -/
def State.wordLE (s : State) (a : Nat) : Word := BitVec.ofNat 32 (beNat (s.bytes a 4).reverse)

/-- A little-endian word of a mason's memory written. -/
def State.setWordLE (s : State) (a : Nat) (v : Word) : State := s.setBytes a (wordBE v).reverse

/-- A word of the yard or of a wire image, most significant byte first (R3). -/
def State.wordBEAt (s : State) (a : Nat) : Word := BitVec.ofNat 32 (beNat (s.bytes a 4))

/-! ### Per-block tables -/

/-- The hidden state of tile `t`. -/
def State.tile (s : State) (t : Nat) : Tile := Tab.get (fun _ => Tile.init) s.tiles t

/-- The hub with tile `t`'s hidden state replaced. -/
def State.setTile (s : State) (t : Nat) (x : Tile) : State := { s with tiles := Tab.set (fun _ => Tile.init) s.tiles t x }

/-- The hidden state of a filter path, by 8 × tile + path. -/
def State.path (s : State) (k : Nat) : Path := Tab.get (fun _ => Path.init) s.paths k

/-- It replaced. -/
def State.setPath (s : State) (k : Nat) (x : Path) : State := { s with paths := Tab.set (fun _ => Path.init) s.paths k x }

/-- The hidden state of a detector, by 32 × tile + detector. -/
def State.det (s : State) (k : Nat) : Det := Tab.get (fun _ => Det.init) s.detsH k

/-- It replaced. -/
def State.setDet (s : State) (k : Nat) (x : Det) : State := { s with detsH := Tab.set (fun _ => Det.init) s.detsH k x }

/-- The hidden state of a trigger unit. -/
def State.tu (s : State) (k : Nat) : Tu := Tab.get (fun _ => Tu.init) s.tus k

/-- It replaced. -/
def State.setTu (s : State) (k : Nat) (x : Tu) : State := { s with tus := Tab.set (fun _ => Tu.init) s.tus k x }

/-- The hidden state of a trigger group. -/
def State.tg (s : State) (k : Nat) : Tg := Tab.get (fun _ => Tg.init) s.tgs k

/-- It replaced. -/
def State.setTg (s : State) (k : Nat) (x : Tg) : State := { s with tgs := Tab.set (fun _ => Tg.init) s.tgs k x }

/-- The hidden state of a grid. -/
def State.grid (s : State) (g : Nat) : Grid := Tab.get (fun _ => Grid.init) s.grids g

/-- It replaced. -/
def State.setGrid (s : State) (g : Nat) (x : Grid) : State := { s with grids := Tab.set (fun _ => Grid.init) s.grids g x }

/-- The hidden state of a stream. -/
def State.str (s : State) (k : Nat) : Str := Tab.get (fun _ => Str.init) s.strs k

/-- It replaced. -/
def State.setStr (s : State) (k : Nat) (x : Str) : State := { s with strs := Tab.set (fun _ => Str.init) s.strs k x }

/-- The hidden state of a packer or an engine. -/
def State.pack (s : State) (k : Nat) : List Open := Tab.get (fun _ => []) s.packs k

/-- It replaced. -/
def State.setPack (s : State) (k : Nat) (x : List Open) : State := { s with packs := Tab.set (fun _ => []) s.packs k x }

/-- The hidden state of a ring. -/
def State.ring (s : State) (k : Nat) : Ring := Tab.get (fun _ => ⟨[], 0⟩) s.rings k

/-- It replaced. -/
def State.setRing (s : State) (k : Nat) (x : Ring) : State := { s with rings := Tab.set (fun _ => ⟨[], 0⟩) s.rings k x }

/-- The hidden state of the open run of a stream. -/
def State.run (s : State) (k : Nat) : Option GRun := Tab.get (fun _ => none) s.runs k

/-- It replaced. -/
def State.setRun (s : State) (k : Nat) (x : Option GRun) : State := { s with runs := Tab.set (fun _ => none) s.runs k x }

/-- The hidden state of a mason. -/
def State.mason (s : State) (k : Nat) : Mason := Tab.get (fun _ => Mason.init) s.masons k

/-- It replaced. -/
def State.setMason (s : State) (k : Nat) (x : Mason) : State := { s with masons := Tab.set (fun _ => Mason.init) s.masons k x }

/-- The hidden state of a pallet queue. -/
def State.pq (s : State) (k : Nat) : Pq := Tab.get (fun _ => Pq.init) s.pqs k

/-- It replaced. -/
def State.setPq (s : State) (k : Nat) (x : Pq) : State := { s with pqs := Tab.set (fun _ => Pq.init) s.pqs k x }


/-- The number of a course (R93). -/
def Due.n (d : Due) : Nat := c48 d.p

/-- The number of a course. -/
def Held.n (h : Held) : Nat := c48 h.p

/-- The number of a course. -/
def Hit.n (h : Hit) : Nat := c48 h.p

/-! ### Completion, liveness -/

/-- An access completes with a status. -/
def State.fin (s : State) (c : Status) : State := { s with cpl := ⟨c, []⟩ }

/-- A read completes with OK and its words. -/
def State.finData (s : State) (d : List Word) : State := { s with cpl := ⟨.ok, d⟩ }

/-- Whether anything in the hub runs: VDD_AON is there, RST_N is not held, and no internal scan chain is connected (R437, R439, R476). -/
def State.alive (s : State) : Bool := s.aon && !s.rstLow && !s.scan

/-- A command that only a running hub takes: a hub that does not run stays as it is. -/
def act (f : State → State) (s : State) : Host.Outcome State Fault Refusal := .next (if s.alive then f s else s)

/-- The mode (R454). -/
def State.mode (s : State) : Nat := s.f F.MODE_MODE

/-- HOLD or ACQUIRE. -/
def State.live (s : State) : Bool := s.mode == 2 || s.mode == 3

/-- `f` where a condition holds, and nothing otherwise. -/
def State.when (s : State) (c : Bool) (f : State → State) : State := if c then f s else s

/-- A step over a list of indices, in order. -/
def State.each {α : Type} (s : State) (xs : List α) (f : State → α → State) : State := xs.foldl f s

/-! ### Events and the trouble log -/

/-- Units of `st` in a second. -/
def secU : Nat := 1000000000 * 65536

/-- Units of `st` in a nanosecond. -/
def nsU : Nat := 65536

/-- The RTC in the units of system time: one RTC_SUB step is 30,517.578125 ns (R83). -/
def State.rtcTime (s : State) : Nat := s.rtc * 2000000000

/-- Whether entries and records are stamped with ST and not with the RTC (R478). -/
def State.stStamp (s : State) : Bool := s.b F.TIME_STAT_SEEDED && s.mode != 0

/-- The time stamp of an entry: the instant and the quality (R478, R85). -/
def State.stamp (s : State) : Nat × Nat := if s.stStamp then (s.st, s.f F.TIME_STAT_QUALITY) else (s.rtcTime, 3)

/-- The eight words of a trouble-log entry (R478). -/
def State.logWords (s : State) (code src detail : Nat) : List Word :=
  let (t, q) := s.stamp
  [s.w R.LOG_HEAD, BitVec.ofNat 32 (code * 65536 + src % 65536), BitVec.ofNat 32 (t / secU),
   BitVec.ofNat 32 (t % secU / nsU), BitVec.ofNat 32 (t % nsU * 65536 + b2n (!s.stStamp) * 8 + q),
   BitVec.ofNat 32 (detail / 2 ^ 32), BitVec.ofNat 32 detail, BitVec.ofNat 32 s.mode]

/-- Words written to consecutive registers. -/
def State.setWs (s : State) (a : Nat) : List Word → State
  | [] => s
  | v :: vs => (s.setW a v).setWs (a + 4) vs

/-- An entry enters the trouble log; when the log is full it overwrites the oldest (R477, R479). The words that it writes hold no error. -/
def State.logEntry (s : State) (code src detail : Nat) : State :=
  let n := (s.w R.LOG_HEAD).toNat
  let s1 := s.setWs (R.LOG_ENT (n % 1024)) (s.logWords code src detail)
  let s2 := if s.f F.LOG_COUNT_V < 1024 then s1.setF F.LOG_COUNT_V (s.f F.LOG_COUNT_V + 1) else s1.bumpW R.LOG_OVWR 1
  { s2.setW R.LOG_HEAD (BitVec.ofNat 32 (n + 1)) with bad := s.bad.filter fun a => a != R.LOG_ENT (n % 1024) }

/-- The EVENT hod of an event (R362); `DROPPED` is filled in. -/
def State.evtWords (s : State) (code src detail : Nat) : EvtHod :=
  let (t, q) := s.stamp
  [BitVec.ofNat 32 (code * 65536 + src % 65536), s.w R.LOG_HEAD, BitVec.ofNat 32 (t / secU), BitVec.ofNat 32 (t % secU / nsU),
   BitVec.ofNat 32 (t % nsU * 65536 + q), BitVec.ofNat 32 (detail / 2 ^ 32), BitVec.ofNat 32 detail,
   BitVec.ofNat 32 (min s.evtDropped 65535)]

/-- An event enters the trouble log, sets its MGP_PEND bit, and joins the EVENT queue when its mask bit is 1 and the queue has room; without
room it is counted as not sent (R362, R363, R424). -/
def State.raise1 (s : State) (code src detail : Nat) : State :=
  let b := code / 256
  let s1 := (s.logEntry code src detail).setBit R.MGP_PEND b
  if !wbit (s.w R.EVT_MASK) b then s1
  else if s.evtq.length < 64 then { s1 with evtq := s.evtq ++ [s.evtWords code src detail], evtDropped := 0 }
  else { (s1.bumpW R.EVT_DROP 1) with evtDropped := satAdd 16 s.evtDropped 1 }

/-- The hub raises an event; the first event not sent raises 0x0905 EVT_DROP as well (R363). The two enter the log in the order of their codes (R477). -/
def State.raise (s : State) (code src detail : Nat) : State :=
  if wbit (s.w R.EVT_MASK) (code / 256) && 64 ≤ s.evtq.length && !bit (s.f F.LINK_EVT_EVT) 4 then
    if code ≤ 0x0905 then ((s.raise1 code src detail).setBit R.LINK_EVT 4).raise1 0x0905 0 0
    else ((s.setBit R.LINK_EVT 4).raise1 0x0905 0 0).raise1 code src detail
  else s.raise1 code src detail

/-- An event that also sets a bit of its block's event register. -/
def State.raiseBit (s : State) (a i code src detail : Nat) : State := (s.setBit a i).raise code src detail

/-! ### The address map -/

/-- What a requester may do in a region (R31). -/
inductive Acc where
  | no | ro | rw
  deriving DecidableEq, Repr

/-- The access of host, manager and masons to the region of an address; `none` outside every region (R2, R31). JTAG has the host's. -/
def regionAcc (a : Nat) : Option (Acc × Acc × Acc) :=
  if a < 0x10000 then some (.rw, .rw, .ro)
  else if a < 0x20000 then some (.rw, .rw, .no)
  else if a < 0x40000 then some (.rw, .rw, .ro)
  else if a < 0x70000 then some (.rw, .no, .ro)
  else if a < 0x80000 then some (.rw, .rw, .ro)
  else if a < 0x90000 then some (.rw, .ro, .ro)
  else if a < 0xA0000 then some (.rw, .no, .ro)
  else if a < 0xB0000 then some (.rw, .rw, .no)
  else if a < 0xC0000 then some (.rw, .ro, .no)
  else if a < 0xD0000 then some (.rw, .no, .no)
  else if a < 0x100000 then none
  else if a < 0x140000 then some (.rw, .no, .ro)
  else if a < 0x200000 then none
  else if a < 0x380000 then some (.rw, .no, .ro)
  else if a < 0x400000 then none
  else if a < 0x800000 then some (.rw, .no, .no)
  else if a < 0x20000000 then none
  else if a < 0x40000000 then some (.ro, .no, .no)
  else none

/-- What a requester may do at an address. -/
def accOf (r : Req) (a : Nat) : Acc :=
  match regionAcc a, r with
  | none, _ => .no
  | some (h, _, _), .host => h
  | some (h, _, _), .jtag => h
  | some (_, m, _), .manager => m
  | some (_, _, c), .mason _ => c

/-- Whether an address belongs to a block: the kinds of R452 and R473, with 12 for the pallet queues and 13 for the stream table, which only a kiln run
tests (R463). The reduction profiles at 0x44000 belong to no trigger unit and not to the window store (R174, R463). -/
def testCovers (kind i a : Nat) : Bool :=
  match kind with
  | 1 => 0x200000 + i * 0x10000 ≤ a && a < 0x201000 + i * 0x10000
  | 2 => 0x201000 + i * 0x10000 ≤ a && a < 0x210000 + i * 0x10000
  | 3 => 0x400000 + i * 0x40000 ≤ a && a < 0x440000 + i * 0x40000
  | 4 => R.PC_CTL i ≤ a && a < R.PC_CTL i + 0x40
  | 5 => 0x50200 ≤ a && a < 0x60000
  | 6 => 0x30000 ≤ a && a < 0x40000
  | 7 => (0x80000 + i * 0x1000 ≤ a && a < 0x81000 + i * 0x1000) || (R.QUAD_CTL i ≤ a && a < R.QUAD_CTL i + 0x20)
  | 8 => 0x40000 + i * 0x100 ≤ a && a < 0x40040 + i * 0x100
  | 9 => 0xB0000 ≤ a && a < 0xC0000
  | 11 => 0x40000 ≤ a && a < 0x50000 && !(0x44000 ≤ a && a < 0x44400)
  | 12 => 0xC0000 ≤ a && a < 0xD0000
  | 13 => 0x100000 ≤ a && a < 0x140000
  | _ => false

/-- The block of a kiln segment (R463). The fabric and the MRAM, segments 89 and 91, have no registers of their own that a segment tests. -/
def segBlock (seg : Nat) : Option (Nat × Nat) :=
  if seg < 24 then some (1, seg)
  else if seg < 48 then some (2, seg - 24)
  else if seg < 64 then some (3, seg - 48)
  else if seg = 64 then some (12, 0)
  else if seg = 65 then some (13, 0)
  else if seg = 66 then some (11, 0)
  else if seg < 71 then some (4, seg - 67)
  else if seg = 71 then some (5, 0)
  else if seg < 80 then some (10, seg - 72)
  else if seg < 88 then some (7, seg - 80)
  else if seg = 88 then some (6, 0)
  else if seg = 90 then some (9, 0)
  else none

/-- A segment of the shutdown kiln or of the power-on test runs (R463, R468). -/
def State.segRuns (s : State) : Bool := !s.kilnEnd && (s.f F.KILN_STAT_STATE == 1 || s.f F.KILN_STAT_STATE == 2)

/-- The block under test: that of a test on demand, else that of the segment that runs (R419, R474). -/
def State.testing (s : State) : Option (Nat × Nat) :=
  match s.kilnTest with
  | some b => some b
  | none => if s.segRuns then segBlock (s.f F.KILN_STAT_SEG) else none

/-- Whether the block at an address is under test. -/
def State.underTest (s : State) (a : Nat) : Bool :=
  match s.testing with
  | none => false
  | some (k, i) => testCovers k i a

/-- Where the manager may write in DORMANT: GLOBAL, RPC, the RTC registers and LOG (R419). -/
def dormantWrite (a : Nat) : Bool :=
  a < 0x20000 || (0x20080 ≤ a && a < 0x200B0) || (0x70000 ≤ a && a < 0x80000)

/-- The status with which the address map refuses an access before the register is asked: the alignment and the region (R2, R29), the yard
window (R30) and the requester's right to it, then the mode (R359, R419). -/
def State.mapStop (s : State) (r : Req) (a : Nat) (write : Bool) : Option Status :=
  if a % 4 != 0 then some .addr
  else match accOf r a, write with
    | .no, _ => some .addr
    | .ro, true => if 0x20000000 ≤ a then some .unsupported else some .addr
    | _, _ =>
      match r with
      | .manager => if s.mode = 0 && write && !dormantWrite a then some .mode else none
      | _ => if s.mode = 0 || s.mode = 4 then some .mode else none

/-- A register write: for a requester with the right to write (R29) the cornerstone's lock, which takes precedence over every other status
(R399, R407); the address map; a block under test; then
the register's own effect, which ends with its completion. -/
def regWrite (r : Req) (a : Nat) (locked : State → Bool) (eff : State → State) (s : State) : State :=
  if locked s && accOf r a == .rw then s.fin .locked
  else
    match s.mapStop r a true with
    | some c => s.fin c
    | none => if s.underTest a then s.fin .busyTest else eff s

/-- No lock. -/
def noLock : State → Bool := fun _ => false

/-- The requester's place in the shadow table. -/
def reqKey : Req → Nat
  | .host => 0
  | .manager => 1
  | .jtag => 2
  | .mason m => 3 + m.val

/-- A requester's shadow of the word at an address (R106). -/
def State.shadow (s : State) (r : Req) (a : Nat) : Word := Tab.get (fun _ => 0) s.shadows (reqKey r * 2 ^ 32 + a)

/-- A requester's shadow written. -/
def State.setShadow (s : State) (r : Req) (a : Nat) (v : Word) : State :=
  { s with shadows := Tab.set (fun _ => 0) s.shadows (reqKey r * 2 ^ 32 + a) v }

/-- Consecutive shadow words written. -/
def State.setShadows (s : State) (r : Req) (a : Nat) : List Word → State
  | [] => s
  | v :: vs => (s.setShadow r a v).setShadows r (a + 4) vs

end Sys2Proof.Machine
end

