-- ==== Sys2Proof/Machine/Pattern.lean ====
section
/-!
DEFINITION. The lanes' table, the count of code errors (R314), and the pattern generators and checkers of the quads (R333 to R335), whose words come with SYS time.
-/

namespace Sys2Proof.Machine

/-- A lane's hidden state. -/
def State.lane (s : State) (n : Nat) : Lane := Tab.get (fun _ => Lane.init) s.lanes n

/-- It replaced. -/
def State.setLane (s : State) (n : Nat) (x : Lane) : State := { s with lanes := Tab.set (fun _ => Lane.init) s.lanes n x }

/-- The lane state machines run: in BRINGUP after the lanes' release, HOLD, ACQUIRE and SAFE (R310, R453). -/
def State.lanesOn (s : State) : Bool := s.mode == 2 || s.mode == 3 || s.mode == 5 || (s.mode == 1 && s.rel == 10)

/-- A lane's state: 0 DETECT to 6 UP, 7 OFF (R338). -/
def State.lst (s : State) (n : Nat) : Nat := s.f (F.LANE_STAT_STATE n)

/-- A lane's receive path decodes and counts: in UP, and in a loopback (R314, R332). -/
def State.laneCounts (s : State) (n : Nat) : Bool := s.lst n == 6 || s.f (F.LANE_CTL_LB n) != 0

/-- The code errors among received symbols are counted (R314). -/
def State.countBad (s : State) (n : Nat) (ys : List Sym) : State :=
  let c := (ys.filter fun y => y == .bad false).length
  let d := (ys.filter fun y => y == .bad true).length
  if c + d = 0 ∨ !s.laneCounts n then s
  else ((s.bump (F.LANE_ERR_CODE n) c).bump (F.LANE_ERR_DISP n) d).setF (F.LANE_EVT_CODE_ERR n) 1

/-- A lane in a near-end loopback receives the groups that its own transmitter sends: it decodes them and counts (R314, R332). -/
def State.hearSelf (s : State) (n : Nat) (gs : List (BitVec 10)) : State :=
  let inv := s.b (F.LANE_STAT_RX_INV n)
  let x := s.lane n
  (s.setLane n { x with rxNeg := lineNeg inv x.rxNeg gs }).countBad n (readLine inv x.rxNeg gs)

/-! ### PRBS (R333 to R335) -/

/-- The pattern generator and checker of a quad. -/
def State.prbsOf (s : State) (q : Nat) : Prbs := Tab.get (fun _ => Prbs.init) s.prbs q

/-- They replaced. -/
def State.setPrbs (s : State) (q : Nat) (x : Prbs) : State := { s with prbs := Tab.set (fun _ => Prbs.init) s.prbs q x }

/-- A generator begins somewhere in its sequence (R333). -/
def Prbs.start (x : Prbs) (q deg : Nat) : Prbs :=
  { x with gen := 1 + Config.prbsSeed q % (2 ^ deg - 1), phase := 0, inject := [], burst := 0 }

/-- A lane's receive path takes what its own transmitter sends (R332). -/
def State.nearEnd (s : State) (n : Nat) : Bool := s.f (F.LANE_CTL_LB n) == 1 || s.f (F.LANE_CTL_LB n) == 2

/-- A quad's checker takes received bits (R334): it locks after 256 that match, counts while locked, and starts again when 32 of 256 mismatch. -/
def State.checkBits (s : State) (q : Nat) (bs : List Bool) : State :=
  let n := 4 * q
  if !s.b (F.PRBS_CTL_CHK_EN n) then s
  else
    let (deg, mid) := polyOf (s.f (F.PRBS_CTL_POLY n))
    let x := s.prbsOf q
    let y : ChkRun := bs.foldl (fun (y : ChkRun) b => y.take deg mid (b != s.b (F.PRBS_CTL_INV n))) ⟨x.chk, s.b (F.PRBS_STAT_LOCK n), false, 0, 0⟩
    let s1 := (s.setPrbs q { x with chk := y.chk }).setF (F.PRBS_STAT_LOCK n) (b2n y.lock)
    let s2 := (s1.when y.lost fun s => s.setF (F.PRBS_STAT_LOCK_LOST n) 1).bumpW (R.PRBS_ERR n) y.errs
    s2.setTwo (R.PRBS_BITS n) (s2.two (R.PRBS_BITS n) + y.cmp)

/-- Bits in groups of ten, first bit highest. -/
def bitGroups : Nat → List Bool → List (BitVec 10)
  | 0, _ => []
  | n + 1, bs => BitVec.ofNat 10 (bitsNat (bs.take 10)) :: bitGroups n (bs.drop 10)

/-- The first `k` bits inverted. -/
def flipBits (k : Nat) (bs : List Bool) : List Bool := (bs.take k).map (!·) ++ bs.drop k

/-- A generator's next word of 40 line bits: an injection that waits begins in it, at its first bit, and a burst goes on from the word before (R335). -/
def Prbs.word (x : Prbs) (deg mid : Nat) (inv : Bool) : Prbs × List Bool :=
  let (bs, g) := prbsBits deg mid 40 x.gen
  let k := if 0 < x.burst then x.burst else x.inject.headD 0
  let rest := if 0 < x.burst then x.inject else x.inject.drop 1
  ({ x with gen := g, inject := rest, burst := k - 40 }, flipBits k (bs.map (· != inv)))

/-- The generator of a quad has made a word: lane 0 sends it, unless a far-end loopback sends what it receives; INJ_PEND falls with the last injection; and in
a near-end loopback the lane's receive path and its own checker take the word (R332, R333, R335). -/
def State.putPrbs (q : Nat) (s : State) (x : Prbs) (bs : List Bool) : State :=
  let n := 4 * q
  let s1 := (s.setPrbs q x).when (s.f (F.LANE_CTL_LB n) != 3) fun s => s.setLane n { s.lane n with tx := bitGroups 4 bs }
  let s2 := s1.when (x.inject == [] && x.burst == 0) fun s => s.setF (F.PRBS_STAT_INJ_PEND n) 0
  s2.when (s2.nearEnd n) fun s => (s.hearSelf n (bitGroups 4 bs)).checkBits q bs

/-- A quad's generator makes and sends a word (R333). -/
def State.prbsWord (q : Nat) (s : State) : State :=
  let c := polyOf (s.f (F.PRBS_CTL_POLY (4 * q)))
  let r := (s.prbsOf q).word c.1 c.2 (s.b (F.PRBS_CTL_INV (4 * q)))
  State.putPrbs q s r.1 r.2

/-- The time of a 40-bit word at a RATE, in units of 0.1 ns (R305). -/
def wordTime (rate : Nat) : Nat := [320, 160, 128, 80, 64, 40, 32].getD rate 320

/-- A quad's generator makes and sends some words. -/
def State.prbsWords (q : Nat) : Nat → State → State
  | 0, s => s
  | k + 1, s => State.prbsWords q k (State.prbsWord q s)

/-- A quad's generator over `n` SYS cycles of 4 ns (R333). -/
def State.passPrbs (n : Nat) (s : State) (q : Nat) : State :=
  if s.b (F.PRBS_CTL_GEN_EN (4 * q)) && s.b (F.QUAD_STAT_PLL_LOCK q) && s.lanesOn then
    let t := wordTime (s.f (F.QUAD_CTL_RATE q))
    let k := (s.prbsOf q).phase + 40 * n
    State.prbsWords q (k / t) (s.setPrbs q { s.prbsOf q with phase := k % t })
  else s

end Sys2Proof.Machine
end

