-- ==== Sys2Proof/Machine/Clock.lean ====
section
/-!
DEFINITION. Time passing (R80, R102 to R104, R193, R219, R287, R333): what the RTC, the masons' cycle counts, the crossing FIFO of hput and the pattern
generators do over a number of SYS cycles of 4 ns, whether they pass with no command or before an event at a given instant.
-/

namespace Sys2Proof.Machine

/-- System time wraps with its 48 bits of seconds (R77). -/
def stMod : Nat := 2 ^ 48 * secU

/-- A time moved by an offset. -/
def moveT (t : Nat) (d : Int) : Nat := ((t + d) % stMod).toNat

/-- An instant of ST by `State.cyc`. -/
def State.cycAt (s : State) (t : Nat) : Nat := s.cyc + t - s.st

/-! ### The calendar clock -/

/-- Some AON ticks, at least one: at the first, the RTC counts, or takes the value that waits for the tick and is then valid (R102 to R104). -/
def State.aonTicks (s : State) (k : Nat) : State :=
  match s.rtcLoad with
  | some t => { s with rtc := (t + (k - 1)) % 2 ^ 55, rtcLoad := none }.setF F.RTC_STAT_VALID 1
  | none => { s with rtc := (s.rtc + k) % 2 ^ 55 }

/-- The RTC over `n` times 4 ns: it runs on its crystal while VDD_AON or VBAT is there, in every mode and in reset, a step of 2^-15 s after every
30,517.578125 ns (R102). -/
def State.passRtc (s : State) (n : Nat) : State :=
  let t := s.rtcPhase + 131072 * n
  if !(s.aon || s.vbat) then s
  else
    let s1 : State := { s with rtcPhase := t % 1000000000 }
    if t < 1000000000 then s1 else s1.aonTicks (t / 1000000000)

/-! ### The masons and their crossing -/

/-- A mason in RUN counts the CORE cycles of `n` SYS cycles (R219). -/
def State.passMason (n : Nat) (s : State) (m : Nat) : State :=
  s.when (s.f (F.MC_STAT_STATE m) == 1) fun s => s.setTwo (R.MC_CYCLES m) (s.two (R.MC_CYCLES m) + 4 * n)

/-- The millionths of a word that cross in a SYS cycle: one word in each DSP cycle, or what PC_MRES reserves of a compress engine, in kB/s
(R193, R287; notes/assumptions/114.md). -/
def State.hputRate (s : State) : Option Nat → Nat
  | none => 3200000
  | some e => (s.w (R.PC_MRES e)).toNat

/-- The records of hput cross for `n` SYS cycles, the oldest first; the next one begins with a cycle of its own. -/
def drainHputs (rate : Option Nat → Nat) : Nat → List (Nat × Option Nat) → List (Nat × Option Nat)
  | _, [] => []
  | n, (w, e) :: r => if w ≤ n * rate e then drainHputs rate (n - ceilDiv w (rate e)) r else (w - n * rate e, e) :: r

/-- The crossing FIFO over `n` SYS cycles (R193). -/
def State.passHput (n : Nat) (s : State) : State := { s with hputs := drainHputs s.hputRate n s.hputs }

/-! ### SYS cycles -/

/-- `n` SYS cycles. ST takes 4 ns in each, whatever its rate against real time is (R80, R81). -/
def State.passSys (n : Nat) (s : State) : State :=
  let s1 : State := { s with st := (s.st + n * (4 * nsU)) % stMod, cyc := s.cyc + n * (4 * nsU) }
  ((s1.each (range' 0 16) (State.passMason n)).each (range' 0 8) (State.passPrbs n)).passHput n

/-- SYS cycles with the RTC beside them. -/
def State.pass (n : Nat) (s : State) : State := if n = 0 then s else (s.passRtc n).passSys n

/-- System time has reached an instant: the first SYS cycle in which ST stands at it or beyond. ST moves by whole cycles of 4 ns, and it never runs
backward (R80). -/
def State.reach (s : State) (t : Nat) : State := s.pass (ceilDiv (t - s.st) (4 * nsU))

/-- SYS has counted up to an instant by `State.cyc`. -/
def State.passTo (s : State) (c : Nat) : State := s.pass (ceilDiv (c - s.cyc) (4 * nsU))

end Sys2Proof.Machine
end

