-- ==== Sys2Proof/Machine/NvOps.lean ====
section
/-!
DEFINITION. The MRAM (R442 to R444): its layout, the hold-up check before a batch, and the values that measurements draw; and the form of a response of the
management port (R415).
-/

namespace Sys2Proof.Machine

/-! ### Layout (notes/assumptions/3.md) -/

/-- The first byte of an option copy (R445). -/
def nvOption (b : Bool) : Nat := if b then 0x1000 else 0

/-- The first byte of the kiln region (R470). -/
def nvKiln : Nat := 0x10000

/-- The first byte of a boot image (R450). -/
def nvBoot (b : Bool) : Nat := if b then 0x200000 else 0x100000

/-- The first byte of the cornerstone's region (R394). -/
def nvCorner : Nat := 0x300000

/-- The first byte of a firmware copy (R394). -/
def nvFw (b : Bool) : Nat := nvCorner + (if b then 0x30000 else 0)

/-- The first byte of parameter slot 0 or 1 (R394). -/
def nvPar (b : Bool) : Nat := nvCorner + (if b then 0x61000 else 0x60000)

/-- The first byte of energy slot 0 or 1 (R394). -/
def nvEnergy (b : Bool) : Nat := nvCorner + (if b then 0x63000 else 0x62000)

/-! ### Responses of the management port (R415, R418) -/

/-- Eight bytes of a response with their CRC. -/
def mgpSeal (bs : List Byte) : List Byte := bs ++ [BitVec.ofNat 8 (crc8 bs)]

/-- A response: KIND, OP, STATUS, the word address and the data. -/
def mgpResp (kind op status wa data : Nat) : List Byte :=
  mgpSeal ([BitVec.ofNat 8 (kind * 64 + op), BitVec.ofNat 8 status] ++ natBE 2 (wa % 65536) ++ natBE 4 data)

/-! ### The hold-up check (R432, R443) -/

/-- A value that the spec leaves open, drawn afresh. -/
def State.draw (s : State) (w : Nat) : State × Nat := ({ s with free := s.free + 1 }, (Config.freeValue w s.free).toNat)

/-- C_HOLD of the options in force, in µF. -/
def State.cHold (s : State) : Nat := bits (s.w (R.OPT_CUR 8)).toNat 15 0

/-- VHOLD_MIN of the options in force, in mV. -/
def State.vholdMin (s : State) : Nat := bits (s.w (R.OPT_CUR 8)).toNat 31 16

/-- C_HOLD × (V² − VHOLD_MIN²) in units of 10^-6 / 2^32 µJ, for V = VALUE × 6 V / 65,536; 0 where V ≤ VHOLD_MIN. -/
def State.holdEnergy (s : State) (v : Nat) : Nat :=
  if 6000 * v ≤ 65536 * s.vholdMin then 0 else s.cHold * (36 * v ^ 2 * 1000000 - s.vholdMin ^ 2 * 2 ^ 32)

/-- Whether VHOLD carries a batch of `rows` rows (R443); no check passes while the HKC is under test (R430). -/
def State.holdOk (s : State) (rows v : Nat) : Bool :=
  !s.underTest R.HK_CTL && decide (65536 * s.vholdMin < 6000 * v) && decide (12 * rows * 1000000 * 2 ^ 32 ≤ s.holdEnergy v)

/-- Four conversions of VHOLD give `v` (R432); the HKC serves the RPC's requests under a test too (R426). -/
def State.measureHold (s : State) (v : Nat) : State := (s.setF F.HK_VHOLD_VALUE v).setF F.HK_VHOLD_COUNT (s.f F.HK_VHOLD_COUNT + 1)

/-- The check before a batch of a writer (0 option, 1 boot image, 2 kiln record, 3 parameter slot, 4 energy slot, 5 firmware block): VHOLD is measured, and a
refusal is logged with the writer, the measured and the needed energy in µJ (R443, notes/assumptions/23.md). -/
def State.nvCheck (s : State) (writer rows v : Nat) : State × Bool :=
  let s1 := s.measureHold v
  if s1.holdOk rows v then (s1, true)
  else (s1.raiseBit R.RPC_EVT 9 0x010A writer (writer * 2 ^ 56 + s1.holdEnergy v / (2 * 1000000 * 2 ^ 32) % 2 ^ 28 * 2 ^ 28 + 6 * rows), false)

/-- A batch is in progress (R444). -/
def State.nvBusy (s : State) : Bool := s.nv.isSome

/-- A batch begins (R444). -/
def State.begin (s : State) (writer addr : Nat) (rows : List (List Byte)) : State :=
  { s.setF F.NV_STAT_BUSY 1 with nv := some ⟨writer, addr, rows⟩ }

/-- Whether a batch that a command waits for has begun since `old`: any but that of the kiln record and of an energy slot. -/
def State.began (old s : State) : Bool :=
  match old.nv, s.nv with
  | none, some b => b.writer != 4 && b.writer != 6
  | _, _ => false

/-- Bytes as rows of 64. -/
def nvRows : Nat → List Byte → List (List Byte)
  | 0, _ => []
  | n + 1, bs => bs.take 64 :: nvRows n (bs.drop 64)

/-- The first `n` rows of a batch are written. -/
def State.writeRows (s : State) (b : Batch) (n : Nat) : State := s.setNvBytes b.addr (b.rows.take n).flatten

end Sys2Proof.Machine
end

