-- ==== Sys2Proof/Machine/Coder.lean ====
section
/-!
DEFINITION. The block format of the press (R288 to R291, R294) and its reverse in PX (R297 to R300).
-/

namespace Sys2Proof.Machine

/-! ### The predictor (R289) -/

/-- The zig-zag form of a difference of `w` bits. -/
def zigzag (w d : Nat) : Nat := if d < 2 ^ (w - 1) then 2 * d else 2 ^ (w + 1) - 1 - 2 * d

/-- Values replaced by their predicted differences; the first against zero. -/
def predict (w : Nat) : Nat → List Nat → List Nat
  | _, [] => []
  | p, v :: r => zigzag w ((v + 2 ^ w - p) % 2 ^ w) :: predict w v r

/-- A record's words after the predictor: the data words of SAMPLES records alone change. -/
def predictRec (ws : List Word) : List Word :=
  match ws with
  | h :: r =>
    if bits h.toNat 31 28 = 1 then
      let w := if wbit h 12 then 16 else 24
      let skip := b2n (wbit h 11) + b2n (wbit h 9)
      let d := r.drop skip
      let n := 32 * d.length / w - b2n (wbit h 10)
      h :: r.take skip ++ packVals w (predict w 0 (unpackVals w n d))
    else ws
  | [] => []

/-! ### The dictionary coder (R290, R291) -/

/-- The width of the `j`-th code of a block, from 1 (R290). -/
def codeWidth (j : Nat) : Nat := min 12 (clog2 (256 + j))

/-- The place of a string among the entries. -/
def findStr (dict : List (List Byte)) (s : List Byte) (k : Nat) : Option Nat :=
  match dict with
  | [] => none
  | e :: r => if e = s then some k else findStr r s (k + 1)

/-- The code of a string: its byte, or its first entry (notes/assumptions/30.md). -/
def codeOf (dict : List (List Byte)) (s : List Byte) : Nat :=
  match s with
  | [b] => b.toNat
  | _ => (findStr dict s 257).getD 0

/-- The next entry, while any remains free: codes 257 to 4,095. -/
def addEntry (dict : List (List Byte)) (s : List Byte) : List (List Byte) := if dict.length < 3839 then dict ++ [s] else dict

/-- The coding of one record's bytes from a pending string; answers the entries, the last string written and the codes. -/
def encGo : List Byte → List (List Byte) → List Byte → List Nat → List (List Byte) × List Byte × List Nat
  | [], dict, s, cs => (dict, s, cs ++ [codeOf dict s])
  | c :: r, dict, s, cs =>
    if (findStr dict (s ++ [c]) 257).isSome then encGo r dict (s ++ [c]) cs
    else encGo r (addEntry dict (s ++ [c])) [c] (cs ++ [codeOf dict s])

/-- The coding of a list of records: no code spans a record boundary, and the extension over the boundary is added (R291). -/
def encRecs : List (List Byte) → List (List Byte) → List Byte → List Nat → List Nat
  | [], _, _, cs => cs
  | [] :: rs, dict, last, cs => encRecs rs dict last cs
  | (c :: r) :: rs, dict, last, cs =>
    let dict1 := if last = [] then dict else addEntry dict (last ++ [c])
    let (dict2, s, cs2) := encGo r dict1 [c] cs
    encRecs rs dict2 s cs2

/-- The codes of a block, END included. -/
def encCodes (recs : List (List Byte)) : List Nat := encRecs recs [] [] [] ++ [256]

/-- The length in bits and the number of a code string from code `j` on. -/
def codeBits : List Nat → Nat → Nat × Nat → Nat × Nat
  | [], _, p => p
  | c :: r, j, (len, x) => codeBits r (j + 1) (len + codeWidth j, x * 2 ^ codeWidth j + c)

/-- The body words of a coded block, padded with zero bits (R288). -/
def codeBody (recs : List (List Byte)) : List Word :=
  let (len, x) := codeBits (encCodes recs) 1 (0, 0)
  let d := ceilDiv len 32
  natWords d (x * 2 ^ (32 * d - len))

/-- A block of whole records: coded, or RAW where coding is not smaller (R288, R294); answers whether it is RAW. -/
def pressBlock (pred forceRaw : Bool) (recs : List (List Word)) : Bool × List Word :=
  let orig := wordsToBytes recs.flatten
  let body := codeBody ((if pred then recs.map predictRec else recs).map wordsToBytes)
  let raw := forceRaw || decide (orig.length / 4 ≤ body.length)
  let w0 := (if raw then 2 ^ 31 else b2n pred * 2 ^ 30 + body.length * 2 ^ 16) + (orig.length - 1)
  (raw, BitVec.ofNat 32 w0 :: BitVec.ofNat 32 (crc32c orig) :: (if raw then recs.flatten else body))

/-- Whether the coded form of records fits a hod: LEN = 4 + CLEN at most 1,024 and at most 65,536 original bytes (R293). -/
def pressFits (pred : Bool) (recs : List (List Word)) : Bool :=
  decide ((codeBody ((if pred then recs.map predictRec else recs).map wordsToBytes)).length ≤ 1020)
    && decide (4 * (recs.map List.length).sum ≤ 65536)

/-! ### The decoder (R291, R299, R300) -/

/-- How the expansion of a block ends. -/
inductive Expand where
  | done (out : List Byte)
  | malformed (out : List Byte)
  | limit (out : List Byte)
  deriving DecidableEq, Repr

/-- The string of a code. -/
def strOf (dict : List (List Byte)) (c : Nat) : List Byte :=
  if c < 256 then [BitVec.ofNat 8 c] else dict.getD (c - 257) []

/-- The expansion loop of a block body: `x` is the body's number, `len` its bits, `pos` the bits read, `room` the bytes the block and
OUT_LIMIT still allow. -/
def expandGo (x len orig : Nat) : Nat → Nat → Nat → List (List Byte) → Option (List Byte) → Nat → List Byte → Expand
  | 0, _, _, _, _, _, out => .malformed out
  | fuel + 1, j, pos, dict, prev, room, out =>
    let w := codeWidth j
    if len < pos + w then .malformed out
    else
      let c := x / 2 ^ (len - pos - w) % 2 ^ w
      if c = 256 then
        if out.length = orig && x % 2 ^ (len - pos - w) = 0 then .done out else .malformed out
      else
        let next := 257 + dict.length
        let s? : Option (List Byte) :=
          if c < next then some (strOf dict c)
          else if c = next then prev.map (fun p => p ++ p.take 1) else none
        match s? with
        | none => .malformed out
        | some s =>
          if room < s.length then .limit (out ++ s.take room)
          else
            let dict2 := match prev with
              | none => dict
              | some p => if next ≤ 4095 then dict ++ [p ++ s.take 1] else dict
            expandGo x len orig fuel (j + 1) (pos + w) dict2 (some s) (room - s.length) (out ++ s)

/-- One block as the scan of R298 reads it: its header fields and its body. -/
structure PBlock where
  raw : Bool
  pred : Bool
  clen : Nat
  orig : Nat
  crc : Nat
  body : List Word
  deriving DecidableEq, Repr

/-- Why a scan stops. -/
inductive ScanErr where
  | length | unsupported
  deriving DecidableEq, Repr

/-- The blocks of PX's input from block `k` on (R298), or the first failure with its block; `room` is what OUT_LIMIT leaves for the declared
lengths. -/
def scanBlocks : Nat → Nat → Nat → List Word → Except (ScanErr × Nat) (List PBlock)
  | 0, k, _, _ => .error (.length, k)
  | _ + 1, _, _, [] => .ok []
  | _ + 1, k, _, [_] => .error (.length, k)
  | fuel + 1, k, room, h :: c :: r =>
    let raw := wbit h 31
    let pred := wbit h 30
    let clen := bits h.toNat 29 16
    let orig := bits h.toNat 15 0 + 1
    let n := if raw then ceilDiv orig 4 else clen
    if r.length < n then .error (.length, k)
    else if pred || (!raw && clen = 0) || (raw && clen != 0) then .error (.unsupported, k)
    else if room < orig then .error (.length, k)
    else match scanBlocks fuel (k + 1) (room - orig) (r.drop n) with
      | .error e => .error e
      | .ok bs => .ok (⟨raw, pred, clen, orig, c.toNat, r.take n⟩ :: bs)

/-- The expansion of one block within `room` bytes of output. -/
def expandBlock (b : PBlock) (room : Nat) : Expand :=
  if b.raw then .done ((wordsToBytes b.body).take b.orig)
  else expandGo (wordsNat b.body) (32 * b.body.length) b.orig (4 * b.body.length + 8) 1 0 [] none (min room b.orig) []

/-- How the expansion of a whole input ends: its bytes so far, and why it stopped, with the block's index. -/
structure PxEnd where
  out : List Byte
  fail : Option (Bool × Bool × Nat)   -- (EXPAND_LIMIT, a CRC mismatch, block index)
  deriving DecidableEq, Repr

/-- The expansion of the blocks in order. -/
def expandBlocks : List PBlock → Nat → Nat → List Byte → PxEnd
  | [], _, _, out => ⟨out, none⟩
  | b :: bs, limit, k, out =>
    match expandBlock b (limit - out.length) with
    | .limit o => ⟨out ++ o, some (true, false, k)⟩
    | .malformed o => ⟨out ++ o, some (false, false, k)⟩
    | .done o => if crc32c o = b.crc then expandBlocks bs limit (k + 1) (out ++ o) else ⟨out ++ o, some (false, true, k)⟩

end Sys2Proof.Machine
end

