-- ==== Sys2Proof/Machine/Rates.lean ====
section
/-!
DEFINITION. What the configuration fixes: the stream table read as a list, clock and course rates, the limits of the filter paths
(R112 to R118), the engine load (R116), and the window and delay of a path (R128, R129). A command that would change a configuration is tried
on a copy of the state, and the checks read the copy.
-/

namespace Sys2Proof.Machine

/-! ### Exact rates -/

/-- A nonnegative fraction; `den` is not zero. -/
structure Frac where
  num : Nat
  den : Nat
  deriving DecidableEq, Repr

/-- Sum of fractions, in lowest terms. -/
def Frac.add (a b : Frac) : Frac :=
  let n := a.num * b.den + b.num * a.den
  let d := a.den * b.den
  let g := Nat.gcd n d
  ⟨n / g, d / g⟩

/-- A fraction times a natural number. -/
def Frac.scale (k : Nat) (a : Frac) : Frac := ⟨k * a.num, a.den⟩

/-- A fraction over a natural number. -/
def Frac.over (a : Frac) (k : Nat) : Frac := ⟨a.num, a.den * k⟩

/-- Whether a fraction is at most another. -/
def Frac.le (a b : Frac) : Bool := decide (a.num * b.den ≤ b.num * a.den)

/-- Sum of a list of fractions. -/
def Frac.sum : List Frac → Frac
  | [] => ⟨0, 1⟩
  | a :: r => Frac.add a (Frac.sum r)

/-! ### The stream table and the WS_LINK table as lists -/

/-- The indices of the listed registers of an array of registers whose bit 31 is 1. -/
def validIdx (base stride n : Nat) : Tab Word → List Nat
  | [] => []
  | (a, v) :: r =>
    if base ≤ a && a < base + stride * n && (a - base) % stride == 0 && wbit v 31 then (a - base) / stride :: validIdx base stride n r
    else validIdx base stride n r

/-- The SIDs whose entry is valid (R175), rising. -/
def State.sids (s : State) : List Nat := validIdx 0x100000 32 8192 s.regs

/-- The SIDs whose stream is active. -/
def State.activeSids (s : State) : List Nat := s.sids.filter fun i => s.b (F.SE_CTL_ACT i)

/-- The valid WS_LINK entries (R156). -/
def State.links (s : State) : List Nat := validIdx 0x48000 4 1024 s.regs

/-- The link of a stream, if it has one. -/
def State.linkOf (s : State) (sid : Nat) : Option Nat := s.links.find? fun k => s.f (F.WS_LINK_SID k) == sid

/-- The tile a stream draws on: that of its channel, or of its detector; none for MASON_OUT (R70, R176). -/
def State.seTile (s : State) (i : Nat) : Option Nat :=
  match s.f (F.SE_CTL_SRC_KIND i) with
  | 0 => some (s.f (F.SE_SRC_CH i) / 16)
  | 1 => some (s.f (F.SE_SRC_TILE i))
  | _ => none

/-- The input of its tile a stream draws on. -/
def State.seInput (s : State) (i : Nat) : Option Nat :=
  match s.f (F.SE_CTL_SRC_KIND i) with
  | 0 => some (s.f (F.SE_SRC_CH i) % 16)
  | 1 => some (s.f (F.DET_CTL_CH (s.f (F.SE_SRC_TILE i)) (s.f (F.SE_SRC_DET i))))
  | _ => none

/-- Whether an active stream draws on a tile (R70). -/
def State.drawn (s : State) (t : Nat) : Bool := s.activeSids.any fun i => s.seTile i == some t

/-- The enabled detectors of a tile: those whose DET_CTL.EN, bit 31, is 1 (R139). -/
def State.dets (s : State) (t : Nat) : List Nat := validIdx (R.DET_CTL t 0) 0x20 32 s.regs

/-- Whether input `i` of a tile is the even input of an interleaved pair (R41). -/
def State.pairEven (s : State) (t i : Nat) : Bool := i % 2 == 0 && bit (s.f (F.TILE_ILV_ILV t)) (i / 2)

/-- Whether input `i` of a tile is the odd partner of an interleaved pair (R41). -/
def State.pairOdd (s : State) (t i : Nat) : Bool := i % 2 == 1 && bit (s.f (F.TILE_ILV_ILV t)) (i / 2)

/-- The cornerstone meters an input of a tile (R399). -/
def State.metered (s : State) (t i : Nat) : Bool := s.b (F.CH_STAT_METERED t i)

/-- Whether a tile holds a metered channel. -/
def State.tileMetered (s : State) (t : Nat) : Bool := (range' 0 16).any fun i => s.metered t i

/-- Whether any channel is metered. -/
def State.anyMetered (s : State) : Bool := (range' 0 24).any fun t => s.tileMetered t

/-! ### Clocks -/

/-- The VCO of SMPL in Hz: 20 times SYS, or MCLK times MMUL, or in holdover what it holds (R96, R98). -/
def State.vco (s : State) : Nat :=
  if !s.b F.SMPL_CTL_SRC then 5000000000
  else if s.b F.MCLK_STAT_HOLDOVER then s.smpl.hold
  else s.f F.MCLK_STAT_FREQ * 10 * s.f F.MCLK_CTL_MMUL

/-- Whether SMPL produces edges: not before the VCO has locked to MCLK (R38, R503). -/
def State.smplRuns (s : State) : Bool := !s.b F.SMPL_CTL_SRC || s.b F.MCLK_STAT_LOCK || s.b F.MCLK_STAT_HOLDOVER

/-- SMPL cycles of one slice clock times VDIV: VCO cycles of one slice clock. -/
def State.sliceVco (s : State) (t : Nat) : Nat := s.f F.SMPL_CTL_VDIV * s.f (F.TILE_CTL_RDIV t)

/-- Whether the slice rate of a tile lies within 1 MS/s to 40 MS/s (R38). -/
def State.rateOk (s : State) (t : Nat) : Bool :=
  decide (1000000 * s.sliceVco t ≤ s.vco) && decide (s.vco ≤ 40000000 * s.sliceVco t)

/-- The period of a grid in units of 2^-32 ns (R86). -/
def State.per (s : State) (g : Nat) : Nat := (s.w (R.GRID_PER_NS g)).toNat * 2 ^ 32 + (s.w (R.GRID_PER_FRAC g)).toNat

/-- The course rate of a grid in Hz. -/
def State.gridRate (s : State) (g : Nat) : Frac := ⟨1000000000 * 2 ^ 32, s.per g⟩

/-- Whether a grid is a MACHINE grid. -/
def State.machine (s : State) (g : Nat) : Bool := s.b (F.GRID_CTL_TYPE g)

/-- The state of a grid (R88): 0 STOPPED, 1 ARMED_FROM_STOP, 2 RUNNING, 3 ARMED_RUNNING. -/
def State.gstate (s : State) (g : Nat) : Nat := s.f (F.GRID_STAT_STATE g)

/-! ### Filter paths -/

/-- The settings of a filter path. -/
structure PathCfg where
  grid : Nat
  place : Nat
  fir : Bool
  dec : Nat
  hb : Nat
  n : Nat
  r : Nat
  taps : Nat
  gd : Nat
  deriving DecidableEq, Repr

/-- The settings of path `p` of engine `t`, with the taps and the group delay of bank `b`; with the FIR off it has one tap and no delay (R119). -/
def State.pathCfg (s : State) (t p b : Nat) : PathCfg :=
  let fir := s.b (F.FP_CTL_FIR_EN t p)
  { grid := s.f (F.FP_CTL_GRID t p), place := s.f (F.FP_CTL_PLACE t p), fir := fir, dec := s.f (F.FP_CTL_FIR_DEC t p),
    hb := s.f (F.FP_CTL_HB t p), n := s.f (F.FP_CTL_CIC_N t p), r := s.f (F.FP_CIC_RATIO t p),
    taps := if !fir then 1 else if b = 0 then s.f (F.FP_TAPS_TAPS0 t p) else s.f (F.FP_TAPS_TAPS1 t p),
    gd := if !fir then 0 else if b = 0 then s.f (F.FP_GD_GD0 t p) else s.f (F.FP_GD_GD1 t p) }

/-- The settings of a path with its active bank. -/
def State.pathAct (s : State) (t p : Nat) : PathCfg := s.pathCfg t p (s.f (F.FP_STAT_ACT t p))

/-- The channel set of a path: the inputs that a stream table entry or an enabled detector names with it (R112). -/
def State.chanSet (s : State) (t p : Nat) : List Nat :=
  (range' 0 16).filter fun i =>
    s.sids.any (fun k => s.f (F.SE_CTL_SRC_KIND k) == 0 && s.f (F.SE_SRC_CH k) == 16 * t + i && s.f (F.SE_CTL_FPATH k) == p)
    || (s.dets t).any fun d => s.f (F.DET_CTL_PATH t d) == p && s.f (F.DET_CTL_CH t d) == i

/-- Whether a stream uses a path: its channel on that path, or a detector on it (R112, R176). -/
def State.usesPath (s : State) (k t p : Nat) : Bool := s.f (F.SE_CTL_SRC_KIND k) != 2 && s.seTile k == some t && s.f (F.SE_CTL_FPATH k) == p

/-- A path is IDLE when no active stream and no enabled detector uses it (R112). -/
def State.pathIdle (s : State) (t p : Nat) : Bool :=
  !(s.activeSids.any fun k => s.usesPath k t p) && !((s.dets t).any fun d => s.f (F.DET_CTL_PATH t d) == p)

/-- Words of a channel in a slice clock: 2 on the even input of a pair. -/
def State.wpc (s : State) (t i : Nat) : Nat := if s.pairEven t i then 2 else 1

/-- The rate of a channel's words in Hz on a grid: from VDIV and RDIV, or on a MACHINE grid from CDIV, RDIV and the nominal period (R92, R114). -/
def State.wordRate (s : State) (g t i : Nat) : Frac :=
  if s.machine g then ⟨1000000000 * 2 ^ 32 * s.f (F.GRID_CTL_CDIV g) * s.wpc t i, s.per g * s.f (F.TILE_CTL_RDIV t)⟩
  else ⟨5000000000 * s.wpc t i, s.sliceVco t⟩

/-- The decimation of the chain, R × 2^h × D (R114). -/
def PathCfg.chain (c : PathCfg) : Nat := c.r * 2 ^ c.hb * c.dec

/-- The condition of a placement mode for one channel (R114, R115). In SCS the chain's stages are off (notes/assumptions/12.md). -/
def State.placeOk (s : State) (c : PathCfg) (t i : Nat) : Bool :=
  let m := s.machine c.grid
  let fg := s.gridRate c.grid
  let fin := s.wordRate c.grid t i
  let fr := fin.over c.chain
  (m == s.b F.SMPL_CTL_SRC) &&
  match c.place with
  | 0 => !m && Frac.le fg fr && Frac.le fr (fg.scale 2)
  | 1 => m && c.chain * s.f (F.TILE_CTL_RDIV t) == s.f (F.GRID_CTL_CDIV c.grid) * s.wpc t i
  | 2 => m && c.chain * s.f (F.TILE_CTL_RDIV t) == s.f (F.GRID_CTL_CDIV c.grid) * s.wpc t i
  | 3 => c.r == 1 && c.hb == 0 && !c.fir && Frac.le (fg.scale 64) fin
  | _ => false

/-- The part of a placement mode's condition that no channel enters: the grid's type, and in SCS the chain's stages off (R114; DEDUCED,
notes/assumptions/12.md). -/
def State.placeForm (s : State) (c : PathCfg) : Bool :=
  match c.place with
  | 0 => !s.machine c.grid
  | 1 => s.machine c.grid
  | 2 => s.machine c.grid
  | 3 => c.r == 1 && c.hb == 0 && !c.fir
  | _ => false

/-- The grid of a path fits the clock source of SMPL (R115). -/
def State.sourceFits (s : State) (c : PathCfg) : Bool := s.machine c.grid == s.b F.SMPL_CTL_SRC

/-- CDIV of a MACHINE grid is a multiple of the RDIV of the tile (R92). -/
def State.cdivOk (s : State) (g t : Nat) : Bool := !s.machine g || s.f (F.GRID_CTL_CDIV g) % s.f (F.TILE_CTL_RDIV t) == 0

/-- Every channel of a path's set meets the placement mode, the clock source and CDIV, and is no odd partner (R42, R92, R114, R115). A
detector's input that no stream names counts too (DESIGN CHOICE, notes/assumptions/107.md). -/
def State.pathOk (s : State) (t p : Nat) : Bool :=
  let c := s.pathAct t p
  (s.chanSet t p).all fun i => s.placeOk c t i && s.cdivOk c.grid t && !s.pairOdd t i

/-- The load of one channel of a path in MAC/s; `twice` during a cross-fade (R116). -/
def State.chanLoad (s : State) (c : PathCfg) (t i : Nat) (twice : Bool) : Frac :=
  let fin := s.wordRate c.grid t i
  let k := if twice then 2 else 1
  let hb1 := if 1 ≤ c.hb then (fin.over (c.r * 2)).scale 16 else ⟨0, 1⟩
  let hb2 := if 2 ≤ c.hb then (fin.over (c.r * 4)).scale 16 else ⟨0, 1⟩
  let fir := if c.fir then (fin.over c.chain).scale (c.taps * k) else ⟨0, 1⟩
  let res := if c.place ≤ 1 then (s.gridRate c.grid).scale (64 * k) else ⟨0, 1⟩
  Frac.sum [hb1, hb2, fir, res]

/-- The load of a path outside fades in MAC/s (R116). -/
def State.pathLoad (s : State) (t p : Nat) : Frac :=
  let c := s.pathAct t p
  Frac.sum ((s.chanSet t p).map fun i => s.chanLoad c t i false)

/-- Whether a fade of the path is in progress: from its GO to its end (R136, R137). -/
def State.fading (s : State) (t p : Nat) : Bool := (s.path (8 * t + p)).fade.isSome

/-- The load of a path as FP_LOAD shows it: in a cross-fade its FIR and resampler terms count twice (R116). -/
def State.pathShown (s : State) (t p : Nat) : Frac :=
  let c := s.pathAct t p
  Frac.sum ((s.chanSet t p).map fun i => s.chanLoad c t i (s.fading t p))

/-- The load of an engine outside fades (R116). -/
def State.engineLoad (s : State) (t : Nat) : Frac := Frac.sum ((range' 0 8).map fun p => s.pathLoad t p)

/-! ### Window and delay of a path -/

/-- The length of a path's input window in word periods (R128). -/
def PathCfg.span (c : PathCfg) : Nat :=
  c.n * (c.r - 1) + (if 1 ≤ c.hb then 30 * c.r else 0) + (if 2 ≤ c.hb then 60 * c.r else 0)
    + (c.taps - 1) * c.r * 2 ^ c.hb + (if c.place ≤ 1 then 31 * c.chain else 0)

/-- The compensated delay of a path in 1/512 word period (R128); the resampler's 15.5 periods where there is a resampler. -/
def PathCfg.delay (c : PathCfg) : Nat :=
  256 * (c.n * (c.r - 1)) + (if 1 ≤ c.hb then 512 * 15 * c.r else 0) + (if 2 ≤ c.hb then 512 * 30 * c.r else 0)
    + 2 * c.gd * c.r * 2 ^ c.hb + (if c.place ≤ 1 then 7936 * c.chain else 0)

/-- The group delay before the resampler in 1/512 word period: GD_pre of R123. -/
def PathCfg.pre (c : PathCfg) : Nat :=
  256 * (c.n * (c.r - 1)) + (if 1 ≤ c.hb then 512 * 15 * c.r else 0) + (if 2 ≤ c.hb then 512 * 30 * c.r else 0) + 2 * c.gd * c.r * 2 ^ c.hb

/-- One word period of a channel as a part of a course period. -/
def State.wordPart (s : State) (g t i : Nat) : Frac :=
  if s.machine g then ⟨s.f (F.TILE_CTL_RDIV t), s.f (F.GRID_CTL_CDIV g) * s.wpc t i⟩
  else ⟨s.sliceVco t * 2 ^ 32, 5 * s.wpc t i * s.per g⟩

/-- SETTLE_N of a channel: ⌈(T_span − GD_comp) × f_g⌉ (R129). -/
def State.settleOf (s : State) (c : PathCfg) (t i : Nat) : Nat :=
  let u := s.wordPart c.grid t i
  match c.place with
  | 2 => ceilDiv (c.span * u.num) u.den
  | 3 => 0
  | _ => ceilDiv ((512 * c.span - c.delay) * u.num) (512 * u.den)

/-- TAIL_N of a channel: ⌈GD_comp × f_g⌉ (R129). -/
def State.tailOf (s : State) (c : PathCfg) (t i : Nat) : Nat :=
  let u := s.wordPart c.grid t i
  match c.place with
  | 2 => 0
  | 3 => 1
  | _ => ceilDiv (c.delay * u.num) (512 * u.den)

/-- The channel of a path with the lowest word rate, which FP_SETTLE, FP_TAIL and FP_GD_TOT show (R504). -/
def State.slowChan (s : State) (t p : Nat) : Nat :=
  let cs := s.chanSet t p
  (cs.find? fun i => !s.pairEven t i).getD (cs.headD 1)

/-- GD_total of a path in ps, rounded to nearest (R129). -/
def State.gdTotal (s : State) (t p : Nat) : Nat :=
  let c := s.pathAct t p
  let u := s.wordPart c.grid t (s.slowChan t p)
  (divEven ((c.delay * u.num * s.per c.grid * 1000 : Nat) : Int) (512 * u.den * 2 ^ 32)).toNat

/-- The CIC shift ⌈N × log2 R⌉ (R117). -/
def PathCfg.shift (c : PathCfg) : Nat := clog2 (c.r ^ c.n)

/-- The CIC normaliser (R117). -/
def PathCfg.norm (c : PathCfg) : Nat := (divEven ((2 ^ (23 + c.shift) : Nat) : Int) (c.r ^ c.n)).toNat

/-! ### The checks of R15 -/

/-- The tiles that any stream entry or enabled detector draws on. -/
def State.busyTiles (s : State) : List Nat :=
  (range' 0 24).filter fun t => (s.sids.any fun k => s.seTile k == some t) || !(s.dets t).isEmpty

/-- Whether any path of the engine fades. -/
def State.anyFade (s : State) (t : Nat) : Bool := (range' 0 8).any fun p => s.fading t p

/-- The load of an engine is within 51.2 GMAC/s, or within 25.6 GMAC/s while a fade of it runs (R116, R136). -/
def State.loadOk (s : State) (t : Nat) : Bool :=
  Frac.le (s.engineLoad t) ⟨if s.anyFade t then 25600000000 else 51200000000, 1⟩

/-- The engine limits of one tile: every path, and the load. -/
def State.engineOk (s : State) (t : Nat) : Bool := (range' 0 8).all (fun p => s.pathOk t p) && s.loadOk t

/-- A grid runs faster than 10 MS/s (R13). -/
def State.fastGrid (s : State) (g : Nat) : Bool := decide (s.per g < 100 * 2 ^ 32)

/-- No MASON-path stream on a grid faster than 10 MS/s (R13, R14). -/
def State.masonRateOk (s : State) : Bool := s.sids.all fun k => !(s.b (F.SE_CTL_PATH k) && s.fastGrid (s.f (F.SE_CTL_GRID k)))

/-! ### Packer, press and window store (R15, R157, R287) -/

/-- Whether a stream's profiles include a DELTA one. -/
def State.anyDelta (s : State) (k : Nat) : Bool :=
  s.f (F.RP_CTL_REP (s.f (F.SE_REP_NORMAL k))) == 1 || s.f (F.RP_CTL_REP (s.f (F.SE_REP_FALLBACK k))) == 1

/-- The committed rate of a STRAIGHT stream in bytes/s (R287); a stream written by a mason has none of its own. -/
def State.streamRate (s : State) (k : Nat) : Frac :=
  let fg := s.gridRate (s.f (F.SE_CTL_GRID k))
  let c := s.f (F.SE_SRC_CH k)
  if s.b (F.SE_CTL_PATH k) then ⟨0, 1⟩
  else match s.f (F.SE_CTL_SRC_KIND k) with
    | 0 => fg.scale (if s.anyDelta k then 5 else if bit (s.f (F.PK_CTL_W16 (c / 16))) (c % 16) then 2 else 3)
    | 1 => (fg.scale 16).over (s.f (F.DET_WIN_LEN (s.f (F.SE_SRC_TILE k)) (s.f (F.SE_SRC_DET k))) + 1)
    | _ => ⟨0, 1⟩

/-- The record packer of a tile stays within 3.2 GB/s, with the rates of R287 (R15, R17; notes/assumptions/13.md). -/
def State.packerOk (s : State) (t : Nat) : Bool :=
  Frac.le (Frac.sum ((s.sids.filter fun k => s.seTile k == some t).map s.streamRate)) ⟨3200000000, 1⟩

/-- The committed rate of a compress engine in bytes/s (R287). -/
def State.pressLoad (s : State) (e : Nat) : Frac :=
  let ks := s.activeSids.filter fun k => s.b (F.SE_REP_PRESS_EN k) && s.f (F.SE_REP_ENG k) == e
  let mres := if ks.any fun k => s.b (F.SE_CTL_PATH k) then (s.w (R.PC_MRES e)).toNat * 1000 else 0
  Frac.add ⟨mres, 1⟩ (Frac.sum (ks.map s.streamRate))

/-- Every compress engine stays within 8 GB/s (R287). -/
def State.pressOk (s : State) : Bool := (range' 0 4).all fun e => Frac.le (s.pressLoad e) ⟨8000000000, 1⟩

/-- LAT of a path in courses (R157). -/
def State.lat (s : State) (t p : Nat) : Nat :=
  let c := s.pathAct t p
  let i := s.slowChan t p
  max (s.tailOf c t i) (s.settleOf c t i) + ceilDiv (1000 * 2 ^ 32) (s.per c.grid)

/-- The paths of the sources of a group's enabled units. -/
def State.groupPaths (s : State) (g : Nat) : List (Nat × Nat) :=
  ((range' 0 64).filter fun u => s.b (F.TU_CTL_EN u) && s.f (F.TU_CTL_GROUP u) == g).map fun u =>
    if s.f (F.TU_CTL_SRC_KIND u) = 0 then
      let k := s.f (F.TU_SRC_SID u)
      ((s.seTile k).getD 0, s.f (F.SE_CTL_FPATH k))
    else (s.f (F.TU_SRC_TILE u), s.f (F.DET_CTL_PATH (s.f (F.TU_SRC_TILE u)) (s.f (F.TU_SRC_DET u))))

/-- K_s of a stream linked to a group (R157). -/
def State.skewOf (s : State) (g k : Nat) : Nat :=
  let most := ((s.groupPaths g).map fun q => s.lat q.1 q.2).foldl max 0
  most - s.lat ((s.seTile k).getD 0) (s.f (F.SE_CTL_FPATH k))

/-- The words of the window store that a link occupies: none while its stream is inactive (R157). -/
def State.linkWords (s : State) (l : Nat) : Nat :=
  let k := s.f (F.WS_LINK_SID l)
  let g := s.f (F.WS_LINK_GROUP l)
  if s.b (F.SE_CTL_ACT k) then s.f (F.TG_CTL_PRE g) + s.skewOf g k else 0

/-- The words of the window store that are committed. -/
def State.wsUsed (s : State) : Nat := (s.links.map s.linkWords).sum

/-- The limits of the window store (R157). -/
def State.storeOk (s : State) : Bool :=
  let act := (s.links.map fun l => s.f (F.WS_LINK_SID l)).filter fun k => s.b (F.SE_CTL_ACT k)
  decide (s.wsUsed ≤ 1048576) && Frac.le (Frac.sum (act.map fun k => s.gridRate (s.f (F.SE_CTL_GRID k)))) ⟨12800000000, 1⟩

/-- Every capacity of R15 that a change of a tile's paths can break. -/
def State.tileOk (s : State) (t : Nat) : Bool := s.engineOk t && s.packerOk t && s.pressOk && s.storeOk

/-- A stream table entry or an enabled detector names a path (R112, R115). -/
def State.pathNamed (s : State) (t p : Nat) : Bool :=
  (s.sids.any fun k => s.usesPath k t p) || (s.dets t).any fun d => s.f (F.DET_CTL_PATH t d) == p

/-- Every limit of R15 and R113 to R116 that a change of one path, or of what names it, can break. -/
def State.pathFits (s : State) (t p : Nat) : Bool := s.pathOk t p && s.loadOk t && s.packerOk t && s.pressOk && s.storeOk

/-- Every limit that the period of a grid can break: the loads of the tiles with a path on it, of the press and of the window store, and the masons'
course rate (R14, R15, R157). The placement condition of R114 and the CDIV condition of R92 are not among them (notes/assumptions/98.md). -/
def State.periodFits (s : State) (g : Nat) : Bool :=
  s.busyTiles.all (fun t =>
    let on := (range' 0 8).any fun p => s.f (F.FP_CTL_GRID t p) == g && s.pathNamed t p
    !on || (s.loadOk t && s.packerOk t)) && s.pressOk && s.storeOk && s.masonRateOk

end Sys2Proof.Machine
end

