-- ==== Sys2Proof/Machine/Records.lean ====
section
/-!
DEFINITION. The layouts of the records (R251 to R262, R164) and the rules by which a tile's record packer, and a compress engine behind it, fill
hods and hand them on (R263 to R266, R292, R293).
-/

namespace Sys2Proof.Machine

/-- A record header (R251). -/
def recHdr (typ rlen low : Nat) : Word := BitVec.ofNat 32 (typ * 2 ^ 28 + rlen * 2 ^ 16 + low)

/-- The type of a record. -/
def Rec.typ (r : Rec) : Nat := bits (r.words.headD 0).toNat 31 28

/-- The QUALITY of a record's header. -/
def Rec.q (r : Rec) : Nat := bits (r.words.headD 0).toNat 1 0

/-- A GAP record (R259). -/
def gapRec (g : GRun) : Rec :=
  { words := [recHdr 4 3 (b2n g.dropped * 2 ^ 15 + g.reason * 16 + g.q), BitVec.ofNat 32 (g.first / 2 ^ 32), BitVec.ofNat 32 g.first,
      BitVec.ofNat 32 g.count], first := g.first, cover := if g.reason = 4 then 0 else g.count }

/-- A SETTLE record (R259). -/
def settleRec (first count why q : Nat) : Rec :=
  { words := [recHdr 6 3 (why * 256 + q), BitVec.ofNat 32 (first / 2 ^ 32), BitVec.ofNat 32 first, BitVec.ofNat 32 count], first := first,
    cover := count }

/-- A TDISC record: the ST of the boundary course's instant before and after the step (R261). -/
def tdiscRec (n old new q : Nat) : Rec :=
  let sub (t : Nat) := t % nsU
  let ns (t : Nat) := t % secU / nsU
  let sec (t : Nat) := t / secU
  { words := [recHdr 5 8 (b2n (decide (new < old)) * 2 ^ 15 + q), BitVec.ofNat 32 (sub old * 65536 + n / 2 ^ 32), BitVec.ofNat 32 n,
      BitVec.ofNat 32 (sub new * 65536 + sec old / 2 ^ 32), BitVec.ofNat 32 (sec old), BitVec.ofNat 32 (ns old),
      BitVec.ofNat 32 (sec new / 2 ^ 32), BitVec.ofNat 32 (sec new), BitVec.ofNat 32 (ns new)], first := n, cover := 0 }

/-- A MARK record (R164). -/
def markRec (n group grid pre mask supp post q : Nat) (forced merged short : Bool) : Rec :=
  { words := [recHdr 3 5 (b2n forced * 2 ^ 15 + b2n merged * 2 ^ 14 + b2n short * 2 ^ 13 + group * 64 + q),
      BitVec.ofNat 32 (grid * 2 ^ 30 + pre * 65536 + n / 2 ^ 32 % 65536), BitVec.ofNat 32 n, BitVec.ofNat 32 (mask / 2 ^ 32),
      BitVec.ofNat 32 mask, BitVec.ofNat 32 (min supp 65535 * 65536 + post)], first := n, cover := 0 }

/-- A DETECT record (R262). -/
def detectRec (d typ : Nat) (o : DetOut) : Rec :=
  let low := b2n o.settling * 2 ^ 15 + typ * 2 ^ 13 + d * 256 + o.q
  let ws := [BitVec.ofNat 32 o.first, BitVec.ofNat 32 (o.count - 1), BitVec.ofInt 32 o.v1]
  { words := if typ = 0 then recHdr 7 4 low :: ws ++ [BitVec.ofInt 32 o.v2] else recHdr 7 3 low :: ws, first := o.first, cover := o.count }

/-- A value in its record form: 24 bits, or 16 with round half to even and saturation (R256). -/
def valBits (w16 : Bool) (v : Int) : Nat := if w16 then wrap 16 (satS 16 (divEven v 256)) else wrap 24 v

/-- The words of an open record with one more value or not, header included (R255, R258). -/
def Cur.size (c : Cur) (more : Nat) : Nat :=
  let n := c.vals.length + more
  if c.typ = 2 then 2 + ceilDiv (5 * n) 4
  else 1 + b2n c.cw + b2n (c.dec != 0) + dataWords (if c.w16 then 16 else 24) n

/-- The record that an open record closes into. -/
def Cur.close (c : Cur) : Rec :=
  let n := c.vals.length
  if c.typ = 2 then
    let tail := c.cover - 1 - (c.vals.drop 1).foldl (fun a v => a + v.2) 0
    let tags := tail :: (c.vals.drop 1).map Prod.snd
    let es := List.zipWith (fun v t => t * 2 ^ 24 + wrap 24 v.1) c.vals tags
    { words := recHdr 2 (1 + ceilDiv (5 * n) 4) (b2n c.settling * 2 ^ 15 + b2n c.fb * 2 ^ 13 + c.q) :: BitVec.ofNat 32 c.first :: packVals 40 es,
      first := c.first, cover := c.cover }
  else
    let w := if c.w16 then 16 else 24
    let d := dataWords w n
    let short := decide (n < 32 * d / w)
    let low := b2n c.settling * 2 ^ 15 + b2n c.inWin * 2 ^ 14 + b2n c.fb * 2 ^ 13 + b2n c.w16 * 2 ^ 12 + b2n c.cw * 2 ^ 11 + b2n short * 2 ^ 10
      + b2n (c.dec != 0) * 2 ^ 9 + c.dmode * 2 ^ 8 + c.q
    { words := recHdr 1 (d + b2n c.cw + b2n (c.dec != 0)) low :: ((if c.cw then [BitVec.ofNat 32 c.first] else [])
        ++ (if c.dec != 0 then [BitVec.ofNat 32 (c.dec - 1)] else []) ++ packVals w (c.vals.map fun v => valBits c.w16 v.1)),
      first := c.first, cover := c.cover }

/-- The cursor after a record (R254). -/
def cursorAfter (cur : Nat) (r : Rec) (values dec : Nat) : Nat :=
  match r.typ with
  | 1 => (r.first + values * (if dec = 0 then 1 else dec)) % 2 ^ 32
  | 2 => (r.first + r.cover) % 2 ^ 32
  | 4 => if bits (r.words.headD 0).toNat 7 4 = 4 then cur else (r.first + r.cover) % 2 ^ 32
  | 6 => (r.first + r.cover) % 2 ^ 32
  | _ => cur

/-- The words of the records of an assembling hod. -/
def recWords (rs : List Rec) : Nat := (rs.map fun r => r.words.length).sum

/-! ### Open hods -/

/-- The open hod of a stream in a packer or an engine. -/
def State.openOf (s : State) (k sid : Nat) : Option Open := (s.pack k).find? fun h => h.sid == sid

/-- The open hods of a packer without that of a stream. -/
def State.dropOpen (s : State) (k sid : Nat) : State := s.setPack k ((s.pack k).filter fun h => h.sid != sid)

/-- The open hod of a stream replaced in its place. -/
def State.putOpen (s : State) (k : Nat) (h : Open) : State :=
  s.setPack k ((s.pack k).map fun x => if x.sid == h.sid then h else x)

/-- The key of compress engine `e` among the packers. -/
def engKey (e : Nat) : Nat := 100 + e

/-- A hod handed on to the yard; one without records is not (R265). Engine hods wait for the end of their block (R266, R296); `cut`: the block holds
one record that its code does not fit, which is stored RAW (R293). -/
def State.handOnAs (s : State) (k sid : Nat) (cut : Bool) : State :=
  match s.openOf k sid with
  | none => s
  | some h =>
    let s1 := s.dropOpen k sid
    if h.recs = [] then s1
    else
      { s1 with handed := s.handed ++ [⟨sid, h.course, h.recs, if 100 ≤ k then some (k - 100) else none, decide (100 ≤ k),
          if 100 ≤ k then [] else (h.recs.map Rec.words).flatten, cut, s.b (F.PC_CTL_PRED (k - 100))⟩] }

/-- A hod handed on to the yard with the records that it holds (R265). -/
def State.handOnRaw (s : State) (k sid : Nat) : State := s.handOnAs k sid false

/-- A record appended to a hod, with the cursor of R254. -/
def Open.add (h : Open) (r : Rec) (values dec : Nat) : Open :=
  { h with recs := h.recs ++ [r], cursor := cursorAfter h.cursor r values dec }

/-- A record joins a hod: `mk` makes it with a course word or without, and a SAMPLES record carries one exactly when its first course is not the cursor
(R255). An empty hod begins at the record. -/
def Open.put (h : Open) (mk : Bool → Rec) (first values dec : Nat) : Open :=
  if h.recs = [] then { h with course := first % 2 ^ 32, cursor := first % 2 ^ 32 }.add (mk false) values dec
  else h.add (mk (decide (first % 2 ^ 32 ≠ h.cursor))) values dec

/-- What a tile packer holds of a stream beside its hod's records closes into them before the hod is handed on early: the open record, and the open run
of lost courses where the hod has room for its GAP record (R64, R263). -/
def State.fillHod (s : State) (k sid : Nat) : State :=
  match s.openOf k sid with
  | none => s
  | some h =>
    let x := s.str sid
    let h1 := match x.cur with
      | some c => if k < 100 then h.put (fun cw => { c with cw := cw }.close) c.first c.vals.length c.dec else h
      | none => h
    let h2 := match x.lost with
      | some g => if recWords h1.recs + 4 ≤ 1022 ∧ (k < 100 ∨ h.recs = []) then h1.put (fun _ => gapRec g) g.first 0 0 else h1
      | none => h1
    let run := decide (h1.recs.length < h2.recs.length)
    let y := { x with cur := if k < 100 then none else x.cur, lost := if run then none else x.lost, brk := x.brk || run }
    let s1 := (s.putOpen k h2).setStr sid y
    match x.lost with
    | some g => if run then s1.setTwo (R.SE_LOST sid) (s1.two (R.SE_LOST sid) + g.count) else s1
    | none => s1

/-- A hod opened for a stream; when none of the 64 buffers is free the one opened earliest is handed on first (R263, R292). -/
def State.openHod (s : State) (k sid course : Nat) : State :=
  let s1 := if 64 ≤ (s.pack k).length then
      let old := ((s.pack k).headD ⟨0, 0, [], 0, 0⟩).sid
      let t := (s.fillHod k old).handOnRaw k old
      if 100 ≤ k then t.bump (F.PC_STAT_EVICT (k - 100)) 1 else t.bump (F.PK_STAT_EVICT k) 1
    else s
  s1.setPack k (s1.pack k ++ [⟨sid, course % 2 ^ 32, [], course % 2 ^ 32, s.cyc⟩])

/-- The tile packer of a stream. -/
def State.packerOf (s : State) (sid : Nat) : Nat := (s.seTile sid).getD 24

/-- A stream's hods pass through a press engine (R286). -/
def State.pressed (s : State) (sid : Nat) : Bool := s.b (F.SE_REP_PRESS_EN sid)

/-- The packer or engine that holds the open hod of a STRAIGHT stream (R292). -/
def State.hodKey (s : State) (sid : Nat) : Nat := if s.pressed sid then engKey (s.f (F.SE_REP_ENG sid)) else s.packerOf sid

/-- The predictor and coder fit the records in one hod of engine `k` (R293). -/
def State.engineFits (s : State) (k : Nat) (rs : List Rec) : Bool := pressFits (s.b (F.PC_CTL_PRED (k - 100))) (rs.map Rec.words)

/-- A record joins an open hod that holds none. A record whose code does not fit the engine's block is stored alone as a RAW block (R293). -/
def State.firstRec (s : State) (k sid : Nat) (mk : Bool → Rec) (first values dec : Nat) : State :=
  match s.openOf k sid with
  | none => s
  | some h =>
    let h1 := h.put mk first values dec
    let s1 := s.putOpen k h1
    if 100 ≤ k ∧ !s.engineFits k h1.recs then (s1.bumpW (R.PC_CUT (k - 100)) 1).handOnAs k sid true else s1

/-- A closed record joins the open hod of its stream in a tile packer or in the engine behind it. Where the hod has no room, or the engine's block
would not (R293), the hod is handed on and the record begins the next. -/
def State.addRec (s : State) (sid : Nat) (mk : Bool → Rec) (first values dec : Nat) : State :=
  let k := s.hodKey sid
  let start (s : State) : State := (s.openHod k sid first).firstRec k sid mk first values dec
  match s.openOf k sid with
  | none => start s
  | some h =>
    if h.recs = [] then s.firstRec k sid mk first values dec
    else
      let h1 := h.put mk first values dec
      if k < 100 then if recWords h1.recs ≤ 1022 then s.putOpen k h1 else start (s.handOnRaw k sid)
      else if s.engineFits k h1.recs then s.putOpen k h1
      else
        let s1 := if 4 * recWords h1.recs ≤ 65536 then s.bumpW (R.PC_CUT (k - 100)) 1 else s
        start (s1.handOnRaw k sid)

/-- A stream's open record closes and joins its hod (R264). -/
def State.closeCur (s : State) (sid : Nat) : State :=
  match (s.str sid).cur with
  | none => s
  | some c =>
    (s.setStr sid { s.str sid with cur := none }).addRec sid (fun cw => { c with cw := cw }.close) c.first c.vals.length c.dec

/-- The open run of reason 1 or 2 of a STRAIGHT stream closes into its GAP record (R64). -/
def State.closeLost (s : State) (sid : Nat) : State :=
  match (s.str sid).lost with
  | none => s
  | some g =>
    let s1 := (s.setStr sid { s.str sid with lost := none, brk := true }).addRec sid (fun _ => gapRec g) g.first 0 0
    s1.setTwo (R.SE_LOST sid) (s1.two (R.SE_LOST sid) + g.count)

/-- A muted SETTLE run closes into its record; its end is a break (R134, R169). -/
def State.closeMute (s : State) (sid : Nat) : State :=
  match (s.str sid).mute with
  | none => s
  | some (first, count, why, q) =>
    (s.setStr sid { s.str sid with mute := none, brk := true }).addRec sid (fun _ => settleRec first count why q) first 0 0

/-- A STRAIGHT stream's hod is handed on with everything its packer still holds of it: the open record and the open run (R64, R265). -/
def State.handOn (s : State) (sid : Nat) : State :=
  let s1 := (s.closeCur sid).closeLost sid
  s1.handOnRaw (s1.hodKey sid) sid

/-- YARD_FLUSH: a tile packer hands the stream's hod on with what it holds of it; behind an engine the record that is still open stays in the packer
(R64, R265, R292). -/
def State.flushHod (s : State) (sid : Nat) : State :=
  if s.pressed sid then let s1 := s.closeLost sid; s1.handOnRaw (s1.hodKey sid) sid else s.handOn sid

/-- The room in words that an open record has: what the hod leaves, or RMAX behind an engine (R264, R292). -/
def State.curRoom (s : State) (sid : Nat) : Nat :=
  let k := s.hodKey sid
  if 100 ≤ k then s.f (F.PC_CTL_RMAX (k - 100))
  else match s.openOf k sid with
    | none => 1022
    | some h => 1022 - recWords h.recs

/-- Whether a value may join an open record: same type and flags, and for SAMPLES the next course (R264). -/
def Cur.takes (c v : Cur) : Bool :=
  c.typ == v.typ && c.settling == v.settling && c.inWin == v.inWin && c.fb == v.fb && c.q == v.q && c.dec == v.dec && c.dmode == v.dmode
    && c.w16 == v.w16 && (c.typ == 2 || v.first == c48 (c.first + c.vals.length * (if c.dec = 0 then 1 else c.dec)))

/-- The hod's cursor as an open record would meet it; a hod still to be opened begins at the record. -/
def State.cursorOf (s : State) (sid first : Nat) : Nat :=
  match s.openOf (s.hodKey sid) sid with
  | none => first % 2 ^ 32
  | some h => if h.recs = [] then first % 2 ^ 32 else h.cursor

/-- A new open record with one value, in the stream's hod, which is opened or, where the record does not fit, handed on first. -/
def State.startCur (s : State) (sid : Nat) (v : Cur) : State :=
  let v1 := { v with cw := decide (v.first % 2 ^ 32 ≠ s.cursorOf sid v.first) }
  let k := s.hodKey sid
  if 100 ≤ k then s.setStr sid { s.str sid with cur := some v1 }
  else
    let s1 := if s.curRoom sid < v1.size 0 then s.handOnRaw k sid else s
    let v2 := { v with cw := decide (v.first % 2 ^ 32 ≠ s1.cursorOf sid v.first) }
    let s2 := if (s1.openOf k sid).isSome then s1 else s1.openHod k sid v.first
    s2.setStr sid { s2.str sid with cur := some v2 }

/-- One value for a stream's packer: it joins the open record, or the record closes and a new one begins with it (R264). Behind an engine a record that
has reached RMAX words closes (R292). -/
def State.putValue (s : State) (sid : Nat) (v : Cur) : State :=
  match (s.str sid).cur with
  | none => s.startCur sid v
  | some c =>
    if c.takes v && decide (c.size 1 ≤ s.curRoom sid) then
      let c1 := { c with vals := c.vals ++ v.vals, cover := c.cover + v.cover }
      (s.setStr sid { s.str sid with cur := some c1 }).when (s.pressed sid && decide (s.curRoom sid ≤ c1.size 0)) fun s => s.closeCur sid
    else
      let s1 := s.closeCur sid
      let s2 := if c.takes v && decide (s.hodKey sid < 100) then s1.handOnRaw (s1.hodKey sid) sid else s1
      s2.startCur sid v

end Sys2Proof.Machine
end

