-- ==== Sys2Proof/Machine/YardOps.lean ====
section
/-!
DEFINITION. The yard's shared operations: the bytes of a hod in a ring (R267, R268), the comparison with the watermarks (R275), refusal into runs
and kept records (R276, R277), admission (R268, R276), the resume of a class (R278) and the freeing of hods (R272).
-/

namespace Sys2Proof.Machine

/-- The ring of a stream. -/
def State.portOf (s : State) (sid : Nat) : Nat := s.f (F.SE_CTL_PORT sid)

/-- The class of a stream. -/
def State.prioOf (s : State) (sid : Nat) : Nat := s.f (F.SE_CTL_PRIO sid)

/-- The size of a ring in bytes (R267). -/
def State.ringSize (s : State) (p : Nat) : Nat := s.f (F.RING_CFG_SIZE p) * 2 ^ 20

/-- The fill of a ring in bytes: from the rewind mark to the write point (R275). -/
def State.ringUsed (s : State) (p : Nat) : Nat := ((s.ring p).hods.map RHod.size).sum

/-- The bytes that a hod of `len` payload words occupies in a ring (R268). -/
def hodBytes (len : Nat) : Nat := 64 * ceilDiv (8 + 4 * len) 64

/-- Whether a ring's fill is at least `pct` percent of its size. -/
def State.fillGe (s : State) (p pct : Nat) : Bool := decide (pct * s.ringSize p ≤ 100 * s.ringUsed p)

/-! ### Watermarks (R275) -/

/-- FB of a ring after a comparison: which classes are on their fallback profile. -/
def State.fbNext (s : State) (p : Nat) : Nat :=
  let w1 := s.f F.YARD_CTL_W1_LVL
  let w2 := s.f F.YARD_CTL_W2_LVL
  let h := s.f F.YARD_CTL_HYST
  let fb := s.f (F.RING_STAT_FB p)
  if s.fillGe p w2 || (fb == 2 && s.fillGe p (w2 - h)) then 2
  else if s.fillGe p w1 || (1 ≤ fb && s.fillGe p (w1 - h)) then 1
  else 0

/-- The comparison of a ring's fill with W1 and W2, after an admission or a HORIZON (R275). -/
def State.watermarks (s : State) (p : Nat) : State :=
  let fb := s.f (F.RING_STAT_FB p)
  let n := s.fbNext p
  let s1 := s.setF (F.RING_STAT_FB p) n
  let s2 := s1.when (decide (fb = 0 ∧ 1 ≤ n)) fun s => s.raiseBit R.YARD_EVT 0 0x0601 p 0
  s2.when (decide (fb < 2 ∧ n = 2)) fun s => s.raiseBit R.YARD_EVT 1 0x0602 p 0

/-! ### The gap reserve (R277) -/

/-- The bytes of the reserve that hold records. -/
def rsvCapacity : Nat := 896 * 1024

/-- A number put into a rising list. -/
def insNat (x : Nat) : List Nat → List Nat
  | [] => [x]
  | a :: r => if x < a then x :: a :: r else if x = a then a :: r else a :: insNat x r

/-- A record kept in the reserve; a full reserve discards it, and the stream's runs carry DROPPED until it has room again (R277). -/
def State.keepRec (s : State) (sid : Nat) (r : Rec) : State :=
  let u := (s.w R.RSV_USED).toNat + 4 * r.words.length
  if u ≤ rsvCapacity then { s.setW R.RSV_USED (BitVec.ofNat 32 u) with kept := s.kept ++ [(sid, r)] }
  else
    let full := s.b F.YARD_STAT_RSV_FULL
    let s1 := (s.bumpW R.RSV_DROP 1).setF F.YARD_STAT_RSV_FULL 1
    let s2 := { s1 with lossy := insNat sid s1.lossy }
    let s3 := match s2.run sid with
      | some g => s2.setRun sid (some { g with dropped := true })
      | none => s2
    s3.when (!full) fun s => s.raiseBit R.YARD_EVT 6 0x0607 0 0

/-- The open run of a stream closes into its GAP record in the reserve. -/
def State.closeRun (s : State) (sid : Nat) : State :=
  match s.run sid with
  | none => s
  | some g => (s.setRun sid none).keepRec sid (gapRec g)

/-- A refused span of courses joins the stream's open run where it begins on the course after the run's last and has its quality; otherwise the
run closes and a new one opens (R277). A run longer than a record can count is split (R260). -/
def State.refuseSpan (s : State) (sid first count q : Nat) : State :=
  let fresh (s : State) : State := s.setRun sid (some ⟨first, count, 0, q, s.lossy.contains sid⟩)
  match s.run sid with
  | none => fresh s
  | some g =>
    if first = c48 (g.first + g.count) ∧ q = g.q ∧ g.count + count < 2 ^ 32 then s.setRun sid (some { g with count := g.count + count })
    else fresh (s.closeRun sid)

/-- One record of a refused hod (R276); STAT records are counted by the caller. -/
def State.refuseRec (s : State) (sid : Nat) (r : Rec) : State :=
  match r.typ with
  | 1 => s.refuseSpan sid r.first r.cover r.q
  | 2 => s.refuseSpan sid r.first r.cover r.q
  | 7 => s.refuseSpan sid r.first r.cover r.q
  | 9 => s
  | _ => s.keepRec sid r

/-- A ring refuses a hod: its records become courses of the run, one GAP record of reason 4 for its STAT records, or kept records (R276). -/
def State.refuseHod (s : State) (p : Nat) (h : Handed) : State :=
  let s1 := s.bumpW (R.RING_REFUSED p) 1
  let s2 := s1.each h.recs fun s r => s.refuseRec h.sid r
  let n := (h.recs.filter fun r => r.typ == 9).length
  s2.when (decide (0 < n)) fun s => s.keepRec h.sid (gapRec ⟨h.course, n, 4, s.f F.TIME_STAT_QUALITY, s.lossy.contains h.sid⟩)

/-- Whether the reserve holds something of a stream. -/
def State.inReserve (s : State) (sid : Nat) : Bool := (s.run sid).isSome || s.kept.any fun x => x.1 == sid

/-! ### Admission (R268, R276) -/

/-- Bytes written into a ring from an offset on; the offset wraps at the ring's end. -/
def State.ringWrite (s : State) (p off : Nat) : List Byte → State
  | [] => s
  | b :: bs =>
    (s.setByte (0x20000000 + s.f (F.RING_CFG_BASE p) * 2 ^ 20 + off % s.ringSize p) b).ringWrite p (off + 1) bs

/-- The stored form of a STREAM hod: its header with LSEQ zero, YSEQ, COURSE_L and the payload (R249, R250, R268). -/
def State.streamHod (s : State) (sid flags yseq course : Nat) (body : List Word) : Hod :=
  { typ := 5, vc := 2, flags := flags, hid := s.f F.LINK_STAT_HID, sub := sid, lseq := 0,
    payload := BitVec.ofNat 32 yseq :: BitVec.ofNat 32 course :: body }

/-- Whether a yard address lies among the `sz` bytes of a ring from an offset on. -/
def State.inRing (s : State) (p off sz a : Nat) : Bool :=
  let b := 0x20000000 + s.f (F.RING_CFG_BASE p) * 2 ^ 20
  decide (b ≤ a ∧ a < b + s.ringSize p) && decide ((a - b + s.ringSize p - off % s.ringSize p) % s.ringSize p < sz)

/-- A hod enters its ring with the next YSEQ (R268). Words written afresh hold no error. -/
def State.takeIn (s : State) (p sid : Nat) (pressed : Bool) (course : Nat) (body : List Word) : State :=
  let y := (s.w (R.RING_WSEQ p)).toNat
  let len := 2 + body.length
  let sz := hodBytes len
  let r := s.ring p
  let s0 := { s with bad := s.bad.filter fun a => !s.inRing p r.wr sz a }
  let s1 := s0.ringWrite p r.wr (s.streamHod sid (8 * b2n pressed) y course body).bytes
  let s2 := s1.setRing p ⟨r.hods ++ [⟨y, sid, pressed, len, r.wr, sz, false⟩], (r.wr + sz) % s.ringSize p⟩
  let s3 := s2.setW (R.RING_WSEQ p) (BitVec.ofNat 32 (y + 1))
  let s4 := s3.setTwo (R.RING_BYTES p) (s3.two (R.RING_BYTES p) + sz)
  let s5 := (s4.setTwo (R.SE_BYTES sid) (s4.two (R.SE_BYTES sid) + 4 * len)).setF F.YARD_STAT_SREF 0
  s5.watermarks p

/-- Whether a ring refuses the class of a stream (R276, R278). -/
def State.classRefused (s : State) (p sid : Nat) : Bool :=
  if s.prioOf sid = 0 then s.b (F.RING_STAT_W3_0 p) else s.b (F.RING_STAT_W3_N p)

/-- Whether a ring has room for `len` payload words (R276). -/
def State.hasRoom (s : State) (p len : Nat) : Bool := decide (s.ringUsed p + hodBytes len ≤ s.ringSize p)

/-- A ring enters W3; reserve hods still to be written to it wait for the next resume (R276, R278). -/
def State.enterW3 (s : State) (p : Nat) : State :=
  let s1 := (s.setF (F.RING_STAT_W3_0 p) 1).setF (F.RING_STAT_W3_N p) 1
  ({ s1 with resumed := s1.resumed.filter fun x => x.2 != p } : State).raiseBit R.YARD_EVT 2 0x0603 p 0

/-- The yard takes one handed-on hod: admitted into the ring of its stream's PORT, or refused (R268, R276). -/
def State.yardTake (s : State) (h : Handed) : State :=
  let p := s.portOf h.sid
  if s.classRefused p h.sid then s.refuseHod p h
  else if s.hasRoom p (2 + h.body.length) then s.takeIn p h.sid h.pressed h.course h.body
  else (s.enterW3 p).refuseHod p h

/-- The first hod that may be taken, and the rest: its block is coded, no earlier hod of its stream waits, and its stream has no reserve hods to
write first (R266, R278). -/
def State.nextHanded (s : State) : List Nat → List Handed → Option (Handed × List Handed)
  | _, [] => none
  | seen, h :: r =>
    let wait := h.engine.isSome || seen.contains h.sid || s.resumed.contains (h.sid, s.portOf h.sid)
    if wait then match s.nextHanded (h.sid :: seen) r with
      | none => none
      | some (x, r2) => some (x, h :: r2)
    else some (h, r)

/-- Admissions happen in ACQUIRE and in the drain, and at no other time (R268). -/
def State.admits (s : State) : Bool := s.mode == 3 || s.draining

/-- The yard takes the next handed-on hod, if there is one. -/
def State.admitNext (s : State) : State :=
  if !s.admits then s
  else match s.nextHanded [] s.handed with
    | none => s
    | some (h, r) => { s with handed := r }.yardTake h

/-! ### Engines (R293 to R296) -/

/-- The first hod of an engine whose block is not ended: its block is coded (R290, R294). -/
def State.codeHanded (s : State) (e : Nat) : List Handed → State × List Handed
  | [] => (s, [])
  | h :: r =>
    if h.engine = some e then
      let (raw, body) := pressBlock h.pred h.cut (h.recs.map Rec.words)
      let s1 := s.setTwo (R.PC_IN e) (s.two (R.PC_IN e) + 4 * recWords h.recs)
      let s2 := s1.setTwo (R.PC_OUT e) (s1.two (R.PC_OUT e) + 4 * body.length)
      (s2.when raw fun s => s.bumpW (R.PC_RAW e) 1, { h with engine := none, body := body } :: r)
    else
      let (s1, r1) := s.codeHanded e r
      (s1, h :: r1)

/-- An engine ends the block of the hod it handed on first (R293, R296). -/
def State.blockEnd (s : State) (e : Nat) : State :=
  let (s1, hs) := s.codeHanded e s.handed
  { s1 with handed := hs }

/-! ### Reserve hods (R278) -/

/-- A record put before the first with a later first course. -/
def insRec (r : Rec) : List Rec → List Rec
  | [] => [r]
  | x :: xs => if r.first < x.first then r :: x :: xs else x :: insRec r xs

/-- Records in order of first course; equal ones keep their order. -/
def sortRecs : List Rec → List Rec
  | [] => []
  | r :: rs => insRec r (sortRecs rs)

/-- Records cut into hods of at most 1,022 words, in order. -/
def cutHods : List Rec → Nat → List Rec → List (List Rec)
  | [], _, acc => if acc = [] then [] else [acc]
  | r :: rs, n, acc =>
    if n + r.words.length ≤ 1022 then cutHods rs (n + r.words.length) (acc ++ [r]) else acc :: cutHods rs r.words.length [r]

/-- The reserve's records of a stream: the kept records and the open run's GAP record, by first course. -/
def State.reserveRecs (s : State) (sid : Nat) : List Rec :=
  let ks := (s.kept.filter fun x => x.1 == sid).map Prod.snd
  sortRecs (match s.run sid with
    | some g => gapRec g :: ks.reverse
    | none => ks.reverse)

/-- The courses of reason 0 that records count. -/
def lostCourses (rs : List Rec) : Nat :=
  (rs.map fun r => if r.typ = 4 ∧ bits (r.words.headD 0).toNat 7 4 = 0 then r.cover else 0).sum

/-- Reserve hods written in order; where one does not fit, it and the later ones stay, and the ring enters W3 again (R278). Answers whether all
were written. -/
def State.writeHods (s : State) (p sid : Nat) : List (List Rec) → State × List (List Rec)
  | [] => (s, [])
  | rs :: more =>
    let body := (rs.map Rec.words).flatten
    if s.hasRoom p (2 + body.length) then
      let s1 := s.takeIn p sid false ((rs.headD ⟨[], 0, 0⟩).first % 2 ^ 32) body
      let s2 := s1.setTwo (R.SE_LOST sid) (s1.two (R.SE_LOST sid) + lostCourses rs)
      s2.writeHods p sid more
    else (s.enterW3 p, rs :: more)

/-- The bytes of the records kept in the reserve. -/
def keptBytes (ks : List (Nat × Rec)) : Nat := (ks.map fun x => 4 * x.2.words.length).sum

/-- A stream's reserve hods are written into its ring, its run closes, and the next course that its reducer handles follows a break
(R169, R278). -/
def State.writeReserve (s : State) (p sid : Nat) : State :=
  let (s1, left) := s.writeHods p sid (cutHods (s.reserveRecs sid) 0 [])
  let others := s1.kept.filter fun x => x.1 != sid
  let s2 := if left = [] then { s1.setRun sid none with kept := others }
    else if left.flatten.length = (s.reserveRecs sid).length then s1
    else { s1.setRun sid none with kept := others ++ left.flatten.map fun r => (sid, r) }
  let used := keptBytes s2.kept
  let freed := decide (used < (s.w R.RSV_USED).toNat)
  let s3 := s2.setW R.RSV_USED (BitVec.ofNat 32 used)
  let s4 := if freed then { s3.setF F.YARD_STAT_RSV_FULL 0 with lossy := [] } else s3
  if left = [] then
    let s5 := { s4 with resumed := s4.resumed.filter fun x => x != (sid, p) }
    (s5.setStr sid { s5.str sid with brk := true }).raiseBit R.YARD_EVT 3 0x0604 p sid
  else s4

/-- The SIDs that the reserve holds something of, for a ring and a set of classes. -/
def State.reserveSids (s : State) (p : Nat) (zero : Bool) : List Nat :=
  let all := (s.runs.map Prod.fst) ++ s.kept.map Prod.fst
  (all.dedup).filter fun i => s.inReserve i && s.portOf i == p && (s.prioOf i == 0) == zero

/-- The classes of a ring that resume after a HORIZON (R278). -/
def State.resumeClasses (s : State) (p : Nat) : State :=
  let h := s.f F.YARD_CTL_HYST
  let le (pct : Nat) : Bool := decide (100 * s.ringUsed p ≤ pct * s.ringSize p)
  let go (zero : Bool) (x : Fld) (s : State) : State :=
    { s.setF x 0 with resumed := s.resumed ++ (s.reserveSids p zero).map fun i => (i, p) }
  let s1 := s.when (s.b (F.RING_STAT_W3_0 p) && le (100 - h)) (go true (F.RING_STAT_W3_0 p))
  s1.when (s1.b (F.RING_STAT_W3_N p) && le (s.f F.YARD_CTL_W2_LVL - h)) (go false (F.RING_STAT_W3_N p))

/-- The hub discards everything that the rings and the reserve hold (R274). -/
def State.emptyYard (s : State) : State :=
  let s1 := s.each (range' 0 16) fun s p =>
    ((((s.setRing p ⟨[], 0⟩).setF (F.RING_STAT_FB p) 0).setF (F.RING_STAT_REWINDING p) 0).setF (F.RING_STAT_W3_0 p) 0).setF (F.RING_STAT_W3_N p) 0
  let s2 := s1.each (range' 0 16) fun s p =>
    (s.setW (R.RING_HSEQ p) (s.w (R.RING_WSEQ p))).setW (R.RING_TSEQ p) (s.w (R.RING_WSEQ p))
  { (s2.setW R.RSV_USED 0).setF F.YARD_STAT_RSV_FULL 0 with runs := [], kept := [], lossy := [], resumed := [] }

/-! ### Drain (R269) -/

/-- A hod that a fault makes the hub discard is counted and logged (R269). -/
def State.dropHanded (s : State) (h : Handed) : State :=
  (s.bumpW R.DRAIN_DROP 1).raiseBit R.YARD_EVT 9 0x060A h.sid ((h.recs.map Rec.cover).sum * 2 ^ 32 + h.course)

/-- A fault of the yard or the press ends the drain at once (R269). -/
def State.dropDrain (s : State) : State := { s.each s.handed State.dropHanded with handed := [], draining := false }

/-- Every hod that the hub has handed on is admitted or refused, blocks ended first; `fuel` is the number of hods waiting (R269). -/
def State.drainAll : Nat → State → State
  | 0, s => s
  | n + 1, s => State.drainAll n s.admitNext

/-- The reserve hods of the streams whose class has resumed, which come before any other hod of theirs (R278). -/
def State.drainReserve (s : State) : State :=
  s.each s.resumed fun s x =>
    if s.resumed.contains x then s.writeReserve x.2 x.1 else s

/-- The drain on a change to HOLD, which ends before the MODE write completes (R269). -/
def State.drain (s : State) : State :=
  let s1 := s.each s.handed fun s h => match h.engine with
    | some e => s.blockEnd e
    | none => s
  let s2 := { s1.drainReserve with draining := true }
  { State.drainAll s2.handed.length s2 with draining := false }

end Sys2Proof.Machine
end

