-- ==== Sys2Proof/Machine/Reduce.lean ====
section
/-!
DEFINITION. The reducer of a STRAIGHT stream: breaks (R169), representations (R162, R166, R167, R170), the muted SETTLE run (R134), lost courses
(R64) and the records that the hub places in course order (R163, R261); and the delivery of a course to a stream, through the window store where
it is linked (R158).
-/

namespace Sys2Proof.Machine

/-- A stream's class is on its fallback profile at its ring (R275). -/
def State.fallbackNow (s : State) (sid : Nat) : Bool :=
  let fb := s.f (F.RING_STAT_FB (s.portOf sid))
  match s.prioOf sid with
  | 3 => decide (1 ≤ fb)
  | 2 => decide (2 ≤ fb)
  | _ => false

/-- The path of a stream's tile, as a key of `paths`. -/
def State.pathKey (s : State) (sid : Nat) : Nat := 8 * (s.seTile sid).getD 0 + s.f (F.SE_CTL_FPATH sid)

/-- Whether the path of a stream mutes its SETTLING runs (R134). -/
def State.muted (s : State) (sid : Nat) : Bool :=
  match s.seTile sid with
  | some t => s.b (F.FP_CTL_MUTE t (s.f (F.SE_CTL_FPATH sid)))
  | none => false

/-- Whether a stream's SAMPLES take 16 bits (R257). -/
def State.w16Of (s : State) (sid : Nat) : Bool :=
  let c := s.f (F.SE_SRC_CH sid)
  s.f (F.SE_CTL_SRC_KIND sid) == 0 && bit (s.f (F.PK_CTL_W16 (c / 16))) (c % 16)

/-- A break: the record closes, and v_s and any partial block are dropped (R169). -/
def State.doBreak (s : State) (sid : Nat) : State :=
  let s1 := s.closeCur sid
  s1.setStr sid { s1.str sid with ref := none, blk := none, brk := false }

/-- The records waiting for a course up to position `p`, in order, and those that wait on. -/
def dueIns (p : Nat) (ins : List (Nat × Rec)) : List Rec × List (Nat × Rec) :=
  ((ins.filter fun x => decide (x.1 ≤ p)).map Prod.snd, ins.filter fun x => !decide (x.1 ≤ p))

/-- One of the hub's own records joins a STRAIGHT stream's hod; the open record and the open runs close first (R163, R261, R264). -/
def State.insertRec (s : State) (sid : Nat) (r : Rec) : State :=
  (((s.closeCur sid).closeLost sid).closeMute sid).addRec sid (fun _ => r) r.first 0 0

/-- A METER record takes the course before whose record it stands: its word 1 and its first course (R253, R405). -/
def meterAt (n : Nat) (r : Rec) : Rec := if r.typ = 8 then { r with words := r.words.set 1 (BitVec.ofNat 32 n), first := n } else r

/-- The waiting MARK and TDISC records up to the course at position `p`, and METER records, are placed (R163, R261, R405). -/
def State.placeIns (s : State) (sid p : Nat) : State :=
  let (now, later) := dueIns p (s.str sid).ins
  (s.setStr sid { s.str sid with ins := later }).each now fun s r => s.insertRec sid (meterAt (c48 p) r)

/-- One course of a muted run (R134): it joins the open run where it follows it with the same quality. A run that is cut there goes on in the next
record, and no break follows (R169, R251). -/
def State.muteCourse (s : State) (sid n count why q : Nat) : State :=
  let fresh (s : State) : State :=
    let s1 := s.closeCur sid
    s1.setStr sid { s1.str sid with mute := some (n, count, why, q) }
  match (s.str sid).mute with
  | some (f, c, y, q0) =>
    if n = c48 (f + c) ∧ q = q0 ∧ c + count < 2 ^ 32 then s.setStr sid { s.str sid with mute := some (f, c + count, y, q0) }
    else
      let s1 := s.closeMute sid
      fresh (s1.setStr sid { s1.str sid with brk := (s.str sid).brk })
  | none => fresh s

/-- A hod is open for a stream, so that YARD_FLUSH hands on its open run (R64). -/
def State.ensureHod (s : State) (sid course : Nat) : State :=
  if (s.openOf (s.hodKey sid) sid).isSome then s else s.openHod (s.hodKey sid) sid course

/-- A lost course of a STRAIGHT stream, of number `n` at position `p`, with a reason (R64): it joins the open run, or the run closes and another
opens. -/
def State.lostCourse (s : State) (sid p reason q : Nat) : State :=
  let n := c48 p
  let s0 := (s.placeIns sid p).closeMute sid
  let fresh (s : State) : State :=
    let s1 := s.closeCur sid
    (s1.setStr sid { s1.str sid with lost := some ⟨n, 1, reason, q, false⟩, last := none }).ensureHod sid n
  match (s0.str sid).lost with
  | some g =>
    if n = c48 (g.first + g.count) ∧ q = g.q ∧ reason = g.reason ∧ g.count + 1 < 2 ^ 32 then
      s0.setStr sid { s0.str sid with lost := some { g with count := g.count + 1 }, last := none }
    else fresh (s0.closeLost sid)
  | none => fresh s0

/-! ### Representations -/

/-- A value as an open record of one value. -/
def oneVal (typ n cover : Nat) (x : Int) (settling inWin fb w16 : Bool) (q dec dmode : Nat) : Cur :=
  { typ := typ, first := n, cover := cover, vals := [(x, 0)], settling := settling, inWin := inWin, fb := fb, q := q, dec := dec, dmode := dmode,
    cw := false, w16 := w16 }

/-- A course of a DELTA stream (R167, R168). -/
def State.deltaCourse (s : State) (sid r n : Nat) (x : Int) (settling fb : Bool) (q : Nat) : State :=
  let v := oneVal 2 n 1 x settling false fb false q 0 0
  let st := s.str sid
  let store : Bool := match st.cur, st.ref with
    | some c, some (vs, m) =>
      !c.takes v || decide ((s.w (R.RP_DB r)).toNat % 2 ^ 24 < iabs (x - vs)) || decide ((s.w (R.RP_HB r)).toNat % 2 ^ 16 ≤ c48 (n + 2 ^ 48 - m))
    | _, _ => true
  if store then
    let tag := match st.ref with
      | some (_, m) => c48 (n + 2 ^ 48 - m)
      | none => 0
    let s1 := s.putValue sid { v with vals := [(x, tag)] }
    s1.setStr sid { s1.str sid with ref := some (x, n) }
  else match st.cur with
    | some c => s.setStr sid { st with cur := some { c with cover := c.cover + 1 } }
    | none => s

/-- A course of a DECIMATE stream (R170). -/
def State.decimateCourse (s : State) (sid r n : Nat) (x : Int) (settling fb : Bool) (q : Nat) : State :=
  let dec := (s.w (R.RP_DEC r)).toNat % 2 ^ 16 + 1
  let k := n / dec
  let w16 := s.w16Of sid
  if s.f (F.RP_CTL_DMODE r) = 0 then
    if n % dec = 0 then s.putValue sid (oneVal 1 n dec x settling false fb w16 q dec 0) else s
  else
    let blk : Option (Nat × Nat × Int × Bool) :=
      if n % dec = 0 then some (k, 1, x, settling)
      else match (s.str sid).blk with
        | some (k0, c, sum, se) => if k0 = k ∧ c = n % dec then some (k, c + 1, sum + x, se || settling) else none
        | none => none
    let s1 := s.setStr sid { s.str sid with blk := blk }
    match blk with
    | some (_, c, sum, se) =>
      if c = dec then
        (s1.setStr sid { s1.str sid with blk := none }).putValue sid (oneVal 1 (k * dec) dec (divEven sum dec) se false fb w16 q dec 1)
      else s1
    | none => s1

/-- A course value as its profile represents it; inside a keep window always as SAMPLES (R162, R166). -/
def State.represent (s : State) (sid n : Nat) (x : Int) (settling inWin fb : Bool) (q : Nat) : State :=
  let r := if fb then s.f (F.SE_REP_FALLBACK sid) else s.f (F.SE_REP_NORMAL sid)
  let samples (s : State) : State := s.putValue sid (oneVal 1 n 1 x settling inWin fb (s.w16Of sid) q 0 0)
  if inWin then samples s
  else match s.f (F.RP_CTL_REP r) with
    | 0 => samples s
    | 1 => s.deltaCourse sid r n x settling fb q
    | 2 => s.decimateCourse sid r n x settling fb q
    | _ => s

/-- The first course of a new numbering comes to a stream: the SYNC's break (R169). -/
def State.syncBreak (s : State) (sid p : Nat) : State :=
  match (s.str sid).sync with
  | some b => if b ≤ p then s.setStr sid { s.str sid with sync := none, brk := true } else s
  | none => s

/-- One course with a value reaches the reducer of a STRAIGHT channel stream (R165 to R171). A break is made where IN_WINDOW changes, and none where one window
follows another without a gap (R169; DESIGN CHOICE, notes/assumptions/132.md). -/
def State.reduceValue (s0 : State) (sid : Nat) (h : Held) (inWin : Bool) : State :=
  let s := s0.syncBreak sid h.p
  let fb := s.fallbackNow sid
  let st := s.str sid
  let s1 := s.when (st.brk && st.mute.isSome) fun s => s.closeMute sid
  let s2 := s1.placeIns sid h.p
  let s3 := s2.closeLost sid
  let s4 := s3.when ((s3.str sid).brk || st.fb != fb || st.inWin != inWin) fun s => s.doBreak sid
  let s5 := s4.setStr sid { s4.str sid with fb := fb, inWin := inWin, last := some h }
  let s6 := ((s5.setF (F.SE_STAT_WINDOW sid) (b2n inWin)).setF (F.SE_STAT_FALLBACK sid) (b2n fb)).setF (F.SE_STAT_SETTLING sid) (b2n h.settling)
  if h.settling && s6.muted sid then s6.muteCourse sid h.n 1 h.why h.q
  else
    let s7 := s6.when (s6.str sid).mute.isSome fun s => (s.closeMute sid).doBreak sid
    s7.represent sid h.n h.x h.settling inWin fb h.q

/-- One course of a STRAIGHT stream reaches its reducer, with its value or as a lost course (R64, R165 to R171). -/
def State.reduce (s : State) (sid : Nat) (h : Held) (inWin : Bool) : State :=
  if h.gap = 0 then s.reduceValue sid h inWin else (s.syncBreak sid h.p).lostCourse sid h.p h.gap h.q

/-- A keep window of a group covers a course, by its position. -/
def Tg.covers (g : Tg) (p : Nat) : Bool := g.wins.any fun w => decide (w.1 ≤ p) && decide (p ≤ w.2)

/-- The store takes a course: the group's earliest course since it was last emptied (R160). -/
def Tg.hold (g : Tg) (p : Nat) : Tg := { g with ne := some (min (g.ne.getD p) p) }

/-- A course of a grid, by its position, belongs to the present numbering, or to the one before a wrap; a SYNC ends a numbering (R90, R93). -/
def State.numbered (s : State) (g p : Nat) : Bool := decide ((s.grid g).base ≤ p + 2 ^ 48)

/-- A course of a STRAIGHT channel stream leaves its filter path: into the window store when the stream is linked, to its reducer otherwise
(R158). A course of a numbering that a SYNC has ended is held no more (R159). Outside ACQUIRE no course is represented, and none is lost (R181). -/
def State.deliver (s : State) (sid : Nat) (h : Held) : State :=
  if s.mode != 3 then s
  else match s.linkOf sid with
    | some k =>
      let g := s.f (F.WS_LINK_GROUP k)
      if !s.numbered (s.f (F.SE_CTL_GRID sid)) h.p then s.reduce sid h ((s.tg g).covers h.p)
      else (s.setTg g ((s.tg g).hold h.p)).setStr sid { s.str sid with held := (s.str sid).held ++ [h] }
    | none => s.reduce sid h false

/-- An output of a detector reaches a STRAIGHT stream with that source (R262). -/
def State.deliverDet (s : State) (sid d typ : Nat) (o : DetOut) : State :=
  if s.mode != 3 then s
  else
    let s1 := (s.placeIns sid o.p).closeLost sid
    let s2 := s1.setF (F.SE_STAT_SETTLING sid) (b2n o.settling)
    if o.settling && s2.muted sid then s2.muteCourse sid o.first o.count o.why o.q
    else (s2.closeMute sid).addRec sid (fun _ => detectRec d typ o) o.first 0 0

/-! ### The window store (R158, R159) -/

/-- The courses a stream holds are released, with IN_WINDOW where an open window covers them (R159). -/
def State.releaseHeld (s : State) (sid : Nat) : State :=
  match s.linkOf sid with
  | none => s
  | some k =>
    let g := s.tg (s.f (F.WS_LINK_GROUP k))
    let hs := (s.str sid).held
    (s.setStr sid { s.str sid with held := [] }).each hs fun s h => s.reduce sid h (g.covers h.p)

/-- The records of a stream still waiting for a course are placed, and what its packer holds is handed on (R181, R265). -/
def State.flushStream (s : State) (sid : Nat) : State :=
  let s1 := s.releaseHeld sid
  let ins := (s1.str sid).ins
  let n := match (s1.str sid).last with
    | some h => c48 (h.n + 1)
    | none => 0
  let s2 := (s1.setStr sid { s1.str sid with ins := [] }).each ins fun s x => s.insertRec sid (meterAt n x.2)
  ((s2.closeMute sid).closeLost sid).handOn sid

end Sys2Proof.Machine
end

