-- ==== Sys2Proof/Machine/MasonOps.lean ====
section
/-!
DEFINITION. A mason as the rest of the hub meets it: its hod slots (R192, R195), the records that the hub adds to its streams (R196), its inbox
and the losses of it (R189 to R191), and the state changes of R186.
-/

namespace Sys2Proof.Machine

/-- The hod in a slot of a mason. -/
def Mason.slot (x : Mason) (k : Nat) : Option Open := Tab.get (fun _ => none) x.slots k

/-- A slot of a mason replaced. -/
def Mason.setSlot (x : Mason) (k : Nat) (h : Option Open) : Mason := { x with slots := Tab.set (fun _ => none) x.slots k h }

/-- The slot that holds the open hod of a stream. -/
def Mason.slotOf (x : Mason) (sid : Nat) : Option Nat :=
  (range' 0 4).find? fun k => match x.slot k with
    | some h => h.sid == sid
    | none => false

/-- A free slot. -/
def Mason.freeSlot (x : Mason) : Option Nat := (range' 0 4).find? fun k => (x.slot k).isNone

/-- A slot's hod is handed on and the slot freed; a hod without records is not handed on (R195). -/
def State.handSlot (s : State) (m k : Nat) : State :=
  match (s.mason m).slot k with
  | none => s
  | some h =>
    let s1 := s.setMason m ((s.mason m).setSlot k none)
    if h.recs = [] then s1
    else
      let p := s.pressed h.sid
      { s1 with handed := s1.handed ++ [⟨h.sid, h.course, h.recs, if p then some (s.f (F.SE_REP_ENG h.sid)) else none, p,
          if p then [] else (h.recs.map Rec.words).flatten, false, s.b (F.PC_CTL_PRED (s.f (F.SE_REP_ENG h.sid)))⟩] }

/-- All open hods of a mason are handed on, by slot (R186, R195). -/
def State.handSlots (s : State) (m : Nat) : State := s.each (range' 0 4) fun s k => s.handSlot m k

/-- The words of records that a mason's hod of a stream may hold (R193, R295). -/
def State.hodLimit (s : State) (sid : Nat) : Nat := if s.pressed sid then 1020 else 1022

/-- The hub adds a record of its own to a stream written by a mason: to the open hod where it fits, else in a hod of its own, handed on at once
and never pressed (R196, R286). -/
def State.masonAdd (s : State) (sid : Nat) (r : Rec) : State :=
  let m := s.f (F.SE_CTL_MASON sid)
  let own (s : State) : State := { s with handed := s.handed ++ [⟨sid, r.first % 2 ^ 32, [r], none, false, r.words, false, false⟩] }
  match (s.mason m).slotOf sid with
  | none => own s
  | some k => match (s.mason m).slot k with
    | none => own s
    | some h =>
      if recWords h.recs + r.words.length ≤ s.hodLimit sid then s.setMason m ((s.mason m).setSlot k (some (h.add r 0 0)))
      else own s

/-- Whether a mason writes a stream (R191, R196). -/
def State.masonWritten (s : State) (sid : Nat) : Bool := s.b (F.SE_CTL_PATH sid)

/-- The open reason-1 run of a stream closes into its GAP record (R191). -/
def State.closeInboxRun (s : State) (sid : Nat) : State :=
  match (s.str sid).lost with
  | none => s
  | some g =>
    let s1 := (s.setStr sid { s.str sid with lost := none }).masonAdd sid (gapRec g)
    s1.setTwo (R.SE_LOST sid) (s1.two (R.SE_LOST sid) + g.count)

/-- Courses of a stream that a mason did not receive join its run of a reason (R64, R191). -/
def State.inboxLost (s : State) (sid n count reason q : Nat) : State :=
  let fresh (s : State) : State := s.setStr sid { s.str sid with lost := some ⟨n, count, reason, q, false⟩ }
  match (s.str sid).lost with
  | some g =>
    if n = c48 (g.first + g.count) ∧ q = g.q ∧ reason = g.reason ∧ g.count + count < 2 ^ 32 then
      s.setStr sid { s.str sid with lost := some { g with count := g.count + count } }
    else fresh (s.closeInboxRun sid)
  | none => fresh s

/-- A packet reaches a mason: into the inbox, or lost where the inbox is full or the mason is in RESET or FAULT (R190, R191). `sids` are the
streams that name what the packet carries, `n` and `count` its courses. -/
def State.packetTo (s : State) (m : Nat) (pkt : List Word) (sids : List Nat) (n count q : Nat) : State :=
  let x := s.mason m
  let st := s.f (F.MC_STAT_STATE m)
  if st = 0 ∨ st = 4 ∨ 64 ≤ x.inbox.length then
    let s1 := (s.bumpW (R.MC_LOST m) 1).setMason m { x with lost := satAdd 16 x.lost 1, delivered := false }
    let s2 := s1.when x.delivered fun s => s.raiseBit (R.MC_EVT m) 2 0x0C03 m 0
    s2.when (s2.mode == 3) fun s => s.each sids fun s i => s.inboxLost i n count 1 q
  else
    let w3 := BitVec.ofNat 32 (x.lost * 65536)
    let s1 := s.setMason m { x with inbox := x.inbox ++ [pkt.take 3 ++ [w3] ++ pkt.drop 4], lost := 0, delivered := true }
    s1.when (s1.mode == 3) fun s => s.each sids fun s i => s.closeInboxRun i

/-- A mason returns to RESET: its hods go to the yard, its inbox is emptied, and its pc is MC_ENTRY (R186). -/
def State.masonReset (s : State) (m : Nat) : State :=
  let s1 := s.handSlots m
  let s2 := s1.setMason m { s1.mason m with inbox := [], wait := none, haltReq := false, pc := s1.f (F.MC_ENTRY_V m) }
  (s2.setF (F.MC_STAT_STATE m) 0).setF (F.MC_STAT_STALLED m) 0

/-- A stream written by a mason gives up what the hub and the mason still hold open of it: its run, and its hod (R181, R191, R195). -/
def State.flushMason (s : State) (sid : Nat) : State :=
  let s1 := s.closeInboxRun sid
  let ins := (s1.str sid).ins
  let s2 := (s1.setStr sid { s1.str sid with ins := [] }).each ins fun s x => s.masonAdd sid x.2
  let m := s2.f (F.SE_CTL_MASON sid)
  match (s2.mason m).slotOf sid with
  | some k => s2.handSlot m k
  | none => s2

/-- What the hub holds open of a stream goes to the yard (R181, R265). -/
def State.flushAny (s : State) (sid : Nat) : State := if s.masonWritten sid then s.flushMason sid else s.flushStream sid

end Sys2Proof.Machine
end

