-- ==== Sys2Proof/Machine/FilterOps.lean ====
section
/-!
DEFINITION. The filter engines' arithmetic: the chain of a channel (R117 to R122), the resampler and the other placements (R123, R125, R127), the
cross-fade blend (R137), the SETTLING runs (R130 to R132), the detectors (R140, R141), and the delivery of a course to streams, masons and
trigger units (R145, R188). Instants are in units of 1/(5 · 2^32) ns, in which a SMPL period of VDIV × 0.2 ns is a whole number.
-/

namespace Sys2Proof.Machine

/-- System time in the units of instants. -/
def u5 (t : Nat) : Nat := t * 327680

/-- An integer limited to a magnitude. -/
def limitTo (m : Nat) (i : Int) : Int := max (-(m : Int)) (min m i)

/-- A grid's period in the units of instants. -/
def State.per5 (s : State) (g : Nat) : Nat := 5 * s.per g

/-! ### Saturation and the stages -/

/-- A rounded value saturated to 24 bits, with the count and the event of R122; `stage` is 0 CIC, 1 HB1, 2 HB2, 3 FIR, 4 resampler, 5 blend,
6 SCS. -/
def State.sat24 (s : State) (t p stage : Nat) (v : Int) : State × Int :=
  if satS 24 v = v then (s, v)
  else
    let s1 := s.bumpW (R.FP_SAT_CNT t p) 1
    (s1.when (!s.b (F.FE_EVT_SAT t)) fun s => s.raiseBit (R.FE_EVT t) 1 0x0402 t (p * 256 + stage), satS 24 v)

/-- A chain of integrators of width `w`. -/
def integrate (w : Nat) : Nat → List Nat → List Nat
  | _, [] => []
  | x, a :: r =>
    let v := (a + x) % 2 ^ w
    v :: integrate w v r

/-- A chain of combs of width `w`: the output and the new delays. -/
def combGo (w : Nat) : Nat → List Nat → Nat × List Nat
  | x, [] => (x, [])
  | x, d :: r =>
    let (y, r1) := combGo w ((x + 2 ^ w - d) % 2 ^ w) r
    (y, x :: r1)

/-- A list filled to `n` zeros when it is empty. -/
def fillZ (n : Nat) (xs : List Nat) : List Nat := if xs = [] then List.replicate n 0 else xs

/-- Sum of products of taps with a delay line, newest first. -/
def tapSum (tap : Nat → Int) (n : Nat) (line : List Int) : Int :=
  (range' 0 n).foldl (fun a k => a + tap k * line.getD k 0) 0

/-- A coefficient: 16 bits two's complement (R119). -/
def State.coef (s : State) (t p b k : Nat) : Int := sx 16 (s.w (R.COEF t p b k)).toNat

/-- The CIC stage on one word (R117): the channel, and the output where the word is a dump. -/
def State.cicWord (s : State) (t p : Nat) (c : PathCfg) (ch : Chan) (x : Int) (dump : Bool) : State × Chan × Option Int :=
  if c.r = 1 then (s, ch, some x)
  else
    let w := 24 + c.shift
    let is := integrate w (wrap w x) (fillZ c.n ch.ints)
    if !dump then (s, { ch with ints := is }, none)
    else
      let (y, cs) := combGo w (is.getLastD 0) (fillZ c.n ch.combs)
      let (s1, v1) := s.sat24 t p 0 (divEven (sx w y) (2 ^ c.shift))
      let (s2, v2) := s1.sat24 t p 0 (divEven (v1 * c.norm) (2 ^ 23))
      (s2, { ch with ints := is, combs := cs }, some v2)

/-- A half-band stage on one of its inputs: the new delay line, and the output on every second input (R118). -/
def State.hbWord (s : State) (t p stage : Nat) (line : List Int) (x : Int) (dump : Bool) : State × List Int × Option Int :=
  let l := (x :: line).take 31
  if dump then
    let (s1, v) := s.sat24 t p stage (divEven (tapSum Config.hbTap 31 l) (2 ^ 15))
    (s1, l, some v)
  else (s, l, none)

/-- The FIR's output with a bank (R119, R122). -/
def State.firOut (s : State) (t p b : Nat) (c : PathCfg) (line : List Int) : State × Int :=
  if c.fir then s.sat24 t p 3 (divEven (tapSum (s.coef t p b) c.taps line) (2 ^ 15)) else (s, line.headD 0)

/-- Chain outputs, newest first: all of them while the path owes courses, whose resampler may look back on any; else the latest 64, which reach back
beyond the 32 taps of a course still to fall (R123). -/
def Path.keepOuts (x : Path) (outs : List (Nat × Nat × Int)) : List (Nat × Nat × Int) := if x.due.isEmpty then outs.take 64 else outs

/-- Both banks are computed: in a fade, and while the tail of a SYNC that ended one goes on with it (R136, R138). -/
def State.twoBanks (s : State) (t p : Nat) : Bool := s.fading t p || (s.path (8 * t + p)).tail.isSome

/-- A word of the FIR's input: the delay line, and at every D-th the outputs with the active bank and, where both are computed, with the other (R119,
R136). -/
def State.firWord (s : State) (t p : Nat) (c : PathCfg) (ch : Chan) (x : Int) (tau edge : Nat) (dump : Bool) : State × Chan :=
  let l := (x :: ch.fir).take 256
  let ch1 := { ch with fir := l }
  if !dump then (s, ch1)
  else
    let b := s.f (F.FP_STAT_ACT t p)
    let (s1, y) := s.firOut t p b c l
    let pa := s.path (8 * t + p)
    let ch2 := { ch1 with out := pa.keepOuts ((tau, edge, y) :: ch1.out), since := ch1.since + 1 }
    if s1.twoBanks t p then
      let (s2, y2) := s1.firOut t p (1 - b) (s1.pathCfg t p (1 - b)) l
      (s2, { ch2 with out2 := pa.keepOuts ((tau, edge, y2) :: ch2.out2) })
    else (s1, ch2)

/-- One word through the chain of a channel; `idx` counts words from the decimation phase (R117). -/
def State.chainWord (s : State) (t p : Nat) (c : PathCfg) (ch : Chan) (x : Int) (tau edge idx : Nat) (on : Bool) : State × Chan :=
  let at_ (k : Nat) : Bool := on && idx % k == 0
  let fir (s : State) (ch : Chan) (v : Int) := s.firWord t p c ch v tau edge (at_ c.chain)
  match s.cicWord t p c ch x (at_ c.r) with
  | (s1, ch1, none) => (s1, ch1)
  | (s1, ch1, some v1) =>
    if c.hb = 0 then fir s1 ch1 v1
    else match s1.hbWord t p 1 ch1.hb1 v1 (at_ (2 * c.r)) with
      | (s2, l1, none) => (s2, { ch1 with hb1 := l1 })
      | (s2, l1, some v2) =>
        let ch2 := { ch1 with hb1 := l1 }
        if c.hb = 1 then fir s2 ch2 v2
        else match s2.hbWord t p 2 ch2.hb2 v2 (at_ (4 * c.r)) with
          | (s3, l2, none) => (s3, { ch2 with hb2 := l2 })
          | (s3, l2, some v3) => fir s3 { ch2 with hb2 := l2 } v3

/-! ### SETTLING runs (R130 to R132) -/

/-- GD_comp of a channel in the units of instants (R128). -/
def State.gdComp5 (s : State) (c : PathCfg) (t i : Nat) : Nat :=
  let u := s.wordPart c.grid t i
  match c.place with
  | 2 => 0
  | 3 => s.per5 c.grid
  | _ => c.delay * u.num * s.per5 c.grid / (512 * u.den)

/-- T_span of a channel in the units of instants (R128). -/
def State.span5 (s : State) (c : PathCfg) (t i : Nat) : Nat :=
  let u := s.wordPart c.grid t i
  if c.place = 3 then s.per5 c.grid else ceilDiv (c.span * u.num * s.per5 c.grid) u.den

/-- A channel without a record of its own. -/
def Path.plain (x : Path) : Chan := { Chan.init with held := x.held }

/-- A channel of a path. -/
def Path.chan (x : Path) (i : Nat) : Chan := Tab.get (fun _ => x.plain) x.chans i

/-- A channel of a path replaced. -/
def Path.setChan (x : Path) (i : Nat) (c : Chan) : Path := { x with chans := Tab.set (fun _ => x.plain) x.chans i c }

/-- A channel of a path of the hub. -/
def State.chan (s : State) (t p i : Nat) : Chan := (s.path (8 * t + p)).chan i

/-- It replaced. -/
def State.setChan (s : State) (t p i : Nat) (c : Chan) : State := s.setPath (8 * t + p) ((s.path (8 * t + p)).setChan i c)

/-- The position of the first course of the numbering that a SYNC begins, beyond every course of the one before (R90). -/
def Grid.newBase (x : Grid) : Nat := x.base + 2 ^ 49

/-- The position of a grid's next course. -/
def Grid.nextPos (x : Grid) : Nat := x.base + x.next

/-- The position of a path's next course. -/
def State.nextPos (s : State) (t p : Nat) : Nat :=
  match (s.path (8 * t + p)).due with
  | d :: _ => d.p
  | [] => (s.grid (s.f (F.FP_CTL_GRID t p))).nextPos

/-- From when on a path's next course falls: its instant, or now. -/
def State.nextAt (s : State) (t p : Nat) : Nat :=
  match (s.path (8 * t + p)).due with
  | d :: _ => d.at_
  | [] => u5 s.st

/-- GD_comp and T_span of a channel on a path, in the units of instants (R128). -/
def State.delays5 (s : State) (t p i : Nat) : Nat × Nat := let c := s.pathAct t p; (s.gdComp5 c t i, s.span5 c t i)

/-- The first instant whose output carries SETTLING for a disturbance: T_a − GD_comp, or none where it joined a run (R131, R132). -/
def Settle.start (w : Settle) (d : Nat × Nat) : Nat := if w.joined then 0 else w.since - d.1

/-- Whether a disturbance still reaches outputs from an instant on: before T_b + T_span − GD_comp (R131). -/
def Settle.lasts (w : Settle) (d : Nat × Nat) (at_ : Nat) : Bool := w.open_ || decide (at_ + d.1 < w.until_ + d.2)

/-- Whether the output at an instant carries SETTLING for a disturbance (R131). -/
def Settle.holds (w : Settle) (d : Nat × Nat) (at_ : Nat) : Bool := decide (w.start d ≤ at_) && w.lasts d at_

/-- Whether a channel is in a SETTLING run when the next course comes at position `p` and instant `at_`: a run is open on a path that courses still leave,
`busy`; a wake's restart waits for its first word; the first `n` courses after a restart have not all fallen on a grid that runs, `live`; or a disturbance
lasts (R132). -/
def Chan.inRun (ch : Chan) (anew : List (Nat × Nat)) (d : Nat × Nat) (n p at_ : Nat) (live busy : Bool) : Bool :=
  (busy && ch.run.isSome) || ch.held || (live && (ch.first.toList ++ anew.map Prod.fst).any fun p0 => decide (p < p0 + n))
    || ch.wins.any fun w => w.lasts d at_

/-- The grid of a path. -/
def State.gridOf (s : State) (t p : Nat) : Nat := s.f (F.FP_CTL_GRID t p)

/-- Whether a channel of a path is in a SETTLING run (R132). -/
def State.chanSettling (s : State) (t p i : Nat) : Bool :=
  let g := s.gridOf t p
  (s.chan t p i).inRun (s.grid g).anew (s.delays5 t p i) (s.settleOf (s.pathAct t p) t i) (s.nextPos t p) (s.nextAt t p)
    (decide (2 ≤ s.gstate g)) (!s.pathIdle t p)

/-- Whether any channel of a path is in a run (R132). -/
def State.pathSettling (s : State) (t p : Nat) : Bool := (s.chanSet t p).any fun i => !s.b (F.CH_STAT_FAILED t i) && s.chanSettling t p i

/-- A disturbance joins a channel's others (R131, R132): it extends the newest one that its window meets, else it stands beside them. Those that reach no
output from `at_` on are dropped. -/
def Chan.disturb (ch : Chan) (w : Settle) (d : Nat × Nat) (at_ : Nat) : Chan :=
  match ch.wins.filter fun v => v.lasts d at_ with
  | v :: r =>
    if v.open_ || decide (w.since ≤ v.until_ + d.2) then
      { ch with wins := { v with until_ := max v.until_ w.until_, open_ := v.open_ || w.open_ } :: r }
    else { ch with wins := w :: v :: r }
  | [] => { ch with wins := [w] }

/-- The end at T_b of the gain change that holds a channel's window open (R131). -/
def Chan.settleAt (ch : Chan) (tb : Nat) : Chan :=
  { ch with wins := ch.wins.map fun w => if w.open_ then { w with open_ := false, until_ := max w.until_ tb } else w }

/-- A disturbance of a channel from `ta` to `tb`, or to an end still to come, on one path (R131, R132). -/
def State.disturbPath (s : State) (t p i why ta tb : Nat) (open_ : Bool) : State :=
  s.setChan t p i ((s.chan t p i).disturb ⟨ta, tb, open_, s.chanSettling t p i, why⟩ (s.delays5 t p i) (s.nextAt t p))

/-- A gain change of a channel starts at T_a, on every path, whether or not anything names the channel there (R37, R131). -/
def State.disturb (s : State) (t i why ta : Nat) : State := s.each (range' 0 8) fun s p => s.disturbPath t p i why ta 0 true

/-- A gain change of a channel ends at T_b (R37, R131). -/
def State.settleUntil (s : State) (t i tb : Nat) : State :=
  s.each (range' 0 8) fun s p => s.setChan t p i ((s.chan t p i).settleAt tb)

/-- A path of a fade that a SYNC has ended computes a course of the old numbering with the banks and the phase of that fade (R138). -/
def State.tailFade (s : State) (t p : Nat) (d : Due) : Option (Fade × Nat) := if d.tail = 0 then none else (s.path (8 * t + p)).tail

/-- The bank that a course starts from, the phase of its fade, and the fade: those of FP_STAT, or for the tail those of the fade that the SYNC has ended
(R137, R138). -/
def State.mix (s : State) (t p : Nat) (d : Due) : Nat × Nat × Fade :=
  let act := s.f (F.FP_STAT_ACT t p)
  match s.tailFade t p d with
  | some (f, st) => (1 - act, st, f)
  | none => (act, s.f (F.FP_STAT_STATE t p), (s.path (8 * t + p)).fade.getD ⟨0, 0, 0, 1⟩)

/-- TAIL_N of a course's channel, with the bank or the banks that compute it (R129, R137). -/
def State.tailN (s : State) (t p i : Nat) (d : Due) : Nat :=
  let (b, st, _) := s.mix t p d
  let n (b : Nat) : Nat := s.tailOf (s.pathCfg t p b) t i
  if st = 3 then max (n b) (n (1 - b)) else if st = 4 then n (1 - b) else n b

/-- A course of the old numbering whose inputs on a channel all came before the restart, which does not concern it (R130). -/
def State.ownInputs (s : State) (t p i : Nat) (d : Due) : Bool := decide (s.tailN t p i d < d.tail)

/-- The reason of a restart among whose first `n` courses a position lies, the later one where there are two (R130, R134). -/
def restartWhy (anew : List (Nat × Nat)) (first : Option Nat) (p n : Nat) : Option Nat :=
  let in_ (p0 : Nat) : Bool := decide (p0 ≤ p) && decide (p < p0 + n)
  match anew.find? fun x => in_ x.1, first.filter in_ with
  | some (p0, w), some f => if f < p0 then some w else some 2
  | some (_, w), none => some w
  | none, some _ => some 2
  | none, none => none

/-- Why an output of a channel carries SETTLING, if it does (R130, R131, R134): it lies among the last TAIL_N of a tail, or among the first SETTLE_N
after a restart, or in a disturbance's window. -/
def State.settleCause (s : State) (t p i : Nat) (d : Due) : Option Nat :=
  let ch := s.chan t p i
  if 0 < d.tail && !s.ownInputs t p i d then some d.tailWhy
  else if ch.held then some 2
  else
    match restartWhy (s.grid (s.gridOf t p)).anew ch.first d.p (s.settleOf (s.pathAct t p) t i) with
    | some w => some w
    | none => (ch.wins.find? fun w => w.holds (s.delays5 t p i) d.at_).map Settle.why

/-- The reason of the run that an output carries: that of the event that opened the run (R132, R134). The new numbering of a SYNC opens a run of its
own. -/
def runAfter (before now : Option Nat) : Option Nat :=
  match now, before with
  | some w, some r => if w = 0 then some 0 else some r
  | some w, none => some w
  | none, _ => none

/-- A channel after an output: its run, and the disturbances that last. -/
def Chan.after (ch : Chan) (at_ : Nat) (d : Nat × Nat) (run : Option Nat) : Chan :=
  { ch with run := run, wins := ch.wins.filter fun w => w.lasts d at_ }

/-! ### A channel's word enters its paths -/

/-- The first word of a channel after READY: with it the restart of the wake takes place, and the first course at or after it, with the SETTLE_N − 1
courses after that, carries SETTLING. Courses before the path's first word are not produced; `named` says whether the path runs on the channel (R71,
R130). -/
def State.firstWord (s : State) (t p i tau : Nat) (named : Bool) : State :=
  let pa := s.path (8 * t + p)
  let ch := pa.chan i
  if !ch.held then s
  else
    let fresh := named && pa.chans.all fun q => q.2.count == 0
    let s1 := s.when fresh fun s => s.setPath (8 * t + p) { pa with due := pa.due.filter fun d => decide (tau ≤ d.at_) }
    let p0 := match pa.due.find? fun d => decide (tau ≤ d.at_) with
      | some d => d.p
      | none => (s.grid (s.gridOf t p)).nextPos
    s1.setChan t p i { ch with held := false, first := some p0 }

/-- A word of a channel enters one path (R111, R117, R127). -/
def State.wordToPath (s : State) (t p i tau edge : Nat) (odd : Bool) (x : Int) : State :=
  let c := s.pathAct t p
  let ch := s.chan t p i
  let k := s.wpc t i
  let e0 := (s.grid c.grid).edge0
  let rdiv := s.f (F.TILE_CTL_RDIV t)
  let idx := if s.machine c.grid then ceilDiv (edge - e0) rdiv * k + b2n odd else ch.count + 1
  let on := !s.machine c.grid || decide (e0 < edge + rdiv)
  let ch1 := { ch with count := ch.count + 1 }
  if c.place = 3 then s.setChan t p i { ch1 with scs := ch1.scs ++ [(tau, edge, x)] }
  else
    let (s1, ch2) := s.chainWord t p c ch1 x tau edge idx on
    s1.setChan t p i ch2

/-- A word of a channel enters every path it runs on that is not IDLE; the first word with an APPLY's values disturbs the channel, and the first one after
READY begins its restart, on every path, since one that is named later still carries what is left of them (R46, R130, R131). -/
def State.channelWord (s : State) (t i tau edge : Nat) (odd : Bool) (x : Int) : State :=
  let ap := bit (s.tile t).applied i
  let s1 := s.when ap fun s => s.setTile t { s.tile t with applied := (s.tile t).applied - 2 ^ i }
  let s2 := s1.setTile t { s1.tile t with word := Tab.set (fun _ => 0) (s1.tile t).word i x }
  s2.each (range' 0 8) fun s p =>
    let named := (s.chanSet t p).contains i
    let s1 := (s.firstWord t p i tau named).when ap fun s => s.disturbPath t p i 4 tau tau false
    s1.when (named && !s1.pathIdle t p) fun s => s.wordToPath t p i tau edge odd x

/-! ### Outputs -/

/-- The place of a course among chain outputs, newest first, with the remainder in scaled units: `a` maps an instant to its scaled distance before
the course, `per` is the scaled output period. Where the history is too short, the place before it, whose inputs count as zero. -/
def findTap (outs : List (Nat × Nat × Int)) (a : Nat → Int) (per : Nat) : Option (Nat × Nat) :=
  match outs.findIdx? fun o => decide (0 ≤ a o.1) with
  | some j => some (j, (a (outs.getD j (0, 0, 0)).1).toNat)
  | none =>
    match outs.getLast? with
    | none => none
    | some o =>
      let k := ceilDiv (a o.1).natAbs per
      some (outs.length - 1 + k, (a o.1 + (k * per : Nat)).toNat)

/-- The scaled distance of an instant before τ* of a course, and the scaled output period (R123). -/
def State.tapScale (s : State) (c : PathCfg) (t i : Nat) (d : Due) : (Nat → Int) × Nat :=
  let u := s.wordPart c.grid t i
  let wn := u.num * s.per5 c.grid
  (fun tau => (((d.at_ : Int) - tau) * (512 * u.den : Nat)) + (c.pre * wn : Nat), 512 * c.chain * wn)

/-- The 40-bit sum of a phase of the prototype (R122, R123). -/
def phaseSum (outs : List (Nat × Nat × Int)) (j row : Nat) : Int :=
  (range' 0 32).foldl (fun acc m => acc + Config.resTap row m * (if m ≤ j + 15 then (outs.getD (j + 15 - m) (0, 0, 0)).2.2 else 0)) 0

/-- The value of a course from chain outputs with one bank (R122, R123, R125, R127). That mu is rounded down and clamped, and the row after phase 1,023, are
DESIGN CHOICE (notes/assumptions/129.md). -/
def State.placed (s : State) (c : PathCfg) (t p i : Nat) (d : Due) (outs scs : List (Nat × Nat × Int)) : State × Int :=
  match c.place with
  | 2 => (s, ((outs.find? fun o => decide (o.2.1 < d.edge + s.f (F.TILE_CTL_RDIV t))).getD (0, 0, 0)).2.2)
  | 3 =>
    let ws := scs.filter fun o =>
      if s.machine c.grid then decide (d.edge ≤ o.2.1) && decide (o.2.1 < d.edge + s.f (F.GRID_CTL_CDIV c.grid))
      else decide (d.at_ ≤ o.1) && decide (o.1 < d.at_ + s.per5 c.grid)
    if ws = [] then (s, 0) else s.sat24 t p 6 (divEven (ws.map fun o => o.2.2).sum ws.length)
  | _ =>
    let (a, per) := s.tapScale c t i d
    match findTap outs a per with
    | none => (s, 0)
    | some (j, rem) =>
      let mu := min (2 ^ 24 - 1) (rem * 2 ^ 24 / per)
      let s0 := phaseSum outs j (mu / 2 ^ 14)
      let s1 := phaseSum outs j (mu / 2 ^ 14 + 1)
      s.sat24 t p 4 (divEven (s0 * 2 ^ 14 + (mu % 2 ^ 14 : Nat) * (s1 - s0)) (2 ^ 29))

/-- Whether chain outputs reach past the last input of a course (R128). -/
def State.inputsIn (s : State) (c : PathCfg) (t i : Nat) (d : Due) (outs scs : List (Nat × Nat × Int)) : Bool :=
  match c.place with
  | 2 => outs.any fun o => decide (d.edge ≤ o.2.1)
  | 3 => scs.any fun o =>
      if s.machine c.grid then decide (d.edge + s.f (F.GRID_CTL_CDIV c.grid) ≤ o.2.1) else decide (d.at_ + s.per5 c.grid ≤ o.1)
  | _ =>
    let (a, per) := s.tapScale c t i d
    match findTap outs a per with
    | some (j, _) => decide (16 ≤ j)
    | none => false

/-- The chain outputs that a course draws on, of the bank that it starts from or of the `other`: those since the last restart, or all for a course that the
restart does not concern (R130, R138). -/
def State.lineOf (s : State) (t p i : Nat) (d : Due) (other : Bool) : List (Nat × Nat × Int) :=
  let ch := s.chan t p i
  let xs := if (s.tailFade t p d).isSome != other then ch.out2 else ch.out
  if s.ownInputs t p i d then xs else xs.take ch.since

/-- The words that a course's SCS interval draws on, those before the last restart as zero where it concerns the course (R127, R130). -/
def State.scsOf (s : State) (t p i : Nat) (d : Due) : List (Nat × Nat × Int) :=
  let ch := s.chan t p i
  if s.ownInputs t p i d then ch.scs else (ch.scs.take ch.zeros).map (fun o => (o.1, o.2.1, 0)) ++ ch.scs.drop ch.zeros

/-- Whether the last input of a course has arrived on a channel; for a blended course that of either bank (R128, R137). -/
def State.chanReady (s : State) (t p i : Nat) (d : Due) : Bool :=
  let (b, st, _) := s.mix t p d
  let in_ (other : Bool) : Bool :=
    s.inputsIn (s.pathCfg t p (if other then 1 - b else b)) t i d (s.lineOf t p i d other) (s.scsOf t p i d)
  s.b (F.CH_STAT_FAILED t i) || ((st == 4 || in_ false) && ((st != 3 && st != 4) || in_ true))

/-- A course is ready on a path: its last input has arrived on every channel (R123, R128). -/
def State.courseReady (s : State) (t p : Nat) (d : Due) : Bool := (s.chanSet t p).all fun i => s.chanReady t p i d

/-- The output of one channel for a course, blended in a fade (R137). -/
def State.courseValue (s : State) (t p i : Nat) (d : Due) : State × Int :=
  let (b, st, fd) := s.mix t p d
  let val (s : State) (other : Bool) : State × Int :=
    s.placed (s.pathCfg t p (if other then 1 - b else b)) t p i d (s.lineOf t p i d other) (s.scsOf t p i d)
  if st = 4 then val s true
  else
    let (s1, y) := val s false
    if st = 3 then
      let (s2, y2) := val s1 true
      let m := fd.m + 1
      s2.sat24 t p 5 (divEven (((fd.len + 1 - m : Nat) : Int) * y + (m : Nat) * y2) (fd.len + 1))
    else (s1, y)

/-- Chain outputs that a course after the one at `at_` can still draw on: its τ* is no earlier than that, and its taps reach 31 outputs further back
(R123). -/
def trimOuts (at_ : Nat) (outs : List (Nat × Nat × Int)) : List (Nat × Nat × Int) :=
  outs.take ((outs.takeWhile fun o => decide (at_ ≤ o.1)).length + 64)

/-- The words and chain outputs of a channel that courses after the one at `at_` no longer need are dropped. -/
def Chan.trim (ch : Chan) (at_ : Nat) : Chan :=
  let old := (ch.scs.takeWhile fun o => decide (o.1 < at_)).length
  { ch with out := trimOuts at_ ch.out, out2 := trimOuts at_ ch.out2, scs := ch.scs.drop old, zeros := ch.zeros - old }

/-! ### Detectors -/

/-- The integer part of √(n / k), with `b` bits left to find. -/
def isqrt (n k : Nat) : Nat → Nat → Nat
  | 0, r => r
  | b + 1, r => if (r + 2 ^ b) * (r + 2 ^ b) * k ≤ n then isqrt n k b (r + 2 ^ b) else isqrt n k b r

/-- √(n / k) rounded to nearest; a tie, which no irrational root has, to even (R122). -/
def rmsOf (n k : Nat) : Nat :=
  let r := isqrt n k 24 0
  if (2 * r + 1) * (2 * r + 1) * k < 4 * n then r + 1
  else if (2 * r + 1) * (2 * r + 1) * k = 4 * n && r % 2 == 1 then r + 1 else r

/-- The output of a detector's window of `w` courses (R140). -/
def Det.output (x : Det) (typ w : Nat) : DetOut :=
  let (a, b) : Int × Int := match typ with
    | 0 => (x.hi, x.lo)
    | 1 => ((rmsOf x.sq w : Nat), 0)
    | _ => (divEven x.env (2 ^ 16), 0)
  { first := x.first, count := x.count, p := x.p, v1 := a, v2 := b, settling := x.settling, why := x.why, q := x.q }

/-- A detector's window closes; a window of no course has no output (R141). -/
def Det.close (x : Det) (typ w : Nat) : Det :=
  if x.count = 0 then x else { x with ready := x.ready ++ [x.output typ w], count := 0, sq := 0, settling := false, why := 0 }

/-- A window opens at the first course of a window, and after a history restart at whatever course comes (R141). -/
def Det.opens (x : Det) (w n : Nat) : Bool := n % w == 0 || x.anew

/-- The envelope after a course: it takes every one, also those before the first window (R140). -/
def Det.envNext (x : Det) (att rel : Nat) (v : Int) : Nat :=
  let mag := min (iabs v) (2 ^ 23 - 1)
  let a := if x.env < mag * 65536 then att + 1 else rel + 1
  ((x.env : Int) + divEven ((a : Int) * ((mag * 65536 : Nat) - (x.env : Int))) 65536).toNat

/-- One course of a detector, of number `n` and position `p` (R140, R141); `run` is the reason of its SETTLING run. -/
def Det.course (x : Det) (typ w att rel n p : Nat) (v : Int) (run : Option Nat) (q : Nat) : Det :=
  let x0 := if n % w = 0 then x.close typ w else x
  if x0.count = 0 ∧ !x0.opens w n then { x0 with env := x0.envNext att rel v }
  else
    let x1 := if x0.count = 0 then { x0 with first := n, hi := v, lo := v, sq := 0, settling := false, why := 0, anew := false } else x0
    let x2 :=
      { x1 with
        count := x1.count + 1, p := p, hi := max x1.hi v, lo := min x1.lo v, sq := x1.sq + iabs v * iabs v, env := x1.envNext att rel v
        settling := x1.settling || run.isSome, why := if x1.settling then x1.why else run.getD 0, q := q }
    if (n + 1) % w = 0 then x2.close typ w else x2

/-- W of a detector (R140). -/
def State.detWin (s : State) (t d : Nat) : Nat := s.f (F.DET_WIN_LEN t d) + 1

/-- One course of a detector of the hub. -/
def State.detCourse (s : State) (t d n p : Nat) (v : Int) (run : Option Nat) (q : Nat) : State :=
  s.setDet (32 * t + d) ((s.det (32 * t + d)).course (s.f (F.DET_CTL_TYPE t d)) (s.detWin t d) (s.f (F.DET_ENV_ATT t d))
    (s.f (F.DET_ENV_REL t d)) n p v run q)

/-- A history restart closes the windows of a path's detectors and clears their envelopes; the next window opens at the restart's first course
(R141). At a SYNC that is the first course of the tail, whose window course 0 then closes (DESIGN CHOICE, notes/assumptions/121.md). -/
def State.detRestart (s : State) (t p : Nat) : State :=
  s.each ((s.dets t).filter fun d => s.f (F.DET_CTL_PATH t d) == p) fun s d =>
    s.setDet (32 * t + d) { Det.close (s.det (32 * t + d)) (s.f (F.DET_CTL_TYPE t d)) (s.detWin t d) with env := 0, anew := true }

/-! ### Restarts and the end of fades -/

/-- A fade ends with the new bank active, and `f` says what becomes of the path (R137, R138). -/
def State.fadeOver (s : State) (t p : Nat) (f : Path → Path) : State :=
  if !s.fading t p then s
  else
    let s1 := (s.setF (F.FP_STAT_ACT t p) (1 - s.f (F.FP_STAT_ACT t p))).setF (F.FP_STAT_STATE t p) 0
    (s1.setPath (8 * t + p) { f (s1.path (8 * t + p)) with fade := none }).raiseBit (R.FE_EVT t) 0 0x0401 t (p * 256)

/-- A path goes on with the outputs of the other bank alone. -/
def Path.takeOther (x : Path) : Path := { x with chans := x.chans.map fun q => (q.1, { q.2 with out := q.2.out2, out2 := [] }) }

/-- The banks change places, and the tail of the old numbering goes on with the fade in phase `st` (R138; DEDUCED, notes/assumptions/122.md). -/
def Path.keepFade (x : Path) (st : Nat) : Path :=
  { x with tail := x.fade.map fun f => (f, st), chans := x.chans.map fun q => (q.1, { q.2 with out := q.2.out2, out2 := q.2.out }) }

/-- A fade ends with the new bank active (R137, R138). -/
def State.endFade (s : State) (t p : Nat) : State := s.fadeOver t p Path.takeOther

/-- A SYNC ends a fade: the new bank is active from course 0, and the tail of the old numbering is computed as the fade goes on (R138); a re-lock of MCLK
does the same (DEDUCED, notes/assumptions/122.md). -/
def State.syncFade (s : State) (t p : Nat) : State :=
  let st := s.f (F.FP_STAT_STATE t p)
  s.fadeOver t p fun x => x.keepFade st

/-- Every path of a tile that has become IDLE, or whose tile stops, ends its fade (R138). -/
def State.endFades (s : State) (t : Nat) : State := s.each (range' 0 8) fun s p => s.endFade t p

/-- A channel of a path that has become IDLE: its history is gone, and what is to carry SETTLING still is (R130, R131). -/
def Chan.rest (ch : Chan) : Chan := { Chan.init with first := ch.first, wins := ch.wins, held := ch.held }

/-- A path forgets its outstanding courses. -/
def Path.dropDue (x : Path) : Path := { x with due := [], tail := none }

/-- Paths that have become IDLE end their fades and forget their outstanding courses (R112, R138). -/
def State.idlePaths (s : State) (t : Nat) : State :=
  s.each (range' 0 8) fun s p =>
    s.when (s.pathIdle t p) fun s =>
      let s1 := s.endFade t p
      let pa := s1.path (8 * t + p)
      s1.setPath (8 * t + p) { pa.dropDue with chans := pa.chans.map fun q => (q.1, q.2.rest) }

/-! ### A course leaves a path -/

/-- What one channel delivers for a course. -/
structure COut where
  i : Nat
  x : Int
  /-- The reason of the SETTLING run, where the output carries SETTLING. -/
  run : Option Nat
  failed : Bool
  deriving DecidableEq, Repr

/-- The active streams that draw on an input of a tile through a path, as channels. -/
def State.chanStreams (s : State) (t p i : Nat) : List Nat :=
  s.activeSids.filter fun k => s.f (F.SE_CTL_SRC_KIND k) == 0 && s.f (F.SE_SRC_CH k) == 16 * t + i && s.f (F.SE_CTL_FPATH k) == p

/-- The active streams whose source is a detector. -/
def State.detStreams (s : State) (t d : Nat) : List Nat :=
  s.activeSids.filter fun k => s.f (F.SE_CTL_SRC_KIND k) == 1 && s.f (F.SE_SRC_TILE k) == t && s.f (F.SE_SRC_DET k) == d

/-- A value waits for every enabled unit that watches a source (R145, R147); the first since the source became active again is marked (R149). -/
def State.toUnits (s : State) (watch : Nat → Bool) (v : TuVal) : State :=
  if s.mode != 3 then s
  else s.each ((range' 0 64).filter fun u => s.b (F.TU_CTL_EN u) && watch u) fun s u =>
    s.setTu u { s.tu u with vals := (s.tu u).vals ++ [{ v with fresh := (s.tu u).anew }], anew := false }

/-- One channel's output for a course: to its detectors, the trigger units and the STRAIGHT streams; the courses of a failed input are lost
(R64). -/
def State.deliverOut (s : State) (t p : Nat) (d : Due) (o : COut) : State :=
  let sids := s.chanStreams t p o.i
  let dets := (s.dets t).filter fun k => s.f (F.DET_CTL_PATH t k) == p && s.f (F.DET_CTL_CH t k) == o.i
  if o.failed then
    if s.mode != 3 then s
    else s.each (sids ++ dets.flatMap fun k => s.detStreams t k) fun s k =>
      if s.masonWritten k then s.inboxLost k d.n 1 2 d.q else s.deliver k ⟨d.p, 0, false, 0, d.q, 2⟩
  else
    let se := o.run.isSome
    let s1 := s.each dets fun s k => s.detCourse t k d.n d.p o.x o.run d.q
    let s2 := s1.when (s1.numbered (s1.f (F.FP_CTL_GRID t p)) d.p) fun s =>
      s.toUnits (fun u => s.f (F.TU_CTL_SRC_KIND u) == 0 && sids.contains (s.f (F.TU_SRC_SID u))) ⟨d.p, o.x, se, d.q, false⟩
    s2.each (sids.filter fun k => !s.masonWritten k) fun s k => s.deliver k ⟨d.p, o.x, se, o.run.getD 0, d.q, 0⟩

/-- The packet of a course for one mason (R188, R189). -/
def State.coursePacket (s : State) (t p m : Nat) (d : Due) (os : List COut) : State :=
  let mine (o : COut) : List Nat := (s.chanStreams t p o.i).filter fun k => s.masonWritten k && s.f (F.SE_CTL_MASON k) == m
  let ls := os.filter fun o => !o.failed && mine o != []
  if ls = [] then s
  else
    let lanes := (range' 0 16).map fun i => match ls.find? fun o => o.i == i with
      | some o => BitVec.ofInt 32 o.x
      | none => 0
    let mask (f : COut → Bool) : Nat := ((ls.filter f).map fun o => 2 ^ o.i).sum
    let g := s.f (F.FP_CTL_GRID t p)
    let h := [BitVec.ofNat 32 (g * 2 ^ 30 + p * 2 ^ 27 + t * 2 ^ 22 + d.q * 2 ^ 19 + d.n / 2 ^ 32), BitVec.ofNat 32 d.n,
      BitVec.ofNat 32 (mask (fun o => o.run.isSome) * 65536 + mask fun _ => true), 0]
    let s1 := s.each (ls.flatMap fun o => (mine o).map fun k => (k, o.run.isSome)) fun s k => s.setF (F.SE_STAT_SETTLING k.1) (b2n k.2)
    s1.packetTo m (h ++ lanes) (ls.flatMap mine) d.n 1 d.q

/-- The computed outputs of a path's channels for a course, in order of input. -/
def State.courseOuts (s : State) (t p : Nat) (d : Due) : List Nat → State × List COut
  | [] => (s, [])
  | i :: r =>
    if s.b (F.CH_STAT_FAILED t i) then
      let (s1, os) := s.courseOuts t p d r
      (s1, ⟨i, 0, none, true⟩ :: os)
    else
      let run := runAfter (s.chan t p i).run (s.settleCause t p i d)
      let (s1, y) := s.courseValue t p i d
      let s2 := s1.setChan t p i (((s1.chan t p i).trim d.at_).after d.at_ (s1.delays5 t p i) run)
      let (s3, os) := s2.courseOuts t p d r
      (s3, ⟨i, y, run, false⟩ :: os)

/-- The fade's counters after a course (R137). -/
def Fade.next (f : Fade) (state : Nat) : Fade :=
  if state = 3 then { f with m := f.m + 1 } else if 0 < f.pre then { f with pre := f.pre - 1 } else { f with warm := f.warm - 1 }

/-- The courses before n_g are over: the new bank fills its history (R137). -/
def State.warmUp (s : State) (t p : Nat) : State :=
  match (s.path (8 * t + p)).fade with
  | some f => s.when (f.pre == 0 && decide (0 < f.warm) && s.f (F.FP_STAT_STATE t p) == 0) fun s => s.setF (F.FP_STAT_STATE t p) 2
  | none => s

/-- The phase in which the fade of a tail computes its next course (R137, R138). -/
def Fade.phase (f : Fade) (st : Nat) : Nat :=
  if st = 4 ∨ (st = 3 ∧ f.m = f.len) then 4 else if st = 3 ∨ (f.pre = 0 ∧ f.warm = 0) then 3 else if f.pre = 0 then 2 else st

/-- The tail's fade comes to its next course (R138). -/
def State.tailPhase (s : State) (t p : Nat) (d : Due) : State :=
  match s.tailFade t p d with
  | some (f, st) => s.setPath (8 * t + p) { s.path (8 * t + p) with tail := some (f, f.phase st) }
  | none => s

/-- The fade's counters after a course; those of a tail are over with it (R137, R138). -/
def State.fadeStep (s : State) (t p : Nat) (d : Due) : State :=
  let pa := s.path (8 * t + p)
  match s.tailFade t p d with
  | some (f, st) =>
    if pa.due.any fun d => 0 < d.tail then s.setPath (8 * t + p) { pa with tail := some (if st = 4 then f else f.next st, st) }
    else s.setPath (8 * t + p) { pa with tail := none, chans := pa.chans.map fun q => (q.1, { q.2 with out2 := [] }) }
  | none => (s.setPath (8 * t + p) { pa with fade := pa.fade.map fun f => f.next (s.f (F.FP_STAT_STATE t p)) }).warmUp t p

/-- A path outputs a course for all of its channels (R123, R128). -/
def State.pathCourse (s : State) (t p : Nat) (d : Due) : State :=
  let s0 := s.tailPhase t p d
  let (s1, os) := s0.courseOuts t p d (s0.chanSet t p)
  let s3 := (s1.fadeStep t p d).each os fun s o => s.deliverOut t p d o
  s3.each (range' 0 16) fun s m => s.coursePacket t p m d os

/-! ### Restarts -/

/-- Blending begins with the given course (R137). -/
def State.startBlend (s : State) (t p n : Nat) : State := (s.setF (F.FP_STAT_STATE t p) 3).setTwo (R.FP_FADE_C t p) n

/-- The phase of a fade in which the path's next course, number `n`, is computed (R137). -/
def State.fadePhase (s : State) (t p n : Nat) : State :=
  match (s.path (8 * t + p)).fade with
  | none => s
  | some fd =>
    let st := s.f (F.FP_STAT_STATE t p)
    if st = 3 ∧ fd.m = fd.len then s.endFade t p
    else if st != 3 && fd.pre == 0 && fd.warm == 0 then s.startBlend t p n
    else s

/-- The courses of a path whose inputs have all arrived leave it, in order (R128). -/
def State.releaseReady (s : State) (t p : Nat) : List Due → State
  | [] => s
  | d :: r =>
    if !s.courseReady t p d then s
    else
      let s1 := s.fadePhase t p d.n
      ((s1.setPath (8 * t + p) { s1.path (8 * t + p) with due := r }).pathCourse t p d).releaseReady t p r

/-- The courses still due become the tail of the old numbering, with a reason (R130, R134). -/
def tailOff (why : Nat) : List Due → List Due
  | [] => []
  | d :: r => (if d.tail = 0 then { d with tail := r.length + 1, tailWhy := why } else d) :: tailOff why r

/-- A channel after a SYNC or a re-lock (R130): delay lines, integrators and combs are zero; the outputs and the words of an SCS interval that came before
stand for the courses that the restart does not concern; a disturbance in progress goes on (R131). -/
def Chan.restart (ch : Chan) : Chan :=
  { Chan.init with out := ch.out, out2 := ch.out2, scs := ch.scs, zeros := ch.scs.length, wins := ch.wins, held := ch.held, run := ch.run }

/-- A SYNC or a re-lock reaches a path (R130): the courses that are complete leave it, and those still due become the tail, with the reason `why`; then the
channels restart. -/
def State.restartPath (s : State) (t p why : Nat) : State :=
  let s1 := ((s.releaseReady t p (s.path (8 * t + p)).due).syncFade t p).detRestart t p
  let pa := s1.path (8 * t + p)
  let pb := if pa.due = [] then { pa.dropDue with chans := pa.chans.map fun q => (q.1, { q.2 with out := [], out2 := [] }) } else pa
  s1.setPath (8 * t + p) { pb with due := tailOff why pb.due, chans := pb.chans.map fun q => (q.1, q.2.restart) }

/-- The first course after a restart of a grid's paths, and its reason: the courses from it on carry SETTLING (R130, R134). -/
def Grid.restarts (x : Grid) (p why : Nat) : Grid := { x with anew := (p, why) :: x.anew.take 1 }

/-- A waking tile restarts every path of its engine; the run of a channel begins with its first word (R71, R130). -/
def State.restartWake (s : State) (t : Nat) : State :=
  s.each (range' 0 8) fun s p =>
    let s1 := s.detRestart t p
    let pa := s1.path (8 * t + p)
    s1.setPath (8 * t + p) { pa.dropDue with held := true, chans := pa.chans.map fun q => (q.1, { Chan.init with wins := q.2.wins, held := true }) }

end Sys2Proof.Machine
end

