-- ==== Sys2Proof/Machine/SmplOps.lean ====
section
/-!
DEFINITION. The sampling clock SMPL (R39, R92, R96, R97, R98, R123): its common edge count, the instants of its edges, the phase interpolator, and the
instant of a slice's sample. Instants are in units of 1/(5 · 2^32) ns: a VCO period of 0.2 ns is 2^32 of them, and a phase or skew step of one
sixty-fourth of it is 2^26.
-/

namespace Sys2Proof.Machine

/-- Phase steps in a SMPL period: 64 × VDIV (R97). -/
def State.phaseMod (s : State) : Nat := 64 * s.f F.SMPL_CTL_VDIV

/-- The signed way from phase `a` to `b` on a ring of `m` steps, the shorter one, and upward where both are equally long (R97; notes/assumptions/115.md). -/
def phaseWay (m a b : Nat) : Int :=
  let up := (b + m - a % m) % m
  if 2 * up ≤ m then up else (up : Int) - m

/-- The steps that the interpolator has moved after `n` SMPL cycles, one in each until it is there (R97). -/
def phaseMoved (way : Int) (n : Nat) : Int := limitTo n way

/-- A number of steps of one sixty-fourth of the VCO's period, in the units of instants (R97). -/
def State.stepSpan (s : State) (n : Int) : Int := n * (5 * 10 ^ 9 * 2 ^ 26) / (s.vco : Int)

/-- The interpolator's steps at a SMPL edge, on its way to SMPL_PHASE (R97). -/
def State.dispAt (s : State) (edge : Nat) : Int :=
  let x := s.smpl
  x.disp + phaseMoved (phaseWay s.phaseMod (x.disp % s.phaseMod).toNat (s.f F.SMPL_PHASE_STEPS)) (edge - x.edge)

/-- The instant of a SMPL edge from the anchor: whole periods of the VCO's frequency, and the interpolator's way since (R97, R123). -/
def State.edgeAt (s : State) (edge : Nat) : Int :=
  let x := s.smpl
  x.at_ + s.stepSpan (((edge : Int) - x.edge) * s.phaseMod + (s.dispAt edge - x.disp))

/-- The instant of a SMPL edge. While SMPL follows MCLK the hub measures where the divided VCO puts it, `tau`, and the interpolator delays it from there
(R97, R123; notes/assumptions/99.md). -/
def State.edgeTime (s : State) (edge tau : Nat) : Int :=
  if s.b F.SMPL_CTL_SRC then tau + s.stepSpan (s.dispAt edge) else s.edgeAt edge

/-- The lowest frequency of the VCO in Hz: the lower end of what MCLK_STAT.FREQ resolves, and in holdover 0.1 ppm less for every second begun since (R98). -/
def State.lowestVco (s : State) : Nat :=
  let f := s.vco - 10 * s.f F.MCLK_CTL_MMUL
  if s.b F.MCLK_STAT_HOLDOVER then f - ceilDiv (f * ceilDiv (s.cyc - s.smpl.since) secU) 10000000 else f

/-- The widest SMPL period: the VCO at its lowest, and the interpolator moving a step (R92, R97). -/
def State.widestSmpl (s : State) : Int := ((s.phaseMod + 1 : Nat) : Int) * (5 * 10 ^ 9 * 2 ^ 26) / (s.lowestVco : Int) + 1

/-- The common count anchored at an edge, at its instant. -/
def State.anchorSmpl (s : State) (edge : Nat) (at_ : Int) : State :=
  { s with smpl := { s.smpl with edge := edge, at_ := at_, disp := s.dispAt edge } }

/-- The common count brought up to the last edge that ST has passed, so that a new phase takes effect from there on (R97). -/
def State.smplNow (s : State) : State :=
  let x := s.smpl
  let e := x.edge + ((u5 s.st - x.at_) / s.stepSpan s.phaseMod).toNat
  s.anchorSmpl e (s.edgeAt e)

/-- SMPL locks to a source: the count starts, its anchor is measured, which places the edges against ST at a value that the spec leaves open, and the
interpolator stands at SMPL_PHASE (R96, R98, R123; notes/assumptions/99.md). -/
def State.smplLock (s : State) : State :=
  let (s1, off) := s.draw 32
  { s1 with
    smpl := { s1.smpl with edge := 0, at_ := u5 s1.st + (off % (s1.f F.SMPL_CTL_VDIV * 2 ^ 32) : Nat), disp := s1.f F.SMPL_PHASE_STEPS, sync := none } }

/-- The VCO loses MCLK: it holds its frequency (R98). -/
def State.smplHold (s : State) : State := { s with smpl := { s.smpl with hold := s.vco, since := s.cyc } }

/-- ST moves by Δ under the sampling clock. -/
def State.moveSmpl (s : State) (d : Int) : State := { s with smpl := { s.smpl with at_ := s.smpl.at_ + d * 327680, sync := none } }

/-- A slice clock's half in the units of instants (R41): exact with SYS, and by the measured frequency of MCLK otherwise. -/
def State.halfSlice (s : State) (t : Nat) : Nat :=
  if s.b F.SMPL_CTL_SRC then s.sliceVco t * (5 * 10 ^ 9 * 2 ^ 32) / (2 * s.vco) else s.sliceVco t * 2 ^ 31

/-- The instant of the sample that slice `sl` takes in the place of slice `k`, on the tile's sampling edge `edge` (R41, R57, R58, R123). -/
def State.sampleAt (s : State) (t sl k edge tau : Nat) : Nat :=
  let odd : Int := if s.pairOdd t k then s.halfSlice t + sx 8 (s.f (F.SKEW_TRIM t (k / 2))) * 2 ^ 26 else 0
  (s.edgeTime edge tau + odd + Config.aperture t sl).toNat

end Sys2Proof.Machine
end

