-- ==== Sys2Proof/Machine/Tiles.lean ====
section
/-!
DEFINITION. The tiles: slice conversion (R43, R45), gain changes (R37), power states (R70 to R72), the spare's rotation (R48 to R56), skew trims
(R58, R59), the excitation outputs (R65 to R68), and the commands of them.
-/

namespace Sys2Proof.Machine

/-! ### Shared operations -/

/-- Whether a tile is ACTIVE (R69). -/
def State.tileActive (s : State) (t : Nat) : Bool := s.f (F.TILE_STAT_PSTATE t) == 2

/-- The input that a slice converts: its own, or the even one of its pair (R41). -/
def State.inputOf (s : State) (t k : Nat) : Nat := if s.pairOdd t k then k - 1 else k

/-- The source shown for slice `k`'s place of its input (CH_STAT.SRC0, SRC1). -/
def State.setSrc (s : State) (t k v : Nat) : State :=
  if s.pairOdd t k then s.setF (F.CH_STAT_SRC1 t (k - 1)) v else s.setF (F.CH_STAT_SRC0 t k) v

/-- Rotation stops for good until the next bring-up (R62). The event names no slice (DESIGN CHOICE, notes/assumptions/109.md). -/
def State.freeze (s : State) (t : Nat) : State :=
  if s.b (F.TILE_STAT_CAL_FROZEN t) then s
  else (s.setF (F.TILE_STAT_CAL_FROZEN t) 1).raiseBit (R.TILE_EVT t) 2 0x0305 t 0

/-- The retired slice of a tile for which a good spare stands in permanently: the lowest (R60, R61, R63). -/
def State.retired (s : State) (t : Nat) : Option Nat :=
  if s.b (F.TILE_STAT_SPARE_FAILED t) then none else (range' 0 16).find? fun k => bit (s.f (F.TILE_RETIRE_SLICE t)) k

/-- An input is taken out of service, once (R64). -/
def State.takeOut (s : State) (t i : Nat) : State :=
  if bit (s.f (F.TILE_FAILED_INPUT t)) i then s
  else ((s.setBit (R.TILE_FAILED t) i).setF (F.CH_STAT_FAILED t i) 1).raiseBit (R.TILE_EVT t) 3 0x0307 t i

/-- A slice is faulty and no spare replaces it: its input is taken out of service; in a pair the pair's input is (R64). -/
def State.failInput (s : State) (t k : Nat) : State :=
  let x := s.tile t
  (s.setTile t { x with bad := if bit x.bad k then x.bad else x.bad + 2 ^ k }).takeOut t (s.inputOf t k)

/-- The inputs that the faulty slices convert under the pairing in force are out of service. An input taken out stays out when its pair is broken up
(R64; notes/assumptions/116.md). -/
def State.failBad (s : State) (t : Nat) : State :=
  s.each ((range' 0 16).filter fun k => bit (s.tile t).bad k) fun s k => s.takeOut t (s.inputOf t k)

/-- A tile whose clock runs out of range shows RATE_ERR, logged when it appears; it clears once the rate is in range (R38). -/
def State.rateCheck (s : State) (t : Nat) : State :=
  if !s.smplRuns then s
  else if s.rateOk t then s.setF (F.TILE_STAT_RATE_ERR t) 0
  else if s.f (F.TILE_STAT_PSTATE t) = 0 && !s.b (F.TILE_STAT_RATE_ERR t) then
    (s.setF (F.TILE_STAT_RATE_ERR t) 1).raiseBit (R.TILE_EVT t) 7 0x0301 t 0
  else s

/-- The rate of every tile checked. -/
def State.rateChecks (s : State) : State := s.each (range' 0 24) fun s t => s.rateCheck t

/-- A tile stops converting: its switches open, rotation stops at once, a spare standing in is freed unless it stands in for a retired slice, the
fades of its paths and the gain changes of its channels end, and READY clears (R37, R70, R72, R131, R138). A tile that enters
SLEEP at a rate out of range shows it (R38). The count of aborted
hand-ins starts again, and the next rotation retries the slice of a rotation cut short (DESIGN CHOICE, notes/assumptions/100.md). -/
def State.tileStop (s : State) (t pstate : Nat) : State :=
  let spare := (s.retired t).getD 16
  let s1 := (((s.setF (F.TILE_STAT_PSTATE t) pstate).setF (F.TILE_STAT_READY t) 0).setF (F.TILE_STAT_IDLE t) 1).setF (F.TILE_STAT_PHASE t) 0
  let s2 := s1.setF (F.TILE_STAT_SPARE_POS t) spare
  let x := s2.tile t
  let s2a := s2.setW (R.TILE_CAL_CNT t) (s2.w (R.TILE_CAL_CNT t) + BitVec.ofNat 32 x.cals)
  let s3 := s2a.setTile t
    { x with
      spareCal := false, ovWait := 0, ovCount := 0, ovSum := 0, ovSlice := none, ovSpare := none, ovSkip := none, ovHold := false
      rSum := if spare = 16 then 0 else x.rSum, fade := none, repeated := false, cals := 0, aborts := 0, applied := 0 }
  let s4 := s3.each (range' 0 16) fun s k => s.setSrc t k (if spare = k then 16 else k)
  let s5 := s4.each ((range' 0 16).filter fun i => s4.b (F.CH_STAT_UNSETTLED t i)) fun s i =>
    (s.setF (F.CH_STAT_UNSETTLED t i) 0).settleUntil t i (u5 s.st)
  ((s5.endFades t).each (range' 0 8) fun s p => s.setPath (8 * t + p) (s.path (8 * t + p)).dropDue).when (pstate == 0) fun s => s.rateCheck t

/-- The trims that a calibration leaves in a slice (R43). -/
def State.setTrim (s : State) (t k : Nat) (x : Trim) : State :=
  let s1 := (s.setW (R.SLICE_OFS t k) (BitVec.ofNat 32 x.ofs.toNat)).setW (R.SLICE_GN t k) (BitVec.ofNat 32 x.gn.toNat)
  s1.setTile t { s1.tile t with lin := Tab.set (fun _ => 0) (s1.tile t).lin k x.lin }

/-- slice_trim of R43: the code times 256 with the slice's offset, gain and linearity corrections, at the 24-bit scale. -/
def State.sliceTrim (s : State) (t k : Nat) (code : BitVec 16) : Int :=
  let x := code.toInt * 256
  let gn : Int := (s.w (R.SLICE_GN t k)).toNat
  x + sx 24 (s.w (R.SLICE_OFS t k)).toNat + divEven (x * (gn - 2 ^ 23)) (2 ^ 23)
    + Config.trimCorr (Tab.get (fun _ => 0) (s.tile t).lin k) code.toNat

/-- A code at either end (R45). -/
def endCode (code : BitVec 16) : Bool := code == 0x7FFF || code == 0x8000

/-! ### The overlap of a handover (R50, R52) -/

/-- An overlap is running. -/
def State.overlap (s : State) (t : Nat) : Bool := s.f (F.TILE_STAT_PHASE t) == 1 || s.f (F.TILE_STAT_PHASE t) == 3

/-- r rounded to a word step: what the spare's words are corrected by (R50). -/
def Tile.r (x : Tile) : Int := divEven x.rSum 256

/-- The overlap starts again at the next slice clock (R52, R53). -/
def Tile.restart (x : Tile) : Tile := { x with ovCount := 0, ovSum := 0, ovSlice := none, ovSpare := none, ovSkip := none }

/-- A pair of words of one sample, of slice k and of the spare, is counted: D in the first overlap, E in the second. The 16 slice clocks before the
first counted sample are not yet the overlap. -/
def Tile.pairWord (x : Tile) (second : Bool) (a b : Int) : Tile :=
  let y := { x with ovSlice := none, ovSpare := none }
  if 0 < x.ovWait then { y with ovWait := x.ovWait - 1 }
  else if 256 ≤ x.ovCount then y
  else { y with ovCount := x.ovCount + 1, ovSum := x.ovSum + (if second then a - (b - x.r) else b - a) }

/-- The trimmed word that slice k (or the spare) takes on a SMPL edge in an overlap: it pairs with the other's word of the same edge. An end code
restarts the overlap at the next slice clock, and so does a gain change while it holds it; neither acts in the 16 slice clocks before it (R50, R52,
R53; notes/assumptions/101.md). -/
def Tile.ovWord (x : Tile) (spare second : Bool) (edge : Nat) (v : Int) (ends : Bool) : Tile :=
  let bad := decide (x.ovWait = 0) && (x.ovHold || ends)
  let other := if spare then x.ovSlice else x.ovSpare
  if bad then { x.restart with ovSkip := some edge }
  else if x.ovSkip = some edge then x
  else match other with
    | some (e, w) =>
      if e = edge then { (if spare then x.pairWord second w v else x.pairWord second v w) with ovSkip := none }
      else if spare then { x with ovSlice := none, ovSpare := some (edge, v) } else { x with ovSpare := none, ovSlice := some (edge, v) }
    | none => if spare then { x with ovSpare := some (edge, v) } else { x with ovSlice := some (edge, v) }

/-! ### Conversion (R43, R45, R50) -/

/-- The slice whose place a conversion of slice `sl` serves, `none` where that slice does not convert: the spare while it is free or calibrates, a
slice in calibration, a retired slice. -/
def State.placeOf (s : State) (t sl : Nat) : Option Nat :=
  let ph := s.f (F.TILE_STAT_PHASE t)
  let pos := s.f (F.TILE_STAT_SPARE_POS t)
  let k := (s.tile t).nextK
  if sl = 16 then if ph = 1 then some k else if pos = 16 then none else some pos
  else if (ph == 2 || ph == 5) && sl == k then none
  else if bit (s.f (F.TILE_RETIRE_SLICE t)) sl then none
  else some sl

/-- Whether a converting slice delivers the channel word of its place (R50). -/
def State.delivers (s : State) (t sl k : Nat) : Bool :=
  if sl = 16 then s.f (F.TILE_STAT_SPARE_POS t) == k else s.f (F.TILE_STAT_SPARE_POS t) != k

/-- The trimmed word as the handover corrects it: the spare's less r, or less the fading residual of the slice that took its input back. -/
def Tile.handoverWord (x : Tile) (sl : Nat) (v : Int) : Int :=
  if sl = 16 then v - x.r
  else match x.fade with
    | some (k, e, m) => if k = sl ∧ m < 4096 then v - divEven (e * (4096 - m : Nat)) (2 ^ 20) else v
    | none => v

/-- A sample of the fading residual has passed. -/
def Tile.fadeStep (x : Tile) (sl : Nat) : Tile :=
  match x.fade with
  | some (k, e, m) => if k = sl ∧ m < 4096 then { x with fade := some (k, e, m + 1) } else x
  | none => x

/-- A bit of a number set or cleared. -/
def setBitTo (n i : Nat) (b : Bool) : Nat := if bit n i == b then n else if b then n + 2 ^ i else n - 2 ^ i

/-- A clipped sample of a channel (R45). -/
def State.clip (s : State) (t i : Nat) : State :=
  let s1 := s.bumpW (R.CH_CLIP_CNT t i) 1
  if s.b (F.CH_STAT_CLIP t i) then s1 else (s1.setF (F.CH_STAT_CLIP t i) 1).raiseBit (R.TILE_EVT t) 4 0x0308 t i

/-- The channel word of R43 before saturation. -/
def State.corrected (s : State) (t i : Nat) (x : Int) : Int :=
  divEven ((x + sx 24 (s.w (R.CH_OFF_ACT t i)).toNat) * ((s.w (R.CH_GAIN_ACT t i)).toNat : Nat)) (2 ^ 23)

/-- A tile's slices sample on an edge of the common count: SMPL produces edges, and the tile's divider counts it (R38, R39). -/
def State.samples (s : State) (t edge : Nat) : Bool := s.smplRuns && edge % s.f (F.TILE_CTL_RDIV t) == 0

/-- CONVERT_SAMPLE: slice `sl` of tile `t` converts a sample to `code`, on SMPL edge `edge` of the common count (R39, R43, R45, R50). The sample's
instant follows from the edge; while SMPL follows MCLK the hub measures the edge at `tau` (R123). -/
def execConvertSample (t : Fin 24) (sl : Fin 17) (code : BitVec 16) (edge tau : Nat) (s : State) : Host.Outcome State Fault Refusal :=
  act (fun s =>
    let t := t.val
    let sl := sl.val
    if !(s.tileActive t && s.samples t edge) then s
    else match s.placeOf t sl with
      | none => s
      | some k =>
        let i := s.inputOf t k
        if s.b (F.CH_STAT_FAILED t i) then s
        else
          let x := s.sliceTrim t sl code
          let ov := s.overlap t && (sl == 16 || sl == (s.tile t).nextK)
          let s1 := s.when ov fun s =>
            s.setTile t ((s.tile t).ovWord (sl == 16) (s.f (F.TILE_STAT_PHASE t) == 3) edge x (endCode code))
          if !s.delivers t sl k then s1
          else
            let y := s1.corrected t i ((s1.tile t).handoverWord sl x)
            let cl := endCode code || satS 24 y != y
            let s2 := (s1.setTile t { (s1.tile t).fadeStep sl with clip := setBitTo (s1.tile t).clip i cl }).when cl fun s => s.clip t i
            s2.channelWord t i (s2.sampleAt t sl k edge tau) edge (s2.pairOdd t k) (satS 24 y)) s

/-! ### Gain -/

/-- A write of TILE_PGA restarts the overlap on its input, once UNSETTLED has cleared (R53). That the cornerstone's own setting of a gain counts as such a
write is the model's (DESIGN CHOICE, notes/assumptions/117.md). -/
def State.gainOverlap (s : State) (t i : Nat) : State :=
  s.when (s.overlap t && decide ((s.tile t).ovWait = 0) && s.inputOf t (s.tile t).nextK == i) fun s =>
    s.setTile t { (s.tile t).restart with ovHold := s.b (F.CH_STAT_UNSETTLED t i) }

/-- An input's gain code takes a value; a change on an ACTIVE tile is unsettled until it has settled (R37, R53). -/
def State.setGain (s : State) (t i g : Nat) : State :=
  let change := s.tileActive t && g != s.f (F.TILE_PGA_GAIN t i)
  let s1 := s.setF (F.TILE_PGA_GAIN t i) g
  let s2 := s1.when change fun s =>
    (s.setF (F.CH_STAT_UNSETTLED t i) 1).disturb t i 3 (u5 s.st)
  s2.gainOverlap t i

/-- GAIN_CHANGE: a write of TILE_PGA[i] (R34, R37, R53, R399). -/
def execGainChange (r : Req) (t : Fin 24) (i : Fin 16) (v : Word) (s : State) : Host.Outcome State Fault Refusal :=
  act (fun s =>
    let t := t.val
    let i := i.val
    regWrite r (R.TILE_PGA t i) (fun s => s.metered t i) (fun s =>
      let g := bits v.toNat 2 0
      if 5 ≤ g then s.fin .unsupported
      else
        (s.setGain t i g).fin .ok) s) s

/-- GAIN_SETTLE_DONE: the settling slice clocks of a gain change have passed (R37, R53). -/
def execGainSettleDone (t : Fin 24) (i : Fin 16) (s : State) : Host.Outcome State Fault Refusal :=
  act (fun s =>
    let t := t.val
    let i := i.val
    if !s.b (F.CH_STAT_UNSETTLED t i) then s
    else
      let s1 := s.setF (F.CH_STAT_UNSETTLED t i) 0
      let s2 := s1.settleUntil t i (u5 s1.st)
      s2.when ((s2.tile t).ovHold && s2.inputOf t (s2.tile t).nextK == i) fun s => s.setTile t { (s.tile t).restart with ovHold := false }) s

/-! ### TILE_CTL, TILE_ILV and TILE_APPLY -/

/-- The slice that converts the place of slice `k` while the tile sleeps: its own, or the spare where it stands in for a retired one (R60, R72). -/
def State.srcOf (s : State) (t k : Nat) : Nat := if s.retired t = some k then 16 else k

/-- The inputs' pairing as CH_STAT shows it (R41), with the slices that convert them (R75); what SRC0 of a pair's odd input shows is the model's (DESIGN
CHOICE, notes/assumptions/118.md). -/
def State.showPairs (s : State) (t : Nat) : State :=
  s.each (range' 0 16) fun s i =>
    let s1 := (s.setF (F.CH_STAT_PARTNER_OFF t i) (b2n (s.pairOdd t i))).setF (F.CH_STAT_SRC0 t i) (s.srcOf t i)
    s1.setF (F.CH_STAT_SRC1 t i) (if s1.pairEven t i then s1.srcOf t (i + 1) else 31)

/-- A write of TILE_CTL (R38, R40). -/
def State.tileCtl (s : State) (t : Nat) (v : Word) : State :=
  let rdiv := bits v.toNat 13 8
  let change := rdiv != s.f (F.TILE_CTL_RDIV t)
  let s1 := s.setW (R.TILE_CTL t) (v &&& 0x3F03)
  if change && (rdiv == 0 || 40 < rdiv) then s.fin .unsupported
  else if change && s.f (F.TILE_STAT_PSTATE t) != 0 then s.fin .busy
  else if change && !s1.tileOk t then s.fin .unsupported
  else (s1.when change fun s => s.rateCheck t).fin .ok

/-- A write of TILE_ILV (R40 to R42). -/
def State.tileIlv (s : State) (t : Nat) (v : Word) : State :=
  let ilv := bits v.toNat 7 0
  let s1 := s.setF (F.TILE_ILV_ILV t) ilv
  if ilv = s.f (F.TILE_ILV_ILV t) then s.fin .ok
  else if s.f (F.TILE_STAT_PSTATE t) != 0 then s.fin .busy
  else if !s1.tileOk t then s.fin .unsupported
  else ((s1.showPairs t).failBad t).fin .ok

/-- TILE_CTL_WRITE: a write of TILE_CTL, or of TILE_ILV where `ilv` (R38, R40 to R42, R399). -/
def execTileCtlWrite (r : Req) (t : Fin 24) (ilv : Bool) (v : Word) (s : State) : Host.Outcome State Fault Refusal :=
  act (fun s =>
    let t := t.val
    if ilv then
      regWrite r (R.TILE_ILV t) (fun s => s.tileMetered t && bits v.toNat 7 0 != s.f (F.TILE_ILV_ILV t)) (fun s => s.tileIlv t v) s
    else
      regWrite r (R.TILE_CTL t) (fun s => s.tileMetered t && bits v.toNat 13 8 != s.f (F.TILE_CTL_RDIV t)) (fun s => s.tileCtl t v) s) s

/-- The staged values of one channel come into use (R46). -/
def State.applyChan (s : State) (t i : Nat) : State :=
  let o := s.w (R.CH_OFF t i)
  let g := s.w (R.CH_GAIN t i)
  if s.metered t i || (o == s.w (R.CH_OFF_ACT t i) && g == s.w (R.CH_GAIN_ACT t i)) then s
  else
    let s1 := (s.setW (R.CH_OFF_ACT t i) o).setW (R.CH_GAIN_ACT t i) g
    s1.when (s1.tileActive t && !bit (s1.tile t).applied i) fun s => s.setTile t { s.tile t with applied := (s.tile t).applied + 2 ^ i }

/-- TILE_APPLY: a write of TILE_APPLY (R46, R47). -/
def execTileApply (r : Req) (t : Fin 24) (v : Word) (s : State) : Host.Outcome State Fault Refusal :=
  act (regWrite r (R.TILE_APPLY t.val) noLock fun s =>
    (s.when (wbit v 0) fun s => s.each (range' 0 16) fun s i => s.applyChan t.val i).fin .ok) s

/-! ### Power states (R70) -/

/-- Something keeps a tile awake: an active stream, FORCE_ON, or a metered channel (R70, R399). -/
def State.wanted (s : State) (t : Nat) : Bool := s.drawn t || s.b (F.TILE_CTL_FORCE_ON t) || s.tileMetered t

/-- TILE_WAKE: a tile in SLEEP whose wake condition holds is powered, with RATE_ERR clear (R38, R70). -/
def execTileWake (t : Fin 24) (s : State) : Host.Outcome State Fault Refusal :=
  act (fun s =>
    let t := t.val
    if s.f (F.TILE_STAT_PSTATE t) = 0 && s.live && s.smplRuns && s.rateOk t && s.wanted t then
      ((s.rateCheck t).setF (F.TILE_STAT_PSTATE t) 1).setF (F.TILE_STAT_IDLE t) 0
    else s.when (s.live && s.wanted t) fun s => s.rateCheck t) s

/-- TILE_READY: settling and the foreground calibration, which leaves the trims given, are complete; a frozen tile skips the calibration
(R70 to R72). -/
def execTileReady (t : Fin 24) (trims : List Trim) (s : State) : Host.Outcome State Fault Refusal :=
  act (fun s =>
    let t := t.val
    if s.f (F.TILE_STAT_PSTATE t) != 1 then s
    else
      let s1 := s.when (!s.b (F.TILE_STAT_CAL_FROZEN t)) fun s =>
        s.each ((range' 0 17).zip trims) fun s x => s.setTrim t x.1 x.2
      let s2 := (s1.setF (F.TILE_STAT_PSTATE t) 2).setF (F.TILE_STAT_READY t) 1
      (s2.setTile t { s2.tile t with perLog := s2.f (F.TILE_ROT_PERIOD_LOG2 t) }).restartWake t) s

/-- TILE_SLEEP: a tile that nothing keeps awake goes to SLEEP (R70, R72). -/
def execTileSleep (t : Fin 24) (s : State) : Host.Outcome State Fault Refusal :=
  act (fun s =>
    let t := t.val
    let p := s.f (F.TILE_STAT_PSTATE t)
    if (p == 1 || p == 2) && !s.wanted t then s.tileStop t 0 else s) s

/-! ### Rotation (R48 to R56) -/

/-- The spare's switch closes onto the next slice's input, and the first overlap begins 16 slice clocks later (R50). -/
def State.startRotation (s : State) (t : Nat) : State :=
  (s.setF (F.TILE_STAT_PHASE t) 1).setTile t { (s.tile t).restart with ovWait := 16, ovHold := false }

/-- ROTATION_BOUNDARY: a rotation period boundary (R48, R52, R56). -/
def execRotationBoundary (t : Fin 24) (s : State) : Host.Outcome State Fault Refusal :=
  act (fun s =>
    let t := t.val
    if !s.tileActive t then s
    else
      let s0 := s.setTile t { s.tile t with perLog := s.f (F.TILE_ROT_PERIOD_LOG2 t) }
      let s1 := s0.when (s0.f (F.TILE_STAT_PHASE t) == 1) fun s => s.setF (F.TILE_STAT_PHASE t) 0
      let free := s1.f (F.TILE_STAT_PHASE t) == 0 && s1.f (F.TILE_STAT_SPARE_POS t) == 16
      if free && s1.b (F.TILE_CTL_ROT_EN t) && !s1.b (F.TILE_STAT_CAL_FROZEN t) then s1.startRotation t else s1) s

/-- The handover tolerance in word steps (R49). A new HO_TOL counts at once (DESIGN CHOICE, notes/assumptions/106.md). -/
def State.tol (s : State) (t : Nat) : Nat := 16 * s.f (F.TILE_ROT_HO_TOL t)

/-- HAND_IN: the end of the first overlap (R50, R54). -/
def execHandIn (t : Fin 24) (s : State) : Host.Outcome State Fault Refusal :=
  act (fun s =>
    let t := t.val
    let x := s.tile t
    let k := x.nextK
    if !(s.f (F.TILE_STAT_PHASE t) == 1 && x.ovCount == 256) then s
    else if iabs x.ovSum ≤ 256 * s.tol t then
      let s1 := ((s.setF (F.TILE_STAT_PHASE t) 2).setF (F.TILE_STAT_SPARE_POS t) k).setSrc t k 16
      s1.setTile t { x.restart with rSum := x.ovSum, aborts := 0, repeated := false, cals := 0 }
    else
      let s1 := (s.bump (F.TILE_HO_ABORT_IN t) 1).raiseBit (R.TILE_EVT t) 0 0x0302 t k
      let s2 := (s1.setF (F.TILE_STAT_PHASE t) 4).setTile t { x.restart with spareCal := true, cals := 0, aborts := x.aborts + 1 }
      s2.when (decide (2 ≤ x.aborts)) fun s => s.freeze t) s

/-- SLICE_CAL_DONE: the slice's calibration ends and the second overlap follows (R50, R55). It counts in TILE_CAL_CNT with the rotation's end
(R50; notes/assumptions/26.md). -/
def execSliceCalDone (t : Fin 24) (trim : Trim) (s : State) : Host.Outcome State Fault Refusal :=
  act (fun s =>
    let t := t.val
    let ph := s.f (F.TILE_STAT_PHASE t)
    if ph = 2 ∨ ph = 5 then
      let s1 := (s.setTrim t (s.tile t).nextK trim).setF (F.TILE_STAT_PHASE t) 3
      s1.setTile t { (s1.tile t).restart with ovWait := 16, cals := (s1.tile t).cals + 1 }
    else s) s

/-- The calibrations of a rotation that has ended, and `n` more, count in TILE_CAL_CNT, which wraps (R50, R75; notes/assumptions/26.md). -/
def State.countCals (s : State) (t n : Nat) : State :=
  let x := s.tile t
  (s.setW (R.TILE_CAL_CNT t) (s.w (R.TILE_CAL_CNT t) + BitVec.ofNat 32 (x.cals + n))).setTile t { x.restart with cals := 0, spareCal := false }

/-- HAND_BACK: the end of the second overlap (R50, R55, R61). PHASE shows IDLE once a slice is retired (DESIGN CHOICE, notes/assumptions/118.md). -/
def execHandBack (t : Fin 24) (s : State) : Host.Outcome State Fault Refusal :=
  act (fun s =>
    let t := t.val
    let x := s.tile t
    let k := x.nextK
    if !(s.f (F.TILE_STAT_PHASE t) == 3 && x.ovCount == 256) then s
    else if iabs x.ovSum ≤ 256 * s.tol t then
      let s1 := ((s.setF (F.TILE_STAT_PHASE t) 4).setF (F.TILE_STAT_SPARE_POS t) 16).setSrc t k k
      s1.setTile t { x.restart with fade := some (k, x.ovSum, 0), rSum := 0, nextK := (k + 1) % 16, repeated := false, spareCal := false }
    else
      let s1 := (s.bump (F.TILE_HO_ABORT_BACK t) 1).raiseBit (R.TILE_EVT t) 0 0x0302 t k
      if x.repeated then
        let s2 := ((s1.setF (F.TILE_STAT_PHASE t) 0).setBit (R.TILE_RETIRE t) k).raiseBit (R.TILE_EVT t) 1 0x0303 t k
        (s2.countCals t 0).freeze t
      else (s1.setF (F.TILE_STAT_PHASE t) 5).setTile t { x.restart with repeated := true }) s

/-- FADE_RESIDUAL_DONE: the residual has faded over 4,096 samples (R50). -/
def execFadeResidualDone (t : Fin 24) (s : State) : Host.Outcome State Fault Refusal :=
  act (fun s =>
    match (s.tile t.val).fade with
    | some (_, _, m) => if 4096 ≤ m then s.setTile t.val { s.tile t.val with fade := none } else s
    | none => s) s

/-- SPARE_CAL_DONE: the spare's calibration ends; with it the slice's count at the end of a rotation, which makes two, or three where a hand-back was
repeated; after an aborted hand-in it counts alone (R50, R54, R55, R75; notes/assumptions/26.md). -/
def execSpareCalDone (t : Fin 24) (trim : Trim) (s : State) : Host.Outcome State Fault Refusal :=
  act (fun s =>
    let t := t.val
    if s.f (F.TILE_STAT_PHASE t) != 4 then s
    else
      ((s.setTrim t 16 trim).setF (F.TILE_STAT_PHASE t) 0).countCals t 1) s

/-- SKEW_UPDATE: the skew estimate of a pair after a rotation period, in 1/8 ps; `quiet` where the signal stayed below −40 dBFS (R58, R59). -/
def execSkewUpdate (t : Fin 24) (k : Fin 8) (quiet : Bool) (est : Int) (s : State) : Host.Outcome State Fault Refusal :=
  act (fun s =>
    let t := t.val
    let k := k.val
    if !(s.tileActive t && s.pairEven t (2 * k)) then s
    else if quiet then s.setF (F.SKEW_HOLD t k) 1
    else
      let s1 := s.setF (F.SKEW_HOLD t k) 0
      let trim := sx 8 (s1.f (F.SKEW_TRIM t k))
      if iabs est ≤ 25 then s1
      else
        let n := if 0 < est then trim + 1 else trim - 1
        if n < -127 ∨ 127 < n then (s1.setF (F.SKEW_LIMIT t k) 1).raiseBit (R.TILE_EVT t) 6 0x0309 t k
        else s1.setF (F.SKEW_TRIM t k) (wrap 8 n)) s

/-! ### Excitation (R65 to R68) -/

/-- The output's target code. -/
def State.excTarget (s : State) (t : Nat) : Nat := if s.b (F.EXC_CTL_EN t) then s.f (F.EXC_LVL_LVL t) else 0

/-- An output that has reached its target stops ramping, and disconnects where it is disabled; with RAMP = 0 it reaches it at once (R66). -/
def State.excSettle (s : State) (t : Nat) : State :=
  if !s.b (F.EXC_STAT_CONNECTED t) then s
  else
    let s1 := if s.f (F.EXC_CTL_RAMP t) = 0 then s.setF (F.EXC_STAT_NOW t) (s.excTarget t) else s
    if s1.f (F.EXC_STAT_NOW t) = s1.excTarget t then
      (s1.setF (F.EXC_STAT_RAMPING t) 0).when (!s1.b (F.EXC_CTL_EN t)) fun s => s.setF (F.EXC_STAT_CONNECTED t) 0
    else s1.setF (F.EXC_STAT_RAMPING t) 1

/-- EXC_CTL_WRITE: a write of EXC_CTL, or of EXC_LVL where `lvl` (R66 to R68). -/
def execExcCtlWrite (r : Req) (t : Fin 24) (lvl : Bool) (v : Word) (s : State) : Host.Outcome State Fault Refusal :=
  act (fun s =>
    let t := t.val
    if lvl then regWrite r (R.EXC_LVL t) noLock (fun s => ((s.setF (F.EXC_LVL_LVL t) v.toNat).excSettle t).fin .ok) s
    else regWrite r (R.EXC_CTL t) noLock (fun s =>
      if wbit v 0 && !s.live then s.fin .mode
      else if wbit v 0 && s.b (F.EXC_STAT_FAULT t) then s.fin .ok
      else
        let s1 := (s.setF (F.EXC_CTL_RAMP t) (bits v.toNat 31 16)).setF (F.EXC_CTL_EN t) (b2n (wbit v 0))
        let s2 := s1.when (wbit v 0 && !s1.b (F.EXC_STAT_CONNECTED t)) fun s =>
          (s.setF (F.EXC_STAT_CONNECTED t) 1).setF (F.EXC_STAT_NOW t) 0
        (s2.excSettle t).fin .ok) s) s

/-- EXC_RAMP_STEP: RAMP microseconds have passed; the load current is measured (R66). -/
def execExcRampStep (t : Fin 24) (iload : BitVec 12) (s : State) : Host.Outcome State Fault Refusal :=
  act (fun s =>
    let t := t.val
    let s0 := s.setF (F.EXC_STAT_ILOAD t) iload.toNat
    if !s.b (F.EXC_STAT_RAMPING t) then s0
    else
      let now := s.f (F.EXC_STAT_NOW t)
      (s0.setF (F.EXC_STAT_NOW t) (if now < s.excTarget t then now + 1 else now - 1)).excSettle t) s

/-- The output is disconnected at once and held at AGND (R67, R68). ILOAD keeps the last measured current (DESIGN CHOICE, notes/assumptions/118.md). -/
def State.excCut (s : State) (t : Nat) : State :=
  ((s.setF (F.EXC_STAT_CONNECTED t) 0).setF (F.EXC_STAT_RAMPING t) 0).setF (F.EXC_STAT_NOW t) 0

/-- EXC_FAULT: a load current above 30 mA for 10 µs, in units of 10 µA (R67). -/
def execExcFault (t : Fin 24) (iload : BitVec 12) (s : State) : Host.Outcome State Fault Refusal :=
  act (fun s =>
    let t := t.val
    if !(s.b (F.EXC_STAT_CONNECTED t) && decide (3000 < iload.toNat)) then s
    else
      let s1 := ((s.setF (F.EXC_STAT_ILOAD t) iload.toNat).excCut t).setF (F.EXC_STAT_FAULT t) 1
      s1.raiseBit (R.TILE_EVT t) 5 0x030A t 0) s

/-- On entry to SAFE, KILN or DORMANT every excitation output is disconnected at once (R68). -/
def State.excOff (s : State) : State := s.each (range' 0 24) fun s t => (s.excCut t).setF (F.EXC_CTL_EN t) 0

end Sys2Proof.Machine
end

