-- ==== Sys2Proof/Machine/TimeOps.lean ====
section
/-!
DEFINITION. Time shared by several families: four-word values (R79), the grids' instants (R86), the time servo (R380 to R382, R388, R389), a SYNC's
effect on the data path (R130, R159, R169) and the step of system time (R384, R385).
-/

namespace Sys2Proof.Machine

/-! ### Time values -/

/-- The time that four consecutive words hold, in units of `st` (R79). -/
def State.time4 (s : State) (a : Nat) : Nat :=
  bits (s.w a).toNat 15 0 + (s.w (a + 4)).toNat * nsU + ((s.w (a + 8)).toNat + bits (s.w (a + 12)).toNat 15 0 * 2 ^ 32) * secU

/-- The four words of a time value (R79). -/
def timeWords (t : Nat) : List Word :=
  [BitVec.ofNat 32 (t % nsU), BitVec.ofNat 32 (t % secU / nsU), BitVec.ofNat 32 (t / secU), BitVec.ofNat 32 (t / secU / 2 ^ 32 % 2 ^ 16)]

/-- A time written to four consecutive words. -/
def State.setTime4 (s : State) (a t : Nat) : State := s.setWs a (timeWords t)

/-- The four words of a signed offset: magnitude and SIGN (R393). -/
def offsetWords (d : Int) : List Word :=
  match timeWords (iabs d) with
  | [a, b, c, e] => [a, b, c, if d < 0 then e ||| 0x80000000 else e]
  | ws => ws

/-- The signed offset that four words hold. -/
def State.offset4 (s : State) (a : Nat) : Int := if wbit (s.w (a + 12)) 31 then -(s.time4 a : Int) else s.time4 a

/-- A value in 1/65,536 ns as whole ps, rounded to nearest. -/
def toPs (t : Int) : Int := divEven (t * 1000) 65536

/-- A whole number of ps in 1/65,536 ns, rounded to nearest. -/
def ofPs (p : Int) : Int := divEven (p * 65536) 1000

/-- An integer as a 32-bit register value that saturates. -/
def satW (i : Int) : Word := BitVec.ofInt 32 (satS 32 i)

/-- The signed value of a register. -/
def State.sw (s : State) (a : Nat) : Int := (s.w a).toInt

/-! ### Grids -/

/-- The epoch of a grid in units of `st`. -/
def State.epoch (s : State) (g : Nat) : Nat := s.time4 (R.GRID_EPOCH g)

/-- Whether a grid is armed. -/
def State.armed (s : State) (g : Nat) : Bool := s.gstate g % 2 == 1

/-- Whether a grid produces courses. -/
def State.running (s : State) (g : Nat) : Bool := 2 ≤ s.gstate g

/-- The instant of course `n` of a TIME grid, exact, in units of 1/(5 · 2^32) ns (R86). -/
def State.instant5 (s : State) (g n : Nat) : Nat := u5 (s.epoch g) + n * s.per5 g

/-- An instant in ST form: 1/65,536 ns with round half to even (R86). -/
def stForm (t5 : Nat) : Nat := (divEven (t5 : Int) 327680).toNat

/-- Whether an active stream uses a grid (R91). -/
def State.gridUsed (s : State) (g : Nat) : Bool := s.activeSids.any fun k => s.f (F.SE_CTL_GRID k) == g

/-- The paths on a grid, as tile and path. -/
def State.gridPaths (s : State) (g : Nat) : List (Nat × Nat) :=
  (s.busyTiles.flatMap fun t => (range' 0 8).map fun p => (t, p)).filter fun q =>
    s.f (F.FP_CTL_GRID q.1 q.2) == g && !(s.chanSet q.1 q.2).isEmpty

/-- A grid stops: no further course, and no SYNC held (R88). -/
def State.stopGrid (s : State) (g : Nat) : State :=
  (s.setGrid g { s.grid g with sync := none }).setF (F.GRID_STAT_STATE g) 0

/-- A grid forgets its SYNC and is as before arming (R88). -/
def State.disarm (s : State) (g : Nat) : State :=
  if s.armed g then (s.setGrid g { s.grid g with sync := none }).setF (F.GRID_STAT_STATE g) (s.gstate g - 1) else s

/-! ### A SYNC in the data path -/

/-- A group's open window ends at the last course produced (R159); `last` is its position. -/
def State.endWindow (s : State) (i last : Nat) : State :=
  match s.b (F.TG_STAT_WIN i), (s.tg i).wins with
  | true, (a, b) :: r =>
    ((s.setTg i { s.tg i with wins := (a, min b last) :: r }).setTwo (R.TG_WIN_END i) (c48 (min b last))).setF (F.TG_STAT_WIN i) 0
  | _, _ => s.setF (F.TG_STAT_WIN i) 0

/-- The position of the last course that a grid has produced. -/
def State.lastPos (s : State) (g : Nat) : Nat := (s.grid g).base + (s.grid g).next - 1

/-- Values that a unit does not evaluate any more are gone; where the first one since its source became active is among them, the next one that the unit
sees initialises S (R147, R149). -/
def Tu.drop (x : Tu) (gone : TuVal → Bool) : Tu :=
  let lost := x.vals.any fun v => gone v && v.fresh
  match lost, x.vals.filter fun v => !gone v with
  | true, v :: r => { x with vals := { v with fresh := true } :: r }
  | true, [] => { x with vals := [], anew := true }
  | false, vs => { x with vals := vs }

/-- A unit starts afresh at a SYNC of its grid (R153): it has evaluated no course of the new numbering, and neither its source's values of the old
one nor its triggers that its group has not evaluated count any more (DESIGN CHOICE, notes/assumptions/102.md). -/
def State.unitSync (s : State) (u : Nat) : State :=
  (s.setTu u { (s.tu u).drop (fun _ => true) with done := none, na := none, trig := none, hits := [], autoFrom := 0 }).setF (F.TU_STAT_HOLDOFF u) 0

/-- The groups on a grid at a SYNC, before it: held courses are released, open windows end, and nothing has been evaluated of the new numbering
(R159). -/
def State.syncGroups (s : State) (g : Nat) : State :=
  let s1 := s.each ((range' 0 64).filter fun i => s.f (F.TG_CTL_GRID i) == g) fun s i => s.endWindow i (s.lastPos g)
  let s2 := s1.each (s1.activeSids.filter fun k => s1.f (F.SE_CTL_GRID k) == g) fun s k => s.releaseHeld k
  s2.each ((range' 0 64).filter fun i => s2.f (F.TG_CTL_GRID i) == g) fun s i =>
    let s1 := s.setTg i { s.tg i with done := none, ne := none }
    s1.each ((range' 0 64).filter fun u => s.f (F.TU_CTL_GROUP u) == i) fun s u => s.unitSync u

/-- A SYNC breaks the representation of every stream on the grid at the first course of the new numbering (R169). -/
def State.syncBreaks (s : State) (g : Nat) : State :=
  s.each (s.activeSids.filter fun k => s.f (F.SE_CTL_GRID k) == g) fun s k => s.setStr k { s.str k with sync := some (s.grid g).base }

/-! ### The servo -/

/-- A servo event (R392). -/
def State.ttEvent (s : State) (i code detail : Nat) : State := s.raiseBit R.TT_EVT i code 0 detail

/-- Units of 2^-40 in a number of ppm, rounded down. -/
def ppm (n : Nat) : Nat := n * 2 ^ 40 / 1000000

/-- F and S of the servo put into force: TIME_RATE = F + S (R380). -/
def State.setRate (s : State) (f sl : Int) : State :=
  let m := ppm 1000
  let f1 := limitTo m f
  let at_ := decide (iabs f1 = m)
  let s1 := { s with servo := { s.servo with f := f1 } }
  let s2 := (s1.setW R.TT_SLEW (satW sl)).setW R.TIME_RATE (satW (f1 + sl))
  let s3 := s2.setF F.TT_STAT_FREQ_LIMIT (b2n at_)
  s3.when (at_ && !s.b F.TT_STAT_FREQ_LIMIT) fun s => s.ttEvent 7 0x0217 0

/-- QUALITY as the servo's state gives it (R382). -/
def State.showQuality (s : State) : State :=
  let q := match s.f F.TT_STAT_STATE with
    | 1 => if s.servo.stepped then 2 else 3
    | 2 => if s.f F.TIME_CTL_SRC = 1 then 0 else s.f F.TT_STAT_PARENT_Q
    | 3 => 1
    | 4 => 1
    | 5 => 1
    | _ => 3
  s.setF F.TIME_STAT_QUALITY q

/-- The servo enters a state (R381): in COAST, JUMP and ROUTE the slew is 0 and F holds (R380). Large measurements stay consecutive from LOCK and COAST to
TRACK, and round trips through every state (R388). -/
def State.servoTo (s : State) (n : Nat) : State :=
  let v := s.servo
  let keep := n == 1 && (s.f F.TT_STAT_STATE == 2 || s.f F.TT_STAT_STATE == 3)
  let v1 :=
    { v with
      big := if keep then v.big else 0, small := 0, under := 0, above := 0, stepped := v.stepped && n != 2
      coastDev := if n = 3 then false else v.coastDev
      refCnt := 0, refDev := false }
  let s1 := { s with servo := v1 }
  let s2 := (s1.setF F.TT_STAT_STATE n).setF F.TT_STAT_JUMP_PEND (b2n (n == 4))
  let s3 := s2.when (n == 3 || n == 4 || n == 5) fun s => s.setRate s.servo.f 0
  s3.showQuality

/-- The servo starts again: after a reset, an ST_LOAD or a write of TIME_CTL.SRC (R381). The round trips and their reference stay (R388). -/
def State.servoReset (s : State) : State :=
  let v := s.servo
  let s1 := { s with servo := { Servo.init with pend := v.pend, stepped := v.stepped, rtts := v.rtts, refSet := v.refSet, dev := v.dev } }
  let s2 := ((s1.setRate 0 0).setF F.TT_STAT_ROUTE_PEND 0).setF F.TT_STAT_SECOND_OK 0
  s2.servoTo (if s.f F.TIME_CTL_SRC = 0 then 7 else 0)

/-- The mean of a list of offsets in ps. -/
def meanPs (xs : List Int) : Int := if xs = [] then 0 else divEven (xs.sum * 1000) (65536 * xs.length)

/-- STEP_LIMIT in units of `st`. -/
def State.stepLimit (s : State) : Nat := s.f F.STEP_LIMIT_V * nsU

/-- An offset of STEP_LIMIT or more. -/
def State.bigOffset (s : State) (th : Int) : Bool := decide (s.stepLimit ≤ iabs th)

/-- The servo enters JUMP with the offset in TT_JUMP (R381). -/
def State.jump (s : State) (th : Int) : State :=
  ((s.setWs R.TT_JUMP (offsetWords th)).servoTo 4).ttEvent 0 0x0210 0

/-- RTT_REF takes the mean round trip (R381, R388). -/
def State.takeRef (s : State) : State :=
  let s1 := s.setW R.TT_RTT_REF (s.w R.TT_RTT)
  { s1 with servo := { s1.servo with refSet := true, refCnt := 0, refDev := false, dev := 0 } }

/-- The measurements of a route change are counted from here on (R389). -/
def State.countAnew (s : State) : State := { s with servo := { s.servo with cnt1 := 0, cnt2 := 0 } }

/-- A route change is detected: the servo waits in ROUTE (R388). -/
def State.routeChange (s : State) : State := (s.servoTo 5).ttEvent 1 0x0211 0

/-- The state machine on a valid measurement, its counters already updated (R381). -/
def State.servoStep (s : State) (th : Int) : State :=
  let v := s.servo
  let big := s.bigOffset th
  let fromWait (s : State) : State :=
    if !big then s.servoTo 1
    else if 2 ≤ v.big then s.jump th
    else s.setWs R.TT_JUMP (offsetWords th)
  match s.f F.TT_STAT_STATE with
  | 0 => fromWait s
  | 1 => if 2 ≤ v.big then s.jump th else if 16 ≤ v.under then (s.takeRef.servoTo 2).ttEvent 5 0x0215 0 else s
  | 2 => if 2 ≤ v.big then s.jump th else if 4 ≤ v.above then s.servoTo 1 else s
  | 3 => if s.b F.TT_CTL_FREEZE then s else if v.coastDev then s.routeChange else fromWait s
  | 4 =>
    let s1 := s.setWs R.TT_JUMP (offsetWords th)
    if 16 ≤ v.small then (s1.servoTo 1).ttEvent 6 0x0216 0 else s1
  | 6 => if big then s else s.servoTo 1
  | _ => s

/-- The loop filter on a valid measurement (R380): it acts in TRACK and LOCK; in FSLEW the slew is SLEW_MAX against the offset (R387). -/
def State.loop (s : State) (th : Int) : State :=
  let m := ppm (s.f F.TT_CTL_SLEW_MAX)
  match s.f F.TT_STAT_STATE with
  | 1 =>
    let (f, sl) := Config.servo (s.f F.TIME_CTL_SRC == 1) th s.servo.f (s.f F.TT_CTL_LOG_INTV)
    s.setRate f (limitTo m sl)
  | 2 =>
    let (f, sl) := Config.servo (s.f F.TIME_CTL_SRC == 1) th s.servo.f (s.f F.TT_CTL_LOG_INTV)
    s.setRate f (limitTo m sl)
  | 6 => s.setRate s.servo.f (if 0 < th then -(m : Int) else m)
  | _ => s

/-- ROUTE ends: the reference is taken anew, and the offset left decides (R381). -/
def State.endRoute (s : State) (th : Int) : State :=
  let s1 := (s.setF F.TT_STAT_ROUTE_PEND 0).takeRef
  if s1.bigOffset th then s1.jump th else s1.servoTo 1

/-- The decision of ROUTE, once enough measurements have come (R389). -/
def State.routeDecide (s : State) : State :=
  let v := s.servo
  let ready := 16 ≤ v.cnt1 && (!s.b F.LINK_CFG_SECOND_EN || 16 ≤ v.cnt2)
  if s.f F.TT_STAT_STATE != 5 || s.b F.TT_STAT_ROUTE_PEND || !ready then s
  else
    let d2 := meanPs v.offs2 - meanPs v.ref2
    if s.b F.LINK_CFG_SECOND_EN && v.ref2.length == 16 && v.q2 == 0 && decide (iabs d2 ≤ s.f F.ROUTE_TOL_V) then
      let ch := meanPs v.offs - d2
      let s1 := (s.setW R.TT_ASYM (satW (s.sw R.TT_ASYM + ch))).ttEvent 2 0x0212 (wrap 64 ch)
      s1.endRoute (v.theta.getD 0 - ofPs ch)
    else s.setF F.TT_STAT_ROUTE_PEND 1

/-- The counters of consecutive measurements with a new one (R381). -/
def State.countTheta (s : State) (th : Int) : State :=
  let v := s.servo
  let big := s.bigOffset th
  let thr := s.f F.LOCK_THR_V
  let ps := iabs th * 1000
  { s with servo :=
    { v with
      theta := some th, measAt := some s.cyc, offs := (th :: v.offs).take 16, big := if big then v.big + 1 else 0
      small := if big then 0 else v.small + 1, under := if ps < thr * 65536 then v.under + 1 else 0
      above := if 4 * thr * 65536 < ps then v.above + 1 else 0, cnt1 := v.cnt1 + 1 } }

/-- A valid measurement of the source: the offset of this hub (R376, R377, R380, R381). -/
def State.measure (s : State) (th : Int) : State :=
  let s1 := s.countTheta th
  let s2 := s1.setW R.TT_OFS (satW (meanPs s1.servo.offs))
  (((s2.servoStep th).loop th).routeDecide).showQuality

/-- The round trip of a primary measurement, before it (R388): a route change, or the reference followed. Answers whether a change was found. -/
def State.roundTrip (s : State) (rtt : Int) : State × Bool :=
  let rs := (rtt :: s.servo.rtts).take 16
  let s1 := ({ s with servo := { s.servo with rtts := rs } }).setW R.TT_RTT (satW (meanPs rs))
  let dev := s1.servo.refSet && decide (s1.f F.ROUTE_TOL_V < iabs (toPs rtt - (s1.w R.TT_RTT_REF).toNat))
  let v := s1.servo
  let st := s1.f F.TT_STAT_STATE
  let n := if dev then v.dev + 1 else 0
  let s1c := s1.when (dev && st == 3 && !v.coastDev) State.countAnew
  let s2 := { s1c with servo := { s1c.servo with dev := n, coastDev := v.coastDev || (dev && st == 3) } }
  if (st = 1 ∨ st = 2) ∧ 4 ≤ n then (s2.countAnew.routeChange, true)
  else if st = 2 then
    let c := v.refCnt + 1
    let d := v.refDev || dev
    if 16 ≤ c then (if d then { s2 with servo := { s2.servo with refCnt := 0, refDev := false } } else s2.takeRef, false)
    else ({ s2 with servo := { s2.servo with refCnt := c, refDev := d } }, false)
  else (s2, false)

/-- The source is lost: TRACK, LOCK and FSLEW coast (R381). -/
def State.srcLost (s : State) : State :=
  let st := s.f F.TT_STAT_STATE
  if st = 1 ∨ st = 2 ∨ st = 6 then (s.servoTo 3).ttEvent 3 0x0213 0 else s

/-! ### The step of system time (R384, R385) -/

/-- A course's or a word's instant moved by Δ. -/
def moveT5 (t : Nat) (d : Int) : Nat := ((t : Int) + d * 327680).toNat

/-- The instants held in a channel moved by Δ. -/
def Chan.move (c : Chan) (d : Int) : Chan :=
  let mv (o : Nat × Nat × Int) := (moveT5 o.1 d, o.2)
  { c with
    out := c.out.map mv, out2 := c.out2.map mv, scs := c.scs.map mv
    wins := c.wins.map fun w => { w with since := moveT5 w.since d, until_ := moveT5 w.until_ d } }

/-- The instants held in a path moved by Δ. -/
def Path.move (x : Path) (d : Int) : Path :=
  { x with chans := x.chans.map fun q => (q.1, q.2.move d), due := x.due.map fun c => { c with at_ := moveT5 c.at_ d } }

/-- The boundary course of a running TIME grid: the position of the first course whose instant on the old timeline is at or after the step (R384). -/
def State.boundary (s : State) (g at_ : Nat) : Nat :=
  (s.grid g).base + max (s.grid g).next (ceilDiv (u5 at_ - u5 (s.epoch g)) (s.per5 g))

/-- One TDISC record of a step for a stream, for the boundary course at position `p`: placed at its course in ACQUIRE, kept in the gap reserve
otherwise (R261, R384). -/
def State.stepRecord (s : State) (k p t : Nat) (d : Int) : State :=
  let r := tdiscRec (c48 p) t (moveT t d) (s.f F.TIME_STAT_QUALITY)
  if s.mode != 3 then s.keepRec k r
  else if s.masonWritten k then s.masonAdd k r
  else s.setStr k { s.str k with ins := (s.str k).ins ++ [(p, r)] }

/-- The active streams on a grid. -/
def State.gridSids (s : State) (g : Nat) : List Nat := s.activeSids.filter fun k => s.f (F.SE_CTL_GRID k) == g

/-- The TDISC records of a step for the active streams on a running TIME grid, whose boundary course and its old instant are given. -/
def State.stepRecords (s : State) (g p t : Nat) (d : Int) : State := s.each (s.gridSids g) fun s k => s.stepRecord k p t d

/-- A MACHINE grid's next course is the boundary course of the steps since its last one: its instant is measured at `t` on the new timeline, and the
steps are taken off it again, the last one first (R92, R261, R384). -/
def State.machineSteps (s : State) (p : Nat) : Nat → List (Int × List Nat) → State
  | _, [] => s
  | t, (d, ks) :: r =>
    let t0 := moveT t (-((r.map Prod.fst).sum + d))
    (s.each (ks.filter fun k => s.activeSids.contains k) fun s k => s.stepRecord k p t0 d).machineSteps p t r

/-- Armed SYNCs are dropped at a step (R94). -/
def State.dropSyncs (s : State) : State :=
  let m := ((range' 0 4).filter fun g => s.armed g).map fun g => 2 ^ g
  let s1 := s.each (range' 0 4) fun s g => s.disarm g
  s1.when (m != []) fun s => s.raiseBit R.TIME_EVT 8 0x0209 0 m.sum

/-- The boundary courses of a step of ST: on a TIME grid with its old instant, as grid, position and instant. -/
def State.stepBoundaries (s : State) (at_ : Nat) : List (Nat × Nat × Nat) :=
  ((range' 0 4).filter fun g => s.running g && !s.machine g).map fun g =>
    (g, s.boundary g at_, stForm (s.instant5 g (s.boundary g at_ - (s.grid g).base)))

/-- The grids' epochs and captures move with a step, and a MACHINE grid waits for its boundary course (R94, R384). -/
def State.stepGrids (s : State) (d : Int) : State :=
  s.each ((range' 0 4).filter fun g => s.running g) fun s g =>
    let x := s.grid g
    let ks := if s.machine g then x.steps ++ [(d, s.gridSids g)] else []
    (s.setTime4 (R.GRID_EPOCH g) (moveT (s.epoch g) d)).setGrid g
      { x with cap := x.cap.map fun c => moveT5 c d, at0 := x.at0.map fun t => moveT t d, steps := ks }

/-- System time steps by Δ at an instant of the old timeline (R384, R385). What counts SYS cycles is unaffected. In TRACK the servo stays as it is. -/
def State.stepTime (s : State) (at_ : Nat) (d : Int) : State :=
  let s0 := s.dropSyncs
  let olds := s0.stepBoundaries at_
  let s1 := { s0 with st := moveT (max s0.st at_) d }
  let s2 := s1.stepGrids d
  let s3 := { s2 with paths := s2.paths.map fun (q : Nat × Path) => (q.1, q.2.move d) }
  let s4 := s3.moveSmpl d
  let s5 := { s4 with servo := { s4.servo with stepped := true } }
  let st := s5.f F.TT_STAT_STATE
  let s6 := if st = 2 ∨ st = 3 ∨ st = 4 then s5.servoTo 1 else s5.showQuality
  let s7 := s6.each olds fun s o => s.stepRecords o.1 o.2.1 o.2.2 d
  let s8 := s7.setF F.TT_CNT_STEPS (s7.f F.TT_CNT_STEPS + 1)
  (s8.setTime4 R.TT_STEP_AT at_).ttEvent 4 0x0214 (wrap 64 d)

end Sys2Proof.Machine
end

