-- ==== Sys2Proof/Machine/CsOps.lean ====
section
/-!
DEFINITION. The cornerstone's shared operations (R394 to R411): its parameter and energy slots, the active set, a legally relevant change, the
end of a metering interval with its METER record, and its reset and restoration.
-/

namespace Sys2Proof.Machine

/-- A meter's hidden state. -/
def State.meter (s : State) (j : Nat) : Meter := Tab.get (fun _ => Meter.init) s.meters j

/-- It replaced. -/
def State.setMeter (s : State) (j : Nat) (x : Meter) : State := { s with meters := Tab.set (fun _ => Meter.init) s.meters j x }

/-- VDD_CST is there (R410, R436). -/
def State.csOn (s : State) : Bool := s.b F.PWR_STAT_CST

/-- A cornerstone event (R412). -/
def State.csEvent (s : State) (i code src detail : Nat) : State := s.raiseBit R.CS_EVT i code src detail

/-- The registers of the active set (R413). The stage mirrors them at + 0x400. -/
def csActive : List Nat :=
  R.CSP_IVL :: ((range' 0 32).flatMap fun k => [R.CSI_CH k, R.CSI_OFF k, R.CSI_GAIN k]) ++ (range' 0 16).map R.CSM_CFG

/-- The words of the staged set. -/
def State.staged (s : State) : List Word := csActive.map fun a => s.w (a + 0x400)

/-- The hub with a set in the active registers. -/
def State.takeSet (s : State) (ws : List Word) : State := s.each (csActive.zip ws) fun s x => s.setW x.1 x.2

/-! ### Meters and inputs (R396 to R398) -/

/-- The active inputs. -/
def State.csInputs (s : State) : List Nat := (range' 0 32).filter fun k => s.b (F.CSI_CH_EN k)

/-- The active meters. -/
def State.csMeters (s : State) : List Nat := (range' 0 16).filter fun j => s.b (F.CSM_CFG_EN j)

/-- The inputs a meter names. -/
def State.meterInputs (s : State) (j : Nat) : List Nat :=
  if s.b (F.CSM_CFG_I_EN j) then [s.f (F.CSM_CFG_VIN j), s.f (F.CSM_CFG_IIN j)] else [s.f (F.CSM_CFG_VIN j)]

/-- The tile and the input of a metered input's channel. -/
def State.csPlace (s : State) (k : Nat) : Nat × Nat := (s.f (F.CSI_CH_CH k) / 16, s.f (F.CSI_CH_CH k) % 16)

/-- A meter's divider. -/
def State.mdiv (s : State) (j : Nat) : Nat := s.f (F.CSM_CFG_MDIV j) + 1

/-- VCO cycles of one sample period of a meter (R397). -/
def State.meterVco (s : State) (j : Nat) : Nat := s.sliceVco (s.csPlace (s.f (F.CSM_CFG_VIN j))).1 * s.mdiv j

/-- Whether the set in the active registers keeps the rules of R398. -/
def State.csSetOk (s : State) : Bool :=
  let chs := s.csInputs.map fun k => s.f (F.CSI_CH_CH k)
  let named (j : Nat) : List Nat := (s.meterInputs j).dedup
  let used := s.csMeters.flatMap named
  chs.all (fun c => decide (c ≤ 383)) && decide chs.Nodup && s.csInputs.all (fun k => decide (s.f (F.CSI_CH_PGA k) ≤ 4))
    && used.all (fun k => s.b (F.CSI_CH_EN k)) && decide used.Nodup
    && s.csMeters.all (fun j => (s.meterInputs j).all fun k =>
        let (t, i) := s.csPlace k
        (!s.b (F.CSM_CFG_I_EN j) || !(s.pairEven t i || s.pairOdd t i))
          && s.f (F.TILE_CTL_RDIV t) == s.f (F.TILE_CTL_RDIV (s.csPlace (s.f (F.CSM_CFG_VIN j))).1))
    && s.f F.SMPL_CTL_SRC == 0 && s.csMeters.all (fun j => decide (s.vco ≤ 250000 * s.meterVco j))
    && Frac.le (Frac.sum (s.csMeters.map fun j => ⟨(named j).length * s.vco, s.meterVco j⟩)) ⟨4800000, 1⟩
    && decide (1 ≤ s.f F.CSP_IVL_V) && decide (s.f F.CSP_IVL_V ≤ 3600)

/-- The words that decide what a meter measures, and over which intervals. -/
def State.meterWords (s : State) (j : Nat) : List Word :=
  s.w R.CSP_IVL :: s.w (R.CSM_CFG j) :: (s.meterInputs j).flatMap fun k => [s.w (R.CSI_CH k), s.w (R.CSI_OFF k), s.w (R.CSI_GAIN k)]

/-- A metered channel takes its gain code and its calibration from the cornerstone (R396, R399). -/
def State.meterChan (s : State) (k : Nat) : State :=
  let (t, i) := s.csPlace k
  let o := s.w (R.CSI_OFF k)
  let g := s.w (R.CSI_GAIN k)
  let new := o != s.w (R.CH_OFF_ACT t i) || g != s.w (R.CH_GAIN_ACT t i)
  let s1 := ((s.setF (F.CH_STAT_METERED t i) 1).setW (R.CH_OFF_ACT t i) o).setW (R.CH_GAIN_ACT t i) g
  let s2 := s1.when (new && s1.tileActive t && !bit (s1.tile t).applied i) fun s =>
    s.setTile t { s.tile t with applied := (s.tile t).applied + 2 ^ i }
  s2.setGain t i (s.f (F.CSI_CH_PGA k))

/-- The active set acts on the channels; every other channel is not metered. -/
def State.csInForce (s : State) : State :=
  let s1 := s.each (range' 0 24) fun s t => s.each (range' 0 16) fun s i => s.when (s.metered t i) fun s => s.setF (F.CH_STAT_METERED t i) 0
  s1.each s1.csInputs State.meterChan

/-! ### Slots (R395) -/

/-- The bytes of a slot before its CRC, which is its last word. A parameter slot holds the event counter, the active set, the masons with a digest, 16 digests,
and the selection and the digest of the active firmware copy; an energy slot the save count and 28 bytes for each meter; the rest is zero
(notes/assumptions/105.md). -/
def slotBytes : Nat := 4092

/-- What a slot holds, where its CRC is valid. A slot of which no byte was ever written holds nothing. -/
def State.slotAt (s : State) (a : Nat) : Option (List Byte) :=
  if !s.nvm.any fun c => decide (a ≤ c.1) && decide (c.1 < a + 4096) then none
  else
    let bs := s.nvBytes a slotBytes
    if beNat (s.nvBytes (a + slotBytes) 4) = crc32c bs then some bs else none

/-- The newer of two slots, as the number of the slot and what it holds; `none` where neither is valid. -/
def newest : Option (List Byte) → Option (List Byte) → Option (Bool × List Byte)
  | some a, some b => if beNat (a.take 4) < beNat (b.take 4) then some (true, b) else some (false, a)
  | some a, none => some (false, a)
  | none, some b => some (true, b)
  | none, none => none

/-- The newest valid parameter slot. -/
def State.newestPar (s : State) : Option (Bool × List Byte) := newest (s.slotAt (nvPar false)) (s.slotAt (nvPar true))

/-- The newest valid energy slot. -/
def State.newestEn (s : State) : Option (Bool × List Byte) := newest (s.slotAt (nvEnergy false)) (s.slotAt (nvEnergy true))

/-- The slot that a save writes: the one that does not hold the newest valid copy. -/
def saveSlot : Option (Bool × List Byte) → Bool
  | some (b, _) => !b
  | none => false

/-- A number in a slot, of `n` bytes at offset `k`. -/
def slotNat (bs : List Byte) (k n : Nat) : Nat := beNat ((bs.drop k).take n)

/-- The rows of a slot: its bytes with their CRC. -/
def slotRows (bs : List Byte) : List (List Byte) :=
  let x := bs ++ List.replicate (slotBytes - bs.length) 0
  nvRows 64 (x ++ natBE 4 (crc32c x))

/-- The masons with a LEGAL image, a bit each. -/
def State.legalMask (s : State) : Nat := ((range' 0 16).map fun m => b2n (Tab.get (fun _ => []) s.csDig m != []) * 2 ^ m).sum

/-- A mason's digest in a slot: 32 bytes, zero where it has none. -/
def State.slotDig (s : State) (m : Nat) : List Byte := (Tab.get (fun _ => []) s.csDig m ++ List.replicate 32 0).take 32

/-- What a parameter slot holds of the hub, before its CRC. -/
def State.parBytes (s : State) : List Byte :=
  let b := s.b F.CS_STAT_FW_COPY
  wordsToBytes (s.w R.CS_EVCNT :: csActive.map s.w) ++ natBE 4 s.legalMask ++ ((range' 0 16).map s.slotDig).flatten ++ natBE 4 (b2n b)
    ++ sha256 (s.nvBytes (nvFw b) 0x30000)

/-- A meter's part of an energy slot: IMP, EXP, their remainders and the next record's number. -/
def State.slotMeter (s : State) (j : Nat) : List Byte :=
  let x := s.meter j
  natBE 8 (s.two (R.CSM_IMP j)) ++ natBE 8 (s.two (R.CSM_EXP j)) ++ natBE 4 x.rimp ++ natBE 4 x.rexp ++ natBE 4 x.next

/-- What an energy slot holds of the hub, before its CRC: the count of the save first. -/
def State.enBytes (s : State) : List Byte :=
  let n := match s.newestEn with
    | some x => slotNat x.2 0 4 + 1
    | none => 1
  natBE 4 n ++ ((range' 0 16).map s.slotMeter).flatten

/-- A save of the energy slot: a batch of its own, which waits for one in progress, and is skipped where the hold-up check fails (R401, R410, R444). -/
def State.trySaveEn (s : State) (j v : Nat) : State :=
  if s.nvBusy then { s with enDue := some j }
  else
    let (s1, ok) := s.nvCheck 4 64 v
    if ok then s1.begin 6 (nvEnergy (saveSlot s1.newestEn)) (slotRows s1.enBytes) else s1.csEvent 6 0x0B07 j 0

/-! ### Legally relevant changes (R407) -/

/-- A change is refused and the refusal logged. -/
def State.csRefuse (s : State) (src : Nat) (c : Status) : State := s.csEvent 3 0x0B04 src c.code

/-- No change is accepted: the partition is sealed, or the event counter stands at its end. -/
def State.csBlocked (s : State) : Bool := s.b F.CS_STAT_SEALED || s.w R.CS_EVCNT == 0xFFFFFFFF

/-- A mason holds a LEGAL image (R407). -/
def State.holdsLegal (s : State) (m : Nat) : Bool := Tab.get (fun _ => []) s.csDig m != []

/-- The digest of an image, or none, noted for masons (R407, R409). -/
def State.noteDig (s : State) (ms : List Nat) (d : List Byte) : State :=
  let s1 := { s with csDig := ms.foldl (fun t m => Tab.set (fun _ => []) t m d) s.csDig }
  s1.setF F.CS_LEGAL_V s1.legalMask

/-- A change is accepted (R407): it is counted, and the parameter slot that it leads to, that of `next`, begins to be saved. The change waits. -/
def State.csAccept (s next : State) (p : CsPend) : State :=
  let n := s.w R.CS_EVCNT + 1
  { (s.setW R.CS_EVCNT n).begin 5 (nvPar (saveSlot s.newestPar)) (slotRows (next.setW R.CS_EVCNT n).parBytes) with csPend := some p }

/-- A legally relevant change: refused, or counted and saved (R407). A cornerstone that an error has stopped keeps its MRAM unchanged (R411; DESIGN CHOICE
of BUSY, notes/assumptions/105.md). The last part is none where the change waits for its save. -/
def State.csChange (s : State) (v : Nat) (next : State → State) (p : CsPend) : State × Option Status :=
  if s.csBlocked then (s.csRefuse 0 .locked, some .locked)
  else if s.csStop then (s.csRefuse 0 .busy, some .busy)
  else
    let (s1, ok) := s.nvCheck 3 64 v
    if !ok then (s1.csRefuse 0 .nvEnergy, some .nvEnergy) else (s1.csAccept (next s1) p, none)

/-- A change has come into force: the identity is computed anew, and the change logged with the new count (R407, R409). -/
def State.csChanged (s : State) : State := (s.setF F.CS_STAT_ID_BUSY 1).csEvent 2 0x0B03 0 (s.w R.CS_EVCNT).toNat

/-- The cornerstone's own clock runs: while VDD_AON is there, outside DORMANT, and while no scan chain is connected; RST_N does not stop it
(R410, R437, R476). -/
def State.csRuns (s : State) : Bool := s.aon && !s.scan && s.mode != 0

/-! ### Intervals and METER records (R401 to R405) -/

/-- A 64-bit two's complement number as two words, high word first. -/
def two64 (i : Int) : List Word := [BitVec.ofNat 32 (wrap 64 i / 2 ^ 32), BitVec.ofNat 32 (wrap 64 i)]

/-- An instant as seconds [31:0] and nanoseconds. -/
def secNs (t : Nat) : List Word := [BitVec.ofNat 32 (t / secU), BitVec.ofNat 32 (t % secU / nsU)]

/-- Words 0 to 23 of a METER record, with word 1 zero (R403). -/
def State.meterHead (s : State) (j : Nat) (end_ : Nat) (short : Bool) : List Word :=
  let x := s.meter j
  let hd := recHdr 8 27 (j * 4096 + b2n x.restored * 2048 + b2n x.sealed * 1024 + b2n (!s.b (F.CSM_CFG_I_EN j)) * 512 + b2n short * 256)
  [hd, 0, BitVec.ofNat 32 x.next, s.w R.CS_EVCNT] ++ secNs (x.start.getD end_) ++ secNs end_
    ++ [BitVec.ofNat 32 x.n, BitVec.ofNat 32 (x.clips * 65536 + b2n x.failed * 8 + b2n x.missing * 4 + x.q)]
    ++ two64 x.sv ++ two64 x.svv ++ two64 x.si ++ two64 x.sii ++ two64 x.sp
    ++ [s.w (R.CSM_IMP_H j), s.w (R.CSM_IMP j), s.w (R.CSM_EXP_H j), s.w (R.CSM_EXP j)]

/-- TAG: the leftmost 128 bits of the keyed hash over CS_UID and words 0 to 23 (R404). -/
def meterTag (ws : List Word) : List Word :=
  bytesToWords ((hmac256 Config.csKey (natBE 8 Config.uid.toNat ++ wordsToBytes ws)).take 16)

/-- ΣP joins the cumulative registers; the whole units of a remainder move on (R401). -/
def State.addEnergy (s : State) (j : Nat) : State :=
  let x := s.meter j
  let i := x.rimp + x.sp.toNat
  let e := x.rexp + (-x.sp).toNat
  let two (s : State) (a n : Nat) : State := (s.setW a (BitVec.ofNat 32 n)).setW (a + 4) (BitVec.ofNat 32 (n / 2 ^ 32))
  let s1 := two s (R.CSM_IMP j) (s.two (R.CSM_IMP j) + i / 65536)
  let s2 := two s1 (R.CSM_EXP j) (s1.two (R.CSM_EXP j) + e / 65536)
  s2.setMeter j { x with rimp := i % 65536, rexp := e % 65536 }

/-- A meter's interval ends at an instant (R401 to R405, R410): the next begins there where the meter goes on. `v` is VHOLD as measured for the
save of the energy slot. -/
def State.endInterval (s : State) (j end_ : Nat) (short more : Bool) (v : Nat) : State :=
  let s1 := s.addEnergy j
  let hd := s1.meterHead j end_ short
  let x := s1.meter j
  let full := decide (8 ≤ x.buf.length)
  let x1 :=
    { Meter.init with
      start := if more then some end_ else none, sealed := s1.b F.CS_STAT_SEALED, next := (x.next + 1) % 2 ^ 32, rimp := x.rimp, rexp := x.rexp
      buf := if full then x.buf else x.buf ++ [hd ++ meterTag hd], q := if more then s1.f F.TIME_STAT_QUALITY else 0 }
  let s2 := (s1.setMeter j x1).setW (R.CSM_MSEQ j) (BitVec.ofNat 32 x.next)
  let s3 := s2.when full fun s => (s.bumpW (R.CSM_DROP j) 1).csEvent 4 0x0B05 j 0
  s3.trySaveEn j v

/-- CSP_IVL in units of `st`. -/
def State.interval (s : State) : Nat := max 1 (s.f F.CSP_IVL_V) * secU

/-- The first instant after `a` at which the ST seconds count becomes a multiple of CSP_IVL (R402). -/
def State.boundaryAfter (s : State) (a : Nat) : Nat := (a / s.interval + 1) * s.interval

/-- The intervals of a meter that have ended by an instant, at every boundary that it has passed (R402); each save measures VHOLD. -/
def State.closePassed (j t : Nat) : Nat → State → State
  | 0, s => s
  | n + 1, s => match (s.meter j).start with
    | none => s
    | some a =>
      if t < s.boundaryAfter a then s
      else let (s1, v) := s.draw 16; State.closePassed j t n (s1.endInterval j (s.boundaryAfter a) false true v)

/-- The same, for as many intervals as there can be. -/
def State.closeUpTo (s : State) (j t : Nat) : State := State.closePassed j t (t / s.interval - ((s.meter j).start.getD t) / s.interval) s

/-- The meters that sample. -/
def State.metering (s : State) : List Nat := (range' 0 16).filter fun j => (s.meter j).start.isSome

/-- Every interval in progress ends early at the present instant, as the tiles stop (R402); no VHOLD reading is given, so each save draws one. -/
def State.endMeters (s : State) : State :=
  s.each s.metering fun s j =>
    let (s1, v) := s.draw 16
    s1.endInterval j s1.st true false v

/-- A set comes into force; with `clear`, the cumulative registers restart (R408). Meters that it changes end their intervals early,
with `v` for their saves (R402). -/
def State.csApply (s : State) (ws : List Word) (clear : Bool) (v : Nat) : State :=
  let t := s.takeSet ws
  let changed := (range' 0 16).filter fun j => clear || s.meterWords j != t.meterWords j
  let s1 := s.each (changed.filter fun j => (s.meter j).start.isSome) fun s j => s.endInterval j s.st true false v
  let s2 := (s1.takeSet ws).csInForce
  s2.when clear fun s => s.each (range' 0 16) fun s j =>
    let s1 := ([R.CSM_IMP j, R.CSM_IMP_H j, R.CSM_EXP j, R.CSM_EXP_H j]).foldl (fun s a => s.setW a 0) s
    s1.setMeter j { s1.meter j with rimp := 0, rexp := 0 }

/-- A load of ST ends the intervals in progress early, as a step does, and the next ones start at the instant loaded (R82, R402; DESIGN CHOICE,
notes/assumptions/120.md). -/
def State.meterLoad (s : State) (t : Nat) : State :=
  s.each s.metering fun s j =>
    let (s1, v) := s.draw 16
    let s2 := s1.endInterval j s1.st true true v
    s2.setMeter j { s2.meter j with start := some t }

/-! ### Reset and restoration (R395, R410) -/

/-- The registers of the CORNERSTONE window. -/
def inCs (a : Nat) : Bool := decide (0xB0000 ≤ a) && decide (a < 0xC0000)

/-- The digests of LEGAL images in a parameter slot. -/
def slotDigs (bs : List Byte) : Tab (List Byte) :=
  let mask := slotNat bs 456 4
  (range' 0 16).foldl (fun m k => if bit mask k then Tab.set (fun _ => []) m k ((bs.drop (460 + 32 * k)).take 32) else m) []

/-- The event counter reads what was saved last, and the masons with a LEGAL image stay protected, whether or not the cornerstone runs (R395, R407). -/
def State.evSaved (s : State) : State := match s.newestPar with
  | some (_, bs) => { s.setW R.CS_EVCNT (BitVec.ofNat 32 (slotNat bs 0 4)) with csDig := slotDigs bs }
  | none => s

/-- The cornerstone's secrets as it has them at a start: its key (R404, R476). -/
def State.csSecrets (s : State) : State := { s with secret := Config.csKey }

/-- The cornerstone is reset: its registers and its volatile state, but for the seal, which is a level at a ball, the event counter and the protection of
LEGAL images (R395, R407, R410). -/
def State.csClear (s : State) : State :=
  let sl := s.f F.CS_STAT_SEALED
  let s1 := { s with regs := s.regs.filter fun x => !inCs x.1, csStop := false, meters := [], csPend := none, csWait := false, enDue := none, secret := [] }
  ((s1.setF F.CS_STAT_SEALED sl).csInForce).evSaved

/-- What a parameter slot holds comes back (R395). -/
def State.takePar (s : State) (bs : List Byte) : State :=
  let s1 := s.setW R.CS_EVCNT (BitVec.ofNat 32 (slotNat bs 0 4))
  let s2 := s1.takeSet ((range' 0 csActive.length).map fun k => BitVec.ofNat 32 (slotNat bs (4 + 4 * k) 4))
  { ((s2.setF F.CS_LEGAL_V (slotNat bs 456 4)).setF F.CS_STAT_FW_COPY (slotNat bs 972 4)) with csDig := slotDigs bs }

/-- What an energy slot holds comes back for a meter (R395). -/
def State.takeEn (s : State) (bs : List Byte) (j : Nat) : State :=
  let k := 4 + 28 * j
  let w (s : State) (a n : Nat) : State := (s.setW a (BitVec.ofNat 32 n)).setW (a + 4) (BitVec.ofNat 32 (n / 2 ^ 32))
  let n := slotNat bs (k + 24) 4
  let s1 := (w (w s (R.CSM_IMP j) (slotNat bs k 8)) (R.CSM_EXP j) (slotNat bs (k + 8) 8)).setW (R.CSM_MSEQ j) (BitVec.ofNat 32 (n - 1))
  s1.setMeter j { s1.meter j with rimp := slotNat bs (k + 16) 4, rexp := slotNat bs (k + 20) 4, next := n }

/-- The cornerstone restores its state from the newest valid slots and computes its identity anew (R395, R410). -/
def State.csRestore (s : State) : State :=
  let s1 := match s.newestPar with
    | none => s
    | some (_, bs) => s.takePar bs
  let s2 := match s.newestEn with
    | none => s1
    | some (_, bs) => s1.each (range' 0 16) fun s j => s.takeEn bs j
  let s3 := { s2.csSecrets.csInForce.setF F.CS_STAT_ID_BUSY 1 with csWait := false }
  if s.newestPar.isSome || s.newestEn.isSome then
    let s4 := s3.each (range' 0 16) fun s j => s.setMeter j { s.meter j with restored := true }
    (s4.setF F.CS_STAT_RESTORED 1).csEvent 5 0x0B06 0 0
  else s3

/-! ### Saves that end, and a clock that starts again (R395, R407, R410) -/

/-- A change comes into force as its slot is saved (R407); an image's, here, in the digests that the slot holds. -/
def State.csTake (s : State) : CsPend → State
  | .set ws clear vh => s.csApply ws clear vh
  | .firmware b => s.setF F.CS_STAT_FW_COPY (b2n b)
  | .image _ _ _ => match s.newestPar with
    | some (_, bs) => { s.setF F.CS_LEGAL_V (slotNat bs 456 4) with csDig := slotDigs bs }
    | none => s

/-- A change whose slot is saved, but whose command has ended: at a reset, or while the cornerstone's clock stood still (R407, R410). -/
def State.csLate (s : State) : State := match s.csPend with
  | some p => (({ s with csPend := none } : State).csTake p).csChanged
  | none => s

/-- A save of the energy slot that has waited for the batch begins; VHOLD is drawn (R401, R444). -/
def State.nextSave (s : State) : State :=
  match s.enDue with
  | some j =>
    if s.nvBusy || !s.csRuns then s
    else
      let s1 : State := { s with enDue := none }
      if s.csOn && !s.csStop then let (s2, v) := s1.draw 16; s2.trySaveEn j v else s1
  | none => s

/-- The cornerstone's clock starts again (R410): it restores its state where its supply came back meanwhile; else what waited for the clock goes on: a change
whose slot has been saved, and a save of the energies (DESIGN CHOICE, notes/assumptions/120.md). -/
def State.csWake (s : State) : State :=
  if s.csWait then s.csRestore
  else
    let saving := match s.nv with
      | some b => b.writer == 5
      | none => false
    (if saving then s else s.csLate).nextSave

end Sys2Proof.Machine
end

