-- ==== Sys2Proof/Machine/Time.lean ====
section
/-!
DEFINITION. The commands of system time, the course grids, the sampling clock, the root's inputs and the calendar clock (R77 to R110, R503).
-/

namespace Sys2Proof.Machine

/-- The SYS domain runs: in every mode but DORMANT (R84, R454). -/
def State.sysOn (s : State) : Bool := s.mode != 0

/-- Every grid is STOPPED. -/
def State.gridsStopped (s : State) : Bool := (range' 0 4).all fun g => s.gstate g == 0

/-- Every tile is in SLEEP or STOPPED (R96). -/
def State.tilesQuiet (s : State) : Bool := (range' 0 24).all fun t => s.f (F.TILE_STAT_PSTATE t) == 0 || s.f (F.TILE_STAT_PSTATE t) == 3

/-! ### Loading system time -/

/-- ST_LOAD: a write of ST_LOAD (R82). What only counts SYS cycles goes on counting them (R198, R199, R246); so do the second since the last accepted
PPS_IN edge and the 1.1 s without one (DESIGN CHOICE, notes/assumptions/119.md). -/
def execStLoad (r : Req) (v : Word) (s : State) : Host.Outcome State Fault Refusal :=
  act (regWrite r R.ST_LOAD noLock fun s =>
    if !wbit v 0 then s.fin .ok
    else if s.mode != 1 && s.mode != 2 then s.fin .mode
    else if !s.gridsStopped then s.fin .busy
    else
      let t := s.time4 R.ST_SET
      let s1 := (s.meterLoad t).moveSmpl ((t : Int) - s.st)
      (({ s1 with st := t, pps := { s1.pps with mark := none } }).servoReset).fin .ok) s

/-! ### Grids -/

/-- GRID_PER_WRITE: a write of GRID_PER_NS, or of GRID_PER_FRAC where `frac` (R14, R15, R87). -/
def execGridPerWrite (r : Req) (g : Fin 4) (frac : Bool) (v : Word) (s : State) : Host.Outcome State Fault Refusal :=
  act (fun s =>
    let g := g.val
    let a := if frac then R.GRID_PER_FRAC g else R.GRID_PER_NS g
    regWrite r a noLock (fun s =>
      let s1 := s.setW a v
      if s.gstate g != 0 then s.fin .busy
      else if s1.per g < 25 * 2 ^ 31 then s.fin .unsupported
      else if !s1.periodFits g then s.fin .unsupported
      else s1.fin .ok) s) s

/-- A write of GRID_CTL (R87, R88, R91). -/
def State.gridCtl (s : State) (g : Nat) (v : Word) : State :=
  let n := v.toNat
  let typ := b2n (bit n 0)
  let cdiv := bits n 27 16
  let change := typ != s.f (F.GRID_CTL_TYPE g) || cdiv != s.f (F.GRID_CTL_CDIV g)
  if cdiv = 0 then s.fin .unsupported
  else if change && s.gstate g != 0 then s.fin .busy
  else if bit n 1 && s.gstate g != 0 && s.gridUsed g then s.fin .busy
  else
    let s1 := (s.setF (F.GRID_CTL_TYPE g) typ).setF (F.GRID_CTL_CDIV g) cdiv
    (s1.when (bit n 1) fun s => s.stopGrid g).fin .ok

/-- GRID_CTL_WRITE: a write of GRID_CTL (R87, R88, R91). -/
def execGridCtlWrite (r : Req) (g : Fin 4) (v : Word) (s : State) : Host.Outcome State Fault Refusal :=
  act (regWrite r (R.GRID_CTL g.val) noLock fun s => s.gridCtl g.val v) s

/-- GRID_STOP: a write of GRID_CTL with STOP = 1 (R88, R91). -/
def execGridStop (r : Req) (g : Fin 4) (v : Word) (s : State) : Host.Outcome State Fault Refusal :=
  act (regWrite r (R.GRID_CTL g.val) noLock fun s => s.gridCtl g.val (v ||| 2)) s

/-- The grids that a mask names. -/
def maskGrids (m : BitVec 4) : List Nat := (range' 0 4).filter fun g => bit m.toNat g

/-- A grid takes a SYNC instant (R88, R89). -/
def State.armGrid (s : State) (g t : Nat) : State :=
  let s1 := s.setGrid g { s.grid g with sync := some t }
  if s.armed g then s1 else s1.setF (F.GRID_STAT_STATE g) (s.gstate g + 1)

/-- A MACHINE grid is named while SMPL is not locked to MCLK (R89). -/
def State.machineUnlocked (s : State) (gs : List Nat) : Bool :=
  (gs.any fun g => s.machine g) && !(s.b F.SMPL_CTL_SRC && s.b F.MCLK_STAT_LOCK)

/-- A SYNC command with its instant arms the named grids (R89). -/
def State.armGrids (s : State) (gs : List Nat) (t : Nat) : State :=
  if !s.live then s.fin .mode
  else if t < s.st + 100000 * nsU || s.machineUnlocked gs then s.fin .unsupported
  else (s.each gs fun s g => s.armGrid g t).fin .ok

/-- GRID_SYNC_AT: GRID_SYNC_CMD with MODE AT (R77, R89, R108). -/
def execGridSyncAt (r : Req) (m : BitVec 4) (s : State) : Host.Outcome State Fault Refusal :=
  act (regWrite r R.GRID_SYNC_CMD noLock fun s =>
    s.armGrids (maskGrids m) (s.two R.GRID_SYNC_SEC % 2 ^ 48 * secU + (s.w R.GRID_SYNC_NS).toNat * nsU)) s

/-- GRID_SYNC_NEXT_SEC: GRID_SYNC_CMD with MODE NEXT_SEC (R89). -/
def execGridSyncNextSec (r : Req) (m : BitVec 4) (s : State) : Host.Outcome State Fault Refusal :=
  act (regWrite r R.GRID_SYNC_CMD noLock fun s => s.armGrids (maskGrids m) (ceilDiv (s.st + 100000 * nsU) secU * secU)) s

/-- GRID_SYNC_CANCEL: GRID_SYNC_CMD with MODE CANCEL (R88, R89). -/
def execGridSyncCancel (r : Req) (m : BitVec 4) (s : State) : Host.Outcome State Fault Refusal :=
  act (regWrite r R.GRID_SYNC_CMD noLock fun s =>
    if !s.live then s.fin .mode else (s.each (maskGrids m) fun s g => s.disarm g).fin .ok) s

/-- The new numbering of a grid: its course 0 has a position beyond every course of the old one (R88, R90); until it falls, the latest course is the
last of the old one, where the grid was running. -/
def Grid.renumber (x : Grid) (run : Bool) (edge : Nat) (at0 : Option Nat) : Grid :=
  { Grid.init with
    anew := (x.restarts x.newBase 0).anew, at0 := at0, prev := if run && 0 < x.next then x.next - 1 else if run then x.prev else Grid.init.prev
    edge0 := edge, base := x.newBase, quals := x.quals, steps := x.steps }

/-- Every MACHINE grid that takes one SYNC instant takes course 0 on one SMPL edge (R89). -/
def State.sameEdge (s : State) (g t edge : Nat) : Bool :=
  match s.machine g, s.smpl.sync with
  | true, some (t0, e) => t0 != t || e == edge
  | _, _ => true

/-- The SYNC that the MACHINE grids of one command share, with its SMPL edge (R89). -/
def State.noteSync (s : State) (t edge : Nat) : State := { s with smpl := { s.smpl with sync := some (t, edge) } }

/-- GRID_SYNC_INSTANT: ST reaches an armed SYNC instant; in a MACHINE grid course 0 falls on SMPL edge `edge` (R88 to R90, R92, R130, R159, R169). -/
def execGridSyncInstant (g : Fin 4) (edge : Nat) (s : State) : Host.Outcome State Fault Refusal :=
  act (fun s =>
    let g := g.val
    match s.armed g, (s.grid g).sync with
    | true, some t =>
      if !s.sameEdge g t edge then s
      else
        let m := s.machine g
        let s0 := ((s.reach t).each (s.gridPaths g) fun s q => s.restartPath q.1 q.2 1).syncGroups g
        let s1 := ((s0.setF (F.GRID_STAT_STATE g) 2).setF (F.GRID_STAT_WRAPS g) 0).setGrid g
          ((s0.grid g).renumber (s.running g) edge (if m then some t else none))
        let s2 := s1.when m fun s => s.noteSync t edge
        (s2.when (!m) fun s => s.setTime4 (R.GRID_EPOCH g) t).syncBreaks g
    | _, _ => s) s

/-- The capture of a course whose number is a multiple of 65,536, and the drift check of a MACHINE grid (R95, R97). -/
def State.mstamp (s : State) (g n at_ : Nat) : State :=
  let s1 := (s.setTime4 (R.GRID_MSTAMP g) (stForm at_)).setTwo (R.GRID_MSTAMP_C g) n
  let x := s1.grid g
  let nominal := 65536 * s1.per5 g
  let off := match x.cap with
    | some c => decide (100 * nominal < 1000000 * iabs ((at_ : Int) - c - nominal))
    | none => x.drift
  let s2 := s1.setGrid g { x with cap := some at_, drift := s1.machine g && off }
  s2.when (s1.machine g && off && !x.drift) fun s => s.raiseBit R.TIME_EVT 6 0x0207 0 g

/-- A course number that would pass 2^48 − 1 wraps (R93); the courses' positions and edges go on. -/
def State.wrapCourse (s : State) (g : Nat) : State :=
  let x := s.grid g
  let s1 := (s.bump (F.GRID_STAT_WRAPS g) 1).setGrid g
    { x with next := 0, prev := 2 ^ 48 - 1, base := x.base + 2 ^ 48, edge0 := x.edge0 + s.f (F.GRID_CTL_CDIV g) * 2 ^ 48 }
  let s2 := s1.when (!s1.machine g) fun s => s.setTime4 (R.GRID_EPOCH g) ((s.epoch g + s.per g * 2 ^ 32) % stMod)
  s2.raiseBit R.TIME_EVT 7 0x0208 0 g

/-- The SMPL edge of a MACHINE grid's next course: CDIV edges after the one before (R92). -/
def Grid.nextEdge (x : Grid) (cdiv : Nat) : Nat := x.edge0 + cdiv * x.next

/-- The next course of a grid is counted, with the time quality of the grid's courses from it on (R85). -/
def Grid.count (x : Grid) (q : Nat) : Grid :=
  let same := match x.quals with
    | (_, q0) :: _ => q0 == q
    | [] => false
  { x with next := x.next + 1, at0 := none, quals := if same then x.quals else (x.base + x.next, q) :: x.quals, steps := [] }

/-- A course comes to the paths of its grid on the tiles that convert. -/
def State.dueCourse (s : State) (g : Nat) (d : Due) : State :=
  s.each ((s.gridPaths g).filter fun q => s.tileActive q.1 && !s.pathIdle q.1 q.2) fun s q =>
    s.setPath (8 * q.1 + q.2) { s.path (8 * q.1 + q.2) with due := (s.path (8 * q.1 + q.2)).due ++ [d] }

/-- A grid's next course falls at `at_`, in units of 1/(5 · 2^32) ns, on SMPL edge `edge` (R86, R92, R95, R261). -/
def State.courseFalls (s : State) (g at_ edge : Nat) : State :=
  let x := s.grid g
  let n := x.next
  let q := s.f F.TIME_STAT_QUALITY
  let s0 := (s.reach (stForm at_)).when (s.machine g) fun s => s.anchorSmpl edge at_
  let s1 := (s0.setGrid g (x.count q)).machineSteps (x.base + n) (stForm at_) x.steps
  let s2 := s1.when (s1.machine g && n == 0) fun s => s.setTime4 (R.GRID_EPOCH g) (stForm at_)
  let s3 := (s2.setTwo (R.GRID_COURSE g) n).when (n % 65536 == 0) fun s => s.mstamp g n at_
  s3.dueCourse g { p := x.base + n, at_ := at_, edge := edge, tail := 0, tailWhy := 0, q := q }

/-- Course 0 of a MACHINE grid falls at or after the SYNC instant and within a SMPL period of it, locked or in holdover: on the first edge (R92, R98). -/
def State.firstEdge (s : State) (x : Grid) (at_ : Int) : Bool :=
  match x.at0 with
  | some t => decide ((u5 t : Int) ≤ at_) && decide (at_ < u5 t + s.widestSmpl)
  | none => true

/-- COURSE_INSTANT: ST reaches the instant of a grid's next course. A TIME grid's instant is computed; a MACHINE grid's course falls on its SMPL edge
and on no other, while SMPL runs, and the hub measures where the divided VCO puts the edge, `tau`, in units of 1/(5 · 2^32) ns
(R86, R88, R90, R92, R93, R97, R503). -/
def execCourseInstant (g : Fin 4) (edge tau : Nat) (s : State) : Host.Outcome State Fault Refusal :=
  act (fun s =>
    let g := g.val
    let s0 := s.when (decide (2 ^ 48 ≤ (s.grid g).next)) fun s => s.wrapCourse g
    let x := s0.grid g
    let at_ := if s0.machine g then (s0.edgeTime edge tau).toNat else s0.instant5 g x.next
    let late := match x.sync with
      | some t => s.armed g && decide (u5 t ≤ at_)
      | none => false
    let here := !s0.machine g || (s0.smplRuns && edge == x.nextEdge (s0.f (F.GRID_CTL_CDIV g)) && s0.firstEdge x at_)
    if !s.running g || late || !here then s else s0.courseFalls g at_ edge) s

/-! ### The sampling clock -/

/-- Whether f_MCLK × MMUL lies within 4,900 MHz to 5,100 MHz, by a frequency in units of 10 Hz (R503). -/
def State.productOk (s : State) (freq : Nat) : Bool :=
  let p := freq * s.f F.MCLK_CTL_MMUL
  decide (490000000 ≤ p) && decide (p ≤ 510000000)

/-- Every path that a stream entry or an enabled detector names fits a clock source (R115). -/
def State.sourceOk (s : State) (mclk : Bool) : Bool :=
  (range' 0 24).all fun t => (range' 0 8).all fun p => !s.pathNamed t p || s.machine (s.f (F.FP_CTL_GRID t p)) == mclk

/-- A write of SMPL_CTL (R96, R115, R503). A value of SMPL_PHASE beyond the new 64 × VDIV − 1 stays and counts modulo 64 × VDIV (DESIGN CHOICE,
notes/assumptions/115.md). -/
def State.smplCtl (s : State) (v : Word) : State :=
  let vdiv := bits v.toNat 12 0
  let src := wbit v 16
  let change := src != s.b F.SMPL_CTL_SRC
  if !s.tilesQuiet then s.fin .busy
  else if vdiv < 125 ∨ 5000 < vdiv then s.fin .unsupported
  else if !s.sourceOk src then s.fin .unsupported
  else
    let s1 := (s.setF F.SMPL_CTL_VDIV vdiv).setF F.SMPL_CTL_SRC (b2n src)
    let s2 := s1.when change fun s =>
      ((s.setF F.MCLK_STAT_LOCK 0).setF F.MCLK_STAT_HOLDOVER 0).setF F.TIME_STAT_SMPL_LOCK (b2n (!src))
    s2.smplLock.rateChecks.fin .ok

/-- The VCO locks to MCLK after a RELOCK: the phase is placed at SMPL_PHASE again, and the paths on the MACHINE grids restart as after a SYNC, with
their numbering and their edges kept; the tiles' rates are checked (R38, R98, R130). -/
def State.relock (s : State) : State :=
  let s0 := s.smplNow
  let s1 := ((s0.setF F.MCLK_STAT_HOLDOVER 0).setF F.MCLK_STAT_LOCK 1).setF F.TIME_STAT_SMPL_LOCK 1
  let s2 := ({ s1 with smpl := { s1.smpl with disp := s1.f F.SMPL_PHASE_STEPS } } : State).rateChecks
  let gs := (range' 0 4).filter fun g => s2.running g && s2.machine g
  let s3 := s2.each gs fun s g =>
    (s.each (s.gridPaths g) fun s q => s.restartPath q.1 q.2 5).setGrid g ((s.grid g).restarts (s.grid g).nextPos 5)
  s3.raiseBit R.TIME_EVT 5 0x0206 0 0

/-- A write of MCLK_CTL (R96, R98, R503). A new MMUL unlocks the VCO, which then acquires lock by itself; in holdover it goes on holding, until a
RELOCK. -/
def State.mclkCtl (s : State) (v : Word) : State :=
  let m := bits v.toNat 28 16
  let change := m != s.f F.MCLK_CTL_MMUL
  if m < 50 ∨ 5000 < m then s.fin .unsupported
  else if change && !s.tilesQuiet then s.fin .busy
  else if wbit v 0 && s.b F.MCLK_STAT_LOS then s.fin .busy
  else
    let s1 := s.setF F.MCLK_CTL_MMUL m
    let s2 := s1.when (change && s1.b F.SMPL_CTL_SRC && !s1.b F.MCLK_STAT_HOLDOVER) fun s =>
      ((s.setF F.MCLK_STAT_LOCK 0).setF F.TIME_STAT_SMPL_LOCK 0).rateChecks
    let go := wbit v 0 && s2.b F.SMPL_CTL_SRC && s2.b F.MCLK_STAT_HOLDOVER && s2.productOk (s2.f F.MCLK_STAT_FREQ)
    (s2.when go State.relock).fin .ok

/-- SMPL_CTL_WRITE: a write of SMPL_CTL, or of MCLK_CTL where `mclk` (R96, R115, R399, R503). -/
def execSmplCtlWrite (r : Req) (mclk : Bool) (v : Word) (s : State) : Host.Outcome State Fault Refusal :=
  act (fun s =>
    if mclk then regWrite r R.MCLK_CTL noLock (fun s => s.mclkCtl v) s
    else regWrite r R.SMPL_CTL (fun s => s.anyMetered) (fun s => s.smplCtl v) s) s

/-- SMPL_PHASE_WRITE: a write of SMPL_PHASE (R97): from the next SMPL edge on, the interpolator moves towards the new value. -/
def execSmplPhaseWrite (r : Req) (v : Word) (s : State) : Host.Outcome State Fault Refusal :=
  act (regWrite r R.SMPL_PHASE noLock fun s =>
    let n := bits v.toNat 18 0
    if n < s.phaseMod then (s.smplNow.setF F.SMPL_PHASE_STEPS n).fin .ok else s.fin .unsupported) s

/-- MCLK_LOCK_ACQUIRED: the VCO acquires lock to MCLK at a measured frequency in units of 10 Hz (R503). -/
def execMclkLockAcquired (freq : BitVec 24) (s : State) : Host.Outcome State Fault Refusal :=
  act (fun s =>
    let idle := s.b F.SMPL_CTL_SRC && !s.b F.MCLK_STAT_LOCK && !s.b F.MCLK_STAT_HOLDOVER && !s.b F.MCLK_STAT_LOS
    if s.sysOn && idle && s.productOk freq.toNat then
      (((s.setF F.MCLK_STAT_FREQ freq.toNat).setF F.MCLK_STAT_LOCK 1).setF F.TIME_STAT_SMPL_LOCK 1).smplLock.rateChecks
    else s) s

/-- MCLK_RELOCK: a write of MCLK_CTL with RELOCK = 1 (R98). -/
def execMclkRelock (r : Req) (v : Word) (s : State) : Host.Outcome State Fault Refusal :=
  act (regWrite r R.MCLK_CTL noLock fun s => s.mclkCtl (v ||| 1)) s

/-- MCLK_LOSS: LOS sets, or the product leaves its range at a measured frequency; the VCO holds the frequency that it had (R98, R503). -/
def execMclkLoss (los : Bool) (freq : BitVec 24) (s : State) : Host.Outcome State Fault Refusal :=
  act (fun s =>
    if !s.sysOn then s
    else
      let s0 := s.when (s.b F.MCLK_STAT_LOCK) State.smplHold
      let s1 := if los then s0.setF F.MCLK_STAT_LOS 1 else s0.setF F.MCLK_STAT_FREQ freq.toNat
      if s1.b F.MCLK_STAT_LOCK && (los || !s1.productOk freq.toNat) then
        (((s1.setF F.MCLK_STAT_HOLDOVER 1).setF F.MCLK_STAT_LOCK 0).setF F.TIME_STAT_SMPL_LOCK 0).raiseBit R.TIME_EVT 4 0x0205 0 0
      else s1) s

/-- MCLK_RETURN: MCLK edges have arrived for 100 µs without a gap, at a measured frequency (R98). -/
def execMclkReturn (freq : BitVec 24) (s : State) : Host.Outcome State Fault Refusal :=
  act (fun s => if s.sysOn then (s.setF F.MCLK_STAT_LOS 0).setF F.MCLK_STAT_FREQ freq.toNat else s) s

/-! ### PPS_IN, TOD_RX and PPS_OUT -/

/-- PPS_OK and TOD_OK as given; where one of them clears, a root has lost its source (R99, R100, R381). -/
def State.rootOks (s : State) (pps tod : Bool) : State :=
  let lost := (s.b F.TIME_STAT_PPS_OK && !pps) || (s.b F.TIME_STAT_TOD_OK && !tod)
  let s1 := (s.setF F.TIME_STAT_PPS_OK (b2n pps)).setF F.TIME_STAT_TOD_OK (b2n tod)
  s1.when (lost && s.f F.TIME_CTL_SRC == 1) State.srcLost

/-- PPS_MISS: 1.1 s of ST have passed without an accepted PPS_IN edge (R99). -/
def execPpsMiss (s : State) : Host.Outcome State Fault Refusal :=
  act (fun s =>
    if !s.sysOn || s.pps.missed then s
    else
      let s1 := s.passTo (s.pps.from_ + secU + secU / 10)
      ({ s1 with pps := { s1.pps with run := 0, missed := true } }.rootOks false (s1.b F.TIME_STAT_TOD_OK)).raiseBit R.TIME_EVT 1 0x0202 0 0) s

/-- Whether the bytes of a time-of-day message are valid (R100). -/
def todValid (bs : List Byte) : Bool :=
  match bs with
  | [a, b, _, _, _, _, _, _, f, c] => a == 0x54 && b == 0x44 && decide (f.toNat ≤ 1) && crc8 (bs.take 9) == c.toNat
  | _ => false

/-- TOD_MESSAGE: the bytes of a time-of-day message, with a framing error or not (R100). -/
def execTodMessage (bytes : List Byte) (frameErr : Bool) (s : State) : Host.Outcome State Fault Refusal :=
  act (fun s =>
    if !(s.sysOn && s.b F.TOD_CTL_EN) then s
    else if todValid bytes && !frameErr then
      let sec := beNat ((bytes.drop 2).take 6)
      let s1 := (s.bump F.TOD_STAT_GOOD 1).setTwo R.TOD_SEC sec
      { s1 with pps := { s1.pps with tod := some sec } }
    else (s.bump F.TOD_STAT_BAD 1).raiseBit R.TIME_EVT 3 0x0204 0 0) s

/-- PPS_OUT_RISE: the next whole second of ST plus PPS_OUT_ADJ, later than the last second marked (R101, R385). -/
def execPpsOutRise (s : State) : Host.Outcome State Fault Refusal :=
  act (fun s =>
    if !(s.live && s.b F.PPS_CTL_OUT_EN) || s.pps.out.isSome then s
    else
      let adj := s.sw R.PPS_OUT_ADJ * nsU
      let k0 := (((s.st : Int) - adj + (secU - 1 : Nat)) / (secU : Nat)).toNat
      let k := match s.pps.mark with
        | some m => max k0 (m + 1)
        | none => k0
      let t := ((k * secU : Nat) + adj).toNat
      let s1 := s.reach t
      { s1 with pps := { s1.pps with out := some (s1.cycAt t), mark := some k } }) s

/-- PPS_OUT is low. -/
def State.ppsLow (s : State) : State := { s with pps := { s.pps with out := none } }

/-- PPS_OUT_FALL: WIDTH milliseconds after the rise (R101). -/
def execPpsOutFall (s : State) : Host.Outcome State Fault Refusal :=
  act (fun s =>
    match s.pps.out with
    | some t => (s.passTo (t + s.f F.PPS_CTL_WIDTH * (secU / 1000))).ppsLow
    | none => s) s

/-! ### The calendar clock -/

/-- The RTC holds 40 bits of seconds and 15 bits below (R102). -/
def rtcMod : Nat := 2 ^ 55

/-- A write of RTC_CTL; with GO the RTC takes RTC_SET at the next AON tick (R103). -/
def State.rtcCtl (s : State) (v : Word) : State :=
  let s1 := s.setF F.RTC_CTL_FOLLOW (b2n (wbit v 1))
  let t := s.two R.RTC_SET_SEC % 2 ^ 40 * 2 ^ 15 + s.f F.RTC_SET_SUB_V
  (s1.when (wbit v 0) fun s => { s with rtcLoad := some t }).fin .ok

/-- RTC_GO: a write of RTC_CTL with GO = 1 (R103). -/
def execRtcGo (r : Req) (v : Word) (s : State) : Host.Outcome State Fault Refusal :=
  act (regWrite r R.RTC_CTL noLock fun s => s.rtcCtl (v ||| 1)) s

/-- RTC_FOLLOW: the next whole second of ST, after which the RTC follows a LOCKED system time, at the first AON tick (R104). -/
def execRtcFollow (s : State) : Host.Outcome State Fault Refusal :=
  act (fun s =>
    if s.sysOn && s.b F.RTC_CTL_FOLLOW && s.f F.TIME_STAT_QUALITY == 0 then
      let k := ceilDiv s.st secU
      { s.reach (k * secU) with rtcLoad := some (k % 2 ^ 40 * 2 ^ 15) }
    else s) s

/-- XTAL_STOP: the crystal stops (R102). -/
def execXtalStop (s : State) : Host.Outcome State Fault Refusal := .next (s.setF F.RTC_STAT_VALID 0)

end Sys2Proof.Machine
end

