-- ==== Sys2Proof/Machine/TrigOps.lean ====
section
/-!
DEFINITION. Triggers' shared operations, on the courses' positions: a unit's source (R145 to R147), holdoff and auto mode (R152, R153), the effect of a
group's trigger (R155, R160 to R164), and what empties the window store (R159).
-/

namespace Sys2Proof.Machine

/-! ### Units -/

/-- The source of a unit delivers values: its stream is active, or its detector is enabled (R147). -/
def State.unitSource (s : State) (u : Nat) : Bool :=
  if s.f (F.TU_CTL_SRC_KIND u) = 0 then s.b (F.SE_CTL_VALID (s.f (F.TU_SRC_SID u))) && s.b (F.SE_CTL_ACT (s.f (F.TU_SRC_SID u)))
  else s.b (F.DET_CTL_EN (s.f (F.TU_SRC_TILE u)) (s.f (F.TU_SRC_DET u)))

/-- The enabled units. -/
def State.unitsOn (s : State) : List Nat := (range' 0 64).filter fun u => s.b (F.TU_CTL_EN u)

/-- A unit's source as it is now: where it has become idle, the event of R147; once it is active again the first value initialises S,
and TU_STAT.INIT stays 1 till then (R149; DESIGN CHOICE, notes/assumptions/131.md). -/
def State.refreshUnit (s : State) (u : Nat) : State :=
  if s.unitSource u then
    (s.when (s.b (F.TU_STAT_SRC_IDLE u)) fun s => s.setTu u { s.tu u with anew := true }).setF (F.TU_STAT_SRC_IDLE u) 0
  else
    let s1 := s.setF (F.TU_STAT_SRC_IDLE u) 1
    s1.when (!s.b (F.TU_STAT_SRC_IDLE u)) fun s => s.raiseBit R.TRIG_EVT 0 0x0501 u 0

/-- Every enabled unit's source checked, after a stream or a detector has started or stopped (R147). -/
def State.refreshUnits (s : State) : State := s.each s.unitsOn fun s u => s.refreshUnit u

/-- The tile and path of a unit's source. -/
def State.unitPath (s : State) (u : Nat) : Nat × Nat :=
  if s.f (F.TU_CTL_SRC_KIND u) = 0 then
    let k := s.f (F.TU_SRC_SID u)
    ((s.seTile k).getD 0, s.f (F.SE_CTL_FPATH k))
  else (s.f (F.TU_SRC_TILE u), s.f (F.DET_CTL_PATH (s.f (F.TU_SRC_TILE u)) (s.f (F.TU_SRC_DET u))))

/-- The grid of a unit's source. -/
def State.unitGrid (s : State) (u : Nat) : Nat :=
  if s.f (F.TU_CTL_SRC_KIND u) = 0 then s.f (F.SE_CTL_GRID (s.f (F.TU_SRC_SID u)))
  else s.f (F.FP_CTL_GRID (s.unitPath u).1 (s.unitPath u).2)

/-- A grid has produced a course. -/
def State.coursePast (s : State) (g p : Nat) : Bool := s.running g && decide (p < (s.grid g).base + (s.grid g).next)

/-- The time quality of a grid's course (R85). -/
def State.qualAt (s : State) (g p : Nat) : Nat := (((s.grid g).quals.find? fun x => decide (x.1 ≤ p)).getD (0, 3)).2

/-- The source of a unit still owes a value for a course: its path has the course to output, or its detector holds an unreleased output that
ends with it. -/
def State.awaits (s : State) (u p : Nat) : Bool :=
  let (t, fp) := s.unitPath u
  ((s.path (8 * t + fp)).due.any fun d => d.p == p)
  || (s.f (F.TU_CTL_SRC_KIND u) != 0 && (s.det (32 * t + s.f (F.TU_SRC_DET u))).ready.any fun o => o.p == p)

/-- The course that a unit has passed: its own last, or its group's (R147). -/
def State.unitDone (s : State) (u : Nat) : Option Nat :=
  match (s.tu u).done with
  | some p => some p
  | none => (s.tg (s.f (F.TU_CTL_GROUP u))).done

/-- A course lies in a unit's holdoff (R152). -/
def State.inHoldoff (s : State) (u p : Nat) : Bool :=
  match (s.tu u).trig with
  | some t => decide (t < p) && decide (p ≤ t + s.f (F.TU_HOLDOFF_V u))
  | none => false

/-- A unit's forced trigger falls on a course, or fell before it (R151, R153). -/
def State.autoDue (s : State) (u p : Nat) : Bool :=
  let x := s.tu u
  s.b (F.TU_CTL_AUTO_EN u) && decide (x.autoFrom ≤ p) && !s.inHoldoff u p && !(x.hits.any fun h => h.p == p) &&
  match x.na with
  | some a => decide (a + ((s.w (R.TU_AUTO u)).toNat + 1) ≤ p)
  | none => false

/-- A unit accepts a trigger at a course: holdoff begins, and TU_LAST shows it (R152, R153). -/
def State.acceptTrig (s : State) (u p : Nat) (edge : Bool) (q : Nat) : State :=
  let x := s.tu u
  let s1 := s.setTu u { x with na := some p, trig := some p, hits := x.hits ++ [⟨p, edge, q⟩] }
  let s2 := (s1.setTwo (R.TU_LAST u) (c48 p)).setF (F.TU_STAT_HOLDOFF u) (b2n (s.f (F.TU_HOLDOFF_V u) != 0))
  if edge then s2.bumpW (R.TU_FIRE_CNT u) 1 else s2.bumpW (R.TU_FORCE_CNT u) 1

/-- A unit after EN goes to 1: it has evaluated nothing, S is to be initialised, and a trigger that its group has not evaluated is dropped (R149, R153, R155;
DESIGN CHOICE, notes/assumptions/102.md). -/
def State.unitFresh (s : State) (u : Nat) : State :=
  ((s.setTu u Tu.init).setF (F.TU_STAT_INIT u) 0).setF (F.TU_STAT_HOLDOFF u) 0

/-- A unit at entry to ACQUIRE: S is to be initialised, and n_a is the first course evaluated; a holdoff in progress goes on, and a
trigger that its group has not evaluated is dropped (R149, R152, R153, R155; DESIGN CHOICE, notes/assumptions/102.md). -/
def State.unitEnter (s : State) (u : Nat) : State :=
  (s.setTu u { s.tu u with vals := [], done := none, na := none, hits := [], anew := false }).setF (F.TU_STAT_INIT u) 0

/-- The position of the next course for which a unit can get a value: that of its oldest value, or the next that its path outputs. -/
def State.unitAhead (s : State) (u : Nat) : Nat :=
  match (s.tu u).vals with
  | v :: _ => v.p
  | [] => s.nextPos (s.unitPath u).1 (s.unitPath u).2

/-- TU_HOLDOFF or TU_AUTO is written: from the next course on, the holdoff's end and the forced trigger's course are worked out anew from the
unit's last accepted trigger (R151). -/
def State.unitRecompute (s : State) (u : Nat) : State :=
  match (s.tu u).done with
  | some p =>
    (s.setTu u { s.tu u with autoFrom := p + 1 }).setF (F.TU_STAT_HOLDOFF u) (b2n (s.inHoldoff u (p + 1)))
  | none => s.setF (F.TU_STAT_HOLDOFF u) (b2n (s.inHoldoff u (s.unitAhead u)))

/-- The selected kind of edge (R148). -/
def edgeFires (sel : Nat) (rising : Bool) : Bool := sel == 2 || (sel == 0) == rising

/-- A unit compares one value with its level and hysteresis; a fired edge triggers, or is suppressed in holdoff (R148 to R152). -/
def State.unitValue (s : State) (u : Nat) (v : TuVal) : State :=
  let l := sx 24 (s.w (R.TU_LEVEL u)).toNat
  let h : Int := s.f (F.TU_HYST_H u)
  let high := s.b (F.TU_STAT_S u)
  if !s.b (F.TU_STAT_INIT u) || v.fresh then (s.setF (F.TU_STAT_S u) (b2n (decide (l ≤ v.x)))).setF (F.TU_STAT_INIT u) 1
  else if (!high && decide (v.x < l)) || (high && decide (l - h ≤ v.x)) then s
  else
    let s1 := s.setF (F.TU_STAT_S u) (b2n (!high))
    if v.settling || !edgeFires (s.f (F.TU_CTL_EDGE u)) (!high) then s1
    else if s.inHoldoff u v.p then
      let g := s.f (F.TU_CTL_GROUP u)
      (s1.bumpW (R.TU_SUPP_CNT u) 1).setTg g { s1.tg g with supp := satAdd 16 (s1.tg g).supp 1 }
    else s1.acceptTrig u v.p true v.q

/-! ### Groups -/

/-- The enabled units of a group. -/
def State.groupUnits (s : State) (g : Nat) : List Nat := s.unitsOn.filter fun u => s.f (F.TU_CTL_GROUP u) == g

/-- The valid links of a group. -/
def State.groupLinks (s : State) (g : Nat) : List Nat := s.links.filter fun k => s.f (F.WS_LINK_GROUP k) == g

/-- The active linked streams of a group. -/
def State.groupStreams (s : State) (g : Nat) : List Nat :=
  ((s.groupLinks g).map fun k => s.f (F.WS_LINK_SID k)).filter fun k => s.b (F.SE_CTL_VALID k) && s.b (F.SE_CTL_ACT k)

/-- A linked stream does not hold a group's evaluation of a course back: the store holds the course, or the stream's path does not owe it; and as the
group's first course it comes before every other that the store or the path has (R155). -/
def State.heldAt (s : State) (first : Bool) (p k : Nat) : Bool :=
  let hs := (s.str k).held.map Held.p
  let ds := (s.path (s.pathKey k)).due.map Due.p
  (hs.contains p || !ds.contains p) && (!first || (hs ++ ds).all fun q => decide (p ≤ q))

/-- Every enabled unit of a group has evaluated a course, and no forced trigger is due on it; without units, the course has fallen, and the store
holds it for every active linked stream whose path computes it (R155). -/
def State.groupReady (s : State) (g p : Nat) : Bool :=
  let us := s.groupUnits g
  if us = [] then s.coursePast (s.f (F.TG_CTL_GRID g)) p && (s.groupStreams g).all (s.heldAt (s.tg g).done.isNone p)
  else us.all fun u =>
    (match (s.tu u).done with
      | some d => decide (p ≤ d) && !(d == p && s.autoDue u p)
      | none => false)

/-- A ball in MODE 2 drives a pulse for a group's trigger (R496). -/
def State.trigPulse (s : State) (g : Nat) : State :=
  s.each ((range' 0 4).filter fun k => s.f (F.TRIGIO_CTL_MODE k) == 2 && s.f (F.TRIGIO_CTL_GROUP k) == g) fun s k =>
    { s with pulses := Tab.set (fun _ => none) s.pulses k (some (s.cyc + 100 * nsU)) }

/-- PRE_ACTUAL of a trigger: no further back than the earliest course held since the store was last emptied (R160). -/
def Tg.preActual (x : Tg) (p pre : Nat) : Nat :=
  match x.ne with
  | some e => min pre (p - e)
  | none => 0

/-- The window that a trigger at `p` opens, or merges into: the windows, and whether it merged (R160, R161). -/
def Tg.open (x : Tg) (isOpen : Bool) (p pre post : Nat) : List (Nat × Nat) × Bool :=
  match isOpen, x.wins with
  | true, (a0, b0) :: r =>
    if p - pre ≤ b0 + 1 then ((min a0 (p - pre), max b0 (p + post)) :: r, true) else ((p - pre, p + post) :: (a0, b0) :: r, false)
  | _, ws => ((p - pre, p + post) :: ws, false)

/-- The linked streams that are active at a course (R163). -/
def State.markStreams (s : State) (g p : Nat) : List Nat := (s.groupStreams g).filter fun k => decide ((s.str k).since ≤ p)

/-- The group takes one trigger at a course from the given units (R155, R160 to R164). -/
def State.takeTrig (s : State) (g p : Nat) (us : List (Nat × Hit)) : State :=
  let x := s.tg g
  let pre := x.preActual p (s.f (F.TG_CTL_PRE g))
  let post := s.f (F.TG_POST_V g)
  let (ws, merged) := x.open (s.b (F.TG_STAT_WIN g)) p pre post
  let forced := !us.any fun h => h.2.edge
  let q := match us with
    | h :: _ => h.2.q
    | [] => 3
  let r := markRec (c48 p) g (s.f (F.TG_CTL_GRID g)) pre ((us.map fun h => 2 ^ h.1).sum) x.supp post q forced merged
    (decide (pre < s.f (F.TG_CTL_PRE g)))
  let ks := s.markStreams g p
  let s1 := s.each ks fun s k => s.setStr k { s.str k with ins := (s.str k).ins ++ [(p, r)] }
  let s2 := s1.setTg g { x with wins := ws, supp := if ks = [] then x.supp else 0 }
  let s3 := ((s2.setF (F.TG_STAT_WIN g) 1).setTwo (R.TG_WIN_END g) (c48 (ws.headD (0, 0)).2)).bumpW (R.TG_MARK_CNT g) 1
  s3.trigPulse g

/-- The store of every group is empty, and every unit starts afresh: at entry to ACQUIRE (R149, R153, R159). A suppressed count that waits for its
MARK, and a holdoff in progress, stay (R152). -/
def State.emptyStore (s : State) : State :=
  let s1 := s.each s.activeSids fun s k => s.setStr k { s.str k with held := [] }
  let s2 := s1.each (range' 0 64) fun s g => (s.setTg g { Tg.init with supp := (s.tg g).supp }).setF (F.TG_STAT_WIN g) 0
  s2.each (range' 0 64) fun s u => s.unitEnter u

end Sys2Proof.Machine
end

