-- ==== Sys2Proof/Machine/Filter.lean ====
section
/-!
DEFINITION. The commands of the filter engines: configuration (R113 to R121), coefficients (R135), outputs (R123, R128), cross-fades (R136 to R138)
and detectors (R139 to R141).
-/

namespace Sys2Proof.Machine

/-! ### Configuration -/

/-- A bank's first TAPS coefficients sum to at most 2.0 in absolute value (R120); with FIR_EN 0 no bank is checked (DESIGN CHOICE,
notes/assumptions/130.md). -/
def State.bankOk (s : State) (t p b : Nat) : Bool :=
  let c := s.pathCfg t p b
  !c.fir || decide (((range' 0 c.taps).map fun k => iabs (s.coef t p b k)).sum ≤ 65536)

/-- Every stream table entry that names a path is on its grid (R113). -/
def State.gridMatch (s : State) (t p : Nat) : Bool :=
  s.sids.all fun k => !s.usesPath k t p || s.f (F.SE_CTL_GRID k) == s.f (F.FP_CTL_GRID t p)

/-- A register of a path written where the path is IDLE, its fields are in range and the new configuration stays within its limits (R113 to
R121; DEDUCED, notes/assumptions/14.md). -/
def State.fpTry (s : State) (t p : Nat) (ok : Bool) (s1 : State) : State :=
  if !s.pathIdle t p then s.fin .busy
  else if !(ok && s1.gridMatch t p && s1.pathFits t p) then s.fin .unsupported
  else s1.fin .ok

/-- FP_CTL is also held to what its placement mode asks of the grid, of SMPL's source and of the chain, whether or not anything names the path (R114,
R115). -/
def State.ctlOk (s1 : State) (t p : Nat) : Bool := s1.placeForm (s1.pathAct t p) && s1.sourceFits (s1.pathAct t p)

/-- A ratio of the CIC fits SCS only where the CIC is unused (R114). -/
def State.cicOk (s1 : State) (t p : Nat) : Bool := (s1.pathAct t p).place != 3 || s1.placeForm (s1.pathAct t p)

/-- FP_CTL: the ranges of its fields (R114, R117 to R119). -/
def fpCtlRange (n : Nat) : Bool :=
  let dec := bits n 20 16
  decide (bits n 26 24 ≤ 3) && decide (1 ≤ dec) && decide (dec ≤ 16) && (bit n 21 || dec == 1) && decide (bits n 13 12 ≤ 2)
    && decide (1 ≤ bits n 10 8) && decide (bits n 10 8 ≤ 5)

/-- FP_TAPS with the group delays that a change sets (R121). -/
def State.fpTaps (s : State) (t p n : Nat) : State :=
  let t0 := bits n 8 0
  let t1 := bits n 24 16
  let s1 := s.when (t0 != s.f (F.FP_TAPS_TAPS0 t p)) fun s => (s.setF (F.FP_TAPS_TAPS0 t p) t0).setF (F.FP_GD_GD0 t p) ((t0 - 1) * 128)
  s1.when (t1 != s1.f (F.FP_TAPS_TAPS1 t p)) fun s => (s.setF (F.FP_TAPS_TAPS1 t p) t1).setF (F.FP_GD_GD1 t p) ((t1 - 1) * 128)

/-- A number within bounds. -/
def within (n lo hi : Nat) : Bool := decide (lo ≤ n) && decide (n ≤ hi)

/-- FP_CONFIG_WRITE: a write of FP_CTL (0), FP_CIC (1), FP_TAPS (2) or FP_GD (3) of path `p` (R113 to R121). -/
def execFpConfigWrite (r : Req) (t : Fin 24) (p : Fin 8) (which : Fin 4) (v : Word) (s : State) : Host.Outcome State Fault Refusal :=
  act (fun s =>
    let t := t.val
    let p := p.val
    let n := v.toNat
    match which.val with
    | 0 => regWrite r (R.FP_CTL t p) noLock (fun s =>
        let s1 := s.setW (R.FP_CTL t p) (v &&& 0xB73F3700)
        s.fpTry t p (fpCtlRange n && s1.ctlOk t p) s1) s
    | 1 => regWrite r (R.FP_CIC t p) noLock (fun s =>
        let s1 := s.setF (F.FP_CIC_RATIO t p) n
        s.fpTry t p (within (bits n 12 0) 1 4096 && s1.cicOk t p) s1) s
    | 2 => regWrite r (R.FP_TAPS t p) noLock (fun s =>
        s.fpTry t p (within (bits n 8 0) 1 256 && within (bits n 24 16) 1 256) (s.fpTaps t p n)) s
    | _ => regWrite r (R.FP_GD t p) noLock (fun s =>
        let ok := decide (bits n 15 0 ≤ (s.f (F.FP_TAPS_TAPS0 t p) - 1) * 128) && decide (bits n 31 16 ≤ (s.f (F.FP_TAPS_TAPS1 t p) - 1) * 128)
        s.fpTry t p ok (s.setW (R.FP_GD t p) v)) s) s

/-- COEF_WRITE: a write of COEF[p][b][k] (R119, R135). -/
def execCoefWrite (r : Req) (t : Fin 24) (p : Fin 8) (b : Fin 2) (k : Fin 256) (v : Word) (s : State) : Host.Outcome State Fault Refusal :=
  act (fun s =>
    let t := t.val
    let p := p.val
    regWrite r (R.COEF t p b.val k.val) noLock (fun s =>
      if s.fading t p || (b.val == s.f (F.FP_STAT_ACT t p) && !s.pathIdle t p) then s.fin .busy
      else (s.setF (F.COEF_COEF t p b.val k.val) v.toNat).fin .ok) s) s

/-! ### Outputs and fades -/

/-- The number of the next course that a path outputs. -/
def State.nextCourse (s : State) (t p : Nat) : Nat :=
  match (s.path (8 * t + p)).due with
  | d :: _ => d.n
  | [] => c48 (s.grid (s.f (F.FP_CTL_GRID t p))).next

/-- A fade whose next phase must begin before the path's next course: FADE_BLEND_START or FADE_DONE (R137). -/
def Fade.turns (f : Fade) (state : Nat) : Bool :=
  if state = 3 then f.m == f.len else f.pre == 0 && f.warm == 0

/-- FILTER_OUTPUT: a path computes and releases the output for the next course of its channels (R123, R128). In a fade the next phase must
have begun first (R137). -/
def execFilterOutput (t : Fin 24) (p : Fin 8) (s : State) : Host.Outcome State Fault Refusal :=
  act (fun s =>
    let t := t.val
    let p := p.val
    let pa := s.path (8 * t + p)
    match pa.due with
    | [] => s
    | d :: rest =>
      let turns := match pa.fade with
        | some f => f.turns (s.f (F.FP_STAT_STATE t p))
        | none => false
      if !s.courseReady t p d || turns then s
      else (s.setPath (8 * t + p) { pa with due := rest }).pathCourse t p d) s

/-- W of R136: the courses in which the new bank fills its resampler history, for the channel with the lowest f_r. -/
def State.fadeWarm (s : State) (t p : Nat) : Nat :=
  let c := s.pathAct t p
  if 2 ≤ c.place then 0
  else
    let u := s.wordPart c.grid t (s.slowChan t p)
    ceilDiv (32 * c.chain * u.num) u.den + 1

/-- Whether a GO is refused as UNSUPPORTED (R136). -/
def State.fadeBad (s : State) (t p len : Nat) : Bool :=
  let b := 1 - s.f (F.FP_STAT_ACT t p)
  len == 0 || !s.b (F.FP_CTL_FIR_EN t p) || !Frac.le (s.engineLoad t) ⟨25600000000, 1⟩ || !s.bankOk t p b

/-- A fade starts (R136, R137). The courses whose last input has already arrived come before n_g. A path that is IDLE has no course to blend:
its new bank is active at once (R138). -/
def State.fadeStart (s : State) (t p len : Nat) : State :=
  let pa := s.path (8 * t + p)
  let ready := (pa.due.takeWhile fun d => s.courseReady t p d).length
  let w := s.fadeWarm t p
  let s1 := s.setPath (8 * t + p) { pa with fade := some ⟨ready, w, 0, len⟩ }
  if s.pathIdle t p then s1.endFade t p
  else (s1.warmUp t p).when (ready == 0 && w == 0) fun s => s.startBlend t p (s.nextCourse t p)

/-- FADE_GO: a write of FP_FADE (R136). -/
def execFadeGo (r : Req) (t : Fin 24) (p : Fin 8) (v : Word) (s : State) : Host.Outcome State Fault Refusal :=
  act (fun s =>
    let t := t.val
    let p := p.val
    let len := bits v.toNat 15 0
    regWrite r (R.FP_FADE t p) noLock (fun s =>
      let s1 := s.setF (F.FP_FADE_LEN t p) len
      if len = 0 then s.fin .unsupported
      else if !wbit v 31 then s1.fin .ok
      else if s.fadeBad t p len then s.fin .unsupported
      else if s.fading t p || s.pathSettling t p then s.fin .busy
      else (s1.fadeStart t p len).fin .ok) s) s

/-- FADE_BLEND_START: the new bank's history is warm (R137). -/
def execFadeBlendStart (t : Fin 24) (p : Fin 8) (s : State) : Host.Outcome State Fault Refusal :=
  act (fun s =>
    match (s.path (8 * t.val + p.val)).fade with
    | some fd =>
      if s.f (F.FP_STAT_STATE t.val p.val) ≠ 3 ∧ fd.turns 2 then s.startBlend t.val p.val (s.nextCourse t.val p.val) else s
    | none => s) s

/-- FADE_DONE: LEN blended courses are complete (R137). -/
def execFadeDone (t : Fin 24) (p : Fin 8) (s : State) : Host.Outcome State Fault Refusal :=
  act (fun s =>
    match (s.path (8 * t.val + p.val)).fade with
    | some fd => if s.f (F.FP_STAT_STATE t.val p.val) = 3 ∧ fd.m = fd.len then s.endFade t.val p.val else s
    | none => s) s

/-! ### Detectors -/

/-- A write of DET_CTL (R139). -/
def State.detCtl (s : State) (t d : Nat) (v : Word) : State :=
  let n := v.toNat
  let p := bits n 18 16
  let s1 := s.setW (R.DET_CTL t d) (v &&& 0x8307000F)
  let was := s.b (F.DET_CTL_EN t d)
  if bits n 25 24 = 3 then s.fin .unsupported
  else if was && bit n 31 then s.fin .busy
  else if bit n 31 then
    if !s1.pathFits t p || (s.pathIdle t p && !s.bankOk t p (s.f (F.FP_STAT_ACT t p))) then s.fin .unsupported
    else ((s1.setDet (32 * t + d) Det.init).refreshUnits).fin .ok
  else (((s1.when was fun s => s.idlePaths t).setDet (32 * t + d) Det.init).refreshUnits).fin .ok

/-- DET_CTL_WRITE: a write of DET_CTL (0), DET_WIN (1) or DET_ENV (2) (R139). A DET_WIN that takes the packer or a compress engine over its limit is refused
(R15, R287). -/
def execDetCtlWrite (r : Req) (t : Fin 24) (d : Fin 32) (which : Fin 3) (v : Word) (s : State) : Host.Outcome State Fault Refusal :=
  act (fun s =>
    let t := t.val
    let d := d.val
    let put (a : Nat) (w : Word) (ok : State → Bool) (s : State) : State :=
      let s1 := s.setW a w
      if s.b (F.DET_CTL_EN t d) then s.fin .busy else if !ok s1 then s.fin .unsupported else s1.fin .ok
    match which.val with
    | 0 => regWrite r (R.DET_CTL t d) noLock (fun s => s.detCtl t d v) s
    | 1 => regWrite r (R.DET_WIN t d) noLock (put (R.DET_WIN t d) (v &&& 0xFFFF) fun s => s.packerOk t && s.pressOk) s
    | _ => regWrite r (R.DET_ENV t d) noLock (put (R.DET_ENV t d) v fun _ => true) s) s

/-- The packet of a detector output for one mason (R188). -/
def State.detPacket (s : State) (t d : Nat) (o : DetOut) (m : Nat) : State :=
  let ks := (s.detStreams t d).filter fun k => s.masonWritten k && s.f (F.SE_CTL_MASON k) == m
  if ks = [] then s
  else
    let p := s.f (F.DET_CTL_PATH t d)
    let h := [BitVec.ofNat 32 (s.f (F.FP_CTL_GRID t p) * 2 ^ 30 + p * 2 ^ 27 + t * 2 ^ 22 + 2 ^ 21 + o.q * 2 ^ 19 + o.first / 2 ^ 32),
      BitVec.ofNat 32 o.first, BitVec.ofNat 32 (b2n o.settling * 2 ^ 31 + d * 2 ^ 24 + s.f (F.DET_CTL_TYPE t d) * 2 ^ 16 + (o.count - 1)), 0]
    let lanes := [BitVec.ofInt 32 o.v1, BitVec.ofInt 32 o.v2]
    let s1 := s.each ks fun s k => s.setF (F.SE_STAT_SETTLING k) (b2n o.settling)
    s1.packetTo m (h ++ lanes ++ List.replicate 14 0) ks o.first o.count o.q

/-- A detector releases an output: to its registers, its STRAIGHT streams, its masons and the trigger units (R140, R145, R188, R262). -/
def State.detDeliver (s : State) (t d : Nat) (o : DetOut) : State :=
  let typ := s.f (F.DET_CTL_TYPE t d)
  let s1 := (s.setF (F.DET_VAL_VALUE t d) (wrap 24 o.v1)).setF (F.DET_VAL2_VALUE t d) (wrap 24 o.v2)
  let mine (u : Nat) : Bool := s.f (F.TU_SRC_TILE u) == t && s.f (F.TU_SRC_DET u) == d
  let now := s.numbered (s.f (F.FP_CTL_GRID t (s.f (F.DET_CTL_PATH t d)))) o.p
  let s2 := s1.when now fun s =>
    (s.toUnits (fun u => s.f (F.TU_CTL_SRC_KIND u) == 1 && mine u) ⟨o.p, o.v1, o.settling, o.q, false⟩).toUnits
      (fun u => s.f (F.TU_CTL_SRC_KIND u) == 2 && mine u) ⟨o.p, o.v2, o.settling, o.q, false⟩
  let s4 := s2.each ((s2.detStreams t d).filter fun k => !s2.masonWritten k) fun s k => s.deliverDet k d typ o
  s4.each (range' 0 16) fun s m => s.detPacket t d o m

/-- DETECT_OUTPUT: a detector's window of W courses ends and it outputs its value (R140, R141). -/
def execDetectOutput (t : Fin 24) (d : Fin 32) (s : State) : Host.Outcome State Fault Refusal :=
  act (fun s =>
    let x := s.det (32 * t.val + d.val)
    match x.ready with
    | [] => s
    | o :: r => (s.setDet (32 * t.val + d.val) { x with ready := r }).detDeliver t.val d.val o) s

end Sys2Proof.Machine
end

