-- ==== Sys2Proof/Machine/Triggers.lean ====
section
/-!
DEFINITION. The commands of triggers, keep windows and reduction profiles (R145 to R171, R496).
-/

namespace Sys2Proof.Machine

/-! ### Units -/

/-- A unit may be enabled: its source exists, and is on the grid of its group (R146). -/
def State.unitOk (s : State) (u : Nat) : Bool :=
  let k := s.f (F.TU_SRC_SID u)
  let src := if s.f (F.TU_CTL_SRC_KIND u) = 0 then s.b (F.SE_CTL_VALID k) && s.f (F.SE_CTL_SRC_KIND k) == 0
    else s.b (F.DET_CTL_EN (s.f (F.TU_SRC_TILE u)) (s.f (F.TU_SRC_DET u)))
  src && s.unitGrid u == s.f (F.TG_CTL_GRID (s.f (F.TU_CTL_GROUP u)))

/-- A write of TU_CTL (R145, R146, R148). -/
def State.tuCtl (s : State) (u : Nat) (v : Word) : State :=
  let n := v.toNat
  let was := s.b (F.TU_CTL_EN u)
  let s1 := s.setW (R.TU_CTL u) (v &&& 0x83BF3000)
  if bits n 25 24 = 3 ∨ bits n 13 12 = 3 then s.fin .unsupported
  else if was && bit n 31 then s.fin .busy
  else if bit n 31 && !s1.unitOk u then s.fin .unsupported
  else
    let s2 := (s1.unitFresh u).setF (F.TU_STAT_SRC_IDLE u) (b2n (bit n 31 && !s1.unitSource u))
    s2.fin .ok

/-- TU_CTL_WRITE: a write of TU_CTL, or of TU_SRC where `src` (R145, R146). -/
def execTuCtlWrite (r : Req) (u : Fin 64) (src : Bool) (v : Word) (s : State) : Host.Outcome State Fault Refusal :=
  act (fun s =>
    let u := u.val
    if src then
      regWrite r (R.TU_SRC u) noLock (fun s =>
        if s.b (F.TU_CTL_EN u) then s.fin .busy else (s.setW (R.TU_SRC u) (v &&& 0x1F1F1FFF)).fin .ok) s
    else regWrite r (R.TU_CTL u) noLock (fun s => s.tuCtl u v) s) s

/-- The position of the course that a unit, or a group, evaluates next: the one after its last, else a course of the present numbering, by number. -/
def State.nextEval (s : State) (g : Nat) (done : Option Nat) (n : Nat) : Nat :=
  match done with
  | some p => p + 1
  | none => (s.grid g).base + n

/-- A unit evaluates a course at position `p`: the value its source delivered for it, or "no edge" where the source delivers none (R147). -/
def State.unitCourse (s : State) (u p : Nat) (vals : List TuVal) : State :=
  let x := s.tu u
  let s1 (vs : List TuVal) : State := s.setTu u { x with vals := vs, done := some p, na := some (x.na.getD p) }
  match vals with
  | v :: r => if v.p = p then (s1 r).unitValue u v else s1 vals
  | [] => s1 []

/-- TU_EVALUATE: a unit evaluates course `n`, each course once and in order, once its source has delivered its value or owes none (R147 to R152). -/
def execTuEvaluate (u : Fin 64) (n : Nat) (s : State) : Host.Outcome State Fault Refusal :=
  act (fun s =>
    let u := u.val
    let done := s.unitDone u
    let p := s.nextEval (s.unitGrid u) done n
    let x := match done with
      | some d => (s.tu u).drop fun v => decide (v.p ≤ d)
      | none => s.tu u
    let vals := x.vals
    let here := vals.any fun v => v.p == p
    let first := done.isSome || vals.all fun v => decide (p ≤ v.p)
    if !(s.mode == 3 && s.b (F.TU_CTL_EN u) && c48 p == n && first && s.coursePast (s.unitGrid u) p) || (!here && s.awaits u p) then s
    else (s.setTu u x).unitCourse u p vals) s

/-- HOLDOFF_END: TU_HOLDOFF courses after an accepted trigger have been evaluated (R152). -/
def execHoldoffEnd (u : Fin 64) (s : State) : Host.Outcome State Fault Refusal :=
  act (fun s =>
    match (s.tu u.val).trig, (s.tu u.val).done with
    | some t, some d => if t + s.f (F.TU_HOLDOFF_V u.val) ≤ d then s.setF (F.TU_STAT_HOLDOFF u.val) 0 else s
    | _, _ => s) s

/-- TU_AUTO_FORCE: N courses have passed without an accepted trigger; the unit forces one at the course it has just evaluated (R153), with that
course's quality (R164). -/
def execTuAutoForce (u : Fin 64) (s : State) : Host.Outcome State Fault Refusal :=
  act (fun s =>
    let u := u.val
    match (s.tu u).done with
    | none => s
    | some p =>
      let passed := match (s.tg (s.f (F.TU_CTL_GROUP u))).done with
        | some d => decide (p ≤ d)
        | none => false
      if s.mode == 3 && s.b (F.TU_CTL_EN u) && s.autoDue u p && !passed then s.acceptTrig u p false (s.qualAt (s.unitGrid u) p) else s) s

/-! ### Groups and the window store -/

/-- GROUP_EVALUATE: a group evaluates course `n` once all its units have (R155, R160 to R164). -/
def execGroupEvaluate (g : Fin 64) (n : Nat) (s : State) : Host.Outcome State Fault Refusal :=
  act (fun s =>
    let g := g.val
    let x := s.tg g
    let p := s.nextEval (s.f (F.TG_CTL_GRID g)) x.done n
    if !(s.mode == 3 && c48 p == n && s.groupReady g p) then s
    else
      let us := s.groupUnits g
      let hits := us.filterMap fun u => ((s.tu u).hits.find? fun h => h.p == p).map fun h => (u, h)
      let s1 := s.setTg g { x with done := some p }
      let s2 := s1.each us fun s u => s.setTu u { s.tu u with hits := (s.tu u).hits.filter fun h => decide (p < h.p) }
      s2.when (hits != []) fun s => s.takeTrig g p hits) s

/-- WINDOW_CLOSE: the group has evaluated the course after an open window's last course, and no trigger has merged (R161). -/
def execWindowClose (g : Fin 64) (s : State) : Host.Outcome State Fault Refusal :=
  act (fun s =>
    match (s.tg g.val).wins, (s.tg g.val).done with
    | (_, b) :: _, some d => if b < d then s.setF (F.TG_STAT_WIN g.val) 0 else s
    | _, _ => s) s

/-- TRIGIO_PULSE_END: 100 ns after the last trigger the pulse of a ball ends (R496). -/
def execTrigioPulseEnd (k : Fin 4) (s : State) : Host.Outcome State Fault Refusal :=
  act (fun s =>
    match Tab.get (fun _ => none) s.pulses k.val with
    | some t => { s.passTo t with pulses := Tab.set (fun _ => none) s.pulses k.val none }
    | none => s) s

/-- STORE_RELEASE: the store releases a stream's oldest course n to its reducer once the group has evaluated course n + PRE (R158, R162). -/
def execStoreRelease (sid : Fin 8192) (s : State) : Host.Outcome State Fault Refusal :=
  act (fun s =>
    let k := sid.val
    match s.linkOf k, (s.str k).held with
    | some l, h :: rest =>
      let g := s.f (F.WS_LINK_GROUP l)
      match (s.tg g).done with
      | some d =>
        if s.mode == 3 && decide (h.p + s.f (F.TG_CTL_PRE g) ≤ d) then
          (s.setStr k { s.str k with held := rest }).reduce k h ((s.tg g).covers h.p)
        else s
      | none => s
    | _, _ => s) s

/-- A stream named by WS_LINK is a STRAIGHT stream with a tile-channel source, on the group's grid, linked by no other entry, in a group with room,
and its skew is at most 1,024 courses (R156). -/
def State.linkOk (s : State) (l : Nat) : Bool :=
  let k := s.f (F.WS_LINK_SID l)
  let g := s.f (F.WS_LINK_GROUP l)
  let others := s.links.filter fun x => x != l
  s.b (F.SE_CTL_VALID k) && !s.masonWritten k && s.f (F.SE_CTL_SRC_KIND k) == 0 && s.f (F.SE_CTL_GRID k) == s.f (F.TG_CTL_GRID g)
    && !(others.any fun x => s.f (F.WS_LINK_SID x) == k)
    && decide ((others.filter fun x => s.f (F.WS_LINK_GROUP x) == g).length < 256) && decide (s.skewOf g k ≤ 1024)

/-- WS_LINK_WRITE: a write of WS_LINK[l] (R156). An entry with VALID = 0 names no stream (DESIGN CHOICE, notes/assumptions/133.md). -/
def execWsLinkWrite (r : Req) (l : Fin 1024) (v : Word) (s : State) : Host.Outcome State Fault Refusal :=
  act (fun s =>
    let l := l.val
    regWrite r (R.WS_LINK l) noLock (fun s =>
      let s1 := s.setW (R.WS_LINK l) (v &&& 0xBF001FFF)
      let busy (s : State) : Bool := s.b (F.WS_LINK_VALID l) && s.b (F.SE_CTL_VALID (s.f (F.WS_LINK_SID l))) && s.b (F.SE_CTL_ACT (s.f (F.WS_LINK_SID l)))
      if wbit v 31 && !s1.linkOk l then s.fin .unsupported
      else if busy s || busy s1 then s.fin .busy
      else s1.fin .ok) s) s

/-- TG_CTL_WRITE: a write of TG_CTL, or of TG_POST where `post` (R154). Linked streams that are inactive do not hold GRID (DESIGN CHOICE,
notes/assumptions/134.md). -/
def execTgCtlWrite (r : Req) (g : Fin 64) (post : Bool) (v : Word) (s : State) : Host.Outcome State Fault Refusal :=
  act (fun s =>
    let g := g.val
    let busy (s : State) : Bool := s.groupUnits g != [] || s.groupStreams g != []
    if post then
      regWrite r (R.TG_POST g) noLock (fun s => if busy s then s.fin .busy else (s.setF (F.TG_POST_V g) v.toNat).fin .ok) s
    else regWrite r (R.TG_CTL g) noLock (fun s =>
      if 4096 < bits v.toNat 12 0 then s.fin .unsupported
      else if busy s then s.fin .busy
      else (s.setW (R.TG_CTL g) (v &&& 0x30001FFF)).fin .ok) s) s

/-! ### Reduction profiles -/

/-- An active stream names a profile in either field (R166). -/
def State.profileUsed (s : State) (p : Nat) : Bool :=
  s.activeSids.any fun k => s.f (F.SE_REP_NORMAL k) == p || s.f (F.SE_REP_FALLBACK k) == p

/-- RP_WRITE: a write of RP_CTL (0), RP_DB (1), RP_DEC (2) or RP_HB (3) (R166, R167, R170). -/
def execRpWrite (r : Req) (p : Fin 64) (which : Fin 4) (v : Word) (s : State) : Host.Outcome State Fault Refusal :=
  act (fun s =>
    let p := p.val
    let go (bad : Bool) (a : Nat) (w : Word) (s : State) : State :=
      if bad then s.fin .unsupported else if s.profileUsed p then s.fin .busy else (s.setW a w).fin .ok
    match which.val with
    | 0 => regWrite r (R.RP_CTL p) noLock (go (decide (3 < bits v.toNat 2 0)) (R.RP_CTL p) (v &&& 0x17)) s
    | 1 => regWrite r (R.RP_DB p) noLock (go false (R.RP_DB p) (v &&& 0xFFFFFF)) s
    | 2 => regWrite r (R.RP_DEC p) noLock (go false (R.RP_DEC p) (v &&& 0xFFFF)) s
    | _ => regWrite r (R.RP_HB p) noLock (go (v.toNat % 65536 == 0) (R.RP_HB p) (v &&& 0xFFFF)) s) s

/-- DELTA_HEARTBEAT: HB courses have passed since a DELTA stream's last stored entry, and the course that its reducer handled last is stored
(R167). The reducer stores a heartbeat with the course itself; this stores one that is still due. -/
def execDeltaHeartbeat (sid : Fin 8192) (s : State) : Host.Outcome State Fault Refusal :=
  act (fun s =>
    let k := sid.val
    let st := s.str k
    let r := if st.fb then s.f (F.SE_REP_FALLBACK k) else s.f (F.SE_REP_NORMAL k)
    match st.last, st.ref, st.cur with
    | some h, some (_, m), some c =>
      let gone := c48 (h.n + 2 ^ 48 - m)
      let due := c.typ == 2 && s.f (F.RP_CTL_REP r) == 1 && decide (s.f (F.RP_HB_V r) ≤ gone) && h.n != m
      if !(s.mode == 3 && due) then s
      else
        let v := { oneVal 2 h.n 0 h.x h.settling false st.fb false h.q 0 0 with vals := [(h.x, gone)] }
        let s1 := s.putValue k v
        s1.setStr k { s1.str k with ref := some (h.x, h.n) }
    | _, _, _ => s) s

end Sys2Proof.Machine
end

