-- ==== Sys2Proof/Machine/StreamOps.lean ====
section
/-!
DEFINITION. The stream table's shared operations: configuration checks (R176), creation (R178, R179), activation (R180) and deactivation (R181).
-/

namespace Sys2Proof.Machine

/-- The configured role of a port: 0 OFF, 1 UP, 2 DOWN (R309). -/
def State.role (s : State) (p : Nat) : Nat := if p % 2 = 0 then s.f (F.QUAD_CTL_ROLE0 (p / 2)) else s.f (F.QUAD_CTL_ROLE1 (p / 2))

/-- A configuration keeps every rule of R176 and the checks of R15. -/
def State.entryOk (s : State) (k : Nat) : Bool :=
  let g := s.f (F.SE_CTL_GRID k)
  let p := s.f (F.SE_CTL_FPATH k)
  s.masonRateOk &&
  match s.f (F.SE_CTL_SRC_KIND k) with
  | 0 =>
    let c := s.f (F.SE_SRC_CH k)
    decide (c ≤ 383) && g == s.f (F.FP_CTL_GRID (c / 16) p) && s.pathFits (c / 16) p
  | 1 =>
    let t := s.f (F.SE_SRC_TILE k)
    decide (t ≤ 23) && p == s.f (F.DET_CTL_PATH t (s.f (F.SE_SRC_DET k))) && g == s.f (F.FP_CTL_GRID t p)
      && !s.pairOdd t (s.f (F.DET_CTL_CH t (s.f (F.SE_SRC_DET k)))) && s.sourceFits (s.pathAct t p) && s.pathFits t p
  | 2 => s.b (F.SE_CTL_PATH k) && s.w (R.SE_SRC k) == 0 && p == 0 && s.pressOk
  | _ => false

/-- An enabled trigger unit or a valid WS_LINK entry names a stream (R146, R156, R177, R182). -/
def State.namedElsewhere (s : State) (k : Nat) : Bool :=
  (s.unitsOn.any fun u => s.f (F.TU_CTL_SRC_KIND u) == 0 && s.f (F.TU_SRC_SID u) == k) || (s.linkOf k).isSome

/-- A block under an on-demand test that the activation of an entry needs (R474): its tile or filter engine, its compress engine, the window store where
the stream is linked, a yard section that its ring reaches. -/
def State.testNeeded (s : State) (k : Nat) : Bool :=
  match s.kilnTest with
  | some (1, t) => s.seTile k == some t
  | some (2, t) => s.seTile k == some t
  | some (4, e) => s.pressed k && s.f (F.SE_REP_ENG k) == e
  | some (10, i) =>
    let b := s.f (F.RING_CFG_BASE (s.portOf k))
    decide (b < 64 * i + 64) && decide (64 * i < b + s.f (F.RING_CFG_SIZE (s.portOf k)))
  | some (11, _) => (s.linkOf k).isSome
  | _ => false

/-- Why the activation of an entry, tried on a copy in which it is active, fails (R120, R157, R166, R180, R267); `old` is the hub before.
That its grid still is that of its trigger group is not checked again (R154; DESIGN CHOICE, notes/assumptions/134.md). -/
def State.actStop (old s : State) (k : Nat) : Option Status :=
  let windowed := !s.masonWritten k && s.f (F.SE_CTL_SRC_KIND k) == 0 && (s.linkOf k).isNone
    && (s.f (F.RP_CTL_REP (s.f (F.SE_REP_NORMAL k))) == 3 || s.f (F.RP_CTL_REP (s.f (F.SE_REP_FALLBACK k))) == 3)
  let detOff := s.f (F.SE_CTL_SRC_KIND k) == 1 && !s.b (F.DET_CTL_EN (s.f (F.SE_SRC_TILE k)) (s.f (F.SE_SRC_DET k)))
  let p := s.f (F.SE_CTL_FPATH k)
  let bank := match s.seTile k with
    | some t => old.pathIdle t p && !s.bankOk t p (s.f (F.FP_STAT_ACT t p))
    | none => false
  if !s.live then some .mode
  else if s.testNeeded k then some .busyTest
  else if s.role (s.portOf k) != 1 || s.f (F.RING_CFG_SIZE (s.portOf k)) == 0 || windowed || detOff || bank || !s.pressOk || !s.storeOk then some .unsupported
  else none

/-- A stream that starts: with a break, holding nothing, active at the first course that its path still computes, or at its grid's next one (R159, R163,
R169, R180, R181). -/
def State.freshStr (s : State) (k : Nat) : Str :=
  let p := match s.seTile k with
    | some t => s.nextPos t (s.f (F.SE_CTL_FPATH k))
    | none => (s.grid (s.f (F.SE_CTL_GRID k))).nextPos
  { Str.init with since := p }

/-- An entry becomes active: its stream starts with a break, on its normal representation and outside any window (R169, R175, R180). -/
def State.startStream (s : State) (k : Nat) : State :=
  ((((s.setF (F.SE_CTL_ACT k) 1).setF (F.SE_STAT_FALLBACK k) 0).setF (F.SE_STAT_WINDOW k) 0).setStr k (s.freshStr k)).refreshUnits

/-- A stream is deactivated: what the hub holds open of it goes to the yard (R159, R181). -/
def State.stopStream (s : State) (k : Nat) : State :=
  let s1 := (s.flushAny k).setF (F.SE_CTL_ACT k) 0
  let s2 := match s1.seTile k with
    | some t => s1.idlePaths t
    | none => s1
  s2.refreshUnits

/-- The configuration fields of the three words of an entry. -/
def seMask (w : Nat) : Word := if w = 0 then 0x3B730FF0 else if w = 1 then 0x1F1F01FF else 0x3F3F0B00

/-- An entry created in a free place with the images of its three words (R178, R179). -/
def State.newEntry (s : State) (k : Nat) (ctl src rep : Word) : State :=
  let s1 := (s.setW (R.SE_CTL k) ((ctl &&& seMask 0) ||| 0x80000000)).setW (R.SE_SRC k) (src &&& seMask 1)
  let s2 := (s1.setW (R.SE_REP k) (rep &&& seMask 2)).setW (R.SE_STAT k) 0
  ((s2.setTwo (R.SE_BYTES k) 0).setTwo (R.SE_LOST k) 0).setStr k Str.init

/-- The SIDs in use or retiring, in a table of 8,192 (R179). -/
def State.sidTaken (s : State) (k : Nat) : Bool := s.b (F.SE_CTL_VALID k) || s.b (F.SE_STAT_RETIRING k)

/-- The lowest free SID from `k` on, among `n`. -/
def State.freeSid (s : State) : Nat → Nat → Option Nat
  | 0, _ => none
  | n + 1, k => if s.sidTaken k then s.freeSid n (k + 1) else some k

/-- The reserved bits of the three images of STREAM_ADD are zero (R178). -/
def addBitsOk (ctl src rep : Word) : Bool :=
  ctl &&& ~~~(seMask 0 ||| 0xC0000000) == 0 && src &&& ~~~(seMask 1) == 0 && rep &&& ~~~(seMask 2) == 0

/-- An entry that assigns its stream to a compress engine under test (R474). -/
def State.pressTest (s : State) (k : Nat) : Bool := s.pressed k && s.kilnTest == some (4, s.f (F.SE_REP_ENG k))

/-- STREAM_ADD's checks and effect: the new state and SID, or why it fails (R176 to R180). -/
def State.addStream (s : State) (ctl src rep : Word) : Except Status (State × Nat) :=
  if bits ctl.toNat 28 27 = 3 then .error .unsupported
  else match s.freeSid 8192 0 with
    | none => .error .tableFull
    | some k =>
      let s1 := s.newEntry k ctl src rep
      if s1.pressTest k then .error .busyTest
      else if !s1.entryOk k then .error .unsupported
      else if wbit ctl 30 then
        match s.actStop (s1.setF (F.SE_CTL_ACT k) 1) k with
        | some c => .error c
        | none => .ok (s1.startStream k, k)
      else .ok (s1, k)

/-- A write of a configuration word of an entry, or of ACT (R177, R180, R181). -/
def State.seWrite (s : State) (k w : Nat) (v : Word) : State :=
  let a := if w = 0 then R.SE_CTL k else if w = 1 then R.SE_SRC k else R.SE_REP k
  let m := seMask w
  let change := (v &&& m) != (s.w a &&& m)
  let on := s.b (F.SE_CTL_ACT k)
  if !s.b (F.SE_CTL_VALID k) then s.fin .addr
  else if w == 0 && bits v.toNat 28 27 == 3 then s.fin .unsupported
  else if change && (on || s.namedElsewhere k) then s.fin .busy
  else
    let s1 := s.setW a ((s.w a &&& ~~~m) ||| (v &&& m))
    if change && s1.pressTest k then s.fin .busyTest
    else if change && !s1.entryOk k then s.fin .unsupported
    else if w == 0 && wbit v 30 && !on then
      match s.actStop (s1.setF (F.SE_CTL_ACT k) 1) k with
      | some c => s.fin c
      | none => (s1.startStream k).fin .ok
    else if w == 0 && !wbit v 30 && on then (s1.stopStream k).fin .ok
    else s1.fin .ok

end Sys2Proof.Machine
end

