-- ==== Sys2Proof/Machine/LineOps.lean ====
section
/-!
DEFINITION. The lanes as the link layer meets them: which lanes a port runs on, what a lane sends beside hods (training sets, idle and grout, R315, R319,
R321), a hod put on a port's lanes (R311, R339), the hods that a port's lanes receive (R311 to R314, R317), and the planes of a time stamp (R371, R372).
-/

namespace Sys2Proof.Machine

/-- The configured width code of a port: 0 ×1, 1 ×2, 2 ×4 (R308). -/
def State.widthCode (s : State) (p : Nat) : Nat := if p % 2 = 0 then s.f (F.QUAD_CTL_W0 (p / 2)) else s.f (F.QUAD_CTL_W1 (p / 2))

/-- A port may narrow (R325). -/
def State.narrowOk (s : State) (p : Nat) : Bool := if p % 2 = 0 then s.b (F.QUAD_CTL_NARROW0 (p / 2)) else s.b (F.QUAD_CTL_NARROW1 (p / 2))

/-- A port runs reversed (R323). -/
def State.reversed (s : State) (p : Nat) : Bool := if p % 2 = 0 then s.b (F.QUAD_STAT_REV0 (p / 2)) else s.b (F.QUAD_STAT_REV1 (p / 2))

/-- The first lane of a port (R308). -/
def laneBase (p : Nat) : Nat := 4 * (p / 2) + 2 * (p % 2)

/-- The lanes of a port at its configured width, port lane 0 first (R308). -/
def State.portLanes (s : State) (p : Nat) : List Nat := range' (laneBase p) (2 ^ s.widthCode p)

/-- The port that a lane serves, where it serves one. -/
def State.lanePort (s : State) (n : Nat) : Option Nat := if s.b (F.LANE_STAT_INPORT n) then some (s.f (F.LANE_STAT_PORT n)) else none

/-- The lanes of a port that are in a state. -/
def State.lanesIn (s : State) (p v : Nat) : List Nat := (s.portLanes p).filter fun n => s.lst n == v && s.lanePort n == some p

/-- The lanes on which a port sends, stream lane 0 first (R311). -/
def State.txLanes (s : State) (p : Nat) : List Nat := s.lanesIn p 6

/-- The lanes on which a port receives, stream lane 0 first, after a reversal (R311, R323). -/
def State.rxLanes (s : State) (p : Nat) : List Nat := if s.reversed p then (s.lanesIn p 6).reverse else s.lanesIn p 6

/-! ### What a lane sends (R312, R315, R319, R321) -/

/-- Symbols coded and sent (R312). -/
def Lane.emit (x : Lane) (ys : List Sym) : Lane :=
  let (gs, neg) := sendLine x.txNeg ys
  { x with tx := x.tx ++ gs, txNeg := neg }

/-- A grout set sent: 255 words follow it before the next (R315). -/
def Lane.emitGrout (x : Lane) : Lane := { x.emit groutSet with slot := 0, grout := x.grout + 1 }

/-- A word sent, in the next slot that is not a grout set's (R315). -/
def Lane.emitWord (x : Lane) (ys : List Sym) : Lane :=
  let y := if 255 ≤ x.slot then x.emitGrout else x
  { y.emit ys with slot := y.slot + 1 }

/-- The training set that a lane of a port sends now (R321): one more with STATE EQ where none has carried DONE yet, then those with STATE UP (R327). -/
def State.tsNow (s : State) (p n : Nat) : List Sym :=
  let x := s.lane n
  let st := if x.upTs = 0 then s.lst n else if x.upTs = 17 then 5 else 6
  tsOf (b2n x.selTx * 128 + b2n (s.narrowOk p) * 64 + s.widthCode p * 16 + (n - laneBase p))
    (s.role p * 64 + s.f (F.QUAD_CTL_RATE (n / 4))) (b2n x.done * 128 + st)

/-- A set of rich idle: 128 bits of the sequence x^7 + x^6 + 1, eight at a time, most significant first (R319). -/
def Lane.richSet (x : Lane) (n : Nat) : Lane × List Sym :=
  let r := if x.idle = 0 then 1 + Config.idleSeed n % 127 else x.idle
  let (bs, r1) := prbsBits 7 6 128 r
  ({ x with idle := r1 }, (bitBytes 16 bs).map .d)

/-- Four words of idle in the form of LANE_CTL.IDLE (R319); plain idle comes by fours too, so that the lanes of a port stay in step (DESIGN CHOICE,
notes/assumptions/123.md). -/
def State.idleSet (s : State) (n : Nat) : Lane × List Sym :=
  if s.b (F.LANE_CTL_IDLE n) then (s.lane n, List.replicate 16 .comma) else (s.lane n).richSet n

/-- A set of four words begun: its first word goes out (R319, R321). -/
def Lane.begin (x : Lane) (ys : List Sym) : Lane := { x with part := ys.drop 4 }.emitWord (ys.take 4)

/-- The next word of a lane of a port that sends no hod: the rest of a set begun, a new training set while the port trains or has sets to send, else
idle (R319, R321, R327). -/
def State.fillWord (s : State) (p n : Nat) : State :=
  let x := s.lane n
  if x.part != [] then s.setLane n (x.begin x.part)
  else if s.lst n != 6 || 0 < x.upTs then s.setLane n ({ x with upTs := x.upTs - 1, doneTx := x.doneTx || x.done }.begin (s.tsNow p n))
  else let (y, ws) := s.idleSet n; s.setLane n (y.begin ws)

/-- Some such words. -/
def State.fillWords (p n : Nat) : Nat → State → State
  | 0, s => s
  | k + 1, s => State.fillWords p n k (s.fillWord p n)

/-- A transmitter of a port sends up to its next grout set, and that (R315). -/
def State.sendGrout (p : Nat) (s : State) (n : Nat) : State :=
  let s1 := s.setLane n { s.lane n with tx := [] }
  let s2 := State.fillWords p n (255 - (s1.lane n).slot) s1
  s2.setLane n (s2.lane n).emitGrout

/-- The transmitters of a port that are not in electrical idle. -/
def State.sending (s : State) (p : Nat) : List Nat :=
  (s.portLanes p).filter fun n => s.lst n != 7 && s.lanePort n == some p && !(s.lane n).quiet

/-- The words of one lane's share of a frame, and a word of K28.5 where the share is a word shorter than another lane's (R311; DESIGN CHOICE,
notes/assumptions/123.md). -/
def State.sendShare (s : State) (n rows : Nat) (ws : List (List Sym)) : State :=
  s.setLane n ((ws ++ List.replicate (rows - ws.length) (List.replicate 4 Sym.comma)).foldl Lane.emitWord (s.lane n))

/-- A frame in words; K28.5 fills the last one (R311, R313). -/
def frameWords (ys : List Sym) : List (List Sym) := (wordsOf4 ys).map fun w => w ++ List.replicate (4 - w.length) .comma

/-- The words of a lane before a hod may begin: the rest of a set begun, and the training sets still due (R319, R321, R327). -/
def Lane.ahead (x : Lane) : Nat := 4 * x.upTs + x.part.length / 4

/-- A frame leaves a port: first, on every lane, what stands before it; then its words on the port's lanes in turn from port lane 0 on (R311, R319,
R327, R372). -/
def State.putFrame (s : State) (p : Nat) (ys : List Sym) : State :=
  let ls := s.txLanes p
  let ws := frameWords ys
  let rows := ceilDiv ws.length (max 1 ls.length)
  let k := (ls.map fun n => (s.lane n).ahead).foldl max 0
  let s1 := s.each ls fun s n => State.fillWords p n k s
  s1.each (ls.zip (range' 0 ls.length)) fun s x => s.sendShare x.1 rows (laneWords ls.length x.2 ws)

/-- A hod leaves a port (R339). -/
def State.putLine (s : State) (p : Nat) (h : Hod) : State := s.putFrame p h.frame

/-! ### What a lane receives (R311 to R314, R317) -/

/-- A symbol is data-bearing (R320). -/
def Sym.isData : Sym → Bool
  | .d _ => true
  | _ => false

/-- Data-bearing symbols end a freeze of a lane's adaptation, in whatever state they come (R320). -/
def State.thawLane (s : State) (n : Nat) (ys : List Sym) : State := if ys.any Sym.isData then s.setF (F.LANE_EQ_FROZEN n) 0 else s

/-- What a slipped elastic buffer loses, up to the next grout set, is error markers for the link layer (R317). -/
def slipLoss (slipped : Bool) (ys : List Sym) : List Sym :=
  if slipped then (ys.takeWhile fun y => y != .fill).map (fun _ => .bad false) ++ ys.dropWhile fun y => y != .fill else ys

/-- One lane's received groups: decoded, counted, and handed on without grout, as words of the lane. -/
def State.rxLane (s : State) (n : Nat) (l : LineIn) : State × List (List Sym) :=
  let ys := readLine (s.b (F.LANE_STAT_RX_INV n)) l.neg l.groups
  ((s.countBad n ys).thawLane n ys, wordsOf4 (ungrout (slipLoss (s.lane n).slipped ys)))

/-- The received lines of a port, one for each of its lanes, lowest lane first, put together into the hods of its stream (R311, R313). -/
def State.rxPort (s : State) (p : Nat) (ls : List LineIn) : State × List Arrival :=
  let lanes := s.lanesIn p 6
  let got := (lanes.zip ls).map fun x => (s.rxLane x.1 x.2).2
  let s1 := s.each (lanes.zip ls) fun s x => (s.rxLane x.1 x.2).1
  let stream := weave (((got.map List.length).foldl max 0)) (if s.reversed p then got.reverse else got)
  (s1, framesOf none stream.flatten)

/-! ### The planes of a stamp (R371, R372) -/

/-- An instant of ST from an integer, modulo its range. -/
def stOf (t : Int) : Nat := (t % (stMod : Nat)).toNat

/-- A transmit stamp: the ST at the serialiser, with the hub's latency to the ball and the board's delay of port lane 0 (R371, R372). -/
def State.txStamp (s : State) (p t : Nat) : Nat :=
  let n := (s.txLanes p).headD (laneBase p)
  stOf ((t : Int) + Config.txLat (s.f (F.QUAD_CTL_RATE (p / 2))) + ofPs (s.sw (R.LANE_TS_TX n)))

/-- A receive stamp: the ST at the deserialiser, less the hub's latency from the ball and the board's delay of the lane that carries stream lane 0
(R371, R372). -/
def State.rxStamp (s : State) (p t : Nat) : Nat :=
  let n := (s.rxLanes p).headD (laneBase p)
  stOf ((t : Int) - Config.rxLat (s.f (F.QUAD_CTL_RATE (p / 2))) - ofPs (s.sw (R.LANE_TS_RX n)))

end Sys2Proof.Machine
end

