-- ==== Sys2Proof/Machine/LinkOps.lean ====
section
/-!
DEFINITION. The link layer's shared operations: credits (R347, R348), the replay buffer (R342, R346), LINKCTL hods (R345), waiting hods (R349), what
a port loses when it leaves UP (R352), the hub tree (R21, R22, R365 to R367) and completions (R356, R357).
-/

namespace Sys2Proof.Machine

/-- A port's link layer. -/
def State.port (s : State) (p : Nat) : Port := Tab.get (fun _ => Port.init) s.ports p

/-- It replaced. -/
def State.setPort (s : State) (p : Nat) (x : Port) : State := { s with ports := Tab.set (fun _ => Port.init) s.ports p x }

/-- The state of a port: 0 OFF, 1 TRAINING, 2 UP (QUAD_STAT.PS). -/
def State.pstate (s : State) (p : Nat) : Nat := if p % 2 = 0 then s.f (F.QUAD_STAT_PS0 (p / 2)) else s.f (F.QUAD_STAT_PS1 (p / 2))

/-- It replaced. -/
def State.setPstate (s : State) (p v : Nat) : State :=
  if p % 2 = 0 then s.setF (F.QUAD_STAT_PS0 (p / 2)) v else s.setF (F.QUAD_STAT_PS1 (p / 2)) v

/-- A port is UP. -/
def State.portUp (s : State) (p : Nat) : Bool := s.pstate p == 2

/-- The primary UP port (R364). -/
def State.primary (s : State) : Nat := s.f F.LINK_CFG_PRIMARY

/-- This hub's HID (R19). -/
def State.hid (s : State) : Nat := s.f F.LINK_STAT_HID

/-- A count per class. -/
def cnt (t : Tab Nat) (c : Nat) : Nat := Tab.get (fun _ => 0) t c

/-- It replaced. -/
def setCnt (t : Tab Nat) (c v : Nat) : Tab Nat := Tab.set (fun _ => 0) t c v

/-! ### Credits and sending -/

/-- The credit class of a hod that this hub sends on a port (R347). -/
def State.classOf (s : State) (p : Nat) (h : Hod) : Nat :=
  if s.role p = 1 then if h.hid = s.hid then (if h.vc = 3 then 0 else h.vc) else 3
  else if 2 ≤ h.vc then 0 else h.vc

/-- The class that the partner charged for a hod that arrived on a port (R347). -/
def State.inClass (s : State) (p : Nat) (h : Hod) : Nat :=
  if h.typ = 4 then 1
  else if s.role p = 2 then
    if s.b (F.PL_PEER_VALID p) && h.hid == s.f (F.PL_PEER_HID p) then (if h.vc = 3 then 0 else h.vc) else 3
  else if 2 ≤ h.vc then 0 else h.vc

/-- The hods of a class that a port may still send (R348). -/
def Port.credit (x : Port) (c : Nat) : Nat := (cnt x.lim c + 65536 - cnt x.sent c) % 65536

/-- Credit of a class is there: (LIMIT − SENT) mod 65,536 lies from 1 to 32,767 (R348). -/
def Port.hasCredit (x : Port) (c : Nat) : Bool := decide (1 ≤ x.credit c) && decide (x.credit c ≤ 32767)

/-- A port may send a new sequenced hod of a class (R342, R348). -/
def State.canSend (s : State) (p c : Nat) : Bool :=
  s.portUp p && (s.port p).gotLink && (s.port p).hasCredit c && decide ((s.port p).replay.length < 128)

/-- A hod goes out on a port's lanes (R339). -/
def State.transmit (s : State) (p : Nat) (h : Hod) : State := (s.setPort p { s.port p with lastTx := some h }).putLine p h

/-- A port sends a new sequenced hod: it takes the next LSEQ and stays in the replay buffer (R342, R348). -/
def State.sendHod (s : State) (p c : Nat) (h : Hod) : State :=
  let n := s.f (F.PL_STAT_TX_NEXT p)
  let h1 := { h with lseq := n }
  let x := s.port p
  let s1 := s.setPort p { x with
    sent := setCnt x.sent c ((cnt x.sent c + 1) % 65536), replay := x.replay ++ [h1], last3 := if 2 ≤ c then c == 3 else x.last3 }
  (s1.setF (F.PL_STAT_TX_NEXT p) ((n + 1) % 4096)).transmit p h1

/-- A port frees a buffer of a class (R348). -/
def State.freeBuf (s : State) (p c : Nat) : State :=
  let x := s.port p
  s.setPort p { x with freed := setCnt x.freed c ((cnt x.freed c + 1) % 65536) }

/-- A transmit stamp joins a port's queue; one that finds it full is dropped (R378). -/
def State.tsqPut (s : State) (p : Nat) (exch : Bool) (tsid stamp : Nat) : State :=
  let q := Tab.get (fun _ => []) s.tsq p
  if 8 ≤ q.length then
    (s.bump (F.TSQ_STAT_DROP p) 1).when (!wbit (s.w R.TT_EVT) 8) fun s => s.raiseBit R.TT_EVT 8 0x0218 0 p
  else { s with tsq := Tab.set (fun _ => []) s.tsq p (q ++ [(exch, tsid, stamp)]) }

/-- A stamp as three words of a TIME hod: seconds, nanoseconds, sub-nanoseconds (R373). -/
def stampWords (t : Nat) : List Word :=
  [BitVec.ofNat 32 (t / secU), BitVec.ofNat 32 (t % secU / nsU), BitVec.ofNat 32 (t % nsU * 65536)]

/-- A port may send a TIME hod (R348): it is not sequenced, and takes a VC1 credit. -/
def State.canTime (s : State) (p : Nat) : Bool := s.portUp p && (s.port p).gotLink && (s.port p).hasCredit 1

/-- A TIME hod leaves a port, its K23.7 crossing the serialiser at the ST `t`; its stamp is t3 in a T_RESP and an entry of the queue (R371, R372, R378). -/
def State.sendTime (s : State) (p : Nat) (h : Hod) (t : Nat) : State :=
  let stamp := s.txStamp p t
  let msg := bits h.sub 12 10
  let tsid := bits h.sub 7 0
  let h1 := if msg = 1 then { h with payload := h.payload.take 4 ++ stampWords stamp } else h
  let x := s.port p
  let s1 := (s.setPort p { x with sent := setCnt x.sent 1 ((cnt x.sent 1 + 1) % 65536) }).transmit p h1
  s1.when (msg == 2 || s.b F.TT_CTL_TSQ_ALL) fun s => s.tsqPut p (msg != 2) tsid stamp

/-- A STREAM hod of a port's ring could leave now (R270, R349). -/
def State.streamReady (s : State) (p : Nat) : Bool :=
  s.role p == 1 && s.mode != 5 && s.canSend p 2 && (s.ring p).hods.any fun h => h.yseq == (s.w (R.RING_TSEQ p)).toNat

/-- A queued event could leave now, and goes before every VC2 and VC3 hod of the port (R349, R363). -/
def State.eventDue (s : State) (p : Nat) : Bool := p == s.primary && s.role p == 1 && s.evtq != [] && s.canSend p 0

/-- A waiting hod may leave: a TIME hod, or a sequenced one that no queued event comes before; a relayed hod only on the primary UP port, and by turns
with the STREAM hods (R24, R348, R349, R363). -/
def State.maySend (s : State) (p : Nat) (w : Wait) : Bool :=
  if w.hod.typ = 4 then s.canTime p
  else
    s.canSend p w.cls && w.ahead == 0
      && (w.cls != 3 || (p == s.primary && s.role p == 1 && !s.eventDue p && !((s.port p).last3 && s.streamReady p)))

/-- The waiting hods sent as far as they may leave: a hod that may not is passed over, and every later one of its class with it (R349). A TIME hod that
has waited takes an instant that nothing here tells. -/
def State.pumpGo (s : State) (p : Nat) : List Nat → List Wait → State × List Wait
  | _, [] => (s, [])
  | blocked, w :: r =>
    if blocked.contains w.cls || !s.maySend p w then
      let (s1, r1) := s.pumpGo p (w.cls :: blocked) r
      (s1, w :: r1)
    else if w.hod.typ = 4 then
      let (s1, d) := s.draw 64
      (s1.sendTime p w.hod (s.st + d)).pumpGo p blocked r
    else
      let s1 := s.sendHod p w.cls w.hod
      let s2 := match w.from_ with
        | some q => s1.freeBuf q (s1.inClass q w.hod)
        | none => s1
      s2.pumpGo p blocked r

/-- Waiting hods in the order of R349: TIME hods, then VC0, then the others, each class in the order in which its hods became ready. -/
def inOrder (ws : List Wait) : List Wait :=
  let time (w : Wait) : Bool := w.hod.typ == 4
  ws.filter time ++ (ws.filter fun w => !time w && w.cls == 0) ++ ws.filter fun w => !time w && w.cls != 0

/-- A port that is UP sends the hods that wait for it (R349). -/
def State.pump (s : State) (p : Nat) : State :=
  let (s1, ws) := s.pumpGo p [] (inOrder (s.port p).waiting)
  s1.setPort p { s1.port p with waiting := ws }

/-- A relayed hod that has failed its checks after its copy had begun to leave: K30.7 ends the copy, which takes no LSEQ and no credit. One that had to wait
has no copy (R368). -/
def State.abortRelay (s : State) (from_ : Nat) (h : Hod) : State :=
  let p := s.primary
  let now := s.maySend p ⟨3, some from_, 0, h⟩ && !(s.port p).waiting.any fun w => w.cls == 3
  s.when now fun s => s.putFrame p { h with lseq := s.f (F.PL_STAT_TX_NEXT p) }.aborted

/-- A relayed hod is ready for the primary UP port; while that port is not UP the hod stays in its buffer (R24 to R26). -/
def State.relay (s : State) (from_ : Nat) (h : Hod) : State :=
  let p := s.primary
  (s.setPort p { s.port p with waiting := (s.port p).waiting ++ [⟨3, some from_, 0, h⟩] }).pump p

/-- A hod is ready for a port (R349); a CPL behind the events that its port has still to send. The CPL of a request whose port has left UP is discarded
and counted (R352). -/
def State.enqueue (s : State) (p : Nat) (from_ : Option Nat) (h : Hod) : State :=
  if !s.portUp p then s.when (h.typ == 2) fun s => s.bump (F.PL_DROP_CPL p) 1
  else
    let c := s.classOf p h
    let n := if c = 0 ∧ p = s.primary ∧ s.role p = 1 then s.evtq.length else 0
    (s.setPort p { s.port p with waiting := (s.port p).waiting ++ [⟨c, from_, n, h⟩] }).pump p

/-- A hod that is not sequenced leaves on a port. -/
def State.sendPlain (s : State) (p : Nat) (h : Hod) : State := s.transmit p h

/-- PRIMARY names another port: the relayed hods that wait go with it (R24, R364). -/
def State.movePrimary (s : State) (old : Nat) : State :=
  let rel (w : Wait) : Bool := w.cls == 3 && w.from_.isSome
  let ws := (s.port old).waiting.filter rel
  if s.primary = old then s
  else
    let s1 := s.setPort old { s.port old with waiting := (s.port old).waiting.filter fun w => !rel w }
    s1.setPort s.primary { s1.port s.primary with waiting := (s1.port s.primary).waiting ++ ws }

/-! ### LINKCTL hods (R344, R345) -/

/-- A LINKCTL hod of this hub. -/
def State.linkctl (s : State) (kind : Nat) (ws : List Word) : Hod :=
  { typ := 0, vc := 0, flags := kind, hid := s.hid, sub := 0, lseq := 0, payload := ws }

/-- The buffers of a class that the hub offers each port (R348). -/
def offer (c : Nat) : Nat := if c = 0 then 16 else if c = 1 then 4 else 32

/-- No VC3 credit is granted on a DOWN port: the primary UP port is not UP or has no longer that role, the hub is at depth 8, or relaying on the port has stopped
(R22, R26, R367; the last DESIGN CHOICE, notes/assumptions/128.md). -/
def State.withheld (s : State) (p : Nat) : Bool :=
  s.role p == 2 && (!s.portUp s.primary || s.role s.primary != 1 || s.f F.LINK_STAT_DEPTH == 8 || (s.port p).conflict)

/-- LIMIT of a class as the hub reports it on a port (R26, R348). -/
def State.limit (s : State) (p c : Nat) : Nat :=
  if c == 3 && s.withheld p then (s.port p).taken % 65536 else (cnt (s.port p).freed c + offer c) % 65536

/-- The payload of a LINK hod (R345). -/
def State.linkWords4 (s : State) (p : Nat) (nak : Bool) : List Word :=
  let e := s.f (F.PL_STAT_RX_NEXT p)
  [BitVec.ofNat 32 (b2n nak * 2 ^ 31 + (if nak then e else (e + 4095) % 4096)), BitVec.ofNat 32 (s.limit p 0 * 65536 + s.limit p 1),
    BitVec.ofNat 32 (s.limit p 2 * 65536 + s.limit p 3)]

/-- A port sends a LINK hod (R344). -/
def State.sendLink (s : State) (p : Nat) (nak : Bool) : State :=
  let s1 := s.sendPlain p (s.linkctl 0 (s.linkWords4 p nak))
  s1.setPort p { s1.port p with unacked := 0, nakSent := (s1.port p).nakSent || nak }

/-- A NAK, unless one has been sent since the last acceptance (R343). -/
def State.nak (s : State) (p : Nat) : State := if (s.port p).nakSent then s else s.sendLink p true

/-- This hub's HELLO on a port (R345, R365). -/
def State.sendHello (s : State) (p : Nat) : State :=
  let w := b2n (s.role p == 1 && p == s.primary) * 2 ^ 30 + s.f F.LINK_STAT_DEPTH * 2 ^ 24 + p * 2 ^ 20 + s.hid
  s.sendPlain p (s.linkctl 1 [BitVec.ofNat 32 w, 0x03840001])

/-- DEPTH changes, and HELLO goes out again on every port that is UP (R365). -/
def State.setDepth (s : State) (d : Nat) : State :=
  if d = s.f F.LINK_STAT_DEPTH then s
  else (s.setF F.LINK_STAT_DEPTH d).each ((range' 0 16).filter fun p => s.portUp p) fun s p => s.sendHello p

/-! ### The hub tree -/

/-- A list of HIDs in a ROUTE_ADD (2) or ROUTE_DEL (3) on the primary port, where it has the role UP (R366). -/
def State.sendRoutes (s : State) (kind : Nat) (hids : List Nat) : State :=
  if hids = [] || !s.portUp s.primary || s.role s.primary != 1 then s
  else s.sendPlain s.primary (s.linkctl kind ((hids.take 63).map fun h => BitVec.ofNat 32 h))

/-- The valid entries of the descendant table (R21). -/
def State.descs (s : State) : List Nat := (range' 0 63).filter fun k => s.b (F.DESC_VALID k)

/-- A link event that is logged when its bit goes from 0 to 1 (R350, R351). -/
def State.linkOnce (s : State) (i code src detail : Nat) : State :=
  if wbit (s.w R.LINK_EVT) i then s else s.raiseBit R.LINK_EVT i code src detail

/-- One advertised HID on a DOWN port (R21, R22); answers whether an entry was added. -/
def State.addRoute (s : State) (p hid : Nat) : State × Bool :=
  let same := s.descs.find? fun k => s.f (F.DESC_HID k) == hid
  let conflict : Bool := hid == s.hid || match same with
    | some k => s.f (F.DESC_PORT k) != p
    | none => false
  if conflict then ((s.setPort p { s.port p with conflict := true }).raiseBit R.LINK_EVT 5 0x0910 p hid, false)
  else if same.isSome then (s, false)
  else match (range' 0 63).find? fun k => !s.b (F.DESC_VALID k) with
    | none => (s.raiseBit R.LINK_EVT 6 0x0911 p hid, false)
    | some k => (s.setW (R.DESC k) (BitVec.ofNat 32 (2 ^ 31 + p * 2 ^ 24 + hid)), true)

/-- Advertised HIDs on a DOWN port; those added go out in a ROUTE_ADD (R366, R367). -/
def State.addRoutes (s : State) (p : Nat) (hids : List Nat) : State :=
  if s.f F.LINK_STAT_DEPTH = 8 then s
  else
    let (s1, new) := hids.foldl (fun (a : State × List Nat) h =>
      let (t, ok) := a.1.addRoute p h
      (t, if ok then a.2 ++ [h] else a.2)) (s, [])
    s1.sendRoutes 2 new

/-- Entries of a DOWN port cleared, all of them or those named; a ROUTE_DEL lists them (R21, R366). -/
def State.delRoutes (s : State) (p : Nat) (named : Nat → Bool) : State :=
  let ks := s.descs.filter fun k => s.f (F.DESC_PORT k) == p && named (s.f (F.DESC_HID k))
  let hids := ks.map fun k => s.f (F.DESC_HID k)
  (s.each ks fun s k => s.setW (R.DESC k) 0).sendRoutes 3 hids

/-! ### Reaching and leaving UP -/

/-- The link layer of a port starts when it reaches UP (R270, R342, R365, R367, R388, R389). -/
def State.linkUp (s : State) (p : Nat) : State :=
  let x := s.port p
  let s1 := ((s.setPort p { Port.init with waiting := x.waiting, reqs := x.reqs }).setF (F.PL_STAT_TX_NEXT p) 0).setF (F.PL_STAT_RX_NEXT p) 0
  let s2 := (s1.setW (R.PL_PEER p) 0).when (s1.role p == 1) fun s => s.setW (R.RING_TSEQ p) (s.w (R.RING_HSEQ p))
  let s3 := s2.when (s2.role p == 1 && p == s2.primary) fun s =>
    { s with servo := { s.servo with coastDev := s.servo.coastDev || s.f F.TT_STAT_STATE == 3, cnt1 := 0, cnt2 := 0 } }
  let s4 := s3.when (s3.role p == 2 && s3.f F.LINK_STAT_DEPTH == 8) fun s => s.raiseBit R.LINK_EVT 8 0x0913 p 0
  s4.sendHello p

/-- What a port loses when it leaves UP (R21, R352, R365, R381). The buffers of waiting hods that are discarded are freed; a request accepted still takes
effect. Relaying that HID_CONFLICT has stopped resumes with a port that leaves UP or reaches it again (DESIGN CHOICE, notes/assumptions/128.md). -/
def State.linkDown (s : State) (p : Nat) : State :=
  let x := s.port p
  let cpls := (x.waiting.filter fun w => w.hod.typ == 2 && w.from_.isNone).length
  let relays := (x.waiting.filter fun w => w.cls == 3).length
  let s0 := s.each x.waiting fun s w => match w.from_ with
    | some q => s.freeBuf q (s.inClass q w.hod)
    | none => s
  let s1 := (s0.bump (F.PL_DROP_CPL p) cpls).bump (F.PL_DROP_RELAY p) relays
  let s2 := ((s1.setPort p { Port.init with reqs := x.reqs.map fun r => { r with held := false } }).setF (F.PL_STAT_TX_NEXT p) 0).setF (F.PL_STAT_RX_NEXT p) 0
  let s3 := (s2.setW (R.PL_PEER p) 0).when (s2.role p == 2) fun s => s.delRoutes p fun _ => true
  s3.when (s3.role p == 1 && p == s3.primary) fun s =>
    let s1 := (s.setF F.LINK_STAT_PRIMARY_UP 0).setDepth 0
    s1.when (s1.f F.TIME_CTL_SRC == 2) State.srcLost

/-! ### Requests and completions (R353 to R359) -/

/-- The CPL of a request (R356). -/
def State.cplHod (s : State) (op tag : Nat) : Hod :=
  { typ := 2, vc := 0, flags := 0, hid := s.hid, sub := opTag op tag, lseq := 0
    payload := BitVec.ofNat 32 s.cpl.status.code :: (if s.cpl.status = .ok then s.cpl.data else []) }

/-- A request that is answered by a CPL. -/
def Reqd.tagged (r : Reqd) : Bool := r.typ == 1 || r.typ == 8

/-- The tags outstanding: of requests that have arrived and not taken effect, and of completions that wait to be sent (R357). -/
def State.tagsOut (s : State) : List Nat :=
  ((s.ports.flatMap fun q =>
    (q.2.reqs.filter Reqd.tagged).map Reqd.tag ++ q.2.waiting.filterMap fun w => if w.hod.typ == 2 && w.from_.isNone then some (w.hod.sub % 128) else none)).dedup

/-- The operations of REQ and PROGRAM hods (R207, R353). -/
def opListed (typ op : Nat) : Bool := if typ = 1 then [0, 1, 0x10, 0x11].contains op else decide (op ≤ 3)

/-- A request of a port leaves its place, and its VC0 buffer is free (R348). -/
def State.popReq (s : State) (p : Nat) : State :=
  match (s.port p).reqs with
  | [] => s
  | r :: rs => (s.setPort p { s.port p with reqs := rs }).when r.held fun s => s.freeBuf p 0

/-- A request has arrived and waits for its turn (R357, R358). -/
def State.pushReq (s : State) (p : Nat) (r : Reqd) : State := s.setPort p { s.port p with reqs := (s.port p).reqs ++ [r] }

/-- The completion of the command becomes ready on a port (R356, R358). -/
def State.answer (s : State) (p op tag : Nat) : State := s.enqueue p none (s.cplHod op tag)

/-- Requests with an OP that is not listed, once they are the oldest of their port: each completes with UNSUPPORTED (R353). -/
def State.serveUnlisted (p : Nat) : Nat → State → State
  | 0, s => s
  | n + 1, s =>
    match (s.port p).reqs with
    | r :: _ =>
      if r.tagged && !opListed r.typ r.op then State.serveUnlisted p n (((s.fin .unsupported).popReq p).answer p r.op r.tag) else s
    | [] => s

/-- The next requests of a port are served as far as they ask for nothing that exists; the completion of the command stays (R353, R358). -/
def State.serve (s : State) (p : Nat) : State := { State.serveUnlisted p (s.port p).reqs.length s with cpl := s.cpl }

/-- A hod in the wrong direction for its port is counted and discarded (R351). -/
def State.misdirect (s : State) (p hid : Nat) : State := (s.bump (F.PL_MISC_MISDIR p) 1).linkOnce 1 0x0902 p hid

/-- Two requests of a port are the same. -/
def Reqd.same (r x : Reqd) : Bool := x.typ == r.typ && x.op == r.op && x.tag == r.tag

/-- A port's oldest request takes effect and leaves, with `fin_` its completion, and those behind it are served. One whose effect begins an MRAM batch
stays open until the batch has ended (R358, R449); one that resets the hub leaves nothing to complete (R352, R437). -/
def State.runReq (s : State) (p : Nat) (r : Reqd) (eff fin_ : State → State) : State :=
  let t := eff s
  if s.began t then { t with owed := some p }
  else match (t.port p).reqs with
    | x :: _ => if r.same x then (fin_ (t.popReq p)).serve p else t
    | [] => t

/-- A hod of the request kinds takes effect (R348, R351, R358): at once where its port has none before it; where HOD_ARRIVAL has brought it, when it is the
oldest of its port, and its buffer is free then. One that no HOD_ARRIVAL has brought arrives with this command, is discarded on a DOWN port, and waits
behind those before it. While it takes effect its tag is outstanding (R357). -/
def inTurn (p : Nat) (r : Reqd) (eff fin_ : State → State) (s : State) : State :=
  match (s.port p).reqs with
  | [] => if s.role p = 2 then s.misdirect p s.hid else (s.pushReq p r).runReq p r eff fin_
  | x :: rs =>
    if r.same x then (if s.owed = some p then s else s.runReq p r eff fin_)
    else if rs.any r.same then s
    else if s.role p = 2 then s.misdirect p s.hid
    else s.pushReq p r

/-- A REQ (TYPE 1) or PROGRAM hod (TYPE 8) takes effect in its turn and is answered by a CPL on the port on which it arrived (R356 to R359). One whose tag is
still outstanding as it arrives completes at once with TAG (R357). -/
def request (typ p op tag : Nat) (eff : State → State) (s : State) : State :=
  let r : Reqd := ⟨typ, op, tag, false⟩
  if s.mode = 0 ∨ s.mode = 4 then s
  else if s.role p ≠ 2 && s.tagsOut.contains tag && !(s.port p).reqs.any r.same then (s.fin .tag).answer p op tag
  else inTurn p r eff (fun s => s.answer p op tag) s

/-- The oldest request of a port completes with the completion at hand (R358). -/
def State.endReq (s : State) (p : Nat) : State :=
  match (s.port p).reqs with
  | r :: _ => ((s.popReq p).when r.tagged fun s => s.answer p r.op r.tag).serve p
  | [] => s

/-- The pending request of the management port completes with the completion at hand, which is its RESULT (R417, R418). -/
def State.mgpResult (s : State) : State :=
  match s.mgp.pend with
  | some (cmd, wa, _) =>
    let bs := mgpResp 2 (cmd / 16) s.cpl.status.code wa (if cmd = 0x10 then (s.cpl.data.headD 0).toNat else 0)
    { s with mgp := { s.mgp with pend := none, res := some bs, last := some bs } }
  | none => s

/-- The request of a port below 16, or of the management port, completes, and no batch holds it open any more. -/
def State.endAccess (s : State) (who : Nat) : State :=
  let s1 := if who = 16 then s.mgpResult else s.endReq who
  s1.when (s.owed == some who) fun s => { s with owed := none }

end Sys2Proof.Machine
end

