-- ==== Sys2Proof/Machine/LaneOps.lean ====
section
/-!
DEFINITION. The lane layer's shared operations: a port's lanes (R308), starting, failing and leaving training (R327 to R330), and the decision of
ORDER (R323 to R325).
-/

namespace Sys2Proof.Machine

/-- The ports of a lane's quad that would use the lane and are not OFF. -/
def State.laneBusy (s : State) (n : Nat) : Bool :=
  [2 * (n / 4), 2 * (n / 4) + 1].any fun p => s.role p != 0 && (s.portLanes p).contains n

/-- A lane enters a state, with its counts of training sets cleared. -/
def State.toLst (s : State) (n v : Nat) : State :=
  let x := s.lane n
  (s.setLane n { x with n := 0, badRate := 0, badRole := 0, doneCnt := 0, done := false, doneTx := false, miss := 0 }).setF (F.LANE_STAT_STATE n) v

/-- A lane goes to OFF: electrical idle (R310). -/
def State.laneOff (s : State) (n : Nat) : State :=
  let s1 := (s.setLane n Lane.init).setF (F.LANE_STAT_STATE n) 7
  ((s1.setF (F.LANE_STAT_INPORT n) 0).setF (F.LANE_STAT_PORT n) 0).setF (F.LANE_STAT_PLANE n) 0

/-- A lane as it enters DETECT: a transmitter that was sending sends on, in step with its grout and its disparity, unless the back-off holds it in
electrical idle; one that leaves electrical idle beside others that were sending joins them in their word slot, with K28.5 up to the end of the set
that they have begun; the elastic buffer is what it is (R311, R312, R315, R317, R328; DESIGN CHOICE, notes/assumptions/123.md). -/
def Lane.toDetect (x : Lane) (quiet sending : Bool) (beside : Option Lane) : Lane :=
  let y := { Lane.init with quiet := quiet, slipped := x.slipped, idle := x.idle }
  if quiet then y
  else if sending then { y with txNeg := x.txNeg, slot := x.slot, part := x.part, grout := x.grout, tx := x.tx }
  else match beside with
    | some z => { y with slot := z.slot, part := z.part.map fun _ => Sym.comma }
    | none => y

/-- Every lane of a port enters DETECT; `quiet` while the back-off holds its transmitters in electrical idle (R327 to R330). -/
def State.toDetect (s : State) (p : Nat) (quiet : Bool) : State :=
  let on := s.sending p
  let beside := on.head?.map fun n => s.lane n
  let s1 := s.each (s.portLanes p) fun s n =>
    let s1 := (s.setLane n ((s.lane n).toDetect quiet (on.contains n) beside)).setF (F.LANE_STAT_STATE n) 0
    ((s1.setF (F.LANE_STAT_INPORT n) 1).setF (F.LANE_STAT_PORT n) p).setF (F.LANE_STAT_PLANE n) (n - laneBase p)
  let q := p / 2
  if p % 2 = 0 then ((s1.setPstate p 1).setF (F.QUAD_STAT_AW0 q) 0).setF (F.QUAD_STAT_REV0 q) 0
  else ((s1.setPstate p 1).setF (F.QUAD_STAT_AW1 q) 0).setF (F.QUAD_STAT_REV1 q) 0

/-- k of every lane of a port returns to 0 (R328). -/
def State.clearBackoff (s : State) (p : Nat) : State := s.each (s.portLanes p) fun s n => s.setF (F.LANE_STAT_BACKOFF n) 0

/-- A port with role UP or DOWN begins to train (R310, R327). -/
def State.trainPort (s : State) (p : Nat) : State := if s.lanesOn && s.role p != 0 then s.toDetect p false else s

/-- A port fails training (R328). The detail holds the port and the cause as LAST_FAIL codes it. -/
def State.failPort (s : State) (p cause : Nat) : State :=
  let s1 := s.each (s.portLanes p) fun s n =>
    let s1 := (s.bump (F.LANE_TRAIN_FAIL n) 1).setF (F.LANE_STAT_LAST_FAIL n) cause
    (s1.setF (F.LANE_EVT_TRAIN_FAIL n) 1).setF (F.LANE_STAT_BACKOFF n) (min 10 (s.f (F.LANE_STAT_BACKOFF n) + 1))
  (s1.toDetect p true).raise 0x0801 p (p * 2 ^ 32 + cause)

/-- A port leaves UP (R329, R352). Causes in the detail: 1 LOS or LOL, 2 alignment, 3 skew, 4 a training set, 5 the quad's PLL; a RETRAIN and what
acts as one log nothing. -/
def State.leaveUp (s : State) (p cause : Nat) (log : Bool) : State :=
  if !s.portUp p then s
  else
    let s1 := s.each (s.portLanes p) fun s n => s.setF (F.LANE_EVT_LANE_DOWN n) 1
    ((s1.toDetect p false).linkDown p).when log fun s => s.raise 0x0802 p (p * 2 ^ 32 + cause)

/-- A port goes to OFF: its role is written OFF, or the hub powers its lanes down (R327). -/
def State.portOff (s : State) (p : Nat) : State :=
  let up := s.portUp p
  let s1 := (s.each (s.portLanes p) State.laneOff).setPstate p 0
  let s2 := if p % 2 = 0 then (s1.setF (F.QUAD_STAT_AW0 (p / 2)) 0).setF (F.QUAD_STAT_REV0 (p / 2)) 0
    else (s1.setF (F.QUAD_STAT_AW1 (p / 2)) 0).setF (F.QUAD_STAT_REV1 (p / 2)) 0
  s2.when up fun s => s.linkDown p

/-- A port reaches UP: 16 training sets with STATE UP come before idle and hods, and before them one with DONE where a lane has sent none; DONE stays 1
(R327, R328). -/
def State.goUp (s : State) (p : Nat) : State :=
  let more := b2n ((s.lanesIn p 5).any fun n => !(s.lane n).doneTx)
  let s1 := s.each (s.lanesIn p 5) fun s n =>
    let s1 := s.toLst n 6
    (s1.setLane n { s1.lane n with done := true, doneTx := true, upTs := 16 + more }).bump (F.LANE_TRAIN_UP n) 1
  let s2 := ((s1.clearBackoff p).setPstate p 2).setBit (R.QUAD_EVT (p / 2)) (p % 2)
  (s2.linkUp p).raise 0x0804 p 0

/-- A port whose chosen lanes all send DONE and have read it four times in a row reaches UP (R327). -/
def State.tryUp (s : State) (p : Nat) : State :=
  let ls := s.lanesIn p 5
  if ls != [] && ls.all fun n => (s.lane n).done && decide (4 ≤ (s.lane n).doneCnt) then s.goUp p else s

/-- The port's chosen lanes enter EQ; a lane whose adaptation is held has converged (R320, R326, R327). -/
def State.toEq (s : State) (p : Nat) : State :=
  s.each (s.lanesIn p 4) fun s n =>
    let s1 := s.toLst n 5
    s1.setLane n { s1.lane n with done := s1.b (F.LANE_EQ_HOLD n) }

/-! ### ORDER (R323 to R325) -/

/-- The aligned groups of a width among the lanes of a port, as offsets: k × W′ on. -/
def groups (w : Nat) (wp : Nat) : List (List Nat) := (range' 0 (2 ^ w / 2 ^ wp)).map fun k => range' (k * 2 ^ wp) (2 ^ wp)

/-- The first aligned group of the largest width, from `w` down, all of whose lanes hold. -/
def bestGroup (w : Nat) (ok : Nat → Bool) : Nat → Option (List Nat)
  | 0 => (groups w 0).find? fun g => g.all ok
  | n + 1 => match (groups w (n + 1)).find? fun g => g.all ok with
    | some g => some g
    | none => bestGroup w ok n

/-- The mapping of the chosen lanes, by offset and the index they received: straight, reversed, or none (R323). -/
def mapping (w : Nat) (ms : List (Nat × Option Nat)) : Option Bool :=
  if ms.all fun m => m.2 == some m.1 then some false
  else if ms.all fun m => m.2 == some (2 ^ w - 1 - m.1) then some true
  else none

/-- The lanes that the port takes: at the DOWN end the largest aligned trained group, at the UP end the lanes with SEL, which form an aligned group
(R325). -/
def State.chooseLanes (s : State) (p : Nat) : Option (List Nat) :=
  let b := laneBase p
  let w := s.widthCode p
  let trained (j : Nat) : Bool := (s.lanesIn p 3).contains (b + j)
  if s.role p = 2 then bestGroup w trained w
  else
    let sel := (range' 0 (2 ^ w)).filter fun j => trained j && (s.lane (b + j)).sel
    ((range' 0 (w + 1)).flatMap fun n => groups w n).find? fun g => g == sel

/-- The latest of some lanes came no more than 24 symbols after the earliest (R324). -/
def State.skewOk (s : State) (lanes : List Nat) : Bool :=
  lanes.all fun n => lanes.all fun k => decide ((s.lane n).late ≤ (s.lane k).late + 24)

/-- The port passes ORDER with a set of lanes, straight or reversed, or fails with a cause (R324, R325). -/
def State.passOrder (s : State) (p : Nat) (rev : Bool) (js : List Nat) : State :=
  let b := laneBase p
  let w := s.widthCode p
  let lanes := js.map fun j => b + j
  let narrow := decide (js.length < 2 ^ w)
  if !s.skewOk lanes then s.failPort p 4
  else if narrow && !(s.narrowOk p && lanes.all fun n => (s.lane n).narrow) then s.failPort p 5
  else
    let sel := s.role p == 2
    let s1 := s.each (s.portLanes p) fun s n =>
      if lanes.contains n then let s1 := s.toLst n 4; s1.setLane n { s1.lane n with selTx := sel } else s.laneOff n
    let aw := clog2 js.length
    let s2 := if p % 2 = 0 then (s1.setF (F.QUAD_STAT_AW0 (p / 2)) aw).setF (F.QUAD_STAT_REV0 (p / 2)) (b2n rev)
      else (s1.setF (F.QUAD_STAT_AW1 (p / 2)) aw).setF (F.QUAD_STAT_REV1 (p / 2)) (b2n rev)
    s2.when narrow fun s => s.raiseBit (R.QUAD_EVT (p / 2)) (2 + p % 2) 0x0805 p 0

/-- What the trained lanes of a port received says of the partner: the widths differ (cause 5), no mapping fits (cause 3), or the mapping (R323). -/
def State.partnerMap (s : State) (p : Nat) : Except Nat Bool :=
  let w := s.widthCode p
  let trained := s.lanesIn p 3
  if !trained.all fun n => (s.lane n).width == w then .error 5
  else match mapping w (trained.map fun n => (n - laneBase p, (s.lane n).idx)) with
    | none => .error 3
    | some rev => .ok rev

/-- The limit of ORDER has passed: 2 ms from the first lane's entry at the DOWN end, 4 ms in ORDER at the UP end (R325). -/
def State.orderUp (s : State) (p first own : Nat) : Bool := if s.role p = 2 then decide (2000 ≤ first) else decide (4000 ≤ own)

/-- The port's decision in ORDER: it fails as soon as a trained lane shows unequal widths or another mapping; else it decides once its group is known, or
when the limit of R325 passes (R323 to R325). -/
def State.orderDecide (s : State) (p : Nat) (timeUp : Bool) : State :=
  if s.lanesIn p 3 = [] then s
  else match s.partnerMap p with
    | .error c => s.failPort p c
    | .ok rev =>
      if s.role p = 2 && !timeUp && (s.lanesIn p 3).length < 2 ^ s.widthCode p then s
      else match s.chooseLanes p with
        | some js => s.passOrder p rev js
        | none => if timeUp then s.failPort p 3 else s

/-- Data-bearing symbols arrive on a port: adaptation resumes on its lanes unless software holds it (R320). -/
def State.thaw (s : State) (p : Nat) : State := s.each (s.portLanes p) fun s n => s.setF (F.LANE_EQ_FROZEN n) 0

/-! ### Quad control (R305 to R309, R328, R330) -/

/-- The ports with role UP after a write of QUAD_CTL[q]. -/
def State.upPorts (s : State) (q : Nat) (v : Word) : Nat :=
  ((range' 0 16).filter fun p =>
    if p = 2 * q then bits v.toNat 13 12 == 1 else if p = 2 * q + 1 then bits v.toNat 15 14 == 1 else s.role p == 1).length

/-- Why a write of QUAD_CTL is refused. -/
def State.quadStop (s : State) (q : Nat) (v : Word) : Option Status :=
  let x := v.toNat
  let rate := bits x 2 0
  let w0 := bits x 9 8
  let w1 := bits x 11 10
  let r0 := bits x 13 12
  let r1 := bits x 15 14
  let p := 2 * q
  let lb (w base : Nat) : Bool := (range' base (2 ^ w)).any fun n => s.f (F.LANE_CTL_LB n) != 0
  if rate = 7 ∨ w0 = 3 ∨ 2 ≤ w1 ∨ r0 = 3 ∨ r1 = 3 ∨ (w0 = 2 ∧ r1 ≠ 0) ∨ 8 < s.upPorts q v then some .unsupported
  else if (s.role p ≠ 0 ∨ s.role (p + 1) ≠ 0) ∧ (rate ≠ s.f (F.QUAD_CTL_RATE q) ∨ w0 ≠ s.widthCode p ∨ w1 ≠ s.widthCode (p + 1)) then some .busy
  else if s.role p = 0 ∧ r0 ≠ 0 ∧ lb w0 (4 * q) then some .busy
  else if s.role (p + 1) = 0 ∧ r1 ≠ 0 ∧ lb w1 (4 * q + 2) then some .busy
  else none

/-- One port after a write of its role and RETRAIN; `old` is the role before (R328 to R330). -/
def State.roleWritten (s : State) (p old : Nat) (retrain : Bool) : State :=
  let s1 := s.clearBackoff p
  if s1.role p ≠ old then s1.trainPort p
  else if !retrain || s1.role p == 0 then s1
  else if s1.portUp p then s1.leaveUp p 6 false
  else s1.trainPort p

/-- A write of QUAD_CTL, whichever row of the table it comes by. A quad whose ports are both OFF is powered down, its PLL with it (R458;
notes/assumptions/111.md). -/
def quadCtl (r : Req) (q : Fin 8) (v : Word) (s : State) : State :=
  regWrite r (R.QUAD_CTL q.val) noLock (fun s =>
    match s.quadStop q.val v with
    | some c => s.fin c
    | none =>
      let p := 2 * q.val
      let o0 := s.role p
      let o1 := s.role (p + 1)
      let s1 := s.when (o0 != 0 && bits v.toNat 13 12 != o0) fun s => s.portOff p
      let s2 := s1.when (o1 != 0 && bits v.toNat 15 14 != o1) fun s => s.portOff (p + 1)
      let s3 := s2.setW (R.QUAD_CTL q.val) (v &&& 0x0003FF07)
      let s4 := s3.when (bits v.toNat 15 12 == 0) fun s => s.setF (F.QUAD_STAT_PLL_LOCK q.val) 0
      ((s4.roleWritten p o0 (wbit v 24)).roleWritten (p + 1) o1 (wbit v 25)).fin .ok) s

/-! ### PRBS (R333 to R335) -/

/-- Why a write of PRBS_CTL is refused; `n` is lane 0 of the quad. -/
def State.prbsStop (s : State) (n : Nat) (v : Word) : Option Status :=
  let gen := s.b (F.PRBS_CTL_GEN_EN n)
  let running := gen || s.b (F.PRBS_CTL_CHK_EN n)
  if wbit v 9 ∧ bits v.toNat 23 16 = 0 then some .unsupported
  else if (wbit v 0 ∨ wbit v 1) ∧ s.laneBusy n then some .busy
  else if running ∧ bits v.toNat 6 4 ≠ bits (s.w (R.PRBS_CTL n)).toNat 6 4 then some .busy
  else if gen ∧ (wbit v 8 ∨ wbit v 9) ∧ s.b (F.PRBS_STAT_INJ_PEND n) then some .busy
  else none

/-- A write of PRBS_CTL, whichever row of the table it comes by. -/
def prbsCtl (r : Req) (q : Fin 8) (v : Word) (s : State) : State :=
  let n := 4 * q.val
  regWrite r (R.PRBS_CTL n) noLock (fun s =>
    match s.prbsStop n v with
    | some c => s.fin c
    | none =>
      let gen := s.b (F.PRBS_CTL_GEN_EN n)
      let chk := s.b (F.PRBS_CTL_CHK_EN n)
      let inj := (if wbit v 8 then [1] else []) ++ if wbit v 9 then [bits v.toNat 23 16] else []
      let s1 := s.when (gen && inj != []) fun s =>
        (s.setF (F.PRBS_STAT_INJ_PEND n) 1).setPrbs q.val { s.prbsOf q.val with inject := inj }
      let s2 := s1.setW (R.PRBS_CTL n) (v &&& 0x00FF0073)
      let s3 := s2.when (!gen && wbit v 0) fun s => s.setPrbs q.val ((s.prbsOf q.val).start q.val (polyOf (bits v.toNat 5 4)).1)
      let s4 := s3.when (wbit v 1) fun s => (s.setW (R.PRBS_ERR n) 0).setTwo (R.PRBS_BITS n) 0
      let s5 := s4.when (wbit v 1 && !chk) fun s => s.setPrbs q.val { s.prbsOf q.val with chk := Chk.init }
      (s5.when (!(wbit v 1) || !chk) fun s => s.setF (F.PRBS_STAT_LOCK n) 0).fin .ok) s

end Sys2Proof.Machine
end

