-- ==== Sys2Proof/Machine/ResetOps.lean ====
section
/-!
DEFINITION. Reset: what each source keeps (R437), a batch cut by a deferred reset (R442), the effect of a reset, a lockup (R437), and the reset of
one block (R452, R475).
-/

namespace Sys2Proof.Machine

/-! ### MRAM batches at a reset (R442) -/

/-- POR and BOR: the sequencer completes the whole batch on the hold-up energy. -/
def State.finishBatch (s : State) : State :=
  match s.nv with
  | none => s
  | some b => { s.writeRows b b.rows.length with nv := none }

/-- The other sources: the reset waits for the pulse in progress, the `n`-th, and the rows after it are not written (R442). A parameter slot that is whole
then puts its change into force (R407). -/
def State.cutBatch (s : State) (n : Nat) : State :=
  match s.nv with
  | none => s
  | some b =>
    let k := min (max 1 n) b.rows.length
    let s1 := { s.writeRows b k with nv := none }
    let s2 := if b.writer != 5 then s1 else if k = b.rows.length then s1.csLate else { s1 with csPend := none }
    s2.when (decide (k < b.rows.length)) fun s => s.raiseBit R.RPC_EVT 1 0x0102 b.writer (b.writer * 2 ^ 32 + k)

/-! ### The reset of one block (R452) -/

/-- Half `h` of a word of the option record as the settings of a quad (R445). -/
def State.optQuad (s : State) (q x : Nat) : State :=
  let s1 := ((s.setF (F.QUAD_CTL_RATE q) (bits x 2 0)).setF (F.QUAD_CTL_W0 q) (bits x 5 4)).setF (F.QUAD_CTL_W1 q) (bits x 6 6)
  let s2 := (s1.setF (F.QUAD_CTL_ROLE0 q) (bits x 9 8)).setF (F.QUAD_CTL_ROLE1 q) (bits x 11 10)
  (s2.setF (F.QUAD_CTL_NARROW0 q) (bits x 12 12)).setF (F.QUAD_CTL_NARROW1 q) (bits x 13 13)

/-- A quad's settings are loaded from the record in force. -/
def State.loadQuad (s : State) (q : Nat) : State :=
  let x := (s.w (R.OPT_CUR (4 + q / 2))).toNat
  s.optQuad q (if q % 2 = 0 then bits x 15 0 else bits x 31 16)

/-- Registers at their reset values. -/
def State.dropRegs (s : State) (p : Nat → Bool) : State := { s with regs := s.regs.filter fun x => !p x.1 }

/-- Bytes of a memory back at zero. -/
def State.dropMem (s : State) (a n : Nat) : State :=
  { s with
    mem := s.mem.filter fun x => !(decide (a ≤ x.1) && decide (x.1 < a + n))
    bad := s.bad.filter fun x => !(decide (a ≤ x) && decide (x < a + n)) }

/-- A tile at its POR state (R73, R467). -/
def State.porTile (s : State) (t : Nat) : State :=
  let s1 := (s.setTile t Tile.init).dropRegs (testCovers 1 t)
  ((s1.tileStop t (if s.live then 0 else 3)).showPairs t).csInForce

/-- The block that a kind and an index name returns to its POR state (R467). -/
def State.porBlock (s : State) (kind i : Nat) : State :=
  match kind with
  | 1 => s.porTile i
  | 2 =>
    let s1 := s.each (range' 0 8) fun s p => s.setPath (8 * i + p) Path.init
    (s1.each (range' 0 32) fun s d => s.setDet (32 * i + d) Det.init).dropRegs (testCovers 2 i)
  | 3 => ((s.setMason i Mason.init).dropMem (0x400000 + i * 0x40000) 0x30000).dropRegs (testCovers 3 i)
  | 6 => ({ s with hk := Hk.init }).dropRegs (testCovers 6 i)
  | 7 =>
    let s1 := s.each [2 * i, 2 * i + 1] fun s p => s.setPort p Port.init
    ({ s1 with lanes := s1.lanes.filter fun x => x.1 / 4 != i, prbs := s1.prbs.filter fun x => x.1 != i } : State).dropRegs (testCovers 7 i)
  | 8 => (s.setTu i Tu.init).dropRegs (testCovers 8 i)
  | 9 => let s1 := s.csClear; if s1.csOn then s1.csRestore else s1
  | 10 => s.dropMem (0x20000000 + i * 2 ^ 26) (2 ^ 26)
  | 11 => ({ s with tus := [], tgs := [] }).dropRegs (testCovers 11 i)
  | 12 => ({ s with pqs := [] }).dropRegs (testCovers 12 i)
  | 13 => ({ s with strs := [] }).dropRegs (testCovers 13 i)
  | _ => s.dropRegs (testCovers kind i)

/-- A tile at its POR state, but for its retired slices, its failed inputs, CAL_FROZEN and SPARE_FAILED (R452). -/
def State.resetTile (s : State) (t : Nat) : State :=
  let fl := s.w (R.TILE_FAILED t)
  let s1 := s.porTile t
  let s2 := ((s1.setTile t { s1.tile t with bad := (s.tile t).bad }).setW (R.TILE_RETIRE t) (s.w (R.TILE_RETIRE t))).setW (R.TILE_FAILED t) fl
  let s3 := (s2.setF (F.TILE_STAT_CAL_FROZEN t) (s.f (F.TILE_STAT_CAL_FROZEN t))).setF (F.TILE_STAT_SPARE_FAILED t) (s.f (F.TILE_STAT_SPARE_FAILED t))
  let s4 := s3.each (range' 0 16) fun s i => s.setF (F.CH_STAT_FAILED t i) (b2n (bit fl.toNat i))
  (((s4.tileStop t (if s.live then 0 else 3)).showPairs t).failBad t).csInForce

/-- The block that a kind and an index name returns to its POR state, with what the kind keeps (R452, R475). -/
def State.resetBlock (s : State) (kind i : Nat) : State :=
  match kind with
  | 1 => s.resetTile i
  | 6 => (s.porBlock 6 i).setW R.HK_CFGR (s.w R.HK_CFGR)
  | 7 => ((s.porBlock 7 i).loadQuad i).each [2 * i, 2 * i + 1] State.trainPort
  | _ => s.porBlock kind i

/-! ### A kiln run cut short (R465, R467) -/

/-- The patterns that a test cut short has completed, fewer than its full set; nothing tells how many (notes/assumptions/75.md). -/
def State.drawCount (s : State) (full : Nat) : State × Nat :=
  let (s1, n) := s.draw 24
  (s1, if full = 0 then 0 else n % full)

/-- The segment of the shutdown kiln or of the power-on test that runs stops before its end, INCOMPLETE (R465). -/
def State.stopRun (s : State) : State :=
  if s.segRuns then
    let seg := s.f F.KILN_STAT_SEG
    let (s1, n) := s.drawCount (Config.kilnExp seg).toNat
    ((s1.setF (F.KILN_RES_RESULT seg) 3).setF (F.KILN_RES_PATTERNS seg) n).raiseBit R.KILN_EVT 3 0x0A04 seg (seg * 2 ^ 32 + n)
  else s

/-- The block of a segment returns to its POR state (R467). The fabric and the MRAM hold no state of their own that a segment clears. -/
def State.segReset (s : State) (seg : Nat) : State :=
  match segBlock seg with
  | some (k, i) => s.porBlock k i
  | none => s

/-- A run of segments stops; a segment of the shutdown kiln that it stops leaves its block in its POR state (R465, R467). -/
def State.stopKiln (s : State) : State :=
  let st := s.f F.KILN_STAT_STATE
  if st = 1 ∨ st = 2 then
    let s1 := s.stopRun.when (s.segRuns && st == 1) fun s => s.segReset (s.f F.KILN_STAT_SEG)
    { (s1.setF F.KILN_STAT_STATE 0).setF F.KILN_STAT_SEG 0 with kilnEnd := false, snap := [] }
  else s

/-! ### The reset of the hub (R437) -/

/-- The registers of the LOG window. -/
def inLog (a : Nat) : Bool := decide (0x70000 ≤ a) && decide (a < 0x80000)

/-- Whether a register outlives a reset of a source: VBAT keeps the RTC's, the supplies' levels are what they are, every source but POR keeps
RST_CAUSE, and from PIN on the trouble log and the cornerstone are kept (R102, R437). -/
def keptReg (src a : Nat) : Bool :=
  a == R.RTC_CTL || a == R.RTC_STAT || a == R.RTC_UTC_OFS || a == R.PWR_STAT || (1 ≤ src && a == R.RST_CAUSE)
    || (2 ≤ src && (inLog a || inCs a))

/-- RST_CAUSE after a reset of a source (R462). -/
def State.setCause (s : State) (src : Nat) : State :=
  if src = 0 then s
  else ((s.bump F.RST_CAUSE_COUNT 1).setF F.RST_CAUSE_LAST src).setBit R.RST_CAUSE src

/-- Main power is good (R436). -/
def State.mainGood (s : State) : Bool := s.pgood

/-- Every register and block at its POR value but for what the source keeps; the release of R453 waits for main power good. The log that a source keeps
holds the event of a segment that the reset stops (R465, R472), and the save that the meters' last intervals ask for goes on, as does what
waited for the cornerstone's clock (R401, R410, R437; notes/assumptions/120.md). -/
def State.hubReset (s : State) (src : Nat) : State :=
  let a := if 2 ≤ src then s.stopRun.endMeters else s
  let z := State.reset
  let s1 :=
    { z with
      regs := a.regs.filter fun x => keptReg src x.1
      nvm := a.nvm, pending := a.pending, free := a.free, cpl := a.cpl, aon := a.aon, pgood := a.pgood, brown := a.brown, rstLow := a.rstLow
      vbat := a.vbat, rtc := a.rtc, rtcPhase := a.rtcPhase, rtcLoad := a.rtcLoad, bad := if 2 ≤ src then a.bad.filter inLog else []
      csDig := if 2 ≤ src then a.csDig else [], csStop := 2 ≤ src && a.csStop, meters := if 2 ≤ src then a.meters else []
      nv := if 2 ≤ src then a.nv else none, csPend := if 2 ≤ src then a.csPend else none, csWait := 2 ≤ src && a.csWait
      enDue := if 2 ≤ src then a.enDue else none, secret := if 2 ≤ src then a.secret else []
      tap := if src = 5 then a.tap else z.tap, bsrIn := if src = 5 then a.bsrIn else z.bsrIn, bsrOut := if src = 5 then a.bsrOut else z.bsrOut
      rel := if a.mainGood then 2 else 1 }
  let s2 := ((s1.setCause src).setF F.CS_STAT_SEALED (a.f F.CS_STAT_SEALED)).setF F.NV_STAT_BUSY (b2n s1.nv.isSome)
  let s3 := if src = 0 then s2 else s2.setF F.OPT_STAT_FAILS (a.f F.OPT_STAT_FAILS)
  if 2 ≤ src then s3.csInForce.csWake else if s3.csOn && s3.aon then s3.csRestore else s3.evSaved

/-- A deferred reset: the batch in progress is cut after its `n`-th row, and the hub resets. -/
def State.deferredReset (s : State) (src n : Nat) : State := (s.cutBatch n).hubReset src

/-- A lockup resets the hub, or is an event where LOCKUP_ACT is 1 (R437). -/
def State.lockup (s : State) (src detail n : Nat) : State :=
  if s.b F.RST_CTL_LOCKUP_ACT then s.raiseBit R.RPC_EVT 4 0x0105 src detail else s.deferredReset 7 n

end Sys2Proof.Machine
end

