-- ==== Sys2Proof/Machine/ModeOps.lean ====
section
/-!
DEFINITION. The changes of mode (R455): leaving ACQUIRE (R181, R195, R269), stopping the data path (R68, R70, R88, R101, R186, R496), entry to SAFE,
entry to HOLD after the release (R453), and the end of an on-demand test (R475).
-/

namespace Sys2Proof.Machine

/-! ### Masons (R186, R223) -/

/-- A mason in RESET starts: registers, flags and IN_TRAP cleared, at MC_ENTRY (R186, R223). -/
def State.masonGo (s : State) (m : Nat) : State :=
  let x := s.mason m
  let s1 := s.setMason m { x with g := [], v := [], fl := 0, sr := [], pc := s.f (F.MC_ENTRY_V m), wait := none, haltReq := false }
  ((s1.setF (F.MC_EPC_V m) 0).setF (F.MC_STAT_IN_TRAP m) 0).setF (F.MC_STAT_STATE m) 1

/-! ### A change of mode -/

/-- HOLD and ACQUIRE, by the code of the mode. -/
def liveMode (m : Nat) : Bool := m == 2 || m == 3

/-- MODE changes, and the change is logged: the detail holds the old mode in [23:16], the new one in [15:8], and the requester in [7:0], 0 for the hub
itself, else its MODE_OWNER code (R455). Every change but those between HOLD and ACQUIRE clears ALERT_CTL.READY (R460). -/
def State.modeTo (s : State) (new who : Nat) : State :=
  let old := s.mode
  let s1 := (s.setF F.MODE_MODE new).when (!(liveMode old && liveMode new)) fun s => s.setF F.ALERT_CTL_READY 0
  s1.raiseBit R.RPC_EVT 13 0x010E 0 (old * 65536 + new * 256 + who)

/-- The requester's code in MODE_OWNER; a mason has none (R421). -/
def reqCode : Req → Nat
  | .host => 1
  | .manager => 2
  | .jtag => 3
  | .mason _ => 0

/-- On leaving ACQUIRE open windows end, held courses are released, and every open hod is handed on (R159, R181, R195, R265). -/
def State.leaveAcquire (s : State) : State :=
  if s.mode != 3 then s
  else
    let s0 := s.each (range' 0 64) fun s g => s.endWindow g (s.lastPos (s.f (F.TG_CTL_GRID g)))
    let s1 := s0.each s.activeSids fun s k => s.flushAny k
    s1.each (range' 0 16) fun s m => s.handSlots m

/-- The data path stops: intervals end as the tiles stop (R402), tiles STOPPED (R70), grids STOPPED (R88), masons RESET (R186), excitation off
(R68), PPS_OUT low (R101), the trigger balls released (R496). -/
def State.stopData (s : State) : State :=
  let s1 := s.endMeters.each (range' 0 24) fun s t => s.tileStop t 3
  let s2 := s1.each (range' 0 4) fun s g => s.stopGrid g
  let s3 := s2.each (range' 0 16) fun s m => s.masonReset m
  let s4 := s3.excOff.ppsLow.each (range' 0 4) fun s k => s.setF (F.TRIGIO_CTL_MODE k) 0
  { s4 with pulses := [] }

/-- The full pattern count of the test on demand that runs (R465, R473). -/
def State.testFull (s : State) : Nat :=
  match s.kilnTest with
  | some (8, _) => 4096
  | _ => (Config.kilnExp (s.f F.KILN_STAT_SEG)).toNat

/-- The result of an on-demand test in KILN_OD, logged where it is FAIL or INCOMPLETE with bit 63 of the detail set (R475). The detail holds the
segment, or for KIND 8 the unit, in [55:32] and the pattern count. -/
def State.endTest (s : State) (result patterns : Nat) : State :=
  match s.kilnTest with
  | none => s
  | some (k, i) =>
    let seg := s.f F.KILN_STAT_SEG
    let d := 2 ^ 63 + (if k = 8 then i else seg) * 2 ^ 32 + patterns % 2 ^ 24
    let s1 := (({ s with kilnTest := none, snap := [] }).setF F.KILN_OD_RESULT result).setF F.KILN_OD_PATTERNS patterns
    let s2 := ((s1.setF F.KILN_STAT_STATE 0).setF F.KILN_STAT_SEG 0).resetBlock k i
    let s3 := s2.when (result == 2) fun s => s.raiseBit R.KILN_EVT 2 0x0A03 seg d
    s3.when (result == 3) fun s => s.raiseBit R.KILN_EVT 3 0x0A04 seg d

/-- Entry to SAFE from BRINGUP, HOLD, ACQUIRE or KILN (R455): `who` is the requester and `cause` the detail of event 0x0103. From ACQUIRE the drain
begins. From the kiln, and from a release that has not come to the lanes, the lanes are released (R310). An on-demand test ends as INCOMPLETE with the
patterns it has completed, which nothing here tells (R475). -/
def State.toSafe (s : State) (who cause : Nat) : State :=
  let acq := s.mode == 3
  let early := s.mode == 4 || (s.mode == 1 && decide (s.rel ≠ 10))
  let s1 := s.leaveAcquire.stopData
  let s2 := (s1.raiseBit R.RPC_EVT 2 0x0103 0 cause).modeTo 5 who
  let s3 := s2.when acq fun s => { s with draining := true }
  let (s4, n) := s3.drawCount s3.testFull
  ({ (s4.endTest 3 n).stopKiln with rel := 0, safeNext := none } : State).when early fun s => s.each (range' 0 16) State.trainPort

/-- A fault sends the hub to SAFE, in the modes in which it can (R455). -/
def State.enterSafe (s : State) (cause : Nat) : State :=
  let m := s.mode
  if m = 1 ∨ m = 2 ∨ m = 3 ∨ m = 4 then s.toSafe 0 cause else s

/-- Entry to HOLD at the end of the release: tiles leave STOPPED, and the masons of the boot image start where BOOT_RUN is set; ALERT_N
stays asserted (R70, R450, R453, R455, R460). -/
def State.toHold (s : State) : State :=
  let s1 := ({ s with rel := 0 } : State).modeTo 2 0
  let s2 := s1.each (range' 0 24) fun s t => s.when (s.f (F.TILE_STAT_PSTATE t) == 3) fun s => (s.setF (F.TILE_STAT_PSTATE t) 0).rateCheck t
  s2.when (wbit (s2.w (R.OPT_CUR 3)) 18) fun s =>
    s.each (range' 0 16) fun s m => s.when (bit (s.f F.BOOT_STAT_MASONS) m && s.f (F.MC_STAT_STATE m) == 0) fun s => s.masonGo m

/-- WAIT_PORT and WAIT_TIME allow HOLD (R453). -/
def State.holdOkNow (s : State) : Bool :=
  (!wbit (s.w (R.OPT_CUR 3)) 24 || s.b F.LINK_STAT_PRIMARY_UP) && (!wbit (s.w (R.OPT_CUR 3)) 25 || s.f F.TIME_STAT_QUALITY == 0)

/-- A hub whose release has ended enters HOLD once the waits allow (R453). -/
def State.tryHold (s : State) : State := if s.mode == 1 && s.rel == 10 && s.holdOkNow then s.toHold else s

/-- The release ends: SAFE in place of HOLD where the option load or the power-on test says so, else HOLD when the waits allow (R448, R453, R472). -/
def State.endRelease (s : State) : State :=
  match s.safeNext with
  | some c => s.toSafe 0 c
  | none => ({ s with rel := 10 }).tryHold

end Sys2Proof.Machine
end

