-- ==== Sys2Proof/Machine/Operands.lean ====
section
/-!
DEFINITION. The operands of the mason instruction set: registers, pairs, groups and vector registers (R223, R229), the words of the formats
(R227), which words are instructions (R228, R229), and the data memory (R184, R233).
-/

namespace Sys2Proof.Machine

/-! ### Registers (R223) -/

/-- A scalar register; g0 reads as zero. -/
def Mason.get (x : Mason) (r : Nat) : Word := if r = 0 then 0 else Tab.get (fun _ => 0) x.g r

/-- A scalar register written; writes to g0 are discarded. -/
def Mason.put (x : Mason) (r : Nat) (v : Word) : Mason := if r = 0 then x else { x with g := Tab.set (fun _ => 0) x.g r v }

/-- Consecutive scalar registers written from `r` on. -/
def Mason.puts (x : Mason) (r : Nat) : List Word → Mason
  | [] => x
  | v :: vs => (x.put r v).puts (r + 1) vs

/-- A lane of a vector register. -/
def Mason.lane (x : Mason) (r i : Nat) : Word := Tab.get (fun _ => 0) x.v (16 * r + i)

/-- A lane of a vector register written. -/
def Mason.setLane (x : Mason) (r i : Nat) (v : Word) : Mason := { x with v := Tab.set (fun _ => 0) x.v (16 * r + i) v }

/-- Consecutive lanes of a vector register written. -/
def Mason.setLanes (x : Mason) (r : Nat) : Nat → List Word → Mason
  | _, [] => x
  | i, v :: vs => (x.setLane r i v).setLanes r (i + 1) vs

/-- The sixteen lanes of a vector register. -/
def Mason.vec (x : Mason) (r : Nat) : List Word := (range' 0 16).map fun i => x.lane r i

/-- A vector register written. -/
def Mason.setVec (x : Mason) (r : Nat) (vs : List Word) : Mason := x.setLanes r 0 vs

/-- A pair base lies in g1 to g30 (R229). -/
def pairOk (r : Nat) : Bool := decide (1 ≤ r) && decide (r ≤ 30)

/-- A group base lies in g1 to g28 (R229). -/
def groupOk (r : Nat) : Bool := decide (1 ≤ r) && decide (r ≤ 28)

/-- The number that a pair holds: its first register the low word. -/
def Mason.pair (x : Mason) (r : Nat) : Nat := (x.get r).toNat + (x.get (r + 1)).toNat * 2 ^ 32

/-! ### Formats (R227) -/

/-- A word from its fields, each with the number of its lowest bit. -/
def encWord (fs : List (Nat × Nat)) : Word := BitVec.ofNat 32 (fs.map fun f => f.1 * 2 ^ f.2).sum

/-- G3. -/
def encG3 (func gd ga gb sh : Nat) : Word := encWord [(gd, 21), (ga, 16), (gb, 11), (sh, 6), (func, 0)]

/-- GI, and MEM with the register in gd. -/
def encGI (op gd ga imm : Nat) : Word := encWord [(op, 26), (gd, 21), (ga, 16), (imm, 0)]

/-- BR. -/
def encBR (op cond off : Nat) : Word := encWord [(op, 26), (cond, 21), (off, 0)]

/-- V3. -/
def encV3 (func vd va vb : Nat) : Word := encWord [(0x28, 26), (vd, 23), (va, 20), (vb, 17), (func, 0)]

/-- VS. -/
def encVS (func vd va g imm : Nat) : Word := encWord [(0x29, 26), (vd, 23), (va, 20), (g, 15), (imm, 10), (func, 0)]

/-- ST. -/
def encST (func fa fb fc fd : Nat) : Word := encWord [(0x30, 26), (fa, 21), (fb, 16), (fc, 11), (fd, 6), (func, 0)]

/-- SYS. -/
def encSYS (func gd ga imm : Nat) : Word := encWord [(0x3F, 26), (gd, 21), (ga, 16), (imm, 6), (func, 0)]

/-! ### Which words are instructions (R228 to R230, R235, R238, R239, R242, R246, R247) -/

/-- G3: the fields a row does not use are zero. -/
def legalG3 (w : Nat) : Bool :=
  let f := bits w 5 0
  let gd := bits w 25 21
  let gb := bits w 15 11
  let sh := bits w 10 6
  if f ≤ 7 ∨ (11 ≤ f ∧ f ≤ 0x13) then sh == 0
  else if f ≤ 10 then gb == 0
  else if f ≤ 0x16 then gb == 0 && sh == 0
  else if f = 0x18 ∨ f = 0x19 then gd == 0 && sh == 0
  else if f = 0x1C then gd == 0 && gb == 0 && sh == 0
  else if f = 0x1D then gb == 0 && sh == 0
  else false

/-- V3. -/
def legalV3 (w : Nat) : Bool :=
  let f := bits w 5 0
  bits w 16 6 == 0 && decide (f ≤ 0x10) && (decide (f ≤ 0x0C) || bits w 19 17 == 0)

/-- VS. -/
def legalVS (w : Nat) : Bool :=
  let f := bits w 5 0
  let vd := bits w 25 23
  let va := bits w 22 20
  let g := bits w 19 15
  let imm := bits w 14 10
  bits w 9 6 == 0 && match f with
    | 0x00 => va == 0 && imm == 0
    | 0x01 => vd == 0 && decide (imm < 16)
    | 0x02 => va == 0 && decide (imm < 16)
    | 0x03 => va == 0 && imm == 0
    | 0x09 => g == 0
    | 0x0A => g == 0
    | 0x0B => g == 0
    | 0x0C => imm == 0
    | 0x0D => imm == 0
    | f => decide (4 ≤ f) && decide (f ≤ 8) && vd == 0 && imm == 0

/-- ST. -/
def legalST (w : Nat) : Bool :=
  let fa := bits w 25 21
  let fb := bits w 20 16
  let fc := bits w 15 11
  let fd := bits w 10 6
  match bits w 5 0 with
  | 0x00 => groupOk fa && decide (fb < 8) && fc == 0 && fd == 0
  | 0x01 => groupOk fa && decide (fb < 8) && fc == 0 && fd == 0
  | 0x02 => groupOk fa && fb == 0 && fc == 0 && fd == 0
  | 0x03 => pairOk fa && fc == 0 && fd == 0
  | 0x08 => fd == 0
  | 0x09 => fa == 0
  | 0x0A => fa == 0 && fc == 0 && fd == 0
  | 0x0B => groupOk fa && pairOk fc && pairOk fd
  | 0x0C => fa == 0 && pairOk fc
  | 0x10 => fc == 0 && fd == 0
  | 0x11 => fa == 0 && fd == 0
  | 0x12 => fa == 0 && fd == 0
  | 0x13 => fa == 0 && fd == 0
  | 0x14 => fa == 0 && fc == 0 && fd == 0
  | 0x15 => fa == 0 && fc == 0 && fd == 0
  | 0x16 => fc == 0 && fd == 0
  | _ => false

/-- SYS; `inTrap` is IN_TRAP, without which rft is not an instruction. -/
def legalSYS (w : Nat) (inTrap : Bool) : Bool :=
  let gd := bits w 25 21
  let ga := bits w 20 16
  let imm := bits w 15 6
  match bits w 5 0 with
  | 0 => pairOk gd && decide (imm < 8)
  | 1 => gd == 0 && decide (imm < 128)
  | 2 => gd == 0 && ga == 0
  | 3 => gd == 0 && ga == 0 && imm == 0 && inTrap
  | 4 => ga == 0 && imm == 0
  | 5 => gd == 0 && imm == 0
  | 6 => ga == 0 && decide (imm ≤ 5)
  | 7 => gd == 0 && (imm == 1 || imm == 4)
  | _ => false

/-- Whether a word is an instruction. -/
def legalWord (word : Word) (inTrap : Bool) : Bool :=
  let w := word.toNat
  let gd := bits w 25 21
  let ga := bits w 20 16
  match bits w 31 26 with
  | 0x00 => legalG3 w
  | 0x07 => ga == 0
  | 0x08 => gd == 0
  | 0x18 => decide (gd < 8)
  | 0x19 => decide (gd < 8)
  | 0x20 => decide (gd ≤ 11)
  | 0x21 => gd == 0
  | 0x28 => legalV3 w
  | 0x29 => legalVS w
  | 0x30 => legalST w
  | 0x3F => legalSYS w inTrap
  | op => (decide (1 ≤ op) && decide (op ≤ 6)) || (decide (0x10 ≤ op) && decide (op ≤ 0x17)) || op == 0x1A

/-! ### Data memory (R184, R233) -/

/-- Byte 0 of a mason's IMEM. -/
def imem (m : Nat) : Nat := 0x400000 + m * 0x40000

/-- Byte 0 of a mason's DMEM. -/
def dmem (m : Nat) : Nat := 0x410000 + m * 0x40000

/-- ga + sext(OFF16), modulo 2^32. -/
def Mason.addr (x : Mason) (ga : Nat) (off : BitVec 16) : Nat := (x.get ga + off.signExtend 32).toNat

/-- A range of data memory holds an uncorrectable word. -/
def State.badRange (s : State) (a n : Nat) : Bool := s.bad.any fun b => decide (b < a + n) && decide (a < b + 4)

/-- The trap that a data access meets, in the order of R200: ALIGN, DADDR, and for a read ECC. -/
def State.dataTrap (s : State) (m a n align : Nat) (read : Bool) : Option (Nat × Nat) :=
  if a % align ≠ 0 then some (3, a)
  else if 131072 < a + n then some (2, a)
  else if read && s.badRange (dmem m + a) n then some (5, a)
  else none

/-- A number of `n` bytes read from data memory, little-endian. -/
def State.dload (s : State) (m a n : Nat) : Nat := beNat (s.bytes (dmem m + a) n).reverse

/-- The low `n` bytes of a word stored in data memory, little-endian; words written whole hold no error. -/
def State.dstore (s : State) (m a n : Nat) (v : Word) : State :=
  let s1 := s.setBytes (dmem m + a) (natBE n v.toNat).reverse
  if n = 4 then { s1 with bad := s1.bad.filter fun b => b != dmem m + a } else s1

/-- Words from data memory. -/
def State.dwords (s : State) (m a : Nat) : Nat → List Word
  | 0 => []
  | n + 1 => BitVec.ofNat 32 (s.dload m a 4) :: s.dwords m (a + 4) n

/-- Words stored in data memory. -/
def State.dstores (s : State) (m a : Nat) : List Word → State
  | [] => s
  | v :: vs => (s.dstore m a 4 v).dstores m (a + 4) vs

end Sys2Proof.Machine
end

