-- ==== Sys2Proof/Machine/Flags.lean ====
section
/-!
DEFINITION. The flags of a mason (R224): what cmp and tst compute (R232), the sticky saturation flag, and the outcome of an ST instruction (R240).
-/

namespace Sys2Proof.Machine

/-- The defined bits of FL. -/
def flMask : Nat := 0xFF3F

/-- A flag. -/
def Mason.flag (x : Mason) (i : Nat) : Bool := bit x.fl i

/-- Z, N, C and V set together; the other flags stay. -/
def Mason.setZncv (x : Mason) (z n c v : Bool) : Mason := { x with fl := putBits x.fl 3 0 (b2n z + 2 * b2n n + 4 * b2n c + 8 * b2n v) }

/-- The flags of a − b (R232). -/
def Mason.compare (x : Mason) (a b : Word) : Mason :=
  let r := a - b
  let d := a.toInt - b.toInt
  x.setZncv (r == 0) r.msb (decide (b.toNat ≤ a.toNat)) (decide (d < -(2 ^ 31)) || decide (2 ^ 31 - 1 < d))

/-- The flags of a AND b: C and V cleared (R230). -/
def Mason.test (x : Mason) (a b : Word) : Mason := let r := a &&& b; x.setZncv (r == 0) r.msb false false

/-- Q set where something saturated; it is never cleared here (R224, R237). -/
def Mason.saturated (x : Mason) (q : Bool) : Mason := if q then { x with fl := putBits x.fl 5 5 1 } else x

/-- STATUS and F after an ST instruction (R240). -/
def Mason.status (x : Mason) (c : Status) : Mason := { x with fl := putBits (putBits x.fl 15 8 c.code) 4 4 (b2n (c != .ok)) }

/-- Whether a branch's condition holds (R235); none for a COND without a row. -/
def Mason.cond (x : Mason) (c : Nat) : Option Bool :=
  let z := x.flag 0
  let n := x.flag 1
  let cy := x.flag 2
  let v := x.flag 3
  match c with
  | 0 => some true
  | 1 => some z
  | 2 => some (!z)
  | 3 => some (n != v)
  | 4 => some (n == v)
  | 5 => some (!cy)
  | 6 => some cy
  | 7 => some (!z && n == v)
  | 8 => some (z || n != v)
  | 9 => some (x.flag 4)
  | 10 => some (!x.flag 4)
  | 11 => some (x.flag 5)
  | _ => none

end Sys2Proof.Machine
end

