-- ==== Sys2Proof/Machine/MasonExec.lean ====
section
/-!
DEFINITION. How a mason runs an instruction (R186, R222): it is fetched at PC, it retires, traps (R200 to R202, R248) or stalls (R225).
-/

namespace Sys2Proof.Machine

/-- How an instruction ends: it retires with the next word following; it retires and PC goes elsewhere; it traps with a cause and TVAL; it stalls;
or it leaves RUN by itself (wait), with PC naming it. -/
inductive Turn where
  | next (s : State)
  | goto (s : State) (pc : Nat)
  | trap (cause tval : Nat)
  | stall
  | gate (s : State)

/-- Whether a mason issues exactly this word: it runs, no HALT waits for this boundary, and the word stands at PC in IMEM without an error. -/
def State.fetches (s : State) (m : Nat) (w : Word) : Bool :=
  s.f (F.MC_STAT_STATE m) == 1 && !(s.mason m).haltReq && decide ((s.mason m).pc < 65536)
    && (s.mason m).pc % 4 == 0 && !s.badRange (imem m + (s.mason m).pc) 4 && s.wordLE (imem m + (s.mason m).pc) == w

/-- An instruction retires and PC takes a value (R219, R222). -/
def State.retire (s : State) (m pc : Nat) : State :=
  let s1 := s.setMason m { s.mason m with pc := pc }
  (s1.setTwo (R.MC_INSTR m) (s1.two (R.MC_INSTR m) + 1)).setF (F.MC_STAT_STALLED m) 0

/-- A trap while IN_TRAP is 0 (R201); the detail of 0x0C01 holds the cause above bit 32 (DESIGN CHOICE, notes/assumptions/25.md). -/
def State.firstTrap (s : State) (m cause tval : Nat) : State :=
  let pc := (s.mason m).pc % 65536
  let s1 := ((s.setF (F.MC_EPC_V m) pc).setF (F.MC_CAUSE_V m) cause).setW (R.MC_TVAL m) (BitVec.ofNat 32 tval)
  let s2 := (s1.setF (F.MC_STAT_IN_TRAP m) 1).setMason m { s1.mason m with pc := s1.f (F.MC_TVEC_V m) }
  s2.when (decide (cause ≤ 5)) fun s => (s.setF (F.MC_EVT_TRAP m) 1).raise 0x0C01 m (cause * 2 ^ 32 + pc)

/-- A trap while IN_TRAP is 1: the registers of the first trap stay, and the lockup setting decides (R202). No reading tells how far a batch has
come where the reset cuts one. -/
def State.doubleFault (s : State) (m cause tval : Nat) : State :=
  let pc := (s.mason m).pc % 65536
  let s1 := (s.setF (F.MC_EVT_DFAULT m) 1).raise 0x0C02 m (cause * 2 ^ 56 + pc * 2 ^ 32 + tval % 2 ^ 32)
  let (s2, n) := s1.draw 6
  let s3 := s2.lockup m (cause * 2 ^ 56 + pc * 2 ^ 32 + tval % 2 ^ 32) n
  s3.when (s2.b F.RST_CTL_LOCKUP_ACT) fun s => (s.handSlots m).setF (F.MC_STAT_STATE m) 4

/-- A trap (R200 to R202); a data error is logged besides, with MC_TVAL, the address in IMEM or DMEM, in its detail and 0 for an inbox (R203; DESIGN CHOICE,
notes/assumptions/25.md). -/
def State.trap (s : State) (m cause tval : Nat) : State :=
  let s0 := s.when (cause == 5) fun s => (s.setF (F.MC_EVT_UNCORR m) 1).raise 0x0C04 m tval
  let s1 := s0.setF (F.MC_STAT_STALLED m) 0
  if s1.b (F.MC_STAT_IN_TRAP m) then s1.doubleFault m cause tval else s1.firstTrap m cause tval

/-- An instruction's end put into effect. -/
def State.turn (s : State) (m : Nat) : Turn → State
  | .next t => t.retire m ((s.mason m).pc + 4)
  | .goto t pc => t.retire m pc
  | .trap c v => s.trap m c v
  | .stall => s.setF (F.MC_STAT_STALLED m) 1
  | .gate t => t

/-- A mason issues an instruction whose word is `w`: `f` says how it ends. A mason that does not stand at that word does nothing. -/
def isa (m : Fin 16) (w : Word) (f : State → Mason → Turn) (s : State) : Host.Outcome State Fault Refusal :=
  act (fun s => if s.fetches m.val w then s.turn m.val (f s (s.mason m.val)) else s) s

/-- An instruction that changes the mason alone. -/
def isaReg (m : Fin 16) (w : Word) (f : Mason → Mason) (s : State) : Host.Outcome State Fault Refusal :=
  isa m w (fun s x => .next (s.setMason m.val (f x))) s

/-- ILLEGAL (R229, R248). -/
def illegal (w : Word) : Turn := .trap 0 w.toNat

end Sys2Proof.Machine
end

