-- ==== Sys2Proof/Machine/Scalar.lean ====
section
/-!
DEFINITION. The scalar instructions of a mason: G3 and GI (R230 to R232), and the transfers of control (R235, R236).
-/

namespace Sys2Proof.Machine

/-! ### G3 -/

/-- A G3 instruction of two registers. -/
def g3 (m : Fin 16) (func : Nat) (gd ga gb : Fin 32) (f : Word → Word → Word) (s : State) : Host.Outcome State Fault Refusal :=
  isaReg m (encG3 func gd ga gb 0) (fun x => x.put gd (f (x.get ga) (x.get gb))) s

/-- A shift by SH. -/
def g3sh (m : Fin 16) (func : Nat) (gd ga sh : Fin 32) (f : Word → Nat → Word) (s : State) : Host.Outcome State Fault Refusal :=
  isaReg m (encG3 func gd ga 0 sh) (fun x => x.put gd (f (x.get ga) sh)) s

/-- A G3 instruction of one register. -/
def g3one (m : Fin 16) (func : Nat) (gd ga : Fin 32) (f : Word → Word) (s : State) : Host.Outcome State Fault Refusal :=
  isaReg m (encG3 func gd ga 0 0) (fun x => x.put gd (f (x.get ga))) s

/-- 1 where a condition holds, else 0. -/
def truth (b : Bool) : Word := if b then 1 else 0

/-- The shift count that a register gives (R230). -/
def shCount (b : Word) : Nat := b.toNat % 32

/-- The count of trailing zero bits, 32 for zero. -/
def trailing (a : Word) : Nat := ((range' 0 32).find? fun i => a.getLsbD i).getD 32

/-- The count of leading zero bits, 32 for zero. -/
def leading (a : Word) : Nat := ((range' 0 32).find? fun i => a.getLsbD (31 - i)).getD 32

/-- The count of set bits. -/
def ones (a : Word) : Nat := ((range' 0 32).filter fun i => a.getLsbD i).length

/-- ADD (R230). -/
def execAdd (m : Fin 16) (gd ga gb : Fin 32) (s : State) : Host.Outcome State Fault Refusal :=
  g3 m 0x00 gd ga gb (fun a b => a + b) s

/-- SUB (R230). -/
def execSub (m : Fin 16) (gd ga gb : Fin 32) (s : State) : Host.Outcome State Fault Refusal :=
  g3 m 0x01 gd ga gb (fun a b => a - b) s

/-- AND (R230). -/
def execAnd (m : Fin 16) (gd ga gb : Fin 32) (s : State) : Host.Outcome State Fault Refusal :=
  g3 m 0x02 gd ga gb (fun a b => a &&& b) s

/-- OR (R230). -/
def execOr (m : Fin 16) (gd ga gb : Fin 32) (s : State) : Host.Outcome State Fault Refusal :=
  g3 m 0x03 gd ga gb (fun a b => a ||| b) s

/-- XOR (R230). -/
def execXor (m : Fin 16) (gd ga gb : Fin 32) (s : State) : Host.Outcome State Fault Refusal :=
  g3 m 0x04 gd ga gb (fun a b => a ^^^ b) s

/-- SLL (R230). -/
def execSll (m : Fin 16) (gd ga gb : Fin 32) (s : State) : Host.Outcome State Fault Refusal :=
  g3 m 0x05 gd ga gb (fun a b => a <<< shCount b) s

/-- SRL (R230). -/
def execSrl (m : Fin 16) (gd ga gb : Fin 32) (s : State) : Host.Outcome State Fault Refusal :=
  g3 m 0x06 gd ga gb (fun a b => a >>> shCount b) s

/-- SRA (R230). -/
def execSra (m : Fin 16) (gd ga gb : Fin 32) (s : State) : Host.Outcome State Fault Refusal :=
  g3 m 0x07 gd ga gb (fun a b => a.sshiftRight (shCount b)) s

/-- SLT (R230). -/
def execSlt (m : Fin 16) (gd ga gb : Fin 32) (s : State) : Host.Outcome State Fault Refusal :=
  g3 m 0x0B gd ga gb (fun a b => truth (a.slt b)) s

/-- SLTU (R230). -/
def execSltu (m : Fin 16) (gd ga gb : Fin 32) (s : State) : Host.Outcome State Fault Refusal :=
  g3 m 0x0C gd ga gb (fun a b => truth (a.ult b)) s

/-- MIN (R230). -/
def execMin (m : Fin 16) (gd ga gb : Fin 32) (s : State) : Host.Outcome State Fault Refusal :=
  g3 m 0x0D gd ga gb (fun a b => if a.slt b then a else b) s

/-- MAX (R230). -/
def execMax (m : Fin 16) (gd ga gb : Fin 32) (s : State) : Host.Outcome State Fault Refusal :=
  g3 m 0x0E gd ga gb (fun a b => if a.slt b then b else a) s

/-- MINU (R230). -/
def execMinu (m : Fin 16) (gd ga gb : Fin 32) (s : State) : Host.Outcome State Fault Refusal :=
  g3 m 0x0F gd ga gb (fun a b => if a.ult b then a else b) s

/-- MUL (R230). -/
def execMul (m : Fin 16) (gd ga gb : Fin 32) (s : State) : Host.Outcome State Fault Refusal :=
  g3 m 0x10 gd ga gb (fun a b => a * b) s

/-- MULH (R230). -/
def execMulh (m : Fin 16) (gd ga gb : Fin 32) (s : State) : Host.Outcome State Fault Refusal :=
  g3 m 0x11 gd ga gb (fun a b => BitVec.ofInt 32 (a.toInt * b.toInt / 2 ^ 32)) s

/-- MULHU (R230). -/
def execMulhu (m : Fin 16) (gd ga gb : Fin 32) (s : State) : Host.Outcome State Fault Refusal :=
  g3 m 0x12 gd ga gb (fun a b => BitVec.ofNat 32 (a.toNat * b.toNat / 2 ^ 32)) s

/-- MAXU (R230). -/
def execMaxu (m : Fin 16) (gd ga gb : Fin 32) (s : State) : Host.Outcome State Fault Refusal :=
  g3 m 0x13 gd ga gb (fun a b => if a.ult b then b else a) s

/-- SLLI (R230). -/
def execSlli (m : Fin 16) (gd ga sh : Fin 32) (s : State) : Host.Outcome State Fault Refusal :=
  g3sh m 0x08 gd ga sh (fun a n => a <<< n) s

/-- SRLI (R230). -/
def execSrli (m : Fin 16) (gd ga sh : Fin 32) (s : State) : Host.Outcome State Fault Refusal :=
  g3sh m 0x09 gd ga sh (fun a n => a >>> n) s

/-- SRAI (R230). -/
def execSrai (m : Fin 16) (gd ga sh : Fin 32) (s : State) : Host.Outcome State Fault Refusal :=
  g3sh m 0x0A gd ga sh (fun a n => a.sshiftRight n) s

/-- CTZ (R230). -/
def execCtz (m : Fin 16) (gd ga : Fin 32) (s : State) : Host.Outcome State Fault Refusal :=
  g3one m 0x14 gd ga (fun a => BitVec.ofNat 32 (trailing a)) s

/-- CLZ (R230). -/
def execClz (m : Fin 16) (gd ga : Fin 32) (s : State) : Host.Outcome State Fault Refusal :=
  g3one m 0x15 gd ga (fun a => BitVec.ofNat 32 (leading a)) s

/-- POPC (R230). -/
def execPopc (m : Fin 16) (gd ga : Fin 32) (s : State) : Host.Outcome State Fault Refusal :=
  g3one m 0x16 gd ga (fun a => BitVec.ofNat 32 (ones a)) s

/-- CMP (R230, R232). -/
def execCmp (m : Fin 16) (ga gb : Fin 32) (s : State) : Host.Outcome State Fault Refusal :=
  isaReg m (encG3 0x18 0 ga gb 0) (fun x => x.compare (x.get ga) (x.get gb)) s

/-- TST (R230). -/
def execTst (m : Fin 16) (ga gb : Fin 32) (s : State) : Host.Outcome State Fault Refusal :=
  isaReg m (encG3 0x19 0 ga gb 0) (fun x => x.test (x.get ga) (x.get gb)) s

/-! ### GI (R231) -/

/-- A GI instruction. -/
def gi (m : Fin 16) (op : Nat) (gd ga : Fin 32) (imm : BitVec 16) (f : Word → Word) (s : State) : Host.Outcome State Fault Refusal :=
  isaReg m (encGI op gd ga imm.toNat) (fun x => x.put gd (f (x.get ga))) s

/-- ADDI (R231). -/
def execAddi (m : Fin 16) (gd ga : Fin 32) (imm : BitVec 16) (s : State) : Host.Outcome State Fault Refusal :=
  gi m 1 gd ga imm (fun a => a + imm.signExtend 32) s

/-- ANDI (R231). -/
def execAndi (m : Fin 16) (gd ga : Fin 32) (imm : BitVec 16) (s : State) : Host.Outcome State Fault Refusal :=
  gi m 2 gd ga imm (fun a => a &&& imm.zeroExtend 32) s

/-- ORI (R231). -/
def execOri (m : Fin 16) (gd ga : Fin 32) (imm : BitVec 16) (s : State) : Host.Outcome State Fault Refusal :=
  gi m 3 gd ga imm (fun a => a ||| imm.zeroExtend 32) s

/-- XORI (R231). -/
def execXori (m : Fin 16) (gd ga : Fin 32) (imm : BitVec 16) (s : State) : Host.Outcome State Fault Refusal :=
  gi m 4 gd ga imm (fun a => a ^^^ imm.zeroExtend 32) s

/-- SLTI (R231). -/
def execSlti (m : Fin 16) (gd ga : Fin 32) (imm : BitVec 16) (s : State) : Host.Outcome State Fault Refusal :=
  gi m 5 gd ga imm (fun a => truth (a.slt (imm.signExtend 32))) s

/-- SLTIU (R231). -/
def execSltiu (m : Fin 16) (gd ga : Fin 32) (imm : BitVec 16) (s : State) : Host.Outcome State Fault Refusal :=
  gi m 6 gd ga imm (fun a => truth (a.ult (imm.signExtend 32))) s

/-- LUI (R231). -/
def execLui (m : Fin 16) (gd : Fin 32) (imm : BitVec 16) (s : State) : Host.Outcome State Fault Refusal :=
  isaReg m (encGI 7 gd 0 imm.toNat) (fun x => x.put gd (BitVec.ofNat 32 (imm.toNat * 65536))) s

/-- CMPI (R231, R232). -/
def execCmpi (m : Fin 16) (ga : Fin 32) (imm : BitVec 16) (s : State) : Host.Outcome State Fault Refusal :=
  isaReg m (encGI 8 0 ga imm.toNat) (fun x => x.compare (x.get ga) (imm.signExtend 32)) s

/-! ### Transfers of control (R235, R236) -/

/-- A transfer to a target: a target that is not a multiple of 4 traps with ALIGN, one outside IMEM with FETCH (R200, R236). -/
def jump (s : State) (target : Nat) : Turn :=
  if target % 4 ≠ 0 then .trap 3 target else if 65536 ≤ target then .trap 1 target else .goto s target

/-- The target of a branch at `pc`, modulo 2^32. -/
def branchTarget (pc : Nat) (off : BitVec 21) : Nat := (BitVec.ofNat 32 pc + off.signExtend 32 * 4).toNat

/-- JR (R230, R236). -/
def execJr (m : Fin 16) (ga : Fin 32) (s : State) : Host.Outcome State Fault Refusal :=
  isa m (encG3 0x1C 0 ga 0 0) (fun s x => jump s (x.get ga).toNat) s

/-- JALR (R230, R236): ga is read before gd is written. -/
def execJalr (m : Fin 16) (gd ga : Fin 32) (s : State) : Host.Outcome State Fault Refusal :=
  isa m (encG3 0x1D gd ga 0 0) (fun s x => jump (s.setMason m.val (x.put gd (BitVec.ofNat 32 (x.pc + 4)))) (x.get ga).toNat) s

/-- B_COND (R235, R236); a COND without a row is ILLEGAL (R229). -/
def execBCond (m : Fin 16) (cond : BitVec 5) (off : BitVec 21) (s : State) : Host.Outcome State Fault Refusal :=
  let w := encBR 0x20 cond.toNat off.toNat
  isa m w (fun s x => match x.cond cond.toNat with
    | none => illegal w
    | some true => jump s (branchTarget x.pc off)
    | some false => .next s) s

/-- BL (R235, R236). -/
def execBl (m : Fin 16) (off : BitVec 21) (s : State) : Host.Outcome State Fault Refusal :=
  isa m (encBR 0x21 0 off.toNat) (fun s x =>
    jump (s.setMason m.val (x.put 31 (BitVec.ofNat 32 (x.pc + 4)))) (branchTarget x.pc off)) s

end Sys2Proof.Machine
end

