-- ==== Sys2Proof/Machine/MasonMem.lean ====
section
/-!
DEFINITION. The data-memory instructions of a mason (R233).
-/

namespace Sys2Proof.Machine

/-- A load: `n` bytes at an alignment, put into the mason by `f`. -/
def load (m : Fin 16) (op rd : Nat) (ga : Fin 32) (off : BitVec 16) (n align : Nat) (f : State → Nat → Mason → Mason) (s : State) :
    Host.Outcome State Fault Refusal :=
  isa m (encGI op rd ga off.toNat) (fun s x =>
    let a := x.addr ga off
    match s.dataTrap m a n align true with
    | some (c, v) => .trap c v
    | none => .next (s.setMason m (f s a x))) s

/-- A store: `n` bytes at an alignment. -/
def store (m : Fin 16) (op rs : Nat) (ga : Fin 32) (off : BitVec 16) (n align : Nat) (f : State → Nat → Mason → State) (s : State) :
    Host.Outcome State Fault Refusal :=
  isa m (encGI op rs ga off.toNat) (fun s x =>
    let a := x.addr ga off
    match s.dataTrap m a n align false with
    | some (c, v) => .trap c v
    | none => .next (f s a x)) s

/-- A scalar load. -/
def loadG (m : Fin 16) (op : Nat) (gd ga : Fin 32) (off : BitVec 16) (n : Nat) (ext : Nat → Word) (s : State) :
    Host.Outcome State Fault Refusal :=
  load m op gd ga off n n (fun s a x => x.put gd (ext (s.dload m a n))) s

/-- A scalar store. -/
def storeG (m : Fin 16) (op : Nat) (gs ga : Fin 32) (off : BitVec 16) (n : Nat) (s : State) : Host.Outcome State Fault Refusal :=
  store m op gs ga off n n (fun s a x => s.dstore m a n (x.get gs)) s

/-- LDW (R233). -/
def execLdw (m : Fin 16) (gd ga : Fin 32) (off : BitVec 16) (s : State) : Host.Outcome State Fault Refusal :=
  loadG m 0x10 gd ga off 4 (fun n => BitVec.ofNat 32 n) s

/-- LDH (R233). -/
def execLdh (m : Fin 16) (gd ga : Fin 32) (off : BitVec 16) (s : State) : Host.Outcome State Fault Refusal :=
  loadG m 0x11 gd ga off 2 (fun n => BitVec.ofInt 32 (sx 16 n)) s

/-- LDHU (R233). -/
def execLdhu (m : Fin 16) (gd ga : Fin 32) (off : BitVec 16) (s : State) : Host.Outcome State Fault Refusal :=
  loadG m 0x12 gd ga off 2 (fun n => BitVec.ofNat 32 n) s

/-- LDB (R233). -/
def execLdb (m : Fin 16) (gd ga : Fin 32) (off : BitVec 16) (s : State) : Host.Outcome State Fault Refusal :=
  loadG m 0x13 gd ga off 1 (fun n => BitVec.ofInt 32 (sx 8 n)) s

/-- LDBU (R233). -/
def execLdbu (m : Fin 16) (gd ga : Fin 32) (off : BitVec 16) (s : State) : Host.Outcome State Fault Refusal :=
  loadG m 0x14 gd ga off 1 (fun n => BitVec.ofNat 32 n) s

/-- STW (R233). -/
def execStw (m : Fin 16) (gs ga : Fin 32) (off : BitVec 16) (s : State) : Host.Outcome State Fault Refusal :=
  storeG m 0x15 gs ga off 4 s

/-- STH (R233). -/
def execSth (m : Fin 16) (gs ga : Fin 32) (off : BitVec 16) (s : State) : Host.Outcome State Fault Refusal :=
  storeG m 0x16 gs ga off 2 s

/-- STB (R233). -/
def execStb (m : Fin 16) (gs ga : Fin 32) (off : BitVec 16) (s : State) : Host.Outcome State Fault Refusal :=
  storeG m 0x17 gs ga off 1 s

/-- VLD (R233): lane i from the address + 4 × i. -/
def execVld (m : Fin 16) (vd : Fin 8) (ga : Fin 32) (off : BitVec 16) (s : State) : Host.Outcome State Fault Refusal :=
  load m 0x18 vd ga off 64 4 (fun s a x => x.setVec vd (s.dwords m a 16)) s

/-- VST (R233). -/
def execVst (m : Fin 16) (vs : Fin 8) (ga : Fin 32) (off : BitVec 16) (s : State) : Host.Outcome State Fault Refusal :=
  store m 0x19 vs ga off 64 4 (fun s a x => s.dstores m a (x.vec vs)) s

end Sys2Proof.Machine
end

