-- ==== Sys2Proof/Machine/Vector.lean ====
section
/-!
DEFINITION. The vector instructions of a mason (R237 to R239). A saturating operation works on the exact result of each lane.
-/

namespace Sys2Proof.Machine

/-- A V3 instruction of wrapping lanes. -/
def v3 (m : Fin 16) (func : Nat) (vd va vb : Fin 8) (f : Word → Word → Word) (s : State) : Host.Outcome State Fault Refusal :=
  isaReg m (encV3 func vd va vb) (fun x => x.setVec vd (List.zipWith f (x.vec va) (x.vec vb))) s

/-- Exact results written to the lanes of a vector register, each clamped to `w` bits; Q set where one was clamped (R237). -/
def Mason.clampVec (x : Mason) (vd w : Nat) (es : List Int) : Mason :=
  (x.setVec vd (es.map fun e => BitVec.ofInt 32 (satS w e))).saturated (es.any fun e => satS w e != e)

/-- A V3 instruction of saturating lanes. -/
def v3sat (m : Fin 16) (func : Nat) (vd va vb : Fin 8) (f : Int → Int → Int) (s : State) : Host.Outcome State Fault Refusal :=
  isaReg m (encV3 func vd va vb) (fun x =>
    x.clampVec vd 32 (List.zipWith (fun a b => f a.toInt b.toInt) (x.vec va) (x.vec vb))) s

/-- All bits set where a condition holds, else zero. -/
def allIf (b : Bool) : Word := if b then BitVec.allOnes 32 else 0

/-- VADD (R238). -/
def execVadd (m : Fin 16) (vd va vb : Fin 8) (s : State) : Host.Outcome State Fault Refusal := v3 m 0x00 vd va vb (fun a b => a + b) s

/-- VSUB (R238). -/
def execVsub (m : Fin 16) (vd va vb : Fin 8) (s : State) : Host.Outcome State Fault Refusal := v3 m 0x01 vd va vb (fun a b => a - b) s

/-- VADDS (R238). -/
def execVadds (m : Fin 16) (vd va vb : Fin 8) (s : State) : Host.Outcome State Fault Refusal := v3sat m 0x02 vd va vb (fun a b => a + b) s

/-- VSUBS (R238). -/
def execVsubs (m : Fin 16) (vd va vb : Fin 8) (s : State) : Host.Outcome State Fault Refusal := v3sat m 0x03 vd va vb (fun a b => a - b) s

/-- VMUL (R238). -/
def execVmul (m : Fin 16) (vd va vb : Fin 8) (s : State) : Host.Outcome State Fault Refusal := v3 m 0x04 vd va vb (fun a b => a * b) s

/-- VMULQ (R238): the exact product over 2^23, rounded half to even, then saturated. -/
def execVmulq (m : Fin 16) (vd va vb : Fin 8) (s : State) : Host.Outcome State Fault Refusal :=
  v3sat m 0x05 vd va vb (fun a b => divEven (a * b) (2 ^ 23)) s

/-- VMIN (R238). -/
def execVmin (m : Fin 16) (vd va vb : Fin 8) (s : State) : Host.Outcome State Fault Refusal :=
  v3 m 0x06 vd va vb (fun a b => if a.slt b then a else b) s

/-- VMAX (R238). -/
def execVmax (m : Fin 16) (vd va vb : Fin 8) (s : State) : Host.Outcome State Fault Refusal :=
  v3 m 0x07 vd va vb (fun a b => if a.slt b then b else a) s

/-- VAND (R238). -/
def execVand (m : Fin 16) (vd va vb : Fin 8) (s : State) : Host.Outcome State Fault Refusal := v3 m 0x08 vd va vb (fun a b => a &&& b) s

/-- VOR (R238). -/
def execVor (m : Fin 16) (vd va vb : Fin 8) (s : State) : Host.Outcome State Fault Refusal := v3 m 0x09 vd va vb (fun a b => a ||| b) s

/-- VXOR (R238). -/
def execVxor (m : Fin 16) (vd va vb : Fin 8) (s : State) : Host.Outcome State Fault Refusal := v3 m 0x0A vd va vb (fun a b => a ^^^ b) s

/-- VCGT (R238). -/
def execVcgt (m : Fin 16) (vd va vb : Fin 8) (s : State) : Host.Outcome State Fault Refusal :=
  v3 m 0x0B vd va vb (fun a b => allIf (b.slt a)) s

/-- VCEQ (R238). -/
def execVceq (m : Fin 16) (vd va vb : Fin 8) (s : State) : Host.Outcome State Fault Refusal :=
  v3 m 0x0C vd va vb (fun a b => allIf (a == b)) s

/-- VABS (R238). -/
def execVabs (m : Fin 16) (vd va : Fin 8) (s : State) : Host.Outcome State Fault Refusal :=
  isaReg m (encV3 0x0D vd va 0) (fun x => x.clampVec vd 32 ((x.vec va).map fun a => if a.toInt < 0 then -a.toInt else a.toInt)) s

/-- VPAIR (R238): lane i takes lane i XOR 1. -/
def execVpair (m : Fin 16) (vd va : Fin 8) (s : State) : Host.Outcome State Fault Refusal :=
  isaReg m (encV3 0x0E vd va 0) (fun x => x.setVec vd ((range' 0 16).map fun i => x.lane va (if i % 2 = 0 then i + 1 else i - 1))) s

/-- VSAT24 (R238). -/
def execVsat24 (m : Fin 16) (vd va : Fin 8) (s : State) : Host.Outcome State Fault Refusal :=
  isaReg m (encV3 0x0F vd va 0) (fun x => x.clampVec vd 24 ((x.vec va).map fun a => a.toInt)) s

/-- VMOV (R238). -/
def execVmov (m : Fin 16) (vd va : Fin 8) (s : State) : Host.Outcome State Fault Refusal :=
  isaReg m (encV3 0x10 vd va 0) (fun x => x.setVec vd (x.vec va)) s

/-! ### VS (R239) -/

/-- VSPLAT (R239). -/
def execVsplat (m : Fin 16) (vd : Fin 8) (ga : Fin 32) (s : State) : Host.Outcome State Fault Refusal :=
  isaReg m (encVS 0x00 vd 0 ga 0) (fun x => x.setVec vd (List.replicate 16 (x.get ga))) s

/-- VEXT (R239). -/
def execVext (m : Fin 16) (gd : Fin 32) (va : Fin 8) (lane : Fin 16) (s : State) : Host.Outcome State Fault Refusal :=
  isaReg m (encVS 0x01 0 va gd lane) (fun x => x.put gd (x.lane va lane)) s

/-- VINS (R239). -/
def execVins (m : Fin 16) (vd : Fin 8) (ga : Fin 32) (lane : Fin 16) (s : State) : Host.Outcome State Fault Refusal :=
  isaReg m (encVS 0x02 vd 0 ga lane) (fun x => x.setLane vd lane (x.get ga)) s

/-- VMASK (R239). -/
def execVmask (m : Fin 16) (vd : Fin 8) (ga : Fin 32) (s : State) : Host.Outcome State Fault Refusal :=
  isaReg m (encVS 0x03 vd 0 ga 0) (fun x => x.setVec vd ((range' 0 16).map fun i => allIf ((x.get ga).getLsbD i))) s

/-- A reduction of the lanes of a vector register to a scalar register. -/
def vred (m : Fin 16) (func : Nat) (gd : Fin 32) (va : Fin 8) (f : List Word → Word) (s : State) : Host.Outcome State Fault Refusal :=
  isaReg m (encVS func 0 va gd 0) (fun x => x.put gd (f (x.vec va))) s

/-- The signed maximum of lanes. -/
def maxLane (vs : List Word) : Word := (vs.drop 1).foldl (fun a b => if a.slt b then b else a) (vs.headD 0)

/-- The signed minimum of lanes. -/
def minLane (vs : List Word) : Word := (vs.drop 1).foldl (fun a b => if b.slt a then b else a) (vs.headD 0)

/-- VMOVMSK (R239). -/
def execVmovmsk (m : Fin 16) (gd : Fin 32) (va : Fin 8) (s : State) : Host.Outcome State Fault Refusal :=
  vred m 0x04 gd va (fun vs => BitVec.ofNat 32 ((vs.zip (range' 0 16)).map fun p => b2n p.1.msb * 2 ^ p.2).sum) s

/-- VREDSUM (R239): the exact sum, saturated (R237). -/
def execVredsum (m : Fin 16) (gd : Fin 32) (va : Fin 8) (s : State) : Host.Outcome State Fault Refusal :=
  isaReg m (encVS 0x05 0 va gd 0) (fun x =>
    let e := ((x.vec va).map fun a => a.toInt).sum
    (x.put gd (BitVec.ofInt 32 (satS 32 e))).saturated (satS 32 e != e)) s

/-- VREDMAX (R239). -/
def execVredmax (m : Fin 16) (gd : Fin 32) (va : Fin 8) (s : State) : Host.Outcome State Fault Refusal := vred m 0x06 gd va maxLane s

/-- VREDMIN (R239). -/
def execVredmin (m : Fin 16) (gd : Fin 32) (va : Fin 8) (s : State) : Host.Outcome State Fault Refusal := vred m 0x07 gd va minLane s

/-- VARGMAX (R239). -/
def execVargmax (m : Fin 16) (gd : Fin 32) (va : Fin 8) (s : State) : Host.Outcome State Fault Refusal :=
  vred m 0x08 gd va (fun vs => BitVec.ofNat 32 (vs.idxOf (maxLane vs))) s

/-- A VS instruction of lanes with a shift count. -/
def vsh (m : Fin 16) (func : Nat) (vd va : Fin 8) (sh : Fin 32) (f : Word → Nat → Word) (s : State) : Host.Outcome State Fault Refusal :=
  isaReg m (encVS func vd va 0 sh) (fun x => x.setVec vd ((x.vec va).map fun a => f a sh)) s

/-- VSLLI (R239). -/
def execVslli (m : Fin 16) (vd va : Fin 8) (sh : Fin 32) (s : State) : Host.Outcome State Fault Refusal :=
  vsh m 0x09 vd va sh (fun a n => a <<< n) s

/-- VSRAI (R239). -/
def execVsrai (m : Fin 16) (vd va : Fin 8) (sh : Fin 32) (s : State) : Host.Outcome State Fault Refusal :=
  vsh m 0x0A vd va sh (fun a n => a.sshiftRight n) s

/-- VSRLI (R239). -/
def execVsrli (m : Fin 16) (vd va : Fin 8) (sh : Fin 32) (s : State) : Host.Outcome State Fault Refusal :=
  vsh m 0x0B vd va sh (fun a n => a >>> n) s

/-- VADDG (R239). -/
def execVaddg (m : Fin 16) (vd va : Fin 8) (ga : Fin 32) (s : State) : Host.Outcome State Fault Refusal :=
  isaReg m (encVS 0x0C vd va ga 0) (fun x => x.setVec vd ((x.vec va).map fun a => a + x.get ga)) s

/-- VCGTG (R239). -/
def execVcgtg (m : Fin 16) (vd va : Fin 8) (ga : Fin 32) (s : State) : Host.Outcome State Fault Refusal :=
  isaReg m (encVS 0x0D vd va ga 0) (fun x => x.setVec vd ((x.vec va).map fun a => allIf ((x.get ga).slt a))) s

end Sys2Proof.Machine
end

