-- ==== Sys2Proof/Machine/PqOps.lean ====
section
/-!
DEFINITION. The operations of a pallet queue (R212 to R217), shared by the masons and the host.
-/

namespace Sys2Proof.Machine

/-- The words of the open item, header included. -/
def Pq.itemLen (x : Pq) : Nat := match x.item with
  | some (_, ws) => ws.length + 1
  | none => 0

/-- CNT: committed words (R212). -/
def Pq.cnt (x : Pq) : Nat := x.words.length

/-- OCC: committed words and those of the open item (R212). -/
def Pq.occ (x : Pq) : Nat := x.words.length + x.itemLen

/-- The word of PQ_CNT. -/
def Pq.image (x : Pq) : Word := BitVec.ofNat 32 (x.occ * 65536 + x.cnt)

/-- No word is free (R217). -/
def Pq.full (x : Pq) : Bool := decide (256 ≤ x.occ)

/-- A word pushed: into the open item, or committed at once (R214, R215). -/
def Pq.push (x : Pq) (w : Word) : Pq :=
  match x.item with
  | some (t, ws) => { x with item := some (t, ws ++ [w]) }
  | none => { x with words := x.words ++ [w] }

/-- An item opened; a pending orphan is forgotten (R214, R215). -/
def Pq.start (x : Pq) (tag : Nat) : Pq := { x with item := some (tag, []), orphan := false }

/-- The queue emptied; an open item leaves an orphan pending (R215). -/
def Pq.flush (x : Pq) : Pq := { x with words := [], item := none, orphan := x.orphan || x.item.isSome }

/-- A bit of PQ_STAT set: 4 UNDERRUN, 5 OVF, 6 ORPHAN, 7 FRAME_ERR. -/
def State.pqFlag (s : State) (q i : Nat) : State := s.setBit (R.PQ_STAT q) i

/-- A pop: the oldest committed word, or the word popped last and an underrun (R213). -/
def State.pqPop (s : State) (q : Nat) : State × Word × Bool :=
  match (s.pq q).words with
  | w :: ws => (s.setPq q { s.pq q with words := ws, last := w }, w, true)
  | [] => (s.pqFlag q 4, (s.pq q).last, false)

/-- A CLOSE: the header and the item's words become committed together; an awaited orphan CLOSE is ignored and reported; any other is a framing
error (R214, R215). -/
def State.pqClose (s : State) (q : Nat) : State × Status :=
  match (s.pq q).item with
  | some (t, ws) => (s.setPq q { s.pq q with words := (s.pq q).words ++ BitVec.ofNat 32 (t * 65536 + ws.length) :: ws, item := none }, .ok)
  | none =>
    if (s.pq q).orphan then ((s.setPq q { s.pq q with orphan := false }).pqFlag q 6, .ok) else (s.pqFlag q 7, .busy)

end Sys2Proof.Machine
end

