-- ==== Sys2Proof/Machine/HodIsa.lean ====
section
/-!
DEFINITION. The ST instructions of a mason: courses, time, hods and pallet queues (R192 to R195, R240 to R245).
-/

namespace Sys2Proof.Machine

/-- An ST instruction completes (R240): STATUS and F, and its effect where the status is OK. -/
def stDone (m : Nat) (c : Status) (s : State) : Turn := .next (s.setMason m ((s.mason m).status c))

/-! ### Courses and time -/

/-- The oldest packet of the inbox goes to the registers (R243). -/
def popCourse (m gd vd : Nat) (s : State) (p : List Word) : Turn :=
  let x := s.mason m
  stDone m .ok (s.setMason m (({ x with inbox := x.inbox.drop 1 }.puts gd (p.take 4)).setVec vd (p.drop 4)))

/-- COURSE (R242, R243). -/
def execCourse (m : Fin 16) (gd : Fin 32) (vd : Fin 8) (s : State) : Host.Outcome State Fault Refusal :=
  let w := encST 0x00 gd vd 0 0
  isa m w (fun s x =>
    if !groupOk gd then illegal w
    else match x.inbox with
      | p :: _ => popCourse m gd vd s p
      | [] => stDone m .busy s) s

/-- COURSE_W (R242, R243): it stalls while the inbox is empty. -/
def execCourseW (m : Fin 16) (gd : Fin 32) (vd : Fin 8) (s : State) : Host.Outcome State Fault Refusal :=
  let w := encST 0x01 gd vd 0 0
  isa m w (fun s x =>
    if !groupOk gd then illegal w
    else match x.inbox with
      | p :: _ => popCourse m gd vd s p
      | [] => .stall) s

/-- TGET (R244). -/
def execTget (m : Fin 16) (gd : Fin 32) (s : State) : Host.Outcome State Fault Refusal :=
  let w := encST 0x02 gd 0 0 0
  isa m w (fun s x =>
    if !groupOk gd then illegal w
    else
      let sec := s.st / secU
      stDone m .ok (s.setMason m (x.puts gd [BitVec.ofNat 32 (s.f F.TIME_STAT_QUALITY * 65536 + s.st % nsU), BitVec.ofNat 32 (s.st % secU / nsU),
        BitVec.ofNat 32 sec, BitVec.ofNat 32 (sec / 2 ^ 32 % 65536)]))) s

/-- The number of the latest course of a running grid whose instant ST has reached (R92, R93). -/
def State.courseNow (s : State) (g : Nat) : Nat :=
  if s.machine g then if (s.grid g).next = 0 then (s.grid g).prev else c48 ((s.grid g).next + 2 ^ 48 - 1)
  else ((((u5 s.st : Nat) : Int) - (u5 (s.epoch g) : Nat)) / (s.per5 g : Nat) % 2 ^ 48).toNat

/-- TGETC (R242). -/
def execTgetc (m : Fin 16) (gd ga : Fin 32) (s : State) : Host.Outcome State Fault Refusal :=
  let w := encST 0x03 gd ga 0 0
  isa m w (fun s x =>
    let g := (x.get ga).toNat
    if !pairOk gd then illegal w
    else if 3 < g then stDone m .unsupported s
    else if !s.running g then stDone m .busy s
    else
      let n := s.courseNow g
      stDone m .ok (s.setMason m (x.puts gd [BitVec.ofNat 32 n, BitVec.ofNat 32 (n / 2 ^ 32)]))) s

/-! ### Hods -/

/-- HOPEN (R192, R242). -/
def execHopen (m : Fin 16) (gd ga gb : Fin 32) (s : State) : Host.Outcome State Fault Refusal :=
  isa m (encST 0x08 gd ga gb 0) (fun s x =>
    let sid := (x.get ga).toNat
    let course := (x.get gb).toNat
    if s.mode != 3 then stDone m .mode s
    else if 8192 ≤ sid || !s.b (F.SE_CTL_VALID sid) || !s.b (F.SE_CTL_ACT sid) || !s.masonWritten sid || s.f (F.SE_CTL_MASON sid) != m.val then
      stDone m .addr s
    else if (x.slotOf sid).isSome then stDone m .busy s
    else match x.freeSlot with
      | none => stDone m .busy s
      | some k => stDone m .ok (s.setMason m ((x.setSlot k (some ⟨sid, course, [], course, s.cyc⟩)).put gd (BitVec.ofNat 32 k)))) s

/-- The course number of 48 bits that is nearest to a reference and has the given low word. -/
def near48 (ref low : Nat) : Nat :=
  let d := (low + 2 ^ 32 - ref % 2 ^ 32) % 2 ^ 32
  c48 (if d < 2 ^ 31 then ref + d else ref + 2 ^ 48 + d - 2 ^ 32)

/-- What a record written by a mason covers (R255 to R262): its first course, the courses it covers, and its values and DEC where it is a SAMPLES
record. `ref` is a course near it, `cursor` the hod's cursor. -/
def parseRec (ref cursor : Nat) (ws : List Word) : Rec × Nat × Nat :=
  let h := (ws.headD 0).toNat
  let word (i : Nat) : Nat := (ws.getD i 0).toNat
  let wide (first cover : Nat) : Rec × Nat × Nat := (⟨ws, first, cover⟩, 0, 0)
  let first48 := word 1 % 65536 * 2 ^ 32 + word 2
  match bits h 31 28 with
  | 1 =>
    let cw := b2n (bit h 11)
    let extra := cw + b2n (bit h 9)
    let d := ws.length - 1 - extra
    let n := 32 * d / (if bit h 12 then 16 else 24) - b2n (bit h 10)
    let dec := if bit h 9 then word (1 + cw) % 65536 + 1 else 0
    (⟨ws, near48 ref (if bit h 11 then word 1 else cursor), n * max dec 1⟩, n, dec)
  | 2 =>
    let ts := (unpackVals 40 (4 * (ws.length - 2) / 5) (ws.drop 2)).map fun e => e / 2 ^ 24
    wide (near48 ref (word 1)) (1 + ts.sum)
  | 4 => wide first48 (if bits h 7 4 = 4 then 0 else word 3)
  | 6 => wide first48 (word 3)
  | 7 => wide (near48 ref (word 1)) (word 2 % 65536 + 1)
  | 3 => wide (word 1 % 65536 * 2 ^ 32 + word 2) 0
  | _ => wide (near48 ref cursor) 0

/-- Check 7 of R193: the record types that a mason may write. -/
def masonType (t : Nat) : Bool := t == 1 || t == 2 || t == 3 || t == 4 || t == 6 || t == 7 || t == 9

/-- A record appended to the hod of a slot where it fits (check 8 of R193); a GAP record counts as lost what it covers (R194, R260). -/
def appendRec (m k : Nat) (h : Open) (r : Rec) (values dec : Nat) (s : State) : Turn :=
  if s.hodLimit h.sid < recWords h.recs + r.words.length then stDone m .length s
  else
    let s1 := s.setMason m ((s.mason m).setSlot k (some (h.add r values dec)))
    let s2 := s1.when (r.typ == 4) fun s => s.setTwo (R.SE_LOST h.sid) (s.two (R.SE_LOST h.sid) + r.cover)
    stDone m .ok s2

/-- The crossing FIFO into the shared packer holds its 64 words: it is full (R193; notes/assumptions/5.md). -/
def State.hputFull (s : State) : Bool := decide (64 ≤ (s.hputs.map fun x => ceilDiv x.1 1000000).sum)

/-- A record of hput enters the crossing FIFO and joins the hod of its slot; that of a pressed stream crosses at the rate reserved of its engine
(R193, R287). -/
def hputRec (m k : Nat) (h : Open) (ws : List Word) (s : State) : Turn :=
  let (r, values, dec) := parseRec (s.grid (s.f (F.SE_CTL_GRID h.sid))).next h.cursor ws
  let e := if s.pressed h.sid then some (s.f (F.SE_REP_ENG h.sid)) else none
  appendRec m k h r values dec { s with hputs := s.hputs ++ [(1000000 * ws.length, e)] }

/-- HPUT with its checks in the order of R193; it stalls while the crossing FIFO is full. -/
def execHput (m : Fin 16) (ga gb gc : Fin 32) (s : State) : Host.Outcome State Fault Refusal :=
  isa m (encST 0x09 0 ga gb gc) (fun s x =>
    let k := (x.get ga).toNat
    let a := (x.get gb).toNat
    let n := (x.get gc).toNat
    if 3 < k then stDone m .addr s
    else if n = 0 ∨ 1022 < n then stDone m .length s
    else match s.dataTrap m a (4 * n) 4 false with
      | some (c, v) => .trap c v
      | none => match x.slot k with
        | none => stDone m .addr s
        | some h =>
          if s.badRange (dmem m + a) (4 * n) then .trap 5 a
          else
            let ws := s.dwords m a n
            let hd := (ws.headD 0).toNat
            if bits hd 27 16 ≠ n - 1 then stDone m .length s
            else if !masonType (bits hd 31 28) then stDone m .unsupported s
            else if s.hodLimit h.sid < recWords h.recs + n then stDone m .length s
            else if s.hputFull then .stall
            else hputRec m k h ws s) s

/-- HCLOSE (R195, R242). -/
def execHclose (m : Fin 16) (ga : Fin 32) (s : State) : Host.Outcome State Fault Refusal :=
  isa m (encST 0x0A 0 ga 0 0) (fun s x =>
    let k := (x.get ga).toNat
    if 3 < k ∨ x.slot k = none then stDone m .addr s else stDone m .ok (s.handSlot m k)) s

/-- MARK (R245), with the checks of R193. -/
def execMark (m : Fin 16) (ga gb gc gd : Fin 32) (s : State) : Host.Outcome State Fault Refusal :=
  let w := encST 0x0B ga gb gc gd
  isa m w (fun s x =>
    if !(groupOk ga && pairOk gc && pairOk gd) then illegal w
    else
      let k := (x.get gb).toNat
      if 3 < k then stDone m .addr s
      else match x.slot k with
        | none => stDone m .addr s
        | some h =>
          appendRec m k h (markRec (c48 (x.pair gc)) ((x.get ga).toNat % 64) (s.f (F.SE_CTL_GRID h.sid)) 0 (x.pair gd) 0 0
            (s.f F.TIME_STAT_QUALITY) false false false) 0 0 s) s

/-- GAP (R245), with the checks of R193. -/
def execGap (m : Fin 16) (ga gb gc : Fin 32) (s : State) : Host.Outcome State Fault Refusal :=
  let w := encST 0x0C 0 ga gb gc
  isa m w (fun s x =>
    if !pairOk gb then illegal w
    else
      let k := (x.get ga).toNat
      let n := (x.get gc).toNat
      if 3 < k then stDone m .addr s
      else if n = 0 then stDone m .length s
      else match x.slot k with
        | none => stDone m .addr s
        | some h => appendRec m k h (gapRec ⟨c48 (x.pair gb), n, 3, s.f F.TIME_STAT_QUALITY, false⟩) 0 0 s) s

/-! ### Pallet queues (R211 to R217, R242) -/

/-- An instruction on the queue that a register names: ADDR for a number above 63 (R242). -/
def pqIsa (m : Fin 16) (w : Word) (ga : Fin 32) (f : State → Mason → Nat → Turn) (s : State) : Host.Outcome State Fault Refusal :=
  isa m w (fun s x => let q := (x.get ga).toNat; if 63 < q then stDone m .addr s else f s x q) s

/-- PQGET: on an empty queue gd receives the returned word all the same (R213, R240). -/
def execPqget (m : Fin 16) (gd ga : Fin 32) (s : State) : Host.Outcome State Fault Refusal :=
  pqIsa m (encST 0x10 gd ga 0 0) ga (fun s x q =>
    let (s1, v, got) := s.pqPop q
    stDone m (if got then .ok else .busy) (s1.setMason m (x.put gd v))) s

/-- PQPUT: it stalls while the queue is full (R217). -/
def execPqput (m : Fin 16) (ga gb : Fin 32) (s : State) : Host.Outcome State Fault Refusal :=
  pqIsa m (encST 0x11 0 ga gb 0) ga (fun s x q =>
    if (s.pq q).full then .stall else stDone m .ok (s.setPq q ((s.pq q).push (x.get gb)))) s

/-- PQPUTN. -/
def execPqputn (m : Fin 16) (ga gb : Fin 32) (s : State) : Host.Outcome State Fault Refusal :=
  pqIsa m (encST 0x12 0 ga gb 0) ga (fun s x q =>
    if (s.pq q).full then stDone m .busy s else stDone m .ok (s.setPq q ((s.pq q).push (x.get gb)))) s

/-- PQOPEN: BUSY and a framing error while an item is open (R214); it stalls while the queue is full (R217). -/
def execPqopen (m : Fin 16) (ga gb : Fin 32) (s : State) : Host.Outcome State Fault Refusal :=
  pqIsa m (encST 0x13 0 ga gb 0) ga (fun s x q =>
    if (s.pq q).item.isSome then stDone m .busy (s.pqFlag q 7)
    else if (s.pq q).full then .stall
    else stDone m .ok (s.setPq q ((s.pq q).start ((x.get gb).toNat % 65536)))) s

/-- PQCLOSE. -/
def execPqclose (m : Fin 16) (ga : Fin 32) (s : State) : Host.Outcome State Fault Refusal :=
  pqIsa m (encST 0x14 0 ga 0 0) ga (fun s _ q => let (s1, c) := s.pqClose q; stDone m c s1) s

/-- PQFLUSH. -/
def execPqflush (m : Fin 16) (ga : Fin 32) (s : State) : Host.Outcome State Fault Refusal :=
  pqIsa m (encST 0x15 0 ga 0 0) ga (fun s _ q => stDone m .ok (s.setPq q (s.pq q).flush)) s

/-- PQCNT. -/
def execPqcnt (m : Fin 16) (gd ga : Fin 32) (s : State) : Host.Outcome State Fault Refusal :=
  pqIsa m (encST 0x16 gd ga 0 0) ga (fun s x q => stDone m .ok (s.setMason m (x.put gd (s.pq q).image))) s

end Sys2Proof.Machine
end

