-- ==== Sys2Proof/Machine/Live.lean ====
section
/-!
DEFINITION. The registers that the hub computes from its other state (R30, R106, R107), what a read of a register sees, and the values that the registers
of a block under test keep (R419, R474).
-/

namespace Sys2Proof.Machine

/-! ### Time -/

/-- U of the calendar view, in seconds (R105). -/
def State.calSec (s : State) : Int := ((s.rtc / 32768 : Nat) : Int) - (s.w R.RTC_UTC_OFS).toInt

/-- The calendar view is in range (R105). -/
def State.calValid (s : State) : Bool := decide (0 ≤ s.calSec) && decide (s.calSec < 13569465600)

/-- Year, month and day of a count of days since 1970-01-01 in the proleptic Gregorian calendar (R105). The count runs in years that begin on the
first of March, so that a leap day ends its year. -/
def civil (days : Nat) : Nat × Nat × Nat :=
  let z := days + 719468
  let era := z / 146097
  let doe := z % 146097
  let yoe := (doe - doe / 1460 + doe / 36524 - doe / 146096) / 365
  let doy := doe - (365 * yoe + yoe / 4 - yoe / 100)
  let mp := (5 * doy + 2) / 153
  let m := if mp < 10 then mp + 3 else mp - 9
  (yoe + era * 400 + (if m ≤ 2 then 1 else 0), m, doy - (153 * mp + 2) / 5 + 1)

/-- RTC_CAL_DATE and RTC_CAL_TIME (R105). -/
def State.calWords (s : State) : Word × Word :=
  if !s.calValid then (0, 0)
  else
    let u := s.calSec.toNat
    let (y, m, d) := civil (u / 86400)
    (BitVec.ofNat 32 (y * 65536 + m * 256 + d),
     BitVec.ofNat 32 ((u / 86400 + 3) % 7 * 2 ^ 24 + u % 86400 / 3600 * 65536 + u % 3600 / 60 * 256 + u % 60))

/-- A word of a number, lowest first. -/
def wordAt (n k : Nat) : Word := BitVec.ofNat 32 (n / 2 ^ (32 * k))

/-- A word of a time value, lowest first. -/
def timeWord (t k : Nat) : Word := (timeWords t).getD k 0

/-- The TIME registers that the hub computes. -/
def State.liveTime (s : State) (a : Nat) : Option Word :=
  if R.ST ≤ a ∧ a < R.ST_SET then some (timeWord s.st ((a - R.ST) / 4))
  else if a = R.RTC_SUB then some (BitVec.ofNat 32 (s.rtc % 32768))
  else if a = R.RTC_SEC then some (wordAt (s.rtc / 32768) 0)
  else if a = R.RTC_SEC_H then some (wordAt (s.rtc / 32768) 1)
  else if a = R.RTC_CAL_DATE then some s.calWords.1
  else if a = R.RTC_CAL_TIME then some s.calWords.2
  else if a = R.RTC_STAT then some (s.w a ||| BitVec.ofNat 32 (b2n s.calValid * 2))
  else if 0x20100 ≤ a ∧ a < 0x20200 then
    let g := (a - 0x20100) / 0x40
    let o := (a - 0x20100) % 0x40
    if (o = 0x20 ∨ o = 0x24) ∧ s.running g then some (wordAt (s.courseNow g) ((o - 0x20) / 4)) else none
  else if 0x20300 ≤ a ∧ a < 0x20400 ∧ a % 16 = 12 then
    some (s.w a ||| BitVec.ofNat 32 (Tab.get (fun _ => []) s.tsq ((a - 0x20300) / 16)).length)
  else none

/-! ### Filter engines -/

/-- A sum of rates in thousands, rounded down. -/
def Frac.kilo (x : Frac) : Nat := x.num / (1000 * x.den)

/-- Bits set at the places that a list names. -/
def bitsOf (xs : List Nat) : Nat := xs.foldl (fun n i => n ||| 2 ^ i) 0

/-- FP_STAT (R112, R132). -/
def State.fpStat (s : State) (t p : Nat) : Nat :=
  let st := if s.pathIdle t p then 0 else max 1 (s.f (F.FP_STAT_STATE t p))
  bitsOf (s.chanSet t p) * 65536 + st * 256 + b2n (s.pathSettling t p) * 16 + s.f (F.FP_STAT_ACT t p)

/-- The registers of a path that the hub computes, by offset (R112, R116, R117, R129, R504). -/
def State.livePath (s : State) (t p o : Nat) : Option Word :=
  let c := s.pathAct t p
  let i := s.slowChan t p
  let used := !(s.chanSet t p).isEmpty
  let only (n : Nat) : Nat := if used then n else 0
  match o with
  | 0x14 => some (BitVec.ofNat 32 (s.fpStat t p))
  | 0x18 => some (BitVec.ofNat 32 (c.shift * 2 ^ 24 + c.norm))
  | 0x1C => some (BitVec.ofNat 32 (only (s.settleOf c t i)))
  | 0x20 => some (BitVec.ofNat 32 (only (s.tailOf c t i)))
  | 0x24 => some (BitVec.ofNat 32 (s.pathShown t p).kilo)
  | 0x2C => some (wordAt (only (s.gdTotal t p)) 0)
  | 0x30 => some (wordAt (only (s.gdTotal t p)) 1)
  | _ => none

/-- The paths of an engine that are not IDLE. -/
def State.pathsActive (s : State) (t : Nat) : Nat := ((range' 0 8).filter fun p => !s.pathIdle t p).length

/-- The filter-engine registers that the hub computes; DET_VAL2 reads zero but for PEAK (R144). -/
def State.liveTile (s : State) (a : Nat) : Option Word :=
  let t := (a - 0x200000) / 0x10000
  let o := (a - 0x200000) % 0x10000
  if o = 0x1004 then some (BitVec.ofNat 32 (s.pathsActive t * 256 + b2n (s.pathsActive t == 0)))
  else if o = 0x1008 then some (BitVec.ofNat 32 (s.engineLoad t).kilo)
  else if 0x1100 ≤ o ∧ o < 0x1300 then s.livePath t ((o - 0x1100) / 0x40) ((o - 0x1100) % 0x40)
  else if 0x1400 ≤ o ∧ o < 0x1800 ∧ o % 0x20 = 0x10 ∧ s.f (F.DET_CTL_TYPE t ((o - 0x1400) / 0x20)) ≠ 0 then some 0
  else none

/-! ### Triggers, press and yard -/

/-- The TRIG registers that the hub computes (R157, R174). -/
def State.liveTrig (s : State) (a : Nat) : Option Word :=
  if a = R.WS_USED then some (BitVec.ofNat 32 s.wsUsed)
  else if a < 0x44000 ∧ a % 256 = 0x48 then
    let g := (a - 0x40000) / 256
    some (s.w a ||| BitVec.ofNat 32 ((s.groupLinks g).length * 65536 + min 0x7FFF (s.tg g).supp * 2))
  else if 0x49000 ≤ a ∧ a < 0x4A000 then
    let l := (a - 0x49000) / 4
    if s.b (F.WS_LINK_VALID l) then
      some (BitVec.ofNat 32 (s.skewOf (s.f (F.WS_LINK_GROUP l)) (s.f (F.WS_LINK_SID l)) * 65536 + s.linkWords l))
    else some 0
  else none

/-- The PRESS registers that the hub computes (R292, R304). -/
def State.livePress (s : State) (a : Nat) : Option Word :=
  if 0x50100 ≤ a ∧ a < 0x50200 then
    let e := (a - 0x50100) / 0x40
    match (a - 0x50100) % 0x40 with
    | 0x4 => some (s.w a ||| BitVec.ofNat 32 (s.pack (engKey e)).length)
    | 0x8 => some (BitVec.ofNat 32 (s.pressLoad e).kilo)
    | _ => none
  else none

/-- The hods that the masons hold open. -/
def State.masonHods (s : State) : Nat :=
  (((range' 0 16).map fun m => ((range' 0 4).filter fun k => ((s.mason m).slot k).isSome).length)).sum

/-- The fill of a ring in whole percent, rounded down. -/
def State.fill (s : State) (p : Nat) : Nat := if s.ringSize p = 0 then 0 else s.ringUsed p * 100 / s.ringSize p

/-- The YARD registers that the hub computes (R263, R284). -/
def State.liveYard (s : State) (a : Nat) : Option Word :=
  if 0x60100 ≤ a ∧ a < 0x60500 then
    let p := (a - 0x60100) / 0x40
    match (a - 0x60100) % 0x40 with
    | 0x4 => some (s.w a ||| BitVec.ofNat 32 (b2n (decide (0 < s.f (F.RING_CFG_SIZE p)) && s.portUp p) * 2 ^ 27 + s.fill p))
    | 0x8 => some (BitVec.ofNat 32 (s.ringUsed p))
    | _ => none
  else if 0x60880 ≤ a ∧ a < 0x608E4 then
    let k := (a - 0x60880) / 4
    some (s.w a ||| BitVec.ofNat 32 (if k = 24 then s.masonHods else (s.pack k).length))
  else none

/-! ### Lanes and ports -/

/-- The LANES registers that the hub computes: LANE_STAT.LOS and LOL read zero in OFF (R331), and LANE_EQ.FROZEN under HOLD (R320). -/
def State.liveLane (s : State) (a : Nat) : Option Word :=
  if a < 0x88000 then
    let n := (a - 0x80000) / 0x400
    match (a - 0x80000) % 0x400 with
    | 0x4 => if s.lst n = 7 then some (s.w a &&& ~~~0x30#32) else none
    | 0x18 => some (s.w a ||| BitVec.ofNat 32 (b2n (s.b (F.LANE_EQ_HOLD n)) * 16))
    | _ => none
  else none

/-- The hods that a class may still send, at most 255 (R348, R370). -/
def Port.show (x : Port) (c : Nat) : Nat := if x.hasCredit c then min 255 (x.credit c) else 0

/-- The PORTS registers that the hub computes (R357, R370). -/
def State.livePort (s : State) (a : Nat) : Option Word :=
  if a = R.TAG_OUT then some (BitVec.ofNat 32 s.tagsOut.length)
  else if 0x90100 ≤ a ∧ a < 0x90500 then
    let p := (a - 0x90100) / 0x40
    let x := s.port p
    match (a - 0x90100) % 0x40 with
    | 0x0 => some (s.w a ||| BitVec.ofNat 32 (b2n (s.portUp p && x.gotLink) * 2 ^ 31))
    | 0x18 => some (BitVec.ofNat 32 (x.show 3 * 2 ^ 24 + x.show 2 * 65536 + x.show 1 * 256 + x.show 0))
    | _ => none
  else none

/-! ### Streams, masons, pallet queues, the cornerstone and the rest -/

/-- A stream that no reducer represents: a mason writes it, or its source is a detector (R165). -/
def State.unreduced (s : State) (k : Nat) : Bool := s.masonWritten k || s.f (F.SE_CTL_SRC_KIND k) != 0

/-- SE_STAT: GAP while a run of lost courses is open, LINKED while a valid link names the stream. FALLBACK and WINDOW are those of an active stream's
latest course; without a reducer, FALLBACK follows the watermarks (R175, R197, R275). -/
def State.liveStream (s : State) (a : Nat) : Option Word :=
  if a % 32 = 12 then
    let k := (a - 0x100000) / 32
    let act := s.b (F.SE_CTL_ACT k)
    let fb := act && if s.unreduced k then s.fallbackNow k else s.b (F.SE_STAT_FALLBACK k)
    let win := act && !s.unreduced k && s.b (F.SE_STAT_WINDOW k)
    some ((s.w a &&& 0xFFFFFFCF)
      ||| BitVec.ofNat 32 (b2n win * 32 + b2n fb * 16 + b2n ((s.run k).isSome || (s.str k).lost.isSome) * 8 + b2n (s.linkOf k).isSome))
  else none

/-- The mason registers that the hub computes (R192, R219). -/
def State.liveMason (s : State) (a : Nat) : Option Word :=
  let m := (a - 0x400000) / 0x40000
  match (a - 0x400000) % 0x40000 with
  | 0x30004 => some (s.w a ||| BitVec.ofNat 32 (bitsOf ((range' 0 4).filter fun k => ((s.mason m).slot k).isSome) * 65536))
  | 0x30020 => some (BitVec.ofNat 32 (s.mason m).inbox.length)
  | 0x30030 => some (BitVec.ofNat 32 ((s.mason m).pc % 65536))
  | _ => none

/-- The queues of a half that hold a committed word. -/
def State.notEmpty (s : State) (from_ : Nat) : Nat := bitsOf ((range' 0 32).filter fun k => (s.pq (from_ + k)).words != [])

/-- The pallet registers that the hub computes (R213, R220). -/
def State.livePallet (s : State) (a : Nat) : Option Word :=
  if a = R.PQ_NE_L then some (BitVec.ofNat 32 (s.notEmpty 0))
  else if a = R.PQ_NE_H then some (BitVec.ofNat 32 (s.notEmpty 32))
  else if a < 0xC1000 then
    let x := s.pq ((a - 0xC0000) / 0x40)
    match (a - 0xC0000) % 0x40 with
    | 0x8 => some x.image
    | 0xC => some ((s.w a &&& ~~~3#32) ||| BitVec.ofNat 32 (b2n x.item.isSome * 2 + b2n (x.words == [])))
    | _ => none
  else none

/-- What a register shows beside what it stores. -/
def State.live? (s : State) (a : Nat) : Option Word :=
  if a < 0x20000 then none
  else if a < 0x30000 then s.liveTime a
  else if a < 0x40000 then
    if a = R.HK_STAT then some ((s.w a &&& ~~~4#32) ||| BitVec.ofNat 32 (b2n (!s.b F.HK_CTL_EN && !s.b F.HK_STAT_RUN) * 4)) else none
  else if a < 0x50000 then s.liveTrig a
  else if a < 0x60000 then s.livePress a
  else if a < 0x70000 then s.liveYard a
  else if a < 0x80000 then none
  else if a < 0x90000 then s.liveLane a
  else if a < 0xA0000 then s.livePort a
  else if a < 0xB0000 then
    if 0xA0400 ≤ a ∧ a < 0xA0570 then some ((Config.kilnExp ((a - 0xA0400) / 4)).setWidth 32) else none
  else if a < 0xC0000 then
    if a = R.CS_STAT then some (s.w a ||| BitVec.ofNat 32 (b2n (s.metering != []) * 4))
    else if a = R.CS_UID then some (wordAt Config.uid.toNat 0)
    else if a = R.CS_UID_H then some (wordAt Config.uid.toNat 1)
    else none
  else if a < 0xD0000 then s.livePallet a
  else if a < 0x140000 then s.liveStream a
  else if a < 0x380000 then s.liveTile a
  else s.liveMason a

/-- The bits of the register at an address that a read returns, those that a read clears, whether it reads as a shadow, and how many words the
read snapshots (R4, R5, R106). -/
def readMask (a : Nat) : Word × Word × Word × Nat :=
  match rowAt a with
  | some (x, _, _) => (BitVec.ofNat 32 (x.rw ||| x.w1c ||| x.w1s ||| x.ro ||| x.rc ||| x.sh), BitVec.ofNat 32 x.rc, BitVec.ofNat 32 x.sh, x.mw)
  | none => (0, 0, 0, 0)

/-! ### A block under test (R419, R474) -/

/-- The addresses of the registers of a block that the hub computes. -/
def liveIn (kind i : Nat) : List Nat :=
  match kind with
  | 2 =>
    let b := 0x200000 + i * 0x10000
    [b + 0x1004, b + 0x1008] ++ (range' 0 8).flatMap fun p => [0x14, 0x18, 0x1C, 0x20, 0x24, 0x2C, 0x30].map fun o => b + 0x1100 + p * 0x40 + o
  | 3 => [0x30004, 0x30020, 0x30030].map fun o => 0x400000 + i * 0x40000 + o
  | 4 => [R.PC_CTL i + 4, R.PC_CTL i + 8]
  | 6 => [R.HK_STAT]
  | 7 => (range' (4 * i) 4).flatMap fun n => [0x80004 + n * 0x400, 0x80018 + n * 0x400]
  | 9 => [R.CS_STAT, R.CS_UID, R.CS_UID_H]
  | 11 => R.WS_USED :: (range' 0 64).map (fun g => 0x40048 + g * 256) ++ (range' 0 1024).map fun l => 0x49000 + 4 * l
  | 12 => R.PQ_NE_L :: R.PQ_NE_H :: (range' 0 64).flatMap fun q => [0xC0008 + q * 0x40, 0xC000C + q * 0x40]
  | 13 => (range' 0 8192).map fun k => 0x10000C + k * 32
  | _ => []

/-- What a register shows: what the hub computes, or what it stores. -/
def State.shown (s : State) (a : Nat) : Word := (s.live? a).getD (s.w a)

/-- The registers of a block as they read now. -/
def State.blockView (s : State) (kind i : Nat) : Tab Word :=
  (liveIn kind i).foldl (fun t a => Tab.set resetWord t a (s.shown a)) (s.regs.filter fun x => testCovers kind i x.1)

/-- The registers of the block under test are kept as they read. -/
def State.keepView (s : State) : State :=
  { s with snap := match s.testing with
      | some (k, i) => s.blockView k i
      | none => [] }

/-- A segment of a kiln run begins (R463, R464). -/
def State.segStart (s : State) (seg : Nat) : State := (s.setF F.KILN_STAT_SEG seg).keepView

/-- The value of a register now, of a shadow register its value in the domain that keeps it; zero at an unassigned offset; of a block under test the
value at the start of the test (R2, R4, R474). -/
def State.view (s : State) (a : Nat) : Word :=
  (if s.underTest a then Tab.get resetWord s.snap a else s.shown a) &&& (readMask a).1

end Sys2Proof.Machine
end

