-- ==== Sys2Proof/Machine/Reset.lean ====
section
/-!
DEFINITION. The commands of power and reset: the eight sources (R437 to R441), the supplies (R102, R436, R457), the watchdog (R440), requests for a
reset, a lockup, and the instruction of the test access port (R476, R498).
-/

namespace Sys2Proof.Machine

/-! ### Supplies -/

/-- POR (R437, R442): VDD_AON falls; a batch in progress ends on the hold-up energy, and only MRAM and what VBAT keeps survives. -/
def execPor (s : State) : Host.Outcome State Fault Refusal :=
  .next (if s.aon then ({ s.finishBatch with aon := false } : State).hubReset 0 else s)

/-- VDD_AON rises, which ends the POR; the release waits for main power good (R437, R453). -/
def execVddAonPowerOn (s : State) : Host.Outcome State Fault Refusal :=
  .next (if s.aon then s
    else
      let s1 := { s with aon := true, vbat := true, rel := if s.mainGood then 2 else 1 }
      if s1.csOn then s1.csRestore else s1)

/-- The voltages in the order of PWR_STAT. -/
def railVolts (x : Rails) : List Nat := [x.core, x.ana, x.ser, x.serh, x.yard, x.io]

/-- The power-good and brown-out levels of a rail in mV (R485). -/
def railLevels : List (Nat × Nat) := [(680, 660), (1620, 1580), (820, 800), (1080, 1050), (1000, 970), (1620, 1580)]

/-- A comparator's level in mV, within its tolerance. -/
def railLevel (nominal i : Nat) : Nat := nominal + Config.railTol i % 21 - 10

/-- Whether a voltage stands above a level: a rising one crosses it 20 mV higher (R485). -/
def railAbove (was : Bool) (mv level : Nat) : Bool := if was then decide (level ≤ mv) else decide (level + 20 < mv)

/-- The rails above their power-good levels, and those below their brown-out levels, a bit each, for what they were before. -/
def railMonitor (x : Rails) (pg brown : Nat) : Nat × Nat :=
  (range' 0 6).foldl (fun (a, b) k =>
    let (g, l) := railLevels.getD k (0, 0)
    let mv := (railVolts x).getD k 0
    (a + b2n (railAbove (bit pg k) mv (railLevel g (2 * k))) * 2 ^ k, b + b2n (!railAbove (!bit brown k) mv (railLevel l (2 * k + 1))) * 2 ^ k)) (0, 0)

/-- The monitors of the main supplies show their levels in PWR_STAT. A rail that falls below its brown-out level is a BOR in every mode but DORMANT; one
that leaves power good holds back a release that has not begun (R436, R437, R457, R486). Internal scan ends in no BOR (R476). -/
def State.rails (s : State) (pg brown : Nat) : State :=
  let fell := (range' 0 6).any fun k => bit brown k && !bit s.brown k
  let s1 : State := { s with pgood := s.pgood && pg == 0x3F, brown := brown }.setF F.PWR_STAT_PG pg
  if s.aon && !s.scan && s.mode != 0 && fell then s1.finishBatch.hubReset 1
  else if !s1.pgood && s1.rel == 2 then { s1 with rel := 1 } else s1

/-- BOR: the main rails stand at new voltages (R437, R485). -/
def execBor (x : Rails) (s : State) : Host.Outcome State Fault Refusal :=
  .next (let (pg, brown) := railMonitor x (s.f F.PWR_STAT_PG) s.brown; s.rails pg brown)

/-- Every main supply has been above its level for 100 µs (R436): a release that waits begins. -/
def execMainPowerGood (s : State) : Host.Outcome State Fault Refusal :=
  .next (let s1 : State := { s.rails 0x3F 0 with pgood := true }
    if s1.rel = 1 then { s1 with rel := 2 } else s1)

/-- The main supplies are removed, which outside DORMANT is a brown-out (R437, R457). -/
def execMainPowerLoss (s : State) : Host.Outcome State Fault Refusal := .next (s.rails 0 0x3F)

/-- VBAT is lost while VDD_AON is absent: the RTC and the registers on it lose their contents, and the RTC stands still until power returns (R102). -/
def execVbatLoss (s : State) : Host.Outcome State Fault Refusal :=
  .next (if s.aon then s
    else
      let s1 := ({ s with vbat := false, rtc := 0, rtcPhase := 0, rtcLoad := none } : State).setW R.RTC_UTC_OFS (resetWord R.RTC_UTC_OFS)
      (s1.setW R.RTC_CTL (resetWord R.RTC_CTL)).setF F.RTC_STAT_VALID 0)

/-! ### Pins and clocks -/

/-- PIN (R439): RST_N has been low for `x.len` ns. A pulse shorter than 1 µs is ignored, one of 5 µs or more resets, and one between may
or may not (notes/assumptions/110.md); `x.cut` is the pulse of a batch that the reset waits for (R442). -/
def execPin (x : Lasted) (s : State) : Host.Outcome State Fault Refusal :=
  act (fun s =>
    let reset (s : State) : State := { s.deferredReset 2 x.cut.toNat with rstLow := true }
    if x.len < 1000 then s
    else if 5000 ≤ x.len then reset s
    else let (s1, d) := s.draw 1; if d = 1 then reset s1 else s1) s

/-- RST_N is high again: the hub leaves reset, and the release begins (R439, R453). -/
def execRstNHigh (s : State) : Host.Outcome State Fault Refusal := .next { s with rstLow := false }

/-- CLKF (R438): a monitored clock fails, 0 the SYS REFCLK, 1 the SYS PLL, 2 the main PLL; the failure is logged before the reset. -/
def execClkf (clock : Fin 3) (n : BitVec 7) (s : State) : Host.Outcome State Fault Refusal :=
  act (fun s => if s.mode = 0 then s else (s.raiseBit R.RPC_EVT 12 0x010D clock.val 0).deferredReset 6 n.toNat) s

/-! ### Watchdog (R440) -/

/-- The AON cycles of a watchdog period. -/
def State.wdtCycles (s : State) : Nat := ceilDiv (s.f F.WDT_CTL_PERIOD * 32768) 1000

/-- WDOG_EXPIRE: `x.len` AON cycles have passed since the count last started; once they are a period the count expires, with a warning first, then a WDOG
reset. -/
def execWdogExpire (x : Lasted) (s : State) : Host.Outcome State Fault Refusal :=
  act (fun s =>
    if !(s.b F.WDT_CTL_EN && s.live && decide (s.wdtCycles ≤ x.len)) then s
    else if s.b F.WDT_STAT_WARN then s.deferredReset 3 x.cut.toNat
    else (s.setF F.WDT_STAT_WARN 1).raiseBit R.RPC_EVT 3 0x0104 0 0) s

/-- A write of WDT_KICK. -/
def execWdtKick (r : Req) (v : Word) (s : State) : Host.Outcome State Fault Refusal :=
  act (regWrite r R.WDT_KICK noLock fun s =>
    if bits v.toNat 15 0 = 0x4B49 then (s.setF F.WDT_STAT_WARN 0).fin .ok else s.fin .unsupported) s

/-! ### Resets on request -/

/-- Another requester owns MODE (R421, R422). -/
def State.notOwner (s : State) (r : Req) : Bool := s.b F.MODE_OWNER_OWNER && s.f F.MODE_OWNER_OWNER != reqCode r

/-- A write of RST_CTL: SOFT is refused while another requester owns MODE; else LOCKUP_ACT is written, and the write completes before the reset
(R437, R441, R462). -/
def State.writeRstCtl (s : State) (r : Req) (v : Word) (n : Nat) : State :=
  if wbit v 0 && s.notOwner r then s.fin .busy
  else
    let s1 := (s.setF F.RST_CTL_LOCKUP_ACT (bits v.toNat 8 8)).fin .ok
    s1.when (wbit v 0) fun s => s.deferredReset 4 n

/-- SOFT (R441). -/
def execSoft (r : Req) (v : Word) (n : BitVec 7) (s : State) : Host.Outcome State Fault Refusal :=
  act (regWrite r R.RST_CTL noLock fun s => s.writeRstCtl r v n.toNat) s

/-- DEBUG (R437, R476): a reset request through the JTAG port, which also leaves internal scan. -/
def State.debugReset (s : State) (n : Nat) : State := if s.aon && !s.rstLow then s.deferredReset 5 n else s

/-- DEBUG. -/
def execDebugReset (n : BitVec 7) (s : State) : Host.Outcome State Fault Refusal := .next (s.debugReset n.toNat)

/-- The rld that a running mason stands at has been answered BUSY, and traps with REGLOAD (R234). -/
def State.rldStuck (s : State) (m : Nat) : State :=
  let x := s.mason m
  let w := s.wordLE (imem m + x.pc)
  let a := x.addr (bits w.toNat 20 16) (BitVec.ofNat 16 w.toNat)
  s.when (bits w.toNat 31 26 == 0x1A && s.fetches m w) fun s => s.trap m 4 a

/-- LOCKUP (R234, R358, R417, R437): a fabric access has lasted `x.us` microseconds; once that is FAB_TMO it is a lockup: that of the oldest request of a
port, of the management port, or of a mason's rld, which then traps. Source 16 stands for the fabric. With LOCKUP_ACT the access completes with BUSY. In
DORMANT only the manager accesses. -/
def execLockup (x : Stuck) (s : State) : Host.Outcome State Fault Refusal :=
  act (fun s =>
    let dormant := match x.who with
      | .manager => false
      | _ => s.mode == 0
    if dormant || decide (x.us < s.f F.FAB_TMO_V) then s
    else if !s.b F.RST_CTL_LOCKUP_ACT then s.lockup 16 0 x.cut.toNat
    else
      let s1 := (s.fin .busy).lockup 16 0 x.cut.toNat
      match x.who with
      | .port p => s1.endAccess p.val
      | .manager => s1.endAccess 16
      | .mason m => s1.rldStuck m.val
      | .other => s1) s

/-! ### The test access port (R476, R498) -/

/-- The port's instruction becomes `code`. A change of the instruction while internal scan is connected raises a DEBUG reset, which keeps the port
(R476); nothing tells how far a batch has come there. The port does not run without VDD_AON, nor while RST_N is low. -/
def State.tapTo (s : State) (code : Nat) : State :=
  if !s.aon || s.rstLow then s
  else if s.scan then
    let (s1, n) := s.draw 6
    { s1.debugReset n with tap := code }
  else { s with tap := code }

end Sys2Proof.Machine
end

