-- ==== Sys2Proof/Machine/Options.lean ====
section
/-!
DEFINITION. The options (R445 to R451): the record and its validity, the load with the CFGR strap (R431, R447, R448, R451), the option commands (R449),
and the writing of boot images (R450).
-/

namespace Sys2Proof.Machine

/-! ### The record (R445, R446) -/

/-- Bits of a word of a record. -/
def recBits (ws : List Nat) (k hi lo : Nat) : Nat := bits (ws.getD k 0) hi lo

/-- The settings of quad `q` in a record. -/
def recQuad (ws : List Nat) (q : Nat) : Nat := if q % 2 = 0 then recBits ws (4 + q / 2) 15 0 else recBits ws (4 + q / 2) 31 16

/-- The role that a record gives port `p`: 0 OFF, 1 UP, 2 DOWN. -/
def recRole (ws : List Nat) (p : Nat) : Nat := if p % 2 = 0 then bits (recQuad ws (p / 2)) 9 8 else bits (recQuad ws (p / 2)) 11 10

/-- The bits that word `k` of a record may have set, of words 2 to 30. -/
def recMask (k : Nat) : Nat :=
  if k = 2 then 0x13333FFF else if k = 3 then 0x030701FF else if 4 ≤ k ∧ k ≤ 7 then 0x3F773F77
  else if k = 8 then 0xFFFFFFFF else if k = 9 then 0x00FFFFFF else if k = 10 then 0x0000FFFF else 0

/-- A quad's settings are values that QUAD_CTL accepts (R305, R308, R309). -/
def quadOk (x : Nat) : Bool :=
  bits x 2 0 != 7 && bits x 5 4 != 3 && bits x 9 8 != 3 && bits x 11 10 != 3 && (bits x 5 4 != 2 || bits x 11 10 == 0)

/-- The check value of a record: CRC-32 of bytes 0 to 123. -/
def recCrc (ws : List Nat) : Nat := crc32 ((ws.take 31).flatMap (natBE 4))

/-- The fields of a record keep R446, but for its CRC. -/
def recFields (ws : List Nat) : Bool :=
  ws.getD 0 0 == 0x564F5054 && recBits ws 1 31 16 == 1
    && (range' 2 29).all (fun k => Nat.land (ws.getD k 0) (recMask k) == ws.getD k 0)
    && decide (recBits ws 2 17 16 ≤ 2) && decide (recBits ws 2 25 24 ≤ 2)
    && (range' 0 8).all (fun q => quadOk (recQuad ws q))
    && decide (((range' 0 16).filter fun p => recRole ws p == 1).length ≤ 8)
    && recRole ws (recBits ws 3 3 0) == 1
    && (recBits ws 3 8 8 == 0 || (recRole ws (recBits ws 3 7 4) == 1 && recBits ws 3 7 4 != recBits ws 3 3 0))
    && decide (1 ≤ recBits ws 9 23 16) && decide (10 ≤ recBits ws 10 15 0)

/-- A record is valid (R446). -/
def recValid (ws : List Nat) : Bool := recFields ws && ws.getD 31 0 == recCrc ws

/-- A record with the CRC that its words 0 to 30 give. -/
def recSealed (ws : List Nat) : List Nat := let x := ws.take 31; x ++ [recCrc x]

/-- The factory defaults (R445). -/
def recFactory : List Nat :=
  recSealed ([0x564F5054, 0x10000, 0x20000, 0, 0x1103, 0, 0, 0, 2500 * 65536 + 100, 30 * 65536, 1000] ++ List.replicate 20 0)

/-- The safe defaults (R448): quad 0 at 1.25 Gb/s and no strap; image and watchdog are off in the factory defaults too. -/
def recSafe : List Nat := recSealed ((recFactory.set 2 0).set 4 0x1100)

/-- The words of an option copy. -/
def State.copyWords (s : State) (b : Bool) : List Nat := (bytesToWords (s.nvBytes (nvOption b) 128)).map fun w => w.toNat

/-- A copy that an error does not hide is blank. -/
def copyBlank (ws : List Nat) (err : Bool) : Bool := !err && ws.all fun x => x == 0xFFFFFFFF

/-! ### The strap (R431, R451) -/

/-- The upper ends of the ranges of CODE. -/
def cfgrEnds : List Nat := [98, 300, 493, 680, 909, 1202, 1560, 1902, 2200, 2530, 2863, 3155, 3402, 3617, 3909]

/-- CODE of a mean. -/
def cfgrCode (raw : Nat) : Nat := (cfgrEnds.filter fun e => decide (e < raw)).length

/-- A mean lies within 24 codes of a boundary between two ranges. -/
def cfgrMarginal (raw : Nat) : Bool := cfgrEnds.any fun e => decide (e ≤ raw + 23) && decide (raw ≤ e + 24)

/-- A record with the strap applied, its word 31 the CRC of the words that it then holds (R445, R451; DEDUCED, notes/assumptions/85.md). -/
def recStrap (ws : List Nat) (code : Nat) : List Nat :=
  recSealed ((ws.set 2 (putBits (ws.getD 2 0) 1 0 code)).set 4 (putBits (ws.getD 4 0) 2 0 (code / 4)))

/-- CFGR is measured. -/
def State.measureCfgr (s : State) (raw : Nat) : State :=
  ((s.setF F.HK_CFGR_RAW raw).setF F.HK_CFGR_CODE (cfgrCode raw)).setF F.HK_CFGR_MARGINAL (b2n (cfgrMarginal raw))

/-! ### The load (R447) -/

/-- What the load takes: SRC, the record, BLANK and OPT_FAULT. -/
def State.chooseCopy (s : State) (errA errB : Bool) : Nat × List Nat × Bool × Bool :=
  let a := s.copyWords false
  let b := s.copyWords true
  if !errA && recValid a then (0, a, false, false)
  else if !errB && recValid b then (1, b, false, false)
  else if copyBlank a errA && copyBlank b errB then (2, recFactory, true, false)
  else (2, recFactory, false, true)

/-- The events and the count of failed loads; three in a row give the safe defaults, and SAFE at the end of the release (R447, R448). -/
def State.loadResult (s : State) (src : Nat) (ws : List Nat) (blank fault : Bool) : State × List Nat :=
  let n := if fault then min 3 (s.f F.OPT_STAT_FAILS + 1) else 0
  let s1 := ((s.setF F.OPT_STAT_SRC src).setF F.OPT_STAT_BLANK (b2n blank)).setF F.OPT_STAT_OPT_FAULT (b2n fault)
  let s2 := (s1.setF F.OPT_STAT_FAILS n).when (src == 1) fun s => s.raiseBit R.RPC_EVT 6 0x0107 0 0
  let s3 := s2.when fault fun s => s.raiseBit R.RPC_EVT 7 0x0108 0 n
  if n = 3 then ({ (s3.setF F.OPT_STAT_SRC 3).raiseBit R.RPC_EVT 8 0x0109 0 n with safeNext := some 0x0109 }, recSafe) else (s3, ws)

/-- The strap, where the record in force asks for it (R451). -/
def State.applyStrap (s : State) (ws : List Nat) (blank : Bool) : State × List Nat :=
  let use_ := recBits ws 2 17 16
  let code := s.f F.HK_CFGR_CODE
  if code != 15 && (use_ == 1 || (use_ == 2 && blank)) then
    let s1 := s.setF F.OPT_STAT_STRAP 1
    (s1.when (s1.b F.HK_CFGR_MARGINAL) fun s => s.raiseBit R.RPC_EVT 11 0x010C 0 (s.f F.HK_CFGR_RAW), recStrap ws code)
  else (s.setF F.OPT_STAT_STRAP 0, ws)

/-- The record in force: OPT_CUR shows it, HID and the quads take it; after a reset the other registers that it sets take their reset values
(R445). A wake is no reset and leaves those as they were (notes/assumptions/60.md). -/
def State.inForce (s : State) (ws : List Nat) : State :=
  let s1 := s.setWs (R.OPT_CUR 0) (ws.map fun x => BitVec.ofNat 32 x)
  let s2 := (s1.setF F.LINK_STAT_HID (recBits ws 2 13 0)).each (range' 0 8) State.loadQuad
  if s.relWake then s2
  else
    let s3 := (s2.setF F.RST_CTL_LOCKUP_ACT (recBits ws 2 28 28)).setF F.TIME_CTL_SRC (recBits ws 2 25 24)
    let s4 := ((s3.setF F.LINK_CFG_PRIMARY (recBits ws 3 3 0)).setF F.LINK_CFG_SECOND (recBits ws 3 7 4)).setF F.LINK_CFG_SECOND_EN (recBits ws 3 8 8)
    let p := recBits ws 9 15 0
    ((s4.setF F.WDT_CTL_PERIOD p).setF F.WDT_CTL_EN (b2n (p != 0))).setF F.FAB_TMO_V (recBits ws 10 15 0)

/-- The end of step 2: the reset, or the wake, is logged, and an RTC without time besides (R102, R453). -/
def State.logRelease (s : State) : State :=
  let s1 := if s.relWake then s.raiseBit R.RPC_EVT 14 0x010F 0 0 else s.raiseBit R.RPC_EVT 0 0x0101 (s.f F.RST_CAUSE_LAST) 0
  s1.when (!s1.b F.RTC_STAT_VALID) fun s => s.raiseBit R.TIME_EVT 9 0x020A 0 0

/-- OPTION_LOAD (R447): step 2 of the release. `raw` is the mean of CFGR; `errA` and `errB` say whether a copy has an uncorrectable error. -/
def execOptionLoad (raw : BitVec 12) (errA errB : Bool) (s : State) : Host.Outcome State Fault Refusal :=
  act (fun s =>
    if s.rel = 2 then
      let (src, ws, blank, fault) := s.chooseCopy errA errB
      let (s1, ws1) := (s.measureCfgr raw.toNat).loadResult src ws blank fault
      let (s2, ws2) := s1.applyStrap ws1 blank
      { (s2.inForce ws2).logRelease with rel := 3 }
    else s) s

/-! ### Option commands (R449) -/

/-- A copy comes into staging. -/
def readCopy (b : Bool) : State → State := fun s =>
  if s.nvBusy then s.fin .busy
  else (s.setWs (R.OPT_STAGE 0) ((s.copyWords b).map fun x => BitVec.ofNat 32 x)).fin .ok

/-- A batch of a host or manager request begins, or is refused for want of energy (R443, R444). -/
def State.startBatch (s : State) (writer addr : Nat) (rows : List (List Byte)) (v : Nat) : State :=
  let (s1, ok) := s.nvCheck (writer / 2) rows.length v
  if ok then s1.begin writer addr rows
  else (s1.setF F.NV_STAT_STATUS Status.nvEnergy.code).fin .nvEnergy

/-- MRAM writes of the host and the manager are accepted in BRINGUP, HOLD, ACQUIRE and SAFE (R449). -/
def State.nvMode (s : State) : Bool := s.mode != 0 && s.mode != 4

/-- Staging is checked and a copy written, two rows (R449). -/
def writeCopy (b : Bool) (v : Nat) : State → State := fun s =>
  let ws := recSealed ((range' 0 31).map fun k => (s.w (R.OPT_STAGE k)).toNat)
  if !s.nvMode then s.fin .mode
  else if !recFields ws then s.fin .unsupported
  else if s.nvBusy then s.fin .busy
  else s.startBatch (b2n b) (nvOption b) (nvRows 2 (ws.flatMap (natBE 4))) v

/-- READ_A. -/
def execReadA (r : Req) (s : State) : Host.Outcome State Fault Refusal := act (regWrite r R.OPT_CMD noLock (readCopy false)) s

/-- READ_B. -/
def execReadB (r : Req) (s : State) : Host.Outcome State Fault Refusal := act (regWrite r R.OPT_CMD noLock (readCopy true)) s

/-- WRITE_A; `vh` is VHOLD as measured before the batch. -/
def execWriteA (r : Req) (vh : BitVec 16) (s : State) : Host.Outcome State Fault Refusal :=
  act (regWrite r R.OPT_CMD noLock (writeCopy false vh.toNat)) s

/-- WRITE_B. -/
def execWriteB (r : Req) (vh : BitVec 16) (s : State) : Host.Outcome State Fault Refusal :=
  act (regWrite r R.OPT_CMD noLock (writeCopy true vh.toNat)) s

/-- NV_CMD (R450, R462): one to four rows of a boot image out of NV_BUF. -/
def execNvCmd (r : Req) (v : Word) (vh : BitVec 16) (s : State) : Host.Outcome State Fault Refusal :=
  act (regWrite r R.NV_CMD noLock fun s =>
    let x := v.toNat
    let target := bits x 29 28
    let n := bits x 25 24 + 1
    let row := bits x 13 0
    if !s.nvMode then s.fin .mode
    else if target < 2 then s.fin .unsupported
    else if 16384 < row + n then s.fin .length
    else if s.nvBusy then s.fin .busy
    else s.startBatch target (nvBoot (target == 3) + 64 * row) (nvRows n (wordsToBytes ((range' 0 64).map fun k => s.w (R.NV_BUF k)))) vh.toNat) s

end Sys2Proof.Machine
end

