-- ==== Sys2Proof/Machine/Cornerstone.lean ====
section
/-!
DEFINITION. The commands of the cornerstone: CS_CMD (R408), the meters (R397 to R405), the seal (R406), the identity (R409), and the loss and
return of its supply (R410). Its uncorrectable error, which sends the hub to SAFE, is in Faults.
-/

namespace Sys2Proof.Machine

/-! ### CS_CMD (R408) -/

/-- A command of the cornerstone ends: CS_CMD_STAT keeps its status. -/
def State.csEnd (s : State) (c : Status) : State := (s.setF F.CS_CMD_STAT_STATUS c.code).fin c

/-- A write of CS_CMD by a requester that may: the lock of the command with its refusal, which takes precedence (R407), the address map, a block under
test, the supply, then the command. -/
def csCmd (r : Req) (locked : State → Bool) (refuse : Bool) (eff : State → State) (s : State) : State :=
  if locked s && accOf r R.CS_CMD == .rw then (s.when refuse fun s => s.csRefuse 0 .locked).csEnd .locked
  else
    match s.mapStop r R.CS_CMD true with
    | some c => s.fin c
    | none => if s.underTest R.CS_CMD then s.fin .busyTest else if !s.csOn then s.fin .busy else eff s

/-- A command that is a legally relevant change: refused at once, or open until the parameter slot is saved (R407, R408). -/
def State.csCommand (s : State) (v : Nat) (next : State → State) (p : CsPend) : State :=
  match s.csChange v next p with
  | (s1, some c) => s1.csEnd c
  | (s1, none) => s1

/-- APPLY (R398, R407, R408): `arg` bit 0 clears the cumulative registers; `vh` is VHOLD as measured for the batches. A
set that meters an input of a tile under test needs that tile (R474). -/
def execApply (r : Req) (arg vh : BitVec 16) (s : State) : Host.Outcome State Fault Refusal :=
  act (csCmd r State.csBlocked true fun s =>
    let ws := s.staged
    if !(s.takeSet ws).csSetOk then s.csEnd .unsupported
    else if (s.takeSet ws).csInputs.any fun k => s.testing == some (1, ((s.takeSet ws).csPlace k).1) then s.csEnd .busyTest
    else if s.nvBusy then s.csEnd .busy
    else s.csCommand vh.toNat (fun s => s.takeSet ws) (.set ws (bit arg.toNat 0) vh.toNat)) s

/-- RELOAD (R408): the active set is copied into the stage. -/
def execReload (r : Req) (s : State) : Host.Outcome State Fault Refusal :=
  act (csCmd r (fun _ => false) false fun s => (s.each csActive fun s a => s.setW (a + 0x400) (s.w a)).csEnd .ok) s

/-- FW_BLOCK (R408): CS_FWBUF becomes block `arg` of the inactive firmware copy, in a batch. -/
def execFwBlock (r : Req) (arg vh : BitVec 16) (s : State) : Host.Outcome State Fault Refusal :=
  act (csCmd r (fun s => s.b F.CS_STAT_SEALED) false fun s =>
    if 48 ≤ arg.toNat then s.csEnd .unsupported
    else if s.nvBusy || s.csStop then s.csEnd .busy
    else
      let (s1, ok) := s.nvCheck 5 64 vh.toNat
      if !ok then s1.csEnd .nvEnergy
      else
        let bs := wordsToBytes ((range' 0 1024).map fun k => s.w (R.CS_FWBUF k))
        s1.begin 7 (nvFw (!s.b F.CS_STAT_FW_COPY) + 4096 * arg.toNat) (nvRows 64 bs)) s

/-- The eight words of CS_FWDIG as bytes. -/
def State.fwDig (s : State) : List Byte := wordsToBytes ((range' 0 8).map fun k => s.w (R.CS_FWDIG k))

/-- FW_COMMIT (R408): the first `arg` blocks of the inactive copy are checked and the copies switched; metering goes on. -/
def execFwCommit (r : Req) (arg vh : BitVec 16) (s : State) : Host.Outcome State Fault Refusal :=
  act (csCmd r State.csBlocked true fun s =>
    let n := arg.toNat
    let other := !s.b F.CS_STAT_FW_COPY
    if n = 0 ∨ 48 < n then s.csEnd .length
    else if sha256 (s.nvBytes (nvFw other) (4096 * n)) != s.fwDig then s.csEnd .crc
    else if s.nvBusy then s.csEnd .busy
    else s.csCommand vh.toNat (fun s => s.setF F.CS_STAT_FW_COPY (b2n other)) (.firmware other)) s

/-! ### Meters -/

/-- r(x) of R400: x / 2^23, rounded half to even. -/
def meterTerm (x : Int) : Int := divEven x (2 ^ 23)

/-- A sample joins a meter's interval (R400, R403). -/
def Meter.sample (x : Meter) (v i : Int) (clipped : Bool) (q : Nat) : Meter :=
  { x with
    n := x.n + 1, sv := x.sv + v, svv := x.svv + meterTerm (v * v), si := x.si + i, sii := x.sii + meterTerm (i * i)
    sp := x.sp + meterTerm (v * i), clips := satAdd 16 x.clips (b2n clipped), q := max x.q q }

/-- Whether a meter works: its supply, the mode, and no uncorrectable error (R402, R411). -/
def State.meterRuns (s : State) (j : Nat) : Bool := s.csOn && !s.csStop && s.live && s.b (F.CSM_CFG_EN j)

/-- The last channel word of a metered input. -/
def State.csWord (s : State) (k : Nat) : Int := let (t, i) := s.csPlace k; Tab.get (fun _ => 0) (s.tile t).word i

/-- METER_SAMPLE: an SMPL edge with common edge count `edge`, at instant `tau` (R397, R400, R403); the intervals that have ended by then end first, so that
the sample joins the one that contains its instant (R402). -/
def execMeterSample (j : Fin 16) (edge tau : Nat) (s : State) : Host.Outcome State Fault Refusal :=
  act (fun s =>
    let j := j.val
    let ks := s.meterInputs j
    let tv := (s.csPlace (s.f (F.CSM_CFG_VIN j))).1
    if !(s.meterRuns j && edge % (s.f (F.TILE_CTL_RDIV tv) * s.mdiv j) == 0) then s
    else
      let s1 := (s.reach tau).closeUpTo j tau
      let x := s1.meter j
      let y := if x.start.isSome then x else { x with start := some tau, sealed := s1.b F.CS_STAT_SEALED, q := 0 }
      let q := s1.f F.TIME_STAT_QUALITY
      let failed := ks.any fun k => s1.b (F.CH_STAT_FAILED (s1.csPlace k).1 (s1.csPlace k).2)
      if ks.any (fun k => !s1.b (F.TILE_STAT_READY (s1.csPlace k).1)) then
        if x.start.isSome then s1.setMeter j { x with missing := true, q := max x.q q } else s1
      else if failed then s1.setMeter j { y with failed := true, q := max y.q q }
      else
        let v := s1.csWord (s1.f (F.CSM_CFG_VIN j))
        let i := if s1.b (F.CSM_CFG_I_EN j) then s1.csWord (s1.f (F.CSM_CFG_IIN j)) else 0
        let cl := ks.any fun k => bit (s1.tile (s1.csPlace k).1).clip (s1.csPlace k).2
        s1.setMeter j (y.sample v i cl q)) s

/-- INTERVAL_END: the ST seconds count has become a multiple of CSP_IVL since the interval began, once or more often (R402, R403). -/
def execIntervalEnd (j : Fin 16) (vh : BitVec 16) (s : State) : Host.Outcome State Fault Refusal :=
  act (fun s =>
    match (s.meter j.val).start with
    | none => s
    | some a =>
      if s.meterRuns j.val ∧ s.boundaryAfter a ≤ s.st then
        (s.endInterval j.val (s.boundaryAfter a) false true vh.toNat).closeUpTo j.val s.st
      else s) s

/-- The carrier of a meter, where its records can be placed (R405). -/
def State.carrier (s : State) (j : Nat) : Option Nat :=
  let k := s.f (F.CSM_OUT_SID j)
  if s.b (F.CSM_OUT_EN j) && s.mode == 3 && s.b (F.SE_CTL_VALID k) && s.b (F.SE_CTL_ACT k) && !s.masonWritten k
      && s.f (F.SE_CTL_SRC_KIND k) == 0 then some k
  else none

/-- METER_RECORD_PLACE: the oldest waiting record of a meter goes to its carrier's packer, which places it before the next course it handles
(R405). -/
def execMeterRecordPlace (j : Fin 16) (s : State) : Host.Outcome State Fault Refusal :=
  act (fun s =>
    let x := s.meter j.val
    match s.csOn, s.carrier j.val, x.buf with
    | true, some k, ws :: more =>
      let s1 := s.setMeter j.val { x with buf := more }
      s1.setStr k { s1.str k with ins := (s1.str k).ins ++ [(0, ⟨ws, 0, 0⟩)] }
    | _, _, _ => s) s

/-! ### Seal, identity, supply -/

/-- What only a cornerstone whose clock runs does. -/
def csAct (f : State → State) (s : State) : Host.Outcome State Fault Refusal := .next (if s.csRuns then f s else s)

/-- SEAL_OPEN: SEAL_N has been low for 1 ms (R406). -/
def execSealOpen (s : State) : Host.Outcome State Fault Refusal :=
  csAct (fun s =>
    if !s.b F.CS_STAT_SEALED then s
    else
      let s1 := (s.setF F.CS_STAT_SEALED 0).each (range' 0 16) fun s j => s.setMeter j { s.meter j with sealed := false }
      s1.csEvent 0 0x0B01 0 0) s

/-- SEAL_CLOSE: SEAL_N has been high for 1 ms (R406). -/
def execSealClose (s : State) : Host.Outcome State Fault Refusal :=
  csAct (fun s => if s.b F.CS_STAT_SEALED then s else (s.setF F.CS_STAT_SEALED 1).csEvent 1 0x0B02 0 0) s

/-- The identity: the SHA-256 of the active firmware copy followed by the digests of the LEGAL images in ascending order of mason (R409). -/
def State.identity (s : State) : List Byte :=
  sha256 (s.nvBytes (nvFw (s.b F.CS_STAT_FW_COPY)) 0x30000 ++ ((range' 0 16).map fun m => Tab.get (fun _ => []) s.csDig m).flatten)

/-- IDENTITY_DONE: CS_IDENT holds the identity and ID_BUSY clears (R409). -/
def execIdentityDone (s : State) : Host.Outcome State Fault Refusal :=
  csAct (fun s =>
    if s.csOn && s.b F.CS_STAT_ID_BUSY then (s.setWs (R.CS_IDENT 0) (bytesToWords s.identity)).setF F.CS_STAT_ID_BUSY 0 else s) s

/-- VDD_CST_LOSS: VDD_CST falls below its loss level and the cornerstone is reset (R410). -/
def execVddCstLoss (s : State) : Host.Outcome State Fault Refusal :=
  .next (if s.csOn then (s.setF F.PWR_STAT_CST 0).csClear else s)

/-- VDD_CST_RETURN: the cornerstone restores its state and computes its identity anew, as soon as its clock runs (R410). -/
def execVddCstReturn (s : State) : Host.Outcome State Fault Refusal :=
  .next (if s.csOn then s else
    let s1 := s.setF F.PWR_STAT_CST 1
    if s1.csRuns then s1.csRestore else { s1 with csWait := true })

end Sys2Proof.Machine
end

