-- ==== Sys2Proof/Machine/SysIsa.lean ====
section
/-!
DEFINITION. The SYS instructions of a mason (R198, R199, R246 to R248).
-/

namespace Sys2Proof.Machine

/-- The named wake sources that are true: INBOX, DOORBELL, TIMER in bits 0 to 2 (R199, R246). -/
def State.wakeBits (s : State) (m src expiry : Nat) : Nat :=
  b2n (bit src 0 && (s.mason m).inbox != []) + 2 * b2n (bit src 1 && s.w (R.MC_DOORBELL m) != 0) + 4 * b2n (bit src 2 && decide (expiry ≤ s.cyc))

/-- A wait ends: the true sources, and the doorbell bits returned and cleared where DOORBELL is named (R246). -/
def State.endWait (s : State) (m src expiry gd : Nat) : State :=
  let bell := if bit src 1 then s.w (R.MC_DOORBELL m) else 0
  let s1 := if bit src 1 then s.setW (R.MC_DOORBELL m) 0 else s
  s1.setMason m { ((s1.mason m).puts gd [BitVec.ofNat 32 (s.wakeBits m src expiry), bell]) with wait := none }

/-- WAIT (R199, R246): a source already true ends it at once; otherwise the clock is gated with PC naming the wait. -/
def execWait (m : Fin 16) (gd ga : Fin 32) (src : Fin 8) (s : State) : Host.Outcome State Fault Refusal :=
  let w := encSYS 0 gd ga src
  isa m w (fun s x =>
    let expiry := s.cyc + 4 * nsU * (x.get ga).toNat
    if !pairOk gd then illegal w
    else if s.wakeBits m src expiry ≠ 0 then .next (s.endWait m src expiry gd)
    else .gate ((s.setMason m { x with wait := some (src, expiry, gd) }).setF (F.MC_STAT_STATE m) 2)) s

/-- EVT (R198): it stalls until 1 µs has passed since the mason's previous evt. -/
def execEvt (m : Fin 16) (ga : Fin 32) (code : Fin 128) (s : State) : Host.Outcome State Fault Refusal :=
  isa m (encSYS 1 0 ga code) (fun s x =>
    let soon := match x.evtAt with
      | some t => decide (s.cyc < t + 1000 * nsU)
      | none => false
    if soon then .stall
    else .next ((s.setMason m { x with evtAt := some s.cyc }).raise (0x0C80 + code) m (x.get ga).toNat)) s

/-- TRAP (R200, R248). -/
def execTrap (m : Fin 16) (imm : BitVec 10) (s : State) : Host.Outcome State Fault Refusal :=
  isa m (encSYS 2 0 0 imm.toNat) (fun _ _ => .trap 6 imm.toNat) s

/-- RFT (R246, R248); ILLEGAL while IN_TRAP is 0. -/
def execRft (m : Fin 16) (s : State) : Host.Outcome State Fault Refusal :=
  let w := encSYS 3 0 0 0
  isa m w (fun s _ =>
    if s.b (F.MC_STAT_IN_TRAP m) then .goto (s.setF (F.MC_STAT_IN_TRAP m) 0) (s.f (F.MC_EPC_V m)) else illegal w) s

/-- MFF (R246). -/
def execMff (m : Fin 16) (gd : Fin 32) (s : State) : Host.Outcome State Fault Refusal :=
  isaReg m (encSYS 4 gd 0 0) (fun x => x.put gd (BitVec.ofNat 32 x.fl)) s

/-- MTF (R224, R246): defined bits only. -/
def execMtf (m : Fin 16) (ga : Fin 32) (s : State) : Host.Outcome State Fault Refusal :=
  isaReg m (encSYS 5 0 ga 0) (fun x => { x with fl := (x.get ga).toNat &&& flMask }) s

/-- What a special register reads as (R247); none for a number without a row. -/
def State.special (s : State) (m : Nat) (n : Nat) : Option Word :=
  match n with
  | 0 => some (BitVec.ofNat 32 m)
  | 1 => some (BitVec.ofNat 32 (s.f (F.MC_EPC_V m)))
  | 2 => some (BitVec.ofNat 32 (s.f (F.MC_CAUSE_V m)))
  | 3 => some (s.w (R.MC_TVAL m))
  | 4 => some (Tab.get (fun _ => 0) (s.mason m).sr 4)
  | 5 => some (s.w (R.MC_CYCLES m))
  | _ => none

/-- SPRD (R246, R247). -/
def execSprd (m : Fin 16) (gd : Fin 32) (n : BitVec 10) (s : State) : Host.Outcome State Fault Refusal :=
  let w := encSYS 6 gd 0 n.toNat
  isa m w (fun s x => match s.special m n.toNat with
    | some v => .next (s.setMason m (x.put gd v))
    | none => illegal w) s

/-- SPRW (R246, R247): EPC and SCRATCH alone are written. -/
def execSprw (m : Fin 16) (ga : Fin 32) (n : BitVec 10) (s : State) : Host.Outcome State Fault Refusal :=
  let w := encSYS 7 0 ga n.toNat
  isa m w (fun s x =>
    if n.toNat = 1 then .next (s.setF (F.MC_EPC_V m) (x.get ga).toNat)
    else if n.toNat = 4 then .next (s.setMason m { x with sr := Tab.set (fun _ => 0) x.sr 4 (x.get ga) })
    else illegal w) s

end Sys2Proof.Machine
end

