-- ==== Sys2Proof/Machine/Masons.lean ====
section
/-!
DEFINITION. The control of the masons: MC_CTL (R186), the memories and vectors (R187), the doorbell and the wake (R199), traps of a fetch (R200,
R236), and errors of the storage (R203).
-/

namespace Sys2Proof.Machine

/-! ### MC_CTL (R186) -/

/-- A mason is held at its instruction boundary: a stalled instruction, or a wait, is abandoned (R186, R199). -/
def State.masonHalt (s : State) (m : Nat) : State :=
  let s1 := s.setMason m { s.mason m with wait := none, haltReq := false }
  (s1.setF (F.MC_STAT_STATE m) 3).setF (F.MC_STAT_STALLED m) 0

/-- A mason runs or waits. -/
def State.masonOn (s : State) (m : Nat) : Bool := s.f (F.MC_STAT_STATE m) == 1 || s.f (F.MC_STAT_STATE m) == 2

/-- GO: what it does, or why it does not act. -/
def State.masonStart (s : State) (m : Nat) : State × Status :=
  let st := s.f (F.MC_STAT_STATE m)
  if !s.live then (s, .mode)
  else if st = 0 then (s.masonGo m, .ok)
  else if st = 3 then (s.setF (F.MC_STAT_STATE m) 1, .ok)
  else (s, .busy)

/-- A write of MC_CTL: STOP, HALT and GO as separate writes in that order (R186). A HALT with a GO takes effect wholly before it. -/
def State.mcCtl (s : State) (m : Nat) (v : Word) : State :=
  let s1 := if wbit v 2 then s.masonReset m else s
  let s2 :=
    if wbit v 1 && s1.masonOn m then
      if wbit v 0 then s1.masonHalt m else s1.setMason m { s1.mason m with haltReq := true }
    else s1
  if wbit v 0 then let (s3, c) := s2.masonStart m; s3.fin c else s2.fin .ok

/-- A write of MC_CTL by a requester. -/
def mcWrite (r : Req) (m : Nat) (v : Word) : State → State := regWrite r (R.MC_CTL m) noLock fun s => s.mcCtl m v

/-- MC_GO: a write of MC_CTL with GO set. -/
def execMcGo (r : Req) (m : Fin 16) (v : Word) (s : State) : Host.Outcome State Fault Refusal := act (mcWrite r m.val (v ||| 1)) s

/-- MC_HALT: a write of MC_CTL with HALT set. -/
def execMcHalt (r : Req) (m : Fin 16) (v : Word) (s : State) : Host.Outcome State Fault Refusal := act (mcWrite r m.val (v ||| 2)) s

/-- MC_STOP: a write of MC_CTL with STOP set. -/
def execMcStop (r : Req) (m : Fin 16) (v : Word) (s : State) : Host.Outcome State Fault Refusal := act (mcWrite r m.val (v ||| 4)) s

/-- MASON_HALTED: the instruction boundary after a HALT (R186). -/
def execMasonHalted (m : Fin 16) (s : State) : Host.Outcome State Fault Refusal :=
  act (fun s => if s.masonOn m.val && (s.mason m.val).haltReq then s.masonHalt m.val else s) s

/-! ### Memories and vectors (R184, R187) -/

/-- A word of IMEM or DMEM written whole; it holds no error afterwards. -/
def State.memStore (s : State) (a : Nat) (v : Word) : State :=
  let s1 := s.setWordLE a v
  { s1 with bad := s1.bad.filter fun b => b != a }

/-- The host byte address of a word that the host may write. -/
def memAddr (m : Nat) : MemTarget → Nat
  | .imem k => imem m + 4 * k.val
  | .dmem k => dmem m + 4 * k.val
  | .entry => R.MC_ENTRY m
  | .tvec => R.MC_TVEC m

/-- Whether the cornerstone locks a word of a mason (R187, R407). -/
def State.memLocked (s : State) (m : Nat) (t : MemTarget) : Bool :=
  s.b F.CS_STAT_SEALED && s.holdsLegal m && match t with
    | .dmem _ => false
    | _ => true

/-- A write of a word of a mason: LOCKED takes precedence (R407), then the address map, the state of the mason and the vector's alignment (R187). -/
def State.memWrite (s : State) (r : Req) (m : Nat) (t : MemTarget) (v : Word) : State :=
  let a := memAddr m t
  if s.memLocked m t && accOf r a == .rw then (s.csRefuse 0 .locked).fin .locked
  else
    regWrite r a noLock (fun s =>
      match t with
      | .imem _ => if s.masonOn m then s.fin .busy else (s.memStore a v).fin .ok
      | .dmem _ => if s.masonOn m then s.fin .busy else (s.memStore a v).fin .ok
      | _ =>
        if v.toNat % 4 ≠ 0 then s.fin .unsupported
        else if s.masonOn m then s.fin .busy
        else (s.setW a (BitVec.ofNat 32 (v.toNat % 65536))).fin .ok) s

/-- MASON_MEM_WRITE (R187). -/
def execMasonMemWrite (r : Req) (m : Fin 16) (t : MemTarget) (v : Word) (s : State) : Host.Outcome State Fault Refusal :=
  act (fun s => s.memWrite r m.val t v) s

/-! ### Doorbell and wake (R199) -/

/-- DOORBELL_WRITE: bits are set (R199, R219). -/
def execDoorbellWrite (r : Req) (m : Fin 16) (v : Word) (s : State) : Host.Outcome State Fault Refusal :=
  act (regWrite r (R.MC_DOORBELL m.val) noLock fun s => (s.setW (R.MC_DOORBELL m.val) (s.w (R.MC_DOORBELL m.val) ||| v)).fin .ok) s

/-- MASON_WAKE: a source of the wait is true, and the wait retires (R199, R246). -/
def execMasonWake (m : Fin 16) (s : State) : Host.Outcome State Fault Refusal :=
  act (fun s =>
    let x := s.mason m.val
    match x.wait with
    | none => s
    | some (src, expiry, gd) =>
      if s.f (F.MC_STAT_STATE m.val) = 2 ∧ !x.haltReq ∧ s.wakeBits m.val src expiry ≠ 0 then
        ((s.endWait m.val src expiry gd).setF (F.MC_STAT_STATE m.val) 1).retire m.val (x.pc + 4)
      else s) s

/-! ### Traps of a fetch, errors -/

/-- Why the word at PC cannot be an instruction: ALIGN, FETCH, ECC or ILLEGAL, with TVAL (R200, R236, R248). -/
def State.fetchTrap (s : State) (m : Nat) : Option (Nat × Nat) :=
  let pc := (s.mason m).pc
  let w := s.wordLE (imem m + pc)
  if pc % 4 ≠ 0 then some (3, pc)
  else if 65536 ≤ pc then some (1, 65536)
  else if s.badRange (imem m + pc) 4 then some (5, pc)
  else if !legalWord w (s.b (F.MC_STAT_IN_TRAP m)) then some (0, w.toNat)
  else none

/-- TRAP_TAKEN: a mason that runs meets at PC what is no instruction, and traps (R200 to R202). A trap that an instruction itself raises is part of
that instruction's meaning. -/
def execTrapTaken (m : Fin 16) (s : State) : Host.Outcome State Fault Refusal :=
  act (fun s =>
    if s.f (F.MC_STAT_STATE m.val) ≠ 1 ∨ (s.mason m.val).haltReq then s
    else match s.fetchTrap m.val with
      | some (c, v) => s.trap m.val c v
      | none => s) s

/-- MASON_UNCORR: an uncorrectable error in a word of IMEM or DMEM waits for the read that meets it; one in an inbox or in the stream table is logged,
and the hub enters SAFE (R203). -/
def execMasonUncorr (m : Fin 16) (e : MasonErr) (s : State) : Host.Outcome State Fault Refusal :=
  act (fun s =>
    match e with
    | .imem k => { s with bad := insNat (imem m.val + 4 * k.val) s.bad }
    | .dmem k => { s with bad := insNat (dmem m.val + 4 * k.val) s.bad }
    | .inbox => (s.raiseBit (R.MC_EVT m.val) 3 0x0C04 m.val 0).enterSafe 0x0C04
    | .streams => (s.raise 0x0C07 0 0).enterSafe 0x0C07) s

end Sys2Proof.Machine
end

