-- ==== Sys2Proof/Machine/Pallets.lean ====
section
/-!
DEFINITION. The pallet queues as the host reaches them (R211 to R218).
-/

namespace Sys2Proof.Machine

/-- PQ_PUSH: a push that finds the queue full is discarded and reported (R217). -/
def execPqPush (r : Req) (q : Fin 64) (v : Word) (s : State) : Host.Outcome State Fault Refusal :=
  act (regWrite r (R.PQ_PUSH q.val) noLock fun s =>
    if (s.pq q.val).full then (s.pqFlag q.val 5).fin .ok else (s.setPq q.val ((s.pq q.val).push v)).fin .ok) s

/-- PQ_POP: a read pops the oldest committed word (R213); from queues under test nothing is taken (R474). -/
def execPqPop (r : Req) (q : Fin 64) (s : State) : Host.Outcome State Fault Refusal :=
  act (fun s =>
    match s.mapStop r (R.PQ_POP q.val) false with
    | some c => s.fin c
    | none =>
      if s.underTest (R.PQ_POP q.val) then s.finData [Tab.get resetWord s.snap (R.PQ_POP q.val)]
      else let (s1, v, _) := s.pqPop q.val; s1.finData [v]) s

/-- OPEN by the host: a framing error while an item is open, discarded and reported where the queue is full (R214, R217). -/
def State.pqOpen (s : State) (q tag : Nat) : State :=
  if (s.pq q).item.isSome then s.pqFlag q 7
  else if (s.pq q).full then s.pqFlag q 5
  else s.setPq q ((s.pq q).start tag)

/-- A write of PQ_CTL: FLUSH, CLOSE, OPEN in that order (R220). -/
def State.pqCtl (s : State) (q : Nat) (v : Word) : State :=
  let s1 := s.when (wbit v 0) fun s => s.setPq q (s.pq q).flush
  let s2 := s1.when (wbit v 2) fun s => (s.pqClose q).1
  (s2.when (wbit v 1) fun s => s.pqOpen q (bits v.toNat 31 16)).fin .ok

/-- A write of PQ_CTL by a requester. -/
def pqCtlWrite (r : Req) (q : Nat) (v : Word) : State → State := regWrite r (R.PQ_CTL q) noLock fun s => s.pqCtl q v

/-- PQ_FLUSH: a write of PQ_CTL with FLUSH set (R215). -/
def execPqFlush (r : Req) (q : Fin 64) (v : Word) (s : State) : Host.Outcome State Fault Refusal := act (pqCtlWrite r q.val (v ||| 1)) s

/-- PQ_OPEN: a write of PQ_CTL with OPEN set (R214). -/
def execPqOpen (r : Req) (q : Fin 64) (v : Word) (s : State) : Host.Outcome State Fault Refusal := act (pqCtlWrite r q.val (v ||| 2)) s

/-- PQ_CLOSE: a write of PQ_CTL with CLOSE set (R214). -/
def execPqClose (r : Req) (q : Fin 64) (v : Word) (s : State) : Host.Outcome State Fault Refusal := act (pqCtlWrite r q.val (v ||| 4)) s

/-- PQ_UNCORR (R218). -/
def execPqUncorr (q : Fin 64) (s : State) : Host.Outcome State Fault Refusal :=
  act (fun s => (s.raise 0x0C08 q.val 0).enterSafe 0x0C08) s

end Sys2Proof.Machine
end

