-- ==== Sys2Proof/Machine/Link.lean ====
section
/-!
DEFINITION. The link family (R342 to R352, R363, R364): arrival of hods, acknowledgement, replay, credits, events and the port selection.
-/

namespace Sys2Proof.Machine

/-- The fields of a hod from its header (R340). -/
def hodOf (header : BitVec 64) (payload : List Word) : Hod :=
  let h := header.toNat
  { typ := bits h 63 60, vc := bits h 59 58, flags := bits h 57 54, hid := bits h 42 29, sub := bits h 28 16, lseq := bits h 11 0, payload := payload }

/-- The VC field that R341 gives a type. -/
def typeVc (t : Nat) : Nat := if t = 4 then 1 else if t = 5 then 2 else 0

/-- The FLAGS a type may carry (R249, R340, R345). -/
def flagsOk (t flags : Nat) : Bool :=
  if t = 0 then decide (flags ≤ 3) else if t = 5 then flags % 2 == 0 else flags == 0

/-- LEN of a LINKCTL hod by its KIND (R345). -/
def linkLen (kind len : Nat) : Bool :=
  if kind = 0 then len == 3 else if kind = 1 then len == 2 else decide (1 ≤ len ∧ len ≤ 63)

/-- A TIME hod keeps the table of R373. -/
def timeForm (x : Hod) : Bool :=
  let word (i : Nat) : Nat := (x.payload.getD i 0).toNat
  x.lseq == 0 && bits x.sub 9 8 == 0 && match bits x.sub 12 10 with
    | 0 => x.payload == [0]
    | 1 => x.payload.length == 7 && bits (word 0) 31 16 == 0 && bits (word 0) 7 2 == 0 && word 3 % 65536 == 0 && word 6 % 65536 == 0
    | 2 => x.payload == [0] && bits x.sub 7 0 != 0
    | _ => false

/-- A hod with good CRC is malformed (R350). -/
def badForm (a : Arrival) : Bool :=
  let h := a.header.toNat
  let x := hodOf a.header a.payload
  decide (1024 < bits h 53 43) || 4 * bits h 53 43 != a.size || decide (9 ≤ x.typ) || bits h 15 12 != 0 || x.vc != typeVc x.typ
    || !flagsOk x.typ x.flags || ((x.typ == 0 || x.typ == 3 || x.typ == 6 || x.typ == 7) && x.sub != 0)
    || (x.typ == 0 && (x.lseq != 0 || !linkLen x.flags a.payload.length)) || a.timeSof != (x.typ == 4) || (x.typ == 4 && !timeForm x)

/-- A hod of the wrong direction for its port (R351). -/
def State.misdirected (s : State) (p typ : Nat) : Bool :=
  if s.role p = 2 then [1, 6, 7, 8].contains typ else [2, 3, 5].contains typ

/-- A malformed hod is counted and discarded (R350). -/
def State.malformedHod (s : State) (p : Nat) (h : Hod) : State :=
  ((s.bump (F.PL_ERR_MALF p) 1).linkOnce 0 0x0901 p h.hid).freeBuf p (s.inClass p h)

/-- A request for this hub arrives (R353, R357, R358): one whose tag is outstanding completes at once with TAG; the others wait for their turn and hold
their buffer until they have taken effect, those with an OP that is not listed among them. -/
def State.takeReq (s : State) (p : Nat) (h : Hod) : State :=
  let r : Reqd := ⟨h.typ, bits h.sub 12 7, bits h.sub 6 0, true⟩
  if r.tagged && s.tagsOut.contains r.tag then ((s.fin .tag).freeBuf p 0).answer p r.op r.tag
  else
    let s1 := s.pushReq p (if r.tagged then r else { r with op := 0, tag := 0 })
    if (s.port p).reqs = [] then s1.serve p else s1

/-- What becomes of an accepted hod at the link layer: malformed and misdirected ones are discarded, a request for this hub waits in its buffer for its
turn, any other hod for this hub frees its buffer, and one that passes through keeps it until it has been forwarded (R348, R350, R351). -/
def State.takeHod (s : State) (p : Nat) (a : Arrival) : State :=
  let h := hodOf a.header a.payload
  if badForm a then s.malformedHod p h
  else if s.misdirected p h.typ then (s.misdirect p h.hid).freeBuf p (s.inClass p h)
  else if s.role p = 1 ∧ h.hid = s.hid then (if [1, 6, 7, 8].contains h.typ then s.takeReq p h else s.freeBuf p (s.inClass p h))
  else s

/-- A hod with the next LSEQ expected is accepted; every sixteenth acceptance sends a LINK hod (R343, R344). -/
def State.accept (s : State) (p : Nat) (a : Arrival) : State :=
  let h := hodOf a.header a.payload
  let x := s.port p
  let n := x.unacked + 1
  let s1 := s.setPort p { x with
    nakSent := false, unacked := n, taken := if s.role p = 2 ∧ s.inClass p h = 3 then x.taken + 1 else x.taken }
  let s2 := (s1.setF (F.PL_STAT_RX_NEXT p) ((h.lseq + 1) % 4096)).takeHod p a
  if 16 ≤ n then s2.sendLink p false else s2

/-- One hod as it has arrived on a port (R343, R350). A LINKCTL or TIME hod is not sequenced; its use is a row of its own, and here only a malformed one
and a PROBE, which is discarded (R375), have their effect. -/
def State.arrive (p : Nat) (s : State) (a : Arrival) : State :=
  let h := hodOf a.header a.payload
  let e := s.f (F.PL_STAT_RX_NEXT p)
  if a.abort then s.bump (F.PL_MISC_ABORT p) 1
  else if !a.crcOk then (s.bump (F.PL_ERR_CRC p) 1).nak p
  else if h.typ = 0 ∨ h.typ = 4 then
    if badForm a then ((s.bump (F.PL_ERR_MALF p) 1).linkOnce 0 0x0901 p h.hid).when (h.typ == 4) fun s => s.freeBuf p 1
    else s.when (h.typ == 4 && bits h.sub 12 10 == 2) fun s => s.freeBuf p 1
  else if h.lseq = e then s.accept p a
  else if (e + 4096 - h.lseq) % 4096 ≤ 128 then (s.freeBuf p (s.inClass p h)).sendLink p false
  else s.nak p

/-- HOD_ARRIVAL (R311 to R314, R343, R350, R351): groups arrive on the lanes of a port in UP, and the hods that they hold are taken in turn. -/
def execHodArrival (p : Fin 16) (lines : List LineIn) (s : State) : Host.Outcome State Fault Refusal :=
  act (fun s =>
    if !s.portUp p.val then s
    else let (s1, hods) := s.rxPort p.val lines; hods.foldl (State.arrive p.val) s1) s

/-- The replay entries up to and including number `n` are freed; answers whether any was (R346). -/
def ackList (n : Nat) : List Hod → Option (List Hod)
  | [] => none
  | h :: r => if h.lseq = n then some r else ackList n r

/-- A port leaves UP because four resends in a row left the oldest entry unacknowledged (R346). -/
def State.replayLimit (s : State) (p : Nat) : State := (s.leaveUp p 6 false).raiseBit R.LINK_EVT 2 0x0903 p 0

/-- Every entry of the replay buffer is sent again, unless four resends in a row have failed (R346). -/
def State.resend (s : State) (p : Nat) : State :=
  let x := s.port p
  if x.replay = [] then s
  else if 4 ≤ x.fails then s.replayLimit p
  else ((s.setPort p { x with fails := x.fails + 1 }).bumpW (R.PL_REPLAY p) x.replay.length).each x.replay fun s h => s.transmit p h

/-- LINK (R344 to R348): ACK n or NAK e, and the partner's four limits. -/
def execLink (p : Fin 16) (nak : Bool) (seq : BitVec 12) (l0 l1 l2 l3 : BitVec 16) (s : State) : Host.Outcome State Fault Refusal :=
  act (fun s =>
    if !s.portUp p.val then s
    else
      let s := s.thaw p.val
      let x := s.port p.val
      let last := if nak then (seq.toNat + 4095) % 4096 else seq.toNat
      let lim := setCnt (setCnt (setCnt (setCnt [] 0 l0.toNat) 1 l1.toNat) 2 l2.toNat) 3 l3.toNat
      let x1 := match ackList last x.replay with
        | some r => { x with replay := r, fails := 0 }
        | none => x
      let s1 := s.setPort p.val { x1 with gotLink := true, lim := lim }
      (if nak then s1.resend p.val else s1).pump p.val) s

/-- LINK_HOD_SEND (R344). -/
def execLinkHodSend (p : Fin 16) (s : State) : Host.Outcome State Fault Refusal :=
  act (fun s => if s.portUp p.val then s.sendLink p.val false else s) s

/-- REPLAY_TIMEOUT (R346). -/
def execReplayTimeout (p : Fin 16) (s : State) : Host.Outcome State Fault Refusal :=
  act (fun s => if s.portUp p.val then s.resend p.val else s) s

/-- LINK_SILENT (R346): the port leaves UP as for a RETRAIN. -/
def execLinkSilent (p : Fin 16) (s : State) : Host.Outcome State Fault Refusal :=
  act (fun s => if s.portUp p.val then (s.leaveUp p.val 6 false).raiseBit R.LINK_EVT 3 0x0904 p.val 0 else s) s

/-- A VC0 hod of a port became ready before every queued event (R349). -/
def State.before (s : State) (p : Nat) : Bool := (s.port p).waiting.any fun w => w.cls == 0 && w.hod.typ != 4 && w.ahead == 0

/-- An event has left, and the hods behind it have one fewer before them (R349). -/
def State.eventGone (s : State) (p : Nat) : State :=
  (s.setPort p { s.port p with waiting := (s.port p).waiting.map fun w => { w with ahead := w.ahead - 1 } }).pump p

/-- EVENT_HOD_SEND (R349, R362, R363): the oldest queued event leaves on the primary UP port when VC0 credit allows and no hod of its class was ready
before it. -/
def execEventHodSend (s : State) : Host.Outcome State Fault Refusal :=
  act (fun s =>
    let p := s.primary
    match s.evtq with
    | [] => s
    | ws :: r =>
      if s.eventDue p && !s.before p then
        ({ s with evtq := r }.sendHod p 0 { typ := 3, vc := 0, flags := 0, hid := s.hid, sub := 0, lseq := 0, payload := ws }).eventGone p
      else s) s

/-- LINK_CFG_WRITE (R364, R370). -/
def execLinkCfgWrite (r : Req) (v : Word) (s : State) : Host.Outcome State Fault Refusal :=
  act (regWrite r R.LINK_CFG noLock fun s =>
    let x := v.toNat
    let new := bits x 3 0
    let second := bits x 11 8
    let old := s.primary
    if bits x 23 16 = 0 ∨ s.role new ≠ 1 ∨ (wbit v 12 ∧ (s.role second ≠ 1 ∨ second = new)) then s.fin .unsupported
    else if new ≠ old ∧ (s.portUp old ∨ s.portUp new) then s.fin .busy
    else ((s.setW R.LINK_CFG (v &&& 0x00FF1F0F)).movePrimary old).fin .ok) s

end Sys2Proof.Machine
end

