-- ==== Sys2Proof/Machine/YardCmds.lean ====
section
/-!
DEFINITION. The yard family (R257, R263 to R282): hand-on, admission, transmission, HORIZON and REWIND, the reserve, the scrub and the ring sizes.
-/

namespace Sys2Proof.Machine

/-- One of the points of R265 has come for the open hod of a STRAIGHT stream: a tile packer's hod can take nothing more, or its stream or the mode no
longer produces. (A hod whose buffer another stream needs is handed on with the opening of the other, R263; an engine's hod that the next record does
not fit is handed on with that record, R293.) -/
def State.handOnDue (s : State) (sid : Nat) : Bool :=
  let k := s.hodKey sid
  let full := match s.openOf k sid, (s.str sid).cur with
    | some _, some c => decide (s.curRoom sid < c.size 1)
    | some h, none => decide (1022 ≤ recWords h.recs)
    | none, _ => false
  (full && decide (k < 100)) || !s.b (F.SE_CTL_ACT sid) || s.mode != 3

/-- HOD_HAND_ON (R263, R265): a stream's open hod goes to the yard at one of the points of the rules. -/
def execHodHandOn (sid : Fin 8192) (s : State) : Host.Outcome State Fault Refusal :=
  act (fun s => if !s.masonWritten sid.val && s.handOnDue sid.val then s.handOn sid.val else s) s

/-- YARD_FLUSH_EXPIRE (R265, R292): YARD_FLUSH microseconds have passed since the hod was opened. -/
def execYardFlushExpire (sid : Fin 8192) (s : State) : Host.Outcome State Fault Refusal :=
  act (fun s =>
    match s.openOf (s.hodKey sid.val) sid.val with
    | some h =>
      if !s.masonWritten sid.val && decide (h.opened + (s.w R.YARD_FLUSH).toNat * 1000 * nsU ≤ s.cyc) then s.flushHod sid.val else s
    | none => s) s

/-- HOD_ADMIT (R266, R268, R276): the next hod handed on is admitted or refused. -/
def execHodAdmit (s : State) : Host.Outcome State Fault Refusal := act State.admitNext s

/-- The hod of a ring with a YSEQ. -/
def Ring.find (r : Ring) (y : Nat) : Option RHod := r.hods.find? fun h => h.yseq == y

/-- The words of a stored hod, as the yard holds them. -/
def State.ringWords (s : State) (p off : Nat) : Nat → List Word
  | 0 => []
  | n + 1 =>
    let at_ (i : Nat) : Byte := s.byte (0x20000000 + s.f (F.RING_CFG_BASE p) * 2 ^ 20 + (off + i) % s.ringSize p)
    BitVec.ofNat 32 (beNat [at_ 0, at_ 1, at_ 2, at_ 3]) :: s.ringWords p (off + 4) n

/-- A hod of a ring as the port sends it: as stored, with RESENT from the second time on, or the VOID substitute where a word of it cannot be
corrected (R249, R270, R280). -/
def State.ringHod (s : State) (p : Nat) (h : RHod) : Hod :=
  let re := 4 * b2n h.sent
  if s.bad.any fun a => s.inRing p h.off h.size a then
    let sid := if s.bad.any fun a => s.inRing p h.off 8 a then 0 else h.sid
    { typ := 5, vc := 2, flags := 2 + re, hid := s.hid, sub := sid, lseq := 0, payload := [BitVec.ofNat 32 h.yseq, 0] }
  else { typ := 5, vc := 2, flags := 8 * b2n h.pressed + re, hid := s.hid, sub := h.sid, lseq := 0, payload := s.ringWords p (h.off + 8) h.len }

/-- STREAM_HOD_TRANSMIT (R270, R280, R349): queued events go first, and after it a relayed hod has its turn. -/
def execStreamHodTransmit (p : Fin 16) (s : State) : Host.Outcome State Fault Refusal :=
  act (fun s =>
    let y := (s.w (R.RING_TSEQ p.val)).toNat
    if s.role p.val ≠ 1 ∨ s.mode = 5 ∨ !s.canSend p.val 2 ∨ s.eventDue p.val then s
    else match (s.ring p.val).find y with
      | none => s
      | some h =>
        let x := s.ringHod p.val h
        let s1 := (s.sendHod p.val 2 x).when h.sent fun s => s.bumpW (R.RING_RESENT p.val) 1
        let s2 := s1.when (x.flags % 4 == 2) fun s =>
          (s.bumpW R.YARD_SUBST 1).raiseBit R.YARD_EVT 7 0x0608 p.val (p.val * 2 ^ 32 + y)
        let r := s2.ring p.val
        let hods := r.hods.map fun k => if k.yseq == y then { k with sent := true } else k
        let s3 := (s2.setRing p.val { r with hods := hods }).setW (R.RING_TSEQ p.val) (BitVec.ofNat 32 (y + 1))
        let again := hods.any fun k => k.yseq == (y + 1) % 2 ^ 32 && k.sent
        (s3.when (!again) fun s => s.setF (F.RING_STAT_REWINDING p.val) 0).pump p.val) s

/-! ### HORIZON and REWIND (R271 to R273) -/

/-- The ring and YSEQ value that the two words of a HORIZON or REWIND name, where the hod keeps the form of R271. -/
def State.ringArg (s : State) (ws : List Word) : Option (Nat × Nat) :=
  match ws with
  | [a, n] => if a.toNat < 16 ∧ 0 < s.f (F.RING_CFG_SIZE a.toNat) then some (a.toNat, n.toNat) else none
  | _ => none

/-- The ring in which a discarded HORIZON or REWIND is counted: the one its first word names, or the port of its arrival where it has none. -/
def badRing (p : Nat) (ws : List Word) : Nat := match ws with
  | a :: _ => bits a.toNat 3 0
  | [] => p

/-- The hods of a ring that have been transmitted, from the rewind mark on. -/
def Ring.sentCount (r : Ring) : Nat := (r.hods.takeWhile RHod.sent).length

/-- HORIZON n frees the hods up to and including YSEQ n (R272). -/
def State.horizon (s : State) (p k : Nat) : State :=
  if k = 0 then s
  else
    let r := s.ring p
    let h0 := (s.w (R.RING_HSEQ p)).toNat
    let t := ((s.w (R.RING_TSEQ p)).toNat + 2 ^ 32 - h0) % 2 ^ 32
    let s1 := (s.setRing p { r with hods := r.hods.drop k }).setW (R.RING_HSEQ p) (BitVec.ofNat 32 (h0 + k))
    let s2 := s1.when (decide (t < k)) fun s => s.setW (R.RING_TSEQ p) (BitVec.ofNat 32 (h0 + k))
    let left := (r.hods.drop (max k t)).any RHod.sent
    let s3 := s2.when (!left) fun s => s.setF (F.RING_STAT_REWINDING p) 0
    (s3.watermarks p).resumeClasses p

/-- HORIZON (R271, R272, R275, R278): it arrived on port `p` with these payload words. -/
def execHorizon (p : Fin 16) (ws : List Word) (s : State) : Host.Outcome State Fault Refusal :=
  act (fun s =>
    let bad (s : State) : State :=
      let q := badRing p.val ws
      (s.bump (F.RING_BAD_HORIZON q) 1).raiseBit R.YARD_EVT 4 0x0605 q ((ws.getD 1 0).toNat)
    let eff (s : State) : State := match s.ringArg ws with
      | none => bad s
      | some (q, n) =>
        let k := (n + 1 + 2 ^ 32 - (s.w (R.RING_HSEQ q)).toNat) % 2 ^ 32
        if k ≤ (s.ring q).sentCount then s.horizon q k else bad s
    if s.mode = 0 ∨ s.mode = 4 then s else inTurn p.val ⟨6, 0, 0, false⟩ eff (fun s => s) s) s

/-- REWIND (R271, R273): it arrived on port `p` with these payload words. -/
def execRewind (p : Fin 16) (ws : List Word) (s : State) : Host.Outcome State Fault Refusal :=
  act (fun s =>
    let bad (s : State) : State :=
      let q := badRing p.val ws
      (s.bump (F.RING_BAD_REWIND q) 1).raiseBit R.YARD_EVT 5 0x0606 q ((ws.getD 1 0).toNat)
    let eff (s : State) : State := match s.ringArg ws with
      | none => bad s
      | some (q, n) =>
        let h := (s.w (R.RING_HSEQ q)).toNat
        let t := ((s.w (R.RING_TSEQ q)).toNat + 2 ^ 32 - h) % 2 ^ 32
        let k := (n + 2 ^ 32 - h) % 2 ^ 32
        if k ≤ t then
          (s.setW (R.RING_TSEQ q) (BitVec.ofNat 32 n)).setF (F.RING_STAT_REWINDING q) (b2n (decide (k < (s.ring q).sentCount)))
        else bad s
    if s.mode = 0 ∨ s.mode = 4 then s else inTurn p.val ⟨7, 0, 0, false⟩ eff (fun s => s) s) s

/-! ### The reserve, the drain, the scrub -/

/-- RESERVE_HOD_WRITE (R278): while the ring admits hods. -/
def execReserveHodWrite (p : Fin 16) (sid : Fin 8192) (s : State) : Host.Outcome State Fault Refusal :=
  act (fun s => if s.admits && s.resumed.contains (sid.val, p.val) then s.writeReserve p.val sid.val else s) s

/-- DRAIN_END (R269): nothing is left to take in or refuse. -/
def execDrainEnd (s : State) : Host.Outcome State Fault Refusal :=
  act (fun s => if s.draining && s.handed == [] then { s with draining := false } else s) s

/-- YARD_SCRUB (R280): a pass over part of the yard corrected some words and found one, by its 64-bit index, that it could not correct. -/
def execYardScrub (fixed : Word) (uncorr : Option (BitVec 26)) (s : State) : Host.Outcome State Fault Refusal :=
  act (fun s =>
    if s.mode = 0 then s
    else
      let s1 := s.bumpW R.YARD_FIX fixed.toNat
      match uncorr with
      | none => s1
      | some i => { s1 with bad := insNat (0x20000000 + 8 * i.toNat) (insNat (0x20000004 + 8 * i.toNat) s1.bad) }) s

/-- A hod is in flight (R282): held open, or waiting for admission. -/
def State.inFlight (s : State) : Bool :=
  (s.packs.any fun x => x.2 != []) || s.handed != [] || s.masons.any fun x => x.2.slots != []

/-- Every ring and the gap reserve are empty. -/
def State.yardEmpty (s : State) : Bool :=
  (s.rings.all fun x => x.2.hods == []) && (s.runs.all fun x => x.2 == none) && s.kept == []

/-- YARD_SREF_ENTER (R282): nothing has been held, active or in flight for 10 µs. -/
def execYardSrefEnter (s : State) : Host.Outcome State Fault Refusal :=
  act (fun s =>
    if s.mode != 0 && s.b F.YARD_STAT_READY && s.yardEmpty && s.activeSids == [] && !s.inFlight then s.setF F.YARD_STAT_SREF 1 else s) s

/-! ### Configuration -/

/-- The bases of all rings from their sizes (R267). -/
def State.setBases (s : State) : State :=
  s.each (range' 0 16) fun s p => s.setF (F.RING_CFG_BASE p) (((range' 0 p).map fun q => s.f (F.RING_CFG_SIZE q)).sum)

/-- RING_CFG_WRITE (R267, R268). -/
def execRingCfgWrite (r : Req) (p : Fin 16) (v : Word) (s : State) : Host.Outcome State Fault Refusal :=
  act (regWrite r (R.RING_CFG p.val) noLock fun s =>
    let n := bits v.toNat 9 0
    let others := ((range' 0 16).map fun q => if q = p.val then 0 else s.f (F.RING_CFG_SIZE q)).sum
    if s.mode ≠ 1 ∧ s.mode ≠ 2 then s.fin .mode
    else if 512 < n + others then s.fin .unsupported
    else if !s.yardEmpty ∨ (n = 0 ∧ s.activeSids.any fun i => s.portOf i == p.val) then s.fin .busy
    else
      let s1 := (s.setF (F.RING_CFG_SIZE p.val) n).setBases
      let s2 := s1.each (range' 0 16) fun s q => s.setRing q ⟨[], 0⟩
      (((s2.setW (R.RING_WSEQ p.val) 0).setW (R.RING_TSEQ p.val) 0).setW (R.RING_HSEQ p.val) 0).fin .ok) s

/-- PK_CTL_WRITE (R257). -/
def execPkCtlWrite (r : Req) (t : Fin 24) (v : Word) (s : State) : Host.Outcome State Fault Refusal :=
  act (regWrite r (R.PK_CTL t.val) noLock fun s =>
    let d := Nat.xor (bits v.toNat 15 0) (bits (s.w (R.PK_CTL t.val)).toNat 15 0)
    let hit := s.activeSids.any fun i =>
      !s.masonWritten i && s.f (F.SE_CTL_SRC_KIND i) == 0 && s.f (F.SE_SRC_CH i) / 16 == t.val && bit d (s.f (F.SE_SRC_CH i) % 16)
    if hit then s.fin .busy else (s.setW (R.PK_CTL t.val) (v &&& 0xFFFF)).fin .ok) s

end Sys2Proof.Machine
end

