-- ==== Sys2Proof/Machine/Press.lean ====
section
/-!
DEFINITION. The press family (R285 to R304): the end of a block, the engines' configuration and the expand engine.
-/

namespace Sys2Proof.Machine

/-- BLOCK_END (R293 to R296): an engine ends the block of the hod it handed on first. -/
def execBlockEnd (e : Fin 4) (s : State) : Host.Outcome State Fault Refusal := act (fun s => s.blockEnd e.val) s

/-- An active stream is assigned to an engine (R289, R292). -/
def State.engineUsed (s : State) (e : Nat) : Bool := s.activeSids.any fun i => s.pressed i && s.f (F.SE_REP_ENG i) == e

/-- PC_CTL_WRITE (R289, R292). -/
def execPcCtlWrite (r : Req) (e : Fin 4) (v : Word) (s : State) : Host.Outcome State Fault Refusal :=
  act (regWrite r (R.PC_CTL e.val) noLock fun s =>
    let m := bits v.toNat 25 16
    if m < 16 ∨ 1020 < m then s.fin .unsupported
    else if s.engineUsed e.val then s.fin .busy
    else (s.setW (R.PC_CTL e.val) (v &&& 0x03FF0001)).fin .ok) s

/-- PC_MRES_WRITE (R15, R287). -/
def execPcMresWrite (r : Req) (e : Fin 4) (v : Word) (s : State) : Host.Outcome State Fault Refusal :=
  act (regWrite r (R.PC_MRES e.val) noLock fun s =>
    let s1 := s.setW (R.PC_MRES e.val) v
    if s1.pressOk then s1.fin .ok else s.fin .unsupported) s

/-- PX_GO (R297, R301). -/
def execPxGo (r : Req) (v : Word) (s : State) : Host.Outcome State Fault Refusal :=
  act (regWrite r R.PX_CTL noLock fun s =>
    if !wbit v 0 then s.fin .ok
    else if s.f F.PX_STAT_STATE ≠ 0 ∨ s.b F.PX_STAT_OWNER then s.fin .busy
    else (((s.setF F.PX_STAT_VALID 0).setF F.PX_STAT_STATUS 0).setF F.PX_STAT_STATE 1).fin .ok) s

/-- Output bytes written to PX_OUTBUF from its first byte on; the other bytes of a last, partly written word stay. -/
def State.pxOut (s : State) (k : Nat) : List Byte → State
  | [] => s
  | a :: b :: c :: d :: r => (s.setW (R.PX_OUTBUF k) (BitVec.ofNat 32 (beNat [a, b, c, d]))).pxOut (k + 1) r
  | bs => s.setW (R.PX_OUTBUF k) (BitVec.ofNat 32 (beNat (bs ++ (wordBE (s.w (R.PX_OUTBUF k))).drop bs.length)))

/-- A job ends with a status and what it wrote (R297 to R300). -/
def State.pxEnd (s : State) (c : Status) (out : List Byte) : State :=
  let s1 := (s.pxOut 0 out).setF F.PX_OUT_CNT_V out.length
  ((s1.setF F.PX_STAT_STATE 0).setF F.PX_STAT_STATUS c.code).setF F.PX_STAT_VALID (b2n (c == .ok))

/-- A job that fails logs PX_REJECT with its status and the block's index (R300). -/
def State.pxReject (s : State) (c : Status) (k : Nat) : State := s.raiseBit R.PRESS_EVT 0 0x0701 0 (c.code * 2 ^ 32 + k)

/-- The status of a scan's failure (R298). -/
def ScanErr.status : ScanErr → Status
  | .length => .length
  | .unsupported => .unsupported

/-- The job in progress ends (R298 to R300): it scans every block header and then expands the blocks, or stops at its first failure. -/
def State.pxJobEnd (s : State) : State :=
  if s.f F.PX_STAT_STATE = 0 then s
  else
    let n := s.f F.PX_JOB_IN_LEN
    let ws := (range' 0 n).map fun k => s.w (R.PX_INBUF k)
    let limit := s.f F.PX_JOB_OUT_LIMIT
    match scanBlocks (n + 1) 0 limit ws with
    | .error (e, k) => (s.pxEnd e.status []).pxReject e.status k
    | .ok bs =>
      match expandBlocks bs limit 0 [] with
      | ⟨out, none⟩ => s.pxEnd .ok out
      | ⟨out, some (true, _, k)⟩ => (s.pxEnd .length out).raiseBit R.PRESS_EVT 1 0x0702 0 (Status.length.code * 2 ^ 32 + k)
      | ⟨out, some (false, true, k)⟩ => (s.pxEnd .crc out).pxReject .crc k
      | ⟨out, some (false, false, k)⟩ => (s.pxEnd .length out).pxReject .length k

/-- A job in SCAN, all of whose block headers pass, goes on to EXPAND (R298, R304). -/
def State.pxScanned (s : State) : State :=
  let n := s.f F.PX_JOB_IN_LEN
  if s.f F.PX_STAT_STATE = 1 then
    match scanBlocks (n + 1) 0 (s.f F.PX_JOB_OUT_LIMIT) ((range' 0 n).map fun k => s.w (R.PX_INBUF k)) with
    | .ok _ => s.setF F.PX_STAT_STATE 2
    | .error _ => s
  else s

/-- PX_JOB_END (R298 to R300). -/
def execPxJobEnd (s : State) : Host.Outcome State Fault Refusal := act State.pxJobEnd s

end Sys2Proof.Machine
end

