-- ==== Sys2Proof/Machine/Program.lean ====
section
/-!
DEFINITION. Program images: their layout (R204 to R206), the load session of PROGRAM hods (R207), and the installation that COMMIT and the release
share (R208 to R210, R450).
-/

namespace Sys2Proof.Machine

/-! ### The image (R204 to R206) -/

/-- A section of an image: KIND, OFFSET, LEN and its data words. -/
structure Sect where
  kind : Nat
  off : Nat
  len : Nat
  data : List Word
  deriving DecidableEq, Repr

/-- An image that has passed steps 4 to 7 of R208. -/
structure Image where
  masons : Nat
  entry : Nat
  tvec : Nat
  legal : Bool
  sects : List Sect
  /-- The IMAGE_LEN bytes. -/
  bytes : List Byte
  deriving DecidableEq, Repr

/-- Sections one after another; none where one reaches past the words (R205). -/
def readSects : Nat → List Word → Option (List Sect)
  | 0, _ => some []
  | n + 1, h :: l :: r =>
    let kind := bits h.toNat 31 24
    let d := if kind = 3 then 0 else ceilDiv l.toNat 4
    if r.length < d then none
    else (readSects n (r.drop d)).map fun xs => ⟨kind, bits h.toNat 23 0, l.toNat, r.take d⟩ :: xs
  | _ + 1, _ => none

/-- The memory that a section fills: 1 IMEM, 2 DMEM, none for STREAMS. -/
def Sect.mem (x : Sect) : Nat := if x.kind = 3 then 2 else if x.kind = 4 then 0 else x.kind

/-- Two sections that fill no common byte. -/
def Sect.apart (x y : Sect) : Bool :=
  x.mem == 0 || x.mem != y.mem || x.len == 0 || y.len == 0 || decide (x.off + x.len ≤ y.off) || decide (y.off + y.len ≤ x.off)

/-- No two sections overlap. -/
def allApart : List Sect → Bool
  | [] => true
  | x :: xs => xs.all x.apart && allApart xs

/-- A section keeps the rules of R205 and R206. -/
def Sect.ok (x : Sect) : Bool :=
  match x.kind with
  | 1 => x.off % 4 == 0 && decide (x.off + x.len ≤ 65536)
  | 2 => x.off % 4 == 0 && decide (x.off + x.len ≤ 131072)
  | 3 => x.off % 4 == 0 && decide (x.off + x.len ≤ 131072)
  | 4 => x.off == 0 && x.len % 16 == 0 && ((range' 0 (x.len / 16)).all fun i => (x.data.getD (4 * i + 3) 0).toNat % 4 == 0)
  | _ => false

/-- Steps 4 to 7 of R208 on staged bytes; an image shorter than its header reads as zeros there. A failure names its status and step. -/
def readImage (bs : List Byte) : Except (Status × Nat) Image :=
  let ws := bytesToWords bs
  let h (i : Nat) : Nat := (ws.getD i 0).toNat
  let len := h 4
  let crcBytes := (bs.take len).zip (range' 0 len) |>.map fun x => if 28 ≤ x.2 ∧ x.2 < 32 then (0 : Byte) else x.1
  if h 0 ≠ 0x42524B31 ∨ h 1 / 65536 ≠ 1 ∨ 65536 ≤ h 5 ∨ 2 ≤ h 6 then .error (.unsupported, 4)
  else if crc32c crcBytes ≠ h 7 then .error (.crc, 5)
  else if len ≠ bs.length ∨ len % 4 ≠ 0 then .error (.length, 6)
  else match readSects (h 5) (ws.drop 8) with
    | none => .error (.length, 6)
    | some xs =>
      let vecOk (a : Nat) : Bool := a % 4 == 0 && decide (a < 65536)
      if 1 ≤ h 5 ∧ h 5 ≤ 256 ∧ h 1 % 65536 ≠ 0 ∧ vecOk (h 2) ∧ vecOk (h 3) ∧ xs.all Sect.ok ∧ allApart xs then
        .ok ⟨h 1 % 65536, h 2, h 3, h 6 == 1, xs, bs⟩
      else .error (.unsupported, 7)

/-- The target masons of an image. -/
def Image.targets (x : Image) : List Nat := (range' 0 16).filter fun m => bit x.masons m

/-- A stream entry that an image creates: the three words of STREAM_ADD, its SLOT, and the masons whose DMEM receives the SID (R206). -/
structure AddEntry where
  ctl : Word
  src : Word
  rep : Word
  slot : Nat
  masons : List Nat
  deriving DecidableEq, Repr

/-- The entries of a STREAMS section, by its data words. -/
def readEntries (ts : List Nat) : List Word → List AddEntry
  | c :: x :: y :: w :: r =>
    let slot := bits w.toNat 16 0
    (if wbit w 31 then ts.map fun m => ⟨BitVec.ofNat 32 (putBits c.toNat (F.SE_CTL_MASON 0).hi (F.SE_CTL_MASON 0).lo m), x, y, slot, [m]⟩
      else [⟨c, x, y, slot, ts⟩]) ++ readEntries ts r
  | _ => []

/-- Every entry that an image creates, in section order. -/
def Image.entries (x : Image) : List AddEntry := (x.sects.filter fun c => c.kind == 4).flatMap fun c => readEntries x.targets c.data

/-! ### Installation -/

/-- Entries created in order with the checks of STREAM_ADD, each counting those before it; none where one fails. The SIDs to write come as mason,
slot and SID. With `boot`, ACT is taken as 0 (R450). -/
def State.createAll (s : State) (boot : Bool) : List AddEntry → Option (State × List (Nat × Nat × Nat))
  | [] => some (s, [])
  | e :: es =>
    let ctl := if boot then e.ctl &&& 0xBFFFFFFF else e.ctl
    if !addBitsOk ctl e.src e.rep then none
    else match s.addStream ctl e.src e.rep with
      | .error _ => none
      | .ok (s1, k) => (s1.createAll boot es).map fun r => (r.1, e.masons.map (fun m => (m, e.slot, k)) ++ r.2)

/-- Words written to a mason's memory, one after another. -/
def State.memStores (s : State) (a : Nat) : List Word → State
  | [] => s
  | v :: vs => (s.memStore a v).memStores (a + 4) vs

/-- An image written to one mason: its memories zeroed, then its sections, its vectors and LOADED (R208). -/
def State.fillMason (s : State) (x : Image) (m : Nat) : State :=
  let s1 := (s.dropMem (imem m) 0x30000).each x.sects fun s c =>
    match c.kind with
    | 1 => s.memStores (imem m + c.off) c.data
    | 2 => s.memStores (dmem m + c.off) c.data
    | _ => s
  let s2 := (s1.setF (F.MC_ENTRY_V m) x.entry).setF (F.MC_TVEC_V m) x.tvec
  s2.setF (F.MC_STAT_LOADED m) 1

/-- The digest that an image leaves with its masons: none for one that is not LEGAL (R407, R409). -/
def Image.digest (x : Image) : List Byte := if x.legal then sha256 x.bytes else []

/-- Steps 11 and 12 of R208, then the installation. -/
def State.place (s : State) (x : Image) (boot : Bool) : Except (Status × Nat) State :=
  let es := x.entries
  let free := ((range' 0 8192).filter fun k => !s.sidTaken k).length
  if !es.isEmpty && decide (free < es.length) then .error (.tableFull, 11)
  else match s.createAll boot es with
    | none => .error (.unsupported, 12)
    | some (s1, sids) =>
      .ok ((s1.each x.targets fun s m => s.fillMason x m).each sids fun s w => s.memStore (dmem w.1 + w.2.1) (BitVec.ofNat 32 w.2.2))

/-- Steps 10 to 12 of R208 and the installation; the second part is the failure, if any, with its step. A change of the legally relevant part
is counted only where the later steps pass, and the image is then installed when its save is complete: a batch is in progress until then
(R407, R411). A LEGAL boot image that is already recorded for its masons is no change (R409). `boot` is the boot image that it is. -/
def State.install (s : State) (x : Image) (boot : Option Bool) (vh : Nat) : State × Option (Status × Nat) :=
  let same := boot.isSome && x.legal && x.targets.all fun m => Tab.get (fun _ => []) s.csDig m == sha256 x.bytes
  let change := !same && (x.legal || x.targets.any s.holdsLegal)
  if !change then
    match s.place x boot.isSome with
    | .error e => (s, some e)
    | .ok s2 => (s2, none)
  else if !s.csOn || s.csBlocked then
    let s1 := s.csRefuse 0 .locked
    (s1.when (boot.isSome && x.legal && s.b F.CS_STAT_SEALED) fun s => s.csEvent 8 0x0B09 0 0, some (.locked, 10))
  else if s.kilnTest == some (9, 0) then (s, some (.busyTest, 10))
  else if s.nvBusy then (s, some (.busy, 10))
  else
    match s.place x boot.isSome with
    | .error (c, k) =>
      let (s1, ok) := s.nvCheck 3 64 vh
      if s.csStop || !ok then (s1.csRefuse 0 (if s.csStop then .busy else .nvEnergy), some (if s.csStop then .busy else .nvEnergy, 10)) else (s1, some (c, k))
    | .ok _ =>
      match s.csChange vh (fun s => s.noteDig x.targets x.digest) (.image x.bytes boot vh) with
      | (s1, some c) => (s1, some (c, 10))
      | (s1, none) => (s1, none)

/-! ### The load session (R207, R208) -/

/-- A word of staging. -/
def Prog.word (x : Prog) (k : Nat) : Option Word := Tab.get (fun _ => none) x.words k

/-- Data written to staging from word `k` on. -/
def Prog.stage (x : Prog) (k : Nat) : List Word → Prog
  | [] => x
  | v :: vs => { x with words := Tab.set (fun _ => none) x.words k (some v) }.stage (k + 1) vs

/-- BEGIN (R207). -/
def execBegin (p : Fin 16) (tag : BitVec 7) (ws : List Word) (s : State) : Host.Outcome State Fault Refusal :=
  act (request 8 p.val 0 tag.toNat fun s =>
    match ws with
    | [l, c] =>
      if bits c.toNat 30 0 ≠ 0 then s.fin .unsupported
      else if s.prog.isSome then s.fin .busy
      else if l.toNat = 0 ∨ 524288 < l.toNat then s.fin .length
      else { s with prog := some ⟨l.toNat, wbit c 31, []⟩ }.fin .ok
    | _ => s.fin .length) s

/-- DATA (R207). -/
def execData (p : Fin 16) (tag : BitVec 7) (ws : List Word) (s : State) : Host.Outcome State Fault Refusal :=
  act (request 8 p.val 1 tag.toNat fun s =>
    match ws with
    | o :: d :: ds =>
      match s.prog with
      | none => s.fin .unsupported
      | some x =>
        if o.toNat % 4 ≠ 0 then s.fin .addr
        else if 4 * ceilDiv x.len 4 < o.toNat + 4 * (ds.length + 1) then s.fin .length
        else { s with prog := some (x.stage (o.toNat / 4) (d :: ds)) }.fin .ok
    | _ => s.fin .length) s

/-- ABORT (R207). -/
def execAbort (p : Fin 16) (tag : BitVec 7) (ws : List Word) (s : State) : Host.Outcome State Fault Refusal :=
  act (request 8 p.val 3 tag.toNat fun s =>
    if ws ≠ [] then s.fin .length
    else if s.prog.isNone then s.fin .unsupported
    else { s with prog := none }.fin .ok) s

/-- Step 3 of R208: the staged words expanded (R209); a failure is logged by PX (R299, R300). -/
def State.expandStage (s : State) (ws : List Word) : State × Except Status (List Byte) :=
  match scanBlocks (ws.length + 1) 0 524288 ws with
  | .error (c, k) => (s.pxReject c.status k, .error .length)
  | .ok bs =>
    match expandBlocks bs 524288 0 [] with
    | ⟨out, none⟩ => (s, .ok out)
    | ⟨_, some (true, _, k)⟩ => (s.raiseBit R.PRESS_EVT 1 0x0702 0 (Status.length.code * 2 ^ 32 + k), .error .length)
    | ⟨_, some (false, true, k)⟩ => (s.pxReject .crc k, .error .crc)
    | ⟨_, some (false, false, k)⟩ => (s.pxReject .length k, .error .length)

/-- The mason that an image's events name: the lowest target (R221). -/
def Image.source (x : Image) : Nat := x.targets.headD 0

/-- The lowest mason that the header of staged bytes names, where it holds one (R204, R221). -/
def headSource (bs : List Byte) : Nat :=
  let h := (bytesToWords (bs.take 8)).map BitVec.toNat
  ((range' 0 16).find? fun m => bit (h.getD 1 0 % 65536) m).getD 0

/-- Steps 4 to 12 of R208 on the image's bytes, with the mason that the event names (R221; notes/assumptions/103.md). -/
def State.commitImage (s : State) (bs : List Byte) (vh : Nat) : State × Nat × Option (Status × Nat) :=
  match readImage bs with
  | .error e => (s, headSource bs, some e)
  | .ok x =>
    if !s.live then (s, x.source, some (.mode, 8))
    else if x.targets.any fun m => s.kilnTest == some (3, m) then (s, x.source, some (.busyTest, 9))
    else if x.targets.any fun m => s.f (F.MC_STAT_STATE m) != 0 then (s, x.source, some (.busy, 9))
    else let (t, e) := s.install x none vh; (t, x.source, e)

/-- The steps of R208. A host job of PX ends first (R301). -/
def State.commitSteps (s : State) (vh : Nat) : State × Nat × Option (Status × Nat) :=
  match s.prog with
  | none => (s, 0, some (.unsupported, 1))
  | some x =>
    let ks := range' 0 (ceilDiv x.len 4)
    if ks.any fun k => (x.word k).isNone then (s, 0, some (.length, 2))
    else
      let ws := ks.map fun k => (x.word k).getD 0
      if x.comp && s.kilnTest == some (5, 0) then (s, 0, some (.busyTest, 3))
      else if x.comp then
        match s.pxJobEnd.expandStage ws with
        | (s1, .error c) => (s1, 0, some (c, 3))
        | (s1, .ok bs) => s1.commitImage bs vh
      else s.commitImage ((wordsToBytes ws).take x.len) vh

/-- A COMMIT has installed its image, and the session closes (R207, R208, R221). -/
def State.commitDone (s : State) (m : Nat) : State := ({ s with prog := none }.raise 0x0C05 m 0).fin .ok

/-- A COMMIT has failed: the failure is logged with its status above bit 32 and its step (DESIGN CHOICE, notes/assumptions/25.md), and the session stays
open (R208, R221). -/
def State.commitFail (s : State) (m : Nat) (e : Status × Nat) : State := (s.raise 0x0C06 m (e.1.code * 2 ^ 32 + e.2)).fin e.1

/-- COMMIT (R207 to R209, R221); `vh` is VHOLD as measured for the parameter slot. One that is a legally relevant change completes with its save. -/
def execCommit (p : Fin 16) (tag : BitVec 7) (ws : List Word) (vh : BitVec 16) (s : State) : Host.Outcome State Fault Refusal :=
  act (request 8 p.val 2 tag.toNat fun s =>
    if ws ≠ [] then s.fin .length
    else match s.commitSteps vh.toNat with
      | (s1, m, some e) => s1.commitFail m e
      | (s1, m, none) => if s.began s1 then s1 else s1.commitDone m) s

end Sys2Proof.Machine
end

