-- ==== Sys2Proof/Machine/Release.lean ====
section
/-!
DEFINITION. The release (R453): the seeding of ST (R83), the boot image (R450), the kiln record's reading (R471), the retirement of slices (R60, R63,
R466, R472), the lanes, and the end in HOLD or SAFE; and the block reset (R452).
-/

namespace Sys2Proof.Machine

/-! ### Step 4: the seed (R83) -/

/-- ST is seeded from the RTC. -/
def State.seed (s : State) : State :=
  let ok := s.b F.RTC_STAT_VALID
  let t := if ok then s.rtcTime else 0
  let s1 : State := { s with st := t, pps := { s.pps with from_ := s.cyc } }
  let s2 := (s1.setF F.TIME_STAT_SEED_INVALID (b2n !ok)).when (!ok) fun s => s.raiseBit R.TIME_EVT 0 0x0201 0 0
  ((s2.setF F.TIME_STAT_SEEDED 1).setF F.TIME_STAT_QUALITY 3).servoReset

/-- The VCO of SMPL locks to SYS where SYS is its source (R96, R110). -/
def State.smplUp (s : State) : State := s.when (!s.b F.SMPL_CTL_SRC) fun s => s.smplLock.setF F.TIME_STAT_SMPL_LOCK 1

/-! ### Step 6: the boot image (R450) -/

/-- IMAGE_LEN of a boot image in the MRAM, at most the space it has. -/
def State.bootLen (s : State) (b : Bool) : Nat := min (beNat (s.nvBytes (nvBoot b + 16) 4)) (2 ^ 20)

/-- A boot image that passes steps 4 to 7 of R208. -/
def State.bootImage (s : State) (b : Bool) : Except (Status × Nat) Image :=
  let h := (bytesToWords (s.nvBytes (nvBoot b) 32)).map fun w => w.toNat
  if h.getD 0 0 ≠ 0x42524B31 then .error (.unsupported, 4) else readImage (s.nvBytes (nvBoot b) (s.bootLen b))

/-- An image that fails: BOOT_STAT keeps the step, and the event names image and step. -/
def State.bootFail (s : State) (b : Bool) (step : Nat) : State :=
  (s.setF F.BOOT_STAT_STEP step).raiseBit R.RPC_EVT 10 0x010B 0 ((1 + b2n b) * 2 ^ 32 + step)

/-- A boot image is installed. -/
def State.bootDone (s : State) (b : Bool) (x : Image) : State :=
  { (s.setF F.BOOT_STAT_IMAGE (1 + b2n b)).setF F.BOOT_STAT_MASONS x.masons with bootSha := sha256 x.bytes }.raise 0x0C05 x.source 0

/-- One image is tried; answers whether another one must be. One that is a legally relevant change waits for its save (R407). -/
def State.tryBoot (s : State) (b : Bool) (vh : Nat) : State × Bool :=
  match s.bootImage b with
  | .error (_, k) => (s.bootFail b k, true)
  | .ok x =>
    match s.install x (some b) vh with
    | (s1, some (_, k)) => (s1.bootFail b k, true)
    | (s1, none) => (if s.began s1 then s1 else s1.bootDone b x, false)

/-- The image, or images, that BOOT_SEL names: 0 none, 1 A, 2 B, 3 A, else B. -/
def State.boot (s : State) (vh : Nat) : State :=
  let s0 : State := { s.setW R.BOOT_STAT 0 with bootSha := [] }
  match bits (s0.w (R.OPT_CUR 3)).toNat 17 16 with
  | 1 => (s0.tryBoot false vh).1
  | 2 => (s0.tryBoot true vh).1
  | 3 => let r := s0.tryBoot false vh; if r.2 then (r.1.tryBoot true vh).1 else r.1
  | _ => s0

/-- Step 6 ends, but for an image that waits for its save. -/
def State.bootStep (s : State) (vh : Nat) : State :=
  if s.nvBusy then s
  else let s1 := s.boot vh; if s.began s1 then s1 else { s1 with rel := 7 }

/-! ### Step 7: test or skip (R471) -/

/-- The words of the kiln record. -/
def State.kilnRecord (s : State) : List Nat := (bytesToWords (s.nvBytes nvKiln 576)).map fun w => w.toNat

/-- MAGIC, FORMAT, the segment count and the CRC are valid. -/
def kilnValid (ws : List Nat) : Bool :=
  ws.getD 0 0 == 0x4B494C4E && ws.getD 1 0 == 0x1005C && ws.getD 143 0 == crc32 ((ws.take 143).flatMap (natBE 4))

/-- The age of a record lies within KILN_MAX_AGE. -/
def State.kilnFresh (s : State) (ws : List Nat) : Bool :=
  let now := s.rtc / 2 ^ 15
  let then_ := bits (ws.getD 2 0) 7 0 * 2 ^ 32 + ws.getD 3 0
  s.b F.RTC_STAT_VALID && decide (then_ ≤ now) && decide (now < then_ + bits (s.w (R.OPT_CUR 9)).toNat 23 16 * 86400)

/-- Words 4 to 12 that a record of this bring-up would hold. -/
def State.bootWords (s : State) : List Nat :=
  (if s.bootSha = [] then List.replicate 8 0 else (bytesToWords s.bootSha).map fun w => w.toNat) ++ [s.f F.BOOT_STAT_IMAGE]

/-- Step 7 is decided: the power-on test is skipped, or begins. -/
def State.kilnVerdict (s : State) (why : Nat) : State :=
  let s1 := (s.setF F.KILN_STAT_REASON why).setF F.KILN_STAT_SKIPPED (b2n (why == 0))
  if why = 0 then { s1.raiseBit R.KILN_EVT 4 0x0A05 0 0 with rel := 8 }
  else ((s1.raiseBit R.KILN_EVT 5 0x0A06 0 why).setF F.KILN_STAT_STATE 2).segStart 0

/-- The checks that follow once the record is cleared: its age, its image, its results. -/
def State.kilnJudge (s : State) : State :=
  let ws := s.kilnWords
  ({ s with kilnWords := [] } : State).kilnVerdict
    (if !s.kilnFresh ws then 3
    else if ((ws.drop 4).take 9) != s.bootWords then 4
    else if !((range' 0 92).all fun k => bits (ws.getD (16 + k) 0) 31 30 == 1) then 5
    else 0)

/-- Step 7: the first check that fails decides; the second begins the batch of one row that clears a valid record, and the later ones wait for its end
(R444). The fault maps of a record with a valid CRC are kept. -/
def State.kilnStep (s : State) (vh : Nat) : State :=
  let ws := s.kilnRecord
  if !kilnValid ws then ({ s with recMaps := [] } : State).kilnVerdict 1
  else
    let maps := (range' 0 24).foldl (fun t k => Tab.set (fun _ => 0) t k (bits (ws.getD (108 + k) 0) 17 0)) ([] : Tab Nat)
    let (s1, ok) := ({ s with recMaps := maps } : State).nvCheck 2 1 vh
    if !ok then s1.kilnVerdict 2 else { s1.begin 4 nvKiln [List.replicate 64 0] with kilnWords := ws }

/-! ### Step 8: tiles (R60 to R64, R466, R472) -/

/-- A slice that the kiln found faulty is retired (R60). -/
def State.retireSlice (s : State) (t k : Nat) : State := (s.setBit (R.TILE_RETIRE t) k).raise 0x0304 t k

/-- The spare stands in for the retired slice that it takes over, where one is (R60). -/
def State.standIn (s : State) (t : Nat) : State :=
  match s.retired t with
  | some k => (s.setSrc t k 16).setF (F.TILE_STAT_SPARE_POS t) k
  | none => s

/-- A fault map acts on a tile: every faulty slice is retired, and a faulty spare; rotation stops; a good spare takes over the lowest faulty slice, and
every other one loses its input; bit 17 takes every input out of service. The events of one cycle enter the log in the order of their codes
(R60, R62 to R64, R466, R472, R477). The event of a failed spare names no slice (DESIGN CHOICE, notes/assumptions/109.md). -/
def State.applyMap (s : State) (t map : Nat) : State :=
  let bad := (range' 0 16).filter fun k => bit map k
  let s1 := s.each bad fun s k => s.retireSlice t k
  let s2 := s1.when (bad != [] || bit map 16) fun s => s.freeze t
  let s3 := s2.when (bit map 16) fun s => ((s.setF (F.TILE_RETIRE_SPARE t) 1).setF (F.TILE_STAT_SPARE_FAILED t) 1).raise 0x0306 t 0
  let s4 := s3.standIn t
  s4.each ((range' 0 16).filter fun k => bit map 17 || (bit map k && s4.retired t != some k)) fun s k => s.failInput t k

/-- A tile at the release: what an earlier bring-up retired is worked out anew, and the tile enters STOPPED (R60, R62, R70). -/
def State.releaseTile (s : State) (t : Nat) : State :=
  let s1 := ((s.setW (R.TILE_RETIRE t) 0).setW (R.TILE_FAILED t) 0).setF (F.TILE_STAT_CAL_FROZEN t) 0
  let s2 := (s1.setF (F.TILE_STAT_SPARE_FAILED t) 0).each (range' 0 16) fun s i => s.setF (F.CH_STAT_FAILED t i) 0
  let map := if s.b F.KILN_STAT_SKIPPED then 0 else Nat.lor (s.f (F.KILN_MAP_MAP t)) (Tab.get (fun _ => 0) s.recMaps t)
  let s3 := (s2.tileStop t 3).setTile t { (s2.tileStop t 3).tile t with rSum := 0, bad := 0 }
  (s3.applyMap t map).showPairs t

/-! ### The steps (R453) -/

/-- RELEASE_STEP: the block released last reports ready, and the next is released. `vh` is VHOLD as measured where a batch is checked. The option load
is a command of its own, and so are the segments of the power-on test; steps 6 and 7 wait for a batch in progress. -/
def State.releaseStep (s : State) (vh : Nat) : State :=
  match s.rel with
  | 3 => { s.seed with rel := 4 }
  | 4 => { s.smplUp with rel := 5 }
  | 5 => { (s.dropMem 0x20000000 (2 ^ 29)).setF F.YARD_STAT_READY 1 with rel := 6 }
  | 6 => s.bootStep vh
  | 7 => if s.nvBusy || s.f F.KILN_STAT_STATE == 2 then s else s.kilnStep vh
  | 8 => { s.each (range' 0 24) State.releaseTile with rel := 9 }
  | 9 => (({ s with rel := 10 } : State).each (range' 0 16) State.trainPort).endRelease
  | _ => s

/-- RELEASE_STEP. -/
def execReleaseStep (vh : BitVec 16) (s : State) : Host.Outcome State Fault Refusal := act (fun s => s.releaseStep vh.toNat) s

/-! ### Block reset (R452) -/

/-- How many blocks a kind has, none for a kind that is not known; kinds 9 to 11 are the kiln's (R452, R473). -/
def kindCount : Nat → Option Nat
  | 1 => some 24
  | 2 => some 24
  | 3 => some 16
  | 4 => some 4
  | 5 => some 1
  | 6 => some 1
  | 7 => some 8
  | 8 => some 64
  | 9 => some 1
  | 10 => some 8
  | 11 => some 1
  | _ => none

/-- A block is idle (R452, R473). -/
def State.blockIdle (s : State) (kind i : Nat) : Bool :=
  match kind with
  | 1 => s.b (F.TILE_STAT_IDLE i)
  | 2 => (range' 0 8).all fun p => s.pathIdle i p
  | 3 => s.f (F.MC_STAT_STATE i) == 0 || s.f (F.MC_STAT_STATE i) == 3 || s.f (F.MC_STAT_STATE i) == 4
  | 4 => !s.engineUsed i && (s.pack (100 + i)).isEmpty
  | 5 => s.f F.PX_STAT_STATE == 0 && !s.b F.PX_STAT_OWNER
  | 6 => !s.b F.HK_CTL_EN && !s.b F.HK_STAT_RUN
  | 7 => s.pstate (2 * i) == 0 && s.pstate (2 * i + 1) == 0
  | 8 => !s.b (F.TU_CTL_EN i)
  | 9 => s.csMeters == []
  | 10 => s.b F.YARD_STAT_SREF
  | 11 => s.unitsOn == [] && s.wsUsed == 0
  | _ => false

/-- A mason that holds a LEGAL image under a seal (R407). -/
def State.legalSealed (s : State) (m : Nat) : Bool := s.b F.CS_STAT_SEALED && decide (m < 16) && s.holdsLegal m

/-- BLK_RST. -/
def execBlkRst (r : Req) (v : Word) (s : State) : Host.Outcome State Fault Refusal :=
  act (fun s =>
    let kind := bits v.toNat 27 24
    let i := bits v.toNat 7 0
    if kind = 3 && s.legalSealed i && accOf r R.BLK_RST == .rw then (s.csRefuse 0 .locked).fin .locked
    else regWrite r R.BLK_RST noLock (fun s =>
      match if kind ≤ 8 then kindCount kind else none with
      | none => s.fin .unsupported
      | some n =>
        if n ≤ i then s.fin .addr
        else if s.testing = some (kind, i) ∨ (kind = 8 ∧ s.testing = some (11, 0)) then s.fin .busyTest
        else if !s.blockIdle kind i then s.fin .busy
        else ((s.resetBlock kind i).raiseBit R.RPC_EVT 5 0x0106 kind i).fin .ok) s) s

end Sys2Proof.Machine
end

