-- ==== Sys2Proof/Machine/Modes.lean ====
section
/-!
DEFINITION. The MODE register and its owner (R421 to R423, R454 to R457), entry to SAFE on a fault (R455), ALERT_CTL (R460) and TRIGIO_CTL (R496).
-/

namespace Sys2Proof.Machine

/-! ### A change of mode on request (R455, R456) -/

/-- Entry to ACQUIRE: the stores of the trigger groups are empty, every active stream restarts, and what the reserve holds of a class that is not
refused is to be written first (R159, R181, R278). -/
def State.toAcquire (s : State) (who : Nat) : State :=
  let s1 := ((s.modeTo 3 who).emptyStore).each s.activeSids fun s k => s.setStr k (s.freshStr k)
  let due := (range' 0 16).flatMap fun p =>
    ((s1.reserveSids p true ++ s1.reserveSids p false).filter fun i => !s1.classRefused p i && !s1.resumed.contains (i, p)).map fun i => (i, p)
  { s1 with resumed := s1.resumed ++ due }

/-- Entry to DORMANT: SYS stops, and the time quality is UNLOCKED (R84). -/
def State.goDormant (s : State) (who : Nat) : State := (s.modeTo 0 who).setF F.TIME_STAT_QUALITY 3

/-- HOLD or SAFE is left for DORMANT: mason hods close, tiles and grids stop, the rings and the reserve are emptied, and the lanes and their PLLs go
down; the kiln starts unless NOKILN skips it (R274, R455, R456, R458, R468). -/
def State.toDormant (s : State) (who : Nat) (nokiln : Bool) : State :=
  let s1 : State := { s.stopData.emptyYard with handed := [], draining := false }
  let s2 := (s1.each (range' 0 16) State.portOff).each (range' 0 8) fun s q => s.setF (F.QUAD_STAT_PLL_LOCK q) 0
  if nokiln then s2.goDormant who
  else (((s2.modeTo 4 who).raiseBit R.KILN_EVT 0 0x0A01 0 0).setF F.KILN_STAT_STATE 1).segStart 0

/-- A MODE write of `new` (R422, R455, R456). -/
def State.modeWrite (s : State) (r : Req) (new : Nat) (nokiln discard : Bool) : State :=
  let who := reqCode r
  let old := s.mode
  if s.notOwner r then s.fin .busy
  else if new = 4 then s.fin .unsupported
  else if new = old then s.fin .ok
  else if new = 3 ∧ old = 2 then (s.toAcquire who).fin .ok
  else if new = 2 ∧ old = 3 then (((s.leaveAcquire).modeTo 2 who).drain).fin .ok
  else if new = 5 ∧ (old = 2 ∨ old = 3) then (s.toSafe who 0).fin .ok
  else if new = 0 ∧ (old = 2 ∨ old = 5) then
    if s.kilnTest.isSome then s.fin .busyTest
    else if !discard && s.rings.any fun x => x.2.hods != [] then s.fin .busy
    else (s.toDormant who nokiln).fin .ok
  else if new = 1 ∧ old = 0 ∧ r = .manager then
    if !s.mainGood then s.fin .busy
    else ({ s.modeTo 1 who with rel := 2, relWake := true } : State).csWake.fin .ok
  else s.fin .mode

/-- MODE_ACQUIRE. -/
def execModeAcquire (r : Req) (s : State) : Host.Outcome State Fault Refusal :=
  act (regWrite r R.MODE noLock fun s => s.modeWrite r 3 false false) s

/-- MODE_HOLD. -/
def execModeHold (r : Req) (s : State) : Host.Outcome State Fault Refusal :=
  act (regWrite r R.MODE noLock fun s => s.modeWrite r 2 false false) s

/-- MODE_SAFE. -/
def execModeSafe (r : Req) (s : State) : Host.Outcome State Fault Refusal :=
  act (regWrite r R.MODE noLock fun s => s.modeWrite r 5 false false) s

/-- MODE_DORMANT. -/
def execModeDormant (r : Req) (nokiln discard : Bool) (s : State) : Host.Outcome State Fault Refusal :=
  act (regWrite r R.MODE noLock fun s => s.modeWrite r 0 nokiln discard) s

/-- MODE_BRINGUP. -/
def execModeBringup (r : Req) (s : State) : Host.Outcome State Fault Refusal :=
  act (regWrite r R.MODE noLock fun s => s.modeWrite r 1 false false) s

/-- SAFE_ENTRY: a fault sends the hub to SAFE by itself; `cause` is its event code. A fault of the yard's own state or of the press ends the drain at
once (R269, R455). -/
def State.faultSafe (s : State) (cause : Nat) : State :=
  let s1 := s.enterSafe cause
  s1.when (cause / 256 == 6 || cause / 256 == 7) State.dropDrain

/-- SAFE_ENTRY. -/
def execSafeEntry (cause : BitVec 16) (s : State) : Host.Outcome State Fault Refusal := act (fun s => s.faultSafe cause.toNat) s

/-! ### The owner of MODE (R421 to R423) -/

/-- An owner is put out of its place: the event's detail names it. -/
def State.ownerEvent (s : State) (i code old : Nat) : State := s.raiseBit R.MGP_EVT i code 0 old

/-- A write of MODE_OWNER: FORCE first, then the rows of R421 in order. -/
def State.ownerWrite (s : State) (r : Req) (own : Nat) (force : Bool) : State :=
  let old := s.f F.MODE_OWNER_OWNER
  let me := reqCode r
  if force then
    if r = .manager then ((s.setF F.MODE_OWNER_OWNER 2).ownerEvent 3 0x0E04 old).fin .ok else s.fin .unsupported
  else if old ≠ 0 ∧ old ≠ me then s.fin .busy
  else if own = 0 ∨ own = me then (s.setF F.MODE_OWNER_OWNER own).fin .ok
  else s.fin .unsupported

/-- MODE_OWNER_WRITE. -/
def execModeOwnerWrite (r : Req) (v : Word) (s : State) : Host.Outcome State Fault Refusal :=
  act (regWrite r R.MODE_OWNER noLock fun s => s.ownerWrite r (bits v.toNat 1 0) (wbit v 8)) s

/-- OWNER_FORCED: a write of MODE_OWNER with FORCE. -/
def execOwnerForced (r : Req) (own : BitVec 2) (s : State) : Host.Outcome State Fault Refusal :=
  act (regWrite r R.MODE_OWNER noLock fun s => s.ownerWrite r own.toNat true) s

/-- An owner is released (R423). -/
def State.ownerGone (s : State) (old : Nat) : State := (s.setF F.MODE_OWNER_OWNER 0).ownerEvent 4 0x0E05 old

/-- OWNER_RELEASED (R423, R498): the primary UP port has been out of UP for 100 ms, or, with `jtag`, the test access port is reset, which loads IDCODE. -/
def execOwnerReleased (jtag : Bool) (s : State) : Host.Outcome State Fault Refusal :=
  let old := s.f F.MODE_OWNER_OWNER
  .next (if jtag then
      if s.alive && old == 3 then (s.tapTo 2).ownerGone 3 else s.tapTo 2
    else if s.alive && old == 1 && !s.portUp s.primary then s.ownerGone 1 else s)

/-! ### ALERT_N and TRIGIO -/

/-- ALERT_CTL_WRITE (R460). -/
def execAlertCtlWrite (r : Req) (v : Word) (s : State) : Host.Outcome State Fault Refusal :=
  act (regWrite r R.ALERT_CTL noLock fun s => (s.setF F.ALERT_CTL_READY (bits v.toNat 0 0)).fin .ok) s

/-- A write of TRIGIO_CTL (R496). A ball that leaves MODE 2 ends its pulse. -/
def State.trigioWrite (s : State) (k : Nat) (v : Word) : State :=
  let m := bits v.toNat 9 8
  if m = 3 then s.fin .unsupported
  else if m ≠ 0 ∧ !s.live then s.fin .mode
  else
    let s1 := s.setW (R.TRIGIO_CTL k) (v &&& 0x003F0301)
    (s1.when (m != 2) fun s => { s with pulses := Tab.set (fun _ => none) s.pulses k none }).fin .ok

/-- TRIGIO_CTL_WRITE. -/
def execTrigioCtlWrite (r : Req) (k : Fin 4) (v : Word) (s : State) : Host.Outcome State Fault Refusal :=
  act (regWrite r (R.TRIGIO_CTL k.val) noLock fun s => s.trigioWrite k.val v) s

end Sys2Proof.Machine
end

