-- ==== Sys2Proof/Machine/Kiln.lean ====
section
/-!
DEFINITION. The kiln (R463 to R475): the end of a segment in the shutdown kiln, in the power-on test and in a test on demand, the kiln record, the end of an
MRAM batch (R442, R444), and the start of a test; and the clearing of the trouble log (R479).
-/

namespace Sys2Proof.Machine

/-! ### Results (R464 to R466) -/

/-- The fault map of a tile segment: a differing signature, or a fault that the block reports, without a flagged slice is a fault of the tile outside
its slices. -/
def tileMap (full sigOk fault : Bool) (map : Nat) : Nat := if map = 0 && (fault || (full && !sigOk)) then 2 ^ 17 else map

/-- RESULT of a segment: 1 PASS, 2 FAIL, 3 INCOMPLETE. -/
def segResult (full sigOk fault : Bool) : Nat := if fault then 2 else if !full then 3 else if sigOk then 1 else 2

/-- The segment that covers a block (R463, R473). -/
def kindSeg (kind i : Nat) : Nat :=
  match kind with
  | 1 => i
  | 2 => 24 + i
  | 3 => 48 + i
  | 4 => 67 + i
  | 5 => 71
  | 6 => 88
  | 7 => 80 + i
  | 9 => 90
  | 10 => 72 + i
  | _ => 66

/-- A segment's result, its count and a tile's fault map, with the events of R472. -/
def State.segReport (s : State) (seg result n map : Nat) : State :=
  let s1 := (s.setF (F.KILN_RES_RESULT seg) result).setF (F.KILN_RES_PATTERNS seg) n
  let s2 := s1.when (decide (seg < 24)) fun s => s.setF (F.KILN_MAP_MAP seg) map
  let d := seg * 2 ^ 32 + n
  let s3 := s2.when (result == 2) fun s => s.raiseBit R.KILN_EVT 2 0x0A03 seg d
  s3.when (result == 3) fun s => s.raiseBit R.KILN_EVT 3 0x0A04 seg d

/-- The end of segment `seg` of a kiln run. -/
def State.segNext (s : State) (seg : Nat) (sigOk fault : Bool) (patterns map : Nat) : State :=
  let n := min patterns (Config.kilnExp seg).toNat
  let full := n == (Config.kilnExp seg).toNat
  let m := tileMap full sigOk fault map
  let bad := if seg < 24 then m != 0 else fault
  let result := if seg < 24 then segResult full true bad else segResult full sigOk bad
  let s1 := s.segReport seg result n m
  if s1.f F.KILN_STAT_STATE = 1 then
    let s2 := s1.segReset seg
    if seg < 91 then s2.segStart (seg + 1) else { s2 with kilnEnd := true, snap := [] }
  else
    let s2 := if 24 ≤ seg ∧ result = 2 ∧ s1.safeNext = none then { s1 with safeNext := some seg } else s1
    if seg < 91 then s2.segStart (seg + 1)
    else { (s2.setF F.KILN_STAT_STATE 0).setF F.KILN_STAT_SEG 0 with rel := 8, snap := [] }

/-- The end of a test on demand. -/
def State.testNext (s : State) (kind : Nat) (sigOk fault : Bool) (patterns map : Nat) : State :=
  let full_ := s.testFull
  let n := min patterns full_
  let full := n == full_
  let result := if kind = 1 then segResult full true (tileMap full sigOk fault map != 0) else segResult full sigOk fault
  s.endTest result n

/-- The time budget of a segment in µs, in the power-on test and else (R463). -/
def segBudget (power : Bool) (seg : Nat) : Nat :=
  let (full, short) :=
    if seg < 24 then (30000, 6000) else if seg < 48 then (8000, 2000) else if seg < 64 then (6000, 1500) else if seg = 64 then (2000, 500)
    else if seg = 65 then (4000, 1000) else if seg = 66 then (12000, 3000) else if seg < 71 then (5000, 1000) else if seg = 71 then (3000, 1000)
    else if seg < 80 then (50000, 10000) else if seg < 88 then (15000, 2000) else if seg = 88 then (10000, 2000) else if seg = 89 then (10000, 3000)
    else if seg = 90 then (20000, 5000) else (30000, 10000)
  if power then short else full

/-- A segment ends when its pattern set is complete, or its budget is spent (R464). -/
def segEnded (budget full us patterns : Nat) : Bool := decide (full ≤ patterns) || decide (budget ≤ us)

/-- SEGMENT_END (R463 to R465): after `run.us` µs the segment running has completed `patterns` patterns; `run.sigOk` says whether the signature of the full set
matched, `fault` whether the block reported a fault on its own, and `map` is a tile's fault map. A segment that has neither come to its end nor spent
its budget goes on. -/
def execSegmentEnd (run : SegRun) (fault : Bool) (patterns : BitVec 24) (map : BitVec 18) (s : State) : Host.Outcome State Fault Refusal :=
  act (fun s =>
    let seg := s.f F.KILN_STAT_SEG
    let n := patterns.toNat
    let ended (power : Bool) : Bool := segEnded (segBudget power seg) (Config.kilnExp seg).toNat run.us n
    match s.kilnTest, s.f F.KILN_STAT_STATE with
    | some (k, _), _ =>
      if (if k = 8 then segEnded 200 4096 run.us n else ended false) then s.testNext k run.sigOk fault n map.toNat else s
    | none, 1 => if s.kilnEnd || !ended false then s else s.segNext seg run.sigOk fault n map.toNat
    | none, 2 => if ended true then s.segNext seg run.sigOk fault n map.toNat else s
    | none, _ => s) s

/-! ### The record (R468, R470) -/

/-- The words of the kiln record. -/
def State.newRecord (s : State) : List Nat :=
  let now := s.rtc / 2 ^ 15
  let ws := [0x4B494C4E, 0x1005C, now / 2 ^ 32 % 256, now % 2 ^ 32] ++ s.bootWords ++ [0, 0, 0]
    ++ ((range' 0 92).map fun k => (s.w (R.KILN_RES k)).toNat) ++ ((range' 0 24).map fun t => (s.w (R.KILN_MAP t)).toNat) ++ List.replicate 11 0
  ws ++ [crc32 (ws.flatMap (natBE 4))]

/-- Segments with a result. -/
def State.segCount (s : State) (result : Nat) : Nat := ((range' 0 92).filter fun k => s.f (F.KILN_RES_RESULT k) == result).length

/-- The shutdown kiln is over and the hub enters DORMANT. The detail holds the counts of PASS, FAIL and INCOMPLETE in [47:32], [31:16] and [15:0]. -/
def State.kilnOver (s : State) : State :=
  let s1 := s.raiseBit R.KILN_EVT 1 0x0A02 0 (s.segCount 1 * 2 ^ 32 + s.segCount 2 * 2 ^ 16 + s.segCount 3)
  { ((s1.setF F.KILN_STAT_STATE 0).setF F.KILN_STAT_SEG 0).goDormant 0 with kilnEnd := false }

/-- KILN_DONE (R468, R469): the batch of nine rows that writes the record begins, and the hub enters DORMANT as it ends (NV_BATCH_DONE), so that a reset
between the two can cut it; where the batch is refused for want of energy, the hub enters DORMANT at once. A batch still in progress ends first. -/
def execKilnDone (vh : BitVec 16) (s : State) : Host.Outcome State Fault Refusal :=
  act (fun s =>
    if s.mode = 4 ∧ s.kilnEnd ∧ !s.nvBusy then
      let (s1, ok) := s.nvCheck 2 9 vh.toNat
      if ok then s1.begin 4 nvKiln (nvRows 9 (s1.newRecord.flatMap (natBE 4))) else s1.kilnOver
    else s) s

/-- An image that waited for its save is installed (R208, R407, R450). Where the release installed it, the release goes on, with the other image where
this one fails now. -/
def State.imageSaved (s : State) (bs : List Byte) (boot : Option Bool) (vh : Nat) : State :=
  match readImage bs with
  | .error _ => s
  | .ok x =>
    match boot, s.place x boot.isSome with
    | none, .ok s1 => ((s1.noteDig x.targets x.digest).csChanged).commitDone x.source
    | none, .error e => s.commitFail x.source e
    | some b, .ok s1 => { ((s1.noteDig x.targets x.digest).csChanged).bootDone b x with rel := 7 }
    | some b, .error e =>
      let s1 := s.bootFail b e.2
      let s2 := if bits (s1.w (R.OPT_CUR 3)).toNat 17 16 = 3 ∧ b = false then (s1.tryBoot true vh).1 else s1
      if s1.began s2 then s2 else { s2 with rel := 7 }

/-- A parameter slot is saved, and its change comes into force (R407). A cornerstone that has lost its supply meanwhile takes the change from the slot
when it restarts, and its command completes with BUSY (DESIGN CHOICE, notes/assumptions/120.md). -/
def State.csSaved (s : State) : State :=
  let s1 : State := { s with csPend := none }
  match s.csPend with
  | some (.image bs boot vh) => s1.imageSaved bs boot vh
  | some p => ((s1.csTake p).csChanged).csEnd .ok
  | none => s1.fin .busy

/-- The batch in progress has written its rows. -/
def State.batchOver (s : State) (b : Batch) : State := { s.writeRows b b.rows.length with nv := none }.setF F.NV_STAT_BUSY 0

/-- What the end of a batch completes: the command of a host or manager request, the kiln where it still runs, release step 7, a change of
the cornerstone, which waits for a clock that stands still, a firmware block (R407, R408, R410, R444, R449, R468, R471). -/
def State.batchEffect (s : State) (writer : Nat) : State :=
  match writer with
  | 4 => if s.mode = 4 ∧ s.kilnEnd then s.kilnOver else if s.mode = 1 ∧ s.rel = 7 then s.kilnJudge else s
  | 5 => if s.csRuns then s.csSaved else s.fin .busy
  | 6 => s
  | 7 => s.csEnd .ok
  | _ => (s.setF F.NV_STAT_STATUS 0).fin .ok

/-- NV_BATCH_DONE: a batch has written its rows, and what waited for it goes on: the command that it carries out, with the request that it holds open, and a
save of the energy slot (R358, R407, R418, R442, R444, R449). The sequencer works while RST_N is held low. -/
def execNvBatchDone (s : State) : Host.Outcome State Fault Refusal :=
  .next (match s.aon && !s.scan, s.nv with
    | true, some b =>
      let s1 := (s.batchOver b).batchEffect b.writer
      (match s.owed with
        | some w => s1.endAccess w
        | none => s1).nextSave
    | _, _ => s)

/-! ### Tests on demand (R473) -/

/-- A write of KILN_CTL (R473). A tile whose excitation output is enabled answers BUSY (R73; DESIGN CHOICE, notes/assumptions/108.md). -/
def State.kilnWrite (s : State) (v : Word) : State :=
  let kind := bits v.toNat 27 24
  let i := bits v.toNat 7 0
  if !wbit v 31 then s.fin .ok
  else if !s.live then s.fin .mode
  else match kindCount kind with
    | none => s.fin .unsupported
    | some n =>
      if n ≤ i then s.fin .addr
      else if s.kilnTest.isSome then s.fin .busy
      else if kind = 9 ∧ s.b F.CS_STAT_SEALED then s.fin .locked
      else if !s.blockIdle kind i ∨ (kind = 1 ∧ s.b (F.EXC_CTL_EN i)) then s.fin .busy
      else (({ (s.setF F.KILN_STAT_STATE 3).setF F.KILN_STAT_SEG (kindSeg kind i) with kilnTest := some (kind, i) } : State).keepView).fin .ok

/-- KILN_GO. -/
def execKilnGo (r : Req) (v : Word) (s : State) : Host.Outcome State Fault Refusal :=
  act (regWrite r R.KILN_CTL noLock fun s => s.kilnWrite v) s

/-! ### The trouble log (R479) -/

/-- A write of LOG_CTL. -/
def State.logWrite (s : State) (v : Word) : State :=
  (s.when (wbit v 0) fun s => (s.setW R.LOG_COUNT 0).setW R.LOG_OVWR 0).fin .ok

/-- LOG_CLEAR. -/
def execLogClear (r : Req) (v : Word) (s : State) : Host.Outcome State Fault Refusal :=
  act (regWrite r R.LOG_CTL noLock fun s => s.logWrite v) s

end Sys2Proof.Machine
end

