-- ==== Sys2Proof/Machine/Jtag.lean ====
section
/-!
DEFINITION. The test access port (R476, R498): its instructions, boundary scan, and internal scan.
-/

namespace Sys2Proof.Machine

/-- What the data register that the instruction selects captures: its length in bits and its value (R498). What the internal scan chains hold, in which
order, the spec does not give. -/
def State.tapCapture (s : State) : Nat × Nat :=
  if s.tap = 0x02 then (32, 0x1038498F)
  else if s.tap = 0x00 ∨ s.tap = 0x01 ∨ s.tap = 0x05 ∨ s.tap = 0x06 then (1472, s.bsrIn.toNat)
  else if s.tap = 0x20 then (Config.scanLen, (Config.freeValue Config.scanLen s.free).toNat)
  else (1, 0)

/-- A boundary-scan instruction: the cells capture the balls, and hold what was shifted in. -/
def State.bscan (s : State) (code : Nat) (seen set_ : BitVec 1472) : State :=
  let s1 := s.tapTo code
  if s1.tap = code then { s1 with bsrIn := seen, bsrOut := set_ } else s1

/-- EXTEST: the cells drive and sample the balls. -/
def execExtest (seen set_ : BitVec 1472) (s : State) : Host.Outcome State Fault Refusal := .next (s.bscan 0x00 seen set_)

/-- SAMPLE/PRELOAD: the cells sample the balls, which are not disturbed. -/
def execSamplePreload (seen set_ : BitVec 1472) (s : State) : Host.Outcome State Fault Refusal := .next (s.bscan 0x01 seen set_)

/-- IDCODE selects the identification register. -/
def execIdcode (s : State) : Host.Outcome State Fault Refusal := .next (s.tapTo 0x02)

/-- CLAMP: the boundary values stay at the balls. -/
def execClamp (s : State) : Host.Outcome State Fault Refusal := .next (s.tapTo 0x03)

/-- HIGHZ: every output is in high impedance. -/
def execHighz (s : State) : Host.Outcome State Fault Refusal := .next (s.tapTo 0x04)

/-- EXTEST_PULSE: the pulse test of the lane balls. -/
def execExtestPulse (seen set_ : BitVec 1472) (s : State) : Host.Outcome State Fault Refusal := .next (s.bscan 0x05 seen set_)

/-- EXTEST_TRAIN: the pulse-train test of the lane balls. -/
def execExtestTrain (seen set_ : BitVec 1472) (s : State) : Host.Outcome State Fault Refusal := .next (s.bscan 0x06 seen set_)

/-- BYPASS, which every unlisted code is too. -/
def execBypass (s : State) : Host.Outcome State Fault Refusal := .next (s.tapTo 0xFF)

/-- DBG_RESET raises a DEBUG reset (R437, R498); the port keeps its instruction. -/
def execDbgReset (n : BitVec 7) (s : State) : Host.Outcome State Fault Refusal :=
  .next (if !s.aon || s.rstLow then s else ({ s with tap := 0x10 } : State).debugReset n.toNat)

/-- INTSCAN (R476): refused while the partition is sealed; else the secrets in SRAM are overwritten with zeros and the chains connected, and every clock but
TCK stops. -/
def execIntscan (s : State) : Host.Outcome State Fault Refusal :=
  act (fun s =>
    if s.b F.CS_STAT_SEALED then ({ s with tap := 0xFF } : State).raiseBit R.KILN_EVT 6 0x0A07 0 0
    else { (s.setF F.SCAN_STAT_ZEROISED 1).raiseBit R.KILN_EVT 7 0x0A08 0 0 with
      tap := 0x20, scan := true, secret := List.replicate s.secret.length 0 }) s

end Sys2Proof.Machine
end

