-- ==== Sys2Proof/Machine/Hkc.lean ====
section
/-!
DEFINITION. The housekeeping converter (R425 to R430): the guard scan and the sequencer.
-/

namespace Sys2Proof.Machine

/-- SYS runs: not in DORMANT, and in a release not before its PLL has locked (R426, R453). -/
def State.sysRuns (s : State) : Bool := s.mode != 0 && (s.mode != 1 || s.rel == 0 || decide (4 ≤ s.rel))

/-- The guard scan and the sequencer run (R426). -/
def State.hkRuns (s : State) : Bool := s.sysRuns && !s.underTest R.HK_CTL

/-- An HKC event. -/
def State.hkEvent (s : State) (i code src detail : Nat) : State := s.raiseBit R.HK_EVT i code src detail

/-! ### The guard scan (R427) -/

/-- A bit of a set of flags put to a value. -/
def setFlag (x i : Nat) (v : Bool) : Nat := putBits x i i (b2n v)

/-- The trip level in °C. -/
def tripLevel : Nat := if Config.gradeX then 135 else 120

/-- A code stands for a temperature above a level in °C (R425). -/
def tempAbove (code level : Nat) : Bool := decide (16 * (level + 64) < code)

/-- The nominal voltage of a supply input in mV (R425). -/
def supplyNominal (k : Nat) : Nat :=
  if k < 16 then 750 else if k < 20 then 1800 else if k < 22 then 900 else if k < 24 then 1200
  else if k = 24 then 1100 else if k < 27 then 1800 else 800

/-- A supply's code lies more than 6% from its nominal value. -/
def supplyOff (k code : Nat) : Bool :=
  let v : Int := code * 200000
  let n : Int := supplyNominal k * 409600
  decide (6 * supplyNominal k * 4096 < iabs (v - n))

/-- A temperature of the guard scan. The warning re-arms at 5 °C below TWARN. -/
def State.guardTemp (s : State) (k code : Nat) : State :=
  let x := s.hk
  let tw := s.f F.HK_GUARD_TWARN
  let hot := tempAbove code tripLevel
  let warm := tempAbove code tw
  let again := hot && bit x.hot k
  let cool := decide (code ≤ 16 * (tw - 5 + 64))
  let warn := warm && bit x.warm k && !bit x.warned k
  let enters := s.mode == 1 || s.mode == 2 || s.mode == 3 || s.mode == 4
  let x1 :=
    { x with
      hot := setFlag x.hot k hot, warm := setFlag x.warm k warm
      warned := setFlag x.warned k ((bit x.warned k && !cool) || warn)
      tripped := setFlag x.tripped k (again || (hot && bit x.tripped k)) }
  let s1 : State := ({ s with hk := x1 } : State).setF ⟨R.HK_GRD_FLAG, k, k⟩ (b2n (warm && bit x.warm k))
  let s2 := s1.when warn fun s => s.hkEvent 1 0x0D02 k (k * 2 ^ 32 + code)
  s2.when (again && (enters || !bit x.tripped k)) fun s => (s.hkEvent 2 0x0D03 k (k * 2 ^ 32 + code)).enterSafe 0x0D03

/-- A supply of the guard scan. -/
def State.guardSupply (s : State) (k code : Nat) : State :=
  let off := supplyOff k code
  let flag := off && bit s.hk.sup k
  let was := bit (s.w R.HK_GRD_FLAG).toNat k
  let s1 : State := ({ s with hk := { s.hk with sup := setFlag s.hk.sup k off } } : State).setF ⟨R.HK_GRD_FLAG, k, k⟩ (b2n flag)
  s1.when (flag && !was) fun s => s.hkEvent 3 0x0D04 k (k * 2 ^ 32 + code)

/-- GUARD_CONVERSION: the guard scan converts input `k`, where that is the next in turn. -/
def execGuardConversion (k : Fin 28) (code : BitVec 12) (s : State) : Host.Outcome State Fault Refusal :=
  act (fun s =>
    if !s.hkRuns || k.val != s.hk.next then s
    else
      let s1 : State := { s with hk := { s.hk with next := (k.val + 1) % 28 } }.setW (R.HK_GRD k.val) (BitVec.ofNat 32 (16 * code.toNat))
      if k.val < 12 then s1.guardTemp k.val code.toNat else s1.guardSupply k.val code.toNat) s

/-! ### The sequencer (R428 to R430) -/

/-- A run begins at entry 0. -/
def State.hkStart (s : State) : State :=
  { (s.setF F.HK_STAT_RUN 1).setF F.HK_STAT_ENTRY 0 with hk := { s.hk with done := false } }

/-- A trigger: it starts a run, is latched, or is discarded. -/
def State.hkTrigger (s : State) : State :=
  if !s.b F.HK_STAT_RUN then s.hkStart
  else if !s.b F.HK_STAT_PEND then s.setF F.HK_STAT_PEND 1
  else
    let s1 := s.bumpW R.HK_TRIG_CNT 1
    if bit (s.f F.HK_EVT_EVT) 4 then s1 else s1.hkEvent 4 0x0D05 0 0

/-- A write of HK_TRIG (R429). -/
def State.hkTrigWrite (s : State) (v : Word) : State :=
  (s.when (wbit v 0 && s.b F.HK_CTL_EN && s.f F.HK_CTL_TMODE != 2) State.hkTrigger).fin .ok

/-- HK_GO. -/
def execHkGo (r : Req) (v : Word) (s : State) : Host.Outcome State Fault Refusal :=
  act (regWrite r R.HK_TRIG noLock fun s => s.hkTrigWrite v) s

/-- HK_PERIOD_TICK (R429): the timer's period ends. -/
def execHkPeriodTick (s : State) : Host.Outcome State Fault Refusal :=
  act (fun s => if s.hkRuns && s.b F.HK_CTL_EN && s.f F.HK_CTL_TMODE == 1 then s.hkTrigger else s) s

/-- The result of entry `n`. -/
def State.hkResult (s : State) (n value : Nat) : State :=
  let s1 := s.when (s.b (F.HK_RES_NEW n)) fun s => s.setF (F.HK_RES_OVR n) 1
  let s2 := (s1.setF (F.HK_RES_VALUE n) value).setF (F.HK_RES_NEW n) 1
  let out := decide (value < 16 * s.f (F.HK_LIM_LO n)) || decide (16 * s.f (F.HK_LIM_HI n) < value)
  s2.when (s.b (F.HK_SEQ_LIM_EN n) && out) fun s => (s.setBit R.HK_LIM_STAT n).hkEvent 0 0x0D01 n (n * 2 ^ 32 + value)

/-- HK_SEQ_ENTRY (R428): the conversions of the entry in progress add up to `sum`. A sequencer that ends gives no further result (R430). -/
def execHkSeqEntry (sum : BitVec 19) (s : State) : Host.Outcome State Fault Refusal :=
  act (fun s =>
    if s.hkRuns && s.b F.HK_CTL_EN && s.b F.HK_STAT_RUN && !s.hk.done && !s.hk.ending then
      let n := s.f F.HK_STAT_ENTRY
      let value := (divEven (16 * sum.toNat) (2 ^ s.f (F.HK_SEQ_AVG n))).toNat
      let s1 := s.hkResult n (min value 65535)
      if n < s.f F.HK_CTL_LEN then s1.setF F.HK_STAT_ENTRY (n + 1) else { s1 with hk := { s1.hk with done := true } }
    else s) s

/-- HK_RUN_END (R429, R430): the run ends, its last entry converted or, after a write of EN = 0, the conversion in progress; with EN set, a pending one
starts, and in CONTINUOUS the next. -/
def execHkRunEnd (s : State) : Host.Outcome State Fault Refusal :=
  act (fun s =>
    if s.b F.HK_STAT_RUN && (s.hk.done || s.hk.ending) then
      let s1 : State := { s.setF F.HK_STAT_RUN 0 with hk := { s.hk with done := false, ending := false } }
      if !s1.b F.HK_CTL_EN then s1.setF F.HK_STAT_ENTRY 0
      else if s1.b F.HK_STAT_PEND then (s1.setF F.HK_STAT_PEND 0).hkStart
      else if s1.f F.HK_CTL_TMODE = 2 then s1.hkStart else s1
    else s) s

/-- A write of HK_CTL (R430, R435): with EN = 0 the sequencer ends after the conversion in progress; in CONTINUOUS the first run begins as EN is set, or as
that conversion ends. -/
def State.hkCtlWrite (s : State) (v : Word) : State :=
  let en := wbit v 0
  let was := s.b F.HK_CTL_EN
  if bits v.toNat 31 16 = 0 ∨ bits v.toNat 5 4 = 3 then s.fin .unsupported
  else if was ∧ (v &&& 0xFFFF1F30) ≠ (s.w R.HK_CTL &&& 0xFFFF1F30) then s.fin .busy
  else
    let s1 := s.setW R.HK_CTL (v &&& 0xFFFF1F31)
    let run := s.b F.HK_STAT_RUN
    let s2 := if en then s1.when (!was && !run && bits v.toNat 5 4 == 2) State.hkStart
      else { s1.setF F.HK_STAT_PEND 0 with hk := { s1.hk with ending := run } }
    s2.fin .ok

/-- HK_CTL_WRITE. -/
def execHkCtlWrite (r : Req) (v : Word) (s : State) : Host.Outcome State Fault Refusal :=
  act (regWrite r R.HK_CTL noLock fun s => s.hkCtlWrite v) s

end Sys2Proof.Machine
end

