-- ==== Sys2Proof/Machine/Faults.lean ====
section
/-!
DEFINITION. Uncorrectable errors of a block's storage or of a crossing, which send the hub to SAFE (R11, R74, R142, R172, R203, R218, R281, R302, R411), and the
scrub of triple-redundant and ECC storage with its counters (R74, R142, R172, R203, R218, R281, R302, R336, R411, R433, R480).
-/

namespace Sys2Proof.Machine

/-! ### Uncorrectable errors -/

/-- Tile storage (R74). -/
def State.tileUncorr (s : State) (t : Nat) : State := (s.raiseBit (R.TILE_EVT t) 8 0x030B t 0).faultSafe 0x030B

/-- Filter engine storage, in the share of a path, which the detail names as it does for the engine's other events (R142, R143). -/
def State.feUncorr (s : State) (t p : Nat) : State := (s.raiseBit (R.FE_EVT t) 2 0x0403 t (p * 256)).faultSafe 0x0403

/-- Trigger storage (R172). -/
def State.trigUncorr (s : State) : State := (s.raiseBit R.TRIG_EVT 1 0x0502 0 0).faultSafe 0x0502

/-- The gap reserve, the assembly memories and the ring pointers (R281). -/
def State.rsvUncorr (s : State) : State := (s.raiseBit R.YARD_EVT 8 0x0609 0 0).faultSafe 0x0609

/-- The press (R302). -/
def State.pressUncorr (s : State) : State := (s.raiseBit R.PRESS_EVT 2 0x0703 0 0).faultSafe 0x0703

/-- A batch of the cornerstone ends before it has written a row, and what waited for it completes with BUSY (R411; DESIGN CHOICE,
notes/assumptions/105.md). -/
def State.csAbandon (s : State) : State :=
  match s.nv with
  | some b =>
    if b.writer < 5 then s
    else
      let s1 := { s.setF F.NV_STAT_BUSY 0 with nv := none, csPend := none }
      let cmd := match s.csPend with
        | some (.image _ _ _) => false
        | _ => b.writer != 6
      let s2 := s1.when cmd fun s => s.csEnd .busy
      match s2.owed with
      | some w => (s2.fin .busy).endAccess w
      | none => s2
  | none => s

/-- The cornerstone (R411): it stops metering and leaves its MRAM as it is, so that no interval in progress is recorded or saved and no batch of its goes on.
While RST_N is held low the entry to SAFE waits for the release (DESIGN CHOICE, notes/assumptions/105.md). -/
def State.csUncorr (s : State) : State :=
  let s1 : State := ({ s.csEvent 7 0x0B08 0 0 with csStop := true, enDue := none } : State).csAbandon
  let s2 := s1.each s1.metering fun s j => s.setMeter j { s.meter j with start := none }
  if s2.rstLow then { s2 with safeNext := some 0x0B08 } else s2.faultSafe 0x0B08

/-- TILE_UNCORR. -/
def execTileUncorr (t : Fin 24) (s : State) : Host.Outcome State Fault Refusal := act (fun s => s.tileUncorr t.val) s

/-- FE_UNCORR. -/
def execFeUncorr (x : FePath) (s : State) : Host.Outcome State Fault Refusal := act (fun s => s.feUncorr x.t.val x.p.val) s

/-- TRIG_UNCORR. -/
def execTrigUncorr (s : State) : Host.Outcome State Fault Refusal := act State.trigUncorr s

/-- RSV_UNCORR. -/
def execRsvUncorr (s : State) : Host.Outcome State Fault Refusal := act State.rsvUncorr s

/-- PRESS_UNCORR. -/
def execPressUncorr (s : State) : Host.Outcome State Fault Refusal := act State.pressUncorr s

/-- CS_UNCORR: the cornerstone's own check finds it, also while RST_N is held low. -/
def execCsUncorr (s : State) : Host.Outcome State Fault Refusal := csAct (fun s => if s.csOn then s.csUncorr else s) s

/-- CROSSING_UNCORR (R11): the receiving block's fault event, and SAFE. A lane and the log have no fault event of their own for a crossing. -/
def execCrossingUncorr (b : Blk) (s : State) : Host.Outcome State Fault Refusal :=
  act (fun s =>
    match b with
    | .tile t => s.tileUncorr t.val
    | .filter t p => s.feUncorr t.val p.val
    | .trig => s.trigUncorr
    | .mason m => (s.raiseBit (R.MC_EVT m.val) 3 0x0C04 m.val 0).faultSafe 0x0C04
    | .streams => (s.raise 0x0C07 0 0).faultSafe 0x0C07
    | .pallet q => (s.raise 0x0C08 q.val 0).faultSafe 0x0C08
    | .yard => s.rsvUncorr
    | .press => s.pressUncorr
    | .cornerstone => if s.csOn then s.csUncorr else s
    | .lane _ => s.faultSafe 0
    | .log => s.faultSafe 0) s

/-! ### Scrub -/

/-- The counter of corrected errors of a block; lanes have none (R336). -/
def fixReg : Blk → Option Nat
  | .tile t => some (R.TILE_CFG_FIX t.val)
  | .filter t _ => some (R.FE_FIX t.val)
  | .trig => some R.TRIG_FIX
  | .mason m => some (R.MC_FIX m.val)
  | .streams => some R.SE_FIX
  | .pallet _ => some R.PQ_FIX
  | .yard => some R.YARD_FIX
  | .press => some R.PRESS_FIX
  | .lane _ => none
  | .cornerstone => some R.CS_FIX
  | .log => some R.LOG_FIX

/-- An entry of the trouble log holds an uncorrectable error (R480). -/
def State.logUncorr (s : State) (k : Nat) : State :=
  { s with bad := insNat (R.LOG_ENT k) s.bad }.raiseBit R.KILN_EVT 8 0x0A09 0 k

/-- SCRUB: a pass over a block's storage corrects and counts `fixed` errors; in the log it may find an entry, `uncorr`, that it cannot correct. In
DORMANT only the log, in AON, is scrubbed, and while RST_N is held low only the cornerstone is (R410, R411). -/
def execScrub (b : Blk) (fixed : Word) (uncorr : Option (Fin 1024)) (s : State) : Host.Outcome State Fault Refusal :=
  let runs := if b = .cornerstone then s.csRuns && s.csOn else s.alive && (s.mode != 0 || b == .log)
  .next (if !runs then s
    else
      let s1 := match fixReg b with
        | some a => s.bumpW a fixed.toNat
        | none => s
      match b, uncorr with
      | .log, some k => s1.logUncorr k.val
      | _, _ => s1)

end Sys2Proof.Machine
end

