-- ==== Sys2Proof/Machine/Lanes.lean ====
section
/-!
DEFINITION. The lane family (R305 to R337): quad, lane and pattern control, the training of ports, loss detection, grout and the elastic buffer.
-/

namespace Sys2Proof.Machine

/-- QUAD_CTL_WRITE (R309). -/
def execQuadCtlWrite (r : Req) (q : Fin 8) (v : Word) (s : State) : Host.Outcome State Fault Refusal := act (quadCtl r q v) s

/-- PORT_RETRAIN (R330): a write of QUAD_CTL that carries a RETRAIN bit. -/
def execPortRetrain (r : Req) (q : Fin 8) (v : Word) (s : State) : Host.Outcome State Fault Refusal := act (quadCtl r q v) s

/-- DETECT_DONE (R327): LOS and LOL have been clear for 10 µs. -/
def execDetectDone (n : Fin 32) (s : State) : Host.Outcome State Fault Refusal :=
  act (fun s =>
    let clear := !s.b (F.LANE_STAT_LOS n.val) && !s.b (F.LANE_STAT_LOL n.val)
    if s.lst n.val == 0 && (s.lanePort n.val).isSome && clear && s.b (F.QUAD_STAT_PLL_LOCK (n.val / 4)) then s.toLst n.val 1 else s) s

/-- One training set in ALIGN: eight in a row with the comma at one position and fillers of one kind fix the alignment and RX_INV (R322, R327). -/
def State.tsAlign (s : State) (n : Nat) (ts : TrainSet) : State :=
  let x := s.lane n
  match tsPolarity ts.groups with
  | none => s.setLane n { x with n := 0 }
  | some inv =>
    let k := if x.inv = inv ∧ x.pos = ts.pos.val then x.n + 1 else 1
    if k = 8 then (s.toLst n 2).setF (F.LANE_STAT_RX_INV n) (b2n inv) else s.setLane n { x with n := k, inv := inv, pos := ts.pos.val }

/-- A training set as a lane reads it once its alignment and its polarity are fixed; none where its comma, its form or its CRC is wrong (R321, R322). -/
def State.readSet (s : State) (n : Nat) (ts : TrainSet) : Option TsRead :=
  if ts.pos.val = (s.lane n).pos then readTs (s.b (F.LANE_STAT_RX_INV n)) ts.groups else none

/-- What a valid set read in ORDER tells of the partner, and when its lane marker came (R321, R323, R324). -/
def State.tsLearn (s : State) (n : Nat) (late : Nat) (x : TsRead) : State :=
  s.setLane n { s.lane n with idx := some x.idx, width := x.width, narrow := x.nok, sel := x.sel, late := late }

/-- One training set in POLARITY: four in a row with a valid CRC (R327). -/
def State.tsPolar (s : State) (n late : Nat) : Option TsRead → State
  | none => s.setLane n { s.lane n with n := 0 }
  | some x => if (s.lane n).n + 1 = 4 then (s.toLst n 3).tsLearn n late x else s.setLane n { s.lane n with n := (s.lane n).n + 1 }

/-- One valid training set in RATE (R326). -/
def State.tsRate (s : State) (p n : Nat) (ts : TsRead) : State :=
  let x := s.lane n
  let rateOk := ts.rate == s.f (F.QUAD_CTL_RATE (n / 4))
  let good := rateOk && ts.role + s.role p == 3
  let y := { x with
    n := if good then x.n + 1 else 0,
    badRate := if rateOk then 0 else x.badRate + 1,
    badRole := if ts.role = s.role p then x.badRole + 1 else 0 }
  if y.n = 4 then s.toEq p
  else if y.badRate = 4 then s.failPort p 6
  else if y.badRole = 4 then s.failPort p 7
  else s.setLane n y

/-- One valid training set in EQ (R327). -/
def State.tsEq (s : State) (p n : Nat) (ts : TsRead) : State :=
  let x := s.lane n
  (s.setLane n { x with done := x.done || s.b (F.LANE_EQ_HOLD n), doneCnt := if ts.done then x.doneCnt + 1 else 0 }).tryUp p

/-- One valid training set of a lane of a port, by the lane's state (R321 to R327, R329). -/
def State.tsValid (s : State) (p n late : Nat) (x : TsRead) : State :=
  match s.lst n with
  | 3 => s.tsLearn n late x
  | 4 => s.tsRate p n x
  | 5 => s.tsEq p n x
  | 6 => if x.state < 6 then s.leaveUp p 4 true else s
  | _ => s

/-- TRAINING_SET (R320 to R327, R329): ALIGN and POLARITY count sets, ORDER reads the partner, RATE and EQ take only valid ones, and in UP a set
with STATE below UP takes the port down. Its symbols bear data. -/
def execTrainingSet (n : Fin 32) (ts : TrainSet) (s : State) : Host.Outcome State Fault Refusal :=
  act (fun s0 =>
    match s0.lanePort n.val with
    | none => s0
    | some p =>
      let s := s0.thawLane n.val tsFill
      match s.lst n.val with
      | 1 => s.tsAlign n.val ts
      | 2 => s.tsPolar n.val ts.late (s.readSet n.val ts)
      | _ => match s.readSet n.val ts with
        | some x => s.tsValid p n.val ts.late x
        | none => s) s

/-- ORDER_DECIDE (R323 to R325): `first` µs since the first lane's entry to ORDER, and `own` µs in ORDER. -/
def execOrderDecide (p : Fin 16) (first own : Nat) (s : State) : Host.Outcome State Fault Refusal :=
  act (fun s => s.orderDecide p.val (s.orderUp p.val first own)) s

/-- TRAIN_TIMEOUT (R325, R327): the time limit of the lane's present state passes. -/
def execTrainTimeout (n : Fin 32) (s : State) : Host.Outcome State Fault Refusal :=
  act (fun s =>
    match s.lanePort n.val with
    | none => s
    | some p =>
      match s.lst n.val with
      | 1 => s.failPort p 1
      | 2 => s.failPort p 2
      | 3 => s.orderDecide p true
      | 4 => s.failPort p (if 0 < (s.lane n.val).badRole then 7 else 6)
      | 5 => s.failPort p 8
      | _ => s) s

/-- BACKOFF_EXPIRE (R312, R315, R328): the lanes leave electrical idle and send training sets again. -/
def execBackoffExpire (p : Fin 16) (s : State) : Host.Outcome State Fault Refusal :=
  act (fun s => s.each (s.portLanes p.val) fun s n =>
    if (s.lane n).quiet then s.setLane n { s.lane n with quiet := false, grout := 0, slot := 0, txNeg := true, part := [], tx := [] } else s) s

/-- The receive equaliser of a lane settles at new values, unless its adaptation is held or frozen (R320). -/
def State.adapt (s : State) (n : Nat) (ctle : BitVec 4) (dfe : BitVec 30) : State :=
  if s.b (F.LANE_EQ_HOLD n) || s.b (F.LANE_EQ_FROZEN n) then s
  else (s.setF (F.LANE_EQ_CTLE n) ctle.toNat).setW (R.LANE_DFE n) (BitVec.ofNat 32 dfe.toNat)

/-- EQ_CONVERGED (R320, R327): the equaliser has settled at the settings given. In EQ the lane then sends DONE, and so does one whose adaptation is held;
one that is frozen has not converged. In UP the adaptation goes on. -/
def execEqConverged (n : Fin 32) (ctle : BitVec 4) (dfe : BitVec 30) (s : State) : Host.Outcome State Fault Refusal :=
  act (fun s =>
    match s.lanePort n.val with
    | none => s
    | some p =>
      let s1 := s.adapt n.val ctle dfe
      if s.lst n.val = 6 then s1
      else if s.lst n.val = 5 ∧ (s.b (F.LANE_EQ_HOLD n.val) ∨ !s.b (F.LANE_EQ_FROZEN n.val)) then
        (s1.setLane n.val { s1.lane n.val with done := true }).tryUp p
      else s) s

/-- LANE_DOWN (R329): a port leaves UP for one of the causes of R329 that has no row of its own. -/
def execLaneDown (p : Fin 16) (cause : Fin 5) (s : State) : Host.Outcome State Fault Refusal :=
  act (fun s => s.leaveUp p.val (cause.val + 1) true) s

/-- LOS after the differential amplitude `mv` has stood at the receiver for 100 ns (R331): the threshold itself changes nothing. -/
def State.losNow (s : State) (n mv : Nat) : Bool :=
  let th := 40 + 10 * s.f (F.LANE_CTL_LOS_THR n)
  if mv < th then true else if th < mv then false else s.b (F.LANE_STAT_LOS n)

/-- LOS_CHANGE (R327, R329, R331): the amplitude at a lane's receiver, or the lock of its clock recovery, changes; a loss fails a training port and takes
down one that is UP. -/
def execLosChange (n : Fin 32) (mv : Nat) (lol : Bool) (s : State) : Host.Outcome State Fault Refusal :=
  act (fun s =>
    let los := s.losNow n.val mv
    let s1 := (s.setF (F.LANE_STAT_LOS n.val) (b2n los)).setF (F.LANE_STAT_LOL n.val) (b2n lol)
    match s1.lanePort n.val with
    | none => s1
    | some p =>
      if !(los || lol) then s1
      else if s1.lst n.val = 6 then s1.leaveUp p 1 true
      else if 1 ≤ s1.lst n.val ∧ s1.lst n.val ≤ 5 then s1.failPort p 9
      else s1) s

/-- QPLL_LOSS (R307): every port of the quad returns to DETECT; `refclk` says whether the reference is still present. -/
def execQpllLoss (q : Fin 8) (refclk : Bool) (s : State) : Host.Outcome State Fault Refusal :=
  act (fun s =>
    if !s.lanesOn then s
    else
      let s1 := (s.setF (F.QUAD_STAT_PLL_LOCK q.val) 0).setF (F.QUAD_STAT_REFCLK_OK q.val) (b2n refclk)
      let s2 := s1.each [2 * q.val, 2 * q.val + 1] fun s p =>
        if s.portUp p then s.leaveUp p 5 true else if s.pstate p = 1 then s.toDetect p false else s
      s2.raiseBit (R.QUAD_EVT q.val) 4 0x0806 q.val 0) s

/-- A quad is powered: a port of it is not OFF (R458). -/
def State.quadOn (s : State) (q : Nat) : Bool := s.role (2 * q) != 0 || s.role (2 * q + 1) != 0

/-- QUAD_PLL_LOCK (R307, R458): the PLL of a powered quad is locked, and with it its reference is present; lanes may leave DETECT again. -/
def execQuadPllLock (q : Fin 8) (s : State) : Host.Outcome State Fault Refusal :=
  act (fun s => if s.lanesOn && s.quadOn q.val then (s.setF (F.QUAD_STAT_PLL_LOCK q.val) 1).setF (F.QUAD_STAT_REFCLK_OK q.val) 1 else s) s

/-- A lane in a far-end loopback: its receiver's symbols go back out, while the lanes run (R310, R332). -/
def State.farEnd (s : State) (n : Nat) : Bool := s.lanesOn && s.f (F.LANE_CTL_LB n) == 3

/-- The symbols of the elastic buffer sent back by the lane's own coder. What it sends for an error marker the spec leaves open: a free group (R312, R332;
notes/assumptions/124.md). -/
def State.echo (s : State) (n : Nat) : List Sym → State
  | [] => s
  | .bad _ :: r =>
    let (s1, g) := s.draw 10
    let x := s1.lane n
    (s1.setLane n { x with tx := x.tx ++ [BitVec.ofNat 10 g], txNeg := negNext x.txNeg g }).echo n r
  | y :: r => (s.setLane n ((s.lane n).emit [y])).echo n r

/-- A far-end loopback sends received symbols back, as the elastic buffer passes them (R317, R332). -/
def State.sendBack (s : State) (n : Nat) (ys : List Sym) : State :=
  s.when (s.farEnd n) fun s => (s.setLane n { s.lane n with tx := [] }).echo n (slipLoss (s.lane n).slipped ys)

/-- CODE_ERROR (R314, R320, R332): among the groups given those that are code errors are counted in UP and in a loopback, and not during training; outside a
hod the link layer has no use for its marker. In a near-end loopback nothing from outside reaches the receive path. -/
def execCodeError (n : Fin 32) (l : LineIn) (s : State) : Host.Outcome State Fault Refusal :=
  act (fun s =>
    let ys := readLine (s.b (F.LANE_STAT_RX_INV n)) l.neg l.groups
    if s.nearEnd n.val then s else ((s.countBad n.val ys).thawLane n.val ys).sendBack n.val ys) s

/-- GROUT_SEND (R311, R315): the transmitters of a port that are not in electrical idle send on up to their next grout set, and that, all of them in the
same word slot. -/
def execGroutSend (n : Fin 32) (s : State) : Host.Outcome State Fault Refusal :=
  act (fun s =>
    match s.lanePort n.val with
    | none => s
    | some p => s.when ((s.sending p).contains n.val) fun s => s.each (s.sending p) (State.sendGrout p)) s

/-- The elastic buffer at a grout set: restart after a slip, one K28.0 more or less, or nothing (R316, R317). -/
def State.ebAdjust (s : State) (n fill : Nat) : State :=
  if (s.lane n).slipped then (s.setLane n { s.lane n with slipped := false }).setF (F.LANE_EB_FILL n) 16
  else if 19 ≤ fill then (s.setF (F.LANE_EB_FILL n) (fill - 1)).bump (F.LANE_EB_ADJ n) 1
  else if fill ≤ 13 then (s.setF (F.LANE_EB_FILL n) (fill + 1)).bump (F.LANE_EB_ADJ n) 1
  else s.setF (F.LANE_EB_FILL n) fill

/-- The K28.0 symbols that leave the elastic buffer with a grout set (R316). -/
def groutFills (slipped : Bool) (fill : Nat) : Nat := if slipped then 3 else if 19 ≤ fill then 2 else if fill ≤ 13 then 4 else 3

/-- A far-end loopback sends a grout set back as the elastic buffer has adjusted it (R316, R332). -/
def State.groutBack (s : State) (n k : Nat) : State :=
  s.when (s.farEnd n) fun s =>
    s.setLane n ({ s.lane n with tx := [] }.emit (.comma :: List.replicate k .fill))

/-- GROUT_RECEIVE (R316 to R318, R320, R324): a set whose K28.5 came `g.dist` symbols after the one before, counted at the deserialiser, and `g.late` symbols
after the port's earliest lane's; `data` says whether a data-bearing symbol came between, and `fill` is the buffer's fill before it. In UP each set is
held to the one before it, which the first one finds among those of training. -/
def execGroutReceive (n : Fin 32) (g : GroutAt) (data : Bool) (fill : Fin 33) (s : State) : Host.Outcome State Fault Refusal :=
  act (fun s =>
    if (s.lst n.val == 7 && s.f (F.LANE_CTL_LB n.val) == 0) || s.nearEnd n.val then s
    else
      let x := s.lane n.val
      let s0 := (s.ebAdjust n.val fill.val).when data fun s => s.thawLane n.val [.d 0]
      let s1 := s0.groutBack n.val (groutFills x.slipped fill.val)
      match s1.lanePort n.val with
      | none => s1
      | some p =>
        if s1.lst n.val ≠ 6 then s1
        else
          let m := if 1022 ≤ g.dist ∧ g.dist ≤ 1026 then 0 else x.miss + 1
          let s2 := s1.setLane n.val { s1.lane n.val with miss := m, late := g.late }
          if m = 4 then s2.leaveUp p 2 true else if !s2.skewOk (s2.lanesIn p 6) then s2.leaveUp p 3 true else s2) s

/-- EB_SLIP (R317): the buffer's contents are discarded. -/
def execEbSlip (n : Fin 32) (s : State) : Host.Outcome State Fault Refusal :=
  act (fun s =>
    if s.lst n.val == 7 && s.f (F.LANE_CTL_LB n.val) == 0 then s
    else
      let s1 := ((s.setLane n.val { s.lane n.val with slipped := true }).setF (F.LANE_EB_FILL n.val) 0).bump (F.LANE_EB_SLIP n.val) 1
      if s.b (F.LANE_EVT_EB_SLIP n.val) then s1 else s1.raiseBit (R.LANE_EVT n.val) 2 0x0803 n.val 0) s

/-- EQ_FREEZE (R320): so many symbols in a row, 4,096 at least, have been plain idle or grout, in EQ or UP. -/
def execEqFreeze (x : PlainRun) (s : State) : Host.Outcome State Fault Refusal :=
  act (fun s => if (s.lst x.lane.val = 5 ∨ s.lst x.lane.val = 6) ∧ 4096 ≤ x.syms then s.setF (F.LANE_EQ_FROZEN x.lane.val) 1 else s) s

/-- LANE_CTL_WRITE (R332, R338). -/
def execLaneCtlWrite (r : Req) (n : Fin 32) (v : Word) (s : State) : Host.Outcome State Fault Refusal :=
  act (regWrite r (R.LANE_CTL n.val) noLock fun s =>
    if 12 < bits v.toNat 15 12 ∨ 12 < bits v.toNat 11 8 then s.fin .unsupported
    else if bits v.toNat 5 4 ≠ 0 ∧ s.laneBusy n.val then s.fin .busy
    else
      let s1 := s.when (bits v.toNat 5 4 != s.f (F.LANE_CTL_LB n.val)) fun s => s.setLane n.val { s.lane n.val with tx := [], txNeg := true, rxNeg := true }
      (s1.setW (R.LANE_CTL n.val) (v &&& 0x000FFF31)).fin .ok) s

/-- PRBS_CTL_WRITE (R333, R334). -/
def execPrbsCtlWrite (r : Req) (q : Fin 8) (v : Word) (s : State) : Host.Outcome State Fault Refusal := act (prbsCtl r q v) s

/-- INJ1 (R335): a write of PRBS_CTL with INJ1 = 1. -/
def execInj1 (r : Req) (q : Fin 8) (v : Word) (s : State) : Host.Outcome State Fault Refusal := act (prbsCtl r q (v ||| 0x100)) s

/-- INJB (R335): a write of PRBS_CTL with INJB = 1. -/
def execInjb (r : Req) (q : Fin 8) (v : Word) (s : State) : Host.Outcome State Fault Refusal := act (prbsCtl r q (v ||| 0x200)) s

/-- Bits that arrive at lane 0 of a quad for its checker; in a near-end loopback nothing from outside reaches it (R332, R334). -/
def State.lineBits (s : State) (q : Nat) (bs : List Bool) : State := if s.nearEnd (4 * q) then s else s.checkBits q bs

/-- PRBS_LOCK (R334): received bits up to the lock. -/
def execPrbsLock (x : QuadBits) (s : State) : Host.Outcome State Fault Refusal := act (fun s => s.lineBits x.quad.val x.bits) s

/-- PRBS_LOCK_LOST (R334): received bits from the lock on, the last 256 of them by themselves. -/
def execPrbsLockLost (q : Fin 8) (before last : List Bool) (s : State) : Host.Outcome State Fault Refusal :=
  act (fun s => s.lineBits q.val (before ++ last)) s

end Sys2Proof.Machine
end

