-- ==== Sys2Proof/Machine/Streams.lean ====
section
/-!
DEFINITION. The commands of the stream table (R175 to R183).
-/

namespace Sys2Proof.Machine

/-- STREAM_ADD: a REQ hod on a port with its tag and payload words (R178 to R180, R353, R354): the reserved bits of the three images must be zero. -/
def execStreamAdd (p : Fin 16) (tag : BitVec 7) (ws : List Word) (s : State) : Host.Outcome State Fault Refusal :=
  act (request 1 p.val 0x10 tag.toNat fun s =>
    match ws with
    | [ctl, src, rep] =>
      if !addBitsOk ctl src rep then s.fin .unsupported
      else if !s.live then s.fin .mode
      else match s.addStream ctl src rep with
        | .error c => s.fin c
        | .ok (s1, k) => s1.finData [BitVec.ofNat 32 k]
    | _ => s.fin .length) s

/-- A deleted stream loses its kept TDISC records, and RSV_DROP counts them (R384); the room that they leave ends what a full reserve did (R277). -/
def State.dropTdisc (s : State) (k : Nat) : State :=
  let gone (x : Nat × Rec) : Bool := x.1 == k && x.2.typ == 5
  let n := (s.kept.filter gone).length
  if n = 0 then s
  else
    let ks := s.kept.filter fun x => !gone x
    let s1 := ({ s with kept := ks, lossy := [] }.setW R.RSV_USED (BitVec.ofNat 32 (keptBytes ks))).setF F.YARD_STAT_RSV_FULL 0
    { s1.bumpW R.RSV_DROP n with resumed := s1.resumed.filter fun x => x.1 != k || s1.inReserve k }

/-- STREAM_DEL: a REQ hod on a port with its tag and payload words (R146, R156, R182, R353, R354, R384). -/
def execStreamDel (p : Fin 16) (tag : BitVec 7) (ws : List Word) (s : State) : Host.Outcome State Fault Refusal :=
  act (request 1 p.val 0x11 tag.toNat fun s =>
    match ws with
    | [w] =>
      let k := bits w.toNat 12 0
      if 2 ^ 13 ≤ w.toNat then s.fin .unsupported
      else if !s.b (F.SE_CTL_VALID k) then s.fin .addr
      else if s.b (F.SE_CTL_ACT k) || s.namedElsewhere k then s.fin .busy
      else (((s.dropTdisc k).setF (F.SE_CTL_VALID k) 0).setF (F.SE_STAT_RETIRING k) 1).fin .ok
    | _ => s.fin .length) s

/-- A hod that carries a SID remains in the yard, or is on its way into it (R182). -/
def State.sidInYard (s : State) (k : Nat) : Bool :=
  ((range' 0 16).any fun p => (s.ring p).hods.any fun h => h.sid == k) || (s.handed.any fun h => h.sid == k) || s.inReserve k

/-- SID_FREE: no hod that carries a deleted stream's SID remains (R182). -/
def execSidFree (sid : Fin 8192) (s : State) : Host.Outcome State Fault Refusal :=
  act (fun s => if s.b (F.SE_STAT_RETIRING sid.val) && !s.sidInYard sid.val then s.setF (F.SE_STAT_RETIRING sid.val) 0 else s) s

/-- SE_CONFIG_WRITE: a write of SE_CTL (0), SE_SRC (1) or SE_REP (2) of an entry (R176, R177, R180, R181). -/
def execSeConfigWrite (r : Req) (sid : Fin 8192) (which : Fin 3) (v : Word) (s : State) : Host.Outcome State Fault Refusal :=
  act (regWrite r (R.SE_CTL sid.val + 4 * which.val) noLock fun s => s.seWrite sid.val which.val v) s

/-- STREAM_ACTIVATE: a write of SE_CTL with ACT = 1 (R180). -/
def execStreamActivate (r : Req) (sid : Fin 8192) (v : Word) (s : State) : Host.Outcome State Fault Refusal :=
  act (regWrite r (R.SE_CTL sid.val) noLock fun s => s.seWrite sid.val 0 (v ||| 0x40000000)) s

/-- STREAM_DEACTIVATE: a write of SE_CTL with ACT = 0 (R181). -/
def execStreamDeactivate (r : Req) (sid : Fin 8192) (v : Word) (s : State) : Host.Outcome State Fault Refusal :=
  act (regWrite r (R.SE_CTL sid.val) noLock fun s => s.seWrite sid.val 0 (v &&& 0xBFFFFFFF)) s

end Sys2Proof.Machine
end

