-- ==== Sys2Proof/Machine/TimeXfer.lean ====
section
/-!
DEFINITION. Time transfer: the exchange of TIME hods (R373 to R379), the servo's commands (R381, R387, R390) and the steps of system time (R383 to
R385). Stamps are operands as the ST at which K23.7 crosses the serialiser or the deserialiser, in units of 1/65,536 ns (R371).
-/

namespace Sys2Proof.Machine

/-- A port's time exchange. -/
def State.xch (s : State) (p : Nat) : Xchg := Tab.get (fun _ => Xchg.init) s.xchg p

/-- It replaced. -/
def State.setXch (s : State) (p : Nat) (x : Xchg) : State := { s with xchg := Tab.set (fun _ => Xchg.init) s.xchg p x }

/-- An interval of R374 in units of `st`. -/
def State.intv (s : State) : Nat := 62500 * nsU * 2 ^ s.f F.TT_CTL_LOG_INTV

/-- A TIME hod (R373). -/
def timeHod (hid msg tsid : Nat) (ws : List Word) : Hod :=
  { typ := 4, vc := 1, flags := 0, hid := hid, sub := msg * 1024 + tsid, lseq := 0, payload := ws }

/-- A TIME hod of this hub for a port; its HID is that of the child end of the hop (R373). -/
def State.timeHod (s : State) (p msg tsid : Nat) (ws : List Word) : Hod :=
  Sys2Proof.Machine.timeHod (if s.role p = 2 then s.f (F.PL_PEER_HID p) else s.hid) msg tsid ws

/-- A TIME hod for a port: sent with its K23.7 at the given instant where credit allows, else it waits (R348, R349). -/
def State.putTime (s : State) (p : Nat) (h : Hod) (t : Nat) : State :=
  if s.canTime p then s.sendTime p h t
  else s.setPort p { s.port p with waiting := (s.port p).waiting ++ [⟨1, none, 0, h⟩] }

/-! ### The exchange (R374 to R376) -/

/-- T_REQ_SEND: an interval has passed, and the hub sends a T_REQ on the primary UP port, or on the second parent's where `second`, its K23.7
at the serialiser at `t1` (R374). -/
def execTReqSend (second : Bool) (t1 : Nat) (s : State) : Host.Outcome State Fault Refusal :=
  act (fun s =>
    let p := if second then s.f F.LINK_CFG_SECOND else s.primary
    if s.f F.TIME_CTL_SRC = 2 ∧ (!second || s.b F.LINK_CFG_SECOND_EN) ∧ s.role p = 1 ∧ s.canTime p then
      let x := s.xch p
      (s.setXch p { x with tsid := (x.tsid + 1) % 256, sent := some (x.tsid, s.txStamp p t1) }).sendTime p (s.timeHod p 0 x.tsid [0]) t1
    else s) s

/-- T_REQ: the K23.7 of a child's T_REQ crosses the deserialiser at `t2`; it is answered, with K23.7 at the serialiser at `t3`, or discarded (R375).
Its HID field is ignored (R373). -/
def execTReq (p : Fin 16) (_hid : BitVec 14) (tsid : BitVec 8) (t2 t3 : Nat) (s : State) : Host.Outcome State Fault Refusal :=
  act (fun s =>
    let p := p.val
    let soon := match (s.xch p).answered with
      | some t => decide (s.cyc < t + 50000 * nsU)
      | none => false
    if !s.portUp p then s
    else
      let s1 := (s.thaw p).freeBuf p 1
      if s1.role p = 2 ∧ s1.b F.TT_CTL_SERVE ∧ s1.b F.TIME_STAT_SEEDED ∧ (s1.mode = 1 ∨ s1.live ∨ s1.mode = 5) ∧ !soon then
        let w0 := s1.f F.TT_CNT_STEPS % 256 * 256 + s1.f F.TIME_STAT_QUALITY
        (s1.setXch p { s1.xch p with answered := some s1.cyc }).putTime p
          (s1.timeHod p 1 tsid.toNat (BitVec.ofNat 32 w0 :: (stampWords (s1.rxStamp p t2) ++ stampWords t3))) t3
      else s1) s

/-- The signed difference of two stamps modulo 2^32 s (R376). -/
def stampDiff (a b : Nat) : Int :=
  let m : Int := 2 ^ 32 * (secU : Nat)
  let d := ((a : Int) - b) % m
  if 2 * d < m then d else d - m

/-- θ before the asymmetry is taken off, and RTT, of an exchange (R376). -/
def exchange (t1 t2 t3 t4 : Nat) : Int × Int :=
  (divEven (stampDiff t4 t3 - stampDiff t2 t1) 2, stampDiff t4 t1 - stampDiff t3 t2)

/-- A T_RESP that gives no measurement is counted (R375, R376). -/
def State.badResp (s : State) : State := s.bump F.TT_CNT_BAD 1

/-- A measurement of the primary port (R376, R382, R388). -/
def State.primaryMeas (s : State) (q : Nat) (th rtt : Int) : State :=
  let s1 := (s.setF F.TT_STAT_PARENT_Q q).roundTrip rtt
  s1.1.measure (th - ofPs (s.sw R.TT_ASYM))

/-- A measurement of the second parent (R389). -/
def State.secondMeas (s : State) (q : Nat) (th : Int) : State :=
  let v := s.servo
  let t2 := th - ofPs (s.sw R.TT_ASYM2)
  let ref := if s.f F.TT_STAT_STATE = 2 ∧ q = 0 then (t2 :: v.ref2).take 16 else v.ref2
  let s1 := { s with servo := { v with offs2 := (t2 :: v.offs2).take 16, ref2 := ref, q2 := q, cnt2 := v.cnt2 + 1 } }
  let s2 := (s1.setW R.TT_OFS2 (satW (meanPs s1.servo.offs2))).setF F.TT_STAT_SECOND_OK (b2n (ref.length == 16))
  s2.routeDecide.showQuality

/-- T_RESP: the K23.7 of a parent's answer crosses the deserialiser at `t4` (R375, R376); `t2` and `t3` are what it says. -/
def execTResp (p : Fin 16) (tsid steps : BitVec 8) (q : BitVec 2) (t2 t3 t4 : Nat) (s : State) : Host.Outcome State Fault Refusal :=
  act (fun s =>
    let p := p.val
    let x := s.xch p
    let t4 := s.rxStamp p t4
    if !s.portUp p then s
    else
      let s1 := (s.thaw p).freeBuf p 1
      match s1.role p, x.sent with
      | 1, some (ts, t1) =>
        if ts ≠ tsid.toNat then s1.badResp
        else
          let own := s1.f F.TT_CNT_STEPS
          let s2 := s1.setXch p { x with steps := some (steps.toNat, own) }
          let same := match x.steps with
            | some o => o == (steps.toNat, own)
            | none => true
          if !same || decide (200000 * (nsU : Int) < stampDiff t4 t1) then s2.badResp
          else
            let (th, rtt) := exchange t1 t2 t3 t4
            if s2.f F.TIME_CTL_SRC ≠ 2 then s2
            else if p = s2.primary then (s2.primaryMeas q.toNat th rtt).tryHold
            else if s2.b F.LINK_CFG_SECOND_EN ∧ p = s2.f F.LINK_CFG_SECOND then (s2.secondMeas q.toNat th).tryHold
            else s2
      | _, _ => s1.badResp) s

/-- SRC_LOST: 16 intervals have passed since the last valid measurement of the parent (R381). A port that leaves UP, and a root that loses PPS_OK or
TOD_OK, lose their source where that happens. -/
def execSrcLost (s : State) : Host.Outcome State Fault Refusal :=
  act (fun s =>
    match s.servo.measAt with
    | some a => if s.sysOn ∧ s.f F.TIME_CTL_SRC = 2 then (s.passTo (a + 16 * s.intv)).srcLost else s
    | none => s) s

/-! ### The root's pulse (R99) -/

/-- The step of a PPS_IN stamp, 250 ps, in units of `st` (R99). -/
def ppsStep : Nat := 16384

/-- PPS_IN_EDGE: a PPS_IN edge at ST `t`, falling or rising; its stamp counts whole steps of 250 ps (R99, R377; DESIGN CHOICE, notes/assumptions/119.md).
The first edge is accepted, and so is the first one after the hub became a root (R99; for a hub that never did, DESIGN CHOICE,
notes/assumptions/35.md). -/
def execPpsInEdge (t : Nat) (falling : Bool) (s : State) : Host.Outcome State Fault Refusal :=
  act (fun s =>
    if !s.sysOn || falling != s.b F.PPS_CTL_IN_POL then s
    else
      let u := t / ppsStep * ppsStep
      let s0 := s.reach t
      let c := s0.cycAt u
      let stamp := moveT u (-(s0.sw R.PPS_IN_ADJ) * nsU)
      let s1 := s0.setTime4 R.PPS_IN_STAMP stamp
      let x := s1.pps
      let inside := match x.last with
        | some l => decide (l + secU ≤ c + 100000 * nsU) && decide (c ≤ l + secU + 100000 * nsU)
        | none => true
      if !inside then
        ({ s1 with pps := { x with run := 0 } }.rootOks false (s1.b F.TIME_STAT_TOD_OK)).raiseBit R.TIME_EVT 2 0x0203 0 0
      else
        let todRun := if x.tod.isSome then x.todRun + 1 else 0
        let s2 := { s1 with pps := { x with last := some c, from_ := c, run := x.run + 1, missed := false, tod := none, todRun := todRun } }
        let s3 := s2.rootOks (s2.b F.TIME_STAT_PPS_OK || decide (2 ≤ x.run + 1)) (decide (2 ≤ todRun))
        match x.tod with
        | some sec => s3.when (s3.f F.TIME_CTL_SRC == 1 && s3.b F.TIME_STAT_TOD_OK) fun s => (s.measure ((stamp : Int) - (sec * secU : Nat))).tryHold
        | none => s3) s

/-! ### PROBEs and stamp queues (R378, R379) -/

/-- TT_PROBE (R379); `t` is the instant at the serialiser of a PROBE that leaves at once. -/
def execTtProbe (r : Req) (v : Word) (t : Nat) (s : State) : Host.Outcome State Fault Refusal :=
  act (regWrite r R.TT_PROBE noLock fun s =>
    let p := bits v.toNat 27 24
    let ts := bits v.toNat 7 0
    if ts = 0 then s.fin .unsupported
    else if !s.portUp p then s.fin .busy
    else if !(s.mode == 1 || s.live || s.mode == 5) then s.fin .mode
    else (s.putTime p (s.timeHod p 2 ts [0]) t).fin .ok) s

/-- A read of TSQ_POP: the oldest entry leaves, with its stamp in the reader's shadow (R378). -/
def State.tsqPop (s : State) (r : Req) (p : Nat) : State :=
  match Tab.get (fun _ => []) s.tsq p with
  | [] => (s.setShadows r (R.TSQ_NS p) [0, 0]).finData [0]
  | (ex, ts, t) :: q =>
    let s1 := { s with tsq := Tab.set (fun _ => []) s.tsq p q }
    (s1.setShadows r (R.TSQ_NS p) [BitVec.ofNat 32 (t % secU / nsU), BitVec.ofNat 32 (t / secU)]).finData
      [BitVec.ofNat 32 (2 ^ 31 + b2n ex * 2 ^ 30 + ts * 65536 + t % nsU)]

/-- TSQ_POP (R378). -/
def execTsqPop (r : Req) (p : Fin 16) (s : State) : Host.Outcome State Fault Refusal :=
  act (fun s =>
    match s.mapStop r (R.TSQ_POP p.val) false with
    | some c => s.fin c
    | none => s.tsqPop r p.val) s

/-! ### Steps (R383 to R387) -/

/-- A measured step has a measurement to rest on: one of the last 16 intervals, for a ROOT of its last 16 seconds, and not in FREE (R383). -/
def State.freshTheta (s : State) : Bool :=
  s.f F.TT_STAT_STATE != 7 && match s.servo.measAt with
    | some a => decide (s.cyc ≤ a + 16 * (if s.f F.TIME_CTL_SRC = 1 then secU else s.intv))
    | none => false

/-- A forced slew (R387). -/
def State.forcedSlew (s : State) : State :=
  let s1 := s.servoTo 6
  let m : Int := ppm (s1.f F.TT_CTL_SLEW_MAX)
  s1.setRate s1.servo.f (if 0 < s1.offset4 R.TT_JUMP then -m else m)

/-- A write of TT_STEP (R383, R387). -/
def State.ttStep (s : State) (v : Word) : State :=
  let md := bits v.toNat 9 8
  let given := wbit v 4
  let pend (at_ : Nat) (s : State) : State :=
    let d := if given then some (s.offset4 R.TT_DELTA) else none
    ({ s with servo := { s.servo with pend := some ⟨at_, d⟩ } }.setF F.TT_STAT_STEP_PEND 1).fin .ok
  if wbit v 0 then
    if md ≠ 0 ∨ given then s.fin .unsupported
    else if s.f F.TT_STAT_STATE ≠ 4 then s.fin .busy
    else s.forcedSlew.fin .ok
  else if md = 3 then s.fin .unsupported
  else if !(s.mode == 1 || s.live) then s.fin .mode
  else if md = 2 then ({ s with servo := { s.servo with pend := none } }.setF F.TT_STAT_STEP_PEND 0).fin .ok
  else if s.servo.pend.isSome ∨ (!given && !s.freshTheta) then s.fin .busy
  else if given && s.offset4 R.TT_DELTA == 0 then s.fin .ok
  else if md = 0 then pend (s.st + 20000 * nsU) s
  else pend (ceilDiv (s.st + 100000 * nsU) secU * secU) s

/-- A write of TT_STEP by a requester. -/
def ttStepWrite (r : Req) (v : Word) : State → State := regWrite r R.TT_STEP noLock fun s => s.ttStep v

/-- TT_STEP_IMMEDIATE: a write of TT_STEP with MODE 0 (R383). -/
def execTtStepImmediate (r : Req) (v : Word) (s : State) : Host.Outcome State Fault Refusal := act (ttStepWrite r (v &&& 0xFFFFFCFF)) s

/-- TT_STEP_NEXT_SEC: a write of TT_STEP with MODE 1 (R383). -/
def execTtStepNextSec (r : Req) (v : Word) (s : State) : Host.Outcome State Fault Refusal :=
  act (ttStepWrite r (v &&& 0xFFFFFCFF ||| 0x100)) s

/-- TT_STEP_CANCEL: a write of TT_STEP with MODE 2 (R383). -/
def execTtStepCancel (r : Req) (v : Word) (s : State) : Host.Outcome State Fault Refusal :=
  act (ttStepWrite r (v &&& 0xFFFFFCFF ||| 0x200)) s

/-- FORCED_SLEW: a write of TT_STEP with SLEW = 1 (R387). -/
def execForcedSlew (r : Req) (v : Word) (s : State) : Host.Outcome State Fault Refusal := act (ttStepWrite r (v ||| 1)) s

/-- The meters' intervals end at the step's instant on the old timeline, and the next ones start there (R402). -/
def State.meterStep (s : State) (at_ : Nat) : State :=
  s.each s.metering fun s j =>
    let (s1, v) := s.draw 16
    s1.endInterval j at_ true true v

/-- The starts of the meters' intervals on the new timeline (R402). -/
def State.meterShift (s : State) (d : Int) : State :=
  s.each s.metering fun s j => s.setMeter j { s.meter j with start := (s.meter j).start.map fun t => moveT t d }

/-- TIME_STEP: the step instant arrives (R384, R385). -/
def execTimeStep (s : State) : Host.Outcome State Fault Refusal :=
  act (fun s =>
    match s.sysOn, s.servo.pend with
    | false, _ => s
    | _, none => s
    | true, some x =>
      let s1 := ({ s with servo := { s.servo with pend := none } }.setF F.TT_STAT_STEP_PEND 0).reach x.at_
      let th := if s1.f F.TT_STAT_STATE = 4 then s1.offset4 R.TT_JUMP else s1.servo.theta.getD 0
      let d := x.given.getD (-th)
      if d = 0 then s1 else ((s1.meterStep x.at_).stepTime x.at_ d).meterShift d) s

/-! ### The servo's registers (R380, R381, R390) -/

/-- TIME_SRC_WRITE: a write of TIME_CTL starts the servo again (R99, R381). -/
def execTimeSrcWrite (r : Req) (v : Word) (s : State) : Host.Outcome State Fault Refusal :=
  act (regWrite r R.TIME_CTL noLock fun s =>
    let n := bits v.toNat 1 0
    if n = 3 then s.fin .unsupported
    else
      let s1 := (s.setF F.TIME_CTL_SRC n).when (n == 1 && s.f F.TIME_CTL_SRC != 1) fun s => { s with pps := { s.pps with last := none, from_ := s.cyc, run := 0, missed := false } }
      s1.servoReset.fin .ok) s

/-- TT_ASYM_WRITE: a write of TT_ASYM, or of TT_ASYM2 where `second` (R390). A write of TT_ASYM in ROUTE ends the route change (R381): the offset left
is the latest one under the new value. -/
def execTtAsymWrite (r : Req) (second : Bool) (v : Word) (s : State) : Host.Outcome State Fault Refusal :=
  let a := if second then R.TT_ASYM2 else R.TT_ASYM
  act (regWrite r a noLock fun s =>
    if 1000000 < iabs v.toInt then s.fin .unsupported
    else
      let th := s.servo.theta.getD 0 - ofPs (v.toInt - s.sw a)
      let s1 := s.setW a v
      (s1.when (!second && s1.f F.TT_STAT_STATE == 5) fun s => s.endRoute th).fin .ok) s

/-- TT_CTL_WRITE (R374, R378, R380, R381). -/
def execTtCtlWrite (r : Req) (v : Word) (s : State) : Host.Outcome State Fault Refusal :=
  act (regWrite r R.TT_CTL noLock fun s =>
    let n := v.toNat
    let m := bits n 24 16
    if m = 0 ∨ 500 < m ∨ 10 < bits n 11 8 then s.fin .unsupported
    else
      let s1 := s.setW R.TT_CTL (v &&& 0x01FF0F07)
      let st := s1.f F.TT_STAT_STATE
      (s1.when (bit n 1 && (st == 1 || st == 2 || st == 6)) fun s => s.servoTo 3).fin .ok) s

end Sys2Proof.Machine
end

