-- ==== Sys2Proof/Machine/Pins.lean ====
section
/-!
DEFINITION. The levels at the balls that the hub drives, as they follow from the state (R36, R68, R101, R414, R424, R459, R460, R496,
R498).
-/

namespace Sys2Proof.Machine

/-- The boundary cells drive the balls (R498). -/
def State.scanDrives (s : State) : Bool := [0x00, 0x03, 0x05, 0x06].contains s.tap

/-- What drives a ball with boundary cells: the cells where the instruction says so, nothing under HIGHZ, and else the hub's own output (R498). -/
def State.ball (s : State) (b : Ball) (own : Option Bool) : Option Bool :=
  if s.tap = 0x04 then none else if s.scanDrives then Config.bsrDrive s.bsrOut b else own

/-- MIRQ_N is to be low while a bit is set in both MGP_PEND and MGP_IRQ_EN (R424). -/
def State.mirqLow (s : State) : Bool := s.alive && Nat.land (s.f F.MGP_PEND_PEND) (s.f F.MGP_IRQ_EN_EN) != 0

/-- MIRQ_N, an open drain: low or released. -/
def State.mirqPin (s : State) : Option Bool := s.ball .mirqN (if s.mirqLow then some false else none)

/-- ALERT_N is to be released only in HOLD and ACQUIRE with READY set (R460). -/
def State.alertLow (s : State) : Bool := !(s.alive && s.live && s.b F.ALERT_CTL_READY)

/-- ALERT_N, an open drain: low or released. -/
def State.alertPin (s : State) : Option Bool := s.ball .alertN (if s.alertLow then some false else none)

/-- What the hub drives at a TRIGIO ball: nothing in MODE 0, LEVEL in MODE 1, the pulse in MODE 2 (R459, R496). -/
def State.trigioLevel (s : State) (k : Nat) : Option Bool :=
  match s.f (F.TRIGIO_CTL_MODE k) with
  | 1 => some (s.b (F.TRIGIO_CTL_LEVEL k))
  | 2 => some (Tab.get (fun _ => none) s.pulses k).isSome
  | _ => none

/-- A TRIGIO ball. -/
def State.trigioPin (s : State) (k : Nat) : Option Bool := s.ball (.trigio k) (s.trigioLevel k)

/-- MSDO: the first bit of the response from the falling edge of MSCS_N on, and high impedance outside a frame (R414). The later bits follow MSCK within the
frame, whose end is one command. -/
def State.msdoPin (s : State) : Option Bool :=
  s.ball .msdo (if s.mgp.sel then some (wbit ((s.mgp.shift.headD 0).setWidth 32) 7) else none)

/-- TDO is in high impedance but in the shift states, which each lie within one command (R498). -/
def State.tdoPin (_s : State) : Option Bool := none

/-- The switch of input `i` of a tile is closed: the tile is ACTIVE, the input is in service, and it is not the odd partner of a pair (R36). -/
def State.ainClosed (s : State) (t i : Nat) : Bool := s.alive && s.tileActive t && !s.b (F.CH_STAT_FAILED t i) && !s.pairOdd t i

/-- PPS_OUT is high (R101). -/
def State.ppsHigh (s : State) : Bool := s.pps.out.isSome

/-- An EXC output is connected (R68, R459). -/
def State.excDriven (s : State) (t : Nat) : Bool := s.b (F.EXC_STAT_CONNECTED t)

/-- PPS_OUT. -/
def State.ppsPin (s : State) : Option Bool := s.ball .ppsOut (some s.ppsHigh)

/-- A lane's transmitter is in electrical idle: its port is OFF, the lanes are down, it is in near-end loopback, or it backs off
(R310, R328, R332, R459). -/
def State.laneIdle (s : State) (n : Nat) : Bool :=
  !(s.alive && s.lanesOn) || s.nearEnd n || (s.lane n).quiet
    || (s.lst n == 7 && s.f (F.LANE_CTL_LB n) != 3 && !(n % 4 == 0 && s.b (F.PRBS_CTL_GEN_EN n)))

/-- What a lane's transmitter puts on its balls (R332). -/
def State.balls (s : State) (n : Nat) : List (BitVec 10) := if s.laneIdle n || s.scanDrives || s.tap == 0x04 then [] else (s.lane n).tx

/-- Whether a lane's balls carry the inverse of their cell after `k` cycles of TCK in Run-Test/Idle: during all of it in EXTEST_PULSE, in every other
cycle in EXTEST_TRAIN (R498; PRESUMED of IEEE 1149.6, notes/assumptions/126.md). -/
def State.acInverts (s : State) (k : Nat) : Bool := (s.tap == 0x05 && decide (0 < k)) || (s.tap == 0x06 && k % 2 == 1)

/-- The level that the boundary cells put on a lane's balls, which then carry none of its symbols, after `k` cycles of TCK in Run-Test/Idle; 0 stands for
every other state of the port (R498). -/
def State.lanePin (s : State) (n k : Nat) : Option Bool := (s.ball (.lane n) none).map fun v => v != s.acInverts k

end Sys2Proof.Machine
end

