-- ==== Sys2Proof/Machine/View.lean ====
section
/-!
DEFINITION. The word that a read of any register returns, with the effects of the read (R2, R5, R8, R30, R106, R474, R480).
-/

namespace Sys2Proof.Machine

/-- A memory word that holds an uncorrectable error reads as a value that the spec does not give. -/
def State.memRead (s : State) (a : Nat) (v : Word) : State × Word :=
  if s.badRange a 4 then let (s1, n) := s.draw 32; (s1, BitVec.ofNat 32 n) else (s, v)

/-- A read of an entry of the trouble log that cannot be corrected (R480): words 0 to 6 read zero and BAD reads 1; the spec does not say what the
other bits of word 7 read. -/
def State.logBad (s : State) (r : Req) (a : Nat) : State × Word :=
  let (s1, n) := (s.logUncorr ((a - R.LOG_ENT 0) / 32)).draw 3
  (s1.setShadows r (a + 4) (List.replicate 6 0 ++ [BitVec.ofNat 32 (2 ^ 31 + n)]), 0)

/-- A bit of a word that nothing in the hub decides. -/
def State.openBits (s : State) (v : Word) (hi lo : Nat) : State × Word :=
  let (s1, n) := s.draw (hi + 1 - lo)
  (s1, BitVec.ofNat 32 (putBits v.toNat hi lo n))

/-- TRIGIO_CTL.IN: the level that drives the ball, or a level from outside (R496, R498). -/
def State.trigIn (s : State) (k : Nat) (v : Word) : State × Word :=
  match s.trigioPin k with
  | some b => (s, BitVec.ofNat 32 (putBits v.toNat 31 31 (b2n b)))
  | none => s.openBits v 31 31

/-- A read of a register: shadow bits come from the reader's shadow, a low word refills the shadows of its higher words, and clear-on-read bits
are cleared, unless a test of the block holds its registers (R5, R8, R106, R474). -/
def State.plainRead (s : State) (r : Req) (a : Nat) : State × Word :=
  let (_, rc, sh, mw) := readMask a
  let v := (s.view a &&& ~~~sh) ||| (s.shadow r a &&& sh)
  let s1 := s.setShadows r (a + 4) ((range' 1 (mw - 1)).map fun k => s.view (a + 4 * k))
  (if s.underTest a || rc == 0 then s1 else s1.setW a (s1.w a &&& ~~~rc), v)

/-- A read that an access of the map allows: the word it returns and the state it leaves. `bad` says that an entry of the log is found not to be
correctable. -/
def State.readReg (s : State) (r : Req) (a : Nat) (bad : Bool) : State × Word :=
  if 0x20000000 ≤ a then s.memRead a (s.wordBEAt a)
  else if 0x400000 ≤ a ∧ a % 0x40000 < 0x30000 then s.memRead a (s.wordLE a)
  else if 0x78000 ≤ a ∧ a < 0x80000 ∧ a % 32 = 0 ∧ (bad ∨ s.bad.contains a) then s.logBad r a
  else if 0xC0000 ≤ a ∧ a < 0xC1000 ∧ a % 0x40 = 4 ∧ !s.underTest a then let (s1, v, _) := s.pqPop ((a - 0xC0000) / 0x40); (s1, v)
  else if 0x20300 ≤ a ∧ a < 0x20400 ∧ a % 16 = 0 then
    let s1 := s.tsqPop r ((a - 0x20300) / 16)
    (s1, s1.cpl.data.headD 0)
  else
    let (s1, v) := s.plainRead r a
    if 0x40 ≤ a ∧ a < 0x50 then s1.trigIn ((a - 0x40) / 4) v
    else if 0x400000 ≤ a ∧ a % 0x40000 = 0x30030 ∧ s.masonOn ((a - 0x400000) / 0x40000) ∧ !s.underTest a then s1.openBits v 15 0
    else (s1, v)

/-- A read of one word by a requester, with the checks of the address map (R2, R29, R30). -/
def State.readWord (s : State) (r : Req) (a : Nat) (bad : Bool) : State :=
  match s.mapStop r a false with
  | some c => s.fin c
  | none => let (s1, v) := s.readReg r a bad; s1.finData [v]

end Sys2Proof.Machine
end

