-- ==== Sys2Proof/Machine/Access.lean ====
section
/-!
DEFINITION. A write of any register of the map by any requester (R2 to R6, R29, R30, R77), which the rows REGISTER_WRITE, WRITE and MGP_ACCESS_DONE
share. A register whose write has a row of its own takes that row's meaning here; the ranges of the other fields are those of the register
tables and of R47, R48, R100, R101, R151, R284, R297, R393, R428, R430, R435 and R462.
-/

namespace Sys2Proof.Machine

/-- The state that a meaning of another row leaves. -/
def State.via (s : State) (f : State → Host.Outcome State Fault Refusal) : State :=
  match f s with
  | .next t => t
  | _ => s

/-- The word that a write leaves in a register of the map: RW bits take their value, W1C bits fall, W1S bits rise, and all others stay (R4, R5). -/
def newWord (x : Row) (old v : Word) : Word :=
  let m (n : Nat) : Word := BitVec.ofNat 32 n
  ((old &&& ~~~(m x.rw)) &&& ~~~(v &&& m x.w1c)) ||| (v &&& (m x.rw ||| m x.w1s))

/-- The field types of a register put into effect; an unassigned offset ignores the write (R2, R5). -/
def State.store (s : State) (a : Nat) (v : Word) : State :=
  match rowAt a with
  | some (x, _, _) => s.setW a (newWord x (s.w a) v)
  | none => s

/-- A write with the checks of the map, refused with a status where `stop` names one (R29, R474). -/
def checkedWrite (r : Req) (a : Nat) (stop : State → Option Status) (v : Word) : State → State :=
  regWrite r a noLock fun s =>
    match stop s with
    | some c => s.fin c
    | none => (s.store a v).fin .ok

/-- A field must lie in a range. -/
def inRange (n lo hi : Nat) : State → Option Status := fun _ => if lo ≤ n ∧ n ≤ hi then none else some .unsupported

/-- A register without rules of its own. -/
def plainWrite (r : Req) (a : Nat) (v : Word) : State → State := checkedWrite r a (fun _ => none) v

/-! ### GLOBAL and RPC -/

/-- A write in GLOBAL (R421, R455, R460, R462, R496). -/
def writeGlobal (r : Req) (a : Nat) (v : Word) (s : State) : State :=
  if a = R.MODE then regWrite r R.MODE noLock (fun s => s.modeWrite r (bits v.toNat 2 0) (wbit v 9) (wbit v 8)) s
  else if a = R.ALERT_CTL then s.via (execAlertCtlWrite r v)
  else if a = R.MODE_OWNER then s.via (execModeOwnerWrite r v)
  else if 0x40 ≤ a ∧ a < 0x50 ∧ a % 4 = 0 then s.via (execTrigioCtlWrite r (Fin.ofNat 4 ((a - 0x40) / 4)) v)
  else plainWrite r a v s

/-- A write of OPT_CMD (R449, R462); no reading gives VHOLD beforehand. -/
def State.optCmd (s : State) (r : Req) (op : Nat) : State :=
  let (s1, vh) := s.draw 16
  match op with
  | 1 => s.via (execReadA r)
  | 2 => s.via (execReadB r)
  | 3 => s1.via (execWriteA r (BitVec.ofNat 16 vh))
  | 4 => s1.via (execWriteB r (BitVec.ofNat 16 vh))
  | _ => regWrite r R.OPT_CMD noLock (fun s => s.fin .unsupported) s

/-- A write in RPC (R440, R441, R449, R450, R452, R462). -/
def writeRpc (r : Req) (a : Nat) (v : Word) (s : State) : State :=
  if a = R.RST_CTL then let (s1, n) := s.draw 7; s1.via (execSoft r v (BitVec.ofNat 7 n))
  else if a = R.BLK_RST then s.via (execBlkRst r v)
  else if a = R.WDT_CTL then checkedWrite r a (inRange (bits v.toNat 15 0) 1 65535) v s
  else if a = R.WDT_KICK then s.via (execWdtKick r v)
  else if a = R.FAB_TMO then checkedWrite r a (inRange (bits v.toNat 15 0) 10 65535) v s
  else if a = R.OPT_CMD then s.optCmd r (bits v.toNat 2 0)
  else if a = R.NV_CMD then let (s1, vh) := s.draw 16; s1.via (execNvCmd r v (BitVec.ofNat 16 vh))
  else plainWrite r a v s

/-! ### TIME and HKC -/

/-- A write of GRID_SYNC_CMD (R89). -/
def State.syncCmd (s : State) (r : Req) (v : Word) : State :=
  let m : BitVec 4 := BitVec.ofNat 4 v.toNat
  match bits v.toNat 9 8 with
  | 0 => s.via (execGridSyncAt r m)
  | 1 => s.via (execGridSyncNextSec r m)
  | 2 => s.via (execGridSyncCancel r m)
  | _ => regWrite r R.GRID_SYNC_CMD noLock (fun s => if s.live then s.fin .unsupported else s.fin .mode) s

/-- A write of a grid's registers. -/
def writeGrid (r : Req) (g o a : Nat) (v : Word) (s : State) : State :=
  match o with
  | 0x0 => s.via (execGridCtlWrite r (Fin.ofNat 4 g) v)
  | 0x8 => s.via (execGridPerWrite r (Fin.ofNat 4 g) false v)
  | 0xC => s.via (execGridPerWrite r (Fin.ofNat 4 g) true v)
  | _ => plainWrite r a v s

/-- A signed adjustment in nanoseconds (R101). -/
def adjOk (v : Word) : State → Option Status := fun _ => if iabs v.toInt ≤ 1000000 then none else some .unsupported

/-- A write of PPS_CTL: with OUT_EN = 0 the ball is low (R101). -/
def ppsCtl (r : Req) (v : Word) : State → State :=
  regWrite r R.PPS_CTL noLock fun s =>
    match inRange (bits v.toNat 25 16) 1 999 s with
    | some c => s.fin c
    | none => ((s.store R.PPS_CTL v).when (!wbit v 0) State.ppsLow).fin .ok

/-- A write of TT_PROBE by an access: no reading gives the stamp of the PROBE (R379). -/
def State.probe (s : State) (r : Req) (v : Word) : State :=
  let (s1, t) := s.draw 32
  s1.via (execTtProbe r v (s1.st + t))

/-- A write in TIME (R77, R89, R97 to R105, R380 to R393). -/
def writeTime (r : Req) (a : Nat) (v : Word) (s : State) : State :=
  if a = R.TIME_CTL then s.via (execTimeSrcWrite r v)
  else if a = R.ST_SET_NS ∨ a = R.GRID_SYNC_NS ∨ a = R.TT_DELTA_NS then checkedWrite r a (inRange v.toNat 0 999999999) v s
  else if a = R.ST_LOAD then s.via (execStLoad r v)
  else if a = R.SMPL_CTL then s.via (execSmplCtlWrite r false v)
  else if a = R.MCLK_CTL then s.via (execSmplCtlWrite r true v)
  else if a = R.SMPL_PHASE then s.via (execSmplPhaseWrite r v)
  else if a = R.PPS_CTL then ppsCtl r v s
  else if a = R.PPS_OUT_ADJ ∨ a = R.PPS_IN_ADJ then checkedWrite r a (adjOk v) v s
  else if a = R.TOD_CTL then checkedWrite r a (inRange (bits v.toNat 31 12) 9600 921600) v s
  else if a = R.GRID_SYNC_CMD then s.syncCmd r v
  else if a = R.RTC_CTL then regWrite r a noLock (fun s => s.rtcCtl v) s
  else if 0x20100 ≤ a ∧ a < 0x20200 then writeGrid r ((a - 0x20100) / 0x40) ((a - 0x20100) % 0x40) a v s
  else if a = R.TT_CTL then s.via (execTtCtlWrite r v)
  else if a = R.TT_STEP then ttStepWrite r v s
  else if a = R.STEP_LIMIT then checkedWrite r a (inRange (bits v.toNat 29 0) 1000 999999999) v s
  else if a = R.ROUTE_TOL then checkedWrite r a (inRange (bits v.toNat 13 0) 10 10000) v s
  else if a = R.LOCK_THR then checkedWrite r a (inRange (bits v.toNat 17 0) 10 200000) v s
  else if a = R.TT_ASYM then s.via (execTtAsymWrite r false v)
  else if a = R.TT_ASYM2 then s.via (execTtAsymWrite r true v)
  else if a = R.TT_PROBE then s.probe r v
  else plainWrite r a v s

/-- Why a write of HK_SEQ is refused (R428, R430). -/
def hkSeqStop (v : Word) : State → Option Status := fun s =>
  if 40 ≤ bits v.toNat 5 0 then some .unsupported else if s.b F.HK_CTL_EN then some .busy else none

/-- A write in HKC (R427 to R430). -/
def writeHkc (r : Req) (a : Nat) (v : Word) (s : State) : State :=
  if a = R.HK_CTL then s.via (execHkCtlWrite r v)
  else if a = R.HK_TRIG then s.via (execHkGo r v)
  else if a = R.HK_GUARD then checkedWrite r a (inRange (bits v.toNat 7 0) 60 125) v s
  else if 0x30100 ≤ a ∧ a < 0x30180 then checkedWrite r a (hkSeqStop v) v s
  else plainWrite r a v s

/-! ### TRIG, PRESS and YARD -/

/-- A write of TU_HOLDOFF or TU_AUTO (R151). -/
def unitWrite (r : Req) (u a : Nat) (v : Word) : State → State :=
  regWrite r a noLock fun s => ((s.store a v).unitRecompute u).fin .ok

/-- A write in TRIG (R145 to R170). -/
def writeTrig (r : Req) (a : Nat) (v : Word) (s : State) : State :=
  let o := a - 0x40000
  if o < 0x4000 then
    let u : Fin 64 := Fin.ofNat 64 (o / 0x100)
    match o % 0x100 with
    | 0x0 => s.via (execTuCtlWrite r u false v)
    | 0x4 => s.via (execTuCtlWrite r u true v)
    | 0x10 => unitWrite r u.val a v s
    | 0x14 => unitWrite r u.val a v s
    | 0x40 => s.via (execTgCtlWrite r u false v)
    | 0x44 => s.via (execTgCtlWrite r u true v)
    | _ => plainWrite r a v s
  else if o < 0x4400 ∧ o % 4 = 0 then s.via (execRpWrite r (Fin.ofNat 64 ((o - 0x4000) / 16)) (Fin.ofNat 4 (o % 16 / 4)) v)
  else if 0x8000 ≤ o ∧ o < 0x9000 ∧ o % 4 = 0 then s.via (execWsLinkWrite r (Fin.ofNat 1024 ((o - 0x8000) / 4)) v)
  else plainWrite r a v s

/-- PX_INBUF and PX_JOB are busy while a job runs, and PX_JOB takes values in its ranges; its reserved bits are ignored (R4, R297). -/
def pxStop (a : Nat) (v : Word) : State → Option Status := fun s =>
  let n := v.toNat
  let bad := bits n 28 16 = 0 ∨ 4096 < bits n 28 16 ∨ bits n 14 0 = 0 ∨ 16384 < bits n 14 0
  if a = R.PX_JOB ∧ bad then some .unsupported else if s.f F.PX_STAT_STATE ≠ 0 then some .busy else none

/-- A write in PRESS (R289, R292, R297). -/
def writePress (r : Req) (a : Nat) (v : Word) (s : State) : State :=
  if a = R.PX_CTL then s.via (execPxGo r v)
  else if a = R.PX_JOB ∨ (0x58000 ≤ a ∧ a < 0x5C000) then checkedWrite r a (pxStop a v) v s
  else if 0x50100 ≤ a ∧ a < 0x50200 then
    let e : Fin 4 := Fin.ofNat 4 ((a - 0x50100) / 0x40)
    match (a - 0x50100) % 0x40 with
    | 0x0 => s.via (execPcCtlWrite r e v)
    | 0xC => s.via (execPcMresWrite r e v)
    | _ => plainWrite r a v s
  else plainWrite r a v s

/-- The rules of YARD_CTL (R284). -/
def yardCtlStop (v : Word) : State → Option Status := fun _ =>
  let h := bits v.toNat 22 16
  let w2 := bits v.toNat 14 8
  let w1 := bits v.toNat 6 0
  if 2 ≤ w1 ∧ w1 ≤ 98 ∧ w1 < w2 ∧ w2 ≤ 99 ∧ 1 ≤ h ∧ h < w1 then none else some .unsupported

/-- A write in YARD (R257, R267, R284). -/
def writeYard (r : Req) (a : Nat) (v : Word) (s : State) : State :=
  if a = R.YARD_CTL then checkedWrite r a (yardCtlStop v) v s
  else if a = R.YARD_FLUSH then checkedWrite r a (inRange (bits v.toNat 19 0) 1 1000000) v s
  else if 0x60100 ≤ a ∧ a < 0x60500 ∧ (a - 0x60100) % 0x40 = 0 then s.via (execRingCfgWrite r (Fin.ofNat 16 ((a - 0x60100) / 0x40)) v)
  else if 0x60800 ≤ a ∧ a < 0x60860 ∧ a % 4 = 0 then s.via (execPkCtlWrite r (Fin.ofNat 24 ((a - 0x60800) / 4)) v)
  else plainWrite r a v s

/-! ### LANES, PORTS, KILN, LOG and the cornerstone -/

/-- A write in LANES (R305 to R335). -/
def writeLanes (r : Req) (a : Nat) (v : Word) (s : State) : State :=
  let o := a - 0x80000
  if o < 0x8000 then
    let n := o / 0x400
    if o % 0x400 = 0 then s.via (execLaneCtlWrite r (Fin.ofNat 32 n) v)
    else if o % 0x1000 = 0x100 then s.via (execPrbsCtlWrite r (Fin.ofNat 8 (n / 4)) v)
    else plainWrite r a v s
  else if o < 0x8100 ∧ o % 0x20 = 0 then s.via (execQuadCtlWrite r (Fin.ofNat 8 ((o - 0x8000) / 0x20)) v)
  else plainWrite r a v s

/-- A write in PORTS (R346, R364). -/
def writePorts (r : Req) (a : Nat) (v : Word) (s : State) : State := if a = R.LINK_CFG then s.via (execLinkCfgWrite r v) else plainWrite r a v s

/-- A write in KILN (R473). -/
def writeKiln (r : Req) (a : Nat) (v : Word) (s : State) : State := if a = R.KILN_CTL then s.via (execKilnGo r v) else plainWrite r a v s

/-- A write in LOG (R479). -/
def writeLog (r : Req) (a : Nat) (v : Word) (s : State) : State := if a = R.LOG_CTL then s.via (execLogClear r v) else plainWrite r a v s

/-- The bits of a stage register, those of the active register that it mirrors (R413). -/
def stageMask (a : Nat) : Word :=
  let o := a - 0xB0400
  if o = 0xF0 then 0xFFF
  else if 0x100 ≤ o ∧ o < 0x300 then
    match o % 16 with
    | 0 => 0x800701FF
    | 4 => 0xFFFFFF
    | 8 => 0xFFFFFF
    | _ => 0
  else if 0x300 ≤ o ∧ o < 0x400 ∧ o % 16 = 0 then 0x9F1F8FFF
  else 0

/-- A write of CS_CMD (R408); an OP without a command completes with UNSUPPORTED. No reading gives VHOLD beforehand. -/
def State.csCmdWrite (s : State) (r : Req) (v : Word) : State :=
  let (s1, n) := s.draw 16
  let vh : BitVec 16 := BitVec.ofNat 16 n
  let arg : BitVec 16 := BitVec.ofNat 16 (bits v.toNat 23 8)
  match bits v.toNat 2 0 with
  | 1 => s1.via (execApply r arg vh)
  | 2 => s.via (execReload r)
  | 3 => s1.via (execFwBlock r arg vh)
  | 4 => s1.via (execFwCommit r arg vh)
  | _ => csCmd r (fun _ => false) false (fun s => s.csEnd .unsupported) s

/-- A write in CORNERSTONE (R408, R413). -/
def writeCs (r : Req) (a : Nat) (v : Word) (s : State) : State :=
  if a = R.CS_CMD then s.csCmdWrite r v
  else if 0xB0400 ≤ a ∧ a < 0xB0800 then plainWrite r a (v &&& stageMask a) s
  else plainWrite r a v s

/-! ### Pallet queues, streams, tiles and masons -/

/-- A write in PALLET (R214 to R217). -/
def writePallet (r : Req) (a : Nat) (v : Word) (s : State) : State :=
  let q := (a - 0xC0000) / 0x40
  if a < 0xC1000 then
    match (a - 0xC0000) % 0x40 with
    | 0x0 => s.via (execPqPush r (Fin.ofNat 64 q) v)
    | 0x10 => pqCtlWrite r q v s
    | _ => plainWrite r a v s
  else plainWrite r a v s

/-- A write of the stream table (R177, R180, R181). -/
def writeStreams (r : Req) (a : Nat) (v : Word) (s : State) : State :=
  let o := a - 0x100000
  if o % 32 < 12 ∧ a % 4 = 0 then s.via (execSeConfigWrite r (Fin.ofNat 8192 (o / 32)) (Fin.ofNat 3 (o % 32 / 4)) v) else plainWrite r a v s

/-- CH_OFF and CH_GAIN of a metered channel are locked (R47). -/
def meteredStop (t i : Nat) : State → Option Status := fun s => if s.metered t i then some .locked else none

/-- A write of a tile's own registers (R33 to R48, R66 to R68). -/
def writeTileReg (r : Req) (t o a : Nat) (v : Word) (s : State) : State :=
  let tt : Fin 24 := Fin.ofNat 24 t
  if o = 0x4 then s.via (execTileCtlWrite r tt false v)
  else if o = 0xC then s.via (execTileCtlWrite r tt true v)
  else if o = 0x10 then checkedWrite r a (inRange (bits v.toNat 20 16) 18 30) v s
  else if o = 0x2C then s.via (execTileApply r tt v)
  else if o = 0x30 then s.via (execExcCtlWrite r tt false v)
  else if o = 0x34 then s.via (execExcCtlWrite r tt true v)
  else if 0x40 ≤ o ∧ o < 0x80 ∧ o % 4 = 0 then s.via (execGainChange r tt (Fin.ofNat 16 ((o - 0x40) / 4)) v)
  else if 0x80 ≤ o ∧ o < 0xC0 then checkedWrite r a (meteredStop t ((o - 0x80) / 4)) v s
  else if 0xC0 ≤ o ∧ o < 0x100 then checkedWrite r a (meteredStop t ((o - 0xC0) / 4)) v s
  else plainWrite r a v s

/-- A write of a filter engine's registers (R113 to R139). -/
def writeEngine (r : Req) (t o a : Nat) (v : Word) (s : State) : State :=
  let tt : Fin 24 := Fin.ofNat 24 t
  if 0x1100 ≤ o ∧ o < 0x1300 then
    let p : Fin 8 := Fin.ofNat 8 ((o - 0x1100) / 0x40)
    match (o - 0x1100) % 0x40 with
    | 0x0 => s.via (execFpConfigWrite r tt p 0 v)
    | 0x4 => s.via (execFpConfigWrite r tt p 1 v)
    | 0x8 => s.via (execFpConfigWrite r tt p 2 v)
    | 0xC => s.via (execFpConfigWrite r tt p 3 v)
    | 0x10 => s.via (execFadeGo r tt p v)
    | _ => plainWrite r a v s
  else if 0x1400 ≤ o ∧ o < 0x1800 then
    let d : Fin 32 := Fin.ofNat 32 ((o - 0x1400) / 0x20)
    match (o - 0x1400) % 0x20 with
    | 0x0 => s.via (execDetCtlWrite r tt d 0 v)
    | 0x4 => s.via (execDetCtlWrite r tt d 1 v)
    | 0x8 => s.via (execDetCtlWrite r tt d 2 v)
    | _ => plainWrite r a v s
  else if 0x8000 ≤ o ∧ o < 0xC000 ∧ o % 4 = 0 then
    let x := (o - 0x8000) / 4
    s.via (execCoefWrite r tt (Fin.ofNat 8 (x / 512)) (Fin.ofNat 2 (x / 256)) (Fin.ofNat 256 x) v)
  else plainWrite r a v s

/-- A write of a tile or its filter engine. -/
def writeTile (r : Req) (a : Nat) (v : Word) (s : State) : State :=
  let t := (a - 0x200000) / 0x10000
  let o := (a - 0x200000) % 0x10000
  if o < 0x1000 then writeTileReg r t o a v s else writeEngine r t o a v s

/-- A write of a mason (R186, R187, R199). -/
def writeMason (r : Req) (a : Nat) (v : Word) (s : State) : State :=
  let m := (a - 0x400000) / 0x40000
  let o := (a - 0x400000) % 0x40000
  if a % 4 ≠ 0 then plainWrite r a v s
  else if o < 0x10000 then s.memWrite r m (.imem (Fin.ofNat 16384 (o / 4))) v
  else if o < 0x30000 then s.memWrite r m (.dmem (Fin.ofNat 32768 ((o - 0x10000) / 4))) v
  else
    match o - 0x30000 with
    | 0x0 => mcWrite r m v s
    | 0x8 => s.memWrite r m .entry v
    | 0xC => s.memWrite r m .tvec v
    | 0x1C => s.via (execDoorbellWrite r (Fin.ofNat 16 m) v)
    | _ => plainWrite r a v s

/-! ### The whole map -/

/-- A write of one word by a requester: the access ends with its completion. A misaligned address and one outside every region meet the checks of
the map, as everywhere (R2, R29, R31). -/
def State.writeReg (s : State) (r : Req) (a : Nat) (v : Word) : State :=
  if a % 4 ≠ 0 then plainWrite r a v s
  else if a < 0x10000 then writeGlobal r a v s
  else if a < 0x20000 then writeRpc r a v s
  else if a < 0x30000 then writeTime r a v s
  else if a < 0x40000 then writeHkc r a v s
  else if a < 0x50000 then writeTrig r a v s
  else if a < 0x60000 then writePress r a v s
  else if a < 0x70000 then writeYard r a v s
  else if a < 0x80000 then writeLog r a v s
  else if a < 0x90000 then writeLanes r a v s
  else if a < 0xA0000 then writePorts r a v s
  else if a < 0xB0000 then writeKiln r a v s
  else if a < 0xC0000 then writeCs r a v s
  else if a < 0xD0000 then writePallet r a v s
  else if 0x100000 ≤ a ∧ a < 0x140000 then writeStreams r a v s
  else if 0x200000 ≤ a ∧ a < 0x380000 then writeTile r a v s
  else if 0x400000 ≤ a ∧ a < 0x800000 then writeMason r a v s
  else plainWrite r a v s

/-! ### The rows -/

/-- REGISTER_WRITE (R5). -/
def execRegisterWrite (r : Req) (a v : Word) (s : State) : Host.Outcome State Fault Refusal := act (fun s => s.writeReg r a.toNat v) s

/-- RC_READ (R8): a read of a word, which clears its RC fields. -/
def execRcRead (r : Req) (a : Word) (s : State) : Host.Outcome State Fault Refusal := act (fun s => s.readWord r a.toNat false) s

/-- LOW_WORD_READ (R106): a read of a word, which refills the reader's shadows of a multi-word value; `bad`: an entry of the log is found not to be
correctable (R480). -/
def execLowWordRead (r : Req) (a : Word) (bad : Bool) (s : State) : Host.Outcome State Fault Refusal :=
  act (fun s => s.readWord r a.toNat bad) s

end Sys2Proof.Machine
end

