-- ==== Sys2Proof/Machine/Transact.lean ====
section
/-!
DEFINITION. The transactions over the register space: READ and WRITE hods of the host (R353 to R358), the register load of a mason (R234), and the
management port (R414 to R420).
-/

namespace Sys2Proof.Machine

/-! ### READ and WRITE (R353 to R355) -/

/-- The end of the region of R31 that holds an address. -/
def regionEnd (a : Nat) : Option Nat :=
  if a < 0xD0000 then some ((a / 0x10000 + 1) * 0x10000)
  else if 0x100000 ≤ a ∧ a < 0x140000 then some 0x140000
  else if 0x200000 ≤ a ∧ a < 0x380000 then some 0x380000
  else if 0x400000 ≤ a ∧ a < 0x800000 then some 0x800000
  else if 0x20000000 ≤ a ∧ a < 0x40000000 then some 0x40000000
  else none

/-- The checks of a READ or WRITE before its target's own rules, in order (R354): `extra` words follow the first two. -/
def rangeStop (a n : Nat) (more len extra : Nat) : Option Status :=
  let past : Bool := match regionEnd a with
    | some e => decide (e < a + 4 * n)
    | none => false
  if n = 0 ∨ 256 < n ∨ len ≠ 2 + extra ∨ past then some .length
  else if more ≠ 0 then some .unsupported
  else if a % 4 ≠ 0 ∨ regionEnd a = none then some .addr
  else none

/-- A READ's words, lowest first, in one access. -/
def State.readWords (s : State) (r : Req) (a : Nat) : Nat → State × List Word
  | 0 => (s, [])
  | n + 1 =>
    let (s1, v) := s.readReg r a false
    let (s2, vs) := s1.readWords r (a + 4) n
    (s2, v :: vs)

/-- READ takes effect. -/
def State.readHod (s : State) (ws : List Word) : State :=
  match ws with
  | a :: c :: rest =>
    let a := a.toNat
    let n := bits c.toNat 8 0
    match rangeStop a n (bits c.toNat 31 9) (2 + rest.length) 0 with
    | some e => s.fin e
    | none =>
      match s.mapStop .host a false with
      | some e => s.fin e
      | none => let (s1, vs) := s.readWords .host a n; s1.finData vs
  | _ => s.fin .length

/-- The memory that a WRITE of more than one word must lie within: one IMEM or DMEM, one coefficient bank, or PX_INBUF (R355). -/
def bulkOf (a : Nat) : Option (Nat × Nat) :=
  if 0x58000 ≤ a ∧ a < 0x5C000 then some (0x58000, 0x5C000)
  else if 0x200000 ≤ a ∧ a < 0x380000 ∧ 0x8000 ≤ a % 0x10000 ∧ a % 0x10000 < 0xC000 then some (a / 0x400 * 0x400, a / 0x400 * 0x400 + 0x400)
  else if 0x400000 ≤ a ∧ a < 0x800000 then
    let m := a / 0x40000 * 0x40000
    if a % 0x40000 < 0x10000 then some (m, m + 0x10000)
    else if a % 0x40000 < 0x30000 then some (m + 0x10000, m + 0x30000)
    else none
  else none

/-- Words written to consecutive addresses, and the first status that is not OK. -/
def State.writeWords (s : State) (r : Req) (a : Nat) : List Word → State × Status
  | [] => (s, .ok)
  | v :: vs =>
    let s1 := s.writeReg r a v
    if s1.cpl.status = .ok then s1.writeWords r (a + 4) vs else (s1, s1.cpl.status)

/-- WRITE takes effect: every word or none. Where the first word is refused, its refusal is the request's; where it begins a batch, the batch's end
completes the request. -/
def State.writeHod (s : State) (ws : List Word) : State :=
  match ws with
  | a :: c :: vs =>
    let a := a.toNat
    let n := bits c.toNat 8 0
    match rangeStop a n (bits c.toNat 31 9) (2 + vs.length) n with
    | some e => s.fin e
    | none =>
      let inside : Bool := match bulkOf a with
        | some (_, e) => decide (a + 4 * n ≤ e)
        | none => false
      if 1 < n ∧ !inside then s.fin .unsupported
      else
        let s1 := s.writeReg .host a (vs.headD 0)
        if s.began s1 ∨ s1.cpl.status ≠ .ok then s1
        else
          match s1.writeWords .host (a + 4) vs.tail with
          | (s2, .ok) => s2.fin .ok
          | (_, e) => s.fin e
  | _ => s.fin .length

/-- READ. -/
def execRead (p : Fin 16) (tag : BitVec 7) (ws : List Word) (s : State) : Host.Outcome State Fault Refusal :=
  act (request 1 p.val 0 tag.toNat fun s => s.readHod ws) s

/-- WRITE. -/
def execWrite (p : Fin 16) (tag : BitVec 7) (ws : List Word) (s : State) : Host.Outcome State Fault Refusal :=
  act (request 1 p.val 1 tag.toNat fun s => s.writeHod ws) s

/-! ### RLD (R234) -/

/-- RLD: any status but OK traps with REGLOAD, a misaligned address among them. -/
def execRld (m : Fin 16) (gd ga : Fin 32) (off : BitVec 16) (s : State) : Host.Outcome State Fault Refusal :=
  isa m (encGI 0x1A gd ga off.toNat) (fun s x =>
    let a := x.addr ga off
    match s.mapStop (.mason m) a false with
    | some _ => .trap 4 a
    | none =>
      let (s1, v) := s.readReg (.mason m) a false
      .next ({ s1 with cpl := s.cpl }.setMason m ((s1.mason m).put gd v))) s

/-! ### The management port (R414 to R418) -/

/-- A discarded frame is counted, and its bit of MGP_EVT raises its event when it rises; `i` 0 CRC, 1 FRAME, 2 OVERRUN (R416). -/
def State.mgpDiscard (s : State) (i : Nat) : State :=
  let s1 := s.bump (if i = 0 then F.MGP_CNT_CRC else if i = 1 then F.MGP_CNT_FRAME else F.MGP_CNT_OVERRUN) 1
  if wbit (s.w R.MGP_EVT) i then s1 else s1.raiseBit R.MGP_EVT i (0x0E01 + i) 0 0

/-- No frame is left to be rejected when a result waits or a request is in progress (R418). -/
def State.mgpReject (s : State) (status : Status) : State :=
  s.when (s.mgp.pend.isNone && s.mgp.res.isNone) fun s => { s with mgp := { s.mgp with rej := some status.code } }

/-- A frame of `edges` rising edges whose 72 bits are `frame`, first bit highest, at the rising edge of MSCS_N (R415, R416, R418). A command byte that
is not zero is a request, whatever its OP. -/
def State.mgpFrame (s : State) (frame : BitVec 72) (edges : Nat) : State :=
  let x := frame.toNat
  let cmd := bits x 71 64
  let s : State := { s with mgp := { s.mgp with sel := false } }
  if edges ≠ 72 then (s.mgpDiscard 1).mgpReject .length
  else if crc8 (natBE 8 (x / 256)) ≠ x % 256 then (s.mgpDiscard 0).mgpReject .crc
  else if cmd = 0 then
    if bits x 39 8 = 1 then { s with mgp := { s.mgp with rep := true } } else s
  else if s.mgp.pend.isSome then s.mgpDiscard 2
  else { s with mgp := { s.mgp with pend := some (cmd, bits x 63 40, bits x 39 8), res := none } }

/-- The access of a request: the state it leaves, with the completion in `cpl` (R417). -/
def State.mgpAccess (s : State) (cmd wa data : Nat) : State :=
  if cmd = 0x10 then s.readWord .manager (4 * wa) false
  else if cmd = 0x20 then s.writeReg .manager (4 * wa) (BitVec.ofNat 32 data)
  else s.fin .unsupported

/-- MGP_NOP. -/
def execMgpNop (frame : BitVec 72) (edges : Nat) (s : State) : Host.Outcome State Fault Refusal := act (fun s => s.mgpFrame frame edges) s

/-- MGP_REPEAT. -/
def execMgpRepeat (frame : BitVec 72) (edges : Nat) (s : State) : Host.Outcome State Fault Refusal := act (fun s => s.mgpFrame frame edges) s

/-- MGP_READ. -/
def execMgpRead (frame : BitVec 72) (edges : Nat) (s : State) : Host.Outcome State Fault Refusal := act (fun s => s.mgpFrame frame edges) s

/-- MGP_WRITE. -/
def execMgpWrite (frame : BitVec 72) (edges : Nat) (s : State) : Host.Outcome State Fault Refusal := act (fun s => s.mgpFrame frame edges) s

/-- MGP_ACCESS_DONE: the pending request takes its access, and its RESULT waits; where the access resets the hub, the port comes out of reset with
nothing to report; where it begins a batch, the request stays pending until the batch has ended (R417, R418, R449). -/
def execMgpAccessDone (s : State) : Host.Outcome State Fault Refusal :=
  act (fun s =>
    match s.mgp.pend with
    | none => s
    | some (cmd, wa, data) =>
      if s.owed = some 16 then s
      else
        let s1 := s.mgpAccess cmd wa data
        if s.began s1 then { s1 with owed := some 16 } else s1.mgpResult) s

/-- The response of the next frame, and whether it reports the waiting result (R418). -/
def Mgp.response (x : Mgp) : List Byte × Bool :=
  match x.rep, x.last, x.pend, x.res, x.rej with
  | true, some b, _, r, _ => (b, r == some b)
  | _, _, some (cmd, wa, _), _, _ => (mgpResp 1 (cmd / 16) 0 wa 0, false)
  | _, _, none, some b, _ => (b, true)
  | _, _, none, none, some c => (mgpResp 3 0 c 0 0, false)
  | _, _, none, none, none => (List.replicate 9 0, false)

/-- MGP_RESPONSE_LOAD: MSCS_N falls, and a frame begins (R414, R418). -/
def execMgpResponseLoad (s : State) : Host.Outcome State Fault Refusal :=
  act (fun s =>
    let (b, told) := s.mgp.response
    { s with mgp := { s.mgp with shift := b, sel := true, rep := false, rej := none, res := if told then none else s.mgp.res } }) s

end Sys2Proof.Machine
end

