-- ==== Sys2Proof/Machine/Tree.lean ====
section
/-!
DEFINITION. The hub tree (R18 to R26, R364 to R368): HELLO, the routes, and what passes through the hub in both directions.
-/

namespace Sys2Proof.Machine

/-- HELLO (R365 to R367): the peer is recorded; on the primary UP port DEPTH follows and the descendants are listed upstream; on a DOWN port a partner
that uses the link as its primary is added. A hub that waits for the port enters HOLD (R453). -/
def execHello (p : Fin 16) (host primary : Bool) (depth port : BitVec 4) (hid : BitVec 14) (s : State) : Host.Outcome State Fault Refusal :=
  act (fun s =>
    if !s.portUp p.val then s
    else
      let w := 2 ^ 31 + b2n host * 2 ^ 30 + b2n primary * 2 ^ 29 + depth.toNat * 2 ^ 24 + port.toNat * 2 ^ 20 + hid.toNat
      let s1 := (s.thaw p.val).setW (R.PL_PEER p.val) (BitVec.ofNat 32 w)
      if s1.role p.val = 1 then
        if p.val = s1.primary then
          let s2 := (s1.setF F.LINK_STAT_PRIMARY_UP 1).setDepth ((depth.toNat + 1) % 16)
          (s2.sendRoutes 2 (s2.descs.map fun k => s2.f (F.DESC_HID k))).tryHold
        else s1
      else if primary then s1.addRoutes p.val [hid.toNat] else s1) s

/-- ROUTE_ADD (R366): on a DOWN port. -/
def execRouteAdd (p : Fin 16) (hids : List (BitVec 14)) (s : State) : Host.Outcome State Fault Refusal :=
  act (fun s => if s.portUp p.val ∧ s.role p.val = 2 then (s.thaw p.val).addRoutes p.val (hids.map BitVec.toNat) else s) s

/-- ROUTE_DEL (R366): on a DOWN port. -/
def execRouteDel (p : Fin 16) (hids : List (BitVec 14)) (s : State) : Host.Outcome State Fault Refusal :=
  act (fun s =>
    if s.portUp p.val ∧ s.role p.val = 2 then (s.thaw p.val).delRoutes p.val fun h => (hids.map BitVec.toNat).contains h else s) s

/-- DOWNSTREAM_ROUTE (R23): an accepted hod from an UP port is left to its own row where it is for this hub, forwarded, or discarded. -/
def execDownstreamRoute (p : Fin 16) (header : BitVec 64) (payload : List Word) (s : State) : Host.Outcome State Fault Refusal :=
  act (fun s =>
    let h := hodOf header payload
    if !s.portUp p.val ∨ s.role p.val ≠ 1 ∨ h.hid = s.hid then s
    else match s.descs.find? fun k => s.f (F.DESC_HID k) == h.hid with
      | some k => s.enqueue (s.f (F.DESC_PORT k)) (some p.val) h
      | none => ((s.bumpW R.UNROUTE_CNT 1).raiseBit R.LINK_EVT 7 0x0912 p.val h.hid).freeBuf p.val (s.inClass p.val h)) s

/-- RELAY_HOD (R22, R24, R25, R368): an upstream hod of a child passes to the primary UP port; a hod that fails its checks is withdrawn with its LSEQ and
credit, its copy ended with K30.7, and a port on which relaying has stopped relays nothing. -/
def execRelayHod (p : Fin 16) (ok : Bool) (header : BitVec 64) (payload : List Word) (s : State) : Host.Outcome State Fault Refusal :=
  act (fun s =>
    if !(s.portUp p.val && s.role p.val == 2) || (s.port p.val).conflict then s
    else if ok then s.relay p.val (hodOf header payload)
    else s.abortRelay p.val (hodOf header payload)) s

end Sys2Proof.Machine
end

