-- ==== Sys2Proof/Machine/Dispatch.lean ====
section
/-!
DEFINITION. One arm per command of the table, each a direct call of that command's own meaning.
-/

namespace Sys2Proof.Machine

/-- The effect of a command on everything but the queue. -/
def exec (i : Instr) (s : State) : Host.Outcome State Fault Refusal :=
  match i with
  | .registerWrite r a v => Sys2Proof.Machine.execRegisterWrite r a v s
  | .rcRead r a => Sys2Proof.Machine.execRcRead r a s
  | .lowWordRead r a bad => Sys2Proof.Machine.execLowWordRead r a bad s
  | .crossingUncorr b => Sys2Proof.Machine.execCrossingUncorr b s
  | .scrub b fixed uncorr => Sys2Proof.Machine.execScrub b fixed uncorr s
  | .hello p host primary depth port hid => Sys2Proof.Machine.execHello p host primary depth port hid s
  | .routeAdd p hids => Sys2Proof.Machine.execRouteAdd p hids s
  | .routeDel p hids => Sys2Proof.Machine.execRouteDel p hids s
  | .downstreamRoute p header payload => Sys2Proof.Machine.execDownstreamRoute p header payload s
  | .relayHod p ok header payload => Sys2Proof.Machine.execRelayHod p ok header payload s
  | .convertSample t sl code edge tau => Sys2Proof.Machine.execConvertSample t sl code edge tau s
  | .gainChange r t ch v => Sys2Proof.Machine.execGainChange r t ch v s
  | .gainSettleDone t ch => Sys2Proof.Machine.execGainSettleDone t ch s
  | .tileCtlWrite r t ilv v => Sys2Proof.Machine.execTileCtlWrite r t ilv v s
  | .tileApply r t v => Sys2Proof.Machine.execTileApply r t v s
  | .tileWake t => Sys2Proof.Machine.execTileWake t s
  | .tileReady t trims => Sys2Proof.Machine.execTileReady t trims s
  | .tileSleep t => Sys2Proof.Machine.execTileSleep t s
  | .rotationBoundary t => Sys2Proof.Machine.execRotationBoundary t s
  | .handIn t => Sys2Proof.Machine.execHandIn t s
  | .sliceCalDone t trim => Sys2Proof.Machine.execSliceCalDone t trim s
  | .handBack t => Sys2Proof.Machine.execHandBack t s
  | .fadeResidualDone t => Sys2Proof.Machine.execFadeResidualDone t s
  | .spareCalDone t trim => Sys2Proof.Machine.execSpareCalDone t trim s
  | .skewUpdate t k quiet est => Sys2Proof.Machine.execSkewUpdate t k quiet est s
  | .excCtlWrite r t lvl v => Sys2Proof.Machine.execExcCtlWrite r t lvl v s
  | .excRampStep t iload => Sys2Proof.Machine.execExcRampStep t iload s
  | .excFault t iload => Sys2Proof.Machine.execExcFault t iload s
  | .tileUncorr t => Sys2Proof.Machine.execTileUncorr t s
  | .stLoad r v => Sys2Proof.Machine.execStLoad r v s
  | .gridPerWrite r g frac v => Sys2Proof.Machine.execGridPerWrite r g frac v s
  | .gridCtlWrite r g v => Sys2Proof.Machine.execGridCtlWrite r g v s
  | .gridStop r g v => Sys2Proof.Machine.execGridStop r g v s
  | .gridSyncAt r m => Sys2Proof.Machine.execGridSyncAt r m s
  | .gridSyncNextSec r m => Sys2Proof.Machine.execGridSyncNextSec r m s
  | .gridSyncCancel r m => Sys2Proof.Machine.execGridSyncCancel r m s
  | .gridSyncInstant g edge => Sys2Proof.Machine.execGridSyncInstant g edge s
  | .courseInstant g edge tau => Sys2Proof.Machine.execCourseInstant g edge tau s
  | .smplCtlWrite r mclk v => Sys2Proof.Machine.execSmplCtlWrite r mclk v s
  | .smplPhaseWrite r v => Sys2Proof.Machine.execSmplPhaseWrite r v s
  | .mclkLockAcquired freq => Sys2Proof.Machine.execMclkLockAcquired freq s
  | .mclkRelock r v => Sys2Proof.Machine.execMclkRelock r v s
  | .mclkLoss los freq => Sys2Proof.Machine.execMclkLoss los freq s
  | .mclkReturn freq => Sys2Proof.Machine.execMclkReturn freq s
  | .ppsInEdge t falling => Sys2Proof.Machine.execPpsInEdge t falling s
  | .ppsMiss => Sys2Proof.Machine.execPpsMiss s
  | .todMessage bytes frameErr => Sys2Proof.Machine.execTodMessage bytes frameErr s
  | .ppsOutRise => Sys2Proof.Machine.execPpsOutRise s
  | .ppsOutFall => Sys2Proof.Machine.execPpsOutFall s
  | .rtcGo r v => Sys2Proof.Machine.execRtcGo r v s
  | .rtcFollow => Sys2Proof.Machine.execRtcFollow s
  | .xtalStop => Sys2Proof.Machine.execXtalStop s
  | .fpConfigWrite r t p which v => Sys2Proof.Machine.execFpConfigWrite r t p which v s
  | .coefWrite r t p b k v => Sys2Proof.Machine.execCoefWrite r t p b k v s
  | .filterOutput t p => Sys2Proof.Machine.execFilterOutput t p s
  | .fadeGo r t p v => Sys2Proof.Machine.execFadeGo r t p v s
  | .fadeBlendStart t p => Sys2Proof.Machine.execFadeBlendStart t p s
  | .fadeDone t p => Sys2Proof.Machine.execFadeDone t p s
  | .detCtlWrite r t d which v => Sys2Proof.Machine.execDetCtlWrite r t d which v s
  | .detectOutput t d => Sys2Proof.Machine.execDetectOutput t d s
  | .feUncorr x => Sys2Proof.Machine.execFeUncorr x s
  | .tuCtlWrite r u src v => Sys2Proof.Machine.execTuCtlWrite r u src v s
  | .tuEvaluate u n => Sys2Proof.Machine.execTuEvaluate u n s
  | .holdoffEnd u => Sys2Proof.Machine.execHoldoffEnd u s
  | .tuAutoForce u => Sys2Proof.Machine.execTuAutoForce u s
  | .groupEvaluate g n => Sys2Proof.Machine.execGroupEvaluate g n s
  | .windowClose g => Sys2Proof.Machine.execWindowClose g s
  | .trigioPulseEnd k => Sys2Proof.Machine.execTrigioPulseEnd k s
  | .storeRelease sid => Sys2Proof.Machine.execStoreRelease sid s
  | .wsLinkWrite r l v => Sys2Proof.Machine.execWsLinkWrite r l v s
  | .tgCtlWrite r g post v => Sys2Proof.Machine.execTgCtlWrite r g post v s
  | .rpWrite r p which v => Sys2Proof.Machine.execRpWrite r p which v s
  | .deltaHeartbeat sid => Sys2Proof.Machine.execDeltaHeartbeat sid s
  | .trigUncorr => Sys2Proof.Machine.execTrigUncorr s
  | .streamAdd p tag ws => Sys2Proof.Machine.execStreamAdd p tag ws s
  | .streamDel p tag ws => Sys2Proof.Machine.execStreamDel p tag ws s
  | .sidFree sid => Sys2Proof.Machine.execSidFree sid s
  | .seConfigWrite r sid which v => Sys2Proof.Machine.execSeConfigWrite r sid which v s
  | .streamActivate r sid v => Sys2Proof.Machine.execStreamActivate r sid v s
  | .streamDeactivate r sid v => Sys2Proof.Machine.execStreamDeactivate r sid v s
  | .mcGo r m v => Sys2Proof.Machine.execMcGo r m v s
  | .mcHalt r m v => Sys2Proof.Machine.execMcHalt r m v s
  | .masonHalted m => Sys2Proof.Machine.execMasonHalted m s
  | .mcStop r m v => Sys2Proof.Machine.execMcStop r m v s
  | .masonMemWrite r m t v => Sys2Proof.Machine.execMasonMemWrite r m t v s
  | .doorbellWrite r m v => Sys2Proof.Machine.execDoorbellWrite r m v s
  | .masonWake m => Sys2Proof.Machine.execMasonWake m s
  | .trapTaken m => Sys2Proof.Machine.execTrapTaken m s
  | .masonUncorr m e => Sys2Proof.Machine.execMasonUncorr m e s
  | .begin p tag ws => Sys2Proof.Machine.execBegin p tag ws s
  | .data p tag ws => Sys2Proof.Machine.execData p tag ws s
  | .commit p tag ws vh => Sys2Proof.Machine.execCommit p tag ws vh s
  | .abort p tag ws => Sys2Proof.Machine.execAbort p tag ws s
  | .pqPush r q v => Sys2Proof.Machine.execPqPush r q v s
  | .pqPop r q => Sys2Proof.Machine.execPqPop r q s
  | .pqFlush r q v => Sys2Proof.Machine.execPqFlush r q v s
  | .pqOpen r q v => Sys2Proof.Machine.execPqOpen r q v s
  | .pqClose r q v => Sys2Proof.Machine.execPqClose r q v s
  | .pqUncorr q => Sys2Proof.Machine.execPqUncorr q s
  | .add m gd ga gb => Sys2Proof.Machine.execAdd m gd ga gb s
  | .sub m gd ga gb => Sys2Proof.Machine.execSub m gd ga gb s
  | .and m gd ga gb => Sys2Proof.Machine.execAnd m gd ga gb s
  | .or m gd ga gb => Sys2Proof.Machine.execOr m gd ga gb s
  | .xor m gd ga gb => Sys2Proof.Machine.execXor m gd ga gb s
  | .sll m gd ga gb => Sys2Proof.Machine.execSll m gd ga gb s
  | .srl m gd ga gb => Sys2Proof.Machine.execSrl m gd ga gb s
  | .sra m gd ga gb => Sys2Proof.Machine.execSra m gd ga gb s
  | .slli m gd ga sh => Sys2Proof.Machine.execSlli m gd ga sh s
  | .srli m gd ga sh => Sys2Proof.Machine.execSrli m gd ga sh s
  | .srai m gd ga sh => Sys2Proof.Machine.execSrai m gd ga sh s
  | .slt m gd ga gb => Sys2Proof.Machine.execSlt m gd ga gb s
  | .sltu m gd ga gb => Sys2Proof.Machine.execSltu m gd ga gb s
  | .min m gd ga gb => Sys2Proof.Machine.execMin m gd ga gb s
  | .max m gd ga gb => Sys2Proof.Machine.execMax m gd ga gb s
  | .minu m gd ga gb => Sys2Proof.Machine.execMinu m gd ga gb s
  | .maxu m gd ga gb => Sys2Proof.Machine.execMaxu m gd ga gb s
  | .mul m gd ga gb => Sys2Proof.Machine.execMul m gd ga gb s
  | .mulh m gd ga gb => Sys2Proof.Machine.execMulh m gd ga gb s
  | .mulhu m gd ga gb => Sys2Proof.Machine.execMulhu m gd ga gb s
  | .ctz m gd ga => Sys2Proof.Machine.execCtz m gd ga s
  | .clz m gd ga => Sys2Proof.Machine.execClz m gd ga s
  | .popc m gd ga => Sys2Proof.Machine.execPopc m gd ga s
  | .cmp m ga gb => Sys2Proof.Machine.execCmp m ga gb s
  | .tst m ga gb => Sys2Proof.Machine.execTst m ga gb s
  | .jr m ga => Sys2Proof.Machine.execJr m ga s
  | .jalr m gd ga => Sys2Proof.Machine.execJalr m gd ga s
  | .addi m gd ga imm => Sys2Proof.Machine.execAddi m gd ga imm s
  | .andi m gd ga imm => Sys2Proof.Machine.execAndi m gd ga imm s
  | .ori m gd ga imm => Sys2Proof.Machine.execOri m gd ga imm s
  | .xori m gd ga imm => Sys2Proof.Machine.execXori m gd ga imm s
  | .slti m gd ga imm => Sys2Proof.Machine.execSlti m gd ga imm s
  | .sltiu m gd ga imm => Sys2Proof.Machine.execSltiu m gd ga imm s
  | .lui m gd imm => Sys2Proof.Machine.execLui m gd imm s
  | .cmpi m ga imm => Sys2Proof.Machine.execCmpi m ga imm s
  | .ldw m gd ga off => Sys2Proof.Machine.execLdw m gd ga off s
  | .ldh m gd ga off => Sys2Proof.Machine.execLdh m gd ga off s
  | .ldhu m gd ga off => Sys2Proof.Machine.execLdhu m gd ga off s
  | .ldb m gd ga off => Sys2Proof.Machine.execLdb m gd ga off s
  | .ldbu m gd ga off => Sys2Proof.Machine.execLdbu m gd ga off s
  | .stw m gs ga off => Sys2Proof.Machine.execStw m gs ga off s
  | .sth m gs ga off => Sys2Proof.Machine.execSth m gs ga off s
  | .stb m gs ga off => Sys2Proof.Machine.execStb m gs ga off s
  | .vld m vd ga off => Sys2Proof.Machine.execVld m vd ga off s
  | .vst m vs ga off => Sys2Proof.Machine.execVst m vs ga off s
  | .rld m gd ga off => Sys2Proof.Machine.execRld m gd ga off s
  | .bCond m cond off => Sys2Proof.Machine.execBCond m cond off s
  | .bl m off => Sys2Proof.Machine.execBl m off s
  | .vadd m vd va vb => Sys2Proof.Machine.execVadd m vd va vb s
  | .vsub m vd va vb => Sys2Proof.Machine.execVsub m vd va vb s
  | .vadds m vd va vb => Sys2Proof.Machine.execVadds m vd va vb s
  | .vsubs m vd va vb => Sys2Proof.Machine.execVsubs m vd va vb s
  | .vmul m vd va vb => Sys2Proof.Machine.execVmul m vd va vb s
  | .vmulq m vd va vb => Sys2Proof.Machine.execVmulq m vd va vb s
  | .vmin m vd va vb => Sys2Proof.Machine.execVmin m vd va vb s
  | .vmax m vd va vb => Sys2Proof.Machine.execVmax m vd va vb s
  | .vand m vd va vb => Sys2Proof.Machine.execVand m vd va vb s
  | .vor m vd va vb => Sys2Proof.Machine.execVor m vd va vb s
  | .vxor m vd va vb => Sys2Proof.Machine.execVxor m vd va vb s
  | .vcgt m vd va vb => Sys2Proof.Machine.execVcgt m vd va vb s
  | .vceq m vd va vb => Sys2Proof.Machine.execVceq m vd va vb s
  | .vabs m vd va => Sys2Proof.Machine.execVabs m vd va s
  | .vpair m vd va => Sys2Proof.Machine.execVpair m vd va s
  | .vsat24 m vd va => Sys2Proof.Machine.execVsat24 m vd va s
  | .vmov m vd va => Sys2Proof.Machine.execVmov m vd va s
  | .vsplat m vd ga => Sys2Proof.Machine.execVsplat m vd ga s
  | .vext m gd va lane => Sys2Proof.Machine.execVext m gd va lane s
  | .vins m vd ga lane => Sys2Proof.Machine.execVins m vd ga lane s
  | .vmask m vd ga => Sys2Proof.Machine.execVmask m vd ga s
  | .vmovmsk m gd va => Sys2Proof.Machine.execVmovmsk m gd va s
  | .vredsum m gd va => Sys2Proof.Machine.execVredsum m gd va s
  | .vredmax m gd va => Sys2Proof.Machine.execVredmax m gd va s
  | .vredmin m gd va => Sys2Proof.Machine.execVredmin m gd va s
  | .vargmax m gd va => Sys2Proof.Machine.execVargmax m gd va s
  | .vslli m vd va sh => Sys2Proof.Machine.execVslli m vd va sh s
  | .vsrai m vd va sh => Sys2Proof.Machine.execVsrai m vd va sh s
  | .vsrli m vd va sh => Sys2Proof.Machine.execVsrli m vd va sh s
  | .vaddg m vd va ga => Sys2Proof.Machine.execVaddg m vd va ga s
  | .vcgtg m vd va ga => Sys2Proof.Machine.execVcgtg m vd va ga s
  | .course m gd vd => Sys2Proof.Machine.execCourse m gd vd s
  | .courseW m gd vd => Sys2Proof.Machine.execCourseW m gd vd s
  | .tget m gd => Sys2Proof.Machine.execTget m gd s
  | .tgetc m gd ga => Sys2Proof.Machine.execTgetc m gd ga s
  | .hopen m gd ga gb => Sys2Proof.Machine.execHopen m gd ga gb s
  | .hput m ga gb gc => Sys2Proof.Machine.execHput m ga gb gc s
  | .hclose m ga => Sys2Proof.Machine.execHclose m ga s
  | .mark m ga gb gc gd => Sys2Proof.Machine.execMark m ga gb gc gd s
  | .gap m ga gb gc => Sys2Proof.Machine.execGap m ga gb gc s
  | .pqget m gd ga => Sys2Proof.Machine.execPqget m gd ga s
  | .pqput m ga gb => Sys2Proof.Machine.execPqput m ga gb s
  | .pqputn m ga gb => Sys2Proof.Machine.execPqputn m ga gb s
  | .pqopen m ga gb => Sys2Proof.Machine.execPqopen m ga gb s
  | .pqclose m ga => Sys2Proof.Machine.execPqclose m ga s
  | .pqflush m ga => Sys2Proof.Machine.execPqflush m ga s
  | .pqcnt m gd ga => Sys2Proof.Machine.execPqcnt m gd ga s
  | .wait m gd ga src => Sys2Proof.Machine.execWait m gd ga src s
  | .evt m ga code => Sys2Proof.Machine.execEvt m ga code s
  | .trap m imm => Sys2Proof.Machine.execTrap m imm s
  | .rft m => Sys2Proof.Machine.execRft m s
  | .mff m gd => Sys2Proof.Machine.execMff m gd s
  | .mtf m ga => Sys2Proof.Machine.execMtf m ga s
  | .sprd m gd n => Sys2Proof.Machine.execSprd m gd n s
  | .sprw m ga n => Sys2Proof.Machine.execSprw m ga n s
  | .hodHandOn sid => Sys2Proof.Machine.execHodHandOn sid s
  | .yardFlushExpire sid => Sys2Proof.Machine.execYardFlushExpire sid s
  | .hodAdmit => Sys2Proof.Machine.execHodAdmit s
  | .streamHodTransmit p => Sys2Proof.Machine.execStreamHodTransmit p s
  | .horizon p ws => Sys2Proof.Machine.execHorizon p ws s
  | .rewind p ws => Sys2Proof.Machine.execRewind p ws s
  | .reserveHodWrite p sid => Sys2Proof.Machine.execReserveHodWrite p sid s
  | .drainEnd => Sys2Proof.Machine.execDrainEnd s
  | .yardScrub fixed uncorr => Sys2Proof.Machine.execYardScrub fixed uncorr s
  | .rsvUncorr => Sys2Proof.Machine.execRsvUncorr s
  | .yardSrefEnter => Sys2Proof.Machine.execYardSrefEnter s
  | .ringCfgWrite r p v => Sys2Proof.Machine.execRingCfgWrite r p v s
  | .pkCtlWrite r t v => Sys2Proof.Machine.execPkCtlWrite r t v s
  | .blockEnd e => Sys2Proof.Machine.execBlockEnd e s
  | .pcCtlWrite r e v => Sys2Proof.Machine.execPcCtlWrite r e v s
  | .pcMresWrite r e v => Sys2Proof.Machine.execPcMresWrite r e v s
  | .pxGo r v => Sys2Proof.Machine.execPxGo r v s
  | .pxJobEnd => Sys2Proof.Machine.execPxJobEnd s
  | .pressUncorr => Sys2Proof.Machine.execPressUncorr s
  | .quadCtlWrite r q v => Sys2Proof.Machine.execQuadCtlWrite r q v s
  | .portRetrain r q v => Sys2Proof.Machine.execPortRetrain r q v s
  | .detectDone n => Sys2Proof.Machine.execDetectDone n s
  | .trainingSet n ts => Sys2Proof.Machine.execTrainingSet n ts s
  | .orderDecide p first own => Sys2Proof.Machine.execOrderDecide p first own s
  | .trainTimeout n => Sys2Proof.Machine.execTrainTimeout n s
  | .backoffExpire p => Sys2Proof.Machine.execBackoffExpire p s
  | .eqConverged n ctle dfe => Sys2Proof.Machine.execEqConverged n ctle dfe s
  | .laneDown p cause => Sys2Proof.Machine.execLaneDown p cause s
  | .losChange n mv lol => Sys2Proof.Machine.execLosChange n mv lol s
  | .qpllLoss q refclk => Sys2Proof.Machine.execQpllLoss q refclk s
  | .codeError n l => Sys2Proof.Machine.execCodeError n l s
  | .groutSend n => Sys2Proof.Machine.execGroutSend n s
  | .groutReceive n g data fill => Sys2Proof.Machine.execGroutReceive n g data fill s
  | .ebSlip n => Sys2Proof.Machine.execEbSlip n s
  | .eqFreeze x => Sys2Proof.Machine.execEqFreeze x s
  | .laneCtlWrite r n v => Sys2Proof.Machine.execLaneCtlWrite r n v s
  | .prbsCtlWrite r q v => Sys2Proof.Machine.execPrbsCtlWrite r q v s
  | .inj1 r q v => Sys2Proof.Machine.execInj1 r q v s
  | .injb r q v => Sys2Proof.Machine.execInjb r q v s
  | .prbsLock x => Sys2Proof.Machine.execPrbsLock x s
  | .prbsLockLost q before last => Sys2Proof.Machine.execPrbsLockLost q before last s
  | .hodArrival p lines => Sys2Proof.Machine.execHodArrival p lines s
  | .link p nak seq l0 l1 l2 l3 => Sys2Proof.Machine.execLink p nak seq l0 l1 l2 l3 s
  | .linkHodSend p => Sys2Proof.Machine.execLinkHodSend p s
  | .replayTimeout p => Sys2Proof.Machine.execReplayTimeout p s
  | .linkSilent p => Sys2Proof.Machine.execLinkSilent p s
  | .read p tag ws => Sys2Proof.Machine.execRead p tag ws s
  | .write p tag ws => Sys2Proof.Machine.execWrite p tag ws s
  | .eventHodSend => Sys2Proof.Machine.execEventHodSend s
  | .linkCfgWrite r v => Sys2Proof.Machine.execLinkCfgWrite r v s
  | .tReqSend second t1 => Sys2Proof.Machine.execTReqSend second t1 s
  | .tReq p hid tsid t2 t3 => Sys2Proof.Machine.execTReq p hid tsid t2 t3 s
  | .tResp p tsid steps q t2 t3 t4 => Sys2Proof.Machine.execTResp p tsid steps q t2 t3 t4 s
  | .srcLost => Sys2Proof.Machine.execSrcLost s
  | .ttProbe r v t => Sys2Proof.Machine.execTtProbe r v t s
  | .tsqPop r p => Sys2Proof.Machine.execTsqPop r p s
  | .ttStepImmediate r v => Sys2Proof.Machine.execTtStepImmediate r v s
  | .ttStepNextSec r v => Sys2Proof.Machine.execTtStepNextSec r v s
  | .ttStepCancel r v => Sys2Proof.Machine.execTtStepCancel r v s
  | .forcedSlew r v => Sys2Proof.Machine.execForcedSlew r v s
  | .timeStep => Sys2Proof.Machine.execTimeStep s
  | .timeSrcWrite r v => Sys2Proof.Machine.execTimeSrcWrite r v s
  | .ttAsymWrite r second v => Sys2Proof.Machine.execTtAsymWrite r second v s
  | .ttCtlWrite r v => Sys2Proof.Machine.execTtCtlWrite r v s
  | .apply r arg vh => Sys2Proof.Machine.execApply r arg vh s
  | .reload r => Sys2Proof.Machine.execReload r s
  | .fwBlock r arg vh => Sys2Proof.Machine.execFwBlock r arg vh s
  | .fwCommit r arg vh => Sys2Proof.Machine.execFwCommit r arg vh s
  | .meterSample j edge tau => Sys2Proof.Machine.execMeterSample j edge tau s
  | .intervalEnd j vh => Sys2Proof.Machine.execIntervalEnd j vh s
  | .meterRecordPlace j => Sys2Proof.Machine.execMeterRecordPlace j s
  | .sealOpen => Sys2Proof.Machine.execSealOpen s
  | .sealClose => Sys2Proof.Machine.execSealClose s
  | .identityDone => Sys2Proof.Machine.execIdentityDone s
  | .csUncorr => Sys2Proof.Machine.execCsUncorr s
  | .mgpNop frame edges => Sys2Proof.Machine.execMgpNop frame edges s
  | .mgpRepeat frame edges => Sys2Proof.Machine.execMgpRepeat frame edges s
  | .mgpRead frame edges => Sys2Proof.Machine.execMgpRead frame edges s
  | .mgpWrite frame edges => Sys2Proof.Machine.execMgpWrite frame edges s
  | .mgpAccessDone => Sys2Proof.Machine.execMgpAccessDone s
  | .mgpResponseLoad => Sys2Proof.Machine.execMgpResponseLoad s
  | .modeOwnerWrite r v => Sys2Proof.Machine.execModeOwnerWrite r v s
  | .ownerForced r own => Sys2Proof.Machine.execOwnerForced r own s
  | .ownerReleased jtag => Sys2Proof.Machine.execOwnerReleased jtag s
  | .guardConversion k code => Sys2Proof.Machine.execGuardConversion k code s
  | .hkGo r v => Sys2Proof.Machine.execHkGo r v s
  | .hkPeriodTick => Sys2Proof.Machine.execHkPeriodTick s
  | .hkSeqEntry sum => Sys2Proof.Machine.execHkSeqEntry sum s
  | .hkRunEnd => Sys2Proof.Machine.execHkRunEnd s
  | .hkCtlWrite r v => Sys2Proof.Machine.execHkCtlWrite r v s
  | .por => Sys2Proof.Machine.execPor s
  | .bor x => Sys2Proof.Machine.execBor x s
  | .pin x => Sys2Proof.Machine.execPin x s
  | .wdogExpire x => Sys2Proof.Machine.execWdogExpire x s
  | .wdtKick r v => Sys2Proof.Machine.execWdtKick r v s
  | .soft r v n => Sys2Proof.Machine.execSoft r v n s
  | .debugReset n => Sys2Proof.Machine.execDebugReset n s
  | .clkf clock n => Sys2Proof.Machine.execClkf clock n s
  | .lockup x => Sys2Proof.Machine.execLockup x s
  | .nvBatchDone => Sys2Proof.Machine.execNvBatchDone s
  | .mainPowerGood => Sys2Proof.Machine.execMainPowerGood s
  | .optionLoad raw errA errB => Sys2Proof.Machine.execOptionLoad raw errA errB s
  | .readA r => Sys2Proof.Machine.execReadA r s
  | .readB r => Sys2Proof.Machine.execReadB r s
  | .writeA r vh => Sys2Proof.Machine.execWriteA r vh s
  | .writeB r vh => Sys2Proof.Machine.execWriteB r vh s
  | .nvCmd r v vh => Sys2Proof.Machine.execNvCmd r v vh s
  | .releaseStep vh => Sys2Proof.Machine.execReleaseStep vh s
  | .blkRst r v => Sys2Proof.Machine.execBlkRst r v s
  | .modeAcquire r => Sys2Proof.Machine.execModeAcquire r s
  | .modeHold r => Sys2Proof.Machine.execModeHold r s
  | .modeSafe r => Sys2Proof.Machine.execModeSafe r s
  | .modeDormant r nokiln discard => Sys2Proof.Machine.execModeDormant r nokiln discard s
  | .modeBringup r => Sys2Proof.Machine.execModeBringup r s
  | .safeEntry cause => Sys2Proof.Machine.execSafeEntry cause s
  | .alertCtlWrite r v => Sys2Proof.Machine.execAlertCtlWrite r v s
  | .trigioCtlWrite r k v => Sys2Proof.Machine.execTrigioCtlWrite r k v s
  | .segmentEnd run fault patterns map => Sys2Proof.Machine.execSegmentEnd run fault patterns map s
  | .kilnDone vh => Sys2Proof.Machine.execKilnDone vh s
  | .kilnGo r v => Sys2Proof.Machine.execKilnGo r v s
  | .intscan => Sys2Proof.Machine.execIntscan s
  | .dbgReset n => Sys2Proof.Machine.execDbgReset n s
  | .extest seen set_ => Sys2Proof.Machine.execExtest seen set_ s
  | .samplePreload seen set_ => Sys2Proof.Machine.execSamplePreload seen set_ s
  | .idcode => Sys2Proof.Machine.execIdcode s
  | .clamp => Sys2Proof.Machine.execClamp s
  | .highz => Sys2Proof.Machine.execHighz s
  | .extestPulse seen set_ => Sys2Proof.Machine.execExtestPulse seen set_ s
  | .extestTrain seen set_ => Sys2Proof.Machine.execExtestTrain seen set_ s
  | .bypass => Sys2Proof.Machine.execBypass s
  | .logClear r v => Sys2Proof.Machine.execLogClear r v s
  | .quadPllLock q => Sys2Proof.Machine.execQuadPllLock q s
  | .vddAonPowerOn => Sys2Proof.Machine.execVddAonPowerOn s
  | .rstNHigh => Sys2Proof.Machine.execRstNHigh s
  | .vddCstLoss => Sys2Proof.Machine.execVddCstLoss s
  | .vddCstReturn => Sys2Proof.Machine.execVddCstReturn s
  | .vbatLoss => Sys2Proof.Machine.execVbatLoss s
  | .mainPowerLoss => Sys2Proof.Machine.execMainPowerLoss s

end Sys2Proof.Machine
end

