-- ==== Sys2Proof/Machine/Tick.lean ====
section
/-!
DEFINITION. What passes when no command waits: one SYS cycle of 4 ns (R80, R102, R219, R335; notes/assumptions/6.md).
-/

namespace Sys2Proof.Machine

/-- SYS runs: from the seed of a release until the hub goes dormant (R83, R84). -/
def State.sysRunning (s : State) : Bool := s.alive && s.mode != 0 && s.b F.TIME_STAT_SEEDED && (s.rel == 0 || decide (4 ≤ s.rel))

/-- One SYS cycle, with the press's scan in it; while the scan chains are connected nothing moves (R298, R476). -/
def State.tick (s : State) : State :=
  if s.scan then s
  else
    let s1 := s.passRtc 1
    if s1.sysRunning then (s1.passSys 1).pxScanned else s1

end Sys2Proof.Machine
end

