-- ==== Sys2Proof/Safety.lean ====
section
/-!
DEFINITION. What claims call a safe step and a well-formed hub.
-/

namespace Sys2Proof.Machine

/-- A step that neither faults nor is refused. -/
def Safe (s : State) : Prop := ∃ t, step s = .next t

/-- The canonical form of the memories: addresses strictly rising, and no entry equal to what an unlisted address reads as. -/
abbrev State.memWf (s : State) : Prop := Tab.wf (fun _ => (0 : Byte)) s.mem = true ∧ Tab.wf (fun _ => (0xFF : Byte)) s.nvm = true

/-- The canonical form of the register table. -/
abbrev State.regsWf (s : State) : Prop := Tab.wf resetWord s.regs = true

/-- The canonical form of every table that claims are stated over: the registers, the memories and the shadows. -/
abbrev State.Canon (s : State) : Prop := s.regsWf ∧ s.memWf ∧ Tab.wf (fun _ => (0 : Word)) s.shadows = true

/-- Mason `m` of a running hub stands at exactly the word `w` and issues it. -/
def State.issues (s : State) (m : Fin 16) (w : Word) : Prop := s.alive = true ∧ s.fetches m w = true

/-- The state after mason `m` has retired an instruction that leaves it as `x`: the next word follows, and MC_INSTR counts. -/
def State.retiredAs (s : State) (m : Fin 16) (x : Mason) : State := (s.setMason m x).retire m ((s.mason m).pc + 4)

/-- A running hub takes a requester's write of the register at `a`: the address map lets it, and its block is under no test. -/
def State.takes (s : State) (r : Req) (a : Nat) : Prop := s.alive = true ∧ s.mapStop r a true = none ∧ s.underTest a = false

/-- The address of a register whose read does no more than its row of the register tables says: no memory word, no trouble-log entry's first word, no
PQ_POP and TT_TSQ, whose reads take an entry, no TRIGIO_CTL and MC_PC, which show what stands outside the registers. -/
def plainReg (a : Nat) : Prop :=
  (a < 0x400000 ∧ ¬ (0x78000 ≤ a ∧ a < 0x80000 ∧ a % 32 = 0) ∧ ¬ (0xC0000 ≤ a ∧ a < 0xC1000 ∧ a % 0x40 = 4) ∧
    ¬ (0x20300 ≤ a ∧ a < 0x20400 ∧ a % 16 = 0) ∧ ¬ (0x40 ≤ a ∧ a < 0x50)) ∨
  (0x400000 ≤ a ∧ a < 0x20000000 ∧ 0x30000 ≤ a % 0x40000 ∧ a % 0x40000 ≠ 0x30030)

end Sys2Proof.Machine
end

