-- ==== Sys2Proof/Certificates/Slice0/Obligations.lean ====
section
/-!
DEFINITION. The statements for the provers. Each is a `def Obligations.<Name> : Prop`; OBLIGATIONS.json says what each one claims and which rules
of spec/ it rests on.
-/

section

open Sys2Proof Sys2Proof.Machine

/-- For every command and state, a step of the state with the command at the front of its queue is exec of the command on the state with the rest of
the queue. (95_what_each_step_holds.md) -/
def Obligations.StepRunsTheFrontCommand : Prop :=
  ∀ (c : Instr) (cs : List Instr) (s : State), step { s with pending := c :: cs } = exec c { s with pending := cs }

/-- On an empty queue a step answers a next state. While the scan chains are connected nothing changes in it; while SYS runs, ST has advanced by 4
ns; while SYS does not run, ST stands. That a step without a command is one SYS cycle is the model's own choice (notes/assumptions/6.md). (R80,
R84, R476) -/
def Obligations.EmptyQueuePassesOneSysCycle : Prop :=
  ∀ s : State, s.pending = [] →
    ∃ t, step s = .next t ∧ t.pending = [] ∧ (s.scan = true → t = s) ∧
      (s.scan = false → s.sysRunning = true → t.st = (s.st + 4 * 65536) % (2 ^ 48 * secU)) ∧ (s.sysRunning = false → t.st = s.st)

/-- Every command answers a next state in every state, whose queue is the queue it was given. That an event which cannot come in a state still
answers a next state, one in which nothing has changed, is the model's own choice (notes/assumptions/8.md). (95_what_each_step_holds.md) -/
def Obligations.EveryCommandCompletesAndLeavesTheQueue : Prop :=
  ∀ (c : Instr) (s : State), ∃ t, exec c s = .next t ∧ t.pending = s.pending

/-- From every state whose tables are canonical (keys strictly rising, no entry equal to what an unlisted key reads as), a step answers a state whose
tables are canonical, whatever command stands at the front of the queue, so that equal contents stay equal data. Listing no entry for a reset
value is the model's own form of the state. (R31, R106, R184, R446) -/
def Obligations.EveryStepKeepsTheTablesCanonical : Prop :=
  ∀ s t : State, s.regsWf → s.memWf → Tab.wf (fun _ => (0 : Word)) s.shadows = true → step s = .next t →
    t.regsWf ∧ t.memWf ∧ Tab.wf (fun _ => (0 : Word)) t.shadows = true

/-- Right after reset the tables are canonical, no command waits, every register reads its reset value, the hub is in BRINGUP with the release
waiting for main power, ST and the RTC are zero. The values that depend on the option record are those of a blank part (notes/assumptions/2.md);
those of the registers for which the spec gives none, and of the model's other fields, are the model's own choices (notes/assumptions/7.md and
notes/assumptions/10.md). (R436, R437, R453, R454) -/
def Obligations.ResetIsCanonicalAndHasReleasePending : Prop :=
  State.reset.regsWf ∧ State.reset.memWf ∧ Tab.wf (fun _ => (0 : Word)) State.reset.shadows = true ∧ State.reset.pending = [] ∧
    (∀ a, State.reset.w a = resetWord a) ∧ State.reset.mode = 1 ∧ State.reset.rel = 1 ∧ State.reset.st = 0 ∧ State.reset.rtc = 0 ∧ State.reset.alive = true

/-- A mason that issues a G3 instruction retires it: gd holds the result the table of R230 gives (g0 discards it), the next word follows, MC_INSTR
counts, and nothing else of the hub changes. Shifts by a register use its value mod 32. (R222, R223, R227, R230) -/
def Obligations.ScalarInstructionsWriteTheirResult : Prop :=
  ∀ (s : State) (m : Fin 16) (gd ga gb : Fin 32),
    let x := s.mason m
    let a := x.get ga
    let b := x.get gb
    let writes (v : Word) : Host.Outcome State Fault Refusal := .next (s.retiredAs m (x.put gd v))
    (s.issues m (encG3 0x0 gd ga gb 0) → exec (.add m gd ga gb) s = writes (a + b)) ∧
    (s.issues m (encG3 0x1 gd ga gb 0) → exec (.sub m gd ga gb) s = writes (a - b)) ∧
    (s.issues m (encG3 0x2 gd ga gb 0) → exec (.and m gd ga gb) s = writes (a &&& b)) ∧
    (s.issues m (encG3 0x3 gd ga gb 0) → exec (.or m gd ga gb) s = writes (a ||| b)) ∧
    (s.issues m (encG3 0x4 gd ga gb 0) → exec (.xor m gd ga gb) s = writes (a ^^^ b)) ∧
    (s.issues m (encG3 0x5 gd ga gb 0) → exec (.sll m gd ga gb) s = writes (a <<< (b.toNat % 32))) ∧
    (s.issues m (encG3 0x6 gd ga gb 0) → exec (.srl m gd ga gb) s = writes (a >>> (b.toNat % 32))) ∧
    (s.issues m (encG3 0x7 gd ga gb 0) → exec (.sra m gd ga gb) s = writes (a.sshiftRight (b.toNat % 32))) ∧
    (s.issues m (encG3 0xb gd ga gb 0) → exec (.slt m gd ga gb) s = writes (if a.toInt < b.toInt then 1 else 0)) ∧
    (s.issues m (encG3 0xc gd ga gb 0) → exec (.sltu m gd ga gb) s = writes (if a.toNat < b.toNat then 1 else 0)) ∧
    (s.issues m (encG3 0xd gd ga gb 0) → exec (.min m gd ga gb) s = writes (if a.toInt < b.toInt then a else b)) ∧
    (s.issues m (encG3 0xe gd ga gb 0) → exec (.max m gd ga gb) s = writes (if a.toInt < b.toInt then b else a)) ∧
    (s.issues m (encG3 0xf gd ga gb 0) → exec (.minu m gd ga gb) s = writes (if a.toNat < b.toNat then a else b)) ∧
    (s.issues m (encG3 0x10 gd ga gb 0) → exec (.mul m gd ga gb) s = writes (a * b)) ∧
    (s.issues m (encG3 0x11 gd ga gb 0) → exec (.mulh m gd ga gb) s = writes (BitVec.ofInt 32 (a.toInt * b.toInt / 2 ^ 32))) ∧
    (s.issues m (encG3 0x12 gd ga gb 0) → exec (.mulhu m gd ga gb) s = writes (BitVec.ofNat 32 (a.toNat * b.toNat / 2 ^ 32))) ∧
    (s.issues m (encG3 0x13 gd ga gb 0) → exec (.maxu m gd ga gb) s = writes (if a.toNat < b.toNat then b else a)) ∧
    (∀ sh : Fin 32, s.issues m (encG3 0x8 gd ga 0 sh) → exec (.slli m gd ga sh) s = writes (a <<< sh.val)) ∧
    (∀ sh : Fin 32, s.issues m (encG3 0x9 gd ga 0 sh) → exec (.srli m gd ga sh) s = writes (a >>> sh.val)) ∧
    (∀ sh : Fin 32, s.issues m (encG3 0xa gd ga 0 sh) → exec (.srai m gd ga sh) s = writes (a.sshiftRight sh.val)) ∧
    (s.issues m (encG3 0x14 gd ga 0 0) → exec (.ctz m gd ga) s = writes (BitVec.ofNat 32 (trailing a))) ∧
    (s.issues m (encG3 0x15 gd ga 0 0) → exec (.clz m gd ga) s = writes (BitVec.ofNat 32 (leading a))) ∧
    (s.issues m (encG3 0x16 gd ga 0 0) → exec (.popc m gd ga) s = writes (BitVec.ofNat 32 (ones a)))

/-- cmp and cmpi form r = a - b and set Z where r is zero, N to bit 31 of r, C where a >= b unsigned, V where the signed difference overflows; tst
sets Z and N from a AND b and clears C and V. The other bits of FL and all registers stay. (R224, R230, R231, R232) -/
def Obligations.CompareAndTestSetTheFlags : Prop :=
  ∀ (s : State) (m : Fin 16) (ga gb : Fin 32) (imm : BitVec 16),
    let x := s.mason m
    let a := x.get ga
    let b := x.get gb
    let i : Word := imm.signExtend 32
    let sets (z n c v : Bool) : Host.Outcome State Fault Refusal :=
      .next (s.retiredAs m { x with fl := putBits x.fl 3 0 (b2n z + 2 * b2n n + 4 * b2n c + 8 * b2n v) })
    let ovf (p q : Word) : Bool := decide (p.toInt - q.toInt < -(2 ^ 31)) || decide (2 ^ 31 - 1 < p.toInt - q.toInt)
    (s.issues m (encG3 0x18 0 ga gb 0) → exec (.cmp m ga gb) s = sets (a - b == 0) (a - b).msb (decide (b.toNat ≤ a.toNat)) (ovf a b)) ∧
    (s.issues m (encG3 0x19 0 ga gb 0) → exec (.tst m ga gb) s = sets (a &&& b == 0) (a &&& b).msb false false) ∧
    (s.issues m (encGI 8 0 ga imm.toNat) → exec (.cmpi m ga imm) s = sets (a - i == 0) (a - i).msb (decide (i.toNat ≤ a.toNat)) (ovf a i))

/-- A mason that issues a GI instruction retires it with gd holding the result of R231; addi, slti and sltiu extend the immediate by its sign, andi,
ori and xori by zeros, lui puts it into the upper half. (R223, R227, R231) -/
def Obligations.ImmediateInstructionsWriteTheirResult : Prop :=
  ∀ (s : State) (m : Fin 16) (gd ga : Fin 32) (imm : BitVec 16),
    let x := s.mason m
    let a := x.get ga
    let s16 : Word := imm.signExtend 32
    let z16 : Word := imm.zeroExtend 32
    let writes (v : Word) : Host.Outcome State Fault Refusal := .next (s.retiredAs m (x.put gd v))
    (s.issues m (encGI 1 gd ga imm.toNat) → exec (.addi m gd ga imm) s = writes (a + s16)) ∧
    (s.issues m (encGI 2 gd ga imm.toNat) → exec (.andi m gd ga imm) s = writes (a &&& z16)) ∧
    (s.issues m (encGI 3 gd ga imm.toNat) → exec (.ori m gd ga imm) s = writes (a ||| z16)) ∧
    (s.issues m (encGI 4 gd ga imm.toNat) → exec (.xori m gd ga imm) s = writes (a ^^^ z16)) ∧
    (s.issues m (encGI 5 gd ga imm.toNat) → exec (.slti m gd ga imm) s = writes (if a.toInt < s16.toInt then 1 else 0)) ∧
    (s.issues m (encGI 6 gd ga imm.toNat) → exec (.sltiu m gd ga imm) s = writes (if a.toNat < s16.toNat then 1 else 0)) ∧
    (s.issues m (encGI 7 gd 0 imm.toNat) → exec (.lui m gd imm) s = writes (BitVec.ofNat 32 (imm.toNat * 65536)))

/-- A load whose address ga + sext(OFF16) is aligned, lies inside the 131,072 bytes of DMEM and meets no word in error writes gd (or the sixteen
lanes of vd) with the bytes there, least significant first, extended by sign or by zeros. A load whose address is not a multiple of its alignment
traps with ALIGN, one that is aligned and reaches a byte outside DMEM with DADDR, and one that meets a word with an uncorrectable error with ECC;
TVAL is the address. (R3, R184, R200, R233) -/
def Obligations.LoadsReadLittleEndianDataMemory : Prop :=
  ∀ (s : State) (m : Fin 16) (gd ga : Fin 32) (off : BitVec 16),
    let x := s.mason m
    let a := (x.get ga + off.signExtend 32).toNat
    let at_ (i : Nat) : Nat := (s.byte (dmem m + a + i)).toNat
    let fits (n align : Nat) : Prop := a % align = 0 ∧ a + n ≤ 131072 ∧ s.badRange (dmem m + a) n = false
    let traps (n align : Nat) (o : Host.Outcome State Fault Refusal) : Prop :=
      (a % align ≠ 0 → o = .next (s.trap m 3 a)) ∧ (a % align = 0 → 131072 < a + n → o = .next (s.trap m 2 a)) ∧
      (a % align = 0 → a + n ≤ 131072 → s.badRange (dmem m + a) n = true → o = .next (s.trap m 5 a))
    let writes (v : Word) : Host.Outcome State Fault Refusal := .next (s.retiredAs m (x.put gd v))
    (s.issues m (encGI 0x10 gd ga off.toNat) → fits 4 4 → exec (.ldw m gd ga off) s = writes (BitVec.ofNat 32 (at_ 0 + 256 * at_ 1 + 65536 * at_ 2 + 16777216 * at_ 3))) ∧
    (s.issues m (encGI 0x11 gd ga off.toNat) → fits 2 2 → exec (.ldh m gd ga off) s = writes (BitVec.ofInt 32 (sx 16 (at_ 0 + 256 * at_ 1)))) ∧
    (s.issues m (encGI 0x12 gd ga off.toNat) → fits 2 2 → exec (.ldhu m gd ga off) s = writes (BitVec.ofNat 32 (at_ 0 + 256 * at_ 1))) ∧
    (s.issues m (encGI 0x13 gd ga off.toNat) → fits 1 1 → exec (.ldb m gd ga off) s = writes (BitVec.ofInt 32 (sx 8 (at_ 0)))) ∧
    (s.issues m (encGI 0x14 gd ga off.toNat) → fits 1 1 → exec (.ldbu m gd ga off) s = writes (BitVec.ofNat 32 (at_ 0))) ∧
    (∀ vd : Fin 8, s.issues m (encGI 0x18 vd ga off.toNat) → fits 64 4 → exec (.vld m vd ga off) s = .next (s.retiredAs m (x.setVec vd (s.dwords m a 16)))) ∧
    (s.issues m (encGI 0x10 gd ga off.toNat) → traps 4 4 (exec (.ldw m gd ga off) s)) ∧
    (s.issues m (encGI 0x11 gd ga off.toNat) → traps 2 2 (exec (.ldh m gd ga off) s)) ∧
    (s.issues m (encGI 0x12 gd ga off.toNat) → traps 2 2 (exec (.ldhu m gd ga off) s)) ∧
    (s.issues m (encGI 0x13 gd ga off.toNat) → traps 1 1 (exec (.ldb m gd ga off) s)) ∧
    (s.issues m (encGI 0x14 gd ga off.toNat) → traps 1 1 (exec (.ldbu m gd ga off) s)) ∧
    (∀ vd : Fin 8, s.issues m (encGI 0x18 vd ga off.toNat) → traps 64 4 (exec (.vld m vd ga off) s))

/-- A store whose address ga + sext(OFF16) is aligned and lies inside DMEM puts the low bytes of gs there, least significant first. Every byte
outside them reads as before, and of the mason only PC moves on by 4. A store whose address is not a multiple of its alignment traps with ALIGN,
and one that is aligned and reaches a byte outside DMEM with DADDR; TVAL is the address. (R3, R184, R200, R223, R233) -/
def Obligations.StoresWriteLittleEndianDataMemory : Prop :=
  ∀ (s : State) (m : Fin 16) (gs ga : Fin 32) (off : BitVec 16),
    let x := s.mason m
    let a := (x.get ga + off.signExtend 32).toNat
    let stored (n : Nat) (t : State) : Prop :=
      (∀ i, i < n → (t.byte (dmem m + a + i)).toNat = (x.get gs).toNat / 256 ^ i % 256) ∧
      (∀ b, b < dmem m + a ∨ dmem m + a + n ≤ b → t.byte b = s.byte b) ∧ t.mason m = { x with pc := x.pc + 4 } ∧ t.nvm = s.nvm
    let traps (n : Nat) (o : Host.Outcome State Fault Refusal) : Prop :=
      (a % n ≠ 0 → o = .next (s.trap m 3 a)) ∧ (a % n = 0 → 131072 < a + n → o = .next (s.trap m 2 a))
    (s.issues m (encGI 0x15 gs ga off.toNat) → a % 4 = 0 → a + 4 ≤ 131072 →
      ∃ t, exec (.stw m gs ga off) s = .next t ∧ stored 4 t) ∧
    (s.issues m (encGI 0x16 gs ga off.toNat) → a % 2 = 0 → a + 2 ≤ 131072 →
      ∃ t, exec (.sth m gs ga off) s = .next t ∧ stored 2 t) ∧
    (s.issues m (encGI 0x17 gs ga off.toNat) → a % 1 = 0 → a + 1 ≤ 131072 →
      ∃ t, exec (.stb m gs ga off) s = .next t ∧ stored 1 t) ∧
    (s.issues m (encGI 0x15 gs ga off.toNat) → traps 4 (exec (.stw m gs ga off) s)) ∧
    (s.issues m (encGI 0x16 gs ga off.toNat) → traps 2 (exec (.sth m gs ga off) s)) ∧
    (s.issues m (encGI 0x17 gs ga off.toNat) → traps 1 (exec (.stb m gs ga off) s))

/-- vst stores the sixteen lanes of vs as consecutive words of DMEM; an address that is not a multiple of 4 traps with ALIGN, and an aligned one
whose 64 bytes reach outside DMEM with DADDR.  rld reads the word of the register space at ga + sext(OFF16) with the access of a mason and writes
gd; an access that the map refuses, a misaligned one among them, traps with REGLOAD (that a misaligned one traps with REGLOAD and not with ALIGN
is the model's reading, notes/assumptions/93.md). (R31, R184, R200, R233, R234) -/
def Obligations.VectorMemoryAndRegisterLoad : Prop :=
  ∀ (s : State) (m : Fin 16) (gd ga : Fin 32) (vs : Fin 8) (off : BitVec 16),
    let x := s.mason m
    let a := (x.get ga + off.signExtend 32).toNat
    let rd := s.readReg (.mason m) a false
    (s.issues m (encGI 0x19 vs ga off.toNat) → a % 4 = 0 → a + 64 ≤ 131072 →
      exec (.vst m vs ga off) s = .next ((s.dstores m a (x.vec vs)).retire m (x.pc + 4))) ∧
    (s.issues m (encGI 0x19 vs ga off.toNat) → a % 4 ≠ 0 → exec (.vst m vs ga off) s = .next (s.trap m 3 a)) ∧
    (s.issues m (encGI 0x19 vs ga off.toNat) → a % 4 = 0 → 131072 < a + 64 → exec (.vst m vs ga off) s = .next (s.trap m 2 a)) ∧
    (s.issues m (encGI 0x1A gd ga off.toNat) → s.mapStop (.mason m) a false = none →
      exec (.rld m gd ga off) s =
        .next (({ rd.1 with cpl := s.cpl }.setMason m ((rd.1.mason m).put gd rd.2)).retire m (x.pc + 4))) ∧
    (s.issues m (encGI 0x1A gd ga off.toNat) → s.mapStop (.mason m) a false ≠ none → exec (.rld m gd ga off) s = .next (s.trap m 4 a))

/-- A transfer to a multiple of 4 inside IMEM puts PC there; jalr and bl write the address of the next instruction to gd and to g31, jalr after it
has read ga; a branch whose condition does not hold goes on with the next word. (R222, R230, R235, R236) -/
def Obligations.TransfersOfControl : Prop :=
  ∀ (s : State) (m : Fin 16) (gd ga : Fin 32) (cond : BitVec 5) (off : BitVec 21),
    let x := s.mason m
    let g := (x.get ga).toNat
    let link : Word := BitVec.ofNat 32 (x.pc + 4)
    let dest := (BitVec.ofNat 32 x.pc + off.signExtend 32 * 4).toNat
    let inside (n : Nat) : Prop := n % 4 = 0 ∧ n < 65536
    (s.issues m (encG3 0x1C 0 ga 0 0) → inside g → exec (.jr m ga) s = .next (s.retire m g)) ∧
    (s.issues m (encG3 0x1D gd ga 0 0) → inside g → exec (.jalr m gd ga) s = .next ((s.setMason m (x.put gd link)).retire m g)) ∧
    (s.issues m (encBR 0x20 cond.toNat off.toNat) → x.cond cond.toNat = some true → inside dest → exec (.bCond m cond off) s = .next (s.retire m dest)) ∧
    (s.issues m (encBR 0x20 cond.toNat off.toNat) → x.cond cond.toNat = some false →
      exec (.bCond m cond off) s = .next (s.retire m (x.pc + 4))) ∧
    (s.issues m (encBR 0x21 0 off.toNat) → inside dest → exec (.bl m off) s = .next ((s.setMason m (x.put 31 link)).retire m dest))

/-- The conditions 0 to 11 of b.cond are those of R235 over Z, N, C, V, F and Q; a b.cond with any other COND is no instruction and traps with
ILLEGAL, the instruction word in TVAL. A jr, a jalr, a bl or a b.cond whose condition holds traps where its target is not a multiple of 4, with
ALIGN, or is 65,536 or more, with FETCH; TVAL is the target, and neither gd nor g31 is written. The target of b.cond and bl is PC plus four times
the signed displacement, modulo 2^32. (R200, R224, R230, R235, R236, R248) -/
def Obligations.BranchConditionsAndBadTargets : Prop :=
  (∀ x : Mason,
    let z := x.flag 0
    let n := x.flag 1
    let c := x.flag 2
    let v := x.flag 3
    ∀ k b, (k, b) ∈ [(0, true), (1, z), (2, !z), (3, n != v), (4, n == v), (5, !c), (6, c), (7, !z && n == v), (8, z || n != v),
      (9, x.flag 4), (10, !x.flag 4), (11, x.flag 5)] → x.cond k = some b) ∧
  ∀ (s : State) (m : Fin 16) (gd ga : Fin 32) (cond : BitVec 5) (off : BitVec 21),
    let x := s.mason m
    let g := (x.get ga).toNat
    let dest := (BitVec.ofNat 32 x.pc + off.signExtend 32 * 4).toNat
    let bad (n : Nat) (o : Host.Outcome State Fault Refusal) : Prop :=
      (n % 4 ≠ 0 → o = .next (s.trap m 3 n)) ∧ (n % 4 = 0 → 65536 ≤ n → o = .next (s.trap m 1 n))
    (s.issues m (encG3 0x1C 0 ga 0 0) → bad g (exec (.jr m ga) s)) ∧
    (s.issues m (encG3 0x1D gd ga 0 0) → bad g (exec (.jalr m gd ga) s)) ∧
    (s.issues m (encBR 0x20 cond.toNat off.toNat) → x.cond cond.toNat = some true → bad dest (exec (.bCond m cond off) s)) ∧
    (s.issues m (encBR 0x20 cond.toNat off.toNat) → 12 ≤ cond.toNat →
      exec (.bCond m cond off) s = .next (s.trap m 0 (encBR 0x20 cond.toNat off.toNat).toNat)) ∧
    (s.issues m (encBR 0x21 0 off.toNat) → bad dest (exec (.bl m off) s))

/-- A wrapping V3 instruction, vpair, vmov or a vector shift writes each lane of vd from the same lane of its sources as R238 and R239 say (vpair
exchanges the lanes of each pair); FL stays. (R223, R227, R237, R238, R239) -/
def Obligations.VectorInstructionsWriteTheirLanes : Prop :=
  ∀ (s : State) (m : Fin 16) (vd va vb : Fin 8),
    let x := s.mason m
    let writes (vs : List Word) : Host.Outcome State Fault Refusal := .next (s.retiredAs m (x.setVec vd vs))
    (s.issues m (encV3 0x0 vd va vb) → exec (.vadd m vd va vb) s = writes (List.zipWith (fun a b => a + b) (x.vec va) (x.vec vb))) ∧
    (s.issues m (encV3 0x1 vd va vb) → exec (.vsub m vd va vb) s = writes (List.zipWith (fun a b => a - b) (x.vec va) (x.vec vb))) ∧
    (s.issues m (encV3 0x4 vd va vb) → exec (.vmul m vd va vb) s = writes (List.zipWith (fun a b => a * b) (x.vec va) (x.vec vb))) ∧
    (s.issues m (encV3 0x6 vd va vb) → exec (.vmin m vd va vb) s = writes (List.zipWith (fun a b => if a.toInt < b.toInt then a else b) (x.vec va) (x.vec vb))) ∧
    (s.issues m (encV3 0x7 vd va vb) → exec (.vmax m vd va vb) s = writes (List.zipWith (fun a b => if a.toInt < b.toInt then b else a) (x.vec va) (x.vec vb))) ∧
    (s.issues m (encV3 0x8 vd va vb) → exec (.vand m vd va vb) s = writes (List.zipWith (fun a b => a &&& b) (x.vec va) (x.vec vb))) ∧
    (s.issues m (encV3 0x9 vd va vb) → exec (.vor m vd va vb) s = writes (List.zipWith (fun a b => a ||| b) (x.vec va) (x.vec vb))) ∧
    (s.issues m (encV3 0xa vd va vb) → exec (.vxor m vd va vb) s = writes (List.zipWith (fun a b => a ^^^ b) (x.vec va) (x.vec vb))) ∧
    (s.issues m (encV3 0xb vd va vb) → exec (.vcgt m vd va vb) s = writes (List.zipWith (fun a b => if b.toInt < a.toInt then BitVec.allOnes 32 else 0) (x.vec va) (x.vec vb))) ∧
    (s.issues m (encV3 0xc vd va vb) → exec (.vceq m vd va vb) s = writes (List.zipWith (fun a b => if a = b then BitVec.allOnes 32 else 0) (x.vec va) (x.vec vb))) ∧
    (s.issues m (encV3 0xE vd va 0) → exec (.vpair m vd va) s = writes ((range' 0 16).map fun i => x.lane va (if i % 2 = 0 then i + 1 else i - 1))) ∧
    (s.issues m (encV3 0x10 vd va 0) → exec (.vmov m vd va) s = writes (x.vec va)) ∧
    (∀ sh : Fin 32, s.issues m (encVS 0x9 vd va 0 sh) → exec (.vslli m vd va sh) s = writes ((x.vec va).map fun a : Word => a <<< sh.val)) ∧
    (∀ sh : Fin 32, s.issues m (encVS 0xa vd va 0 sh) → exec (.vsrai m vd va sh) s = writes ((x.vec va).map fun a : Word => a.sshiftRight sh.val)) ∧
    (∀ sh : Fin 32, s.issues m (encVS 0xb vd va 0 sh) → exec (.vsrli m vd va sh) s = writes ((x.vec va).map fun a : Word => a >>> sh.val))

/-- vadds, vsubs, vmulq, vabs, vsat24 and vredsum compute exactly, clamp to 32 bits (vsat24 to 24) and set Q where a value was clamped; where none
was, Q stays. (R224, R237, R238, R239) -/
def Obligations.SaturatingVectorInstructions : Prop :=
  ∀ (s : State) (m : Fin 16) (vd va vb : Fin 8),
    let x := s.mason m
    let clamps (w : Nat) (es : List Int) : Host.Outcome State Fault Refusal :=
      .next (s.retiredAs m ((x.setVec vd (es.map fun e => BitVec.ofInt 32 (satS w e))).saturated (es.any fun e => satS w e != e)))
    (s.issues m (encV3 0x2 vd va vb) → exec (.vadds m vd va vb) s = clamps 32 (List.zipWith (fun a b => a.toInt + b.toInt) (x.vec va) (x.vec vb))) ∧
    (s.issues m (encV3 0x3 vd va vb) → exec (.vsubs m vd va vb) s = clamps 32 (List.zipWith (fun a b => a.toInt - b.toInt) (x.vec va) (x.vec vb))) ∧
    (s.issues m (encV3 0x5 vd va vb) → exec (.vmulq m vd va vb) s = clamps 32 (List.zipWith (fun a b => divEven (a.toInt * b.toInt) (2 ^ 23)) (x.vec va) (x.vec vb))) ∧
    (s.issues m (encV3 0xD vd va 0) → exec (.vabs m vd va) s = clamps 32 ((x.vec va).map fun a => |a.toInt|)) ∧
    (s.issues m (encV3 0xF vd va 0) → exec (.vsat24 m vd va) s = clamps 24 ((x.vec va).map fun a => a.toInt)) ∧
    (∀ gd : Fin 32, s.issues m (encVS 0x5 0 va gd 0) →
      let e := ((x.vec va).map fun a => a.toInt).sum
      exec (.vredsum m gd va) s = .next (s.retiredAs m ((x.put gd (BitVec.ofInt 32 (satS 32 e))).saturated (satS 32 e != e))))

/-- vsplat, vext, vins, vmask, vmovmsk, the reductions, vargmax (the lowest lane that holds the greatest), vaddg and vcgtg write what R239 says.
(R223, R227, R239) -/
def Obligations.VectorScalarInstructions : Prop :=
  ∀ (s : State) (m : Fin 16) (vd va : Fin 8) (gd ga : Fin 32) (lane : Fin 16),
    let x := s.mason m
    let next (y : Mason) : Host.Outcome State Fault Refusal := .next (s.retiredAs m y)
    (s.issues m (encVS 0x0 vd 0 ga 0) → exec (.vsplat m vd ga) s = next (x.setVec vd (List.replicate 16 (x.get ga)))) ∧
    (s.issues m (encVS 0x1 0 va gd lane) → exec (.vext m gd va lane) s = next (x.put gd (x.lane va lane))) ∧
    (s.issues m (encVS 0x2 vd 0 ga lane) → exec (.vins m vd ga lane) s = next (x.setLane vd lane (x.get ga))) ∧
    (s.issues m (encVS 0x3 vd 0 ga 0) →
      exec (.vmask m vd ga) s = next (x.setVec vd ((range' 0 16).map fun i => if (x.get ga).getLsbD i then BitVec.allOnes 32 else 0))) ∧
    (s.issues m (encVS 0x4 0 va gd 0) →
      exec (.vmovmsk m gd va) s = next (x.put gd (BitVec.ofNat 32 (((x.vec va).zip (range' 0 16)).map fun p => b2n p.1.msb * 2 ^ p.2).sum))) ∧
    (s.issues m (encVS 0x6 0 va gd 0) → exec (.vredmax m gd va) s = next (x.put gd (maxLane (x.vec va)))) ∧
    (s.issues m (encVS 0x7 0 va gd 0) → exec (.vredmin m gd va) s = next (x.put gd (minLane (x.vec va)))) ∧
    (s.issues m (encVS 0x8 0 va gd 0) → exec (.vargmax m gd va) s = next (x.put gd (BitVec.ofNat 32 ((x.vec va).idxOf (maxLane (x.vec va)))))) ∧
    (s.issues m (encVS 0xC vd va ga 0) → exec (.vaddg m vd va ga) s = next (x.setVec vd ((x.vec va).map fun a => a + x.get ga))) ∧
    (s.issues m (encVS 0xD vd va ga 0) →
      exec (.vcgtg m vd va ga) s = next (x.setVec vd ((x.vec va).map fun a => if (x.get ga).toInt < a.toInt then BitVec.allOnes 32 else 0)))

/-- With a packet in the inbox, course and course.w take the oldest one: header words to gd to gd + 3, its sixteen lanes to vd, status OK. On an
empty inbox course completes with BUSY and course.w stalls. tget writes ST and the quality to gd to gd + 3. tgetc writes the number of the latest
course of a running grid. (R189, R225, R240, R242, R243, R244) -/
def Obligations.CourseAndTimeInstructions : Prop :=
  ∀ (s : State) (m : Fin 16) (gd ga : Fin 32) (vd : Fin 8) (p : List Word) (ps : List (List Word)),
    let x := s.mason m
    let done (c : Status) (t : State) : Host.Outcome State Fault Refusal := .next ((t.setMason m ((t.mason m).status c)).retire m (x.pc + 4))
    let popped : State := s.setMason m (({ x with inbox := ps }.puts gd (p.take 4)).setVec vd (p.drop 4))
    let sec := s.st / secU
    let g := (x.get ga).toNat
    let n := s.courseNow g
    (s.issues m (encST 0x00 gd vd 0 0) → groupOk gd = true → x.inbox = p :: ps → exec (.course m gd vd) s = done .ok popped) ∧
    (s.issues m (encST 0x00 gd vd 0 0) → groupOk gd = true → x.inbox = [] → exec (.course m gd vd) s = done .busy s) ∧
    (s.issues m (encST 0x01 gd vd 0 0) → groupOk gd = true → x.inbox = p :: ps → exec (.courseW m gd vd) s = done .ok popped) ∧
    (s.issues m (encST 0x01 gd vd 0 0) → groupOk gd = true → x.inbox = [] →
      exec (.courseW m gd vd) s = .next (s.setF (F.MC_STAT_STALLED m) 1)) ∧
    (s.issues m (encST 0x02 gd 0 0 0) → groupOk gd = true →
      exec (.tget m gd) s = done .ok (s.setMason m (x.puts gd [BitVec.ofNat 32 (s.f F.TIME_STAT_QUALITY * 65536 + s.st % 65536),
        BitVec.ofNat 32 (s.st % secU / 65536), BitVec.ofNat 32 sec, BitVec.ofNat 32 (sec / 2 ^ 32 % 65536)]))) ∧
    (s.issues m (encST 0x03 gd ga 0 0) → pairOk gd = true → g ≤ 3 → s.running g = true →
      exec (.tgetc m gd ga) s = done .ok (s.setMason m (x.puts gd [BitVec.ofNat 32 n, BitVec.ofNat 32 (n / 2 ^ 32)])))

/-- In ACQUIRE, hopen of an active stream that the mason writes and has no hod open for takes the lowest free slot and returns its number in gd. hput
appends a record whose header counts its words, of a type a mason may write, where it fits, and enters the crossing with as many words as the
record has, and stalls while 64 words or more are still to cross; mark and gap append the record they build. hclose hands the hod of the slot on.
Each completes with OK. The order of the checks of hput, its stall after them, the extension of its courses, that a GAP record made by hput
counts in SE_LOST, and how the words cross are the model's readings (notes/assumptions/5.md, notes/assumptions/78.md and
notes/assumptions/114.md). (R192, R193, R194, R195, R240, R242, R245) -/
def Obligations.HodInstructions : Prop :=
  ∀ (s : State) (m : Fin 16) (ga gb gc gd : Fin 32) (h : Open) (k : Nat),
    let x := s.mason m
    let done (c : Status) (t : State) : Host.Outcome State Fault Refusal := .next ((t.setMason m ((t.mason m).status c)).retire m (x.pc + 4))
    let a := (x.get ga).toNat
    let b := (x.get gb).toNat
    let c := (x.get gc).toNat
    let ws := s.dwords m b c
    let fits (r : Rec) : Prop := recWords h.recs + r.words.length ≤ s.hodLimit h.sid
    let added (z : State) (k : Nat) (r : Rec) (values dec : Nat) : State :=
      (z.setMason m (x.setSlot k (some (h.add r values dec)))).when (r.typ == 4)
        fun t => t.setTwo (R.SE_LOST h.sid) (t.two (R.SE_LOST h.sid) + r.cover)
    let rec_ := parseRec (s.grid (s.f (F.SE_CTL_GRID h.sid))).next h.cursor ws
    let mark_ := markRec (c48 (x.pair gc)) (a % 64) (s.f (F.SE_CTL_GRID h.sid)) 0 (x.pair gd) 0 0 (s.f F.TIME_STAT_QUALITY) false false false
    let gap_ := gapRec ⟨c48 (x.pair gb), c, 3, s.f F.TIME_STAT_QUALITY, false⟩
    (s.issues m (encST 0x08 gd ga gb 0) → s.mode = 3 → a < 8192 → s.b (F.SE_CTL_VALID a) = true → s.b (F.SE_CTL_ACT a) = true →
      s.masonWritten a = true → s.f (F.SE_CTL_MASON a) = m → x.slotOf a = none → x.freeSlot = some k →
      exec (.hopen m gd ga gb) s = done .ok (s.setMason m ((x.setSlot k (some ⟨a, b, [], b, s.cyc⟩)).put gd (BitVec.ofNat 32 k)))) ∧
    (s.issues m (encST 0x09 0 ga gb gc) → a ≤ 3 → 1 ≤ c → c ≤ 1022 → b % 4 = 0 → b + 4 * c ≤ 131072 → x.slot a = some h →
      s.badRange (dmem m + b) (4 * c) = false → bits (ws.headD 0).toNat 27 16 = c - 1 → masonType (bits (ws.headD 0).toNat 31 28) = true →
      recWords h.recs + c ≤ s.hodLimit h.sid → fits rec_.1 → s.hputFull = false →
      exec (.hput m ga gb gc) s = done .ok (added { s with hputs := s.hputs ++ [(1000000 * ws.length, if s.pressed h.sid then some (s.f (F.SE_REP_ENG h.sid)) else none)] } a rec_.1 rec_.2.1 rec_.2.2)) ∧
    (s.issues m (encST 0x09 0 ga gb gc) → a ≤ 3 → 1 ≤ c → c ≤ 1022 → b % 4 = 0 → b + 4 * c ≤ 131072 → x.slot a = some h →
      s.badRange (dmem m + b) (4 * c) = false → bits (ws.headD 0).toNat 27 16 = c - 1 → masonType (bits (ws.headD 0).toNat 31 28) = true →
      recWords h.recs + c ≤ s.hodLimit h.sid → 64 ≤ (s.hputs.map fun y => ceilDiv y.1 1000000).sum → exec (.hput m ga gb gc) s = .next (s.setF (F.MC_STAT_STALLED m) 1)) ∧
    (s.issues m (encST 0x0A 0 ga 0 0) → a ≤ 3 → x.slot a = some h → exec (.hclose m ga) s = done .ok (s.handSlot m a)) ∧
    (s.issues m (encST 0x0B ga gb gc gd) → groupOk ga = true → pairOk gc = true → pairOk gd = true → b ≤ 3 → x.slot b = some h →
      fits mark_ → exec (.mark m ga gb gc gd) s = done .ok (added s b mark_ 0 0)) ∧
    (s.issues m (encST 0x0C 0 ga gb gc) → pairOk gb = true → a ≤ 3 → c ≠ 0 → x.slot a = some h → fits gap_ →
      exec (.gap m ga gb gc) s = done .ok (added s a gap_ 0 0))

/-- On a queue 0 to 63: pqget pops the oldest committed word into gd; pqput and pqputn push, pqopen opens an item with the low 16 bits of gb as its
tag, pqclose commits it, pqflush empties the queue, pqcnt writes PQ_CNT's image. Each completes with OK. Each of the seven completes with ADDR,
and changes nothing else, for a queue number above 63. On a full queue pqput and pqopen stall and pqputn completes with BUSY. A pqget on an empty
queue completes with BUSY, gives gd the word popped last and sets UNDERRUN; a pqopen while an item is open, full queue or not, completes with
BUSY and sets FRAME_ERR, and so does a pqclose with no item open and no orphan pending, while an orphan CLOSE completes with OK and sets ORPHAN.
That a mason's access sets these flags as the host's does is the model's reading (notes/assumptions/77.md). (R211, R212, R213, R214, R215, R217,
R240, R242) -/
def Obligations.PalletInstructions : Prop :=
  ∀ (s : State) (m : Fin 16) (gd ga gb : Fin 32) (w : Word) (ws : List Word) (tag : Nat) (it : List Word),
    let x := s.mason m
    let done (c : Status) (t : State) : Host.Outcome State Fault Refusal := .next ((t.setMason m ((t.mason m).status c)).retire m (x.pc + 4))
    let q := (x.get ga).toNat
    let y := s.pq q
    (s.issues m (encST 0x10 gd ga 0 0) → q ≤ 63 → y.words = w :: ws →
      exec (.pqget m gd ga) s = done .ok ((s.setPq q { y with words := ws, last := w }).setMason m (x.put gd w))) ∧
    (s.issues m (encST 0x11 0 ga gb 0) → q ≤ 63 → y.full = false → exec (.pqput m ga gb) s = done .ok (s.setPq q (y.push (x.get gb)))) ∧
    (s.issues m (encST 0x11 0 ga gb 0) → q ≤ 63 → y.full = true → exec (.pqput m ga gb) s = .next (s.setF (F.MC_STAT_STALLED m) 1)) ∧
    (s.issues m (encST 0x12 0 ga gb 0) → q ≤ 63 → y.full = false → exec (.pqputn m ga gb) s = done .ok (s.setPq q (y.push (x.get gb)))) ∧
    (s.issues m (encST 0x12 0 ga gb 0) → q ≤ 63 → y.full = true → exec (.pqputn m ga gb) s = done .busy s) ∧
    (s.issues m (encST 0x13 0 ga gb 0) → q ≤ 63 → y.item = none → y.full = false →
      exec (.pqopen m ga gb) s = done .ok (s.setPq q { y with item := some ((x.get gb).toNat % 65536, []), orphan := false })) ∧
    (s.issues m (encST 0x14 0 ga 0 0) → q ≤ 63 → y.item = some (tag, it) →
      exec (.pqclose m ga) s =
        done .ok (s.setPq q { y with words := y.words ++ BitVec.ofNat 32 (tag * 65536 + it.length) :: it, item := none })) ∧
    (s.issues m (encST 0x15 0 ga 0 0) → q ≤ 63 →
      exec (.pqflush m ga) s = done .ok (s.setPq q { y with words := [], item := none, orphan := y.orphan || y.item.isSome })) ∧
    (s.issues m (encST 0x16 gd ga 0 0) → q ≤ 63 →
      exec (.pqcnt m gd ga) s = done .ok (s.setMason m (x.put gd (BitVec.ofNat 32 (y.occ * 65536 + y.cnt))))) ∧
    (s.issues m (encST 0x10 gd ga 0 0) → q ≤ 63 → y.words = [] →
      exec (.pqget m gd ga) s = done .busy ((s.setBit (R.PQ_STAT q) 4).setMason m (x.put gd y.last))) ∧
    (s.issues m (encST 0x13 0 ga gb 0) → q ≤ 63 → y.item ≠ none → exec (.pqopen m ga gb) s = done .busy (s.setBit (R.PQ_STAT q) 7)) ∧
    (s.issues m (encST 0x13 0 ga gb 0) → q ≤ 63 → y.item = none → y.full = true → exec (.pqopen m ga gb) s = .next (s.setF (F.MC_STAT_STALLED m) 1)) ∧
    (s.issues m (encST 0x14 0 ga 0 0) → q ≤ 63 → y.item = none → y.orphan = false → exec (.pqclose m ga) s = done .busy (s.setBit (R.PQ_STAT q) 7)) ∧
    (s.issues m (encST 0x14 0 ga 0 0) → q ≤ 63 → y.item = none → y.orphan = true →
      exec (.pqclose m ga) s = done .ok ((s.setPq q { y with orphan := false }).setBit (R.PQ_STAT q) 6)) ∧
    (s.issues m (encST 0x10 gd ga 0 0) → 63 < q → exec (.pqget m gd ga) s = done .addr s) ∧
    (s.issues m (encST 0x11 0 ga gb 0) → 63 < q → exec (.pqput m ga gb) s = done .addr s) ∧
    (s.issues m (encST 0x12 0 ga gb 0) → 63 < q → exec (.pqputn m ga gb) s = done .addr s) ∧
    (s.issues m (encST 0x13 0 ga gb 0) → 63 < q → exec (.pqopen m ga gb) s = done .addr s) ∧
    (s.issues m (encST 0x14 0 ga 0 0) → 63 < q → exec (.pqclose m ga) s = done .addr s) ∧
    (s.issues m (encST 0x15 0 ga 0 0) → 63 < q → exec (.pqflush m ga) s = done .addr s) ∧
    (s.issues m (encST 0x16 gd ga 0 0) → 63 < q → exec (.pqcnt m gd ga) s = done .addr s)

/-- wait ends at once where a named source is true and gates the clock otherwise; evt raises event 0x0C80 + code with ga as its detail, and stalls
where less than 1 µs has passed since the mason's last; rft in a trap returns to EPC with IN_TRAP cleared; mff reads FL and mtf writes its
defined bits; sprd reads a special register, sprw writes EPC and SCRATCH and is illegal for every other number. That a wait leaves STALLED as it
is, and what an rft to an EPC that is no multiple of 4 does, are the model's readings (notes/assumptions/77.md); times are those that SYS has
counted, which no load of ST moves (notes/assumptions/119.md). (R198, R199, R200, R201, R224, R246, R247, R248) -/
def Obligations.SystemInstructions : Prop :=
  ∀ (s : State) (m : Fin 16) (gd ga : Fin 32) (src : Fin 8) (code : Fin 128) (n : BitVec 10) (v : Word),
    let x := s.mason m
    let a := x.get ga
    let goes (t : State) : Host.Outcome State Fault Refusal := .next (t.retire m (x.pc + 4))
    let expiry := s.cyc + 4 * 65536 * a.toNat
    (s.issues m (encSYS 0 gd ga src) → pairOk gd = true → s.wakeBits m src expiry ≠ 0 →
      exec (.wait m gd ga src) s = goes (s.endWait m src expiry gd)) ∧
    (s.issues m (encSYS 0 gd ga src) → pairOk gd = true → s.wakeBits m src expiry = 0 →
      exec (.wait m gd ga src) s = .next ((s.setMason m { x with wait := some (src, expiry, gd) }).setF (F.MC_STAT_STATE m) 2)) ∧
    (s.issues m (encSYS 1 0 ga code) → (∀ t, x.evtAt = some t → t + 1000 * 65536 ≤ s.cyc) →
      exec (.evt m ga code) s = goes ((s.setMason m { x with evtAt := some s.cyc }).raise (0x0C80 + code) m a.toNat)) ∧
    (∀ t, s.issues m (encSYS 1 0 ga code) → x.evtAt = some t → s.cyc < t + 1000 * 65536 →
      exec (.evt m ga code) s = .next (s.setF (F.MC_STAT_STALLED m) 1)) ∧
    (s.issues m (encSYS 7 0 ga n.toNat) → n.toNat ≠ 1 → n.toNat ≠ 4 → exec (.sprw m ga n) s = .next (s.trap m 0 (encSYS 7 0 ga n.toNat).toNat)) ∧
    (s.issues m (encSYS 3 0 0 0) → s.b (F.MC_STAT_IN_TRAP m) = true →
      exec (.rft m) s = .next ((s.setF (F.MC_STAT_IN_TRAP m) 0).retire m (s.f (F.MC_EPC_V m)))) ∧
    (s.issues m (encSYS 4 gd 0 0) → exec (.mff m gd) s = .next (s.retiredAs m (x.put gd (BitVec.ofNat 32 x.fl)))) ∧
    (s.issues m (encSYS 5 0 ga 0) → exec (.mtf m ga) s = .next (s.retiredAs m { x with fl := a.toNat &&& 0xFF3F })) ∧
    (s.issues m (encSYS 6 gd 0 n.toNat) → s.special m n.toNat = some v → exec (.sprd m gd n) s = .next (s.retiredAs m (x.put gd v))) ∧
    (s.issues m (encSYS 7 0 ga 1) → exec (.sprw m ga 1) s = goes (s.setF (F.MC_EPC_V m) a.toNat)) ∧
    (s.issues m (encSYS 7 0 ga 4) → exec (.sprw m ga 4) s = .next (s.retiredAs m { x with sr := Tab.set (fun _ => 0) x.sr 4 a }))

/-- A trap of a mason that is in no trap saves PC in EPC, the cause in CAUSE and TVAL, sets IN_TRAP and puts PC at TVEC; for causes 0 to 5 it also
sets MC_EVT.TRAP and raises event 0x0C01 with the cause and EPC in the detail, and for cause 5 first MC_EVT.UNCORR with 0x0C04. A trap inside a
trap keeps EPC, CAUSE and TVAL, sets MC_EVT.DFAULT and raises 0x0C02 with the second cause, the address and TVAL in the detail; then, with
LOCKUP_ACT, it raises 0x0105, hands the mason's hods on and puts the mason into FAULT, and without it the hub takes a LOCKUP reset. The
instruction trap is a trap of cause 6 with its immediate in TVAL. How far a batch has come at such a reset is drawn (notes/assumptions/4.md). The
packing of the details of 0x0C01 and 0x0C02, and that 0x0C04 carries the address that TVAL holds, are the model's choice
(notes/assumptions/25.md). (R200, R201, R202, R223, R248, R437) -/
def Obligations.TrapEntry : Prop :=
  ∀ (s : State) (m : Fin 16) (imm : BitVec 10) (cause tval : Nat),
    let s0 := (if cause = 5 then (s.setF (F.MC_EVT_UNCORR m) 1).raise 0x0C04 m tval else s).setF (F.MC_STAT_STALLED m) 0
    let pc := (s0.mason m).pc % 65536
    let saved := (((s0.setF (F.MC_EPC_V m) pc).setF (F.MC_CAUSE_V m) cause).setW (R.MC_TVAL m) (BitVec.ofNat 32 tval)).setF (F.MC_STAT_IN_TRAP m) 1
    let first := saved.setMason m { s0.mason m with pc := s0.f (F.MC_TVEC_V m) }
    let detail := cause * 2 ^ 56 + pc * 2 ^ 32 + tval % 2 ^ 32
    let twice := ((s0.setF (F.MC_EVT_DFAULT m) 1).raise 0x0C02 m detail).draw 6
    (s0.b (F.MC_STAT_IN_TRAP m) = false → cause ≤ 5 →
      s.trap m cause tval = (first.setF (F.MC_EVT_TRAP m) 1).raise 0x0C01 m (cause * 2 ^ 32 + pc)) ∧
    (s0.b (F.MC_STAT_IN_TRAP m) = false → cause = 6 → s.trap m cause tval = first) ∧
    (s0.b (F.MC_STAT_IN_TRAP m) = true → twice.1.b F.RST_CTL_LOCKUP_ACT = true →
      s.trap m cause tval = ((twice.1.raiseBit R.RPC_EVT 4 0x0105 m detail).handSlots m).setF (F.MC_STAT_STATE m) 4) ∧
    (s0.b (F.MC_STAT_IN_TRAP m) = true → twice.1.b F.RST_CTL_LOCKUP_ACT = false → s.trap m cause tval = (twice.1.cutBatch twice.2).hubReset 7) ∧
    (s.issues m (encSYS 2 0 0 imm.toNat) → exec (.trap m imm) s = .next (s.trap m 6 imm.toNat))

/-- An instruction whose pair or group base is out of range, an rft outside a trap, and a special register without a row trap with cause 0 and the
instruction word in TVAL. (R200, R229, R246, R247, R248) -/
def Obligations.IllegalFormsTrap : Prop :=
  ∀ (s : State) (m : Fin 16) (gd ga gb gc : Fin 32) (vd : Fin 8) (src : Fin 8) (n : BitVec 10),
    let illegal_ (w : Word) : Host.Outcome State Fault Refusal := .next (s.trap m 0 w.toNat)
    (s.issues m (encST 0x00 gd vd 0 0) → groupOk gd = false → exec (.course m gd vd) s = illegal_ (encST 0x00 gd vd 0 0)) ∧
    (s.issues m (encST 0x01 gd vd 0 0) → groupOk gd = false → exec (.courseW m gd vd) s = illegal_ (encST 0x01 gd vd 0 0)) ∧
    (s.issues m (encST 0x02 gd 0 0 0) → groupOk gd = false → exec (.tget m gd) s = illegal_ (encST 0x02 gd 0 0 0)) ∧
    (s.issues m (encST 0x03 gd ga 0 0) → pairOk gd = false → exec (.tgetc m gd ga) s = illegal_ (encST 0x03 gd ga 0 0)) ∧
    (s.issues m (encST 0x0B ga gb gc gd) → (groupOk ga && pairOk gc && pairOk gd) = false →
      exec (.mark m ga gb gc gd) s = illegal_ (encST 0x0B ga gb gc gd)) ∧
    (s.issues m (encST 0x0C 0 ga gb gc) → pairOk gb = false → exec (.gap m ga gb gc) s = illegal_ (encST 0x0C 0 ga gb gc)) ∧
    (s.issues m (encSYS 0 gd ga src) → pairOk gd = false → exec (.wait m gd ga src) s = illegal_ (encSYS 0 gd ga src)) ∧
    (s.issues m (encSYS 3 0 0 0) → s.b (F.MC_STAT_IN_TRAP m) = false → exec (.rft m) s = illegal_ (encSYS 3 0 0 0)) ∧
    (s.issues m (encSYS 6 gd 0 n.toNat) → 5 < n.toNat → exec (.sprd m gd n) s = illegal_ (encSYS 6 gd 0 n.toNat))

/-- This is about the helper Mason.status, through which an ST instruction completes with a status code, and not about exec. After it FL.STATUS holds
its status code, F is 1 when the status is not OK and 0 when it is, and every other bit of FL is as it was. (R224, R240) -/
def Obligations.StStatusHelperWritesFl : Prop :=
  ∀ (x : Mason) (c : Status),
    bits (x.status c).fl 15 8 = c.code ∧ bits (x.status c).fl 4 4 = (if c = .ok then 0 else 1) ∧ bits (x.status c).fl 3 0 = bits x.fl 3 0 ∧
    bits (x.status c).fl 7 5 = bits x.fl 7 5 ∧ (x.status c).g = x.g ∧ (x.status c).v = x.v ∧ (x.status c).pc = x.pc

/-- A running hub that takes a write of 1 to GRID_CTL.STOP (the written TYPE and CDIV being those the grid has, CDIV not zero) of a grid that an
active stream uses completes with BUSY, in each of the three running and armed states alike, and of a STOPPED grid with OK; either way nothing
changes but the completion: every register reads as before and every grid stands as before. (R91) -/
def Obligations.StopOfAGridInUseOrStopped : Prop :=
  ∀ (s : State) (r : Req) (g : Fin 4) (v : Word),
    s.takes r (R.GRID_CTL g) → bits v.toNat 27 16 ≠ 0 → s.f (F.GRID_CTL_TYPE g) = b2n (wbit v 0) → s.f (F.GRID_CTL_CDIV g) = bits v.toNat 27 16 →
      (s.gstate g ≠ 0 → s.gridUsed g = true → exec (.gridStop r g v) s = .next (s.fin .busy)) ∧
      (s.gstate g = 0 → (s.grid g).sync = none → ∃ t, exec (.gridStop r g v) s = .next t ∧ t.cpl = ⟨.ok, []⟩ ∧
        (∀ a, t.w a = s.w a) ∧ (∀ k, t.grid k = s.grid k) ∧ t.pending = s.pending)

/-- Where the map of R31 (accOf) marks the region "—" for the requester, or gives no region, a read and a write alike complete with ADDR and change
nothing else of the hub (free, which numbers the model's free values, is not part of it); so does a write to a region marked RO for the requester
(the yard window, from 0x20000000, has the rule R30 of its own), and so does every other write that the map refuses with ADDR. (R29) -/
def Obligations.RefusedAccessChangesNoRegister : Prop :=
  ∀ (r : Req) (a v : Word) (bad : Bool) (s : State), s.alive = true →
    let refused (o : Host.Outcome State Fault Refusal) : Prop := ∃ n, o = .next { s.fin .addr with free := n }
    (accOf r a.toNat = .no → refused (exec (.registerWrite r a v) s) ∧ refused (exec (.lowWordRead r a bad) s) ∧ refused (exec (.rcRead r a) s)) ∧
    (accOf r a.toNat = .ro → a.toNat < 0x20000000 → refused (exec (.registerWrite r a v) s)) ∧
    (s.mapStop r a.toNat true = some Status.addr → refused (exec (.registerWrite r a v) s))

/-- A misaligned address, an address outside every region, and an access without the requester's right get ADDR; a host write of the yard window gets
UNSUPPORTED; in DORMANT and KILN an access of the host or JTAG gets MODE (the model's reading, notes/assumptions/15), and so does a manager's
write in DORMANT outside GLOBAL, RPC, the RTC registers and LOG. (R2, R29, R30, R31, R359, R419) -/
def Obligations.AddressMapRefusals : Prop :=
  (∀ (s : State) (r : Req) (a : Nat) (w : Bool), a % 4 ≠ 0 → s.mapStop r a w = some Status.addr) ∧
  (∀ (s : State) (r : Req) (a : Nat) (w : Bool), a % 4 = 0 → accOf r a = .no → s.mapStop r a w = some Status.addr) ∧
  (∀ (s : State) (r : Req) (a : Nat), a % 4 = 0 → accOf r a = .ro → a < 0x20000000 → s.mapStop r a true = some Status.addr) ∧
  (∀ (s : State) (a : Nat), a % 4 = 0 → 0x20000000 ≤ a → a < 0x40000000 → s.mapStop .host a true = some Status.unsupported) ∧
  (∀ (s : State) (r : Req) (a : Nat) (w : Bool), r = .host ∨ r = .jtag → a % 4 = 0 → accOf r a = .rw → (s.mode = 0 ∨ s.mode = 4) →
    s.mapStop r a w = some Status.mode) ∧
  (∀ (s : State) (a : Nat), a % 4 = 0 → accOf .manager a = .rw → s.mode = 0 → dormantWrite a = false → s.mapStop .manager a true = some Status.mode) ∧
  (∀ (r : Req) (a : Nat), 0x40000000 ≤ a → accOf r a = .no) ∧ (∀ (m : Fin 16) (a : Nat), accOf (.mason m) a ≠ .rw)

/-- A read that the map lets through returns the register's readable bits (of a shadow register the requester's own shadow), clears the RC bits it
returned, and copies the upper words of a multi-word value into the requester's shadow; no other register, no other shadow and no byte of a
memory or of the MRAM changes. (R4, R5, R8, R106) -/
def Obligations.RegisterReadsClearAndSnapshot : Prop :=
  ∀ (r : Req) (a : Word) (s : State), s.alive = true → s.mapStop r a.toNat false = none → plainReg a.toNat → s.underTest a.toNat = false →
    let m := readMask a.toNat
    let v := (s.view a.toNat &&& ~~~m.2.2.1) ||| (s.shadow r a.toNat &&& m.2.2.1)
    (∃ t, exec (.rcRead r a) s = .next t ∧ t.cpl = ⟨.ok, [v]⟩ ∧ t.w a.toNat = s.w a.toNat &&& ~~~m.2.1 ∧ (∀ i, i ≠ a.toNat → t.w i = s.w i) ∧
      t.mem = s.mem ∧ t.nvm = s.nvm) ∧
    (∃ t, exec (.lowWordRead r a false) s = .next t ∧ t.cpl = ⟨.ok, [v]⟩ ∧
      t.w a.toNat = s.w a.toNat &&& ~~~m.2.1 ∧
      (∀ k, 1 ≤ k → k < m.2.2.2 → t.shadow r (a.toNat + 4 * k) = s.view (a.toNat + 4 * k)) ∧
      (∀ q i, (q ≠ r ∨ i < a.toNat + 4 ∨ a.toNat + 4 * m.2.2.2 ≤ i) → i < 2 ^ 32 → t.shadow q i = s.shadow q i) ∧
      (∀ i, i ≠ a.toNat → t.w i = s.w i) ∧ t.mem = s.mem ∧ t.nvm = s.nvm)

/-- A write that the map lets through completes with OK, whoever asks. It stores the RW bits of the register: a hysteresis, an event mask. A W1C
register keeps only the bits that are not written as 1, a W1S register, the doorbell of a mason, gains those that are, and a WO register acts:
PQ_PUSH pushes the word. A write of an RO register (GLOBAL_ID), of an RS one (RST_CAUSE), of an RC one (MGP_CNT), of an SH one (the middle word
of ST) and of an unassigned offset changes no register, no byte of a memory and none of the MRAM. (R2, R5, R146, R217, R362) -/
def Obligations.RegisterWriteTakesEffect : Prop :=
  (∀ (s : State) (r : Req) (u : Fin 64) (v : Word), s.takes r (R.TU_HYST u) →
    ∃ t, exec (.registerWrite r (BitVec.ofNat 32 (R.TU_HYST u)) v) s = .next t ∧ t.cpl = ⟨.ok, []⟩ ∧ t.f (F.TU_HYST_H u) = v.toNat % 2 ^ 24 ∧
      ∀ i, i ≠ R.TU_HYST u → t.w i = s.w i) ∧
  (∀ (s : State) (r : Req) (v : Word), s.takes r R.EVT_MASK →
    ∃ t, exec (.registerWrite r (BitVec.ofNat 32 R.EVT_MASK) v) s = .next t ∧ t.cpl = ⟨.ok, []⟩ ∧ t.f F.EVT_MASK_EN = bits v.toNat 14 1 ∧
      ∀ i, i ≠ R.EVT_MASK → t.w i = s.w i) ∧
  (∀ (s : State) (r : Req) (v : Word), s.takes r R.TRIG_EVT →
    ∃ t, exec (.registerWrite r (BitVec.ofNat 32 R.TRIG_EVT) v) s = .next t ∧ t.cpl = ⟨.ok, []⟩ ∧ 
      t.w R.TRIG_EVT = s.w R.TRIG_EVT &&& ~~~(v &&& 3) ∧ ∀ i, i ≠ R.TRIG_EVT → t.w i = s.w i) ∧
  (∀ (s : State) (r : Req) (m : Fin 16) (v : Word), s.takes r (R.MC_DOORBELL m) →
    ∃ t, exec (.registerWrite r (BitVec.ofNat 32 (R.MC_DOORBELL m)) v) s = .next t ∧ t.cpl = ⟨.ok, []⟩ ∧ 
      t.w (R.MC_DOORBELL m) = s.w (R.MC_DOORBELL m) ||| v ∧ ∀ i, i ≠ R.MC_DOORBELL m → t.w i = s.w i) ∧
  (∀ (s : State) (r : Req) (q : Fin 64) (v : Word), s.takes r (R.PQ_PUSH q) →
    ∃ t, exec (.registerWrite r (BitVec.ofNat 32 (R.PQ_PUSH q)) v) s = .next t ∧ t.cpl = ⟨.ok, []⟩ ∧ 
      ((s.pq q).full = false → t.pq q = (s.pq q).push v ∧ ∀ i, t.w i = s.w i)) ∧
  (∀ (s : State) (r : Req) (v : Word), s.takes r R.GLOBAL_ID →
    ∃ t, exec (.registerWrite r (BitVec.ofNat 32 R.GLOBAL_ID) v) s = .next t ∧ t.cpl = ⟨.ok, []⟩ ∧ 
      (∀ i, t.w i = s.w i) ∧ t.mem = s.mem ∧ t.nvm = s.nvm) ∧
  (∀ (s : State) (r : Req) (v : Word), s.takes r R.RST_CAUSE →
    ∃ t, exec (.registerWrite r (BitVec.ofNat 32 R.RST_CAUSE) v) s = .next t ∧ t.cpl = ⟨.ok, []⟩ ∧ 
      (∀ i, t.w i = s.w i) ∧ t.mem = s.mem ∧ t.nvm = s.nvm) ∧
  (∀ (s : State) (r : Req) (v : Word), s.takes r R.MGP_CNT →
    ∃ t, exec (.registerWrite r (BitVec.ofNat 32 R.MGP_CNT) v) s = .next t ∧ t.cpl = ⟨.ok, []⟩ ∧ 
      (∀ i, t.w i = s.w i) ∧ t.mem = s.mem ∧ t.nvm = s.nvm) ∧
  (∀ (s : State) (r : Req) (v : Word), s.takes r R.ST_SECL →
    ∃ t, exec (.registerWrite r (BitVec.ofNat 32 R.ST_SECL) v) s = .next t ∧ t.cpl = ⟨.ok, []⟩ ∧ 
      (∀ i, t.w i = s.w i) ∧ t.mem = s.mem ∧ t.nvm = s.nvm) ∧
  (∀ (s : State) (r : Req) (v : Word), s.takes r 0x4FFC0 →
    ∃ t, exec (.registerWrite r 0x4FFC0 v) s = .next t ∧ t.cpl = ⟨.ok, []⟩ ∧ (∀ i, t.w i = s.w i) ∧ t.mem = s.mem ∧ t.nvm = s.nvm)

/-- On a port that is not a DOWN port, where no request waits, with a tag that is not outstanding and in a mode that takes requests, a request is
outstanding while it takes its effect, and leaves with its completion. READ of 1 to 256 words inside one region returns them, of a plain register
its value with the effects of a read, and one whose range is refused completes with that status; WRITE of one word is a register write whose
status the completion carries, and one of the event mask stores it; a WRITE of several words ends with OK where every word is taken. A tag still
outstanding gets TAG. On a DOWN port a request is misdirected: counted, and without effect. (R351, R353, R354, R355, R357, R358, R359, R360) -/
def Obligations.ReadAndWriteTransactions : Prop :=
  ∀ (s t2 : State) (p : Fin 16) (tag : BitVec 7) (a c v : Word) (vs : List Word) (e : Status),
    let n := bits c.toNat 8 0
    let r (op : Nat) : Reqd := ⟨1, op, tag.toNat, false⟩
    let u (op : Nat) : State := s.setPort p { s.port p with reqs := [r op] }
    let gone (t : State) : State := t.setPort p { t.port p with reqs := [] }
    let answers (op : Nat) (t : State) : Host.Outcome State Fault Refusal :=
      .next (((gone t).enqueue p none ((gone t).cplHod op tag.toNat)).serve p)
    let held (op : Nat) (t : State) : Prop := (u op).began t = false ∧ (t.port p).reqs = [r op]
    let read := (u 0).readWords .host a.toNat n
    let one := (u 0).plainRead .host a.toNat
    let t1 := (u 1).writeReg .host a.toNat v
    let free := s.tagsOut.contains tag.toNat = false ∧ (s.port p).reqs = [] ∧ s.role p ≠ 2
    s.alive = true → s.mode ≠ 0 → s.mode ≠ 4 →
    (free → rangeStop a.toNat n (bits c.toNat 31 9) 2 0 = none → (u 0).mapStop .host a.toNat false = none → held 0 (read.1.finData read.2) →
      exec (.read p tag [a, c]) s = answers 0 (read.1.finData read.2)) ∧
    (free → n = 1 → rangeStop a.toNat 1 (bits c.toNat 31 9) 2 0 = none → s.mapStop .host a.toNat false = none → plainReg a.toNat →
      exec (.read p tag [a, c]) s = answers 0 (one.1.finData [one.2])) ∧
    (free → n = 1 → rangeStop a.toNat 1 (bits c.toNat 31 9) 3 1 = none → t1.cpl.status = .ok → held 1 t1 →
      exec (.write p tag [a, c, v]) s = answers 1 (t1.fin .ok)) ∧
    (free → n = 1 → rangeStop a.toNat 1 (bits c.toNat 31 9) 3 1 = none → t1.cpl.status ≠ .ok → held 1 t1 →
      exec (.write p tag [a, c, v]) s = answers 1 t1) ∧
    (free → c = 1 → s.takes .host R.EVT_MASK → exec (.write p tag [BitVec.ofNat 32 R.EVT_MASK, c, v]) s =
      answers 1 (((u 1).store R.EVT_MASK v).fin .ok)) ∧
    (free → rangeStop a.toNat n (bits c.toNat 31 9) (3 + vs.length) n = none →
      (∃ b e, bulkOf a.toNat = some (b, e) ∧ a.toNat + 4 * n ≤ e) → t1.cpl.status = .ok → (u 1).began t1 = false →
      t1.writeWords .host (a.toNat + 4) vs = (t2, .ok) → held 1 (t2.fin .ok) →
      exec (.write p tag (a :: c :: v :: vs)) s = answers 1 (t2.fin .ok)) ∧
    (free → rangeStop a.toNat n (bits c.toNat 31 9) 2 0 = some e → exec (.read p tag [a, c]) s = answers 0 ((u 0).fin e)) ∧
    (s.role p ≠ 2 → s.tagsOut.contains tag.toNat = true → ((s.port p).reqs.any fun z => z.typ == 1 && z.op == 0 && z.tag == tag.toNat) = false →
      exec (.read p tag [a, c]) s = .next (((s.fin .tag).enqueue p none ((s.fin .tag).cplHod 0 tag.toNat)))) ∧
    ((s.port p).reqs = [] → s.role p = 2 → exec (.read p tag [a, c]) s = .next (s.misdirect p s.hid) ∧
      exec (.write p tag [a, c, v]) s = .next (s.misdirect p s.hid))

/-- A frame ends with MSCS_N high. One of 72 edges with a valid CRC: NOP with a field that is not 1 changes nothing else, with the field 1 it asks
for the last response again; READ and WRITE with no request pending become the pending request and discard a waiting result. Executing the
pending request makes its response the waiting result: of a read of a register, the value that it holds, of one that the address map refuses, the
refusal; of a WRITE the status of the write and data zero, unless a batch of the MRAM has begun with it, which then holds the result back, or the
write has reset the hub. A frame with other than 72 edges, one with a wrong CRC, and a READ or WRITE while a request is pending are discarded:
each is counted and sets its bit of MGP_EVT, with event 0x0E02, 0x0E01 or 0x0E03 when the bit rises, and only the first two are reported, where
nothing is pending and no result waits. A load, at the falling edge of MSCS_N, takes the response into the shift register. (R414, R415, R416,
R417, R418) -/
def Obligations.ManagementPortFrames : Prop :=
  ∀ (s : State) (f : BitVec 72),
    let x := f.toNat
    let good : Prop := crc8 (natBE 8 (x / 256)) = x % 256
    let pends (t : State) : Prop := t = { s with mgp := { s.mgp with pend := some (bits x 71 64, bits x 63 40, bits x 39 8), res := none, sel := false } }
    let u : State := { s with mgp := { s.mgp with sel := false } }
    let counted (i code : Nat) (c : Fld) : State :=
      (u.bump c 1).when (!wbit ((u.bump c 1).w R.MGP_EVT) i) fun z => (z.setBit R.MGP_EVT i).raise code 0 0
    let rejected (z : State) (c : Status) : State :=
      if s.mgp.pend = none ∧ s.mgp.res = none then { z with mgp := { z.mgp with rej := some c.code } } else z
    s.alive = true →
    (good → bits x 71 64 = 0 → bits x 39 8 ≠ 1 → exec (.mgpNop f 72) s = .next { s with mgp := { s.mgp with sel := false } }) ∧
    (good → bits x 71 64 = 0 → bits x 39 8 = 1 → exec (.mgpRepeat f 72) s = .next { s with mgp := { s.mgp with rep := true, sel := false } }) ∧
    (good → bits x 71 64 = 0x10 → s.mgp.pend = none → ∃ t, exec (.mgpRead f 72) s = .next t ∧ pends t) ∧
    (good → bits x 71 64 = 0x20 → s.mgp.pend = none → ∃ t, exec (.mgpWrite f 72) s = .next t ∧ pends t) ∧
    (∀ wa data, s.mgp.pend = some (0x10, wa, data) → s.owed ≠ some 16 → s.mapStop .manager (4 * wa) false = none → plainReg (4 * wa) → s.underTest (4 * wa) = false →
      let m := readMask (4 * wa)
      let b := mgpResp 2 1 0 wa ((s.view (4 * wa) &&& ~~~m.2.2.1) ||| (s.shadow .manager (4 * wa) &&& m.2.2.1)).toNat
      ∃ t, exec .mgpAccessDone s = .next t ∧ t.mgp = { s.mgp with pend := none, res := some b, last := some b } ∧ t.mem = s.mem) ∧
    (∀ wa data c, s.mgp.pend = some (0x10, wa, data) → s.owed ≠ some 16 → s.mapStop .manager (4 * wa) false = some c →
      let b := mgpResp 2 1 c.code wa 0
      exec .mgpAccessDone s = .next { s.fin c with mgp := { s.mgp with pend := none, res := some b, last := some b } }) ∧
    (∀ wa data, s.mgp.pend = some (0x20, wa, data) → s.owed ≠ some 16 →
      let w := s.writeReg .manager (4 * wa) (BitVec.ofNat 32 data)
      let b := mgpResp 2 2 w.cpl.status.code wa 0
      (w.mgp.pend = s.mgp.pend ∨ w.mgp.pend = none) → exec .mgpAccessDone s = .next (if s.began w = true then { w with owed := some 16 }
        else if w.mgp.pend = none then w else { w with mgp := { w.mgp with pend := none, res := some b, last := some b } })) ∧
    (∀ n, n ≠ 72 → exec (.mgpRead f n) s = .next (rejected (counted 1 0x0E02 F.MGP_CNT_FRAME) .length) ∧
      exec (.mgpWrite f n) s = .next (rejected (counted 1 0x0E02 F.MGP_CNT_FRAME) .length)) ∧
    (¬ good → exec (.mgpRead f 72) s = .next (rejected (counted 0 0x0E01 F.MGP_CNT_CRC) .crc) ∧
      exec (.mgpWrite f 72) s = .next (rejected (counted 0 0x0E01 F.MGP_CNT_CRC) .crc)) ∧
    (good → bits x 71 64 ≠ 0 → s.mgp.pend ≠ none → exec (.mgpRead f 72) s = .next (counted 2 0x0E03 F.MGP_CNT_OVERRUN) ∧
      exec (.mgpWrite f 72) s = .next (counted 2 0x0E03 F.MGP_CNT_OVERRUN)) ∧
    (∃ t, exec .mgpResponseLoad s = .next t ∧ t.mgp.shift = s.mgp.response.1 ∧ t.mgp.sel = true ∧ t.mgp.rep = false ∧ t.mgp.rej = none)

/-- A write of MODE_OWNER without FORCE takes a free ownership for the requester that names itself (1 host, 2 manager, 3 JTAG), and the owner claims
it again or, with 0, releases it; while another owns it the write answers BUSY, and a value that names another answers UNSUPPORTED. The manager
takes it with FORCE whatever it was and whatever OWNER it writes, with event 0x0E04 that names the one put out; another requester's FORCE answers
UNSUPPORTED. While the primary port is not UP after 100 ms the host loses it, and at a reset of the test access port, which loads IDCODE, JTAG
does, with event 0x0E05. Nothing else changes. (R421, R422, R423, R498) -/
def Obligations.ModeOwnership : Prop :=
  ∀ (s : State) (r : Req) (v : Word) (own : BitVec 2),
    let old := s.f F.MODE_OWNER_OWNER
    let me := reqCode r
    let forced : State := ((s.setF F.MODE_OWNER_OWNER 2).raiseBit R.MGP_EVT 3 0x0E04 0 old).fin .ok
    (s.takes r R.MODE_OWNER → wbit v 8 = false → (old = 0 ∨ old = me) → (bits v.toNat 1 0 = me ∨ bits v.toNat 1 0 = 0) →
      exec (.modeOwnerWrite r v) s = .next ((s.setF F.MODE_OWNER_OWNER (bits v.toNat 1 0)).fin .ok)) ∧
    (s.takes r R.MODE_OWNER → wbit v 8 = false → (old = 0 ∨ old = me) → bits v.toNat 1 0 ≠ me → bits v.toNat 1 0 ≠ 0 →
      exec (.modeOwnerWrite r v) s = .next (s.fin .unsupported)) ∧
    (s.takes r R.MODE_OWNER → wbit v 8 = false → old ≠ 0 → old ≠ me → exec (.modeOwnerWrite r v) s = .next (s.fin .busy)) ∧
    (s.takes .manager R.MODE_OWNER → wbit v 8 = true → exec (.modeOwnerWrite .manager v) s = .next forced) ∧
    (s.takes r R.MODE_OWNER → r ≠ .manager → wbit v 8 = true → exec (.modeOwnerWrite r v) s = .next (s.fin .unsupported)) ∧
    (s.takes .manager R.MODE_OWNER → exec (.ownerForced .manager own) s = .next forced) ∧
    (s.takes r R.MODE_OWNER → r ≠ .manager → exec (.ownerForced r own) s = .next (s.fin .unsupported)) ∧
    (s.alive = true → old = 1 → s.portUp s.primary = false →
      exec (.ownerReleased false) s = .next ((s.setF F.MODE_OWNER_OWNER 0).raiseBit R.MGP_EVT 4 0x0E05 0 1)) ∧
    (s.alive = true → old = 3 →
      exec (.ownerReleased true) s = .next ((({ s with tap := 2 } : State).setF F.MODE_OWNER_OWNER 0).raiseBit R.MGP_EVT 4 0x0E05 0 3)) ∧
    (s.alive = true → old ≠ 3 → exec (.ownerReleased true) s = .next { s with tap := 2 })

/-- On an UP link a hub records its neighbour's HELLO in PL_PEER; a DOWN port adds and removes the hub IDs its child names, and adds the child that
calls from its primary port. A hod for a hub of the descendant table leaves by the port of its entry; one for no hub of the table is counted and
reported as 0x0912. An upstream hod that passes its checks is relayed through the primary port; of one that fails, whose relay has begun, the
copy is ended with K30.7, its sequence number and its credit taken back (what of it has left by then is the model's own choice,
notes/assumptions/124.md). (R19, R20, R21, R22, R23, R24, R25, R368) -/
def Obligations.RoutesOfTheTree : Prop :=
  ∀ (s : State) (p : Fin 16) (host : Bool) (depth port : BitVec 4) (hid : BitVec 14) (hids : List (BitVec 14)) (header : BitVec 64)
    (payload : List Word) (k : Nat),
    let h := hodOf header payload
    let peer := BitVec.ofNat 32 (2 ^ 31 + b2n host * 2 ^ 30 + 2 ^ 29 + depth.toNat * 2 ^ 24 + port.toNat * 2 ^ 20 + hid.toNat)
    s.alive = true → s.portUp p = true →
    (s.role p ≠ 1 → ((s.thaw p).setW (R.PL_PEER p) peer).role p ≠ 1 →
      exec (.hello p host true depth port hid) s = .next (((s.thaw p).setW (R.PL_PEER p) peer).addRoutes p [hid.toNat])) ∧
    (s.role p = 2 → exec (.routeAdd p hids) s = .next ((s.thaw p).addRoutes p (hids.map BitVec.toNat))) ∧
    (s.role p = 2 → exec (.routeDel p hids) s = .next ((s.thaw p).delRoutes p fun i => (hids.map BitVec.toNat).contains i)) ∧
    (s.role p = 1 → h.hid ≠ s.hid → s.descs.find? (fun i => s.f (F.DESC_HID i) == h.hid) = some k →
      exec (.downstreamRoute p header payload) s = .next (s.enqueue (s.f (F.DESC_PORT k)) (some p) h)) ∧
    (s.role p = 1 → h.hid ≠ s.hid → s.descs.find? (fun i => s.f (F.DESC_HID i) == h.hid) = none →
      exec (.downstreamRoute p header payload) s =
        .next (((s.bumpW R.UNROUTE_CNT 1).raiseBit R.LINK_EVT 7 0x0912 p h.hid).freeBuf p (s.inClass p h))) ∧
    (s.role p = 2 → (s.port p).conflict = false → exec (.relayHod p true header payload) s = .next (s.relay p h)) ∧
    (s.role p = 2 → (s.port p).conflict = false → s.maySend s.primary ⟨3, some p, 0, h⟩ = true → ((s.port s.primary).waiting.any fun w => w.cls == 3) = false →
      exec (.relayHod p false header payload) s = .next (s.putFrame s.primary { h with lseq := s.f (F.PL_STAT_TX_NEXT s.primary) }.aborted))

/-- The groups that the lanes of an UP port receive are decoded, put together and taken hod by hod. Where they hold one hod: one with a bad CRC is
counted and answered by a NAK; a sequenced hod that is the expected one is accepted; one of the 128 before it is answered by LINK and otherwise
dropped; any other is answered by a NAK; an aborted one is counted. That the LINK hod of a duplicate goes at once is the model's reading
(notes/assumptions/50.md). (R311, R313, R339, R340, R343, R344, R347, R348, R350) -/
def Obligations.SequencedArrivals : Prop :=
  ∀ (s u : State) (p : Fin 16) (lines : List LineIn) (a : Arrival),
    let h := hodOf a.header a.payload
    let e := u.f (F.PL_STAT_RX_NEXT p)
    s.alive = true → s.portUp p = true → s.rxPort p lines = (u, [a]) →
    (a.abort = true → exec (.hodArrival p lines) s = .next (u.bump (F.PL_MISC_ABORT p) 1)) ∧
    (a.abort = false → a.crcOk = false → exec (.hodArrival p lines) s = .next ((u.bump (F.PL_ERR_CRC p) 1).nak p)) ∧
    (a.abort = false → a.crcOk = true → h.typ ≠ 0 → h.typ ≠ 4 → h.lseq = e → exec (.hodArrival p lines) s = .next (u.accept p a)) ∧
    (a.abort = false → a.crcOk = true → h.typ ≠ 0 → h.typ ≠ 4 → h.lseq ≠ e → (e + 4096 - h.lseq) % 4096 ≤ 128 →
      exec (.hodArrival p lines) s = .next ((u.freeBuf p (u.inClass p h)).sendLink p false)) ∧
    (a.abort = false → a.crcOk = true → h.typ ≠ 0 → h.typ ≠ 4 → h.lseq ≠ e → 128 < (e + 4096 - h.lseq) % 4096 →
      exec (.hodArrival p lines) s = .next (u.nak p))

/-- A LINK hod acknowledges the replay entries it names, sets the credit limits and lets waiting hods leave, and a NAK resends first. The timers
resend, send LINK, and take the port down with event 0x0904. The oldest EVENT hod leaves through the primary UP port where credit stands and no
hod of its class was ready before it. LINK_CFG takes a new primary port while neither it nor the old one is UP, and the relayed hods that wait go
with it. That relayed hods wait and move with PRIMARY (notes/assumptions/49.md), and how resends are counted (notes/assumptions/50.md), are the
model's readings. (R345, R346, R347, R348, R349, R352, R362, R364) -/
def Obligations.LinkControl : Prop :=
  ∀ (s : State) (p : Fin 16) (seq : BitVec 12) (l0 l1 l2 l3 : BitVec 16) (r : Req) (v : Word) (ws : List Word) (q : List EvtHod),
    let x := (s.thaw p).port p
    let lim := setCnt (setCnt (setCnt (setCnt [] 0 l0.toNat) 1 l1.toNat) 2 l2.toNat) 3 l3.toNat
    let told (last : Nat) : State := (s.thaw p).setPort p { (match ackList last x.replay with
      | some rs => { x with replay := rs, fails := 0 }
      | none => x) with gotLink := true, lim := lim }
    (s.alive = true → s.portUp p = true → exec (.link p false seq l0 l1 l2 l3) s = .next ((told seq.toNat).pump p)) ∧
    (s.alive = true → s.portUp p = true →
      exec (.link p true seq l0 l1 l2 l3) s = .next (((told ((seq.toNat + 4095) % 4096)).resend p).pump p)) ∧
    (s.alive = true → s.portUp p = true → exec (.linkHodSend p) s = .next (s.sendLink p false)) ∧
    (s.alive = true → s.portUp p = true → exec (.replayTimeout p) s = .next (s.resend p)) ∧
    (s.alive = true → s.portUp p = true → exec (.linkSilent p) s = .next ((s.leaveUp p 6 false).raiseBit R.LINK_EVT 3 0x0904 p 0)) ∧
    (s.alive = true → s.evtq = ws :: q → s.role s.primary = 1 → s.canSend s.primary 0 = true → s.before s.primary = false →
      exec .eventHodSend s = .next (({ s with evtq := q }.sendHod s.primary 0
        { typ := 3, vc := 0, flags := 0, hid := s.hid, sub := 0, lseq := 0, payload := ws }).eventGone s.primary)) ∧
    (s.takes r R.LINK_CFG → bits v.toNat 23 16 ≠ 0 → s.role (bits v.toNat 3 0) = 1 → wbit v 12 = false → s.portUp s.primary = false →
      s.portUp (bits v.toNat 3 0) = false →
      exec (.linkCfgWrite r v) s = .next (((s.setW R.LINK_CFG (v &&& 0x00FF1F0F)).movePrimary s.primary).fin .ok))

/-- A scrub adds what it corrected to the counter of its block, saturating at 2^32 - 1, and changes no other register; of a lane it counts nothing;
in DORMANT it acts on the log alone; a log entry that it cannot correct is marked and raises 0x0A09; the cornerstone is scrubbed also while RST_N
is held low. An uncorrectable error in a tile, a filter engine (the detail names the path), the trigger unit, the press, a pallet queue, the gap
reserve, the stream table, a mason's inbox or the cornerstone raises that block's event and takes the hub through its fault entry to SAFE,
whether found in the block or on a crossing into it; the cornerstone first stops metering and drops its intervals and a batch of its own, so that
its MRAM stays as it is, and while RST_N is held low the hub enters SAFE at the release. One in a word of a mason's memories waits for the read
that meets it. The packing of the details (notes/assumptions/25.md), what is dropped of the cornerstone's intervals and while its supply is away
(notes/assumptions/95.md), what becomes of a batch of its own and of SAFE under RST_N (notes/assumptions/105.md), and that a scrub raises 0x0A09
(notes/assumptions/33.md) are the model's choices. (R11, R12, R74, R142, R172, R203, R218, R281, R302, R411, R480) -/
def Obligations.StorageErrors : Prop :=
  ∀ (s : State) (t : Fin 24) (p : Fin 8) (m : Fin 16) (q : Fin 64) (b : Blk) (a : Nat) (n : Word) (e : Fin 1024) (k : Fin 16384) (d : Fin 32768)
    (l : Fin 32),
    let fault (u : State) (c : Nat) : Host.Outcome State Fault Refusal := .next (u.faultSafe c)
    let z := s.bumpW R.LOG_FIX n.toNat
    let stopped : State := { s.csEvent 7 0x0B08 0 0 with csStop := true, enDue := none }
    let left := stopped.csAbandon
    let halted := left.each left.metering fun u j => u.setMeter j { u.meter j with start := none }
    (s.csRuns = true → s.csOn = true → exec (.scrub .cornerstone n none) s = .next (s.bumpW R.CS_FIX n.toNat)) ∧
    (s.csRuns = true → s.csOn = true → halted.rstLow = true → exec .csUncorr s = .next { halted with safeNext := some 0x0B08 }) ∧
    ((∀ x : Batch, s.nv = some x → x.writer < 5) → left = stopped) ∧
    (∀ x : Batch, s.nv = some x → 5 ≤ x.writer → s.owed = none → left.nv = none ∧ left.csPend = none ∧ left.nvm = s.nvm) ∧
    (s.alive = true →
    (s.mode ≠ 0 ∨ b = .log → (b = .cornerstone → s.csOn = true) → fixReg b = some a → ∃ u, exec (.scrub b n none) s = .next u ∧
      u.w a = BitVec.ofNat 32 (min ((s.w a).toNat + n.toNat) 0xFFFFFFFF) ∧ ∀ i, i ≠ a → u.w i = s.w i) ∧
    exec (.scrub (.lane l) n none) s = .next s ∧
    (s.mode = 0 → b ≠ .log → exec (.scrub b n none) s = .next s) ∧
    exec (.scrub .log n (some e)) s = .next ({ z with bad := insNat (R.LOG_ENT e) z.bad }.raiseBit R.KILN_EVT 8 0x0A09 0 e) ∧
    exec (.tileUncorr t) s = fault (s.raiseBit (R.TILE_EVT t) 8 0x030B t 0) 0x030B ∧
    exec (.crossingUncorr (.tile t)) s = fault (s.raiseBit (R.TILE_EVT t) 8 0x030B t 0) 0x030B ∧
    exec (.feUncorr ⟨t, p⟩) s = fault (s.raiseBit (R.FE_EVT t) 2 0x0403 t (p * 256)) 0x0403 ∧
    exec (.crossingUncorr (.filter t p)) s = fault (s.raiseBit (R.FE_EVT t) 2 0x0403 t (p * 256)) 0x0403 ∧
    exec .trigUncorr s = fault (s.raiseBit R.TRIG_EVT 1 0x0502 0 0) 0x0502 ∧
    exec (.crossingUncorr .trig) s = fault (s.raiseBit R.TRIG_EVT 1 0x0502 0 0) 0x0502 ∧
    exec .pressUncorr s = fault (s.raiseBit R.PRESS_EVT 2 0x0703 0 0) 0x0703 ∧
    exec (.crossingUncorr .press) s = fault (s.raiseBit R.PRESS_EVT 2 0x0703 0 0) 0x0703 ∧
    exec (.pqUncorr q) s = fault (s.raise 0x0C08 q 0) 0x0C08 ∧ exec (.crossingUncorr (.pallet q)) s = fault (s.raise 0x0C08 q 0) 0x0C08 ∧
    exec .rsvUncorr s = fault (s.raiseBit R.YARD_EVT 8 0x0609 0 0) 0x0609 ∧
    exec (.crossingUncorr .yard) s = fault (s.raiseBit R.YARD_EVT 8 0x0609 0 0) 0x0609 ∧
    exec (.masonUncorr m .streams) s = fault (s.raise 0x0C07 0 0) 0x0C07 ∧ exec (.crossingUncorr .streams) s = fault (s.raise 0x0C07 0 0) 0x0C07 ∧
    exec (.masonUncorr m .inbox) s = fault (s.raiseBit (R.MC_EVT m) 3 0x0C04 m 0) 0x0C04 ∧
    exec (.crossingUncorr (.mason m)) s = fault (s.raiseBit (R.MC_EVT m) 3 0x0C04 m 0) 0x0C04 ∧
    (s.csOn = true → s.mode ≠ 0 → halted.rstLow = false → exec .csUncorr s = exec (.crossingUncorr .cornerstone) s ∧ exec .csUncorr s = fault halted 0x0B08) ∧
    exec (.masonUncorr m (.imem k)) s = .next { s with bad := insNat (imem m + 4 * k) s.bad } ∧
    exec (.masonUncorr m (.dmem d)) s = .next { s with bad := insNat (dmem m + 4 * d) s.bad })

/-- A legal gain code of a channel that is not metered is in force and completes with OK; where it changes the code of an ACTIVE tile's input the
input is UNSETTLED and a disturbance of its channel begins on every path, and a running overlap on the input starts again; a code of 5 or more is
UNSUPPORTED, and any of a metered channel is LOCKED. TILE_CTL takes FORCE_ON, ROT_EN and an unchanged RDIV at any time; a new RDIV of 1 to 40, or
new pairs, of a tile in SLEEP that keeps every limit is taken, of another tile BUSY, and of a metered one LOCKED; an RDIV out of range is
UNSUPPORTED, and so are pairs or a divider that break a limit. APPLY puts the staged OFF and GAIN of every channel that is not metered in use.
EXC_LVL takes a new level towards which the drive moves. EXC_CTL with EN in HOLD or ACQUIRE connects a drive that is not connected, from zero,
and it moves towards its level; EN clear makes zero its target; EN in another mode is MODE, and with FAULT set it has no effect. Which refusal
comes first where a rule does not order them (LOCKED, then the range, then BUSY, then the limits; EN in another mode before FAULT) is the model's
reading (notes/assumptions/14.md). (R34, R37, R38, R40, R42, R46, R47, R53, R66, R67, R68, R399) -/
def Obligations.TileRegisterWrites : Prop :=
  ∀ (s : State) (r : Req) (t : Fin 24) (i : Fin 16) (v : Word),
    let g := bits v.toNat 2 0
    let a := s.setF (F.TILE_PGA_GAIN t i) g
    let b := a.setF (F.CH_STAT_UNSETTLED t i) 1
    let rdiv := bits v.toNat 13 8
    let ilv := bits v.toNat 7 0
    let ctl := s.setW (R.TILE_CTL t) (v &&& 0x3F03)
    let paired := s.setF (F.TILE_ILV_ILV t) ilv
    let same := rdiv = s.f (F.TILE_CTL_RDIV t)
    let exc := (s.setF (F.EXC_CTL_RAMP t) (bits v.toNat 31 16)).setF (F.EXC_CTL_EN t) (b2n (wbit v 0))
    (s.takes r (R.TILE_PGA t i) → s.metered t i = false → g < 5 → s.tileActive t = false ∨ g = s.f (F.TILE_PGA_GAIN t i) → exec (.gainChange r t i v) s = .next ((a.gainOverlap t i).fin .ok)) ∧
    (s.takes r (R.TILE_PGA t i) → s.metered t i = false → g < 5 → s.tileActive t = true → g ≠ s.f (F.TILE_PGA_GAIN t i) →
      exec (.gainChange r t i v) s = .next (((b.disturb t i 3 (u5 b.st)).gainOverlap t i).fin .ok)) ∧
    (s.alive = true → accOf r (R.TILE_PGA t i) = .rw → s.metered t i = true → exec (.gainChange r t i v) s = .next (s.fin .locked)) ∧
    (s.takes r (R.TILE_PGA t i) → s.metered t i = false → 5 ≤ g → exec (.gainChange r t i v) s = .next (s.fin .unsupported)) ∧
    (s.takes r (R.TILE_CTL t) → same → exec (.tileCtlWrite r t false v) s = .next (ctl.fin .ok)) ∧
    (s.takes r (R.TILE_CTL t) → s.tileMetered t = false → ¬same → 1 ≤ rdiv → rdiv ≤ 40 → s.f (F.TILE_STAT_PSTATE t) = 0 → ctl.tileOk t = true →
      exec (.tileCtlWrite r t false v) s = .next ((ctl.rateCheck t).fin .ok)) ∧
    (s.takes r (R.TILE_CTL t) → s.tileMetered t = false → ¬same → rdiv = 0 ∨ 40 < rdiv → exec (.tileCtlWrite r t false v) s = .next (s.fin .unsupported)) ∧
    (s.takes r (R.TILE_CTL t) → s.tileMetered t = false → ¬same → 1 ≤ rdiv → rdiv ≤ 40 → s.f (F.TILE_STAT_PSTATE t) ≠ 0 → exec (.tileCtlWrite r t false v) s = .next (s.fin .busy)) ∧
    (s.takes r (R.TILE_CTL t) → s.tileMetered t = false → ¬same → 1 ≤ rdiv → rdiv ≤ 40 → s.f (F.TILE_STAT_PSTATE t) = 0 → ctl.tileOk t = false →
      exec (.tileCtlWrite r t false v) s = .next (s.fin .unsupported)) ∧
    (s.alive = true → accOf r (R.TILE_CTL t) = .rw → s.tileMetered t = true → ¬same → exec (.tileCtlWrite r t false v) s = .next (s.fin .locked)) ∧
    (s.takes r (R.TILE_ILV t) → ilv = s.f (F.TILE_ILV_ILV t) → exec (.tileCtlWrite r t true v) s = .next (s.fin .ok)) ∧
    (s.takes r (R.TILE_ILV t) → s.tileMetered t = false → ilv ≠ s.f (F.TILE_ILV_ILV t) → s.f (F.TILE_STAT_PSTATE t) = 0 → paired.tileOk t = true →
      exec (.tileCtlWrite r t true v) s = .next (((paired.showPairs t).failBad t).fin .ok)) ∧
    (s.takes r (R.TILE_ILV t) → s.tileMetered t = false → ilv ≠ s.f (F.TILE_ILV_ILV t) → s.f (F.TILE_STAT_PSTATE t) = 0 → paired.tileOk t = false →
      exec (.tileCtlWrite r t true v) s = .next (s.fin .unsupported)) ∧
    (s.takes r (R.TILE_ILV t) → s.tileMetered t = false → ilv ≠ s.f (F.TILE_ILV_ILV t) → s.f (F.TILE_STAT_PSTATE t) ≠ 0 → exec (.tileCtlWrite r t true v) s = .next (s.fin .busy)) ∧
    (s.alive = true → accOf r (R.TILE_ILV t) = .rw → s.tileMetered t = true → ilv ≠ s.f (F.TILE_ILV_ILV t) → exec (.tileCtlWrite r t true v) s = .next (s.fin .locked)) ∧
    (s.takes r (R.TILE_APPLY t) → wbit v 0 = true → exec (.tileApply r t v) s = .next ((s.each (range' 0 16) fun u i => u.applyChan t i).fin .ok)) ∧
    (s.takes r (R.TILE_APPLY t) → wbit v 0 = false → exec (.tileApply r t v) s = .next (s.fin .ok)) ∧
    (s.metered t i = false → (s.applyChan t i).w (R.CH_OFF_ACT t i) = s.w (R.CH_OFF t i) ∧ (s.applyChan t i).w (R.CH_GAIN_ACT t i) = s.w (R.CH_GAIN t i)) ∧
    (s.metered t i = true → s.applyChan t i = s) ∧
    (s.takes r (R.EXC_LVL t) → exec (.excCtlWrite r t true v) s = .next (((s.setF (F.EXC_LVL_LVL t) v.toNat).excSettle t).fin .ok)) ∧
    (s.takes r (R.EXC_CTL t) → wbit v 0 = true → s.live = true → s.b (F.EXC_STAT_FAULT t) = false → exc.b (F.EXC_STAT_CONNECTED t) = false →
      exec (.excCtlWrite r t false v) s = .next ((((exc.setF (F.EXC_STAT_CONNECTED t) 1).setF (F.EXC_STAT_NOW t) 0).excSettle t).fin .ok)) ∧
    (s.takes r (R.EXC_CTL t) → wbit v 0 = true → s.live = true → s.b (F.EXC_STAT_FAULT t) = false → exc.b (F.EXC_STAT_CONNECTED t) = true →
      exec (.excCtlWrite r t false v) s = .next ((exc.excSettle t).fin .ok)) ∧
    (s.takes r (R.EXC_CTL t) → wbit v 0 = false → exec (.excCtlWrite r t false v) s = .next ((exc.excSettle t).fin .ok)) ∧
    (s.takes r (R.EXC_CTL t) → wbit v 0 = true → s.live = false → exec (.excCtlWrite r t false v) s = .next (s.fin .mode)) ∧
    (s.takes r (R.EXC_CTL t) → wbit v 0 = true → s.live = true → s.b (F.EXC_STAT_FAULT t) = true → exec (.excCtlWrite r t false v) s = .next (s.fin .ok))

/-- A sleeping tile that something uses wakes in HOLD or ACQUIRE, with RATE_ERR clear, when its clock runs at a legal rate, and stays in SLEEP at
another rate; its calibration's trims are taken unless CAL_FROZEN, and the tile is ready; a tile that nothing uses sleeps. A ramp step moves the
drive by one code towards its target; an over-current disconnects it with event 0x030A. UNSETTLED clears when the settling time has passed, and
the disturbance of the channel ends on every path. A skew estimate above 25 moves the trim by one step; that it moves towards the sign of the
estimate, and no further than its limit, is the model's reading (notes/assumptions/20.md). (R37, R38, R53, R58, R59, R66, R67, R70, R71, R72) -/
def Obligations.TilePowerAndDrive : Prop :=
  ∀ (s : State) (t : Fin 24) (i : Fin 16) (k : Fin 8) (trims : List Trim) (iload : BitVec 12) (est : Int),
    let low := s.setF (F.SKEW_HOLD t k) 0
    let n := if 0 < est then sx 8 (low.f (F.SKEW_TRIM t k)) + 1 else sx 8 (low.f (F.SKEW_TRIM t k)) - 1
    s.alive = true →
    (s.f (F.TILE_STAT_PSTATE t) = 0 → s.live = true → s.smplRuns = true → s.rateOk t = true → s.wanted t = true → exec (.tileWake t) s = .next (((s.rateCheck t).setF (F.TILE_STAT_PSTATE t) 1).setF (F.TILE_STAT_IDLE t) 0)) ∧
    (s.smplRuns = true → s.rateOk t = true → (s.rateCheck t).f (F.TILE_STAT_RATE_ERR t) = 0 ∧ (s.rateCheck t).mgp = s.mgp) ∧
    (s.f (F.TILE_STAT_PSTATE t) = 0 → s.live = true → s.smplRuns = true → s.rateOk t = false → s.wanted t = true → exec (.tileWake t) s = .next (s.rateCheck t)) ∧
    (s.f (F.TILE_STAT_PSTATE t) = 1 → s.b (F.TILE_STAT_CAL_FROZEN t) = true →
      let u := (s.setF (F.TILE_STAT_PSTATE t) 2).setF (F.TILE_STAT_READY t) 1
      exec (.tileReady t trims) s = .next ((u.setTile t { u.tile t with perLog := u.f (F.TILE_ROT_PERIOD_LOG2 t) }).restartWake t)) ∧
    (s.f (F.TILE_STAT_PSTATE t) = 1 → s.b (F.TILE_STAT_CAL_FROZEN t) = false →
      let u := ((s.each ((range' 0 17).zip trims) fun u x => u.setTrim t x.1 x.2).setF (F.TILE_STAT_PSTATE t) 2).setF (F.TILE_STAT_READY t) 1
      exec (.tileReady t trims) s = .next ((u.setTile t { u.tile t with perLog := u.f (F.TILE_ROT_PERIOD_LOG2 t) }).restartWake t)) ∧
    (s.f (F.TILE_STAT_PSTATE t) = 2 → s.wanted t = false → exec (.tileSleep t) s = .next (s.tileStop t 0)) ∧
    (s.b (F.CH_STAT_UNSETTLED t i) = true →
      let a := s.setF (F.CH_STAT_UNSETTLED t i) 0
      let u := a.settleUntil t i (u5 a.st)
      exec (.gainSettleDone t i) s = .next (if (u.tile t).ovHold && u.inputOf t (u.tile t).nextK == i then u.setTile t { (u.tile t).restart with ovHold := false } else u)) ∧
    (s.b (F.EXC_STAT_RAMPING t) = true →
      exec (.excRampStep t iload) s = .next (((s.setF (F.EXC_STAT_ILOAD t) iload.toNat).setF (F.EXC_STAT_NOW t)
        (if s.f (F.EXC_STAT_NOW t) < s.excTarget t then s.f (F.EXC_STAT_NOW t) + 1 else s.f (F.EXC_STAT_NOW t) - 1)).excSettle t)) ∧
    (s.b (F.EXC_STAT_CONNECTED t) = true → 3000 < iload.toNat →
      exec (.excFault t iload) s =
        .next ((((s.setF (F.EXC_STAT_ILOAD t) iload.toNat).excCut t).setF (F.EXC_STAT_FAULT t) 1).raiseBit (R.TILE_EVT t) 5 0x030A t 0)) ∧
    (s.tileActive t = true → s.pairEven t (2 * k) = true → exec (.skewUpdate t k true est) s = .next (s.setF (F.SKEW_HOLD t k) 1)) ∧
    (s.tileActive t = true → s.pairEven t (2 * k) = true → 25 < est.natAbs → -127 ≤ n → n ≤ 127 →
      exec (.skewUpdate t k false est) s = .next (low.setF (F.SKEW_TRIM t k) (wrap 8 n)))

/-- At a period boundary an idle rotation starts on the next slice. When the first overlap of 256 pairs lies within the tolerance the spare takes the
slice's place, else the hand-in is counted as aborted with event 0x0302. After the slice's calibration the second overlap begins; within the
tolerance the slice takes its input back, the residual fades over 4,096 samples, and the spare calibrates itself; the calibration count then
rises by the rotation's calibrations. A second hand-back in a row outside the tolerance retires the slice with event 0x0303 and freezes the
rotation. What the count counts beside the two of a whole rotation is the model's reading (notes/assumptions/26.md). (R48, R49, R50, R54, R55,
R57) -/
def Obligations.HandoverOfASlice : Prop :=
  ∀ (s : State) (t : Fin 24) (trim : Trim) (k m : Nat) (e : Int),
    let x := s.tile t
    let fresh := s.setTile t { x with perLog := s.f (F.TILE_ROT_PERIOD_LOG2 t) }
    s.alive = true →
    (s.tileActive t = true → s.f (F.TILE_STAT_PHASE t) = 0 → s.f (F.TILE_STAT_SPARE_POS t) = 16 → s.b (F.TILE_CTL_ROT_EN t) = true →
      s.b (F.TILE_STAT_CAL_FROZEN t) = false → exec (.rotationBoundary t) s = .next (fresh.startRotation t)) ∧
    (s.f (F.TILE_STAT_PHASE t) = 1 → x.ovCount = 256 → iabs x.ovSum ≤ 256 * s.tol t →
      exec (.handIn t) s = .next ((((s.setF (F.TILE_STAT_PHASE t) 2).setF (F.TILE_STAT_SPARE_POS t) x.nextK).setSrc t x.nextK 16).setTile t
        { x.restart with rSum := x.ovSum, aborts := 0, repeated := false, cals := 0 })) ∧
    (s.f (F.TILE_STAT_PHASE t) = 1 → x.ovCount = 256 → 256 * s.tol t < iabs x.ovSum → x.aborts < 2 →
      exec (.handIn t) s = .next ((((s.bump (F.TILE_HO_ABORT_IN t) 1).raiseBit (R.TILE_EVT t) 0 0x0302 t x.nextK).setF (F.TILE_STAT_PHASE t) 4).setTile t
        { x.restart with spareCal := true, cals := 0, aborts := x.aborts + 1 })) ∧
    (s.f (F.TILE_STAT_PHASE t) = 2 →
      let u := (s.setTrim t x.nextK trim).setF (F.TILE_STAT_PHASE t) 3
      exec (.sliceCalDone t trim) s = .next (u.setTile t { (u.tile t).restart with ovWait := 16, cals := (u.tile t).cals + 1 })) ∧
    (s.f (F.TILE_STAT_PHASE t) = 3 → x.ovCount = 256 → iabs x.ovSum ≤ 256 * s.tol t →
      exec (.handBack t) s = .next ((((s.setF (F.TILE_STAT_PHASE t) 4).setF (F.TILE_STAT_SPARE_POS t) 16).setSrc t x.nextK x.nextK).setTile t
        { x.restart with fade := some (x.nextK, x.ovSum, 0), rSum := 0, nextK := (x.nextK + 1) % 16, repeated := false, spareCal := false })) ∧
    (s.f (F.TILE_STAT_PHASE t) = 3 → x.ovCount = 256 → 256 * s.tol t < iabs x.ovSum → x.repeated = false →
      exec (.handBack t) s = .next ((((s.bump (F.TILE_HO_ABORT_BACK t) 1).raiseBit (R.TILE_EVT t) 0 0x0302 t x.nextK).setF (F.TILE_STAT_PHASE t) 5).setTile t
        { x.restart with repeated := true })) ∧
    (x.fade = some (k, e, m) → 4096 ≤ m → exec (.fadeResidualDone t) s = .next (s.setTile t { x with fade := none })) ∧
    (s.f (F.TILE_STAT_PHASE t) = 4 →
      let u := (s.setTrim t 16 trim).setF (F.TILE_STAT_PHASE t) 0
      let w := u.setW (R.TILE_CAL_CNT t) (u.w (R.TILE_CAL_CNT t) + BitVec.ofNat 32 ((u.tile t).cals + 1))
      exec (.spareCalDone t trim) s = .next (w.setTile t { (u.tile t).restart with cals := 0, spareCal := false })) ∧
    (s.f (F.TILE_STAT_PHASE t) = 3 → x.ovCount = 256 → 256 * s.tol t < iabs x.ovSum → x.repeated = true →
      let u := ((((s.bump (F.TILE_HO_ABORT_BACK t) 1).raiseBit (R.TILE_EVT t) 0 0x0302 t x.nextK).setF (F.TILE_STAT_PHASE t) 0).setBit (R.TILE_RETIRE t) x.nextK).raiseBit
        (R.TILE_EVT t) 1 0x0303 t x.nextK
      exec (.handBack t) s = .next ((u.countCals t 0).freeze t))

/-- In a tile that converts, on an SMPL edge that its divider counts, the sample of a slice that delivers its input, outside an overlap, with no
residual fading, gives the word y = saturate(round_half_even((x + OFF) x GAIN / 2^23)), x the trimmed code, OFF and GAIN the values in use; it
enters the paths of its channel with the instant of its edge. A saturated word or an end code counts as clipped. (R38, R39, R43, R44, R45, R50) -/
def Obligations.ConversionsBecomeChannelWords : Prop :=
  ∀ (s : State) (t : Fin 24) (sl : Fin 17) (code : BitVec 16) (edge tau k : Nat),
    let i := s.inputOf t k
    let x := s.sliceTrim t sl code
    let y := divEven ((x + sx 24 (s.w (R.CH_OFF_ACT t i)).toNat) * ((s.w (R.CH_GAIN_ACT t i)).toNat : Nat)) (2 ^ 23)
    let clips := endCode code || satS 24 y != y
    let u := s.setTile t { s.tile t with clip := setBitTo (s.tile t).clip i clips }
    let w := u.when clips fun z => z.clip t i
    s.alive = true → s.tileActive t = true → s.samples t edge = true → s.placeOf t sl = some k → s.b (F.CH_STAT_FAILED t i) = false → s.overlap t = false →
    s.delivers t sl k = true → sl.val ≠ 16 → (s.tile t).fade = none →
      exec (.convertSample t sl code edge tau) s =
        .next (w.channelWord t i (w.sampleAt t sl k edge tau) edge (w.pairOdd t k) (satS 24 y))

/-- ST_LOAD in BRINGUP or HOLD with every grid STOPPED copies ST_SET into ST, with which the instants of the SMPL edges move and at which the
metering intervals end (the model's choice, notes/assumptions/120.md), leaves what counts SYS cycles counting (the model's choice for the last
PPS edge, notes/assumptions/119.md), and resets the servo; in another mode it is MODE, with a running grid BUSY. A legal period of a STOPPED grid
is taken; one below 12.5 ns or that breaks R14 or R15 for a stream is UNSUPPORTED, and any period of a grid that is not STOPPED is BUSY. GRID_CTL
with CDIV above 0 is taken of a STOPPED grid; STOP of a grid no active stream uses stops it, of a grid in use it is BUSY. AT and NEXT_SEC arm the
named grids at least 100 us ahead; CANCEL disarms them. The order of the refusals is the model's reading (notes/assumptions/14.md), and so is
which checks a period makes after its range, MCLK's left out (notes/assumptions/98.md). (R82, R86, R87, R88, R89, R91, R108) -/
def Obligations.SystemTimeAndGrids : Prop :=
  ∀ (s : State) (r : Req) (g : Fin 4) (frac : Bool) (v : Word) (m : BitVec 4),
    let a := if frac then R.GRID_PER_FRAC g.val else R.GRID_PER_NS g.val
    let at_ := s.two R.GRID_SYNC_SEC % 2 ^ 48 * secU + (s.w R.GRID_SYNC_NS).toNat * nsU
    let sec := ceilDiv (s.st + 100000 * nsU) secU * secU
    let cdiv := bits v.toNat 27 16
    let idleCtl := (s.setF (F.GRID_CTL_TYPE g) (b2n (wbit v 0))).setF (F.GRID_CTL_CDIV g) cdiv
    (s.takes r R.ST_LOAD → wbit v 0 = true → s.mode = 1 ∨ s.mode = 2 → s.gridsStopped = true →
      let z := (s.meterLoad (s.time4 R.ST_SET)).moveSmpl ((s.time4 R.ST_SET : Int) - s.st)
      exec (.stLoad r v) s = .next ((({ z with st := s.time4 R.ST_SET, pps := { z.pps with mark := none } }.servoReset).fin .ok))) ∧
    (s.takes r R.ST_LOAD → wbit v 0 = true → s.mode ≠ 1 → s.mode ≠ 2 → exec (.stLoad r v) s = .next (s.fin .mode)) ∧
    (s.takes r R.ST_LOAD → wbit v 0 = true → s.mode = 1 ∨ s.mode = 2 → s.gridsStopped = false → exec (.stLoad r v) s = .next (s.fin .busy)) ∧
    (s.takes r a → 25 * 2 ^ 31 ≤ (s.setW a v).per g → s.gstate g = 0 → (s.setW a v).periodFits g = true → exec (.gridPerWrite r g frac v) s = .next ((s.setW a v).fin .ok)) ∧
    (s.takes r (R.GRID_CTL g) → wbit v 1 = false → cdiv ≠ 0 → s.gstate g = 0 → exec (.gridCtlWrite r g v) s = .next (idleCtl.fin .ok)) ∧
    (s.takes r (R.GRID_CTL g) → cdiv ≠ 0 → s.f (F.GRID_CTL_TYPE g) = b2n (wbit v 0) → s.f (F.GRID_CTL_CDIV g) = cdiv → s.gridUsed g = false → exec (.gridStop r g v) s = .next ((idleCtl.stopGrid g).fin .ok)) ∧
    (s.takes r (R.GRID_CTL g) → s.gstate g ≠ 0 → s.gridUsed g = true → cdiv ≠ 0 → wbit v 1 = true → exec (.gridCtlWrite r g v) s = .next (s.fin .busy)) ∧
    (s.takes r R.GRID_SYNC_CMD → s.live = true → s.st + 100000 * nsU ≤ at_ → s.machineUnlocked (maskGrids m) = false →
      exec (.gridSyncAt r m) s = .next ((s.each (maskGrids m) fun u k => u.armGrid k at_).fin .ok)) ∧
    (s.takes r R.GRID_SYNC_CMD → s.live = true → s.machineUnlocked (maskGrids m) = false →
      exec (.gridSyncNextSec r m) s = .next ((s.each (maskGrids m) fun u k => u.armGrid k sec).fin .ok)) ∧
    (s.takes r R.GRID_SYNC_CMD → s.live = true → exec (.gridSyncCancel r m) s = .next ((s.each (maskGrids m) fun u k => u.disarm k).fin .ok)) ∧
    (s.takes r a → s.gstate g ≠ 0 → exec (.gridPerWrite r g frac v) s = .next (s.fin .busy)) ∧
    (s.takes r a → s.gstate g = 0 → (s.setW a v).per g < 25 * 2 ^ 31 → exec (.gridPerWrite r g frac v) s = .next (s.fin .unsupported)) ∧
    (s.takes r a → s.gstate g = 0 → (s.setW a v).periodFits g = false → exec (.gridPerWrite r g frac v) s = .next (s.fin .unsupported))

/-- At the SYNC instant an armed grid runs from course 0 with WRAPS 0 and, in a TIME grid, the instant as its epoch; the paths of its channels begin
again after a tail, its groups start afresh and its streams break. A MACHINE grid notes the SMPL edge of course 0, and another MACHINE grid with
the same instant takes that edge and no other. A course of a running TIME grid, be it ARMED_RUNNING or not, whose instant lies before any pending
SYNC falls at epoch + n periods: it advances GRID_COURSE, captures every 65,536th, and is awaited by each path of the grid that is not idle on an
ACTIVE tile; at or after the SYNC no course of the old numbering falls. After course 2^48 - 1 the numbers begin again at 0: WRAPS counts, a TIME
grid's epoch moves on by 2^48 periods, and event 0x0208 is raised. A course of a running MACHINE grid falls on its SMPL edge, CDIV edges after
the one before, at the measured instant, while SMPL runs, course 0 within a SMPL period of the SYNC; on any other edge nothing happens. Neither
command acts on a grid that is not armed or not running. Where nothing happens because the event cannot then come (notes/assumptions/8.md), the
edge and its instant as operands (notes/assumptions/9.md, notes/assumptions/32.md), the quality at the course's instant (notes/assumptions/24.md)
and which courses become the tail (notes/assumptions/113.md) are the model's choices. (R86, R88, R89, R90, R92, R93, R95, R130, R159, R169) -/
def Obligations.CoursesAndTheSyncInstant : Prop :=
  ∀ (s : State) (g : Fin 4) (edge tau t e : Nat),
    let x := s.grid g
    let n := x.next
    let at_ := (s.edgeTime edge tau).toNat
    let w := s.wrapCourse g
    let z := (s.bump (F.GRID_STAT_WRAPS g) 1).setGrid g { x with next := 0, prev := 2 ^ 48 - 1, base := x.base + 2 ^ 48, edge0 := x.edge0 + s.f (F.GRID_CTL_CDIV g) * 2 ^ 48 }
    let begun := ((s.reach t).each (s.gridPaths g) fun u q => u.restartPath q.1 q.2 1).syncGroups g
    let first := fun (at0 : Option Nat) => ((begun.setF (F.GRID_STAT_STATE g) 2).setF (F.GRID_STAT_WRAPS g) 0).setGrid g ((begun.grid g).renumber (s.running g) edge at0)
    let falls := fun (z : State) (at_ : Nat) => (let k := (z.grid g).next
      let u := (((z.reach (stForm at_)).when (z.machine g) fun u => u.anchorSmpl edge at_).setGrid g ((z.grid g).count (z.f F.TIME_STAT_QUALITY))).machineSteps ((z.grid g).base + k) (stForm at_) (z.grid g).steps
      let w := u.when (u.machine g && k == 0) fun y => y.setTime4 (R.GRID_EPOCH g) (stForm at_)
      let y := (w.setTwo (R.GRID_COURSE g) k).when (k % 65536 == 0) fun y => y.mstamp g k at_
      y.each ((y.gridPaths g).filter fun q => y.tileActive q.1 && !y.pathIdle q.1 q.2) fun y q => y.setPath (8 * q.1 + q.2)
        { y.path (8 * q.1 + q.2) with due := (y.path (8 * q.1 + q.2)).due ++ [⟨(z.grid g).base + k, at_, edge, 0, 0, z.f F.TIME_STAT_QUALITY⟩] })
    s.alive = true →
    (s.armed g = true → x.sync = some t → s.machine g = false → exec (.gridSyncInstant g edge) s = .next (((first none).setTime4 (R.GRID_EPOCH g) t).syncBreaks g)) ∧
    (s.armed g = true → x.sync = some t → s.machine g = true → s.smpl.sync = none ∨ s.smpl.sync = some (t, edge) →
      exec (.gridSyncInstant g edge) s = .next (((first (some t)).noteSync t edge).syncBreaks g)) ∧
    (s.armed g = true → x.sync = some t → s.machine g = true → s.smpl.sync = some (t, e) → e ≠ edge → exec (.gridSyncInstant g edge) s = .next s) ∧
    (s.armed g = false → exec (.gridSyncInstant g edge) s = .next s) ∧
    (s.running g = false → n < 2 ^ 48 → exec (.courseInstant g edge tau) s = .next s) ∧
    (s.running g = true → n < 2 ^ 48 → s.machine g = false → x.sync = none → exec (.courseInstant g edge tau) s = .next (falls s (s.instant5 g n))) ∧
    (s.running g = true → n < 2 ^ 48 → s.machine g = false → x.sync = some t → s.instant5 g n < u5 t → exec (.courseInstant g edge tau) s = .next (falls s (s.instant5 g n))) ∧
    (s.running g = true → n < 2 ^ 48 → s.machine g = false → s.armed g = true → x.sync = some t → u5 t ≤ s.instant5 g n → exec (.courseInstant g edge tau) s = .next s) ∧
    (s.running g = true → 2 ^ 48 ≤ n → w.machine g = false → (w.grid g).sync = none → exec (.courseInstant g edge tau) s = .next (falls w (w.instant5 g (w.grid g).next))) ∧
    ((w.grid g).next = 0 ∧ (w.grid g).base = x.base + 2 ^ 48) ∧
    (z.machine g = false → w = (z.setTime4 (R.GRID_EPOCH g) ((z.epoch g + z.per g * 2 ^ 32) % stMod)).raiseBit R.TIME_EVT 7 0x0208 0 g) ∧
    (s.running g = true → n < 2 ^ 48 → s.machine g = true → x.sync = none → s.smplRuns = true → edge = x.edge0 + s.f (F.GRID_CTL_CDIV g) * n → s.firstEdge x at_ = true →
      exec (.courseInstant g edge tau) s = .next (falls s at_)) ∧
    (s.running g = true → n < 2 ^ 48 → s.machine g = true → edge ≠ x.edge0 + s.f (F.GRID_CTL_CDIV g) * n ∨ s.smplRuns = false ∨ s.firstEdge x at_ = false →
      exec (.courseInstant g edge tau) s = .next s) ∧
    (x.at0 = some t → at_ < u5 t → s.firstEdge x at_ = false) ∧
    (x.at0 = some t → u5 t + s.widestSmpl ≤ at_ → s.firstEdge x at_ = false)

/-- While no tile works, SMPL_CTL takes a VDIV in range, with a source that every named path fits, and SMPL locks anew, and MCLK_CTL takes an
unchanged legal multiplier; a VDIV out of range, and a source that a named path does not fit, is UNSUPPORTED, and with a tile at work any write
of SMPL_CTL is BUSY. A phase below 64 x VDIV is taken, towards which the interpolator moves from the present edge on. A machine clock whose
product is in range locks; losing it, or a product that leaves the range, starts the holdover at the frequency it had with event 0x0205 and only
clears LOCK; its return sets FREQ and clears LOS; RELOCK in the holdover locks again. That a change of SRC drops LOCK, HOLDOVER and SMPL_LOCK at
once (notes/assumptions/29.md), where the edges stand after a lock (notes/assumptions/99.md), BUSY before the ranges of SMPL_CTL
(notes/assumptions/14.md) and RELOCK with HOLDOVER 0 or a product out of range (notes/assumptions/38.md) are the model's choices. (R96, R97, R98,
R115, R503) -/
def Obligations.SampleClockAndReference : Prop :=
  ∀ (s : State) (r : Req) (v : Word) (freq : BitVec 24),
    let vdiv := bits v.toNat 12 0
    let mul := bits v.toNat 28 16
    let held := fun (u : State) => (((u.setF F.MCLK_STAT_HOLDOVER 1).setF F.MCLK_STAT_LOCK 0).setF F.TIME_STAT_SMPL_LOCK 0).raiseBit R.TIME_EVT 4 0x0205 0 0
    (s.takes r R.SMPL_CTL → s.anyMetered = false → 125 ≤ vdiv → vdiv ≤ 5000 → s.b F.SMPL_CTL_SRC = wbit v 16 → s.tilesQuiet = true → s.sourceOk (wbit v 16) = true →
      exec (.smplCtlWrite r false v) s = .next (((s.setF F.SMPL_CTL_VDIV vdiv).setF F.SMPL_CTL_SRC (b2n (wbit v 16))).smplLock.rateChecks.fin .ok)) ∧
    (s.takes r R.SMPL_CTL → s.anyMetered = false → 125 ≤ vdiv → vdiv ≤ 5000 → s.b F.SMPL_CTL_SRC ≠ wbit v 16 → s.tilesQuiet = true → s.sourceOk (wbit v 16) = true →
      let u := (s.setF F.SMPL_CTL_VDIV vdiv).setF F.SMPL_CTL_SRC (b2n (wbit v 16))
      exec (.smplCtlWrite r false v) s = .next ((((u.setF F.MCLK_STAT_LOCK 0).setF F.MCLK_STAT_HOLDOVER 0).setF F.TIME_STAT_SMPL_LOCK (b2n (!wbit v 16))).smplLock.rateChecks.fin .ok)) ∧
    (s.takes r R.SMPL_CTL → s.anyMetered = false → s.tilesQuiet = true → 125 ≤ vdiv → vdiv ≤ 5000 → s.sourceOk (wbit v 16) = false → exec (.smplCtlWrite r false v) s = .next (s.fin .unsupported)) ∧
    (s.takes r R.SMPL_CTL → s.anyMetered = false → s.tilesQuiet = true → vdiv < 125 ∨ 5000 < vdiv → exec (.smplCtlWrite r false v) s = .next (s.fin .unsupported)) ∧
    (s.takes r R.MCLK_CTL → 50 ≤ mul → mul ≤ 5000 → s.f F.MCLK_CTL_MMUL = mul → wbit v 0 = false →
      exec (.smplCtlWrite r true v) s = .next ((s.setF F.MCLK_CTL_MMUL mul).fin .ok)) ∧
    (s.takes r R.SMPL_PHASE → bits v.toNat 18 0 < 64 * s.f F.SMPL_CTL_VDIV → exec (.smplPhaseWrite r v) s = .next ((s.smplNow.setF F.SMPL_PHASE_STEPS (bits v.toNat 18 0)).fin .ok)) ∧
    (s.takes r R.SMPL_PHASE → 64 * s.f F.SMPL_CTL_VDIV ≤ bits v.toNat 18 0 → exec (.smplPhaseWrite r v) s = .next (s.fin .unsupported)) ∧
    (s.alive = true → s.mode ≠ 0 → s.b F.SMPL_CTL_SRC = true → s.b F.MCLK_STAT_LOCK = false → s.b F.MCLK_STAT_HOLDOVER = false → s.b F.MCLK_STAT_LOS = false →
      s.productOk freq.toNat = true → exec (.mclkLockAcquired freq) s =
        .next ((((s.setF F.MCLK_STAT_FREQ freq.toNat).setF F.MCLK_STAT_LOCK 1).setF F.TIME_STAT_SMPL_LOCK 1).smplLock.rateChecks)) ∧
    (s.alive = true → s.mode ≠ 0 → s.b F.MCLK_STAT_LOCK = true → exec (.mclkLoss true freq) s = .next (held (s.smplHold.setF F.MCLK_STAT_LOS 1))) ∧
    (s.alive = true → s.mode ≠ 0 → s.b F.MCLK_STAT_LOCK = true → (s.smplHold.setF F.MCLK_STAT_FREQ freq.toNat).productOk freq.toNat = false →
      exec (.mclkLoss false freq) s = .next (held (s.smplHold.setF F.MCLK_STAT_FREQ freq.toNat))) ∧
    (s.smplHold.smpl.hold = s.vco ∧ s.smplHold.smpl.disp = s.smpl.disp ∧ (s.smplHold.productOk freq.toNat = (decide (490000000 ≤ freq.toNat * s.f F.MCLK_CTL_MMUL) && decide (freq.toNat * s.f F.MCLK_CTL_MMUL ≤ 510000000)))) ∧
    (s.alive = true → s.mode ≠ 0 → exec (.mclkReturn freq) s = .next ((s.setF F.MCLK_STAT_LOS 0).setF F.MCLK_STAT_FREQ freq.toNat)) ∧
    (s.takes r R.MCLK_CTL → 50 ≤ mul → mul ≤ 5000 → s.f F.MCLK_CTL_MMUL = mul → s.b F.MCLK_STAT_LOS = false →
      let u := s.setF F.MCLK_CTL_MMUL (mul)
      u.b F.SMPL_CTL_SRC = true → u.b F.MCLK_STAT_HOLDOVER = true → u.productOk (u.f F.MCLK_STAT_FREQ) = true →
      exec (.mclkRelock r v) s = .next (u.relock.fin .ok)) ∧
    (s.takes r R.SMPL_CTL → s.anyMetered = false → s.tilesQuiet = false → exec (.smplCtlWrite r false v) s = .next (s.fin .busy))

/-- A PPS edge of the chosen polarity is stamped at a resolution of 250 ps, rounded down (the model's choice, notes/assumptions/119.md), less
PPS_IN_ADJ; one more than 100 us before or after its place is refused with event 0x0203, and the first is accepted; with a time-of-day message
for its second it measures a root's offset once two such edges in a row have come. A missing edge, 1.1 s after the last accepted edge or the
start of waiting, is 0x0202. A good message gives the second, a bad one is counted with 0x0204. PPS_OUT rises at the next second plus its
adjustment, later than the last second marked, and falls after its width. RTC_CTL.GO has the RTC take RTC_SET at its next step, and FOLLOW at
LOCKED the whole second; at that step the RTC holds it and is valid, and after each 30,517.578125 ns the RTC steps; a stopped crystal clears
VALID. That the first edge of a hub that was never ROOT is accepted (notes/assumptions/35.md), that the RTC counts without VALID and when it
takes a value (notes/assumptions/17.md), and that an edge of the other polarity does nothing (notes/assumptions/8.md) are the model's choices.
(R99, R100, R101, R102, R103, R104) -/
def Obligations.SecondPulseTimeOfDayAndCalendar : Prop :=
  ∀ (s : State) (r : Req) (v : Word) (t l sec k : Nat) (falling err : Bool) (bytes : List Byte),
    let u := t / 16384 * 16384
    let s0 := s.reach t
    let c := s0.cycAt u
    let stamp := moveT u (-(s0.sw R.PPS_IN_ADJ) * nsU)
    let s1 := s0.setTime4 R.PPS_IN_STAMP stamp
    let fresh := s1.pps
    let whole := ceilDiv s.st secU
    let adj := s.sw R.PPS_OUT_ADJ * nsU
    let k0 := (((s.st : Int) - adj + (secU - 1 : Nat)) / (secU : Nat)).toNat
    let rises := fun (k : Nat) => (let z := s.reach ((k * secU : Nat) + adj).toNat
      { z with pps := { z.pps with out := some (z.cycAt ((k * secU : Nat) + adj).toNat), mark := some k } } : State)
    let taken := fun (run : Nat) => ({ s1 with pps := { fresh with last := some c, from_ := c, run := fresh.run + 1, missed := false, tod := none, todRun := run } } : State)
    (s.alive = true → s.mode ≠ 0 → s.b F.PPS_CTL_IN_POL = falling → fresh.last = some l → c + 100000 * nsU < l + secU ∨ l + secU + 100000 * nsU < c →
      exec (.ppsInEdge t falling) s =
        .next (({ s1 with pps := { fresh with run := 0 } }.rootOks false (s1.b F.TIME_STAT_TOD_OK)).raiseBit R.TIME_EVT 2 0x0203 0 0)) ∧
    (s.alive = true → s.mode ≠ 0 → s.b F.PPS_CTL_IN_POL = falling → fresh.last = some l → l + secU ≤ c + 100000 * nsU → c ≤ l + secU + 100000 * nsU → fresh.tod = none →
      exec (.ppsInEdge t falling) s = .next ((taken 0).rootOks ((taken 0).b F.TIME_STAT_PPS_OK || decide (2 ≤ fresh.run + 1)) false)) ∧
    (s.alive = true → s.mode ≠ 0 → s.b F.PPS_CTL_IN_POL = falling → fresh.last = none → fresh.tod = none →
      exec (.ppsInEdge t falling) s = .next ((taken 0).rootOks ((taken 0).b F.TIME_STAT_PPS_OK || decide (2 ≤ fresh.run + 1)) false)) ∧
    (s.alive = true → s.mode ≠ 0 → s.b F.PPS_CTL_IN_POL = falling → fresh.last = none → fresh.tod = some sec →
      let z := (taken (fresh.todRun + 1)).rootOks ((taken (fresh.todRun + 1)).b F.TIME_STAT_PPS_OK || decide (2 ≤ fresh.run + 1)) (decide (2 ≤ fresh.todRun + 1))
      z.f F.TIME_CTL_SRC = 1 → z.b F.TIME_STAT_TOD_OK = true →
      exec (.ppsInEdge t falling) s = .next (z.measure ((stamp : Int) - (sec * secU : Nat))).tryHold) ∧
    (s.alive = true → s.b F.PPS_CTL_IN_POL ≠ falling → exec (.ppsInEdge t falling) s = .next s) ∧
    (s.alive = true → s.mode ≠ 0 → s.pps.missed = false →
      let u := s.passTo (s.pps.from_ + secU + secU / 10)
      exec .ppsMiss s =
        .next (({ u with pps := { u.pps with run := 0, missed := true } }.rootOks false (u.b F.TIME_STAT_TOD_OK)).raiseBit R.TIME_EVT 1 0x0202 0 0)) ∧
    (s.alive = true → s.mode ≠ 0 → s.b F.TOD_CTL_EN = true → todValid bytes = true → beNat ((bytes.drop 2).take 6) = sec →
      let u := (s.bump F.TOD_STAT_GOOD 1).setTwo R.TOD_SEC sec
      exec (.todMessage bytes false) s = .next { u with pps := { u.pps with tod := some sec } }) ∧
    (s.alive = true → s.mode ≠ 0 → s.b F.TOD_CTL_EN = true → todValid bytes = false ∨ err = true →
      exec (.todMessage bytes err) s = .next ((s.bump F.TOD_STAT_BAD 1).raiseBit R.TIME_EVT 3 0x0204 0 0)) ∧
    (s.alive = true → s.live = true → s.b F.PPS_CTL_OUT_EN = true → s.pps.out = none → s.pps.mark = none → exec .ppsOutRise s = .next (rises k0)) ∧
    (s.alive = true → s.live = true → s.b F.PPS_CTL_OUT_EN = true → s.pps.out = none → s.pps.mark = some l → exec .ppsOutRise s = .next (rises (max k0 (l + 1)))) ∧
    (s.alive = true → s.pps.out = some t → exec .ppsOutFall s = .next (s.passTo (t + s.f F.PPS_CTL_WIDTH * (secU / 1000))).ppsLow) ∧
    (s.takes r R.RTC_CTL →
      let u := s.setF F.RTC_CTL_FOLLOW (b2n (wbit v 1))
      exec (.rtcGo r v) s = .next ({ u with rtcLoad := some (s.two R.RTC_SET_SEC % 2 ^ 40 * 2 ^ 15 + s.f F.RTC_SET_SUB_V) }.fin .ok)) ∧
    (s.alive = true → s.mode ≠ 0 → s.b F.RTC_CTL_FOLLOW = true → s.f F.TIME_STAT_QUALITY = 0 →
      exec .rtcFollow s = .next { s.reach (whole * secU) with rtcLoad := some (whole % 2 ^ 40 * 2 ^ 15) }) ∧
    (exec .xtalStop s = .next (s.setF F.RTC_STAT_VALID 0)) ∧
    (s.rtcLoad = some t → (s.aonTicks (k + 1)).rtc = (t + k) % 2 ^ 55 ∧ (s.aonTicks (k + 1)).rtcLoad = none ∧ (s.aonTicks (k + 1)).f F.RTC_STAT_VALID = 1) ∧
    (s.rtcLoad = none → s.aonTicks k = { s with rtc := (s.rtc + k) % 2 ^ 55 }) ∧
    (s.aon = true ∨ s.vbat = true → s.rtcPhase + 131072 * k < 1000000000 → s.passRtc k = { s with rtcPhase := s.rtcPhase + 131072 * k }) ∧
    (s.aon = true ∨ s.vbat = true → 1000000000 ≤ s.rtcPhase + 131072 * k →
      s.passRtc k = { s with rtcPhase := (s.rtcPhase + 131072 * k) % 1000000000 }.aonTicks ((s.rtcPhase + 131072 * k) / 1000000000))

/-- Stamps are taken at the reference plane. Under UPSTREAM the primary UP port sends a T_REQ with the next TSID and keeps its stamp. A seeded,
serving hub answers on a DOWN port with one T_RESP of its quality, its step count and both stamps, but not twice in 50 us. A response to no
outstanding request is counted as bad; one of the primary parent with matching TSID and steps gives the measurement of R376. TT_PROBE checks its
TSID, the port and the mode. A pop answers the oldest transmit stamp, or a word of zero. (R371, R372, R373, R374, R375, R376, R378, R379, R381) -/
def Obligations.TimeExchanges : Prop :=
  ∀ (s : State) (r : Req) (v : Word) (p : Fin 16) (hid : BitVec 14) (tsid steps : BitVec 8) (q : BitVec 2) (t1 t2 t3 t4 ts0 t : Nat) (l : List (Bool × Nat × Nat)) (ex : Bool),
    let x := s.xch p
    let u := (s.thaw p).freeBuf p 1
    let w0 := u.f F.TT_CNT_STEPS % 256 * 256 + u.f F.TIME_STAT_QUALITY
    let ts := bits v.toNat 7 0
    let own := u.f F.TT_CNT_STEPS
    let u2 := u.setXch p { x with steps := some (steps.toNat, own) }
    (s.alive = true → s.f F.TIME_CTL_SRC = 2 → s.role s.primary = 1 → s.canTime s.primary = true →
      let y := s.xch s.primary
      exec (.tReqSend false t1) s = .next ((s.setXch s.primary { y with tsid := (y.tsid + 1) % 256, sent := some (y.tsid, s.txStamp s.primary t1) }).sendTime s.primary
        (s.timeHod s.primary 0 y.tsid [0]) t1)) ∧
    (s.alive = true → s.portUp p = true → x.answered = none → u.role p = 2 → u.b F.TT_CTL_SERVE = true → u.b F.TIME_STAT_SEEDED = true → u.live = true →
      exec (.tReq p hid tsid t2 t3) s = .next ((u.setXch p { u.xch p with answered := some u.cyc }).putTime p
        (u.timeHod p 1 tsid.toNat (BitVec.ofNat 32 w0 :: (stampWords (u.rxStamp p t2) ++ stampWords t3))) t3)) ∧
    (s.alive = true → s.portUp p = true → x.answered = some t → s.cyc < t + 50000 * nsU → exec (.tReq p hid tsid t2 t3) s = .next u) ∧
    (s.alive = true → s.portUp p = true → u.role p = 1 → x.sent = none → exec (.tResp p tsid steps q t2 t3 t4) s = .next u.badResp) ∧
    (s.alive = true → s.portUp p = true → u.role p = 1 → x.sent = some (ts0, t1) → ts0 ≠ tsid.toNat → exec (.tResp p tsid steps q t2 t3 t4) s = .next u.badResp) ∧
    (s.alive = true → s.portUp p = true → u.role p = 1 → x.sent = some (tsid.toNat, t1) → x.steps = none → stampDiff (s.rxStamp p t4) t1 ≤ 200000 * (nsU : Int) →
      u2.f F.TIME_CTL_SRC = 2 → p = u2.primary → exec (.tResp p tsid steps q t2 t3 t4) s =
        .next ((u2.primaryMeas q.toNat (exchange t1 t2 t3 (s.rxStamp p t4)).1 (exchange t1 t2 t3 (s.rxStamp p t4)).2).tryHold)) ∧
    (s.alive = true → s.mode ≠ 0 → s.servo.measAt = some t → s.f F.TIME_CTL_SRC = 2 → exec .srcLost s = .next ((s.passTo (t + 16 * s.intv)).srcLost)) ∧
    (s.takes r R.TT_PROBE → ts = 0 → exec (.ttProbe r v t) s = .next (s.fin .unsupported)) ∧
    (s.takes r R.TT_PROBE → ts ≠ 0 → s.portUp (bits v.toNat 27 24) = false → exec (.ttProbe r v t) s = .next (s.fin .busy)) ∧
    (s.takes r R.TT_PROBE → ts ≠ 0 → s.portUp (bits v.toNat 27 24) = true → s.live = true →
      exec (.ttProbe r v t) s = .next ((s.putTime (bits v.toNat 27 24) (s.timeHod (bits v.toNat 27 24) 2 ts [0]) t).fin .ok)) ∧
    (s.alive = true → s.mapStop r (R.TSQ_POP p) false = none → Tab.get (fun _ => []) s.tsq p = [] →
      exec (.tsqPop r p) s = .next ((s.setShadows r (R.TSQ_NS p) [0, 0]).finData [0])) ∧
    (s.alive = true → s.mapStop r (R.TSQ_POP p) false = none → Tab.get (fun _ => []) s.tsq p = (ex, ts0, t) :: l →
      exec (.tsqPop r p) s = .next ((({ s with tsq := Tab.set (fun _ => []) s.tsq p l }.setShadows r (R.TSQ_NS p)
        [BitVec.ofNat 32 (t % secU / nsU), BitVec.ofNat 32 (t / secU)]).finData [BitVec.ofNat 32 (2 ^ 31 + b2n ex * 2 ^ 30 + ts0 * 65536 + t % nsU)])))

/-- A given non-zero step is pending for 20 us ahead or for the next whole second at least 100 us ahead, while no other is pending; a zero step
changes nothing; CANCEL removes what is pending. A forced slew is taken in JUMP only. At its instant a non-zero step moves ST and what R384 and
R385 say moves with it. TIME_CTL takes a source below 3 and resets the servo; TT_ASYM takes values within 1,000,000 ps; TT_CTL takes legal
limits. A step ends the metering intervals and shifts those that wait (R402), and a write that makes SRC ROOT begins the comparison of PPS_IN
anew (R99). That a pending step persists through changes of mode (notes/assumptions/82.md), from where the 1.1 s of PPS_MISS run
(notes/assumptions/35.md) and that the step instant does nothing with no step pending (notes/assumptions/8.md) are the model's choices. (R99,
R380, R381, R383, R384, R385, R387, R390, R393, R402) -/
def Obligations.StepsAndTheServo : Prop :=
  ∀ (s : State) (r : Req) (v : Word) (second : Bool) (t : Nat) (d : Int),
    let delta := s.offset4 R.TT_DELTA
    let a := if second then R.TT_ASYM2 else R.TT_ASYM
    let waits := fun (i : Nat) => ({ s with servo := { s.servo with pend := some ⟨i, some delta⟩ } }.setF F.TT_STAT_STEP_PEND 1).fin .ok
    let none_ := { s with servo := { s.servo with pend := none } }.setF F.TT_STAT_STEP_PEND 0
    (s.takes r R.TT_STEP → wbit v 0 = false → wbit v 4 = true → s.live = true → s.servo.pend = none → delta ≠ 0 →
      exec (.ttStepImmediate r v) s = .next (waits (s.st + 20000 * nsU))) ∧
    (s.takes r R.TT_STEP → wbit v 0 = false → wbit v 4 = true → s.live = true → s.servo.pend = none → delta = 0 →
      exec (.ttStepImmediate r v) s = .next (s.fin .ok)) ∧
    (s.takes r R.TT_STEP → wbit v 0 = false → wbit v 4 = true → s.live = true → s.servo.pend = none → delta ≠ 0 →
      exec (.ttStepNextSec r v) s = .next (waits (ceilDiv (s.st + 100000 * nsU) secU * secU))) ∧
    (s.takes r R.TT_STEP → wbit v 0 = false → s.live = true → exec (.ttStepCancel r v) s = .next (none_.fin .ok)) ∧
    (s.takes r R.TT_STEP → bits v.toNat 9 8 = 0 → wbit v 4 = false → s.f F.TT_STAT_STATE = 4 →
      exec (.forcedSlew r v) s = .next (s.forcedSlew.fin .ok)) ∧
    (s.takes r R.TT_STEP → bits v.toNat 9 8 = 0 → wbit v 4 = false → s.f F.TT_STAT_STATE ≠ 4 →
      exec (.forcedSlew r v) s = .next (s.fin .busy)) ∧
    (s.alive = true → s.mode ≠ 0 → s.servo.pend = some ⟨t, some d⟩ → d ≠ 0 →
      exec .timeStep s = .next ((((none_.reach t).meterStep t).stepTime t d).meterShift d)) ∧
    (s.alive = true → s.servo.pend = none → exec .timeStep s = .next s) ∧
    (s.takes r R.TIME_CTL → bits v.toNat 1 0 = 3 → exec (.timeSrcWrite r v) s = .next (s.fin .unsupported)) ∧
    (s.takes r R.TIME_CTL → bits v.toNat 1 0 = 2 ∨ bits v.toNat 1 0 = 0 → exec (.timeSrcWrite r v) s = .next ((s.setF F.TIME_CTL_SRC (bits v.toNat 1 0)).servoReset.fin .ok)) ∧
    (s.takes r R.TIME_CTL → bits v.toNat 1 0 = 1 → s.f F.TIME_CTL_SRC = 1 → exec (.timeSrcWrite r v) s = .next ((s.setF F.TIME_CTL_SRC 1).servoReset.fin .ok)) ∧
    (s.takes r R.TIME_CTL → bits v.toNat 1 0 = 1 → s.f F.TIME_CTL_SRC ≠ 1 →
      exec (.timeSrcWrite r v) s = .next ({ s.setF F.TIME_CTL_SRC 1 with pps := { s.pps with last := none, from_ := s.cyc, run := 0, missed := false } }.servoReset.fin .ok)) ∧
    (s.takes r a → 1000000 < iabs v.toInt → exec (.ttAsymWrite r second v) s = .next (s.fin .unsupported)) ∧
    (s.takes r a → iabs v.toInt ≤ 1000000 → (s.setW a v).f F.TT_STAT_STATE ≠ 5 → exec (.ttAsymWrite r second v) s = .next ((s.setW a v).fin .ok)) ∧
    (s.takes r R.TT_CTL → bits v.toNat 24 16 = 0 ∨ 500 < bits v.toNat 24 16 ∨ 10 < bits v.toNat 11 8 → exec (.ttCtlWrite r v) s = .next (s.fin .unsupported)) ∧
    (s.takes r R.TT_CTL → 1 ≤ bits v.toNat 24 16 → bits v.toNat 24 16 ≤ 500 → bits v.toNat 11 8 ≤ 10 → wbit v 1 = false →
      exec (.ttCtlWrite r v) s = .next ((s.setW R.TT_CTL (v &&& 0x01FF0F07)).fin .ok))

/-- A register of an IDLE path is taken where its fields are in range and the new configuration fits the entries that name the path, the tile's
limits, the placement mode and the clock source; a value of FP_CTL out of range is UNSUPPORTED, and a path that is not IDLE is BUSY. A
coefficient is taken, of the inactive bank of a running path too, but while a fade runs or in the active bank of a path that is not IDLE. A GO
with a legal length and bank starts the fade of a path that neither fades nor settles, is BUSY while one runs or while the path settles, and
UNSUPPORTED without a FIR or where the load or the new bank breaks a limit; the blend begins with the path's next course once the courses before
n_g and the warm-up have passed, and the banks change places at its end. LEN 0, a GO while a fade runs and a GO on an idle path
(notes/assumptions/37.md), BUSY before the ranges (notes/assumptions/14.md), what a change is checked against (notes/assumptions/36.md) and what
SCS requires of the chain (notes/assumptions/12.md) are the model's readings. (R113, R114, R115, R116, R118, R119, R120, R121, R135, R136, R137) -/
def Obligations.FilterConfiguration : Prop :=
  ∀ (s : State) (r : Req) (t : Fin 24) (p : Fin 8) (b : Fin 2) (k : Fin 256) (v : Word) (fd : Fade),
    let ctl := s.setW (R.FP_CTL t p) (v &&& 0xB73F3700)
    let cic := s.setF (F.FP_CIC_RATIO t p) v.toNat
    let gd := s.setW (R.FP_GD t p) v
    let len := bits v.toNat 15 0
    let staged := s.setF (F.FP_FADE_LEN t p) len
    (s.takes r (R.FP_CTL t p) → s.pathIdle t p = true → fpCtlRange v.toNat = false → exec (.fpConfigWrite r t p 0 v) s = .next (s.fin .unsupported)) ∧
    (s.takes r (R.FP_CTL t p) → s.pathIdle t p = false → exec (.fpConfigWrite r t p 0 v) s = .next (s.fin .busy)) ∧
    (s.takes r (R.FP_CTL t p) → fpCtlRange v.toNat = true → s.pathIdle t p = true → ctl.ctlOk t p = true → ctl.gridMatch t p = true → ctl.pathFits t p = true → exec (.fpConfigWrite r t p 0 v) s = .next (ctl.fin .ok)) ∧
    (s.takes r (R.FP_CIC t p) → within (bits v.toNat 12 0) 1 4096 = true → s.pathIdle t p = true → cic.cicOk t p = true → cic.gridMatch t p = true → cic.pathFits t p = true → exec (.fpConfigWrite r t p 1 v) s = .next (cic.fin .ok)) ∧
    (s.takes r (R.FP_TAPS t p) → within (bits v.toNat 8 0) 1 256 = true → within (bits v.toNat 24 16) 1 256 = true → s.pathIdle t p = true →
      (s.fpTaps t p v.toNat).gridMatch t p = true → (s.fpTaps t p v.toNat).pathFits t p = true → exec (.fpConfigWrite r t p 2 v) s = .next ((s.fpTaps t p v.toNat).fin .ok)) ∧
    (s.takes r (R.FP_GD t p) → bits v.toNat 15 0 ≤ (s.f (F.FP_TAPS_TAPS0 t p) - 1) * 128 → bits v.toNat 31 16 ≤ (s.f (F.FP_TAPS_TAPS1 t p) - 1) * 128 →
      s.pathIdle t p = true → gd.gridMatch t p = true → gd.pathFits t p = true → exec (.fpConfigWrite r t p 3 v) s = .next (gd.fin .ok)) ∧
    (s.takes r (R.COEF t p b k) → s.fading t p = false → s.pathIdle t p = true → exec (.coefWrite r t p b k v) s = .next ((s.setF (F.COEF_COEF t p b k) v.toNat).fin .ok)) ∧
    (s.takes r (R.COEF t p b k) → s.fading t p = false → s.f (F.FP_STAT_ACT t p) ≠ b → exec (.coefWrite r t p b k v) s = .next ((s.setF (F.COEF_COEF t p b k) v.toNat).fin .ok)) ∧
    (s.takes r (R.COEF t p b k) → s.fading t p = true → exec (.coefWrite r t p b k v) s = .next (s.fin .busy)) ∧
    (s.takes r (R.FP_FADE t p) → len ≠ 0 → wbit v 31 = true → s.fadeBad t p len = true → exec (.fadeGo r t p v) s = .next (s.fin .unsupported)) ∧
    (s.b (F.FP_CTL_FIR_EN t p) = false ∨ s.bankOk t p (1 - s.f (F.FP_STAT_ACT t p)) = false → s.fadeBad t p len = true) ∧
    (s.takes r (R.FP_FADE t p) → len ≠ 0 → wbit v 31 = true → s.fadeBad t p len = false → s.pathSettling t p = true → exec (.fadeGo r t p v) s = .next (s.fin .busy)) ∧
    (s.takes r (R.FP_CTL t p) → s.pathIdle t p = true → ctl.ctlOk t p = false ∨ ctl.gridMatch t p = false ∨ ctl.pathFits t p = false → exec (.fpConfigWrite r t p 0 v) s = .next (s.fin .unsupported)) ∧
    (s.takes r (R.COEF t p b k) → s.f (F.FP_STAT_ACT t p) = b → s.pathIdle t p = false → exec (.coefWrite r t p b k v) s = .next (s.fin .busy)) ∧
    (s.takes r (R.FP_FADE t p) → len = 0 → exec (.fadeGo r t p v) s = .next (s.fin .unsupported)) ∧
    (s.takes r (R.FP_FADE t p) → len ≠ 0 → wbit v 31 = false → exec (.fadeGo r t p v) s = .next (staged.fin .ok)) ∧
    (s.takes r (R.FP_FADE t p) → len ≠ 0 → wbit v 31 = true → s.fadeBad t p len = false → s.fading t p = false → s.pathSettling t p = false →
      exec (.fadeGo r t p v) s = .next ((staged.fadeStart t p len).fin .ok)) ∧
    (s.takes r (R.FP_FADE t p) → len ≠ 0 → wbit v 31 = true → s.fadeBad t p len = false → s.fading t p = true → exec (.fadeGo r t p v) s = .next (s.fin .busy)) ∧
    (s.alive = true → (s.path (8 * t + p)).fade = some fd → s.f (F.FP_STAT_STATE t p) ≠ 3 → fd.pre = 0 → fd.warm = 0 →
      exec (.fadeBlendStart t p) s = .next (s.startBlend t p (s.nextCourse t p))) ∧
    (s.alive = true → (s.path (8 * t + p)).fade = some fd → s.f (F.FP_STAT_STATE t p) = 3 → fd.m = fd.len → exec (.fadeDone t p) s = .next (s.endFade t p)) ∧
    (s.takes r (R.FP_CIC t p) → s.pathIdle t p = false → exec (.fpConfigWrite r t p 1 v) s = .next (s.fin .busy)) ∧
    (s.takes r (R.FP_TAPS t p) → s.pathIdle t p = false → exec (.fpConfigWrite r t p 2 v) s = .next (s.fin .busy)) ∧
    (s.takes r (R.FP_GD t p) → s.pathIdle t p = false → exec (.fpConfigWrite r t p 3 v) s = .next (s.fin .busy))

/-- The oldest awaited course of a path leaves it once it is ready and no phase of a fade must begin first; a path with none, or with one that is not
ready, is unchanged. A detector's window and envelope are taken while it is disabled, else BUSY, and a window that takes the packer or a compress
engine over its limit is UNSUPPORTED; TYPE 3 is UNSUPPORTED; disabling a disabled detector puts it at its beginning. The oldest finished detector
output is delivered to its units and streams, and a detector with none is unchanged. The commands that change nothing (notes/assumptions/8.md)
and that TYPE 3 is refused before BUSY (notes/assumptions/14.md) are the model's choices. (R15, R128, R139, R140, R145, R287) -/
def Obligations.CourseOutputsAndDetectors : Prop :=
  ∀ (s : State) (r : Req) (t : Fin 24) (p : Fin 8) (d : Fin 32) (v : Word) (o : DetOut) (os : List DetOut) (c : Due) (cs : List Due),
    let pa := s.path (8 * t + p)
    let turns := pa.fade.any fun f => f.turns (s.f (F.FP_STAT_STATE t p))
    let x := s.det (32 * t + d)
    let win := s.setW (R.DET_WIN t d) (v &&& 0xFFFF)
    (s.alive = true → pa.due = c :: cs → s.courseReady t p c = true → turns = false →
      exec (.filterOutput t p) s = .next ((s.setPath (8 * t + p) { pa with due := cs }).pathCourse t p c)) ∧
    (s.alive = true → pa.due = [] → exec (.filterOutput t p) s = .next s) ∧
    (s.alive = true → pa.due = c :: cs → s.courseReady t p c = false ∨ turns = true → exec (.filterOutput t p) s = .next s) ∧
    (s.takes r (R.DET_WIN t d) → s.b (F.DET_CTL_EN t d) = false → win.packerOk t = true → win.pressOk = true → exec (.detCtlWrite r t d 1 v) s = .next (win.fin .ok)) ∧
    (s.takes r (R.DET_WIN t d) → s.b (F.DET_CTL_EN t d) = false → win.packerOk t = false ∨ win.pressOk = false → exec (.detCtlWrite r t d 1 v) s = .next (s.fin .unsupported)) ∧
    (s.takes r (R.DET_WIN t d) → s.b (F.DET_CTL_EN t d) = true → exec (.detCtlWrite r t d 1 v) s = .next (s.fin .busy)) ∧
    (s.takes r (R.DET_ENV t d) → s.b (F.DET_CTL_EN t d) = false → exec (.detCtlWrite r t d 2 v) s = .next ((s.setW (R.DET_ENV t d) v).fin .ok)) ∧
    (s.takes r (R.DET_CTL t d) → bits v.toNat 25 24 = 3 → exec (.detCtlWrite r t d 0 v) s = .next (s.fin .unsupported)) ∧
    (s.takes r (R.DET_CTL t d) → bits v.toNat 25 24 ≠ 3 → s.b (F.DET_CTL_EN t d) = true → wbit v 31 = true → exec (.detCtlWrite r t d 0 v) s = .next (s.fin .busy)) ∧
    (s.takes r (R.DET_CTL t d) → bits v.toNat 25 24 ≠ 3 → s.b (F.DET_CTL_EN t d) = false → wbit v 31 = false →
      exec (.detCtlWrite r t d 0 v) s = .next ((((s.setW (R.DET_CTL t d) (v &&& 0x8307000F)).setDet (32 * t + d) Det.init).refreshUnits).fin .ok)) ∧
    (s.alive = true → x.ready = o :: os → exec (.detectOutput t d) s = .next ((s.setDet (32 * t + d) { x with ready := os }).detDeliver t d o)) ∧
    (s.alive = true → x.ready = [] → exec (.detectOutput t d) s = .next s)

/-- A unit's source is taken while it is disabled. A write of TU_CTL with EN = 1 to a disabled unit whose source exists, or is an enabled detector,
on the grid of its group takes the register and has the unit begin anew, with SRC_IDLE where its source is not active; else it is UNSUPPORTED. EN
= 0 is taken at any time. Edge kind 3 and source kind 3 are UNSUPPORTED. In ACQUIRE an enabled unit evaluates the courses in order, with the
value its source delivered for the course or without one; when its holdoff has passed its flag clears; a due automatic force is accepted with the
quality of its course. A group that is ready evaluates a course and takes the triggers its units accepted at it. A window closes after its last
course; a store releases a course when the group has passed it; a pin's pulse ends. A link that is not legal is UNSUPPORTED; a link of no active
stream is taken and withdrawn. When a holdoff ends (notes/assumptions/31.md), the quality at a course's instant and of a trigger
(notes/assumptions/24.md, notes/assumptions/40.md), and what a unit that begins anew drops (notes/assumptions/102.md) are the model's readings.
(R145, R146, R147, R148, R149, R152, R153, R155, R156, R158, R163, R496) -/
def Obligations.TriggerUnitsAndGroups : Prop :=
  ∀ (s : State) (r : Req) (u g : Fin 64) (n e tr d b : Nat) (ws : List (Nat × Nat)) (v : Word) (sid : Fin 8192) (l : Fin 1024) (k : Fin 4) (h : Held) (hs : List Held) (tv : TuVal) (tvs : List TuVal),
    let x := s.tu u
    let kinds := s.setW (R.TU_CTL u) (v &&& 0x83BF3000)
    let left := x.drop fun z => decide (z.p ≤ d)
    let y := s.tg g
    let linked := s.setW (R.WS_LINK l) (v &&& 0xBF001FFF)
    let q0 := (s.grid (s.unitGrid u)).base + n
    let g0 := (s.grid (s.f (F.TG_CTL_GRID g))).base + n
    let busy := fun (z : State) => z.b (F.WS_LINK_VALID l) && z.b (F.SE_CTL_VALID (z.f (F.WS_LINK_SID l))) && z.b (F.SE_CTL_ACT (z.f (F.WS_LINK_SID l)))
    let taken := fun (q : Nat) =>
      let hits := (s.groupUnits g).filterMap fun i => ((s.tu i).hits.find? fun j => j.p == q).map fun j => (i, j)
      let w := (s.setTg g { y with done := some q }).each (s.groupUnits g) fun z i =>
        z.setTu i { z.tu i with hits := (z.tu i).hits.filter fun j => decide (q < j.p) }
      if hits = [] then w else w.takeTrig g q hits
    (s.takes r (R.TU_CTL u) → bits v.toNat 25 24 ≠ 3 → bits v.toNat 13 12 ≠ 3 → wbit v 31 = true → s.b (F.TU_CTL_EN u) = false → kinds.unitOk u = true →
      exec (.tuCtlWrite r u false v) s = .next (((kinds.unitFresh u).setF (F.TU_STAT_SRC_IDLE u) (b2n (!kinds.unitSource u))).fin .ok)) ∧
    (s.takes r (R.TU_CTL u) → bits v.toNat 25 24 ≠ 3 → bits v.toNat 13 12 ≠ 3 → wbit v 31 = true → s.b (F.TU_CTL_EN u) = false → kinds.unitOk u = false → exec (.tuCtlWrite r u false v) s = .next (s.fin .unsupported)) ∧
    (s.takes r (R.TU_CTL u) → bits v.toNat 25 24 ≠ 3 → bits v.toNat 13 12 ≠ 3 → wbit v 31 = false → exec (.tuCtlWrite r u false v) s = .next (((kinds.unitFresh u).setF (F.TU_STAT_SRC_IDLE u) 0).fin .ok)) ∧
    (s.takes r (R.TU_SRC u) → s.b (F.TU_CTL_EN u) = false → exec (.tuCtlWrite r u true v) s = .next ((s.setW (R.TU_SRC u) (v &&& 0x1F1F1FFF)).fin .ok)) ∧
    (s.takes r (R.TU_CTL u) → bits v.toNat 25 24 = 3 ∨ bits v.toNat 13 12 = 3 → exec (.tuCtlWrite r u false v) s = .next (s.fin .unsupported)) ∧
    (s.takes r (R.TU_CTL u) → bits v.toNat 25 24 ≠ 3 → bits v.toNat 13 12 ≠ 3 → s.b (F.TU_CTL_EN u) = true → wbit v 31 = true → exec (.tuCtlWrite r u false v) s = .next (s.fin .busy)) ∧
    (s.alive = true → s.mode = 3 → s.b (F.TU_CTL_EN u) = true → s.unitDone u = none → c48 q0 = n → x.vals = [] → s.coursePast (s.unitGrid u) q0 = true →
      s.awaits u q0 = false → exec (.tuEvaluate u n) s = .next ((s.setTu u x).setTu u { x with vals := [], done := some q0, na := some (x.na.getD q0) })) ∧
    (s.alive = true → s.mode = 3 → s.b (F.TU_CTL_EN u) = true → s.unitDone u = some d → c48 (d + 1) = n → left.vals = tv :: tvs →
      tv.p = d + 1 → s.coursePast (s.unitGrid u) (d + 1) = true →
      exec (.tuEvaluate u n) s = .next (((s.setTu u left).setTu u { left with vals := tvs, done := some (d + 1), na := some (left.na.getD (d + 1)) }).unitValue u tv)) ∧
    (s.alive = true → x.trig = some tr → x.done = some d → tr + s.f (F.TU_HOLDOFF_V u) ≤ d →
      exec (.holdoffEnd u) s = .next (s.setF (F.TU_STAT_HOLDOFF u) 0)) ∧
    (s.alive = true → s.mode = 3 → x.done = some n → (s.tg (s.f (F.TU_CTL_GROUP u))).done = none → s.b (F.TU_CTL_EN u) = true → s.autoDue u n = true →
      exec (.tuAutoForce u) s = .next (s.acceptTrig u n false (s.qualAt (s.unitGrid u) n))) ∧
    (s.alive = true → s.mode = 3 → y.done = none → c48 g0 = n → s.groupReady g g0 = true → exec (.groupEvaluate g n) s = .next (taken g0)) ∧
    (s.alive = true → s.mode = 3 → y.done = some d → c48 (d + 1) = n → s.groupReady g (d + 1) = true → exec (.groupEvaluate g n) s = .next (taken (d + 1))) ∧
    (s.alive = true → y.wins = (e, b) :: ws → y.done = some d → b < d → exec (.windowClose g) s = .next (s.setF (F.TG_STAT_WIN g) 0)) ∧
    (s.alive = true → s.mode = 3 → s.linkOf sid = some b → (s.str sid).held = h :: hs → (s.tg (s.f (F.WS_LINK_GROUP b))).done = some d →
      h.p + s.f (F.TG_CTL_PRE (s.f (F.WS_LINK_GROUP b))) ≤ d → exec (.storeRelease sid) s =
        .next ((s.setStr sid { s.str sid with held := hs }).reduce sid h ((s.tg (s.f (F.WS_LINK_GROUP b))).covers h.p))) ∧
    (s.takes r (R.WS_LINK l) → wbit v 31 = true → linked.linkOk l = false → exec (.wsLinkWrite r l v) s = .next (s.fin .unsupported)) ∧
    (s.takes r (R.WS_LINK l) → wbit v 31 = true → linked.linkOk l = true → busy s = false → busy linked = false →
      exec (.wsLinkWrite r l v) s = .next (linked.fin .ok)) ∧
    (s.takes r (R.WS_LINK l) → wbit v 31 = false → busy s = false → busy linked = false → exec (.wsLinkWrite r l v) s = .next (linked.fin .ok)) ∧
    (s.alive = true → Tab.get (fun _ => none) s.pulses k = some n → exec (.trigioPulseEnd k) s = .next { s.passTo n with pulses := Tab.set (fun _ => none) s.pulses k none })

/-- TG_CTL and TG_POST of an unused group and the words of an unused profile are taken; in use they are BUSY; a PRE above 4,096, a representation
above 3 and a heartbeat of 0 are UNSUPPORTED. STREAM_ADD, on a port that is not a DOWN port, where no request waits, and with a TAG that is not
outstanding, is outstanding while it takes effect and is then answered: it adds a legal entry at the lowest free SID and answers it, active or
not; a failed check answers its status. On a DOWN port it is misdirected. STREAM_DEL retires an entry that nothing uses, and the SID is free when
the yard holds none of its hods. A legal configuration write of an inactive entry that nothing names is taken; activating checks R180;
deactivating stops the stream. A heartbeat that is due stores the last course that the reducer handled. That a reserved bit of STREAM_ADD is
UNSUPPORTED (notes/assumptions/52.md), where TABLE_FULL stands in the order of the checks (notes/assumptions/14.md), and that a heartbeat is the
new reference (notes/assumptions/40.md) are the model's readings. (R154, R165, R166, R167, R177, R178, R179, R180, R181, R182) -/
def Obligations.ProfilesAndStreams : Prop :=
  ∀ (s : State) (r : Req) (g q : Fin 64) (v ctl src rep w : Word) (p : Fin 16) (tag : BitVec 7) (sid : Fin 8192) (k i : Nat) (c : Status) (h : Held) (b : Cur) (t : State),
    let used := s.groupUnits g ≠ [] ∨ s.groupStreams g ≠ []
    let unused := s.groupUnits g = [] ∧ s.groupStreams g = []
    let free := s.tagsOut.contains tag.toNat = false ∧ (s.port p).reqs = [] ∧ s.role p ≠ 2 ∧ s.mode ≠ 0 ∧ s.mode ≠ 4
    let req := fun (op : Nat) => (⟨1, op, tag.toNat, false⟩ : Reqd)
    let u := s.pushReq p (req 0x10)
    let d := s.pushReq p (req 0x11)
    let answers := fun (op : Nat) (z : State) => (s.pushReq p (req op)).runReq p (req op) (fun _ => z) fun y => y.answer p op tag.toNat
    let st := s.str sid
    let old := s.w (R.SE_CTL sid)
    let src1 := s.w (R.SE_SRC sid)
    let rec_ := u.newEntry k ctl src rep
    let legal := rec_.pressTest k = false ∧ rec_.entryOk k = true
    let cfg := s.setW (R.SE_SRC sid) ((src1 &&& ~~~(seMask 1)) ||| (v &&& seMask 1))
    (s.takes r (R.TG_POST g) → unused → exec (.tgCtlWrite r g true v) s = .next ((s.setF (F.TG_POST_V g) v.toNat).fin .ok)) ∧
    (s.takes r (R.TG_POST g) → used → exec (.tgCtlWrite r g true v) s = .next (s.fin .busy)) ∧
    (s.takes r (R.TG_CTL g) → bits v.toNat 12 0 ≤ 4096 → unused → exec (.tgCtlWrite r g false v) s = .next ((s.setW (R.TG_CTL g) (v &&& 0x30001FFF)).fin .ok)) ∧
    (s.takes r (R.TG_CTL g) → 4096 < bits v.toNat 12 0 → exec (.tgCtlWrite r g false v) s = .next (s.fin .unsupported)) ∧
    (s.takes r (R.RP_CTL q) → bits v.toNat 2 0 ≤ 3 → s.profileUsed q = false → exec (.rpWrite r q 0 v) s = .next ((s.setW (R.RP_CTL q) (v &&& 0x17)).fin .ok)) ∧
    (s.takes r (R.RP_CTL q) → 3 < bits v.toNat 2 0 → exec (.rpWrite r q 0 v) s = .next (s.fin .unsupported)) ∧
    (s.takes r (R.RP_HB q) → v.toNat % 65536 ≠ 0 → s.profileUsed q = false → exec (.rpWrite r q 3 v) s = .next ((s.setW (R.RP_HB q) (v &&& 0xFFFF)).fin .ok)) ∧
    (s.takes r (R.RP_DB q) → s.profileUsed q = false → exec (.rpWrite r q 1 v) s = .next ((s.setW (R.RP_DB q) (v &&& 0xFFFFFF)).fin .ok)) ∧
    (s.takes r (R.RP_DB q) → s.profileUsed q = true → exec (.rpWrite r q 1 v) s = .next (s.fin .busy)) ∧
    (s.takes r (R.RP_DEC q) → s.profileUsed q = false → exec (.rpWrite r q 2 v) s = .next ((s.setW (R.RP_DEC q) (v &&& 0xFFFF)).fin .ok)) ∧
    (s.takes r (R.RP_HB q) → v.toNat % 65536 = 0 → exec (.rpWrite r q 3 v) s = .next (s.fin .unsupported)) ∧
    (s.alive = true → free → u.live = true → addBitsOk ctl src rep = true → bits ctl.toNat 28 27 ≠ 3 → u.freeSid 8192 0 = some k → legal → wbit ctl 30 = false →
      exec (.streamAdd p tag [ctl, src, rep]) s = .next (answers 0x10 (rec_.finData [BitVec.ofNat 32 k]))) ∧
    (s.alive = true → free → u.live = true → addBitsOk ctl src rep = true → bits ctl.toNat 28 27 ≠ 3 → u.freeSid 8192 0 = some k → legal → wbit ctl 30 = true →
      u.actStop (rec_.setF (F.SE_CTL_ACT k) 1) k = none →
      exec (.streamAdd p tag [ctl, src, rep]) s = .next (answers 0x10 ((rec_.startStream k).finData [BitVec.ofNat 32 k]))) ∧
    (s.alive = true → free → u.live = true → addBitsOk ctl src rep = true → u.addStream ctl src rep = .error c →
      exec (.streamAdd p tag [ctl, src, rep]) s = .next (answers 0x10 (u.fin c))) ∧
    ((s.port p).reqs = [] → s.alive = true → s.role p = 2 → s.mode ≠ 0 → s.mode ≠ 4 → exec (.streamAdd p tag [ctl, src, rep]) s = .next (s.misdirect p s.hid) ∧ exec (.streamDel p tag [w]) s = .next (s.misdirect p s.hid)) ∧
    ((s.pushReq p (req 0x10)).began t = false → (t.port p).reqs = [req 0x10] → answers 0x10 t = ((t.popReq p).answer p 0x10 tag.toNat).serve p) ∧
    (s.alive = true → free → w.toNat < 2 ^ 13 → bits w.toNat 12 0 = k → d.b (F.SE_CTL_VALID k) = true → d.b (F.SE_CTL_ACT k) = false → d.namedElsewhere k = false →
      exec (.streamDel p tag [w]) s = .next (answers 0x11 ((((d.dropTdisc k).setF (F.SE_CTL_VALID k) 0).setF (F.SE_STAT_RETIRING k) 1).fin .ok))) ∧
    (s.alive = true → s.b (F.SE_STAT_RETIRING sid) = true → s.sidInYard sid = false → exec (.sidFree sid) s = .next (s.setF (F.SE_STAT_RETIRING sid) 0)) ∧
    (s.takes r (R.SE_CTL sid + 4) → s.b (F.SE_CTL_VALID sid) = false → exec (.seConfigWrite r sid 1 v) s = .next (s.fin .addr)) ∧
    (s.takes r (R.SE_CTL sid + 4) → s.b (F.SE_CTL_VALID sid) = true → s.b (F.SE_CTL_ACT sid) = false → s.namedElsewhere sid = false →
      cfg.pressTest sid = false → cfg.entryOk sid = true → exec (.seConfigWrite r sid 1 v) s = .next (cfg.fin .ok)) ∧
    (s.takes r (R.SE_CTL sid + 4) → s.b (F.SE_CTL_VALID sid) = true → v &&& seMask 1 ≠ src1 &&& seMask 1 →
      s.b (F.SE_CTL_ACT sid) = true ∨ s.namedElsewhere sid = true → exec (.seConfigWrite r sid 1 v) s = .next (s.fin .busy)) ∧
    (s.takes r (R.SE_CTL sid) → s.b (F.SE_CTL_VALID sid) = true → bits v.toNat 28 27 ≠ 3 → v &&& seMask 0 = old &&& seMask 0 →
      s.b (F.SE_CTL_ACT sid) = false →
      let z := s.setW (R.SE_CTL sid) ((old &&& ~~~(seMask 0)) ||| (old &&& seMask 0))
      s.actStop (z.setF (F.SE_CTL_ACT sid) 1) sid = none → exec (.streamActivate r sid v) s = .next ((z.startStream sid).fin .ok)) ∧
    (s.takes r (R.SE_CTL sid) → s.b (F.SE_CTL_VALID sid) = true → bits v.toNat 28 27 ≠ 3 → v &&& seMask 0 = old &&& seMask 0 →
      s.b (F.SE_CTL_ACT sid) = true →
      exec (.streamDeactivate r sid v) s = .next (((s.setW (R.SE_CTL sid) ((old &&& ~~~(seMask 0)) ||| (old &&& seMask 0))).stopStream sid).fin .ok)) ∧
    (s.alive = true → s.mode = 3 → st.last = some h → st.ref = some ((k : Int), i) → st.cur = some b → b.typ = 2 → h.n ≠ i →
      let r := if st.fb then s.f (F.SE_REP_FALLBACK sid) else s.f (F.SE_REP_NORMAL sid)
      s.f (F.RP_CTL_REP r) = 1 → s.f (F.RP_HB_V r) ≤ c48 (h.n + 2 ^ 48 - i) →
      let z := s.putValue sid { oneVal 2 h.n 0 h.x h.settling false st.fb false h.q 0 0 with vals := [(h.x, c48 (h.n + 2 ^ 48 - i))] }
      exec (.deltaHeartbeat sid) s = .next (z.setStr sid { z.str sid with ref := some (h.x, h.n) }))

/-- GO alone starts a loaded mason from its entry and resumes a halted one in HOLD and ACQUIRE, is BUSY in the other states and MODE in the other
modes; HALT alone asks a running mason to halt, STOP alone resets it. A halted mason stops between instructions. A write of IMEM, DMEM, MC_ENTRY
or MC_TVEC of a mason that is not running is taken, of a running one BUSY, and LOCKED where the cornerstone locks the word; MC_ENTRY and MC_TVEC
must be multiples of 4. A doorbell write sets its bits beside those that stand. A waiting mason with a wake source resumes after its wait
instruction; a running mason whose fetch fails takes the trap of R200. A push enters its word at the tail of a queue that is not full; a push to
a full queue stores nothing, sets its flag and completes. A pop answers the word R213 gives and takes it; OPEN, CLOSE and FLUSH alone each act on
the queue as R214 and R215 say. That HALT acts through MASON_HALTED (notes/assumptions/76.md), that a locked memory write is a refusal of the
cornerstone with its event (notes/assumptions/62.md with R407) and the commands that change nothing (notes/assumptions/8.md) are the model's
choices. (R213, R214, R215, R217, R184, R186, R187, R199, R200, R201, R407) -/
def Obligations.MasonControlMemoryAndPallet : Prop :=
  ∀ (s : State) (r : Req) (m : Fin 16) (v : Word) (i : Fin 16384) (j : Fin 32768) (mt : MemTarget) (src expiry c : Nat) (gd : Nat) (tv : Nat) (q : Fin 64),
    let x := s.mason m
    let y := s.pq q
    let st := s.f (F.MC_STAT_STATE m)
    (s.takes r (R.MC_CTL m) → wbit v 1 = false → wbit v 2 = false → s.live = true → st = 0 → exec (.mcGo r m v) s = .next ((s.masonGo m).fin .ok)) ∧
    (s.takes r (R.MC_CTL m) → wbit v 1 = false → wbit v 2 = false → s.live = true → st = 3 → exec (.mcGo r m v) s = .next ((s.setF (F.MC_STAT_STATE m) 1).fin .ok)) ∧
    (s.takes r (R.MC_CTL m) → wbit v 1 = false → wbit v 2 = false → s.live = true → st ≠ 0 → st ≠ 3 → exec (.mcGo r m v) s = .next (s.fin .busy)) ∧
    (s.takes r (R.MC_CTL m) → wbit v 1 = false → wbit v 2 = false → s.live = false → exec (.mcGo r m v) s = .next (s.fin .mode)) ∧
    (s.takes r (R.MC_CTL m) → wbit v 0 = false → wbit v 2 = false → s.masonOn m = true → exec (.mcHalt r m v) s = .next ((s.setMason m { x with haltReq := true }).fin .ok)) ∧
    (s.takes r (R.MC_CTL m) → wbit v 0 = false → wbit v 1 = false → exec (.mcStop r m v) s = .next ((s.masonReset m).fin .ok)) ∧
    (s.alive = true → s.masonOn m = true → x.haltReq = true → exec (.masonHalted m) s = .next (s.masonHalt m)) ∧
    (s.alive = true → x.haltReq = false → exec (.masonHalted m) s = .next s) ∧
    (s.takes r (memAddr m (.imem i)) → s.memLocked m (.imem i) = false → s.masonOn m = false → exec (.masonMemWrite r m (.imem i) v) s = .next ((s.memStore (memAddr m (.imem i)) v).fin .ok)) ∧
    (s.takes r (memAddr m (.imem i)) → s.memLocked m (.imem i) = false → s.masonOn m = true → exec (.masonMemWrite r m (.imem i) v) s = .next (s.fin .busy)) ∧
    (s.takes r (memAddr m (.dmem j)) → s.masonOn m = false → exec (.masonMemWrite r m (.dmem j) v) s = .next ((s.memStore (memAddr m (.dmem j)) v).fin .ok)) ∧
    (s.takes r (memAddr m (.dmem j)) → s.masonOn m = true → exec (.masonMemWrite r m (.dmem j) v) s = .next (s.fin .busy)) ∧
    (mt = .entry ∨ mt = .tvec → s.takes r (memAddr m mt) → s.memLocked m mt = false → v.toNat % 4 ≠ 0 → exec (.masonMemWrite r m mt v) s = .next (s.fin .unsupported)) ∧
    (mt = .entry ∨ mt = .tvec → s.takes r (memAddr m mt) → s.memLocked m mt = false → v.toNat % 4 = 0 → s.masonOn m = true → exec (.masonMemWrite r m mt v) s = .next (s.fin .busy)) ∧
    (mt = .entry ∨ mt = .tvec → s.takes r (memAddr m mt) → s.memLocked m mt = false → v.toNat % 4 = 0 → s.masonOn m = false →
      exec (.masonMemWrite r m mt v) s = .next ((s.setW (memAddr m mt) (BitVec.ofNat 32 (v.toNat % 65536))).fin .ok)) ∧
    (s.alive = true → accOf r (memAddr m mt) = .rw → s.memLocked m mt = true → exec (.masonMemWrite r m mt v) s = .next ((s.csRefuse 0 .locked).fin .locked)) ∧
    (s.takes r (R.MC_DOORBELL m) → exec (.doorbellWrite r m v) s = .next ((s.setW (R.MC_DOORBELL m) (s.w (R.MC_DOORBELL m) ||| v)).fin .ok)) ∧
    (s.alive = true → x.wait = some (src, expiry, gd) → s.f (F.MC_STAT_STATE m) = 2 → x.haltReq = false → s.wakeBits m src expiry ≠ 0 →
      exec (.masonWake m) s = .next (((s.endWait m src expiry gd).setF (F.MC_STAT_STATE m) 1).retire m (x.pc + 4))) ∧
    (s.alive = true → x.wait = some (src, expiry, gd) → s.wakeBits m src expiry = 0 → exec (.masonWake m) s = .next s) ∧
    (s.alive = true → s.f (F.MC_STAT_STATE m) = 1 → x.haltReq = false → s.fetchTrap m = some (c, tv) → exec (.trapTaken m) s = .next (s.trap m c tv)) ∧
    (s.alive = true → s.f (F.MC_STAT_STATE m) = 1 → s.fetchTrap m = none → exec (.trapTaken m) s = .next s) ∧
    (s.takes r (R.PQ_PUSH q) → y.full = false → exec (.pqPush r q v) s = .next ((s.setPq q (y.push v)).fin .ok)) ∧
    (s.takes r (R.PQ_PUSH q) → y.full = true → exec (.pqPush r q v) s = .next ((s.pqFlag q 5).fin .ok)) ∧
    (s.alive = true → s.mapStop r (R.PQ_POP q) false = none → s.underTest (R.PQ_POP q) = false → exec (.pqPop r q) s = .next ((s.pqPop q).1.finData [(s.pqPop q).2.1])) ∧
    (s.takes r (R.PQ_CTL q) → wbit v 1 = false → wbit v 2 = false → exec (.pqFlush r q v) s = .next ((s.setPq q y.flush).fin .ok)) ∧
    (s.takes r (R.PQ_CTL q) → wbit v 0 = false → wbit v 2 = false → exec (.pqOpen r q v) s = .next ((s.pqOpen q (bits v.toNat 31 16)).fin .ok)) ∧
    (s.takes r (R.PQ_CTL q) → wbit v 0 = false → wbit v 1 = false → exec (.pqClose r q v) s = .next ((s.pqClose q).1.fin .ok))

/-- On a port that is not a DOWN port, where no request waits and with a TAG that is not outstanding, a PROGRAM hod is outstanding while it takes its
effect and is then answered: with no session, BEGIN opens one of 1 to 524,288 bytes; with one open it is BUSY; another length, 0 among them, is
LENGTH. DATA stages words inside the session's length at an offset that is a multiple of 4. A COMMIT that fails a check of R208 answers that
check's status, raises 0x0C06 with the mason and installs nothing more; a good image without LEGAL and without stream entries, for stopped masons
that hold no LEGAL image, is written to each of them, ends the session and raises 0x0C05. With COMP the expander gives the image from the staged
blocks first, is BUSY_TEST while it is under test, and its failure is the COMMIT's. ABORT ends the session. A request that arrived in a hod and
is the oldest of its port takes effect, leaves its place and is answered; one with an older request before it waits (notes/assumptions/49.md). A
TAG still unanswered completes with TAG. The mason that 0x0C05 and 0x0C06 name (notes/assumptions/103.md), the packing of the detail of 0x0C06
(notes/assumptions/25.md) and what fails which step at an image's edges (notes/assumptions/79.md) are the model's choices. (R207, R208, R209,
R221, R348, R351, R354, R357, R358) -/
def Obligations.ProgramHods : Prop :=
  ∀ (s t : State) (p : Fin 16) (tag : BitVec 7) (l c o d : Word) (ds : List Word) (x : Prog) (y : Image) (vh : BitVec 16) (m k : Nat) (st : Status) (h : Bool) (q : Reqd) (qs : List Reqd) (bs : List Byte),
    let free := s.tagsOut.contains tag.toNat = false ∧ (s.port p).reqs = [] ∧ s.role p ≠ 2
    let req := fun (op : Nat) => (⟨8, op, tag.toNat, false⟩ : Reqd)
    let at_ := fun (op : Nat) => s.pushReq p (req op)
    let answers := fun (op : Nat) (z : State) => (at_ op).runReq p (req op) (fun _ => z) fun y => y.answer p op tag.toNat
    let u := at_ 2
    let idxs := range' 0 (ceilDiv x.len 4)
    let staged := idxs.map fun i => (x.word i).getD 0
    let bytes := (wordsToBytes staged).take x.len
    let idle := fun (z : State) => (y.targets.any fun i => z.kilnTest == some (3, i)) = false ∧ (y.targets.any fun i => z.f (F.MC_STAT_STATE i) != 0) = false
    let plain := fun (z : State) => y.legal = false ∧ y.targets.any z.holdsLegal = false ∧ y.entries = []
    let placed := fun (z : State) => z.each y.targets fun w i => w.fillMason y i
    let done := fun (z : State) => (({ z with prog := none }.raise 0x0C05 y.source 0).fin .ok)
    let mine := fun (z : Reqd) => z.typ = 8 ∧ z.op = 3 ∧ z.tag = tag.toNat
    s.alive = true → s.mode ≠ 0 → s.mode ≠ 4 →
    (free → bits c.toNat 30 0 = 0 → s.prog = none → l.toNat ≠ 0 → l.toNat ≤ 524288 →
      exec (.begin p tag [l, c]) s = .next (answers 0 ({ at_ 0 with prog := some ⟨l.toNat, wbit c 31, []⟩ }.fin .ok))) ∧
    (free → bits c.toNat 30 0 = 0 → s.prog = some x → exec (.begin p tag [l, c]) s = .next (answers 0 ((at_ 0).fin .busy))) ∧
    (free → bits c.toNat 30 0 = 0 → s.prog = none → l.toNat = 0 ∨ 524288 < l.toNat → exec (.begin p tag [l, c]) s = .next (answers 0 ((at_ 0).fin .length))) ∧
    (free → s.prog = some x → o.toNat % 4 = 0 → o.toNat + 4 * (ds.length + 1) ≤ 4 * ceilDiv x.len 4 →
      exec (.data p tag (o :: d :: ds)) s = .next (answers 1 ({ at_ 1 with prog := some (x.stage (o.toNat / 4) (d :: ds)) }.fin .ok))) ∧
    (free → s.prog = some x → o.toNat % 4 ≠ 0 → exec (.data p tag (o :: d :: ds)) s = .next (answers 1 ((at_ 1).fin .addr))) ∧
    (free → s.prog = some x → x.comp = false → (idxs.any fun i => (x.word i).isNone) = false → readImage bytes = .ok y → u.live = true → idle u → plain u →
      exec (.commit p tag [] vh) s = .next (answers 2 (done (placed u)))) ∧
    (free → s.prog = some x → x.comp = true → (idxs.any fun i => (x.word i).isNone) = false → u.kilnTest ≠ some (5, 0) → u.pxJobEnd.expandStage staged = (t, .ok bs) →
      readImage bs = .ok y → t.live = true → idle t → plain t → u.began (placed t) = false →
      exec (.commit p tag [] vh) s = .next (answers 2 (done (placed t)))) ∧
    (free → s.prog = some x → x.comp = true → (idxs.any fun i => (x.word i).isNone) = false → u.kilnTest ≠ some (5, 0) → u.pxJobEnd.expandStage staged = (t, .error st) →
      exec (.commit p tag [] vh) s = .next (answers 2 ((t.raise 0x0C06 0 (st.code * 2 ^ 32 + 3)).fin st))) ∧
    (free → s.prog = some x → x.comp = true → (idxs.any fun i => (x.word i).isNone) = false → u.kilnTest = some (5, 0) →
      exec (.commit p tag [] vh) s = .next (answers 2 ((u.raise 0x0C06 0 (Status.busyTest.code * 2 ^ 32 + 3)).fin .busyTest))) ∧
    (free → u.commitSteps vh.toNat = (t, m, some (st, k)) → exec (.commit p tag [] vh) s = .next (answers 2 ((t.raise 0x0C06 m (st.code * 2 ^ 32 + k)).fin st))) ∧
    (free → s.prog = none → exec (.commit p tag [] vh) s = .next (answers 2 ((u.raise 0x0C06 0 (Status.unsupported.code * 2 ^ 32 + 1)).fin .unsupported))) ∧
    (free → s.prog = some x → exec (.abort p tag []) s = .next (answers 3 ({ at_ 3 with prog := none }.fin .ok))) ∧
    (free → s.prog = none → exec (.abort p tag []) s = .next (answers 3 ((at_ 3).fin .unsupported))) ∧
    ((at_ 0).began t = false → (t.port p).reqs = [req 0] → answers 0 t = ((t.popReq p).answer p 0 tag.toNat).serve p) ∧
    ((s.port p).reqs = ⟨8, 3, tag.toNat, h⟩ :: qs → s.owed ≠ some p.val → s.prog = some x →
      exec (.abort p tag []) s = .next (((({ s with prog := none }.fin .ok).popReq p).answer p 3 tag.toNat).serve p)) ∧
    (s.tagsOut.contains tag.toNat = false → s.role p ≠ 2 → (s.port p).reqs = q :: qs → ¬ mine q → (∀ z ∈ qs, ¬ mine z) → exec (.abort p tag []) s = .next (s.pushReq p ⟨8, 3, tag.toNat, false⟩)) ∧
    (s.tagsOut.contains tag.toNat = true → s.role p ≠ 2 → ((s.port p).reqs.any fun z => z.typ == 8 && z.op == 3 && z.tag == tag.toNat) = false → exec (.abort p tag []) s = .next ((s.fin .tag).answer p 3 tag.toNat)) ∧
    ((s.port p).reqs = [] → s.role p = 2 → exec (.abort p tag []) s = .next (s.misdirect p s.hid))

/-- A hod due or whose flush time has passed is handed on; the next handed hod is admitted where the mode admits. The oldest unsent hod of a ring
leaves by its UP port with VC2 credit, but not before an EVENT hod that can go. With no request waiting at its port, which is not a DOWN port,
and outstanding while it takes effect, a HORIZON within the sent hods drops them and moves the rewind mark; a REWIND within the range sends again
from its YSEQ; others are counted as bad with 0x0605 or 0x0606. On a DOWN port both are misdirected. A resumed stream's reserve is written; a
drain with nothing left ends; an idle empty yard enters self-refresh. The index under which a bad HORIZON or REWIND is counted
(notes/assumptions/51.md) and the commands that change nothing (notes/assumptions/8.md) are the model's choices. (R263, R265, R268, R269, R270,
R271, R272, R273, R277, R278, R280, R282) -/
def Obligations.RingsAndHodsOfTheYard : Prop :=
  ∀ (s : State) (p : Fin 16) (sid : Fin 8192) (ws : List Word) (q n : Nat) (h : Handed) (hs : List Handed) (o : Open) (fixed : Word) (i : BitVec 26) (x : RHod) (z : State),
    let h_ := s.pushReq p ⟨6, 0, 0, false⟩
    let r_ := s.pushReq p ⟨7, 0, 0, false⟩
    let free := s.mode ≠ 0 ∧ s.mode ≠ 4 ∧ (s.port p).reqs = [] ∧ s.role p ≠ 2
    let hEnds := fun (t : State) => h_.runReq p ⟨6, 0, 0, false⟩ (fun _ => t) fun y => y
    let rEnds := fun (t : State) => r_.runReq p ⟨7, 0, 0, false⟩ (fun _ => t) fun y => y
    let hseq := (s.w (R.RING_HSEQ q)).toNat
    let k := (n + 1 + 2 ^ 32 - hseq) % 2 ^ 32
    let j := (n + 2 ^ 32 - hseq) % 2 ^ 32
    let tseq := (s.w (R.RING_TSEQ p)).toNat
    let bad := badRing p ws
    let second := (ws.getD 1 0).toNat
    s.alive = true →
    (s.masonWritten sid = false → s.handOnDue sid = true → exec (.hodHandOn sid) s = .next (s.handOn sid)) ∧
    (s.handOnDue sid = false → exec (.hodHandOn sid) s = .next s) ∧
    (s.openOf (s.hodKey sid) sid = some o → s.masonWritten sid = false → o.opened + (s.w R.YARD_FLUSH).toNat * 1000 * nsU ≤ s.cyc → exec (.yardFlushExpire sid) s = .next (s.flushHod sid)) ∧
    (s.admits = true → s.nextHanded [] s.handed = some (h, hs) → exec .hodAdmit s = .next (({ s with handed := hs }).yardTake h)) ∧
    (s.admits = false → exec .hodAdmit s = .next s) ∧
    (s.role p = 1 → s.mode ≠ 5 → s.canSend p 2 = true → s.eventDue p = false → (s.ring p).find tseq = some x → x.sent = false → (s.ringHod p x).flags % 4 ≠ 2 →
      let u := s.sendHod p 2 (s.ringHod p x)
      let w := (u.setRing p { u.ring p with hods := (u.ring p).hods.map fun z => if z.yseq = tseq then { z with sent := true } else z }).setW
        (R.RING_TSEQ p) (BitVec.ofNat 32 (tseq + 1))
      ((u.ring p).hods.map fun z => if z.yseq = tseq then { z with sent := true } else z).any
        (fun z => z.yseq == (tseq + 1) % 2 ^ 32 && z.sent) = false →
      exec (.streamHodTransmit p) s = .next ((w.setF (F.RING_STAT_REWINDING p) 0).pump p)) ∧
    (s.role p ≠ 1 ∨ s.mode = 5 ∨ s.canSend p 2 = false ∨ s.eventDue p = true → exec (.streamHodTransmit p) s = .next s) ∧
    (free → s.ringArg ws = some (q, n) → k ≤ (s.ring q).sentCount → exec (.horizon p ws) s = .next (hEnds (h_.horizon q k))) ∧
    (free → s.ringArg ws = none ∨ (s.ringArg ws = some (q, n) ∧ (s.ring q).sentCount < k) → exec (.horizon p ws) s =
        .next (hEnds ((h_.bump (F.RING_BAD_HORIZON bad) 1).raiseBit R.YARD_EVT 4 0x0605 bad second))) ∧
    (free → s.ringArg ws = some (q, n) → j ≤ ((s.w (R.RING_TSEQ q)).toNat + 2 ^ 32 - hseq) % 2 ^ 32 → exec (.rewind p ws) s =
        .next (rEnds ((r_.setW (R.RING_TSEQ q) (BitVec.ofNat 32 n)).setF (F.RING_STAT_REWINDING q) (if j < (s.ring q).sentCount then 1 else 0)))) ∧
    (free → s.ringArg ws = none ∨ (s.ringArg ws = some (q, n) ∧ ((s.w (R.RING_TSEQ q)).toNat + 2 ^ 32 - hseq) % 2 ^ 32 < j) → exec (.rewind p ws) s =
        .next (rEnds ((r_.bump (F.RING_BAD_REWIND bad) 1).raiseBit R.YARD_EVT 5 0x0606 bad second))) ∧
    (h_.began z = false → (z.port p).reqs = [⟨6, 0, 0, false⟩] → hEnds z = (z.popReq p).serve p) ∧
    (s.mode ≠ 0 → s.mode ≠ 4 → (s.port p).reqs = [] → s.role p = 2 → exec (.horizon p ws) s = .next (s.misdirect p s.hid) ∧ exec (.rewind p ws) s = .next (s.misdirect p s.hid)) ∧
    (s.admits = true → s.resumed.contains (sid.val, p.val) = true → exec (.reserveHodWrite p sid) s = .next (s.writeReserve p sid)) ∧
    (s.draining = true → s.handed = [] → exec .drainEnd s = .next { s with draining := false }) ∧
    (s.mode ≠ 0 → exec (.yardScrub fixed none) s = .next (s.bumpW R.YARD_FIX fixed.toNat)) ∧
    (s.mode ≠ 0 → exec (.yardScrub fixed (some i)) s = .next { s.bumpW R.YARD_FIX fixed.toNat with
        bad := insNat (0x20000000 + 8 * i.toNat) (insNat (0x20000004 + 8 * i.toNat) (s.bumpW R.YARD_FIX fixed.toNat).bad) }) ∧
    (s.mode ≠ 0 → s.b F.YARD_STAT_READY = true → s.yardEmpty = true → s.activeSids = [] → s.inFlight = false → exec .yardSrefEnter s = .next (s.setF F.YARD_STAT_SREF 1))

/-- With the yard empty in BRINGUP or HOLD a ring size that fits is taken, the rings laid out anew and the ring's numbers set to zero; in another
mode MODE, beyond 512 MiB UNSUPPORTED; a size of 0 is taken of a port that no active stream names, and is BUSY of another, as is any size while
the yard holds a hod. A width change is BUSY while a stream of the channel is active. PC_CTL takes RMAX, the length at which a record closes,
from 16 to 1,020, and PRED, of an engine no active stream is assigned to, and is BUSY of another. GO of an idle expander starts a job, of a busy
one is BUSY; a job whose scan fails ends with that status, no bytes and event 0x0701 with the status and the block's index; a good one ends OK
with its bytes. The order of the refusals (notes/assumptions/14.md), the packing of that detail (notes/assumptions/25.md) and when a job's
outcome is worked out (notes/assumptions/53.md) are the model's choices. (R257, R267, R287, R289, R292, R293, R297, R298, R299, R300, R301) -/
def Obligations.RingAndPressConfiguration : Prop :=
  ∀ (s : State) (r : Req) (p : Fin 16) (t : Fin 24) (e : Fin 4) (v : Word) (bs : List PBlock) (out : List Byte) (err : ScanErr) (k : Nat),
    let n := bits v.toNat 9 0
    let rest := ((range' 0 16).map fun q => if q = p.val then 0 else s.f (F.RING_CFG_SIZE q)).sum
    let m := bits v.toNat 25 16
    let laid := ((s.setF (F.RING_CFG_SIZE p) n).setBases).each (range' 0 16) fun u q => u.setRing q ⟨[], 0⟩
    let differs := Nat.xor (bits v.toNat 15 0) (bits (s.w (R.PK_CTL t)).toNat 15 0)
    let hit := s.activeSids.any fun i => !s.masonWritten i && s.f (F.SE_CTL_SRC_KIND i) == 0 && s.f (F.SE_SRC_CH i) / 16 == t.val && bit differs (s.f (F.SE_SRC_CH i) % 16)
    let input := (range' 0 (s.f F.PX_JOB_IN_LEN)).map fun i => s.w (R.PX_INBUF i)
    (s.takes r (R.RING_CFG p) → s.mode = 1 ∨ s.mode = 2 → n ≠ 0 → n + rest ≤ 512 → s.yardEmpty = true →
      exec (.ringCfgWrite r p v) s = .next ((((laid.setW (R.RING_WSEQ p) 0).setW (R.RING_TSEQ p) 0).setW (R.RING_HSEQ p) 0).fin .ok)) ∧
    (s.takes r (R.RING_CFG p) → s.mode = 1 ∨ s.mode = 2 → n = 0 → rest ≤ 512 → s.yardEmpty = true → (s.activeSids.any fun i => s.portOf i == p.val) = false →
      exec (.ringCfgWrite r p v) s = .next ((((laid.setW (R.RING_WSEQ p) 0).setW (R.RING_TSEQ p) 0).setW (R.RING_HSEQ p) 0).fin .ok)) ∧
    (s.takes r (R.RING_CFG p) → s.mode = 1 ∨ s.mode = 2 → n + rest ≤ 512 → s.yardEmpty = false ∨ (n = 0 ∧ (s.activeSids.any fun i => s.portOf i == p.val) = true) → exec (.ringCfgWrite r p v) s = .next (s.fin .busy)) ∧
    (s.takes r (R.RING_CFG p) → s.mode ≠ 1 → s.mode ≠ 2 → exec (.ringCfgWrite r p v) s = .next (s.fin .mode)) ∧
    (s.takes r (R.RING_CFG p) → s.mode = 1 ∨ s.mode = 2 → 512 < n + rest → exec (.ringCfgWrite r p v) s = .next (s.fin .unsupported)) ∧
    (s.takes r (R.PK_CTL t) → hit = true → exec (.pkCtlWrite r t v) s = .next (s.fin .busy)) ∧
    (s.takes r (R.PK_CTL t) → hit = false → exec (.pkCtlWrite r t v) s = .next ((s.setW (R.PK_CTL t) (v &&& 0xFFFF)).fin .ok)) ∧
    (s.alive = true → exec (.blockEnd e) s = .next { (s.codeHanded e s.handed).1 with handed := (s.codeHanded e s.handed).2 }) ∧
    (s.takes r (R.PC_CTL e) → 16 ≤ m → m ≤ 1020 → s.engineUsed e = false → exec (.pcCtlWrite r e v) s = .next ((s.setW (R.PC_CTL e) (v &&& 0x03FF0001)).fin .ok)) ∧
    (s.takes r (R.PC_CTL e) → 16 ≤ m → m ≤ 1020 → s.engineUsed e = true → exec (.pcCtlWrite r e v) s = .next (s.fin .busy)) ∧
    (s.takes r (R.PC_CTL e) → m < 16 ∨ 1020 < m → exec (.pcCtlWrite r e v) s = .next (s.fin .unsupported)) ∧
    (s.takes r (R.PC_MRES e) → (s.setW (R.PC_MRES e) v).pressOk = true → exec (.pcMresWrite r e v) s = .next ((s.setW (R.PC_MRES e) v).fin .ok)) ∧
    (s.takes r (R.PC_MRES e) → (s.setW (R.PC_MRES e) v).pressOk = false → exec (.pcMresWrite r e v) s = .next (s.fin .unsupported)) ∧
    (s.takes r R.PX_CTL → wbit v 0 = true → s.f F.PX_STAT_STATE = 0 → s.b F.PX_STAT_OWNER = false →
      exec (.pxGo r v) s = .next ((((s.setF F.PX_STAT_VALID 0).setF F.PX_STAT_STATUS 0).setF F.PX_STAT_STATE 1).fin .ok)) ∧
    (s.takes r R.PX_CTL → wbit v 0 = true → s.f F.PX_STAT_STATE ≠ 0 ∨ s.b F.PX_STAT_OWNER = true → exec (.pxGo r v) s = .next (s.fin .busy)) ∧
    (s.alive = true → s.f F.PX_STAT_STATE ≠ 0 → scanBlocks (s.f F.PX_JOB_IN_LEN + 1) 0 (s.f F.PX_JOB_OUT_LIMIT) input = .ok bs →
      expandBlocks bs (s.f F.PX_JOB_OUT_LIMIT) 0 [] = ⟨out, none⟩ → exec .pxJobEnd s = .next (s.pxEnd .ok out)) ∧
    (s.alive = true → s.f F.PX_STAT_STATE ≠ 0 → scanBlocks (s.f F.PX_JOB_IN_LEN + 1) 0 (s.f F.PX_JOB_OUT_LIMIT) input = .error (err, k) →
      exec .pxJobEnd s = .next ((s.pxEnd err.status []).raiseBit R.PRESS_EVT 0 0x0701 0 (err.status.code * 2 ^ 32 + k))) ∧
    (s.alive = true → s.f F.PX_STAT_STATE = 0 → exec .pxJobEnd s = .next s)

/-- A lane of a port whose signal, clock and PLL are good leaves DETECT for ALIGN. A training set counts in ALIGN and POLARITY as the table of R327
has it; from ORDER onward one acts whose comma stands where the lane aligned, whose form and CRC are good; in UP one of an earlier state takes
the port down; one that is not valid does no more than thaw the equaliser, as each set does. In ORDER unequal widths and a mapping that is none
of R323 fail the port at once; else it is decided as R325 says: the DOWN end waits for all its lanes until 2 ms have passed, the UP end 4 ms for
an aligned group. A time-out fails the port with its state's cause. The back-off ends the lanes' silence; a converged equaliser takes its
settings unless it is held and may complete the port; it freezes after 4,096 symbols of idle in EQ or UP. The transmitters of a port send on
together to their next grout set. A legal QUAD_CTL write applies its roles, and both roles OFF power the quad down. What the rules leave open of
the training, the DOWN end's wait and the choice of the lanes above all (notes/assumptions/43.md), and the commands that change nothing
(notes/assumptions/8.md) are the model's choices. (R305, R309, R315, R320, R321, R322, R323, R325, R326, R327, R328) -/
def Obligations.LanesTrain : Prop :=
  ∀ (s : State) (r : Req) (q : Fin 8) (v : Word) (st : Status) (syms : Nat) (n : Fin 32) (p : Fin 16) (i : Nat) (ts : TrainSet) (x : TsRead) (first own : Nat) (ctle : BitVec 4) (dfe : BitVec 30) (js : List Nat) (c : Nat) (rev : Bool),
    let p0 := 2 * q.val
    let base := s.setW (R.QUAD_CTL q) (v &&& 0x0003FF07)
    let off := base.setF (F.QUAD_STAT_PLL_LOCK q) 0
    let mine := s.lanePort n = some i
    let u := s.setF (F.LANE_EQ_FROZEN n) 0
    let took := (s.setF (F.LANE_EQ_CTLE n) ctle.toNat).setW (R.LANE_DFE n) (BitVec.ofNat 32 dfe.toNat)
    s.alive = true →
    (mine → s.lst n = 0 → s.b (F.LANE_STAT_LOS n) = false → s.b (F.LANE_STAT_LOL n) = false → s.b (F.QUAD_STAT_PLL_LOCK (n / 4)) = true → exec (.detectDone n) s = .next (s.toLst n 1)) ∧
    (s.b (F.LANE_STAT_LOS n) = true → exec (.detectDone n) s = .next s) ∧
    (mine → u.lst n = 1 → exec (.trainingSet n ts) s = .next (u.tsAlign n ts)) ∧
    (mine → u.lst n = 2 → exec (.trainingSet n ts) s = .next (u.tsPolar n ts.late (u.readSet n ts))) ∧
    (mine → u.lst n = 3 → u.readSet n ts = some x → exec (.trainingSet n ts) s = .next (u.tsLearn n ts.late x)) ∧
    (mine → u.lst n = 4 → u.readSet n ts = some x → exec (.trainingSet n ts) s = .next (u.tsRate i n x)) ∧
    (mine → u.lst n = 5 → u.readSet n ts = some x → exec (.trainingSet n ts) s = .next (u.tsEq i n x)) ∧
    (mine → u.lst n = 6 → u.readSet n ts = some x → x.state < 6 → exec (.trainingSet n ts) s = .next (u.leaveUp i 4 true)) ∧
    (mine → 3 ≤ u.lst n → u.lst n ≤ 6 → u.readSet n ts = none → exec (.trainingSet n ts) s = .next u) ∧
    (s.lanesIn p 3 ≠ [] → s.partnerMap p = .error c → exec (.orderDecide p first own) s = .next (s.failPort p c)) ∧
    (((s.lanesIn p 3).all fun k => (s.lane k).width == s.widthCode p) = false → s.partnerMap p = .error 5) ∧
    (s.lanesIn p 3 ≠ [] → s.partnerMap p = .ok rev → s.role p ≠ 2 ∨ 2000 ≤ first ∨ 2 ^ s.widthCode p ≤ (s.lanesIn p 3).length → s.chooseLanes p = some js → exec (.orderDecide p first own) s = .next (s.passOrder p rev js)) ∧
    (s.lanesIn p 3 ≠ [] → s.partnerMap p = .ok rev → s.role p = 2 → first < 2000 → (s.lanesIn p 3).length < 2 ^ s.widthCode p → exec (.orderDecide p first own) s = .next s) ∧
    (s.lanesIn p 3 ≠ [] → s.partnerMap p = .ok rev → s.chooseLanes p = none → (if s.role p = 2 then 2000 ≤ first else 4000 ≤ own) → exec (.orderDecide p first own) s = .next (s.failPort p 3)) ∧
    (mine → s.lst n = 3 → exec (.trainTimeout n) s = .next (s.orderDecide i true)) ∧
    (mine → s.lst n = 1 → exec (.trainTimeout n) s = .next (s.failPort i 1)) ∧
    (mine → s.lst n = 2 → exec (.trainTimeout n) s = .next (s.failPort i 2)) ∧
    (mine → s.lst n = 4 → 0 < (s.lane n).badRole → exec (.trainTimeout n) s = .next (s.failPort i 7)) ∧
    (mine → s.lst n = 4 → (s.lane n).badRole = 0 → exec (.trainTimeout n) s = .next (s.failPort i 6)) ∧
    (mine → s.lst n = 5 → exec (.trainTimeout n) s = .next (s.failPort i 8)) ∧
    (exec (.backoffExpire p) s = .next (s.each (s.portLanes p) fun u k => if (u.lane k).quiet then
        u.setLane k { u.lane k with quiet := false, grout := 0, slot := 0, txNeg := true, part := [], tx := [] } else u)) ∧
    (mine → s.lst n = 5 → s.b (F.LANE_EQ_HOLD n) = false → s.b (F.LANE_EQ_FROZEN n) = false →
      exec (.eqConverged n ctle dfe) s = .next ((took.setLane n { took.lane n with done := true }).tryUp i)) ∧
    (mine → s.lst n = 5 → s.b (F.LANE_EQ_HOLD n) = true → exec (.eqConverged n ctle dfe) s = .next ((s.setLane n { s.lane n with done := true }).tryUp i)) ∧
    (mine → s.lst n = 6 → s.b (F.LANE_EQ_HOLD n) = false → s.b (F.LANE_EQ_FROZEN n) = false → exec (.eqConverged n ctle dfe) s = .next took) ∧
    (s.lanePort n = some i → (s.sending i).contains n.val = true → exec (.groutSend n) s = .next (s.each (s.sending i) (State.sendGrout i))) ∧
    (s.lst n = 5 ∨ s.lst n = 6 → 4096 ≤ syms → exec (.eqFreeze ⟨n, syms⟩) s = .next (s.setF (F.LANE_EQ_FROZEN n) 1)) ∧
    (s.takes r (R.QUAD_CTL q) → s.quadStop q v = some st → exec (.quadCtlWrite r q v) s = .next (s.fin st)) ∧
    (s.takes r (R.QUAD_CTL q) → s.quadStop q v = none → s.role p0 = 0 → s.role (p0 + 1) = 0 → bits v.toNat 15 12 ≠ 0 →
      exec (.quadCtlWrite r q v) s = .next (((base.roleWritten p0 0 (wbit v 24)).roleWritten (p0 + 1) 0 (wbit v 25)).fin .ok)) ∧
    (s.takes r (R.QUAD_CTL q) → s.quadStop q v = none → s.role p0 = 0 → s.role (p0 + 1) = 0 → bits v.toNat 15 12 = 0 →
      exec (.quadCtlWrite r q v) s = .next (((off.roleWritten p0 0 (wbit v 24)).roleWritten (p0 + 1) 0 (wbit v 25)).fin .ok)) ∧
    (s.takes r (R.QUAD_CTL q) → s.quadStop q v = none → bits v.toNat 13 12 = s.role p0 → bits v.toNat 15 14 = s.role (p0 + 1) → bits v.toNat 15 12 ≠ 0 →
      exec (.portRetrain r q v) s = .next (((base.roleWritten p0 (s.role p0) (wbit v 24)).roleWritten (p0 + 1) (s.role (p0 + 1)) (wbit v 25)).fin .ok))

/-- A cause of R329, a lost signal in UP and a lost PLL take the port down, a lost signal in training fails it; LOS follows the amplitude by the
threshold of R331. Code and disparity errors of a lane that counts are counted. Four grout sets out of place in a row take an UP port down. A
slip empties the elastic buffer, counted, with event 0x0803. Data thaw a frozen equaliser. In a near-end loopback nothing from outside reaches
the receive path. A loopback of a lane in use is BUSY; a change of LB starts both directions of the lane afresh. A quad's checker takes the bits
that arrive, unless a near-end loopback feeds it; a generator that runs takes an injection. That a PLL whose roles are both OFF does not lock
(notes/assumptions/111.md), the cause numbers that LANE_DOWN carries (notes/assumptions/45.md) and when a checker and an injection begin
(notes/assumptions/47.md) are the model's choices. (R307, R314, R317, R318, R320, R329, R330, R331, R332, R333, R334, R335) -/
def Obligations.LanesInOperation : Prop :=
  ∀ (s : State) (r : Req) (q : Fin 8) (n : Fin 32) (p : Fin 16) (i dist late mv : Nat) (v : Word) (lol neg data ref : Bool) (g : BitVec 10) (bs bs2 : List Bool) (fill : Fin 33) (cause : Fin 5) (c : Status),
    let lost := (s.setF (F.LANE_STAT_LOS n) 1).setF (F.LANE_STAT_LOL n) (if lol then 1 else 0)
    let low := mv < 40 + 10 * s.f (F.LANE_CTL_LOS_THR n)
    let seen := (s.setF (F.LANE_STAT_LOS n) 0).setF (F.LANE_STAT_LOL n) 0
    let e := if data then (s.ebAdjust n fill.val).setF (F.LANE_EQ_FROZEN n) 0 else s.ebAdjust n fill.val
    let m := (s.lane n).miss + 1
    let k := 4 * q.val
    let misplaced := dist < 1022 ∨ 1026 < dist
    let got := fun (j : Nat) => e.setLane n { e.lane n with miss := j, late := late }
    let p0 := 2 * q.val
    let slip := ((s.setLane n { s.lane n with slipped := true }).setF (F.LANE_EB_FILL n) 0).bump (F.LANE_EB_SLIP n) 1
    let bad := fun (c d : Nat) => ((s.bump (F.LANE_ERR_CODE n) c).bump (F.LANE_ERR_DISP n) d).setF (F.LANE_EVT_CODE_ERR n) 1
    let word := readLine (s.b (F.LANE_STAT_RX_INV n)) neg [g]
    s.alive = true →
    (exec (.laneDown p cause) s = .next (s.leaveUp p (cause.val + 1) true)) ∧
    (low → lost.lanePort n = some i → lost.lst n = 6 → exec (.losChange n mv lol) s = .next (lost.leaveUp i 1 true)) ∧
    (low → lost.lanePort n = some i → 1 ≤ lost.lst n → lost.lst n ≤ 5 → exec (.losChange n mv lol) s = .next (lost.failPort i 9)) ∧
    (low → lost.lanePort n = none → exec (.losChange n mv lol) s = .next lost) ∧
    (40 + 10 * s.f (F.LANE_CTL_LOS_THR n) < mv → exec (.losChange n mv false) s = .next seen) ∧
    (s.lanesOn = true → exec (.qpllLoss q ref) s = .next (((((s.setF (F.QUAD_STAT_PLL_LOCK q) 0).setF (F.QUAD_STAT_REFCLK_OK q) (if ref then 1 else 0)).each [p0, p0 + 1] fun u j =>
        if u.portUp j then u.leaveUp j 5 true else if u.pstate j = 1 then u.toDetect j false else u)).raiseBit (R.QUAD_EVT q) 4 0x0806 q 0)) ∧
    (s.lanesOn = true → s.role p0 = 0 → s.role (p0 + 1) = 0 → exec (.quadPllLock q) s = .next s) ∧
    (s.lanesOn = true → s.role p0 ≠ 0 ∨ s.role (p0 + 1) ≠ 0 → exec (.quadPllLock q) s = .next ((s.setF (F.QUAD_STAT_PLL_LOCK q) 1).setF (F.QUAD_STAT_REFCLK_OK q) 1)) ∧
    (s.nearEnd n = true → exec (.codeError n ⟨neg, [g]⟩) s = .next s) ∧
    (s.laneCounts n = true → s.nearEnd n = false → word = [.bad false] → (bad 1 0).farEnd n = false → exec (.codeError n ⟨neg, [g]⟩) s = .next (bad 1 0)) ∧
    (s.laneCounts n = true → s.nearEnd n = false → word = [.bad true] → (bad 0 1).farEnd n = false → exec (.codeError n ⟨neg, [g]⟩) s = .next (bad 0 1)) ∧
    (s.lst n ≠ 7 → s.nearEnd n = false → e.farEnd n = false → e.lanePort n = some i → e.lst n = 6 → misplaced → m = 4 →
      exec (.groutReceive n ⟨dist, late⟩ data fill) s = .next ((got m).leaveUp i 2 true)) ∧
    (s.lst n ≠ 7 → s.nearEnd n = false → e.farEnd n = false → e.lanePort n = some i → e.lst n = 6 → ¬ misplaced → (got 0).skewOk ((got 0).lanesIn i 6) = true →
      exec (.groutReceive n ⟨dist, late⟩ data fill) s = .next (got 0)) ∧
    (s.lst n ≠ 7 → s.nearEnd n = false → e.farEnd n = false → e.lanePort n = some i → e.lst n = 6 → ¬ misplaced → (got 0).skewOk ((got 0).lanesIn i 6) = false →
      exec (.groutReceive n ⟨dist, late⟩ data fill) s = .next ((got 0).leaveUp i 3 true)) ∧
    (s.nearEnd n = true → exec (.groutReceive n ⟨dist, late⟩ data fill) s = .next s) ∧
    (s.lst n ≠ 7 → s.b (F.LANE_EVT_EB_SLIP n) = false → exec (.ebSlip n) s = .next (slip.raiseBit (R.LANE_EVT n) 2 0x0803 n 0)) ∧
    (s.takes r (R.LANE_CTL n) → bits v.toNat 15 12 ≤ 12 → bits v.toNat 11 8 ≤ 12 → bits v.toNat 5 4 ≠ 0 → s.laneBusy n = true → exec (.laneCtlWrite r n v) s = .next (s.fin .busy)) ∧
    (s.takes r (R.LANE_CTL n) → bits v.toNat 15 12 ≤ 12 → bits v.toNat 11 8 ≤ 12 → s.laneBusy n = false → bits v.toNat 5 4 = s.f (F.LANE_CTL_LB n) →
      exec (.laneCtlWrite r n v) s = .next ((s.setW (R.LANE_CTL n) (v &&& 0x000FFF31)).fin .ok)) ∧
    (s.takes r (R.LANE_CTL n) → bits v.toNat 15 12 ≤ 12 → bits v.toNat 11 8 ≤ 12 → s.laneBusy n = false → bits v.toNat 5 4 ≠ s.f (F.LANE_CTL_LB n) →
      exec (.laneCtlWrite r n v) s = .next (((s.setLane n { s.lane n with tx := [], txNeg := true, rxNeg := true }).setW (R.LANE_CTL n) (v &&& 0x000FFF31)).fin .ok)) ∧
    (s.nearEnd k = false → exec (.prbsLock ⟨q, bs⟩) s = .next (s.checkBits q bs)) ∧
    (s.nearEnd k = false → exec (.prbsLockLost q bs bs2) s = .next (s.checkBits q (bs ++ bs2))) ∧
    (s.nearEnd k = true → exec (.prbsLock ⟨q, bs⟩) s = .next s) ∧
    (s.takes r (R.PRBS_CTL k) → s.prbsStop k v = some c → exec (.prbsCtlWrite r q v) s = .next (s.fin c)) ∧
    (s.takes r (R.PRBS_CTL k) → s.prbsStop k v = none → wbit v 8 = false → wbit v 9 = false → wbit v 0 = false → wbit v 1 = true → s.b (F.PRBS_CTL_CHK_EN k) = true →
      exec (.prbsCtlWrite r q v) s = .next ((((s.setW (R.PRBS_CTL k) (v &&& 0x00FF0073)).setW (R.PRBS_ERR k) 0).setTwo (R.PRBS_BITS k) 0).fin .ok)) ∧
    (s.takes r (R.PRBS_CTL k) → s.prbsStop k (v ||| 0x100) = none → wbit v 9 = false → wbit v 1 = false → s.b (F.PRBS_CTL_GEN_EN k) = true →
      let u := (s.setF (F.PRBS_STAT_INJ_PEND k) 1).setPrbs q { s.prbsOf q with inject := [1] }
      exec (.inj1 r q v) s = .next (((u.setW (R.PRBS_CTL k) ((v ||| 0x100) &&& 0x00FF0073)).setF (F.PRBS_STAT_LOCK k) 0).fin .ok)) ∧
    (s.takes r (R.PRBS_CTL k) → s.prbsStop k (v ||| 0x200) = none → wbit v 8 = false → wbit v 1 = false → s.b (F.PRBS_CTL_GEN_EN k) = true →
      let u := (s.setF (F.PRBS_STAT_INJ_PEND k) 1).setPrbs q { s.prbsOf q with inject := [bits v.toNat 23 16] }
      exec (.injb r q v) s = .next (((u.setW (R.PRBS_CTL k) ((v ||| 0x200) &&& 0x00FF0073)).setF (F.PRBS_STAT_LOCK k) 0).fin .ok))

/-- A staged set that breaks a rule of R398 is UNSUPPORTED, one that keeps them is counted and begins to be saved where the hold-up check passes, and
comes into force as the save ends (in DORMANT, where the cornerstone's clock stands still, the command ends BUSY); one that meters an input of a
tile under test is BUSY_TEST; without the energy, or after an uncorrectable error (the model's choice of BUSY, notes/assumptions/105.md), it is
refused with event 0x0B04; sealed commands are LOCKED. RELOAD fills the stage with the active set. A firmware block goes to the other copy in a
batch; a commit with a wrong digest is CRC, one with the right digest switches the copies as its save ends. A meter whose tiles deliver adds a
sample; at each boundary its interval ends; a record waits for its carrier. The seal opens and closes with 0x0B01 and 0x0B02; the identity
appears; a lost supply clears the cornerstone and its return restores it, in DORMANT and in scan once its clock runs. After an uncorrectable
error nothing is saved and no sample joins. UNSUPPORTED and BUSY without event 0x0B04 (notes/assumptions/62.md), CS_CMD without the supply
(notes/assumptions/63.md), the save as a batch (notes/assumptions/68.md) and what a stopped clock does (notes/assumptions/120.md) are the model's
choices. (R394, R397, R398, R402, R405, R406, R407, R408, R409, R410, R411, R474) -/
def Obligations.CornerstoneCommandsAndMeters : Prop :=
  ∀ (s : State) (r : Req) (arg vh : BitVec 16) (j : Fin 16) (edge tau t k : Nat) (ws : List Word) (more : List (List Word)) (b : Batch) (clear copy : Bool),
    let x := s.meter j
    let taken := s.takeSet s.staged
    let bytes := wordsToBytes ((range' 0 1024).map fun i => s.w (R.CS_FWBUF i))
    let other := !s.b F.CS_STAT_FW_COPY
    let runs := s.meterRuns j = true ∧ edge % (s.f (F.TILE_CTL_RDIV (s.csPlace (s.f (F.CSM_CFG_VIN j))).1) * s.mdiv j) = 0
    let u := (s.reach tau).closeUpTo j tau
    let works := s.csStop = false ∧ (s.nvCheck 3 64 vh.toNat).2 = true
    let held := (s.nvCheck 3 64 vh.toNat).1
    let bound := s.boundaryAfter t
    let count := held.w R.CS_EVCNT + 1
    let untested := (taken.csInputs.any fun i => s.testing == some (1, (taken.csPlace i).1)) = false
    let saves := fun (z : State) (p : CsPend) => ({ (held.setW R.CS_EVCNT count).begin 5 (nvPar (saveSlot held.newestPar)) (slotRows (z.setW R.CS_EVCNT count).parBytes) with csPend := some p } : State)
    let batchEnd := ({ ({ s.writeRows b b.rows.length with nv := none } : State).setF F.NV_STAT_BUSY 0 with csPend := none } : State)
    (s.takes r R.CS_CMD → s.csBlocked = false → s.csOn = true → taken.csSetOk = false → exec (.apply r arg vh) s = .next (s.csEnd .unsupported)) ∧
    (s.takes r R.CS_CMD → s.csBlocked = true → r = .host → exec (.apply r arg vh) s = .next ((s.csRefuse 0 .locked).csEnd .locked)) ∧
    (s.takes r R.CS_CMD → s.csBlocked = false → s.csOn = true → taken.csSetOk = true → ¬ untested → exec (.apply r arg vh) s = .next (s.csEnd .busyTest)) ∧
    (s.takes r R.CS_CMD → s.csBlocked = false → s.csOn = true → taken.csSetOk = true → untested → s.nvBusy = false → works →
      exec (.apply r arg vh) s = .next (saves (held.takeSet s.staged) (.set s.staged (bit arg.toNat 0) vh.toNat))) ∧
    (s.takes r R.CS_CMD → s.csBlocked = false → s.csOn = true → taken.csSetOk = true → untested → s.nvBusy = false → s.csStop = true → exec (.apply r arg vh) s = .next ((s.csRefuse 0 .busy).csEnd .busy)) ∧
    (s.takes r R.CS_CMD → s.csBlocked = false → s.csOn = true → taken.csSetOk = true → untested → s.nvBusy = false → s.csStop = false → (s.nvCheck 3 64 vh.toNat).2 = false →
      exec (.apply r arg vh) s = .next ((held.csRefuse 0 .nvEnergy).csEnd .nvEnergy)) ∧
    (s.alive = true → s.mode = 0 → s.nv = some b → b.writer = 5 → s.owed = none → exec .nvBatchDone s = .next ((s.batchOver b).fin .busy).nextSave) ∧
    (s.alive = true → s.mode ≠ 0 → s.nv = some b → b.writer = 5 → s.owed = none → s.csPend = some (.set ws clear k) →
      exec .nvBatchDone s = .next (((batchEnd.csApply ws clear k).csChanged.csEnd .ok).nextSave)) ∧
    (s.alive = true → s.mode ≠ 0 → s.nv = some b → b.writer = 5 → s.owed = none → s.csPend = some (.firmware copy) →
      exec .nvBatchDone s = .next (((batchEnd.setF F.CS_STAT_FW_COPY (b2n copy)).csChanged.csEnd .ok).nextSave)) ∧
    (s.takes r R.CS_CMD → s.csBlocked = false → s.csOn = true → taken.csSetOk = true → untested → s.nvBusy = true → exec (.apply r arg vh) s = .next (s.csEnd .busy)) ∧
    (s.takes r R.CS_CMD → s.csOn = true → exec (.reload r) s = .next ((s.each csActive fun z a => z.setW (a + 0x400) (z.w a)).csEnd .ok)) ∧
    (s.takes r R.CS_CMD → s.csOn = false → exec (.reload r) s = .next (s.fin .busy)) ∧
    (s.takes r R.CS_CMD → s.b F.CS_STAT_SEALED = true → r = .host → exec (.fwBlock r arg vh) s = .next (s.csEnd .locked)) ∧
    (s.takes r R.CS_CMD → s.b F.CS_STAT_SEALED = false → s.csOn = true → arg.toNat < 48 → s.nvBusy = false → s.csStop = false → (s.nvCheck 5 64 vh.toNat).2 = true →
      exec (.fwBlock r arg vh) s = .next ((s.nvCheck 5 64 vh.toNat).1.begin 7 (nvFw other + 4096 * arg.toNat) (nvRows 64 bytes))) ∧
    (s.takes r R.CS_CMD → s.csBlocked = false → s.csOn = true → arg.toNat = 0 ∨ 48 < arg.toNat → exec (.fwCommit r arg vh) s = .next (s.csEnd .length)) ∧
    (s.takes r R.CS_CMD → s.csBlocked = false → s.csOn = true → arg.toNat ≠ 0 → arg.toNat ≤ 48 → sha256 (s.nvBytes (nvFw other) (4096 * arg.toNat)) ≠ s.fwDig →
      exec (.fwCommit r arg vh) s = .next (s.csEnd .crc)) ∧
    (s.takes r R.CS_CMD → s.csBlocked = false → s.csOn = true → arg.toNat ≠ 0 → arg.toNat ≤ 48 → sha256 (s.nvBytes (nvFw other) (4096 * arg.toNat)) = s.fwDig →
      s.nvBusy = false → works → exec (.fwCommit r arg vh) s = .next (saves (held.setF F.CS_STAT_FW_COPY (b2n other)) (.firmware other))) ∧
    (s.alive = true → runs → (u.meter j).start = some t → ((s.meterInputs j).any fun i => !u.b (F.TILE_STAT_READY (u.csPlace i).1)) = false →
      ((s.meterInputs j).any fun i => u.b (F.CH_STAT_FAILED (u.csPlace i).1 (u.csPlace i).2)) = false → exec (.meterSample j edge tau) s =
        .next (u.setMeter j ((u.meter j).sample (u.csWord (u.f (F.CSM_CFG_VIN j))) (if u.b (F.CSM_CFG_I_EN j) then u.csWord (u.f (F.CSM_CFG_IIN j)) else 0)
          ((s.meterInputs j).any fun i => bit (u.tile (u.csPlace i).1).clip (u.csPlace i).2) (u.f F.TIME_STAT_QUALITY)))) ∧
    (s.alive = true → x.start = some t → s.meterRuns j = true → bound ≤ s.st → exec (.intervalEnd j vh) s = .next ((s.endInterval j bound false true vh.toNat).closeUpTo j s.st)) ∧
    (s.alive = true → x.start = none → exec (.intervalEnd j vh) s = .next s) ∧
    (s.alive = true → s.csOn = true → s.carrier j = some k → x.buf = ws :: more →
      let z := s.setMeter j { x with buf := more }
      exec (.meterRecordPlace j) s = .next (z.setStr k { z.str k with ins := (z.str k).ins ++ [(0, ⟨ws, 0, 0⟩)] })) ∧
    (s.csRuns = true → s.b F.CS_STAT_SEALED = true →
      exec .sealOpen s = .next (((s.setF F.CS_STAT_SEALED 0).each (range' 0 16) fun z i => z.setMeter i { z.meter i with sealed := false }).csEvent 0 0x0B01 0 0)) ∧
    (s.csRuns = true → s.b F.CS_STAT_SEALED = false → exec .sealClose s = .next ((s.setF F.CS_STAT_SEALED 1).csEvent 1 0x0B02 0 0)) ∧
    (s.csRuns = false → exec .sealOpen s = .next s ∧ exec .sealClose s = .next s ∧ exec .identityDone s = .next s) ∧
    (s.csRuns = true → s.csOn = true → s.b F.CS_STAT_ID_BUSY = true → exec .identityDone s = .next ((s.setWs (R.CS_IDENT 0) (bytesToWords s.identity)).setF F.CS_STAT_ID_BUSY 0)) ∧
    (s.csOn = true → exec .vddCstLoss s = .next ((s.setF F.PWR_STAT_CST 0).csClear)) ∧
    (s.csOn = false → s.csRuns = true → exec .vddCstReturn s = .next ((s.setF F.PWR_STAT_CST 1).csRestore)) ∧
    (s.csOn = false → s.csRuns = false → exec .vddCstReturn s = .next { s.setF F.PWR_STAT_CST 1 with csWait := true }) ∧
    (s.csOn = true → exec .vddCstReturn s = .next s)

/-- A guard conversion of the input that is next in turn stores its code and judges the temperature or the supply; of another input nothing happens.
GO and the timer trigger a run where the mode of R429 lets them; an entry of a run stores its rounded mean and the next follows, or the run is
done; a finished run starts the pending one. A period of 0 or TMODE 3 is UNSUPPORTED, a change while EN is BUSY. EN set in CONTINUOUS starts a
run; EN clear has the sequencer end after the conversion in progress, without a further result. READY is writable; a pin's MODE 3 is UNSUPPORTED,
an active one outside HOLD and ACQUIRE is MODE. That GO with EN = 0 is ignored, that CONTINUOUS starts as EN is set and what a guard conversion
judges (notes/assumptions/88.md), the order of the refusals (notes/assumptions/14.md) and that a guard conversion out of its turn changes nothing
(notes/assumptions/9.md) are the model's choices. (R427, R428, R429, R430, R460, R496) -/
def Obligations.HousekeepingAndPins : Prop :=
  ∀ (s : State) (r : Req) (k : Fin 28) (i : Fin 4) (code : BitVec 12) (v : Word) (sum : BitVec 19),
    let g := ({ s with hk := { s.hk with next := (k.val + 1) % 28 } } : State).setW (R.HK_GRD k) (BitVec.ofNat 32 (16 * code.toNat))
    let n := s.f F.HK_STAT_ENTRY
    let res := s.hkResult n (min (divEven (16 * sum.toNat) (2 ^ s.f (F.HK_SEQ_AVG n))).toNat 65535)
    let m := bits v.toNat 9 8
    let idle := ({ s.setF F.HK_STAT_RUN 0 with hk := { s.hk with done := false, ending := false } } : State)
    let pin := s.setW (R.TRIGIO_CTL i) (v &&& 0x003F0301)
    (s.alive = true → s.hkRuns = true → k.val = s.hk.next → k.val < 12 → exec (.guardConversion k code) s = .next (g.guardTemp k code.toNat)) ∧
    (s.alive = true → s.hkRuns = true → k.val = s.hk.next → 12 ≤ k.val → exec (.guardConversion k code) s = .next (g.guardSupply k code.toNat)) ∧
    (s.alive = true → k.val ≠ s.hk.next → exec (.guardConversion k code) s = .next s) ∧
    (s.takes r R.HK_TRIG → wbit v 0 = true → s.b F.HK_CTL_EN = true → s.f F.HK_CTL_TMODE ≠ 2 → exec (.hkGo r v) s = .next (s.hkTrigger.fin .ok)) ∧
    (s.takes r R.HK_TRIG → wbit v 0 = true → s.b F.HK_CTL_EN = false → exec (.hkGo r v) s = .next (s.fin .ok)) ∧
    (s.alive = true → s.hkRuns = true → s.b F.HK_CTL_EN = true → s.f F.HK_CTL_TMODE = 1 → exec .hkPeriodTick s = .next s.hkTrigger) ∧
    (s.alive = true → s.f F.HK_CTL_TMODE ≠ 1 → exec .hkPeriodTick s = .next s) ∧
    (s.alive = true → s.hkRuns = true → s.b F.HK_CTL_EN = true → s.b F.HK_STAT_RUN = true → s.hk.done = false → s.hk.ending = false → n < s.f F.HK_CTL_LEN → res.f F.HK_CTL_LEN = s.f F.HK_CTL_LEN →
      exec (.hkSeqEntry sum) s = .next (res.setF F.HK_STAT_ENTRY (n + 1))) ∧
    (s.alive = true → s.hkRuns = true → s.b F.HK_CTL_EN = true → s.b F.HK_STAT_RUN = true → s.hk.done = false → s.hk.ending = false → n = s.f F.HK_CTL_LEN →
      exec (.hkSeqEntry sum) s = .next { res with hk := { res.hk with done := true } }) ∧
    (s.alive = true → s.hk.ending = true → exec (.hkSeqEntry sum) s = .next s) ∧
    (s.alive = true → s.b F.HK_STAT_RUN = true → s.hk.ending = true → idle.b F.HK_CTL_EN = false → exec .hkRunEnd s = .next (idle.setF F.HK_STAT_ENTRY 0)) ∧
    (s.alive = true → s.b F.HK_STAT_RUN = true → s.hk.done = true → idle.b F.HK_CTL_EN = true → idle.b F.HK_STAT_PEND = true → exec .hkRunEnd s = .next (idle.setF F.HK_STAT_PEND 0).hkStart) ∧
    (s.alive = true → s.b F.HK_STAT_RUN = true → s.hk.done = true → idle.b F.HK_CTL_EN = true → idle.b F.HK_STAT_PEND = false → idle.f F.HK_CTL_TMODE ≠ 2 → exec .hkRunEnd s = .next idle) ∧
    (s.takes r R.HK_CTL → bits v.toNat 31 16 = 0 ∨ bits v.toNat 5 4 = 3 → exec (.hkCtlWrite r v) s = .next (s.fin .unsupported)) ∧
    (s.takes r R.HK_CTL → bits v.toNat 31 16 ≠ 0 → bits v.toNat 5 4 ≠ 3 → s.b F.HK_CTL_EN = true → v &&& 0xFFFF1F30 ≠ s.w R.HK_CTL &&& 0xFFFF1F30 →
      exec (.hkCtlWrite r v) s = .next (s.fin .busy)) ∧
    (s.takes r R.HK_CTL → bits v.toNat 31 16 ≠ 0 → bits v.toNat 5 4 < 2 → s.b F.HK_CTL_EN = false → wbit v 0 = true →
      exec (.hkCtlWrite r v) s = .next ((s.setW R.HK_CTL (v &&& 0xFFFF1F31)).fin .ok)) ∧
    (s.takes r R.HK_CTL → bits v.toNat 31 16 ≠ 0 → bits v.toNat 5 4 = 2 → s.b F.HK_CTL_EN = false → s.b F.HK_STAT_RUN = false → wbit v 0 = true →
      exec (.hkCtlWrite r v) s = .next ((s.setW R.HK_CTL (v &&& 0xFFFF1F31)).hkStart.fin .ok)) ∧
    (s.takes r R.HK_CTL → bits v.toNat 31 16 ≠ 0 → bits v.toNat 5 4 ≠ 3 → s.b F.HK_CTL_EN = false ∨ v &&& 0xFFFF1F30 = s.w R.HK_CTL &&& 0xFFFF1F30 → wbit v 0 = false →
      exec (.hkCtlWrite r v) s = .next (({ (s.setW R.HK_CTL (v &&& 0xFFFF1F31)).setF F.HK_STAT_PEND 0 with hk := { s.hk with ending := s.b F.HK_STAT_RUN } } : State).fin .ok)) ∧
    (s.takes r R.ALERT_CTL → exec (.alertCtlWrite r v) s = .next ((s.setF F.ALERT_CTL_READY (bits v.toNat 0 0)).fin .ok)) ∧
    (s.takes r (R.TRIGIO_CTL i) → m = 3 → exec (.trigioCtlWrite r i v) s = .next (s.fin .unsupported)) ∧
    (s.takes r (R.TRIGIO_CTL i) → m ≠ 3 → m ≠ 0 → s.live = false → exec (.trigioCtlWrite r i v) s = .next (s.fin .mode)) ∧
    (s.takes r (R.TRIGIO_CTL i) → m = 2 → s.live = true → exec (.trigioCtlWrite r i v) s = .next (pin.fin .ok)) ∧
    (s.takes r (R.TRIGIO_CTL i) → m = 0 → exec (.trigioCtlWrite r i v) s = .next (({ pin with pulses := Tab.set (fun _ => none) pin.pulses i none } : State).fin .ok))

/-- POR ends what was being written and resets with source 0, BOR with 1 when a supply falls below its brown-out level outside DORMANT, PIN with 2
and holds the hub until RST_N rises, the watchdog, once a period has passed, warns with 0x0104 and then resets with 3, SOFT of the owner with 4,
DEBUG with 5, CLKF with 6 after event 0x010D, LOCKUP with 7, once a fabric access has lasted FAB_TMO microseconds, unless it is only to be
logged: the access then completes with BUSY, which answers the port's request or the management port's, and a mason's rld traps. A low of RST_N
of 5 µs or more resets, one below 1 µs is ignored, and a bit that the model leaves free decides one between. The five that may defer cut a batch
first. The kick clears the warning. PWR_STAT shows each supply against its power-good level; one that is not good holds back a release that has
not begun, and power good starts it; losing VBAT clears the RTC. The source 16 of 0x0105 and that in DORMANT only the manager's accesses can last
too long (notes/assumptions/112.md), the monitors of the rails and of main power (notes/assumptions/125.md), the low between the two limits of
R439 (notes/assumptions/110.md), the warning (notes/assumptions/61.md) and the commands that do nothing (notes/assumptions/8.md) are the model's
choices. (R436, R437, R438, R439, R440, R441, R442, R457, R485, R486) -/
def Obligations.ResetSourcesAndSupplies : Prop :=
  ∀ (s : State) (r : Req) (v : Word) (n : BitVec 7) (x : Rails) (pg brown : Nat) (clock : Fin 3) (low cycles us : Nat) (who : Accessor) (m : Fin 16) (h : Reqd) (hs : List Reqd) (cmd wa data : Nat) (ps : Fin 16),
    let period := s.wdtCycles ≤ cycles
    let stuck := s.f F.FAB_TMO_V ≤ us
    let fired := (s.fin .busy).raiseBit R.RPC_EVT 4 0x0105 16 0
    let on := ({ s with aon := true, vbat := true, rel := if s.mainGood then 2 else 1 } : State)
    let seen := ({ s with pgood := s.pgood && pg == 0x3F, brown := brown } : State).setF F.PWR_STAT_PG pg
    let fell := (range' 0 6).any fun k => bit brown k && !bit s.brown k
    let good := ({ s.rails 0x3F 0 with pgood := true } : State)
    let closes := fun (i : Nat) (z : State) => z.when (z.owed == some i) fun w => { w with owed := none }
    let ctl := (s.setF F.RST_CTL_LOCKUP_ACT (bits v.toNat 8 8)).fin .ok
    let aged := (({ s with vbat := false, rtc := 0, rtcPhase := 0, rtcLoad := none } : State).setW R.RTC_UTC_OFS (resetWord R.RTC_UTC_OFS)).setW R.RTC_CTL (resetWord R.RTC_CTL)
    (s.aon = true → exec .por s = .next (({ s.finishBatch with aon := false } : State).hubReset 0)) ∧
    (railMonitor x (s.f F.PWR_STAT_PG) s.brown = (pg, brown) → exec (.bor x) s = .next (s.rails pg brown)) ∧
    (s.aon = true → s.scan = false → s.mode ≠ 0 → fell = true → s.rails pg brown = seen.finishBatch.hubReset 1) ∧
    (fell = false ∨ s.mode = 0 → seen.pgood = true ∨ seen.rel ≠ 2 → s.rails pg brown = seen) ∧
    (fell = false ∨ s.mode = 0 → seen.pgood = false → seen.rel = 2 → s.rails pg brown = { seen with rel := 1 }) ∧
    (s.alive = true → 5000 ≤ low → exec (.pin ⟨low, n⟩) s = .next { (s.cutBatch n.toNat).hubReset 2 with rstLow := true }) ∧
    (s.alive = true → low < 1000 → exec (.pin ⟨low, n⟩) s = .next s) ∧
    (s.alive = true → 1000 ≤ low → low < 5000 → exec (.pin ⟨low, n⟩) s =
      .next (if (s.draw 1).2 = 1 then { ((s.draw 1).1.cutBatch n.toNat).hubReset 2 with rstLow := true } else (s.draw 1).1)) ∧
    (exec .rstNHigh s = .next { s with rstLow := false }) ∧
    (s.alive = true → s.live = true → s.b F.WDT_CTL_EN = true → s.b F.WDT_STAT_WARN = true → period → exec (.wdogExpire ⟨cycles, n⟩) s = .next ((s.cutBatch n.toNat).hubReset 3)) ∧
    (s.alive = true → s.live = true → s.b F.WDT_CTL_EN = true → s.b F.WDT_STAT_WARN = false → period → exec (.wdogExpire ⟨cycles, n⟩) s = .next ((s.setF F.WDT_STAT_WARN 1).raiseBit R.RPC_EVT 3 0x0104 0 0)) ∧
    (s.alive = true → s.b F.WDT_CTL_EN = false ∨ ¬ period → exec (.wdogExpire ⟨cycles, n⟩) s = .next s) ∧
    (s.takes r R.WDT_KICK → bits v.toNat 15 0 = 0x4B49 → exec (.wdtKick r v) s = .next ((s.setF F.WDT_STAT_WARN 0).fin .ok)) ∧
    (s.takes r R.WDT_KICK → bits v.toNat 15 0 ≠ 0x4B49 → exec (.wdtKick r v) s = .next (s.fin .unsupported)) ∧
    (s.takes r R.RST_CTL → wbit v 0 = true → s.notOwner r = false → exec (.soft r v n) s = .next ((ctl.cutBatch n.toNat).hubReset 4)) ∧
    (s.takes r R.RST_CTL → wbit v 0 = true → s.notOwner r = true → exec (.soft r v n) s = .next (s.fin .busy)) ∧
    (s.takes r R.RST_CTL → wbit v 0 = false → exec (.soft r v n) s = .next ctl) ∧
    (s.aon = true → s.rstLow = false → exec (.debugReset n) s = .next ((s.cutBatch n.toNat).hubReset 5)) ∧
    (s.alive = true → s.mode ≠ 0 → exec (.clkf clock n) s = .next (((s.raiseBit R.RPC_EVT 12 0x010D clock.val 0).cutBatch n.toNat).hubReset 6)) ∧
    (s.alive = true → stuck → s.mode ≠ 0 ∨ who = .manager → s.b F.RST_CTL_LOCKUP_ACT = false → exec (.lockup ⟨who, us, n⟩) s = .next ((s.cutBatch n.toNat).hubReset 7)) ∧
    (s.alive = true → s.mode = 0 → who ≠ .manager → exec (.lockup ⟨who, us, n⟩) s = .next s) ∧
    (s.alive = true → us < s.f F.FAB_TMO_V → exec (.lockup ⟨who, us, n⟩) s = .next s) ∧
    (s.alive = true → stuck → s.mode ≠ 0 → s.b F.RST_CTL_LOCKUP_ACT = true → exec (.lockup ⟨.other, us, n⟩) s = .next fired) ∧
    (s.alive = true → stuck → s.mode ≠ 0 → s.b F.RST_CTL_LOCKUP_ACT = true → exec (.lockup ⟨.mason m, us, n⟩) s = .next (fired.rldStuck m)) ∧
    (s.alive = true → stuck → s.mode ≠ 0 → s.b F.RST_CTL_LOCKUP_ACT = true → (fired.port ps).reqs = h :: hs → h.tagged = true →
      exec (.lockup ⟨.port ps, us, n⟩) s = .next (closes ps (((fired.popReq ps).answer ps h.op h.tag).serve ps))) ∧
    (s.alive = true → stuck → s.b F.RST_CTL_LOCKUP_ACT = true → fired.mgp.pend = some (cmd, wa, data) →
      let b := mgpResp 2 (cmd / 16) Status.busy.code wa (if cmd = 0x10 then (fired.cpl.data.headD 0).toNat else 0)
      exec (.lockup ⟨.manager, us, n⟩) s = .next (closes 16 { fired with mgp := { fired.mgp with pend := none, res := some b, last := some b } })) ∧
    (good.rel = 1 → exec .mainPowerGood s = .next { good with rel := 2 }) ∧
    (good.rel ≠ 1 → exec .mainPowerGood s = .next good) ∧
    (exec .mainPowerLoss s = .next (s.rails 0 0x3F)) ∧
    (s.aon = false → on.csOn = false → exec .vddAonPowerOn s = .next on) ∧
    (s.aon = false → on.csOn = true → exec .vddAonPowerOn s = .next on.csRestore) ∧
    (s.aon = true → exec .vddAonPowerOn s = .next s) ∧
    (s.aon = false → exec .vbatLoss s = .next (aged.setF F.RTC_STAT_VALID 0)) ∧
    (s.aon = true → exec .vbatLoss s = .next s)

/-- A batch of a command that has ended stands in the MRAM and completes OK. Outside a batch the reads fill the staging registers from copy A or B,
in one BUSY; a legal staged record and boot image rows start a batch where the hold-up check passes, in the wrong mode MODE; the batch is refused
where R443 says. The option load of step 2 puts the record that R446 and R451 choose in force. The release passes its steps in order; step 7
finds no valid kiln record, or begins the batch that clears the record's first row and judges the record at its end, or finds the hold-up check
failed. BLK_RST resets an idle block with event 0x0106; a busy one is BUSY, one under test BUSY_TEST. The steps that wait for a batch
(notes/assumptions/86.md), the choice of the copies and the strap (notes/assumptions/85.md), the layout of the MRAM (notes/assumptions/3.md),
what a wake loads (notes/assumptions/60.md) and the order of the refusals (notes/assumptions/14.md) are the model's choices. (R442, R443, R444,
R446, R447, R449, R450, R451, R452, R453, R471) -/
def Obligations.OptionsNonVolatileAndRelease : Prop :=
  ∀ (s : State) (r : Req) (v : Word) (vh : BitVec 16) (b : Batch) (raw : BitVec 12) (eA eB : Bool) (k : Nat),
    let ws := recSealed ((range' 0 31).map fun i => (s.w (R.OPT_STAGE i)).toNat)
    let cp := s.chooseCopy eA eB
    let lr := (s.measureCfgr raw.toNat).loadResult cp.1 cp.2.1 cp.2.2.1 cp.2.2.2
    let st := lr.1.applyStrap lr.2 cp.2.2.1
    let target := bits v.toNat 29 28
    let n := bits v.toNat 25 24 + 1
    let row := bits v.toNat 13 0
    let kind := bits v.toNat 27 24
    let i := bits v.toNat 7 0
    let rows := nvRows 2 (ws.flatMap (natBE 4))
    let chk0 := s.nvCheck 0 2 vh.toNat
    let image := nvRows n (wordsToBytes ((range' 0 64).map fun j => s.w (R.NV_BUF j)))
    let chk1 := s.nvCheck 1 n vh.toNat
    let done := ({ s.writeRows b b.rows.length with nv := none } : State)
    (s.alive = true → s.nv = some b → b.writer < 4 → s.owed = none → s.enDue = none → exec .nvBatchDone s = .next (((done.setF F.NV_STAT_BUSY 0).setF F.NV_STAT_STATUS 0).fin .ok)) ∧
    (s.alive = true → s.nv = some b → b.writer < 4 → s.owed = some k → exec .nvBatchDone s = .next (((((done.setF F.NV_STAT_BUSY 0).setF F.NV_STAT_STATUS 0).fin .ok).endAccess k).nextSave)) ∧
    (s.alive = true → s.nv = some b → b.writer = 7 → s.owed = none → s.enDue = none → exec .nvBatchDone s = .next ((done.setF F.NV_STAT_BUSY 0).csEnd .ok)) ∧
    (s.alive = true → s.nv = none → exec .nvBatchDone s = .next s) ∧
    (s.alive = true → s.rel = 2 → exec (.optionLoad raw eA eB) s = .next { (st.1.inForce st.2).logRelease with rel := 3 }) ∧
    (s.alive = true → s.rel ≠ 2 → exec (.optionLoad raw eA eB) s = .next s) ∧
    (s.takes r R.OPT_CMD → s.nvBusy = false → exec (.readA r) s = .next ((s.setWs (R.OPT_STAGE 0) ((s.copyWords false).map fun x => BitVec.ofNat 32 x)).fin .ok)) ∧
    (s.takes r R.OPT_CMD → s.nvBusy = false → exec (.readB r) s = .next ((s.setWs (R.OPT_STAGE 0) ((s.copyWords true).map fun x => BitVec.ofNat 32 x)).fin .ok)) ∧
    (s.takes r R.OPT_CMD → s.nvBusy = true → exec (.readB r) s = .next (s.fin .busy)) ∧
    (s.takes r R.OPT_CMD → s.nvMode = true → recFields ws = true → s.nvBusy = false → chk0.2 = true →
      exec (.writeA r vh) s = .next { chk0.1.setF F.NV_STAT_BUSY 1 with nv := some ⟨0, nvOption false, rows⟩ }) ∧
    (s.takes r R.OPT_CMD → s.nvMode = true → recFields ws = true → s.nvBusy = false → chk0.2 = true →
      exec (.writeB r vh) s = .next { chk0.1.setF F.NV_STAT_BUSY 1 with nv := some ⟨1, nvOption true, rows⟩ }) ∧
    (s.takes r R.OPT_CMD → s.nvMode = true → recFields ws = true → s.nvBusy = false → chk0.2 = false → exec (.writeA r vh) s = .next ((chk0.1.setF F.NV_STAT_STATUS Status.nvEnergy.code).fin .nvEnergy)) ∧
    (s.takes r R.OPT_CMD → s.nvMode = true → recFields ws = false → exec (.writeA r vh) s = .next (s.fin .unsupported)) ∧
    (s.takes r R.OPT_CMD → s.nvMode = false → exec (.writeB r vh) s = .next (s.fin .mode)) ∧
    (s.takes r R.NV_CMD → s.nvMode = true → 2 ≤ target → row + n ≤ 16384 → s.nvBusy = false → chk1.2 = true → exec (.nvCmd r v vh) s =
        .next { chk1.1.setF F.NV_STAT_BUSY 1 with nv := some ⟨target, nvBoot (target == 3) + 64 * row, image⟩ }) ∧
    (s.takes r R.NV_CMD → s.nvMode = true → target < 2 → exec (.nvCmd r v vh) s = .next (s.fin .unsupported)) ∧
    (s.takes r R.NV_CMD → s.nvMode = true → 2 ≤ target → 16384 < row + n → exec (.nvCmd r v vh) s = .next (s.fin .length)) ∧
    (s.alive = true → s.rel = 3 → exec (.releaseStep vh) s = .next { s.seed with rel := 4 }) ∧
    (s.alive = true → s.rel = 4 → s.b F.SMPL_CTL_SRC = true → exec (.releaseStep vh) s = .next { s with rel := 5 }) ∧
    (s.alive = true → s.rel = 4 → s.b F.SMPL_CTL_SRC = false → exec (.releaseStep vh) s = .next { s.smplLock.setF F.TIME_STAT_SMPL_LOCK 1 with rel := 5 }) ∧
    (s.alive = true → s.rel = 5 → exec (.releaseStep vh) s = .next { (s.dropMem 0x20000000 (2 ^ 29)).setF F.YARD_STAT_READY 1 with rel := 6 }) ∧
    (s.alive = true → s.rel = 6 → s.nvBusy = false → s.began (s.boot vh.toNat) = false → exec (.releaseStep vh) s = .next { s.boot vh.toNat with rel := 7 }) ∧
    (s.alive = true → s.rel = 6 → s.nvBusy = false → s.began (s.boot vh.toNat) = true → exec (.releaseStep vh) s = .next (s.boot vh.toNat)) ∧
    (s.alive = true → s.rel = 6 → s.nvBusy = true → exec (.releaseStep vh) s = .next s) ∧
    (s.alive = true → s.rel = 7 → s.nvBusy = false → s.f F.KILN_STAT_STATE ≠ 2 → exec (.releaseStep vh) s = .next (s.kilnStep vh.toNat)) ∧
    (kilnValid s.kilnRecord = false → s.kilnStep vh.toNat = ({ s with recMaps := [] } : State).kilnVerdict 1) ∧
    (kilnValid s.kilnRecord = true → (s.nvCheck 2 1 vh.toNat).2 = true → (s.kilnStep vh.toNat).nv = some ⟨4, nvKiln, [List.replicate 64 0]⟩ ∧ (s.kilnStep vh.toNat).kilnWords = s.kilnRecord ∧ (s.kilnStep vh.toNat).rel = s.rel) ∧
    (kilnValid s.kilnRecord = true → (s.nvCheck 2 1 vh.toNat).2 = false →
      (s.kilnStep vh.toNat).f F.KILN_STAT_REASON = 2 ∧ (s.kilnStep vh.toNat).f F.KILN_STAT_STATE = 2 ∧ (s.kilnStep vh.toNat).nv = s.nv) ∧
    (s.alive = true → s.nv = some b → b.writer = 4 → s.owed = none → done.mode = 1 → s.rel = 7 → exec .nvBatchDone s = .next (done.setF F.NV_STAT_BUSY 0).kilnJudge.nextSave) ∧
    (s.alive = true → s.rel = 8 → exec (.releaseStep vh) s = .next { s.each (range' 0 24) State.releaseTile with rel := 9 }) ∧
    (s.alive = true → s.rel = 9 → exec (.releaseStep vh) s = .next ((({ s with rel := 10 } : State).each (range' 0 16) State.trainPort).endRelease)) ∧
    (s.takes r R.BLK_RST → kind ≠ 3 → 8 < kind → exec (.blkRst r v) s = .next (s.fin .unsupported)) ∧
    (s.takes r R.BLK_RST → kind ≠ 3 → kind ≤ 8 → kindCount kind = some k → k ≤ i → exec (.blkRst r v) s = .next (s.fin .addr)) ∧
    (s.takes r R.BLK_RST → kind ≠ 3 → kind ≤ 8 → kindCount kind = some k → i < k → s.testing = none → s.blockIdle kind i = false → exec (.blkRst r v) s = .next (s.fin .busy)) ∧
    (s.takes r R.BLK_RST → kind ≠ 3 → kind ≤ 8 → kindCount kind = some k → i < k → s.testing = some (kind, i) → exec (.blkRst r v) s = .next (s.fin .busyTest)) ∧
    (s.takes r R.BLK_RST → kind ≠ 3 → kind ≤ 8 → kindCount kind = some k → i < k → s.testing = none → s.blockIdle kind i = true →
      exec (.blkRst r v) s = .next (((s.resetBlock kind i).raiseBit R.RPC_EVT 5 0x0106 kind i).fin .ok))

/-- The owner's MODE writes make the changes of R455; a fault sends the hub to SAFE with its cause. A test of an idle block starts; a segment or test
whose pattern set is complete or whose budget is spent ends as R464 and R475 say, and goes on else; the ended kiln begins the batch of its
record, and leaves for DORMANT as it ends, or at once where the hold-up check fails (the batch as a command of its own is the model's reading,
notes/assumptions/75.md; the cause of SAFE notes/assumptions/72.md, the internal scan notes/assumptions/28.md, and that a tile whose excitation
is enabled refuses a test notes/assumptions/108.md). CLEAR empties the log's counters. INTSCAN is refused while sealed and otherwise zeroes the
secrets and connects the chains with event 0x0A08; DBG_RESET resets; the boundary instructions select their register, the bypass the one bit.
(R422, R455, R456, R464, R469, R468, R470, R473, R475, R476, R477, R498) -/
def Obligations.ModesKilnLogAndTap : Prop :=
  ∀ (s : State) (r : Req) (v : Word) (vh cause : BitVec 16) (n : BitVec 7) (nk : Bool) (ok bad : Bool) (us : Nat) (pat : BitVec 24) (map : BitVec 18) (b : Batch) (i k : Nat) (x y : BitVec 1472),
    let owns := s.takes r R.MODE ∧ s.notOwner r = false
    let kind := bits v.toNat 27 24
    let j := bits v.toNat 7 0
    let ended := fun (power : Bool) => segEnded (segBudget power (s.f F.KILN_STAT_SEG)) (Config.kilnExp (s.f F.KILN_STAT_SEG)).toNat us pat.toNat
    let tapOn := s.aon = true ∧ s.rstLow = false ∧ s.scan = false
    (owns → s.mode = 2 → exec (.modeAcquire r) s = .next ((s.toAcquire (reqCode r)).fin .ok)) ∧
    (owns → s.mode = 3 → exec (.modeHold r) s = .next (((s.leaveAcquire.modeTo 2 (reqCode r)).drain).fin .ok)) ∧
    (owns → s.mode = 2 ∨ s.mode = 3 → exec (.modeSafe r) s = .next ((s.toSafe (reqCode r) 0).fin .ok)) ∧
    (owns → s.mode = 2 ∨ s.mode = 5 → s.kilnTest = none → exec (.modeDormant r nk true) s = .next ((s.toDormant (reqCode r) nk).fin .ok)) ∧
    (owns → s.mode = 3 → exec (.modeDormant r nk true) s = .next (s.fin .mode)) ∧
    (s.takes .manager R.MODE → s.notOwner .manager = false → s.mode = 0 → s.mainGood = true → exec (.modeBringup .manager) s = .next (({ s.modeTo 1 (reqCode .manager) with rel := 2, relWake := true } : State).csWake.fin .ok)) ∧
    (s.takes .manager R.MODE → s.notOwner .manager = false → s.mode = 0 → s.mainGood = false → exec (.modeBringup .manager) s = .next (s.fin .busy)) ∧
    (s.alive = true → exec (.safeEntry cause) s = .next (s.faultSafe cause.toNat)) ∧
    (s.alive = true → s.kilnTest = some (k, i) → k ≠ 8 → exec (.segmentEnd ⟨us, ok⟩ bad pat map) s = .next (if ended false then s.testNext k ok bad pat.toNat map.toNat else s)) ∧
    (s.alive = true → s.kilnTest = none → s.f F.KILN_STAT_STATE = 1 → s.kilnEnd = false → exec (.segmentEnd ⟨us, ok⟩ bad pat map) s = .next (if ended false then s.segNext (s.f F.KILN_STAT_SEG) ok bad pat.toNat map.toNat else s)) ∧
    (s.alive = true → s.kilnTest = none → s.f F.KILN_STAT_STATE = 2 → exec (.segmentEnd ⟨us, ok⟩ bad pat map) s = .next (if ended true then s.segNext (s.f F.KILN_STAT_SEG) ok bad pat.toNat map.toNat else s)) ∧
    (s.alive = true → s.kilnTest = some (8, i) → exec (.segmentEnd ⟨us, ok⟩ bad pat map) s = .next (if segEnded 200 4096 us pat.toNat then s.testNext 8 ok bad pat.toNat map.toNat else s)) ∧
    (s.alive = true → s.mode = 4 → s.kilnEnd = true → s.nvBusy = false → (s.nvCheck 2 9 vh.toNat).2 = true →
      let z := (s.nvCheck 2 9 vh.toNat).1
      exec (.kilnDone vh) s = .next { z.setF F.NV_STAT_BUSY 1 with nv := some ⟨4, nvKiln, nvRows 9 (z.newRecord.flatMap (natBE 4))⟩ }) ∧
    (s.alive = true → s.mode = 4 → s.kilnEnd = true → s.nvBusy = false → (s.nvCheck 2 9 vh.toNat).2 = false → exec (.kilnDone vh) s = .next (s.nvCheck 2 9 vh.toNat).1.kilnOver) ∧
    (s.alive = true → s.nv = some b → b.writer = 4 → s.owed = none →
      let w := ({ s.writeRows b b.rows.length with nv := none } : State).setF F.NV_STAT_BUSY 0
      w.mode = 4 → w.kilnEnd = true → exec .nvBatchDone s = .next w.kilnOver.nextSave) ∧
    (s.takes r R.KILN_CTL → wbit v 31 = true → s.live = true → kindCount kind = some k → j < k → s.kilnTest = none → kind ≠ 9 → kind ≠ 1 → s.blockIdle kind j = true →
      exec (.kilnGo r v) s = .next (({ (s.setF F.KILN_STAT_STATE 3).setF F.KILN_STAT_SEG (kindSeg kind j) with kilnTest := some (kind, j) } : State).keepView.fin .ok)) ∧
    (s.takes r R.KILN_CTL → wbit v 31 = true → s.live = false → exec (.kilnGo r v) s = .next (s.fin .mode)) ∧
    (s.takes r R.LOG_CTL → wbit v 0 = true → exec (.logClear r v) s = .next (((s.setW R.LOG_COUNT 0).setW R.LOG_OVWR 0).fin .ok)) ∧
    (s.alive = true → s.b F.CS_STAT_SEALED = true → exec .intscan s = .next (({ s with tap := 0xFF } : State).raiseBit R.KILN_EVT 6 0x0A07 0 0)) ∧
    (s.alive = true → s.b F.CS_STAT_SEALED = false → exec .intscan s = .next { (s.setF F.SCAN_STAT_ZEROISED 1).raiseBit R.KILN_EVT 7 0x0A08 0 0 with tap := 0x20, scan := true, secret := List.replicate s.secret.length 0 }) ∧
    (s.aon = true → s.rstLow = false → exec (.dbgReset n) s = .next ((({ s with tap := 0x10 } : State).cutBatch n.toNat).hubReset 5)) ∧
    (tapOn → exec (.extest x y) s = .next { s with tap := 0x00, bsrIn := x, bsrOut := y }) ∧
    (tapOn → exec (.samplePreload x y) s = .next { s with tap := 0x01, bsrIn := x, bsrOut := y }) ∧
    (tapOn → exec .idcode s = .next { s with tap := 0x02 }) ∧
    (tapOn → exec .clamp s = .next { s with tap := 0x03 }) ∧
    (tapOn → exec .highz s = .next { s with tap := 0x04 }) ∧
    (tapOn → exec (.extestPulse x y) s = .next { s with tap := 0x05, bsrIn := x, bsrOut := y }) ∧
    (tapOn → exec (.extestTrain x y) s = .next { s with tap := 0x06, bsrIn := x, bsrOut := y }) ∧
    (tapOn → exec .bypass s = .next { s with tap := 0xFF })

end
end

