-- ==== Sys2Proof/Laws/Tab.lean ====
section
/-!
SUPPORT. The laws of the sparse table: a read after a write, and that every operation on it keeps the canonical form.
-/

namespace Sys2Proof.Machine

variable {α : Type}

theorem Tab.get_del_same (d : Nat → α) (m : Tab α) (k : Nat) : Tab.get d (Tab.del m k) k = d k := by
  induction m with
  | nil => rfl
  | cons p r ih =>
    obtain ⟨a, v⟩ := p
    unfold Tab.del
    split
    · exact ih
    · simp [Tab.get, *]

theorem Tab.get_del_other (d : Nat → α) (m : Tab α) (k j : Nat) (h : j ≠ k) : Tab.get d (Tab.del m k) j = Tab.get d m j := by
  induction m with
  | nil => rfl
  | cons p r ih =>
    obtain ⟨a, v⟩ := p
    unfold Tab.del
    split
    · next e => subst e; simp [Tab.get, ih, Ne.symm h]
    · simp [Tab.get, ih]

theorem Tab.get_ins_same (d : Nat → α) (m : Tab α) (k : Nat) (v : α) : Tab.get d (Tab.ins m k v) k = v := by
  induction m with
  | nil => simp [Tab.ins, Tab.get]
  | cons p r ih =>
    obtain ⟨a, w⟩ := p
    unfold Tab.ins
    split
    · simp [Tab.get]
    · split
      · simp [Tab.get]
      · next h => simp [Tab.get, ih, Ne.symm h]

theorem Tab.get_ins_other (d : Nat → α) (m : Tab α) (k j : Nat) (v : α) (h : j ≠ k) : Tab.get d (Tab.ins m k v) j = Tab.get d m j := by
  induction m with
  | nil => simp [Tab.ins, Tab.get, Ne.symm h]
  | cons p r ih =>
    obtain ⟨a, w⟩ := p
    unfold Tab.ins
    split
    · simp [Tab.get, Ne.symm h]
    · split
      · next e => subst e; simp [Tab.get, Ne.symm h]
      · simp [Tab.get, ih]

/-- A read after a write of the same key gives the value written. -/
@[simp] theorem Tab.get_set_same [DecidableEq α] (d : Nat → α) (m : Tab α) (k : Nat) (v : α) : Tab.get d (Tab.set d m k v) k = v := by
  unfold Tab.set
  split
  · next h => rw [Tab.get_del_same, h]
  · exact Tab.get_ins_same d m k v

/-- A write leaves every other key alone. -/
theorem Tab.get_set_other [DecidableEq α] (d : Nat → α) (m : Tab α) (k j : Nat) (v : α) (h : j ≠ k) :
    Tab.get d (Tab.set d m k v) j = Tab.get d m j := by
  unfold Tab.set
  split
  · exact Tab.get_del_other d m k j h
  · exact Tab.get_ins_other d m k j v h

/-! ### The canonical form -/

theorem Tab.wfFrom_mono [DecidableEq α] (d : Nat → α) (m : Tab α) (n k : Nat) (h : k ≤ n) (w : Tab.wfFrom d n m = true) :
    Tab.wfFrom d k m = true := by
  cases m with
  | nil => rfl
  | cons p r =>
    obtain ⟨a, v⟩ := p
    simp only [Tab.wfFrom, Bool.and_eq_true, decide_eq_true_eq] at w ⊢
    exact ⟨⟨le_trans h w.1.1, w.1.2⟩, w.2⟩

theorem Tab.wfFrom_del [DecidableEq α] (d : Nat → α) (m : Tab α) (k n : Nat) (w : Tab.wfFrom d n m = true) :
    Tab.wfFrom d n (Tab.del m k) = true := by
  induction m generalizing n with
  | nil => rfl
  | cons p r ih =>
    obtain ⟨a, v⟩ := p
    simp only [Tab.wfFrom, Bool.and_eq_true, decide_eq_true_eq] at w
    unfold Tab.del
    split
    · exact Tab.wfFrom_mono d _ (a + 1) n (by omega) (ih _ w.2)
    · simp only [Tab.wfFrom, Bool.and_eq_true, decide_eq_true_eq]
      exact ⟨w.1, ih _ w.2⟩

theorem Tab.wfFrom_ins [DecidableEq α] (d : Nat → α) (m : Tab α) (k n : Nat) (v : α) (hk : n ≤ k) (hv : v ≠ d k)
    (w : Tab.wfFrom d n m = true) : Tab.wfFrom d n (Tab.ins m k v) = true := by
  induction m generalizing n with
  | nil => simp [Tab.ins, Tab.wfFrom, hk, hv]
  | cons p r ih =>
    obtain ⟨a, x⟩ := p
    simp only [Tab.wfFrom, Bool.and_eq_true, decide_eq_true_eq] at w
    unfold Tab.ins
    split
    · simp only [Tab.wfFrom, Bool.and_eq_true, decide_eq_true_eq]
      exact ⟨⟨hk, hv⟩, ⟨by omega, w.1.2⟩, w.2⟩
    · split
      · next e =>
        subst e
        simp only [Tab.wfFrom, Bool.and_eq_true, decide_eq_true_eq]
        exact ⟨⟨hk, hv⟩, w.2⟩
      · simp only [Tab.wfFrom, Bool.and_eq_true, decide_eq_true_eq]
        exact ⟨w.1, ih (a + 1) (by omega) w.2⟩

/-- A write keeps the canonical form. -/
theorem Tab.wf_set [DecidableEq α] (d : Nat → α) (m : Tab α) (k : Nat) (v : α) (w : Tab.wf d m = true) : Tab.wf d (Tab.set d m k v) = true := by
  unfold Tab.set
  split
  · exact Tab.wfFrom_del d m k 0 w
  · next h => exact Tab.wfFrom_ins d m k 0 v (Nat.zero_le k) h w

theorem Tab.wfFrom_filter [DecidableEq α] (d : Nat → α) (f : Nat × α → Bool) (m : Tab α) (n : Nat) (w : Tab.wfFrom d n m = true) :
    Tab.wfFrom d n (m.filter f) = true := by
  induction m generalizing n with
  | nil => rfl
  | cons p r ih =>
    obtain ⟨a, v⟩ := p
    simp only [Tab.wfFrom, Bool.and_eq_true, decide_eq_true_eq] at w
    rw [List.filter_cons]
    split
    · simp only [Tab.wfFrom, Bool.and_eq_true, decide_eq_true_eq]
      exact ⟨w.1, ih _ w.2⟩
    · exact Tab.wfFrom_mono d _ (a + 1) n (by omega) (ih _ w.2)

/-- Dropping entries keeps the canonical form. -/
theorem Tab.wf_filter [DecidableEq α] (d : Nat → α) (f : Nat × α → Bool) (m : Tab α) (w : Tab.wf d m = true) : Tab.wf d (m.filter f) = true :=
  Tab.wfFrom_filter d f m 0 w

end Sys2Proof.Machine
end

