-- ==== Sys2Proof/Laws/Keeps.lean ====
section
/-!
SUPPORT. What every operation of the hub keeps: the queue of waiting commands as it stands, and the canonical form of the tables. One lemma
for each operation says so; the lemmas of the operations that call it cite it.
-/

namespace Sys2Proof.Machine

/-- `t` has the queue of `b`, and its tables are canonical where those of `b` are. -/
structure Keeps (b t : State) : Prop where
  queue : t.pending = b.pending
  canon : b.Canon → t.Canon

theorem Keeps.refl (b : State) : Keeps b b := ⟨rfl, id⟩

theorem Keeps.trans {a b c : State} (h : Keeps a b) (k : Keeps b c) : Keeps a c := ⟨k.1.trans h.1, fun w => k.2 (h.2 w)⟩

/-- A state with the same queue, registers, memories and shadows. -/
theorem Keeps.same {b s t : State} (h : Keeps b s) (hq : t.pending = s.pending) (hr : t.regs = s.regs) (hm : t.mem = s.mem)
    (hn : t.nvm = s.nvm) (hs : t.shadows = s.shadows) : Keeps b t := by
  refine ⟨hq.trans h.1, fun w => ?_⟩
  have k := h.2 w
  unfold State.Canon State.regsWf State.memWf at k ⊢
  rw [hr, hm, hn, hs]
  exact k

/-- A record update of other fields. -/
theorem keeps_mk {b s : State} (h : Keeps b s) (bad : List Nat) (cpl : Cpl) (free : Nat) (aon : Bool) (pgood : Bool) (brown : Nat) (vbat :
    Bool) (rstLow : Bool) (scan : Bool) (st : Nat) (cyc : Nat) (rtc : Nat) (evtq : List EvtHod) (evtDropped : Nat) (kilnTest : Option (Nat ×
    Nat)) (snap : Tab Word) (tiles : Tab Tile) (paths : Tab Path) (detsH : Tab Det) (tus : Tab Tu) (tgs : Tab Tg) (strs : Tab Str) (packs : Tab
    (List Open)) (handed : List Handed) (rings : Tab Ring) (runs : Tab (Option GRun)) (kept : List (Nat × Rec)) (lossy : List Nat) (draining :
    Bool) (resumed : List (Nat × Nat)) (masons : Tab Mason) (pqs : Tab Pq) (hputs : List (Nat × Option Nat)) (grids : Tab Grid) (smpl : Smpl)
    (pps : Pps) (servo : Servo) (xchg : Tab Xchg) (tsq : Tab (List (Bool × Nat × Nat))) (rtcPhase : Nat) (rtcLoad : Option Nat) (pulses : Tab
    (Option Nat)) (lanes : Tab Lane) (ports : Tab Port) (prbs : Tab Prbs) (rel : Nat) (relWake : Bool) (safeNext : Option Nat) (nv : Option
    Batch) (owed : Option Nat) (csPend : Option CsPend) (csWait : Bool) (enDue : Option Nat) (csDig : Tab (List Byte)) (csStop : Bool) (secret :
    List Byte) (meters : Tab Meter) (prog : Option Prog) (mgp : Mgp) (hk : Hk) (bootSha : List Byte) (recMaps : Tab Nat) (kilnWords : List Nat)
    (tap : Nat) (bsrIn : BitVec 1472) (bsrOut : BitVec 1472) (kilnEnd : Bool) :
    Keeps b ⟨s.regs, s.mem, s.nvm, bad, s.shadows, cpl, s.pending, free, aon, pgood, brown, vbat, rstLow, scan, st, cyc, rtc, evtq,
    evtDropped, kilnTest, snap, tiles, paths, detsH, tus, tgs, strs, packs, handed, rings, runs, kept, lossy, draining, resumed, masons,
    pqs, hputs, grids, smpl, pps, servo, xchg, tsq, rtcPhase, rtcLoad, pulses, lanes, ports, prbs, rel, relWake, safeNext, nv, owed, csPend,
    csWait, enDue, csDig, csStop, secret, meters, prog, mgp, hk, bootSha, recMaps, kilnWords, tap, bsrIn, bsrOut, kilnEnd⟩ :=
  Keeps.same h rfl rfl rfl rfl rfl

theorem Keeps.of_fst {β : Type} {b t : State} {y : β} {x : State × β} (e : x = (t, y)) (k : Keeps b x.1) : Keeps b t := by
  subst e
  exact k

theorem keeps_ite {b s t : State} {c : Prop} [Decidable c] (h : Keeps b s) (k : Keeps b t) : Keeps b (if c then s else t) := by
  split <;> assumption

theorem State.when_keeps {b s : State} (h : Keeps b s) (c : Bool) (f : State → State) (hf : ∀ t, Keeps b t → Keeps b (f t)) :
    Keeps b (s.when c f) := by
  unfold State.when
  split
  · exact hf s h
  · exact h

theorem State.each_keeps {α : Type} {b s : State} (h : Keeps b s) (xs : List α) (f : State → α → State)
    (hf : ∀ t x, Keeps b t → Keeps b (f t x)) : Keeps b (s.each xs f) := by
  unfold State.each
  induction xs generalizing s with
  | nil => exact h
  | cons x r ih => exact ih (hf s x h)

theorem State.setW_keeps {b s : State} (h : Keeps b s) (a : Nat) (v : Word) : Keeps b (s.setW a v) :=
  ⟨h.1, fun w => ⟨Tab.wf_set _ _ _ _ (h.2 w).1, (h.2 w).2⟩⟩

theorem State.setByte_keeps {b s : State} (h : Keeps b s) (a : Nat) (v : Byte) : Keeps b (s.setByte a v) :=
  ⟨h.1, fun w => ⟨(h.2 w).1, ⟨Tab.wf_set _ _ _ _ (h.2 w).2.1.1, (h.2 w).2.1.2⟩, (h.2 w).2.2⟩⟩

theorem State.setShadow_keeps {b s : State} (h : Keeps b s) (r : Req) (a : Nat) (v : Word) : Keeps b (s.setShadow r a v) :=
  ⟨h.1, fun w => ⟨(h.2 w).1, (h.2 w).2.1, Tab.wf_set _ _ _ _ (h.2 w).2.2⟩⟩

theorem State.setNvBytes_keeps {b s : State} (h : Keeps b s) (a : Nat) (xs : List Byte) : Keeps b (s.setNvBytes a xs) := by
  induction xs generalizing s a with
  | nil => exact h
  | cons x r ih =>
    exact ih (s := { s with nvm := cellSet 0xFF s.nvm a x })
      ⟨h.1, fun w => ⟨(h.2 w).1, ⟨(h.2 w).2.1.1, Tab.wf_set _ _ _ _ (h.2 w).2.1.2⟩, (h.2 w).2.2⟩⟩ _

theorem State.dropRegs_keeps {b s : State} (h : Keeps b s) (p : Nat → Bool) : Keeps b (s.dropRegs p) :=
  ⟨h.1, fun w => ⟨Tab.wf_filter _ _ _ (h.2 w).1, (h.2 w).2⟩⟩

theorem State.dropMem_keeps {b s : State} (h : Keeps b s) (a n : Nat) : Keeps b (s.dropMem a n) :=
  ⟨h.1, fun w => ⟨(h.2 w).1, ⟨Tab.wf_filter _ _ _ (h.2 w).2.1.1, (h.2 w).2.1.2⟩, (h.2 w).2.2⟩⟩

/-- A command that only a running hub takes answers a next state, and keeps what its effect keeps. -/
theorem act_keeps (f : State → State) (s : State) (hf : ∀ t, Keeps s t → Keeps s (f t)) : ∃ t, act f s = .next t ∧ Keeps s t := by
  unfold act
  refine ⟨_, rfl, ?_⟩
  split
  · exact hf s (Keeps.refl s)
  · exact Keeps.refl s

end Sys2Proof.Machine
end

