-- ==== Sys2Proof/Laws/Operations.lean ====
section
/-!
SUPPORT. What each shared operation keeps: the queue as it stands and the canonical form of the tables. `foo_keeps` is about the operation `foo`.
-/

namespace Sys2Proof.Machine

theorem State.setPath_keeps {b s : State} (h : Keeps b s) (k : ℕ) (a2 : Path) : Keeps b (State.setPath s k a2) := by
  unfold State.setPath
  try dsimp only
  repeat' with_reducible first | assumption | apply keeps_mk

theorem State.setTile_keeps {b s : State} (h : Keeps b s) (t : ℕ) (a2 : Tile) : Keeps b (State.setTile s t a2) := by
  unfold State.setTile
  try dsimp only
  repeat' with_reducible first | assumption | apply keeps_mk

theorem State.setBit_keeps {b s : State} (h : Keeps b s) (a : ℕ) (i : ℕ) : Keeps b (State.setBit s a i) := by
  unfold State.setBit
  try dsimp only
  repeat' with_reducible first | assumption | apply State.setW_keeps

theorem State.setWs_keeps {b s : State} (h : Keeps b s) (a : Nat) (l : List Word) : Keeps b (s.setWs a l) := by
  induction l generalizing s a with
  | nil => exact h
  | cons v r ih => exact ih (State.setW_keeps h a v) _

theorem State.setF_keeps {b s : State} (h : Keeps b s) (a1 : Fld) (v : ℕ) : Keeps b (State.setF s a1 v) := by
  unfold State.setF
  try dsimp only
  repeat' with_reducible first | assumption | apply State.setW_keeps

theorem State.bumpW_keeps {b s : State} (h : Keeps b s) (a : ℕ) (n : ℕ) : Keeps b (State.bumpW s a n) := by
  unfold State.bumpW
  try dsimp only
  repeat' with_reducible first | assumption | apply State.setW_keeps

theorem State.logEntry_keeps {b s : State} (h : Keeps b s) (code : ℕ) (src : ℕ) (detail : ℕ) : Keeps b (State.logEntry s code src detail) := by
  unfold State.logEntry
  try dsimp only
  repeat' with_reducible first
    | assumption | apply State.setWs_keeps | apply State.setF_keeps | apply State.bumpW_keeps | apply State.setW_keeps | apply keeps_ite | split
    | apply keeps_mk

theorem State.raise1_keeps {b s : State} (h : Keeps b s) (code : ℕ) (src : ℕ) (detail : ℕ) : Keeps b (State.raise1 s code src detail) := by
  unfold State.raise1
  try dsimp only
  repeat' with_reducible first
    | assumption | apply State.setBit_keeps | apply State.logEntry_keeps | apply State.bumpW_keeps | apply keeps_ite | split | apply keeps_mk

theorem State.raise_keeps {b s : State} (h : Keeps b s) (code : ℕ) (src : ℕ) (detail : ℕ) : Keeps b (State.raise s code src detail) := by
  unfold State.raise
  try dsimp only
  repeat' with_reducible first | assumption | apply State.raise1_keeps | apply State.setBit_keeps | apply keeps_ite

theorem State.setStr_keeps {b s : State} (h : Keeps b s) (k : ℕ) (a2 : Str) : Keeps b (State.setStr s k a2) := by
  unfold State.setStr
  try dsimp only
  repeat' with_reducible first | assumption | apply keeps_mk

theorem State.clrBit_keeps {b s : State} (h : Keeps b s) (a : ℕ) (i : ℕ) : Keeps b (State.clrBit s a i) := by
  unfold State.clrBit
  try dsimp only
  repeat' with_reducible first | assumption | apply State.setW_keeps

theorem State.setDet_keeps {b s : State} (h : Keeps b s) (k : ℕ) (a2 : Det) : Keeps b (State.setDet s k a2) := by
  unfold State.setDet
  try dsimp only
  repeat' with_reducible first | assumption | apply keeps_mk

theorem State.finData_keeps {b s : State} (h : Keeps b s) (d : List Word) : Keeps b (State.finData s d) := by
  unfold State.finData
  try dsimp only
  repeat' with_reducible first | assumption | apply keeps_mk

theorem State.setGrid_keeps {b s : State} (h : Keeps b s) (g : ℕ) (a2 : Grid) : Keeps b (State.setGrid s g a2) := by
  unfold State.setGrid
  try dsimp only
  repeat' with_reducible first | assumption | apply keeps_mk

theorem State.setRun_keeps {b s : State} (h : Keeps b s) (k : ℕ) (a2 : Option GRun) : Keeps b (State.setRun s k a2) := by
  unfold State.setRun
  try dsimp only
  repeat' with_reducible first | assumption | apply keeps_mk

theorem State.setTu_keeps {b s : State} (h : Keeps b s) (k : ℕ) (a2 : Tu) : Keeps b (State.setTu s k a2) := by
  unfold State.setTu
  try dsimp only
  repeat' with_reducible first | assumption | apply keeps_mk

theorem State.setBytes_keeps {b s : State} (h : Keeps b s) (a : Nat) (l : List Byte) : Keeps b (s.setBytes a l) := by
  induction l generalizing s a with
  | nil => exact h
  | cons v r ih => exact ih (State.setByte_keeps h a v) _

theorem State.setWordLE_keeps {b s : State} (h : Keeps b s) (a : ℕ) (v : Word) : Keeps b (State.setWordLE s a v) := by
  unfold State.setWordLE
  try dsimp only
  repeat' with_reducible first | assumption | apply State.setBytes_keeps

theorem State.raiseBit_keeps {b s : State} (h : Keeps b s) (a : ℕ) (i : ℕ) (code : ℕ) (src : ℕ) (detail : ℕ) : Keeps b (State.raiseBit s a i code
    src detail) := by
  unfold State.raiseBit
  try dsimp only
  repeat' with_reducible first | assumption | apply State.raise_keeps | apply State.setBit_keeps

theorem State.setTg_keeps {b s : State} (h : Keeps b s) (k : ℕ) (a2 : Tg) : Keeps b (State.setTg s k a2) := by
  unfold State.setTg
  try dsimp only
  repeat' with_reducible first | assumption | apply keeps_mk

theorem State.bump_keeps {b s : State} (h : Keeps b s) (a1 : Fld) (n : ℕ) : Keeps b (State.bump s a1 n) := by
  unfold State.bump
  try dsimp only
  repeat' with_reducible first | assumption | apply State.setF_keeps

theorem State.setPack_keeps {b s : State} (h : Keeps b s) (k : ℕ) (a2 : List Open) : Keeps b (State.setPack s k a2) := by
  unfold State.setPack
  try dsimp only
  repeat' with_reducible first | assumption | apply keeps_mk

theorem State.setTwo_keeps {b s : State} (h : Keeps b s) (a : ℕ) (n : ℕ) : Keeps b (State.setTwo s a n) := by
  unfold State.setTwo
  try dsimp only
  repeat' with_reducible first | assumption | apply State.setW_keeps

theorem State.fin_keeps {b s : State} (h : Keeps b s) (c : Status) : Keeps b (State.fin s c) := by
  unfold State.fin
  try dsimp only
  repeat' with_reducible first | assumption | apply keeps_mk

theorem State.setPq_keeps {b s : State} (h : Keeps b s) (k : ℕ) (a2 : Pq) : Keeps b (State.setPq s k a2) := by
  unfold State.setPq
  try dsimp only
  repeat' with_reducible first | assumption | apply keeps_mk

theorem State.setRing_keeps {b s : State} (h : Keeps b s) (k : ℕ) (a2 : Ring) : Keeps b (State.setRing s k a2) := by
  unfold State.setRing
  try dsimp only
  repeat' with_reducible first | assumption | apply keeps_mk

theorem State.setShadows_keeps {b s : State} (h : Keeps b s) (r : Req) (a : Nat) (l : List Word) : Keeps b (s.setShadows r a l) := by
  induction l generalizing s a with
  | nil => exact h
  | cons v l ih => exact ih (State.setShadow_keeps h r a v) _

theorem regWrite_keeps {b s : State} (h : Keeps b s) (r : Req) (a : Nat) (locked : State → Bool) (eff : State → State)
    (heff : ∀ t, Keeps b t → Keeps b (eff t)) : Keeps b (regWrite r a locked eff s) := by
  unfold regWrite
  split
  · exact State.fin_keeps h _
  · split
    · exact State.fin_keeps h _
    · split
      · exact State.fin_keeps h _
      · exact heff s h

theorem State.setMason_keeps {b s : State} (h : Keeps b s) (k : ℕ) (a2 : Mason) : Keeps b (State.setMason s k a2) := by
  unfold State.setMason
  try dsimp only
  repeat' with_reducible first | assumption | apply keeps_mk

theorem State.setLane_keeps {b s : State} (h : Keeps b s) (n : ℕ) (a2 : Lane) : Keeps b (State.setLane s n a2) := by
  unfold State.setLane
  try dsimp only
  repeat' with_reducible first | assumption | apply keeps_mk

theorem State.setPrbs_keeps {b s : State} (h : Keeps b s) (q : ℕ) (a2 : Prbs) : Keeps b (State.setPrbs s q a2) := by
  unfold State.setPrbs
  try dsimp only
  repeat' with_reducible first | assumption | apply keeps_mk

theorem State.checkBits_keeps {b s : State} (h : Keeps b s) (q : ℕ) (bs : List Bool) : Keeps b (State.checkBits s q bs) := by
  unfold State.checkBits
  try dsimp only
  repeat' with_reducible first
    | assumption | intro _ | apply State.setF_keeps | apply State.setPrbs_keeps | apply State.bumpW_keeps | apply State.when_keeps
    | apply State.setTwo_keeps | apply keeps_ite

theorem State.countBad_keeps {b s : State} (h : Keeps b s) (n : ℕ) (ys : List Sym) : Keeps b (State.countBad s n ys) := by
  unfold State.countBad
  try dsimp only
  repeat' with_reducible first | assumption | apply State.setF_keeps | apply State.bump_keeps | apply keeps_ite

theorem State.hearSelf_keeps {b s : State} (h : Keeps b s) (n : ℕ) (gs : List (BitVec 10)) : Keeps b (State.hearSelf s n gs) := by
  unfold State.hearSelf
  try dsimp only
  repeat' with_reducible first | assumption | apply State.countBad_keeps | apply State.setLane_keeps

theorem State.putPrbs_keeps {b s : State} (h : Keeps b s) (q : Nat) (x : Prbs) (bs : List Bool) : Keeps b (State.putPrbs q s x bs) := by
  unfold State.putPrbs
  dsimp only
  refine State.when_keeps (State.when_keeps (State.when_keeps (State.setPrbs_keeps h ..) _ _ ?_) _ _ ?_) _ _ ?_
  · exact fun t k => State.setLane_keeps k ..
  · exact fun t k => State.setF_keeps k ..
  · exact fun t k => State.checkBits_keeps (State.hearSelf_keeps k ..) ..

theorem State.prbsWord_keeps {b s : State} (h : Keeps b s) (q : Nat) : Keeps b (State.prbsWord q s) := State.putPrbs_keeps h ..

theorem State.prbsWords_keeps {b s : State} (h : Keeps b s) (q n : Nat) : Keeps b (State.prbsWords q n s) := by
  induction n generalizing s with
  | zero => exact h
  | succ n ih => exact ih (State.prbsWord_keeps h q)

theorem State.passPrbs_keeps {b s : State} (h : Keeps b s) (n : ℕ) (q : ℕ) : Keeps b (State.passPrbs n s q) := by
  unfold State.passPrbs
  try dsimp only
  repeat' with_reducible first | assumption | apply State.prbsWords_keeps | apply State.setPrbs_keeps | apply keeps_ite

theorem State.passHput_keeps {b s : State} (h : Keeps b s) (n : ℕ) : Keeps b (State.passHput n s) := by
  unfold State.passHput
  try dsimp only
  repeat' with_reducible first | assumption | apply keeps_mk

theorem State.passMason_keeps {b s : State} (h : Keeps b s) (n : ℕ) (m : ℕ) : Keeps b (State.passMason n s m) := by
  unfold State.passMason
  try dsimp only
  repeat' with_reducible first | assumption | intro _ | apply State.when_keeps | apply State.setTwo_keeps

theorem State.passSys_keeps {b s : State} (h : Keeps b s) (n : ℕ) : Keeps b (State.passSys n s) := by
  unfold State.passSys
  try dsimp only
  repeat' with_reducible first
    | assumption | intro _ | apply State.passHput_keeps | apply State.each_keeps | apply State.passMason_keeps | apply State.passPrbs_keeps
    | apply keeps_mk

theorem State.aonTicks_keeps {b s : State} (h : Keeps b s) (k : ℕ) : Keeps b (State.aonTicks s k) := by
  unfold State.aonTicks
  try dsimp only
  repeat' with_reducible first | assumption | apply State.setF_keeps | split | apply keeps_mk

theorem State.passRtc_keeps {b s : State} (h : Keeps b s) (n : ℕ) : Keeps b (State.passRtc s n) := by
  unfold State.passRtc
  try dsimp only
  repeat' with_reducible first | assumption | apply State.aonTicks_keeps | apply keeps_ite | split | apply keeps_mk

theorem State.pass_keeps {b s : State} (h : Keeps b s) (n : ℕ) : Keeps b (State.pass n s) := by
  unfold State.pass
  try dsimp only
  repeat' with_reducible first | assumption | apply State.passSys_keeps | apply State.passRtc_keeps | apply keeps_ite

theorem State.passTo_keeps {b s : State} (h : Keeps b s) (c : ℕ) : Keeps b (State.passTo s c) := by
  unfold State.passTo
  try dsimp only
  repeat' with_reducible first | assumption | apply State.pass_keeps

theorem State.reach_keeps {b s : State} (h : Keeps b s) (t : ℕ) : Keeps b (State.reach s t) := by
  unfold State.reach
  try dsimp only
  repeat' with_reducible first | assumption | apply State.pass_keeps

theorem State.measureHold_keeps {b s : State} (h : Keeps b s) (v : ℕ) : Keeps b (State.measureHold s v) := by
  unfold State.measureHold
  try dsimp only
  repeat' with_reducible first | assumption | apply State.setF_keeps

theorem State.writeRows_keeps {b s : State} (h : Keeps b s) (a1 : Batch) (n : ℕ) : Keeps b (State.writeRows s a1 n) := by
  unfold State.writeRows
  try dsimp only
  repeat' with_reducible first | assumption | apply State.setNvBytes_keeps

theorem State.nvCheck_keeps {b s : State} (h : Keeps b s) (writer : ℕ) (rows : ℕ) (v : ℕ) : Keeps b (State.nvCheck s writer rows v).1 := by
  unfold State.nvCheck
  try dsimp only
  repeat' with_reducible first | assumption | apply State.measureHold_keeps | apply State.raiseBit_keeps | split

theorem State.draw_keeps {b s : State} (h : Keeps b s) (w : ℕ) : Keeps b (State.draw s w).1 := by
  unfold State.draw
  try dsimp only
  repeat' with_reducible first | assumption | apply keeps_mk

theorem State.begin_keeps {b s : State} (h : Keeps b s) (writer : ℕ) (addr : ℕ) (rows : List (List Byte)) : Keeps b (State.begin s writer addr
    rows) := by
  unfold State.begin
  try dsimp only
  repeat' with_reducible first | assumption | apply State.setF_keeps | apply keeps_mk

theorem State.dropOpen_keeps {b s : State} (h : Keeps b s) (k : ℕ) (sid : ℕ) : Keeps b (State.dropOpen s k sid) := by
  unfold State.dropOpen
  try dsimp only
  repeat' with_reducible first | assumption | apply State.setPack_keeps

theorem State.handOnAs_keeps {b s : State} (h : Keeps b s) (k : ℕ) (sid : ℕ) (cut : Bool) : Keeps b (State.handOnAs s k sid cut) := by
  unfold State.handOnAs
  try dsimp only
  repeat' with_reducible first | assumption | apply State.dropOpen_keeps | apply keeps_ite | split | apply keeps_mk

theorem State.handOnRaw_keeps {b s : State} (h : Keeps b s) (k : ℕ) (sid : ℕ) : Keeps b (State.handOnRaw s k sid) := by
  unfold State.handOnRaw
  try dsimp only
  repeat' with_reducible first | assumption | apply State.handOnAs_keeps

theorem State.putOpen_keeps {b s : State} (h : Keeps b s) (k : ℕ) (a2 : Open) : Keeps b (State.putOpen s k a2) := by
  unfold State.putOpen
  try dsimp only
  repeat' with_reducible first | assumption | apply State.setPack_keeps

theorem State.fillHod_keeps {b s : State} (h : Keeps b s) (k : ℕ) (sid : ℕ) : Keeps b (State.fillHod s k sid) := by
  unfold State.fillHod
  try dsimp only
  repeat' with_reducible first
    | assumption | apply State.setStr_keeps | apply State.putOpen_keeps | apply State.setTwo_keeps | apply keeps_ite | split

theorem State.openHod_keeps {b s : State} (h : Keeps b s) (k : ℕ) (sid : ℕ) (course : ℕ) : Keeps b (State.openHod s k sid course) := by
  unfold State.openHod
  try dsimp only
  repeat' with_reducible first
    | assumption | apply State.handOnRaw_keeps | apply State.fillHod_keeps | apply State.bump_keeps | apply State.setPack_keeps | apply keeps_ite

theorem State.startCur_keeps {b s : State} (h : Keeps b s) (sid : ℕ) (v : Cur) : Keeps b (State.startCur s sid v) := by
  unfold State.startCur
  try dsimp only
  repeat' with_reducible first
    | assumption | apply State.setStr_keeps | apply State.handOnRaw_keeps | apply State.openHod_keeps | apply keeps_ite

theorem State.firstRec_keeps {b s : State} (h : Keeps b s) (k : ℕ) (sid : ℕ) (mk : Bool → Rec) (first : ℕ) (values : ℕ) (dec : ℕ) : Keeps b
    (State.firstRec s k sid mk first values dec) := by
  unfold State.firstRec
  try dsimp only
  repeat' with_reducible first
    | assumption | apply State.putOpen_keeps | apply State.handOnAs_keeps | apply State.bumpW_keeps | apply keeps_ite | split

theorem State.addRec_keeps {b s : State} (h : Keeps b s) (sid : ℕ) (mk : Bool → Rec) (first : ℕ) (values : ℕ) (dec : ℕ) : Keeps b (State.addRec s
    sid mk first values dec) := by
  unfold State.addRec
  try dsimp only
  repeat' with_reducible first
    | assumption | intro _ | apply State.firstRec_keeps | apply State.openHod_keeps | apply State.putOpen_keeps | apply State.handOnRaw_keeps
    | apply State.bumpW_keeps | apply keeps_ite | split

theorem State.closeCur_keeps {b s : State} (h : Keeps b s) (sid : ℕ) : Keeps b (State.closeCur s sid) := by
  unfold State.closeCur
  try dsimp only
  repeat' with_reducible first | assumption | intro _ | apply State.addRec_keeps | apply State.setStr_keeps | split

theorem State.putValue_keeps {b s : State} (h : Keeps b s) (sid : ℕ) (v : Cur) : Keeps b (State.putValue s sid v) := by
  unfold State.putValue
  try dsimp only
  repeat' with_reducible first
    | assumption | intro _ | apply State.startCur_keeps | apply State.when_keeps | apply State.setStr_keeps | apply State.closeCur_keeps
    | apply State.handOnRaw_keeps | apply keeps_ite | split

theorem State.closeMute_keeps {b s : State} (h : Keeps b s) (sid : ℕ) : Keeps b (State.closeMute s sid) := by
  unfold State.closeMute
  try dsimp only
  repeat' with_reducible first | assumption | intro _ | apply State.addRec_keeps | apply State.setStr_keeps | split

theorem State.closeLost_keeps {b s : State} (h : Keeps b s) (sid : ℕ) : Keeps b (State.closeLost s sid) := by
  unfold State.closeLost
  try dsimp only
  repeat' with_reducible first | assumption | intro _ | apply State.addRec_keeps | apply State.setStr_keeps | apply State.setTwo_keeps | split

theorem State.handOn_keeps {b s : State} (h : Keeps b s) (sid : ℕ) : Keeps b (State.handOn s sid) := by
  unfold State.handOn
  try dsimp only
  repeat' with_reducible first | assumption | apply State.closeLost_keeps | apply State.closeCur_keeps | apply State.handOnRaw_keeps

theorem State.flushHod_keeps {b s : State} (h : Keeps b s) (sid : ℕ) : Keeps b (State.flushHod s sid) := by
  unfold State.flushHod
  try dsimp only
  repeat' with_reducible first
    | assumption | apply State.closeLost_keeps | apply State.handOnRaw_keeps | apply State.handOn_keeps | apply keeps_ite

theorem State.ringWrite_keeps {b s : State} (h : Keeps b s) (p off : Nat) (l : List Byte) : Keeps b (s.ringWrite p off l) := by
  induction l generalizing s off with
  | nil => exact h
  | cons v r ih => exact ih (State.setByte_keeps h ..) _

theorem State.watermarks_keeps {b s : State} (h : Keeps b s) (p : ℕ) : Keeps b (State.watermarks s p) := by
  unfold State.watermarks
  try dsimp only
  repeat' with_reducible first | assumption | intro _ | apply State.setF_keeps | apply State.when_keeps | apply State.raiseBit_keeps

theorem State.takeIn_keeps {b s : State} (h : Keeps b s) (p : ℕ) (sid : ℕ) (pressed : Bool) (course : ℕ) (body : List Word) : Keeps b
    (State.takeIn s p sid pressed course body) := by
  unfold State.takeIn
  try dsimp only
  repeat' with_reducible first
    | assumption | apply State.ringWrite_keeps | apply State.setRing_keeps | apply State.setW_keeps | apply State.setTwo_keeps
    | apply State.setF_keeps | apply State.watermarks_keeps | apply keeps_mk

theorem State.enterW3_keeps {b s : State} (h : Keeps b s) (p : ℕ) : Keeps b (State.enterW3 s p) := by
  unfold State.enterW3
  try dsimp only
  repeat' with_reducible first | assumption | apply State.setF_keeps | apply State.raiseBit_keeps | apply keeps_mk

theorem State.writeHods_keeps {b s : State} (h : Keeps b s) (p sid : Nat) (l : List (List Rec)) : Keeps b (s.writeHods p sid l).1 := by
  induction l generalizing s with
  | nil => exact h
  | cons rs more ih =>
    unfold State.writeHods
    dsimp only
    split
    · exact ih (State.setTwo_keeps (State.takeIn_keeps h ..) ..)
    · exact State.enterW3_keeps h p

theorem State.writeReserve_keeps {b s : State} (h : Keeps b s) (p : ℕ) (sid : ℕ) : Keeps b (State.writeReserve s p sid) := by
  unfold State.writeReserve
  try dsimp only
  repeat' with_reducible first
    | assumption | apply State.writeHods_keeps | apply State.setRun_keeps | apply State.setW_keeps | apply State.setF_keeps
    | apply State.raiseBit_keeps | apply State.setStr_keeps | apply keeps_ite | split | refine Keeps.of_fst (by assumption) ?_ | apply keeps_mk

theorem State.dropHanded_keeps {b s : State} (h : Keeps b s) (a1 : Handed) : Keeps b (State.dropHanded s a1) := by
  unfold State.dropHanded
  try dsimp only
  repeat' with_reducible first | assumption | apply State.raiseBit_keeps | apply State.bumpW_keeps

theorem State.dropDrain_keeps {b s : State} (h : Keeps b s)  : Keeps b (State.dropDrain s) := by
  unfold State.dropDrain
  try dsimp only
  repeat' with_reducible first | assumption | intro _ | apply State.each_keeps | apply State.dropHanded_keeps | apply keeps_mk

theorem State.codeHanded_keeps {b s : State} (h : Keeps b s) (e : Nat) (l : List Handed) : Keeps b (s.codeHanded e l).1 := by
  induction l with
  | nil => exact h
  | cons q r ih =>
    unfold State.codeHanded
    dsimp only
    split
    · exact State.when_keeps (State.setTwo_keeps (State.setTwo_keeps h ..) ..) _ _ fun t k => State.bumpW_keeps k ..
    · exact ih

theorem State.blockEnd_keeps {b s : State} (h : Keeps b s) (e : ℕ) : Keeps b (State.blockEnd s e) := by
  unfold State.blockEnd
  try dsimp only
  repeat' with_reducible first | assumption | apply State.codeHanded_keeps | split | refine Keeps.of_fst (by assumption) ?_ | apply keeps_mk

theorem State.drainReserve_keeps {b s : State} (h : Keeps b s)  : Keeps b (State.drainReserve s) := by
  unfold State.drainReserve
  try dsimp only
  repeat' with_reducible first | assumption | intro _ | apply State.each_keeps | apply State.writeReserve_keeps | apply keeps_ite

theorem State.keepRec_keeps {b s : State} (h : Keeps b s) (sid : ℕ) (r : Rec) : Keeps b (State.keepRec s sid r) := by
  unfold State.keepRec
  try dsimp only
  repeat' with_reducible first
    | assumption | intro _ | apply State.setW_keeps | apply State.setF_keeps | apply State.bumpW_keeps | apply State.setRun_keeps
    | apply State.when_keeps | apply State.raiseBit_keeps | apply keeps_ite | split | apply keeps_mk

theorem State.closeRun_keeps {b s : State} (h : Keeps b s) (sid : ℕ) : Keeps b (State.closeRun s sid) := by
  unfold State.closeRun
  try dsimp only
  repeat' with_reducible first | assumption | apply State.keepRec_keeps | apply State.setRun_keeps | split

theorem State.refuseSpan_keeps {b s : State} (h : Keeps b s) (sid : ℕ) (first : ℕ) (count : ℕ) (q : ℕ) : Keeps b (State.refuseSpan s sid first
    count q) := by
  unfold State.refuseSpan
  try dsimp only
  repeat' with_reducible first | assumption | apply State.setRun_keeps | apply State.closeRun_keeps | apply keeps_ite | split

theorem State.refuseRec_keeps {b s : State} (h : Keeps b s) (sid : ℕ) (r : Rec) : Keeps b (State.refuseRec s sid r) := by
  unfold State.refuseRec
  try dsimp only
  repeat' with_reducible first | assumption | apply State.refuseSpan_keeps | apply State.keepRec_keeps | split

theorem State.refuseHod_keeps {b s : State} (h : Keeps b s) (p : ℕ) (a2 : Handed) : Keeps b (State.refuseHod s p a2) := by
  unfold State.refuseHod
  try dsimp only
  repeat' with_reducible first
    | assumption | intro _ | apply State.bumpW_keeps | apply State.each_keeps | apply State.refuseRec_keeps | apply State.when_keeps
    | apply State.keepRec_keeps

theorem State.yardTake_keeps {b s : State} (h : Keeps b s) (a1 : Handed) : Keeps b (State.yardTake s a1) := by
  unfold State.yardTake
  try dsimp only
  repeat' with_reducible first
    | assumption | apply State.refuseHod_keeps | apply State.takeIn_keeps | apply State.enterW3_keeps | apply keeps_ite

theorem State.admitNext_keeps {b s : State} (h : Keeps b s)  : Keeps b (State.admitNext s) := by
  unfold State.admitNext
  try dsimp only
  repeat' with_reducible first | assumption | apply State.yardTake_keeps | apply keeps_ite | split | apply keeps_mk

theorem State.drainAll_keeps {b s : State} (h : Keeps b s) (n : Nat) : Keeps b (State.drainAll n s) := by
  induction n generalizing s with
  | zero => exact h
  | succ n ih => exact ih (State.admitNext_keeps h)

theorem State.drain_keeps {b s : State} (h : Keeps b s)  : Keeps b (State.drain s) := by
  unfold State.drain
  try dsimp only
  repeat' with_reducible first
    | assumption | intro _ | apply State.each_keeps | apply State.blockEnd_keeps | apply State.drainReserve_keeps | apply State.drainAll_keeps
    | split | apply keeps_mk

theorem State.emptyYard_keeps {b s : State} (h : Keeps b s)  : Keeps b (State.emptyYard s) := by
  unfold State.emptyYard
  try dsimp only
  repeat' with_reducible first
    | assumption | intro _ | apply State.each_keeps | apply State.setF_keeps | apply State.setRing_keeps | apply State.setW_keeps
    | apply keeps_mk

theorem State.resumeClasses_keeps {b s : State} (h : Keeps b s) (p : ℕ) : Keeps b (State.resumeClasses s p) := by
  unfold State.resumeClasses
  try dsimp only
  repeat' with_reducible first | assumption | intro _ | apply State.setF_keeps | apply State.when_keeps | apply keeps_mk

theorem State.muteCourse_keeps {b s : State} (h : Keeps b s) (sid : ℕ) (n : ℕ) (count : ℕ) (why : ℕ) (q : ℕ) : Keeps b (State.muteCourse s sid n
    count why q) := by
  unfold State.muteCourse
  try dsimp only
  repeat' with_reducible first
    | assumption | apply State.closeCur_keeps | apply State.setStr_keeps | apply State.closeMute_keeps | apply keeps_ite | split

theorem State.decimateCourse_keeps {b s : State} (h : Keeps b s) (sid : ℕ) (r : ℕ) (n : ℕ) (a4 : ℤ) (settling : Bool) (fb : Bool) (q : ℕ) : Keeps
    b (State.decimateCourse s sid r n a4 settling fb q) := by
  unfold State.decimateCourse
  try dsimp only
  repeat' with_reducible first | assumption | apply State.putValue_keeps | apply State.setStr_keeps | apply keeps_ite | split

theorem State.syncBreak_keeps {b s : State} (h : Keeps b s) (sid : ℕ) (p : ℕ) : Keeps b (State.syncBreak s sid p) := by
  unfold State.syncBreak
  try dsimp only
  repeat' with_reducible first | assumption | apply State.setStr_keeps | apply keeps_ite | split

theorem State.insertRec_keeps {b s : State} (h : Keeps b s) (sid : ℕ) (r : Rec) : Keeps b (State.insertRec s sid r) := by
  unfold State.insertRec
  try dsimp only
  repeat' with_reducible first
    | assumption | intro _ | apply State.addRec_keeps | apply State.closeMute_keeps | apply State.closeLost_keeps | apply State.closeCur_keeps

theorem State.placeIns_keeps {b s : State} (h : Keeps b s) (sid : ℕ) (p : ℕ) : Keeps b (State.placeIns s sid p) := by
  unfold State.placeIns
  try dsimp only
  repeat' with_reducible first | assumption | intro _ | apply State.each_keeps | apply State.setStr_keeps | apply State.insertRec_keeps

theorem State.doBreak_keeps {b s : State} (h : Keeps b s) (sid : ℕ) : Keeps b (State.doBreak s sid) := by
  unfold State.doBreak
  try dsimp only
  repeat' with_reducible first | assumption | apply State.closeCur_keeps | apply State.setStr_keeps

theorem State.deltaCourse_keeps {b s : State} (h : Keeps b s) (sid : ℕ) (r : ℕ) (n : ℕ) (a4 : ℤ) (settling : Bool) (fb : Bool) (q : ℕ) : Keeps b
    (State.deltaCourse s sid r n a4 settling fb q) := by
  unfold State.deltaCourse
  try dsimp only
  repeat' with_reducible first | assumption | apply State.putValue_keeps | apply State.setStr_keeps | apply keeps_ite | split

theorem State.represent_keeps {b s : State} (h : Keeps b s) (sid : ℕ) (n : ℕ) (a3 : ℤ) (settling : Bool) (inWin : Bool) (fb : Bool) (q : ℕ) :
    Keeps b (State.represent s sid n a3 settling inWin fb q) := by
  unfold State.represent
  try dsimp only
  repeat' with_reducible first
    | assumption | apply State.putValue_keeps | apply State.deltaCourse_keeps | apply State.decimateCourse_keeps | apply keeps_ite | split

theorem State.reduceValue_keeps {b s0 : State} (h : Keeps b s0) (sid : ℕ) (a2 : Held) (inWin : Bool) : Keeps b (State.reduceValue s0 sid a2
    inWin) := by
  unfold State.reduceValue
  try dsimp only
  repeat' with_reducible first
    | assumption | intro _ | apply State.syncBreak_keeps | apply State.when_keeps | apply State.closeMute_keeps | apply State.placeIns_keeps
    | apply State.closeLost_keeps | apply State.doBreak_keeps | apply State.setStr_keeps | apply State.setF_keeps | apply State.muteCourse_keeps
    | apply State.represent_keeps | apply keeps_ite

theorem State.ensureHod_keeps {b s : State} (h : Keeps b s) (sid : ℕ) (course : ℕ) : Keeps b (State.ensureHod s sid course) := by
  unfold State.ensureHod
  try dsimp only
  repeat' with_reducible first | assumption | apply State.openHod_keeps | apply keeps_ite

theorem State.deliverDet_keeps {b s : State} (h : Keeps b s) (sid : ℕ) (d : ℕ) (typ : ℕ) (o : DetOut) : Keeps b (State.deliverDet s sid d typ o)
    := by
  unfold State.deliverDet
  try dsimp only
  repeat' with_reducible first
    | assumption | intro _ | apply State.closeLost_keeps | apply State.placeIns_keeps | apply State.setF_keeps | apply State.muteCourse_keeps
    | apply State.addRec_keeps | apply State.closeMute_keeps | apply keeps_ite

theorem State.lostCourse_keeps {b s : State} (h : Keeps b s) (sid : ℕ) (p : ℕ) (reason : ℕ) (q : ℕ) : Keeps b (State.lostCourse s sid p reason q)
    := by
  unfold State.lostCourse
  try dsimp only
  repeat' with_reducible first
    | assumption | apply State.closeMute_keeps | apply State.placeIns_keeps | apply State.closeCur_keeps | apply State.ensureHod_keeps
    | apply State.setStr_keeps | apply State.closeLost_keeps | apply keeps_ite | split

theorem State.reduce_keeps {b s : State} (h : Keeps b s) (sid : ℕ) (a2 : Held) (inWin : Bool) : Keeps b (State.reduce s sid a2 inWin) := by
  unfold State.reduce
  try dsimp only
  repeat' with_reducible first
    | assumption | apply State.reduceValue_keeps | apply State.lostCourse_keeps | apply State.syncBreak_keeps | apply keeps_ite

theorem State.releaseHeld_keeps {b s : State} (h : Keeps b s) (sid : ℕ) : Keeps b (State.releaseHeld s sid) := by
  unfold State.releaseHeld
  try dsimp only
  repeat' with_reducible first | assumption | intro _ | apply State.each_keeps | apply State.setStr_keeps | apply State.reduce_keeps | split

theorem State.flushStream_keeps {b s : State} (h : Keeps b s) (sid : ℕ) : Keeps b (State.flushStream s sid) := by
  unfold State.flushStream
  try dsimp only
  repeat' with_reducible first
    | assumption | intro _ | apply State.releaseHeld_keeps | apply State.each_keeps | apply State.setStr_keeps | apply State.insertRec_keeps
    | apply State.handOn_keeps | apply State.closeLost_keeps | apply State.closeMute_keeps

theorem State.deliver_keeps {b s : State} (h : Keeps b s) (sid : ℕ) (a2 : Held) : Keeps b (State.deliver s sid a2) := by
  unfold State.deliver
  try dsimp only
  repeat' with_reducible first
    | assumption | apply State.reduce_keeps | apply State.setStr_keeps | apply State.setTg_keeps | apply keeps_ite | split

theorem State.handSlot_keeps {b s : State} (h : Keeps b s) (m : ℕ) (k : ℕ) : Keeps b (State.handSlot s m k) := by
  unfold State.handSlot
  try dsimp only
  repeat' with_reducible first | assumption | apply State.setMason_keeps | apply keeps_ite | split | apply keeps_mk

theorem State.handSlots_keeps {b s : State} (h : Keeps b s) (m : ℕ) : Keeps b (State.handSlots s m) := by
  unfold State.handSlots
  try dsimp only
  repeat' with_reducible first | assumption | intro _ | apply State.each_keeps | apply State.handSlot_keeps

theorem State.masonAdd_keeps {b s : State} (h : Keeps b s) (sid : ℕ) (r : Rec) : Keeps b (State.masonAdd s sid r) := by
  unfold State.masonAdd
  try dsimp only
  repeat' with_reducible first | assumption | apply State.setMason_keeps | apply keeps_ite | split | apply keeps_mk

theorem State.closeInboxRun_keeps {b s : State} (h : Keeps b s) (sid : ℕ) : Keeps b (State.closeInboxRun s sid) := by
  unfold State.closeInboxRun
  try dsimp only
  repeat' with_reducible first | assumption | apply State.masonAdd_keeps | apply State.setStr_keeps | apply State.setTwo_keeps | split

theorem State.inboxLost_keeps {b s : State} (h : Keeps b s) (sid : ℕ) (n : ℕ) (count : ℕ) (reason : ℕ) (q : ℕ) : Keeps b (State.inboxLost s sid n
    count reason q) := by
  unfold State.inboxLost
  try dsimp only
  repeat' with_reducible first | assumption | apply State.setStr_keeps | apply State.closeInboxRun_keeps | apply keeps_ite | split

theorem State.packetTo_keeps {b s : State} (h : Keeps b s) (m : ℕ) (pkt : List Word) (sids : List ℕ) (n : ℕ) (count : ℕ) (q : ℕ) : Keeps b
    (State.packetTo s m pkt sids n count q) := by
  unfold State.packetTo
  try dsimp only
  repeat' with_reducible first
    | assumption | intro _ | apply State.setMason_keeps | apply State.bumpW_keeps | apply State.when_keeps | apply State.raiseBit_keeps
    | apply State.each_keeps | apply State.inboxLost_keeps | apply State.closeInboxRun_keeps | apply keeps_ite

theorem State.flushMason_keeps {b s : State} (h : Keeps b s) (sid : ℕ) : Keeps b (State.flushMason s sid) := by
  unfold State.flushMason
  try dsimp only
  repeat' with_reducible first
    | assumption | intro _ | apply State.closeInboxRun_keeps | apply State.each_keeps | apply State.setStr_keeps | apply State.masonAdd_keeps
    | apply State.handSlot_keeps | split

theorem State.flushAny_keeps {b s : State} (h : Keeps b s) (sid : ℕ) : Keeps b (State.flushAny s sid) := by
  unfold State.flushAny
  try dsimp only
  repeat' with_reducible first | assumption | apply State.flushMason_keeps | apply State.flushStream_keeps | apply keeps_ite

theorem State.masonReset_keeps {b s : State} (h : Keeps b s) (m : ℕ) : Keeps b (State.masonReset s m) := by
  unfold State.masonReset
  try dsimp only
  repeat' with_reducible first | assumption | apply State.handSlots_keeps | apply State.setMason_keeps | apply State.setF_keeps

theorem State.fadeOver_keeps {b s : State} (h : Keeps b s) (t : ℕ) (p : ℕ) (f : Path → Path) : Keeps b (State.fadeOver s t p f) := by
  unfold State.fadeOver
  try dsimp only
  repeat' with_reducible first | assumption | apply State.setF_keeps | apply State.raiseBit_keeps | apply State.setPath_keeps | apply keeps_ite

theorem State.endFade_keeps {b s : State} (h : Keeps b s) (t : ℕ) (p : ℕ) : Keeps b (State.endFade s t p) := by
  unfold State.endFade
  try dsimp only
  repeat' with_reducible first | assumption | intro _ | apply State.fadeOver_keeps

theorem State.idlePaths_keeps {b s : State} (h : Keeps b s) (t : ℕ) : Keeps b (State.idlePaths s t) := by
  unfold State.idlePaths
  try dsimp only
  repeat' with_reducible first
    | assumption | intro _ | apply State.each_keeps | apply State.when_keeps | apply State.endFade_keeps | apply State.setPath_keeps

theorem State.tailPhase_keeps {b s : State} (h : Keeps b s) (t : ℕ) (p : ℕ) (d : Due) : Keeps b (State.tailPhase s t p d) := by
  unfold State.tailPhase
  try dsimp only
  repeat' with_reducible first | assumption | apply State.setPath_keeps | split

theorem State.sat24_keeps {b s : State} (h : Keeps b s) (t : ℕ) (p : ℕ) (stage : ℕ) (v : ℤ) : Keeps b (State.sat24 s t p stage v).1 := by
  unfold State.sat24
  try dsimp only
  repeat' with_reducible first | assumption | intro _ | apply State.bumpW_keeps | apply State.when_keeps | apply State.raiseBit_keeps | split

theorem State.firOut_keeps {b s : State} (h : Keeps b s) (t : ℕ) (p : ℕ) (a3 : ℕ) (c : PathCfg) (line : List ℤ) : Keeps b (State.firOut s t p a3
    c line).1 := by
  unfold State.firOut
  try dsimp only
  repeat' with_reducible first | assumption | apply State.sat24_keeps | split

theorem State.toUnits_keeps {b s : State} (h : Keeps b s) (watch : ℕ → Bool) (v : TuVal) : Keeps b (State.toUnits s watch v) := by
  unfold State.toUnits
  try dsimp only
  repeat' with_reducible first | assumption | intro _ | apply State.each_keeps | apply State.setTu_keeps | apply keeps_ite

theorem State.endFades_keeps {b s : State} (h : Keeps b s) (t : ℕ) : Keeps b (State.endFades s t) := by
  unfold State.endFades
  try dsimp only
  repeat' with_reducible first | assumption | intro _ | apply State.each_keeps | apply State.endFade_keeps

theorem State.detCourse_keeps {b s : State} (h : Keeps b s) (t : ℕ) (d : ℕ) (n : ℕ) (p : ℕ) (v : ℤ) (run : Option ℕ) (q : ℕ) : Keeps b
    (State.detCourse s t d n p v run q) := by
  unfold State.detCourse
  try dsimp only
  repeat' with_reducible first | assumption | apply State.setDet_keeps

theorem State.deliverOut_keeps {b s : State} (h : Keeps b s) (t : ℕ) (p : ℕ) (d : Due) (o : COut) : Keeps b (State.deliverOut s t p d o) := by
  unfold State.deliverOut
  try dsimp only
  repeat' with_reducible first
    | assumption | intro _ | apply State.each_keeps | apply State.inboxLost_keeps | apply State.deliver_keeps | apply State.detCourse_keeps
    | apply State.when_keeps | apply State.toUnits_keeps | apply keeps_ite

theorem State.detRestart_keeps {b s : State} (h : Keeps b s) (t : ℕ) (p : ℕ) : Keeps b (State.detRestart s t p) := by
  unfold State.detRestart
  try dsimp only
  repeat' with_reducible first | assumption | intro _ | apply State.each_keeps | apply State.setDet_keeps

theorem State.syncFade_keeps {b s : State} (h : Keeps b s) (t : ℕ) (p : ℕ) : Keeps b (State.syncFade s t p) := by
  unfold State.syncFade
  try dsimp only
  repeat' with_reducible first | assumption | intro _ | apply State.fadeOver_keeps

theorem State.setChan_keeps {b s : State} (h : Keeps b s) (t : ℕ) (p : ℕ) (i : ℕ) (c : Chan) : Keeps b (State.setChan s t p i c) := by
  unfold State.setChan
  try dsimp only
  repeat' with_reducible first | assumption | apply State.setPath_keeps

theorem State.placed_keeps {b s : State} (h : Keeps b s) (c : PathCfg) (t : ℕ) (p : ℕ) (i : ℕ) (d : Due) (outs : List (ℕ × ℕ × ℤ)) (scs : List (ℕ
    × ℕ × ℤ)) : Keeps b (State.placed s c t p i d outs scs).1 := by
  unfold State.placed
  try dsimp only
  repeat' with_reducible first | assumption | apply State.sat24_keeps | split

theorem State.courseValue_keeps {b s : State} (h : Keeps b s) (t : ℕ) (p : ℕ) (i : ℕ) (d : Due) : Keeps b (State.courseValue s t p i d).1 := by
  unfold State.courseValue
  try dsimp only
  repeat' with_reducible first | assumption | apply State.placed_keeps | apply State.sat24_keeps | split

theorem State.courseOuts_keeps {b s : State} (h : Keeps b s) (t p : Nat) (d : Due) (l : List Nat) : Keeps b (s.courseOuts t p d l).1 := by
  induction l generalizing s with
  | nil => exact h
  | cons i r ih =>
    unfold State.courseOuts
    dsimp only
    split
    · exact ih h
    · exact ih (State.setChan_keeps (State.courseValue_keeps h ..) ..)

theorem State.warmUp_keeps {b s : State} (h : Keeps b s) (t : ℕ) (p : ℕ) : Keeps b (State.warmUp s t p) := by
  unfold State.warmUp
  try dsimp only
  repeat' with_reducible first | assumption | intro _ | apply State.when_keeps | apply State.setF_keeps | split

theorem State.fadeStep_keeps {b s : State} (h : Keeps b s) (t : ℕ) (p : ℕ) (d : Due) : Keeps b (State.fadeStep s t p d) := by
  unfold State.fadeStep
  try dsimp only
  repeat' with_reducible first | assumption | apply State.setPath_keeps | apply State.warmUp_keeps | apply keeps_ite | split

theorem State.coursePacket_keeps {b s : State} (h : Keeps b s) (t : ℕ) (p : ℕ) (m : ℕ) (d : Due) (os : List COut) : Keeps b (State.coursePacket s
    t p m d os) := by
  unfold State.coursePacket
  try dsimp only
  repeat' with_reducible first
    | assumption | intro _ | apply State.each_keeps | apply State.setF_keeps | apply State.packetTo_keeps | apply keeps_ite

theorem State.pathCourse_keeps {b s : State} (h : Keeps b s) (t : ℕ) (p : ℕ) (d : Due) : Keeps b (State.pathCourse s t p d) := by
  unfold State.pathCourse
  try dsimp only
  repeat' with_reducible first
    | assumption | intro _ | apply State.tailPhase_keeps | apply State.courseOuts_keeps | apply State.each_keeps | apply State.fadeStep_keeps
    | apply State.deliverOut_keeps | apply State.coursePacket_keeps

theorem State.startBlend_keeps {b s : State} (h : Keeps b s) (t : ℕ) (p : ℕ) (n : ℕ) : Keeps b (State.startBlend s t p n) := by
  unfold State.startBlend
  try dsimp only
  repeat' with_reducible first | assumption | apply State.setTwo_keeps | apply State.setF_keeps

theorem State.fadePhase_keeps {b s : State} (h : Keeps b s) (t : ℕ) (p : ℕ) (n : ℕ) : Keeps b (State.fadePhase s t p n) := by
  unfold State.fadePhase
  try dsimp only
  repeat' with_reducible first | assumption | apply State.endFade_keeps | apply State.startBlend_keeps | apply keeps_ite | split

theorem State.releaseReady_keeps {b s : State} (h : Keeps b s) (t p : Nat) (l : List Due) : Keeps b (s.releaseReady t p l) := by
  induction l generalizing s with
  | nil => exact h
  | cons d r ih =>
    unfold State.releaseReady
    dsimp only
    split
    · exact h
    · exact ih (State.pathCourse_keeps (State.setPath_keeps (State.fadePhase_keeps h ..) ..) ..)

theorem State.restartPath_keeps {b s : State} (h : Keeps b s) (t : ℕ) (p : ℕ) (why : ℕ) : Keeps b (State.restartPath s t p why) := by
  unfold State.restartPath
  try dsimp only
  repeat' with_reducible first
    | assumption | apply State.detRestart_keeps | apply State.syncFade_keeps | apply State.releaseReady_keeps | apply State.setPath_keeps

theorem State.firWord_keeps {b s : State} (h : Keeps b s) (t : ℕ) (p : ℕ) (c : PathCfg) (ch : Chan) (a5 : ℤ) (tau : ℕ) (edge : ℕ) (dump : Bool) :
    Keeps b (State.firWord s t p c ch a5 tau edge dump).1 := by
  unfold State.firWord
  try dsimp only
  repeat' with_reducible first | assumption | apply State.firOut_keeps | split

theorem State.cicWord_keeps {b s : State} (h : Keeps b s) (t : ℕ) (p : ℕ) (c : PathCfg) (ch : Chan) (a5 : ℤ) (dump : Bool) : Keeps b
    (State.cicWord s t p c ch a5 dump).1 := by
  unfold State.cicWord
  try dsimp only
  repeat' with_reducible first | assumption | apply State.sat24_keeps | split

theorem State.firstWord_keeps {b s : State} (h : Keeps b s) (t : ℕ) (p : ℕ) (i : ℕ) (tau : ℕ) (named : Bool) : Keeps b (State.firstWord s t p i
    tau named) := by
  unfold State.firstWord
  try dsimp only
  repeat' with_reducible first
    | assumption | intro _ | apply State.when_keeps | apply State.setPath_keeps | apply State.setChan_keeps | apply keeps_ite

theorem State.disturbPath_keeps {b s : State} (h : Keeps b s) (t : ℕ) (p : ℕ) (i : ℕ) (why : ℕ) (ta : ℕ) (tb : ℕ) (open_ : Bool) : Keeps b
    (State.disturbPath s t p i why ta tb open_) := by
  unfold State.disturbPath
  try dsimp only
  repeat' with_reducible first | assumption | apply State.setChan_keeps

theorem State.hbWord_keeps {b s : State} (h : Keeps b s) (t : ℕ) (p : ℕ) (stage : ℕ) (line : List ℤ) (a5 : ℤ) (dump : Bool) : Keeps b
    (State.hbWord s t p stage line a5 dump).1 := by
  unfold State.hbWord
  try dsimp only
  repeat' with_reducible first | assumption | apply State.sat24_keeps | split

theorem State.chainWord_keeps {b s : State} (h : Keeps b s) (t : ℕ) (p : ℕ) (c : PathCfg) (ch : Chan) (a5 : ℤ) (tau : ℕ) (edge : ℕ) (idx : ℕ) (on
    : Bool) : Keeps b (State.chainWord s t p c ch a5 tau edge idx on).1 := by
  unfold State.chainWord
  try dsimp only
  repeat' with_reducible first
    | assumption | apply State.firWord_keeps | apply State.cicWord_keeps | apply State.hbWord_keeps | split
    | refine Keeps.of_fst (by assumption) ?_

theorem State.wordToPath_keeps {b s : State} (h : Keeps b s) (t : ℕ) (p : ℕ) (i : ℕ) (tau : ℕ) (edge : ℕ) (odd : Bool) (a7 : ℤ) : Keeps b
    (State.wordToPath s t p i tau edge odd a7) := by
  unfold State.wordToPath
  try dsimp only
  repeat' with_reducible first | assumption | apply State.setChan_keeps | apply State.chainWord_keeps | apply keeps_ite

theorem State.channelWord_keeps {b s : State} (h : Keeps b s) (t : ℕ) (i : ℕ) (tau : ℕ) (edge : ℕ) (odd : Bool) (a6 : ℤ) : Keeps b
    (State.channelWord s t i tau edge odd a6) := by
  unfold State.channelWord
  try dsimp only
  repeat' with_reducible first
    | assumption | intro _ | apply State.when_keeps | apply State.setTile_keeps | apply State.each_keeps | apply State.firstWord_keeps
    | apply State.disturbPath_keeps | apply State.wordToPath_keeps

theorem State.disturb_keeps {b s : State} (h : Keeps b s) (t : ℕ) (i : ℕ) (why : ℕ) (ta : ℕ) : Keeps b (State.disturb s t i why ta) := by
  unfold State.disturb
  try dsimp only
  repeat' with_reducible first | assumption | intro _ | apply State.each_keeps | apply State.disturbPath_keeps

theorem State.restartWake_keeps {b s : State} (h : Keeps b s) (t : ℕ) : Keeps b (State.restartWake s t) := by
  unfold State.restartWake
  try dsimp only
  repeat' with_reducible first | assumption | intro _ | apply State.each_keeps | apply State.detRestart_keeps | apply State.setPath_keeps

theorem State.settleUntil_keeps {b s : State} (h : Keeps b s) (t : ℕ) (i : ℕ) (tb : ℕ) : Keeps b (State.settleUntil s t i tb) := by
  unfold State.settleUntil
  try dsimp only
  repeat' with_reducible first | assumption | intro _ | apply State.each_keeps | apply State.setChan_keeps

theorem State.anchorSmpl_keeps {b s : State} (h : Keeps b s) (edge : ℕ) (at_ : ℤ) : Keeps b (State.anchorSmpl s edge at_) := by
  unfold State.anchorSmpl
  try dsimp only
  repeat' with_reducible first | assumption | apply keeps_mk

theorem State.smplHold_keeps {b s : State} (h : Keeps b s)  : Keeps b (State.smplHold s) := by
  unfold State.smplHold
  try dsimp only
  repeat' with_reducible first | assumption | apply keeps_mk

theorem State.smplLock_keeps {b s : State} (h : Keeps b s)  : Keeps b (State.smplLock s) := by
  unfold State.smplLock
  try dsimp only
  repeat' with_reducible first | assumption | apply State.draw_keeps | split | refine Keeps.of_fst (by assumption) ?_ | apply keeps_mk

theorem State.moveSmpl_keeps {b s : State} (h : Keeps b s) (d : ℤ) : Keeps b (State.moveSmpl s d) := by
  unfold State.moveSmpl
  try dsimp only
  repeat' with_reducible first | assumption | apply keeps_mk

theorem State.smplNow_keeps {b s : State} (h : Keeps b s)  : Keeps b (State.smplNow s) := by
  unfold State.smplNow
  try dsimp only
  repeat' with_reducible first | assumption | apply State.anchorSmpl_keeps

theorem State.setTrim_keeps {b s : State} (h : Keeps b s) (t : ℕ) (k : ℕ) (a3 : Trim) : Keeps b (State.setTrim s t k a3) := by
  unfold State.setTrim
  try dsimp only
  repeat' with_reducible first | assumption | apply State.setW_keeps | apply State.setTile_keeps

theorem State.countCals_keeps {b s : State} (h : Keeps b s) (t : ℕ) (n : ℕ) : Keeps b (State.countCals s t n) := by
  unfold State.countCals
  try dsimp only
  repeat' with_reducible first | assumption | apply State.setTile_keeps | apply State.setW_keeps

theorem State.rateCheck_keeps {b s : State} (h : Keeps b s) (t : ℕ) : Keeps b (State.rateCheck s t) := by
  unfold State.rateCheck
  try dsimp only
  repeat' with_reducible first | assumption | apply State.setF_keeps | apply State.raiseBit_keeps | apply keeps_ite

theorem State.showPairs_keeps {b s : State} (h : Keeps b s) (t : ℕ) : Keeps b (State.showPairs s t) := by
  unfold State.showPairs
  try dsimp only
  repeat' with_reducible first | assumption | intro _ | apply State.each_keeps | apply State.setF_keeps

theorem State.applyChan_keeps {b s : State} (h : Keeps b s) (t : ℕ) (i : ℕ) : Keeps b (State.applyChan s t i) := by
  unfold State.applyChan
  try dsimp only
  repeat' with_reducible first
    | assumption | intro _ | apply State.setW_keeps | apply State.when_keeps | apply State.setTile_keeps | apply keeps_ite

theorem State.setSrc_keeps {b s : State} (h : Keeps b s) (t : ℕ) (k : ℕ) (v : ℕ) : Keeps b (State.setSrc s t k v) := by
  unfold State.setSrc
  try dsimp only
  repeat' with_reducible first | assumption | apply State.setF_keeps | apply keeps_ite

theorem State.tileStop_keeps {b s : State} (h : Keeps b s) (t : ℕ) (pstate : ℕ) : Keeps b (State.tileStop s t pstate) := by
  unfold State.tileStop
  try dsimp only
  repeat' with_reducible first
    | assumption | intro _ | apply State.setF_keeps | apply State.setW_keeps | apply State.setTile_keeps | apply State.each_keeps
    | apply State.setSrc_keeps | apply State.settleUntil_keeps | apply State.when_keeps | apply State.endFades_keeps | apply State.setPath_keeps
    | apply State.rateCheck_keeps

theorem State.gainOverlap_keeps {b s : State} (h : Keeps b s) (t : ℕ) (i : ℕ) : Keeps b (State.gainOverlap s t i) := by
  unfold State.gainOverlap
  try dsimp only
  repeat' with_reducible first | assumption | intro _ | apply State.when_keeps | apply State.setTile_keeps

theorem State.setGain_keeps {b s : State} (h : Keeps b s) (t : ℕ) (i : ℕ) (g : ℕ) : Keeps b (State.setGain s t i g) := by
  unfold State.setGain
  try dsimp only
  repeat' with_reducible first
    | assumption | intro _ | apply State.setF_keeps | apply State.when_keeps | apply State.disturb_keeps | apply State.gainOverlap_keeps

theorem State.takeOut_keeps {b s : State} (h : Keeps b s) (t : ℕ) (i : ℕ) : Keeps b (State.takeOut s t i) := by
  unfold State.takeOut
  try dsimp only
  repeat' with_reducible first | assumption | apply State.raiseBit_keeps | apply State.setF_keeps | apply State.setBit_keeps | apply keeps_ite

theorem State.failInput_keeps {b s : State} (h : Keeps b s) (t : ℕ) (k : ℕ) : Keeps b (State.failInput s t k) := by
  unfold State.failInput
  try dsimp only
  repeat' with_reducible first | assumption | apply State.takeOut_keeps | apply State.setTile_keeps

theorem State.excCut_keeps {b s : State} (h : Keeps b s) (t : ℕ) : Keeps b (State.excCut s t) := by
  unfold State.excCut
  try dsimp only
  repeat' with_reducible first | assumption | apply State.setF_keeps

theorem State.failBad_keeps {b s : State} (h : Keeps b s) (t : ℕ) : Keeps b (State.failBad s t) := by
  unfold State.failBad
  try dsimp only
  repeat' with_reducible first | assumption | intro _ | apply State.each_keeps | apply State.takeOut_keeps

theorem State.tileIlv_keeps {b s : State} (h : Keeps b s) (t : ℕ) (v : Word) : Keeps b (State.tileIlv s t v) := by
  unfold State.tileIlv
  try dsimp only
  repeat' with_reducible first
    | assumption | apply State.setF_keeps | apply State.fin_keeps | apply State.failBad_keeps | apply State.showPairs_keeps | apply keeps_ite

theorem State.clip_keeps {b s : State} (h : Keeps b s) (t : ℕ) (i : ℕ) : Keeps b (State.clip s t i) := by
  unfold State.clip
  try dsimp only
  repeat' with_reducible first | assumption | apply State.bumpW_keeps | apply State.raiseBit_keeps | apply State.setF_keeps | apply keeps_ite

theorem State.freeze_keeps {b s : State} (h : Keeps b s) (t : ℕ) : Keeps b (State.freeze s t) := by
  unfold State.freeze
  try dsimp only
  repeat' with_reducible first | assumption | apply State.raiseBit_keeps | apply State.setF_keeps | apply keeps_ite

theorem State.excSettle_keeps {b s : State} (h : Keeps b s) (t : ℕ) : Keeps b (State.excSettle s t) := by
  unfold State.excSettle
  try dsimp only
  repeat' with_reducible first | assumption | intro _ | apply State.setF_keeps | apply State.when_keeps | apply keeps_ite

theorem State.excOff_keeps {b s : State} (h : Keeps b s)  : Keeps b (State.excOff s) := by
  unfold State.excOff
  try dsimp only
  repeat' with_reducible first | assumption | intro _ | apply State.each_keeps | apply State.setF_keeps | apply State.excCut_keeps

theorem State.tileCtl_keeps {b s : State} (h : Keeps b s) (t : ℕ) (v : Word) : Keeps b (State.tileCtl s t v) := by
  unfold State.tileCtl
  try dsimp only
  repeat' with_reducible first
    | assumption | intro _ | apply State.setW_keeps | apply State.fin_keeps | apply State.when_keeps | apply State.rateCheck_keeps
    | apply keeps_ite

theorem State.rateChecks_keeps {b s : State} (h : Keeps b s)  : Keeps b (State.rateChecks s) := by
  unfold State.rateChecks
  try dsimp only
  repeat' with_reducible first | assumption | intro _ | apply State.each_keeps | apply State.rateCheck_keeps

theorem State.startRotation_keeps {b s : State} (h : Keeps b s) (t : ℕ) : Keeps b (State.startRotation s t) := by
  unfold State.startRotation
  try dsimp only
  repeat' with_reducible first | assumption | apply State.setTile_keeps | apply State.setF_keeps

theorem State.showQuality_keeps {b s : State} (h : Keeps b s)  : Keeps b (State.showQuality s) := by
  unfold State.showQuality
  try dsimp only
  repeat' with_reducible first | assumption | apply State.setF_keeps

theorem State.disarm_keeps {b s : State} (h : Keeps b s) (g : ℕ) : Keeps b (State.disarm s g) := by
  unfold State.disarm
  try dsimp only
  repeat' with_reducible first | assumption | apply State.setF_keeps | apply State.setGrid_keeps | apply keeps_ite

theorem State.countTheta_keeps {b s : State} (h : Keeps b s) (th : ℤ) : Keeps b (State.countTheta s th) := by
  unfold State.countTheta
  try dsimp only
  repeat' with_reducible first | assumption | apply keeps_ite | split | apply keeps_mk

theorem State.ttEvent_keeps {b s : State} (h : Keeps b s) (i : ℕ) (code : ℕ) (detail : ℕ) : Keeps b (State.ttEvent s i code detail) := by
  unfold State.ttEvent
  try dsimp only
  repeat' with_reducible first | assumption | apply State.raiseBit_keeps

theorem State.setRate_keeps {b s : State} (h : Keeps b s) (f : ℤ) (sl : ℤ) : Keeps b (State.setRate s f sl) := by
  unfold State.setRate
  try dsimp only
  repeat' with_reducible first
    | assumption | intro _ | apply State.setW_keeps | apply State.setF_keeps | apply State.when_keeps | apply State.ttEvent_keeps
    | apply keeps_mk

theorem State.servoTo_keeps {b s : State} (h : Keeps b s) (n : ℕ) : Keeps b (State.servoTo s n) := by
  unfold State.servoTo
  try dsimp only
  repeat' with_reducible first
    | assumption | intro _ | apply State.setF_keeps | apply State.when_keeps | apply State.setRate_keeps | apply State.showQuality_keeps
    | apply keeps_ite | split | apply keeps_mk

theorem State.jump_keeps {b s : State} (h : Keeps b s) (th : ℤ) : Keeps b (State.jump s th) := by
  unfold State.jump
  try dsimp only
  repeat' with_reducible first | assumption | apply State.ttEvent_keeps | apply State.servoTo_keeps | apply State.setWs_keeps

theorem State.dropSyncs_keeps {b s : State} (h : Keeps b s)  : Keeps b (State.dropSyncs s) := by
  unfold State.dropSyncs
  try dsimp only
  repeat' with_reducible first
    | assumption | intro _ | apply State.each_keeps | apply State.disarm_keeps | apply State.when_keeps | apply State.raiseBit_keeps

theorem State.stepRecord_keeps {b s : State} (h : Keeps b s) (k : ℕ) (p : ℕ) (t : ℕ) (d : ℤ) : Keeps b (State.stepRecord s k p t d) := by
  unfold State.stepRecord
  try dsimp only
  repeat' with_reducible first | assumption | apply State.keepRec_keeps | apply State.masonAdd_keeps | apply State.setStr_keeps | apply keeps_ite

theorem State.machineSteps_keeps {b s : State} (h : Keeps b s) (p t : Nat) (l : List (Int × List Nat)) : Keeps b (s.machineSteps p t l) := by
  induction l generalizing s with
  | nil => exact h
  | cons d r ih => exact ih (State.each_keeps h _ _ fun t k q => State.stepRecord_keeps q ..)

theorem State.loop_keeps {b s : State} (h : Keeps b s) (th : ℤ) : Keeps b (State.loop s th) := by
  unfold State.loop
  try dsimp only
  repeat' with_reducible first | assumption | apply State.setRate_keeps | apply keeps_ite | split

theorem State.countAnew_keeps {b s : State} (h : Keeps b s)  : Keeps b (State.countAnew s) := by
  unfold State.countAnew
  try dsimp only
  repeat' with_reducible first | assumption | apply keeps_mk

theorem State.syncBreaks_keeps {b s : State} (h : Keeps b s) (g : ℕ) : Keeps b (State.syncBreaks s g) := by
  unfold State.syncBreaks
  try dsimp only
  repeat' with_reducible first | assumption | intro _ | apply State.each_keeps | apply State.setStr_keeps

theorem State.routeChange_keeps {b s : State} (h : Keeps b s)  : Keeps b (State.routeChange s) := by
  unfold State.routeChange
  try dsimp only
  repeat' with_reducible first | assumption | apply State.ttEvent_keeps | apply State.servoTo_keeps

theorem State.setTime4_keeps {b s : State} (h : Keeps b s) (a : ℕ) (t : ℕ) : Keeps b (State.setTime4 s a t) := by
  unfold State.setTime4
  try dsimp only
  repeat' with_reducible first | assumption | apply State.setWs_keeps

theorem State.stepRecords_keeps {b s : State} (h : Keeps b s) (g : ℕ) (p : ℕ) (t : ℕ) (d : ℤ) : Keeps b (State.stepRecords s g p t d) := by
  unfold State.stepRecords
  try dsimp only
  repeat' with_reducible first | assumption | intro _ | apply State.each_keeps | apply State.stepRecord_keeps

theorem State.takeRef_keeps {b s : State} (h : Keeps b s)  : Keeps b (State.takeRef s) := by
  unfold State.takeRef
  try dsimp only
  repeat' with_reducible first | assumption | apply State.setW_keeps | apply keeps_mk

theorem State.servoStep_keeps {b s : State} (h : Keeps b s) (th : ℤ) : Keeps b (State.servoStep s th) := by
  unfold State.servoStep
  try dsimp only
  repeat' with_reducible first
    | assumption | apply State.servoTo_keeps | apply State.jump_keeps | apply State.setWs_keeps | apply State.ttEvent_keeps
    | apply State.takeRef_keeps | apply State.routeChange_keeps | apply keeps_ite | split

theorem State.stopGrid_keeps {b s : State} (h : Keeps b s) (g : ℕ) : Keeps b (State.stopGrid s g) := by
  unfold State.stopGrid
  try dsimp only
  repeat' with_reducible first | assumption | apply State.setF_keeps | apply State.setGrid_keeps

theorem State.roundTrip_keeps {b s : State} (h : Keeps b s) (rtt : ℤ) : Keeps b (State.roundTrip s rtt).1 := by
  unfold State.roundTrip
  try dsimp only
  repeat' with_reducible first
    | assumption | intro _ | apply State.setW_keeps | apply State.when_keeps | apply State.countAnew_keeps | apply State.routeChange_keeps
    | apply State.takeRef_keeps | split | apply keeps_mk

theorem State.endRoute_keeps {b s : State} (h : Keeps b s) (th : ℤ) : Keeps b (State.endRoute s th) := by
  unfold State.endRoute
  try dsimp only
  repeat' with_reducible first
    | assumption | apply State.takeRef_keeps | apply State.setF_keeps | apply State.jump_keeps | apply State.servoTo_keeps | apply keeps_ite

theorem State.routeDecide_keeps {b s : State} (h : Keeps b s)  : Keeps b (State.routeDecide s) := by
  unfold State.routeDecide
  try dsimp only
  repeat' with_reducible first
    | assumption | apply State.ttEvent_keeps | apply State.setW_keeps | apply State.endRoute_keeps | apply State.setF_keeps | apply keeps_ite

theorem State.endWindow_keeps {b s : State} (h : Keeps b s) (i : ℕ) (last : ℕ) : Keeps b (State.endWindow s i last) := by
  unfold State.endWindow
  try dsimp only
  repeat' with_reducible first | assumption | apply State.setF_keeps | apply State.setTwo_keeps | apply State.setTg_keeps | split

theorem State.unitSync_keeps {b s : State} (h : Keeps b s) (u : ℕ) : Keeps b (State.unitSync s u) := by
  unfold State.unitSync
  try dsimp only
  repeat' with_reducible first | assumption | apply State.setF_keeps | apply State.setTu_keeps

theorem State.measure_keeps {b s : State} (h : Keeps b s) (th : ℤ) : Keeps b (State.measure s th) := by
  unfold State.measure
  try dsimp only
  repeat' with_reducible first
    | assumption | apply State.countTheta_keeps | apply State.setW_keeps | apply State.showQuality_keeps | apply State.routeDecide_keeps
    | apply State.loop_keeps | apply State.servoStep_keeps

theorem State.stepGrids_keeps {b s : State} (h : Keeps b s) (d : ℤ) : Keeps b (State.stepGrids s d) := by
  unfold State.stepGrids
  try dsimp only
  repeat' with_reducible first | assumption | intro _ | apply State.each_keeps | apply State.setGrid_keeps | apply State.setTime4_keeps

theorem State.stepTime_keeps {b s : State} (h : Keeps b s) (at_ : ℕ) (d : ℤ) : Keeps b (State.stepTime s at_ d) := by
  unfold State.stepTime
  try dsimp only
  repeat' with_reducible first
    | assumption | intro _ | apply State.dropSyncs_keeps | apply State.stepGrids_keeps | apply State.moveSmpl_keeps | apply State.servoTo_keeps
    | apply State.showQuality_keeps | apply State.each_keeps | apply State.stepRecords_keeps | apply State.setF_keeps | apply State.ttEvent_keeps
    | apply State.setTime4_keeps | apply keeps_ite | split | apply keeps_mk

theorem State.syncGroups_keeps {b s : State} (h : Keeps b s) (g : ℕ) : Keeps b (State.syncGroups s g) := by
  unfold State.syncGroups
  try dsimp only
  repeat' with_reducible first
    | assumption | intro _ | apply State.each_keeps | apply State.endWindow_keeps | apply State.releaseHeld_keeps | apply State.setTg_keeps
    | apply State.unitSync_keeps

theorem State.servoReset_keeps {b s : State} (h : Keeps b s)  : Keeps b (State.servoReset s) := by
  unfold State.servoReset
  try dsimp only
  repeat' with_reducible first
    | assumption | apply State.setF_keeps | apply State.setRate_keeps | apply State.servoTo_keeps | apply keeps_ite | split | apply keeps_mk

theorem State.srcLost_keeps {b s : State} (h : Keeps b s)  : Keeps b (State.srcLost s) := by
  unfold State.srcLost
  try dsimp only
  repeat' with_reducible first | assumption | apply State.ttEvent_keeps | apply State.servoTo_keeps | apply keeps_ite

theorem State.csEvent_keeps {b s : State} (h : Keeps b s) (i : ℕ) (code : ℕ) (src : ℕ) (detail : ℕ) : Keeps b (State.csEvent s i code src detail)
    := by
  unfold State.csEvent
  try dsimp only
  repeat' with_reducible first | assumption | apply State.raiseBit_keeps

theorem State.csChanged_keeps {b s : State} (h : Keeps b s)  : Keeps b (State.csChanged s) := by
  unfold State.csChanged
  try dsimp only
  repeat' with_reducible first | assumption | apply State.csEvent_keeps | apply State.setF_keeps

theorem State.takeSet_keeps {b s : State} (h : Keeps b s) (ws : List Word) : Keeps b (State.takeSet s ws) := by
  unfold State.takeSet
  try dsimp only
  repeat' with_reducible first | assumption | intro _ | apply State.each_keeps | apply State.setW_keeps

theorem State.takePar_keeps {b s : State} (h : Keeps b s) (bs : List Byte) : Keeps b (State.takePar s bs) := by
  unfold State.takePar
  try dsimp only
  repeat' with_reducible first | assumption | apply State.setW_keeps | apply State.takeSet_keeps | apply State.setF_keeps | apply keeps_mk

theorem State.setMeter_keeps {b s : State} (h : Keeps b s) (j : ℕ) (a2 : Meter) : Keeps b (State.setMeter s j a2) := by
  unfold State.setMeter
  try dsimp only
  repeat' with_reducible first | assumption | apply keeps_mk

theorem State.takeEn_keeps {b s : State} (h : Keeps b s) (bs : List Byte) (j : ℕ) : Keeps b (State.takeEn s bs j) := by
  unfold State.takeEn
  try dsimp only
  repeat' with_reducible first | assumption | apply State.setW_keeps | apply State.setMeter_keeps

theorem State.meterChan_keeps {b s : State} (h : Keeps b s) (k : ℕ) : Keeps b (State.meterChan s k) := by
  unfold State.meterChan
  try dsimp only
  repeat' with_reducible first
    | assumption | intro _ | apply State.setW_keeps | apply State.setF_keeps | apply State.when_keeps | apply State.setTile_keeps
    | apply State.setGain_keeps

theorem State.csInForce_keeps {b s : State} (h : Keeps b s)  : Keeps b (State.csInForce s) := by
  unfold State.csInForce
  try dsimp only
  repeat' with_reducible first
    | assumption | intro _ | apply State.each_keeps | apply State.when_keeps | apply State.setF_keeps | apply State.meterChan_keeps

theorem State.csSecrets_keeps {b s : State} (h : Keeps b s)  : Keeps b (State.csSecrets s) := by
  unfold State.csSecrets
  try dsimp only
  repeat' with_reducible first | assumption | apply keeps_mk

theorem State.csRestore_keeps {b s : State} (h : Keeps b s)  : Keeps b (State.csRestore s) := by
  unfold State.csRestore
  try dsimp only
  repeat' with_reducible first
    | assumption | intro _ | apply State.takePar_keeps | apply State.each_keeps | apply State.takeEn_keeps | apply State.setF_keeps
    | apply State.csInForce_keeps | apply State.csSecrets_keeps | apply State.setMeter_keeps | apply State.csEvent_keeps | apply keeps_ite
    | split | apply keeps_mk

theorem State.csAccept_keeps {b s : State} (h : Keeps b s) (next : State) (p : CsPend) : Keeps b (s.csAccept next p) := by
  unfold State.csAccept
  dsimp only
  apply keeps_mk
  exact State.begin_keeps (State.setW_keeps h ..) ..

theorem State.addEnergy_keeps {b s : State} (h : Keeps b s) (j : ℕ) : Keeps b (State.addEnergy s j) := by
  unfold State.addEnergy
  try dsimp only
  repeat' with_reducible first | assumption | apply State.setW_keeps | apply State.setMeter_keeps

theorem State.trySaveEn_keeps {b s : State} (h : Keeps b s) (j : ℕ) (v : ℕ) : Keeps b (State.trySaveEn s j v) := by
  unfold State.trySaveEn
  try dsimp only
  repeat' with_reducible first
    | assumption | apply State.nvCheck_keeps | apply State.begin_keeps | apply State.csEvent_keeps | apply keeps_ite | split
    | refine Keeps.of_fst (by assumption) ?_ | apply keeps_mk

theorem State.endInterval_keeps {b s : State} (h : Keeps b s) (j : ℕ) (end_ : ℕ) (short : Bool) (more : Bool) (v : ℕ) : Keeps b
    (State.endInterval s j end_ short more v) := by
  unfold State.endInterval
  try dsimp only
  repeat' with_reducible first
    | assumption | intro _ | apply State.addEnergy_keeps | apply State.setW_keeps | apply State.setMeter_keeps | apply State.when_keeps
    | apply State.csEvent_keeps | apply State.bumpW_keeps | apply State.trySaveEn_keeps

theorem State.csApply_keeps {b s : State} (h : Keeps b s) (ws : List Word) (clear : Bool) (v : Nat) : Keeps b (s.csApply ws clear v) := by
  unfold State.csApply
  dsimp only [List.foldl]
  refine State.when_keeps (State.csInForce_keeps (State.takeSet_keeps (State.each_keeps h _ _ ?_) _)) _ _ ?_
  · exact fun t j k => State.endInterval_keeps k ..
  · refine fun t k => State.each_keeps k _ _ fun t j k => State.setMeter_keeps ?_ ..
    repeat' with_reducible first | assumption | apply State.setW_keeps

theorem State.csTake_keeps {b s : State} (h : Keeps b s) (a : CsPend) : Keeps b (State.csTake s a) := by
  unfold State.csTake
  try dsimp only
  repeat' with_reducible first | assumption | apply State.csApply_keeps | apply State.setF_keeps | split | apply keeps_mk

theorem State.csLate_keeps {b s : State} (h : Keeps b s)  : Keeps b (State.csLate s) := by
  unfold State.csLate
  try dsimp only
  repeat' with_reducible first | assumption | apply State.csChanged_keeps | apply State.csTake_keeps | split | apply keeps_mk

theorem State.csRefuse_keeps {b s : State} (h : Keeps b s) (src : ℕ) (c : Status) : Keeps b (State.csRefuse s src c) := by
  unfold State.csRefuse
  try dsimp only
  repeat' with_reducible first | assumption | apply State.csEvent_keeps

theorem State.csChange_keeps {b s : State} (h : Keeps b s) (v : Nat) (next : State → State) (p : CsPend) : Keeps b (s.csChange v next p).1 := by
  unfold State.csChange
  split
  · exact State.csRefuse_keeps h ..
  · split
    · exact State.csRefuse_keeps h ..
    · dsimp only
      split
      · exact State.csRefuse_keeps (State.nvCheck_keeps h ..) ..
      · exact State.csAccept_keeps (State.nvCheck_keeps h ..) ..

theorem State.endMeters_keeps {b s : State} (h : Keeps b s)  : Keeps b (State.endMeters s) := by
  unfold State.endMeters
  try dsimp only
  repeat' with_reducible first | assumption | intro _ | apply State.each_keeps | apply State.draw_keeps | apply State.endInterval_keeps

theorem State.nextSave_keeps {b s : State} (h : Keeps b s)  : Keeps b (State.nextSave s) := by
  unfold State.nextSave
  try dsimp only
  repeat' with_reducible first
    | assumption | apply State.draw_keeps | apply State.trySaveEn_keeps | apply keeps_ite | split | refine Keeps.of_fst (by assumption) ?_
    | apply keeps_mk

theorem State.meterLoad_keeps {b s : State} (h : Keeps b s) (t : ℕ) : Keeps b (State.meterLoad s t) := by
  unfold State.meterLoad
  try dsimp only
  repeat' with_reducible first
    | assumption | intro _ | apply State.each_keeps | apply State.draw_keeps | apply State.endInterval_keeps | apply State.setMeter_keeps

theorem State.evSaved_keeps {b s : State} (h : Keeps b s)  : Keeps b (State.evSaved s) := by
  unfold State.evSaved
  try dsimp only
  repeat' with_reducible first | assumption | apply State.setW_keeps | split | apply keeps_mk

theorem State.noteDig_keeps {b s : State} (h : Keeps b s) (ms : List ℕ) (d : List Byte) : Keeps b (State.noteDig s ms d) := by
  unfold State.noteDig
  try dsimp only
  repeat' with_reducible first | assumption | apply State.setF_keeps | apply keeps_mk

theorem State.csWake_keeps {b s : State} (h : Keeps b s)  : Keeps b (State.csWake s) := by
  unfold State.csWake
  try dsimp only
  repeat' with_reducible first
    | assumption | apply State.csRestore_keeps | apply State.nextSave_keeps | apply State.csLate_keeps | apply keeps_ite

theorem State.csClear_keeps {b s : State} (h : Keeps b s) : Keeps b s.csClear := by
  unfold State.csClear
  dsimp only
  apply State.evSaved_keeps
  apply State.csInForce_keeps
  apply State.setF_keeps
  exact ⟨h.1, fun w => ⟨Tab.wf_filter _ _ _ (h.2 w).1, (h.2 w).2⟩⟩

theorem State.closePassed_keeps {b s : State} (h : Keeps b s) (j t n : Nat) : Keeps b (State.closePassed j t n s) := by
  induction n generalizing s with
  | zero => exact h
  | succ n ih =>
    unfold State.closePassed
    split
    · exact h
    · split
      · exact h
      · dsimp only
        apply ih
        apply State.endInterval_keeps
        exact State.draw_keeps h _

theorem State.closeUpTo_keeps {b s : State} (h : Keeps b s) (j : ℕ) (t : ℕ) : Keeps b (State.closeUpTo s j t) := by
  unfold State.closeUpTo
  try dsimp only
  repeat' with_reducible first | assumption | apply State.closePassed_keeps

theorem State.noteSync_keeps {b s : State} (h : Keeps b s) (t : ℕ) (edge : ℕ) : Keeps b (State.noteSync s t edge) := by
  unfold State.noteSync
  try dsimp only
  repeat' with_reducible first | assumption | apply keeps_mk

theorem State.rootOks_keeps {b s : State} (h : Keeps b s) (pps : Bool) (tod : Bool) : Keeps b (State.rootOks s pps tod) := by
  unfold State.rootOks
  try dsimp only
  repeat' with_reducible first | assumption | intro _ | apply State.setF_keeps | apply State.when_keeps | apply State.srcLost_keeps

theorem State.mstamp_keeps {b s : State} (h : Keeps b s) (g : ℕ) (n : ℕ) (at_ : ℕ) : Keeps b (State.mstamp s g n at_) := by
  unfold State.mstamp
  try dsimp only
  repeat' with_reducible first
    | assumption | intro _ | apply State.setTwo_keeps | apply State.setTime4_keeps | apply State.setGrid_keeps | apply State.when_keeps
    | apply State.raiseBit_keeps

theorem State.dueCourse_keeps {b s : State} (h : Keeps b s) (g : ℕ) (d : Due) : Keeps b (State.dueCourse s g d) := by
  unfold State.dueCourse
  try dsimp only
  repeat' with_reducible first | assumption | intro _ | apply State.each_keeps | apply State.setPath_keeps

theorem State.ppsLow_keeps {b s : State} (h : Keeps b s)  : Keeps b (State.ppsLow s) := by
  unfold State.ppsLow
  try dsimp only
  repeat' with_reducible first | assumption | apply keeps_mk

theorem State.rtcCtl_keeps {b s : State} (h : Keeps b s) (v : Word) : Keeps b (State.rtcCtl s v) := by
  unfold State.rtcCtl
  try dsimp only
  repeat' with_reducible first | assumption | intro _ | apply State.setF_keeps | apply State.fin_keeps | apply State.when_keeps | apply keeps_mk

theorem State.armGrid_keeps {b s : State} (h : Keeps b s) (g : ℕ) (t : ℕ) : Keeps b (State.armGrid s g t) := by
  unfold State.armGrid
  try dsimp only
  repeat' with_reducible first | assumption | apply State.setGrid_keeps | apply State.setF_keeps | apply keeps_ite

theorem State.wrapCourse_keeps {b s : State} (h : Keeps b s) (g : ℕ) : Keeps b (State.wrapCourse s g) := by
  unfold State.wrapCourse
  try dsimp only
  repeat' with_reducible first
    | assumption | intro _ | apply State.setGrid_keeps | apply State.bump_keeps | apply State.when_keeps | apply State.setTime4_keeps
    | apply State.raiseBit_keeps

theorem State.relock_keeps {b s : State} (h : Keeps b s)  : Keeps b (State.relock s) := by
  unfold State.relock
  try dsimp only
  repeat' with_reducible first
    | assumption | intro _ | apply State.smplNow_keeps | apply State.setF_keeps | apply State.rateChecks_keeps | apply State.each_keeps
    | apply State.setGrid_keeps | apply State.restartPath_keeps | apply State.raiseBit_keeps | apply keeps_mk

theorem State.gridCtl_keeps {b s : State} (h : Keeps b s) (g : ℕ) (v : Word) : Keeps b (State.gridCtl s g v) := by
  unfold State.gridCtl
  try dsimp only
  repeat' with_reducible first
    | assumption | intro _ | apply State.fin_keeps | apply State.setF_keeps | apply State.when_keeps | apply State.stopGrid_keeps
    | apply keeps_ite

theorem State.smplCtl_keeps {b s : State} (h : Keeps b s) (v : Word) : Keeps b (State.smplCtl s v) := by
  unfold State.smplCtl
  try dsimp only
  repeat' with_reducible first
    | assumption | intro _ | apply State.fin_keeps | apply State.setF_keeps | apply State.when_keeps | apply State.rateChecks_keeps
    | apply State.smplLock_keeps | apply keeps_ite

theorem State.armGrids_keeps {b s : State} (h : Keeps b s) (gs : List ℕ) (t : ℕ) : Keeps b (State.armGrids s gs t) := by
  unfold State.armGrids
  try dsimp only
  repeat' with_reducible first
    | assumption | intro _ | apply State.fin_keeps | apply State.each_keeps | apply State.armGrid_keeps | apply keeps_ite

theorem State.mclkCtl_keeps {b s : State} (h : Keeps b s) (v : Word) : Keeps b (State.mclkCtl s v) := by
  unfold State.mclkCtl
  try dsimp only
  repeat' with_reducible first
    | assumption | intro _ | apply State.fin_keeps | apply State.setF_keeps | apply State.when_keeps | apply State.rateChecks_keeps
    | apply State.relock_keeps | apply keeps_ite

theorem State.courseFalls_keeps {b s : State} (h : Keeps b s) (g : ℕ) (at_ : ℕ) (edge : ℕ) : Keeps b (State.courseFalls s g at_ edge) := by
  unfold State.courseFalls
  try dsimp only
  repeat' with_reducible first
    | assumption | intro _ | apply State.when_keeps | apply State.reach_keeps | apply State.anchorSmpl_keeps | apply State.machineSteps_keeps
    | apply State.setGrid_keeps | apply State.setTime4_keeps | apply State.setTwo_keeps | apply State.mstamp_keeps | apply State.dueCourse_keeps

theorem State.acceptTrig_keeps {b s : State} (h : Keeps b s) (u : ℕ) (p : ℕ) (edge : Bool) (q : ℕ) : Keeps b (State.acceptTrig s u p edge q) :=
    by
  unfold State.acceptTrig
  try dsimp only
  repeat' with_reducible first
    | assumption | apply State.setTu_keeps | apply State.setF_keeps | apply State.setTwo_keeps | apply State.bumpW_keeps | apply keeps_ite

theorem State.unitEnter_keeps {b s : State} (h : Keeps b s) (u : ℕ) : Keeps b (State.unitEnter s u) := by
  unfold State.unitEnter
  try dsimp only
  repeat' with_reducible first | assumption | apply State.setF_keeps | apply State.setTu_keeps

theorem State.emptyStore_keeps {b s : State} (h : Keeps b s)  : Keeps b (State.emptyStore s) := by
  unfold State.emptyStore
  try dsimp only
  repeat' with_reducible first
    | assumption | intro _ | apply State.each_keeps | apply State.setStr_keeps | apply State.setF_keeps | apply State.setTg_keeps
    | apply State.unitEnter_keeps

theorem State.unitValue_keeps {b s : State} (h : Keeps b s) (u : ℕ) (v : TuVal) : Keeps b (State.unitValue s u v) := by
  unfold State.unitValue
  try dsimp only
  repeat' with_reducible first
    | assumption | apply State.setF_keeps | apply State.setTg_keeps | apply State.bumpW_keeps | apply State.acceptTrig_keeps | apply keeps_ite

theorem State.trigPulse_keeps {b s : State} (h : Keeps b s) (g : ℕ) : Keeps b (State.trigPulse s g) := by
  unfold State.trigPulse
  try dsimp only
  repeat' with_reducible first | assumption | intro _ | apply State.each_keeps | apply keeps_mk

theorem State.takeTrig_keeps {b s : State} (h : Keeps b s) (g : ℕ) (p : ℕ) (us : List (ℕ × Hit)) : Keeps b (State.takeTrig s g p us) := by
  unfold State.takeTrig
  try dsimp only
  repeat' with_reducible first
    | assumption | intro _ | apply State.each_keeps | apply State.setStr_keeps | apply State.setTg_keeps | apply State.bumpW_keeps
    | apply State.setTwo_keeps | apply State.setF_keeps | apply State.trigPulse_keeps

theorem State.refreshUnit_keeps {b s : State} (h : Keeps b s) (u : ℕ) : Keeps b (State.refreshUnit s u) := by
  unfold State.refreshUnit
  try dsimp only
  repeat' with_reducible first
    | assumption | intro _ | apply State.setF_keeps | apply State.when_keeps | apply State.setTu_keeps | apply State.raiseBit_keeps
    | apply keeps_ite

theorem State.refreshUnits_keeps {b s : State} (h : Keeps b s)  : Keeps b (State.refreshUnits s) := by
  unfold State.refreshUnits
  try dsimp only
  repeat' with_reducible first | assumption | intro _ | apply State.each_keeps | apply State.refreshUnit_keeps

theorem State.unitFresh_keeps {b s : State} (h : Keeps b s) (u : ℕ) : Keeps b (State.unitFresh s u) := by
  unfold State.unitFresh
  try dsimp only
  repeat' with_reducible first | assumption | apply State.setF_keeps | apply State.setTu_keeps

theorem State.unitRecompute_keeps {b s : State} (h : Keeps b s) (u : ℕ) : Keeps b (State.unitRecompute s u) := by
  unfold State.unitRecompute
  try dsimp only
  repeat' with_reducible first | assumption | apply State.setF_keeps | apply State.setTu_keeps | split

theorem State.detPacket_keeps {b s : State} (h : Keeps b s) (t : ℕ) (d : ℕ) (o : DetOut) (m : ℕ) : Keeps b (State.detPacket s t d o m) := by
  unfold State.detPacket
  try dsimp only
  repeat' with_reducible first
    | assumption | intro _ | apply State.each_keeps | apply State.setF_keeps | apply State.packetTo_keeps | apply keeps_ite

theorem State.detDeliver_keeps {b s : State} (h : Keeps b s) (t : ℕ) (d : ℕ) (o : DetOut) : Keeps b (State.detDeliver s t d o) := by
  unfold State.detDeliver
  try dsimp only
  repeat' with_reducible first
    | assumption | intro _ | apply State.setF_keeps | apply State.when_keeps | apply State.toUnits_keeps | apply State.each_keeps
    | apply State.deliverDet_keeps | apply State.detPacket_keeps

theorem State.detCtl_keeps {b s : State} (h : Keeps b s) (t : ℕ) (d : ℕ) (v : Word) : Keeps b (State.detCtl s t d v) := by
  unfold State.detCtl
  try dsimp only
  repeat' with_reducible first
    | assumption | intro _ | apply State.setW_keeps | apply State.fin_keeps | apply State.refreshUnits_keeps | apply State.setDet_keeps
    | apply State.when_keeps | apply State.idlePaths_keeps | apply keeps_ite

theorem State.fpTry_keeps {b s : State} (h : Keeps b s) (t : ℕ) (p : ℕ) (ok : Bool) (s1 : State) (hs1 : Keeps b s1) : Keeps b (State.fpTry s t p
    ok s1) := by
  unfold State.fpTry
  try dsimp only
  repeat' with_reducible first | assumption | apply State.fin_keeps | apply keeps_ite

theorem State.fpTaps_keeps {b s : State} (h : Keeps b s) (t : ℕ) (p : ℕ) (n : ℕ) : Keeps b (State.fpTaps s t p n) := by
  unfold State.fpTaps
  try dsimp only
  repeat' with_reducible first | assumption | intro _ | apply State.when_keeps | apply State.setF_keeps

theorem State.fadeStart_keeps {b s : State} (h : Keeps b s) (t : ℕ) (p : ℕ) (len : ℕ) : Keeps b (State.fadeStart s t p len) := by
  unfold State.fadeStart
  try dsimp only
  repeat' with_reducible first
    | assumption | intro _ | apply State.setPath_keeps | apply State.endFade_keeps | apply State.when_keeps | apply State.warmUp_keeps
    | apply State.startBlend_keeps | apply keeps_ite

theorem State.tuCtl_keeps {b s : State} (h : Keeps b s) (u : ℕ) (v : Word) : Keeps b (State.tuCtl s u v) := by
  unfold State.tuCtl
  try dsimp only
  repeat' with_reducible first
    | assumption | apply State.setW_keeps | apply State.fin_keeps | apply State.setF_keeps | apply State.unitFresh_keeps | apply keeps_ite

theorem State.unitCourse_keeps {b s : State} (h : Keeps b s) (u : ℕ) (p : ℕ) (vals : List TuVal) : Keeps b (State.unitCourse s u p vals) := by
  unfold State.unitCourse
  try dsimp only
  repeat' with_reducible first | assumption | apply State.setTu_keeps | apply State.unitValue_keeps | apply keeps_ite | split

theorem State.startStream_keeps {b s : State} (h : Keeps b s) (k : ℕ) : Keeps b (State.startStream s k) := by
  unfold State.startStream
  try dsimp only
  repeat' with_reducible first | assumption | apply State.refreshUnits_keeps | apply State.setStr_keeps | apply State.setF_keeps

theorem State.newEntry_keeps {b s : State} (h : Keeps b s) (k : ℕ) (ctl : Word) (src : Word) (rep : Word) : Keeps b (State.newEntry s k ctl src
    rep) := by
  unfold State.newEntry
  try dsimp only
  repeat' with_reducible first | assumption | apply State.setW_keeps | apply State.setStr_keeps | apply State.setTwo_keeps

theorem State.stopStream_keeps {b s : State} (h : Keeps b s) (k : ℕ) : Keeps b (State.stopStream s k) := by
  unfold State.stopStream
  try dsimp only
  repeat' with_reducible first
    | assumption | apply State.setF_keeps | apply State.flushAny_keeps | apply State.idlePaths_keeps | apply State.refreshUnits_keeps | split

theorem State.seWrite_keeps {b s : State} (h : Keeps b s) (k : ℕ) (w : ℕ) (v : Word) : Keeps b (State.seWrite s k w v) := by
  unfold State.seWrite
  try dsimp only
  repeat' with_reducible first
    | assumption | apply State.fin_keeps | apply State.setW_keeps | apply State.setF_keeps | apply State.startStream_keeps
    | apply State.stopStream_keeps | apply keeps_ite | split

theorem State.fillWord_keeps {b s : State} (h : Keeps b s) (p : ℕ) (n : ℕ) : Keeps b (State.fillWord s p n) := by
  unfold State.fillWord
  try dsimp only
  repeat' with_reducible first | assumption | apply State.setLane_keeps | apply keeps_ite

theorem State.fillWords_keeps {b s : State} (h : Keeps b s) (p n k : Nat) : Keeps b (State.fillWords p n k s) := by
  induction k generalizing s with
  | zero => exact h
  | succ k ih => exact ih (State.fillWord_keeps h ..)

theorem State.sendShare_keeps {b s : State} (h : Keeps b s) (n rows : Nat) (ws : List (List Sym)) : Keeps b (s.sendShare n rows ws) :=
  State.setLane_keeps h ..

theorem State.putFrame_keeps {b s : State} (h : Keeps b s) (p : Nat) (ys : List Sym) : Keeps b (s.putFrame p ys) := by
  unfold State.putFrame
  dsimp only
  refine State.each_keeps (State.each_keeps h _ _ ?_) _ _ ?_
  · exact fun t n k => State.fillWords_keeps k ..
  · exact fun t n k => State.sendShare_keeps k ..

theorem State.thawLane_keeps {b s : State} (h : Keeps b s) (n : ℕ) (ys : List Sym) : Keeps b (State.thawLane s n ys) := by
  unfold State.thawLane
  try dsimp only
  repeat' with_reducible first | assumption | apply State.setF_keeps | apply keeps_ite

theorem State.putLine_keeps {b s : State} (h : Keeps b s) (p : ℕ) (a2 : Hod) : Keeps b (State.putLine s p a2) := by
  unfold State.putLine
  try dsimp only
  repeat' with_reducible first | assumption | apply State.putFrame_keeps

theorem State.rxLane_keeps {b s : State} (h : Keeps b s) (n : ℕ) (l : LineIn) : Keeps b (State.rxLane s n l).1 := by
  unfold State.rxLane
  try dsimp only
  repeat' with_reducible first | assumption | apply State.thawLane_keeps | apply State.countBad_keeps

theorem State.sendGrout_keeps {b s : State} (h : Keeps b s) (p : ℕ) (n : ℕ) : Keeps b (State.sendGrout p s n) := by
  unfold State.sendGrout
  try dsimp only
  repeat' with_reducible first | assumption | apply State.setLane_keeps | apply State.fillWords_keeps

theorem State.rxPort_keeps {b s : State} (h : Keeps b s) (p : ℕ) (ls : List LineIn) : Keeps b (State.rxPort s p ls).1 := by
  unfold State.rxPort
  try dsimp only
  repeat' with_reducible first | assumption | intro _ | apply State.rxLane_keeps | apply State.each_keeps

theorem State.abortRelay_keeps {b s : State} (h : Keeps b s) (from_ : ℕ) (a2 : Hod) : Keeps b (State.abortRelay s from_ a2) := by
  unfold State.abortRelay
  try dsimp only
  repeat' with_reducible first | assumption | intro _ | apply State.when_keeps | apply State.putFrame_keeps

theorem State.tsqPut_keeps {b s : State} (h : Keeps b s) (p : ℕ) (exch : Bool) (tsid : ℕ) (stamp : ℕ) : Keeps b (State.tsqPut s p exch tsid
    stamp) := by
  unfold State.tsqPut
  try dsimp only
  repeat' with_reducible first
    | assumption | intro _ | apply State.when_keeps | apply State.bump_keeps | apply State.raiseBit_keeps | apply keeps_ite | split
    | apply keeps_mk

theorem State.setPort_keeps {b s : State} (h : Keeps b s) (p : ℕ) (a2 : Port) : Keeps b (State.setPort s p a2) := by
  unfold State.setPort
  try dsimp only
  repeat' with_reducible first | assumption | apply keeps_mk

theorem State.freeBuf_keeps {b s : State} (h : Keeps b s) (p : ℕ) (c : ℕ) : Keeps b (State.freeBuf s p c) := by
  unfold State.freeBuf
  try dsimp only
  repeat' with_reducible first | assumption | apply State.setPort_keeps

theorem State.popReq_keeps {b s : State} (h : Keeps b s) (p : ℕ) : Keeps b (State.popReq s p) := by
  unfold State.popReq
  try dsimp only
  repeat' with_reducible first | assumption | intro _ | apply State.when_keeps | apply State.setPort_keeps | apply State.freeBuf_keeps | split

theorem State.transmit_keeps {b s : State} (h : Keeps b s) (p : ℕ) (a2 : Hod) : Keeps b (State.transmit s p a2) := by
  unfold State.transmit
  try dsimp only
  repeat' with_reducible first | assumption | apply State.putLine_keeps | apply State.setPort_keeps

theorem State.sendTime_keeps {b s : State} (h : Keeps b s) (p : ℕ) (a2 : Hod) (t : ℕ) : Keeps b (State.sendTime s p a2 t) := by
  unfold State.sendTime
  try dsimp only
  repeat' with_reducible first
    | assumption | intro _ | apply State.transmit_keeps | apply State.setPort_keeps | apply State.when_keeps | apply State.tsqPut_keeps

theorem State.sendHod_keeps {b s : State} (h : Keeps b s) (p : ℕ) (c : ℕ) (a3 : Hod) : Keeps b (State.sendHod s p c a3) := by
  unfold State.sendHod
  try dsimp only
  repeat' with_reducible first | assumption | apply State.setPort_keeps | apply State.transmit_keeps | apply State.setF_keeps

theorem State.pumpGo_keeps {b s : State} (h : Keeps b s) (p : Nat) (q : List Nat) (l : List Wait) : Keeps b (s.pumpGo p q l).1 := by
  induction l generalizing s q with
  | nil => exact h
  | cons w r ih =>
    unfold State.pumpGo
    dsimp only
    repeat' with_reducible first
      | assumption | apply ih | apply State.sendTime_keeps | apply State.draw_keeps | apply State.freeBuf_keeps | apply State.sendHod_keeps
      | split

theorem State.pump_keeps {b s : State} (h : Keeps b s) (p : ℕ) : Keeps b (State.pump s p) := by
  unfold State.pump
  try dsimp only
  repeat' with_reducible first | assumption | apply State.pumpGo_keeps | apply State.setPort_keeps

theorem State.enqueue_keeps {b s : State} (h : Keeps b s) (p : ℕ) (from_ : Option ℕ) (a3 : Hod) : Keeps b (State.enqueue s p from_ a3) := by
  unfold State.enqueue
  try dsimp only
  repeat' with_reducible first
    | assumption | intro _ | apply State.when_keeps | apply State.bump_keeps | apply State.pump_keeps | apply State.setPort_keeps
    | apply keeps_ite

theorem State.answer_keeps {b s : State} (h : Keeps b s) (p : ℕ) (op : ℕ) (tag : ℕ) : Keeps b (State.answer s p op tag) := by
  unfold State.answer
  try dsimp only
  repeat' with_reducible first | assumption | apply State.enqueue_keeps

theorem State.serveUnlisted_keeps {b s : State} (h : Keeps b s) (p n : Nat) : Keeps b (State.serveUnlisted p n s) := by
  induction n generalizing s with
  | zero => exact h
  | succ n ih =>
    unfold State.serveUnlisted
    split
    · split
      · exact ih (State.answer_keeps (State.popReq_keeps (State.fin_keeps h _) _) ..)
      · exact h
    · exact h

theorem State.serve_keeps {b s : State} (h : Keeps b s) (p : ℕ) : Keeps b (State.serve s p) := by
  unfold State.serve
  try dsimp only
  repeat' with_reducible first | assumption | apply State.serveUnlisted_keeps | apply keeps_mk

theorem State.runReq_keeps {b s : State} (h : Keeps b s) (p : ℕ) (r : Reqd) (eff : State → State) (fin_ : State → State) (heff : ∀ t, Keeps b t →
    Keeps b (eff t)) (hfin_ : ∀ t, Keeps b t → Keeps b (fin_ t)) : Keeps b (State.runReq s p r eff fin_) := by
  unfold State.runReq
  try dsimp only
  repeat' with_reducible first
    | assumption | apply State.serve_keeps | apply State.popReq_keeps | apply heff | apply hfin_ | apply keeps_ite | split | apply keeps_mk

theorem State.sendPlain_keeps {b s : State} (h : Keeps b s) (p : ℕ) (a2 : Hod) : Keeps b (State.sendPlain s p a2) := by
  unfold State.sendPlain
  try dsimp only
  repeat' with_reducible first | assumption | apply State.transmit_keeps

theorem State.sendLink_keeps {b s : State} (h : Keeps b s) (p : ℕ) (nak : Bool) : Keeps b (State.sendLink s p nak) := by
  unfold State.sendLink
  try dsimp only
  repeat' with_reducible first | assumption | apply State.sendPlain_keeps | apply State.setPort_keeps

theorem State.setPstate_keeps {b s : State} (h : Keeps b s) (p : ℕ) (v : ℕ) : Keeps b (State.setPstate s p v) := by
  unfold State.setPstate
  try dsimp only
  repeat' with_reducible first | assumption | apply State.setF_keeps | apply keeps_ite

theorem State.sendRoutes_keeps {b s : State} (h : Keeps b s) (kind : ℕ) (hids : List ℕ) : Keeps b (State.sendRoutes s kind hids) := by
  unfold State.sendRoutes
  try dsimp only
  repeat' with_reducible first | assumption | apply State.sendPlain_keeps | apply keeps_ite

theorem State.sendHello_keeps {b s : State} (h : Keeps b s) (p : ℕ) : Keeps b (State.sendHello s p) := by
  unfold State.sendHello
  try dsimp only
  repeat' with_reducible first | assumption | apply State.sendPlain_keeps

theorem State.mgpResult_keeps {b s : State} (h : Keeps b s)  : Keeps b (State.mgpResult s) := by
  unfold State.mgpResult
  try dsimp only
  repeat' with_reducible first | assumption | apply keeps_ite | split | apply keeps_mk

theorem State.endReq_keeps {b s : State} (h : Keeps b s) (p : ℕ) : Keeps b (State.endReq s p) := by
  unfold State.endReq
  try dsimp only
  repeat' with_reducible first
    | assumption | intro _ | apply State.serve_keeps | apply State.when_keeps | apply State.popReq_keeps | apply State.answer_keeps | split

theorem State.endAccess_keeps {b s : State} (h : Keeps b s) (who : ℕ) : Keeps b (State.endAccess s who) := by
  unfold State.endAccess
  try dsimp only
  repeat' with_reducible first
    | assumption | intro _ | apply State.mgpResult_keeps | apply State.endReq_keeps | apply State.when_keeps | apply keeps_ite | split
    | apply keeps_mk

theorem State.pushReq_keeps {b s : State} (h : Keeps b s) (p : ℕ) (r : Reqd) : Keeps b (State.pushReq s p r) := by
  unfold State.pushReq
  try dsimp only
  repeat' with_reducible first | assumption | apply State.setPort_keeps

theorem State.relay_keeps {b s : State} (h : Keeps b s) (from_ : ℕ) (a2 : Hod) : Keeps b (State.relay s from_ a2) := by
  unfold State.relay
  try dsimp only
  repeat' with_reducible first | assumption | apply State.pump_keeps | apply State.setPort_keeps

theorem State.linkOnce_keeps {b s : State} (h : Keeps b s) (i : ℕ) (code : ℕ) (src : ℕ) (detail : ℕ) : Keeps b (State.linkOnce s i code src
    detail) := by
  unfold State.linkOnce
  try dsimp only
  repeat' with_reducible first | assumption | apply State.raiseBit_keeps | apply keeps_ite

theorem State.addRoute_keeps {b s : State} (h : Keeps b s) (p : ℕ) (hid : ℕ) : Keeps b (State.addRoute s p hid).1 := by
  unfold State.addRoute
  try dsimp only
  repeat' with_reducible first | assumption | apply State.raiseBit_keeps | apply State.setPort_keeps | apply State.setW_keeps | split

theorem State.misdirect_keeps {b s : State} (h : Keeps b s) (p : ℕ) (hid : ℕ) : Keeps b (State.misdirect s p hid) := by
  unfold State.misdirect
  try dsimp only
  repeat' with_reducible first | assumption | apply State.linkOnce_keeps | apply State.bump_keeps

theorem State.setDepth_keeps {b s : State} (h : Keeps b s) (d : ℕ) : Keeps b (State.setDepth s d) := by
  unfold State.setDepth
  try dsimp only
  repeat' with_reducible first
    | assumption | intro _ | apply State.each_keeps | apply State.setF_keeps | apply State.sendHello_keeps | apply keeps_ite

theorem State.addRoutes_keeps {b s : State} (h : Keeps b s) (p : Nat) (hids : List Nat) : Keeps b (s.addRoutes p hids) := by
  unfold State.addRoutes
  dsimp only
  split
  · exact h
  · refine State.sendRoutes_keeps ?_ ..
    suffices k : ∀ x : State × List Nat, Keeps b x.1 →
        Keeps b (hids.foldl (fun (a : State × List Nat) i => ((a.1.addRoute p i).1, if (a.1.addRoute p i).2 then a.2 ++ [i] else a.2)) x).1 from
      k (s, []) h
    induction hids with
    | nil => exact fun x k => k
    | cons i r ih => exact fun x k => ih _ (State.addRoute_keeps k p i)

theorem State.nak_keeps {b s : State} (h : Keeps b s) (p : ℕ) : Keeps b (State.nak s p) := by
  unfold State.nak
  try dsimp only
  repeat' with_reducible first | assumption | apply State.sendLink_keeps | apply keeps_ite

theorem State.delRoutes_keeps {b s : State} (h : Keeps b s) (p : ℕ) (named : ℕ → Bool) : Keeps b (State.delRoutes s p named) := by
  unfold State.delRoutes
  try dsimp only
  repeat' with_reducible first | assumption | intro _ | apply State.sendRoutes_keeps | apply State.each_keeps | apply State.setW_keeps

theorem State.linkDown_keeps {b s : State} (h : Keeps b s) (p : ℕ) : Keeps b (State.linkDown s p) := by
  unfold State.linkDown
  try dsimp only
  repeat' with_reducible first
    | assumption | intro _ | apply State.each_keeps | apply State.freeBuf_keeps | apply State.bump_keeps | apply State.setF_keeps
    | apply State.setPort_keeps | apply State.when_keeps | apply State.setW_keeps | apply State.delRoutes_keeps | apply State.setDepth_keeps
    | apply State.srcLost_keeps | split

theorem inTurn_keeps {b s : State} (h : Keeps b s) (p : Nat) (r : Reqd) (eff fin_ : State → State) (heff : ∀ t, Keeps b t → Keeps b (eff t))
    (hfin : ∀ t, Keeps b t → Keeps b (fin_ t)) : Keeps b (inTurn p r eff fin_ s) := by
  unfold inTurn
  repeat' with_reducible first
    | assumption | exact State.misdirect_keeps h .. | exact State.pushReq_keeps h .. | refine State.runReq_keeps ?_ _ _ _ _ heff hfin | split

theorem request_keeps {b s : State} (h : Keeps b s) (typ p op tag : Nat) (eff : State → State) (heff : ∀ t, Keeps b t → Keeps b (eff t)) :
    Keeps b (request typ p op tag eff s) := by
  unfold request
  dsimp only
  split
  · exact h
  · split
    · exact State.answer_keeps (State.fin_keeps h _) ..
    · exact inTurn_keeps h _ _ _ _ heff fun t k => State.answer_keeps k ..

theorem State.movePrimary_keeps {b s : State} (h : Keeps b s) (old : ℕ) : Keeps b (State.movePrimary s old) := by
  unfold State.movePrimary
  try dsimp only
  repeat' with_reducible first | assumption | apply State.setPort_keeps | apply keeps_ite

theorem State.linkUp_keeps {b s : State} (h : Keeps b s) (p : ℕ) : Keeps b (State.linkUp s p) := by
  unfold State.linkUp
  try dsimp only
  repeat' with_reducible first
    | assumption | intro _ | apply State.setF_keeps | apply State.setPort_keeps | apply State.when_keeps | apply State.setW_keeps
    | apply State.raiseBit_keeps | apply State.sendHello_keeps | apply keeps_mk

theorem State.laneOff_keeps {b s : State} (h : Keeps b s) (n : ℕ) : Keeps b (State.laneOff s n) := by
  unfold State.laneOff
  try dsimp only
  repeat' with_reducible first | assumption | apply State.setF_keeps | apply State.setLane_keeps

theorem State.toDetect_keeps {b s : State} (h : Keeps b s) (p : ℕ) (quiet : Bool) : Keeps b (State.toDetect s p quiet) := by
  unfold State.toDetect
  try dsimp only
  repeat' with_reducible first
    | assumption | intro _ | apply State.each_keeps | apply State.setF_keeps | apply State.setLane_keeps | apply State.setPstate_keeps
    | apply keeps_ite

theorem State.failPort_keeps {b s : State} (h : Keeps b s) (p : ℕ) (cause : ℕ) : Keeps b (State.failPort s p cause) := by
  unfold State.failPort
  try dsimp only
  repeat' with_reducible first
    | assumption | intro _ | apply State.each_keeps | apply State.setF_keeps | apply State.bump_keeps | apply State.raise_keeps
    | apply State.toDetect_keeps

theorem State.toLst_keeps {b s : State} (h : Keeps b s) (n : ℕ) (v : ℕ) : Keeps b (State.toLst s n v) := by
  unfold State.toLst
  try dsimp only
  repeat' with_reducible first | assumption | apply State.setF_keeps | apply State.setLane_keeps

theorem State.passOrder_keeps {b s : State} (h : Keeps b s) (p : ℕ) (rev : Bool) (js : List ℕ) : Keeps b (State.passOrder s p rev js) := by
  unfold State.passOrder
  try dsimp only
  repeat' with_reducible first
    | assumption | intro _ | apply State.failPort_keeps | apply State.each_keeps | apply State.toLst_keeps | apply State.setLane_keeps
    | apply State.laneOff_keeps | apply State.setF_keeps | apply State.when_keeps | apply State.raiseBit_keeps | apply keeps_ite

theorem State.orderDecide_keeps {b s : State} (h : Keeps b s) (p : ℕ) (timeUp : Bool) : Keeps b (State.orderDecide s p timeUp) := by
  unfold State.orderDecide
  try dsimp only
  repeat' with_reducible first | assumption | apply State.failPort_keeps | apply State.passOrder_keeps | apply keeps_ite | split

theorem State.leaveUp_keeps {b s : State} (h : Keeps b s) (p : ℕ) (cause : ℕ) (log : Bool) : Keeps b (State.leaveUp s p cause log) := by
  unfold State.leaveUp
  try dsimp only
  repeat' with_reducible first
    | assumption | intro _ | apply State.each_keeps | apply State.setF_keeps | apply State.when_keeps | apply State.linkDown_keeps
    | apply State.toDetect_keeps | apply State.raise_keeps | apply keeps_ite

theorem State.portOff_keeps {b s : State} (h : Keeps b s) (p : ℕ) : Keeps b (State.portOff s p) := by
  unfold State.portOff
  try dsimp only
  repeat' with_reducible first
    | assumption | intro _ | apply State.setPstate_keeps | apply State.each_keeps | apply State.laneOff_keeps | apply State.setF_keeps
    | apply State.when_keeps | apply State.linkDown_keeps | apply keeps_ite

theorem prbsCtl_keeps {b s : State} (h : Keeps b s) (r : Req) (q : Fin 8) (v : Word) : Keeps b (prbsCtl r q v s) := by
  unfold prbsCtl
  try dsimp only
  repeat' with_reducible first
    | assumption | intro _ | apply regWrite_keeps | apply State.fin_keeps | apply State.when_keeps | apply State.setPrbs_keeps
    | apply State.setF_keeps | apply State.setW_keeps | apply State.setTwo_keeps | apply keeps_ite | split

theorem State.toEq_keeps {b s : State} (h : Keeps b s) (p : ℕ) : Keeps b (State.toEq s p) := by
  unfold State.toEq
  try dsimp only
  repeat' with_reducible first | assumption | intro _ | apply State.each_keeps | apply State.toLst_keeps | apply State.setLane_keeps

theorem State.clearBackoff_keeps {b s : State} (h : Keeps b s) (p : ℕ) : Keeps b (State.clearBackoff s p) := by
  unfold State.clearBackoff
  try dsimp only
  repeat' with_reducible first | assumption | intro _ | apply State.each_keeps | apply State.setF_keeps

theorem State.goUp_keeps {b s : State} (h : Keeps b s) (p : ℕ) : Keeps b (State.goUp s p) := by
  unfold State.goUp
  try dsimp only
  repeat' with_reducible first
    | assumption | intro _ | apply State.each_keeps | apply State.toLst_keeps | apply State.bump_keeps | apply State.setLane_keeps
    | apply State.setBit_keeps | apply State.setPstate_keeps | apply State.clearBackoff_keeps | apply State.raise_keeps
    | apply State.linkUp_keeps

theorem State.trainPort_keeps {b s : State} (h : Keeps b s) (p : ℕ) : Keeps b (State.trainPort s p) := by
  unfold State.trainPort
  try dsimp only
  repeat' with_reducible first | assumption | apply State.toDetect_keeps | apply keeps_ite

theorem State.thaw_keeps {b s : State} (h : Keeps b s) (p : ℕ) : Keeps b (State.thaw s p) := by
  unfold State.thaw
  try dsimp only
  repeat' with_reducible first | assumption | intro _ | apply State.each_keeps | apply State.setF_keeps

theorem State.roleWritten_keeps {b s : State} (h : Keeps b s) (p : ℕ) (old : ℕ) (retrain : Bool) : Keeps b (State.roleWritten s p old retrain) :=
    by
  unfold State.roleWritten
  try dsimp only
  repeat' with_reducible first
    | assumption | apply State.clearBackoff_keeps | apply State.trainPort_keeps | apply State.leaveUp_keeps | apply keeps_ite

theorem quadCtl_keeps {b s : State} (h : Keeps b s) (r : Req) (q : Fin 8) (v : Word) : Keeps b (quadCtl r q v s) := by
  unfold quadCtl
  try dsimp only
  repeat' with_reducible first
    | assumption | intro _ | apply regWrite_keeps | apply State.fin_keeps | apply State.when_keeps | apply State.portOff_keeps
    | apply State.setW_keeps | apply State.setF_keeps | apply State.roleWritten_keeps | split

theorem State.tryUp_keeps {b s : State} (h : Keeps b s) (p : ℕ) : Keeps b (State.tryUp s p) := by
  unfold State.tryUp
  try dsimp only
  repeat' with_reducible first | assumption | apply State.goUp_keeps | apply keeps_ite

theorem State.malformedHod_keeps {b s : State} (h : Keeps b s) (p : ℕ) (a2 : Hod) : Keeps b (State.malformedHod s p a2) := by
  unfold State.malformedHod
  try dsimp only
  repeat' with_reducible first | assumption | apply State.freeBuf_keeps | apply State.linkOnce_keeps | apply State.bump_keeps

theorem State.takeReq_keeps {b s : State} (h : Keeps b s) (p : ℕ) (a2 : Hod) : Keeps b (State.takeReq s p a2) := by
  unfold State.takeReq
  try dsimp only
  repeat' with_reducible first
    | assumption | apply State.answer_keeps | apply State.freeBuf_keeps | apply State.fin_keeps | apply State.pushReq_keeps
    | apply State.serve_keeps | apply keeps_ite

theorem State.takeHod_keeps {b s : State} (h : Keeps b s) (p : ℕ) (a : Arrival) : Keeps b (State.takeHod s p a) := by
  unfold State.takeHod
  try dsimp only
  repeat' with_reducible first
    | assumption | apply State.malformedHod_keeps | apply State.freeBuf_keeps | apply State.misdirect_keeps | apply State.takeReq_keeps
    | apply keeps_ite

theorem State.accept_keeps {b s : State} (h : Keeps b s) (p : ℕ) (a : Arrival) : Keeps b (State.accept s p a) := by
  unfold State.accept
  try dsimp only
  repeat' with_reducible first
    | assumption | apply State.setPort_keeps | apply State.takeHod_keeps | apply State.setF_keeps | apply State.sendLink_keeps | apply keeps_ite

theorem State.arrive_keeps {b s : State} (h : Keeps b s) (p : ℕ) (a : Arrival) : Keeps b (State.arrive p s a) := by
  unfold State.arrive
  try dsimp only
  repeat' with_reducible first
    | assumption | intro _ | apply State.bump_keeps | apply State.nak_keeps | apply State.when_keeps | apply State.linkOnce_keeps
    | apply State.freeBuf_keeps | apply State.accept_keeps | apply State.sendLink_keeps | apply keeps_ite

theorem State.replayLimit_keeps {b s : State} (h : Keeps b s) (p : ℕ) : Keeps b (State.replayLimit s p) := by
  unfold State.replayLimit
  try dsimp only
  repeat' with_reducible first | assumption | apply State.raiseBit_keeps | apply State.leaveUp_keeps

theorem State.resend_keeps {b s : State} (h : Keeps b s) (p : ℕ) : Keeps b (State.resend s p) := by
  unfold State.resend
  try dsimp only
  repeat' with_reducible first
    | assumption | intro _ | apply State.replayLimit_keeps | apply State.each_keeps | apply State.bumpW_keeps | apply State.setPort_keeps
    | apply State.transmit_keeps | apply keeps_ite

theorem State.eventGone_keeps {b s : State} (h : Keeps b s) (p : ℕ) : Keeps b (State.eventGone s p) := by
  unfold State.eventGone
  try dsimp only
  repeat' with_reducible first | assumption | apply State.pump_keeps | apply State.setPort_keeps

theorem State.porTile_keeps {b s : State} (h : Keeps b s) (t : ℕ) : Keeps b (State.porTile s t) := by
  unfold State.porTile
  try dsimp only
  repeat' with_reducible first
    | assumption | intro _ | apply State.dropRegs_keeps | apply State.setTile_keeps | apply State.csInForce_keeps | apply State.showPairs_keeps
    | apply State.tileStop_keeps

theorem State.resetTile_keeps {b s : State} (h : Keeps b s) (t : ℕ) : Keeps b (State.resetTile s t) := by
  unfold State.resetTile
  try dsimp only
  repeat' with_reducible first
    | assumption | intro _ | apply State.porTile_keeps | apply State.setW_keeps | apply State.setTile_keeps | apply State.setF_keeps
    | apply State.each_keeps | apply State.csInForce_keeps | apply State.failBad_keeps | apply State.showPairs_keeps | apply State.tileStop_keeps

theorem State.porBlock_keeps {b s : State} (h : Keeps b s) (kind : ℕ) (i : ℕ) : Keeps b (State.porBlock s kind i) := by
  unfold State.porBlock
  try dsimp only
  repeat' with_reducible first
    | assumption | intro _ | apply State.porTile_keeps | apply State.each_keeps | apply State.setPath_keeps | apply State.dropRegs_keeps
    | apply State.setDet_keeps | apply State.dropMem_keeps | apply State.setMason_keeps | apply State.setPort_keeps | apply State.setTu_keeps
    | apply State.csClear_keeps | apply State.csRestore_keeps | apply keeps_ite | split | apply keeps_mk

theorem State.optQuad_keeps {b s : State} (h : Keeps b s) (q : ℕ) (a2 : ℕ) : Keeps b (State.optQuad s q a2) := by
  unfold State.optQuad
  try dsimp only
  repeat' with_reducible first | assumption | apply State.setF_keeps

theorem State.loadQuad_keeps {b s : State} (h : Keeps b s) (q : ℕ) : Keeps b (State.loadQuad s q) := by
  unfold State.loadQuad
  try dsimp only
  repeat' with_reducible first | assumption | apply State.optQuad_keeps

theorem State.resetBlock_keeps {b s : State} (h : Keeps b s) (kind : ℕ) (i : ℕ) : Keeps b (State.resetBlock s kind i) := by
  unfold State.resetBlock
  try dsimp only
  repeat' with_reducible first
    | assumption | intro _ | apply State.resetTile_keeps | apply State.setW_keeps | apply State.porBlock_keeps | apply State.each_keeps
    | apply State.loadQuad_keeps | apply State.trainPort_keeps | split

theorem State.drawCount_keeps {b s : State} (h : Keeps b s) (full : ℕ) : Keeps b (State.drawCount s full).1 := by
  unfold State.drawCount
  try dsimp only
  repeat' with_reducible first | assumption | apply State.draw_keeps

theorem State.stopRun_keeps {b s : State} (h : Keeps b s)  : Keeps b (State.stopRun s) := by
  unfold State.stopRun
  try dsimp only
  repeat' with_reducible first | assumption | apply State.drawCount_keeps | apply State.raiseBit_keeps | apply State.setF_keeps | apply keeps_ite

theorem State.setCause_keeps {b s : State} (h : Keeps b s) (src : ℕ) : Keeps b (State.setCause s src) := by
  unfold State.setCause
  try dsimp only
  repeat' with_reducible first | assumption | apply State.setBit_keeps | apply State.setF_keeps | apply State.bump_keeps | apply keeps_ite

theorem State.hubReset_keeps {b s : State} (h : Keeps b s) (src : Nat) : Keeps b (s.hubReset src) := by
  unfold State.hubReset
  dsimp only
  have k : Keeps b (if 2 ≤ src then s.stopRun.endMeters else s) := keeps_ite (State.endMeters_keeps (State.stopRun_keeps h)) h
  generalize (if 2 ≤ src then s.stopRun.endMeters else s) = a at k ⊢
  have k1 (x1 x2 x3 x4 x5 x6 x7 x8 x9 x10 x11 x12 x13) : Keeps b { State.reset with
      regs := a.regs.filter fun x => keptReg src x.1, nvm := a.nvm, pending := a.pending, free := a.free, cpl := a.cpl, aon := a.aon, pgood := a.pgood
      brown := a.brown, rstLow := a.rstLow, vbat := a.vbat, rtc := a.rtc, rtcPhase := a.rtcPhase, rtcLoad := a.rtcLoad, bad := x1, csDig := x2, csStop := x3
      meters := x4, nv := x5, enDue := x6, secret := x7, tap := x8, bsrIn := x9, bsrOut := x10, rel := x11
      csPend := x12, csWait := x13 } :=
    ⟨k.1, fun w => ⟨Tab.wf_filter _ _ _ (k.2 w).1, ⟨rfl, (k.2 w).2.1.2⟩, rfl⟩⟩
  repeat' with_reducible first
    | exact k1 .. | apply State.csWake_keeps
    | apply State.csInForce_keeps | apply State.csRestore_keeps | apply State.evSaved_keeps | apply State.setF_keeps
    | apply State.setCause_keeps | split

theorem State.cutBatch_keeps {b s : State} (h : Keeps b s) (n : ℕ) : Keeps b (State.cutBatch s n) := by
  unfold State.cutBatch
  try dsimp only
  repeat' with_reducible first
    | assumption | intro _ | apply State.writeRows_keeps | apply State.csLate_keeps | apply State.when_keeps | apply State.raiseBit_keeps
    | apply keeps_ite | split | apply keeps_mk

theorem State.deferredReset_keeps {b s : State} (h : Keeps b s) (src : ℕ) (n : ℕ) : Keeps b (State.deferredReset s src n) := by
  unfold State.deferredReset
  try dsimp only
  repeat' with_reducible first | assumption | apply State.hubReset_keeps | apply State.cutBatch_keeps

theorem State.lockup_keeps {b s : State} (h : Keeps b s) (src : ℕ) (detail : ℕ) (n : ℕ) : Keeps b (State.lockup s src detail n) := by
  unfold State.lockup
  try dsimp only
  repeat' with_reducible first | assumption | apply State.raiseBit_keeps | apply State.deferredReset_keeps | apply keeps_ite

theorem State.finishBatch_keeps {b s : State} (h : Keeps b s)  : Keeps b (State.finishBatch s) := by
  unfold State.finishBatch
  try dsimp only
  repeat' with_reducible first | assumption | apply State.writeRows_keeps | split | apply keeps_mk

theorem State.segReset_keeps {b s : State} (h : Keeps b s) (seg : ℕ) : Keeps b (State.segReset s seg) := by
  unfold State.segReset
  try dsimp only
  repeat' with_reducible first | assumption | apply State.porBlock_keeps | split

theorem State.stopKiln_keeps {b s : State} (h : Keeps b s)  : Keeps b (State.stopKiln s) := by
  unfold State.stopKiln
  try dsimp only
  repeat' with_reducible first
    | assumption | intro _ | apply State.when_keeps | apply State.stopRun_keeps | apply State.segReset_keeps | apply State.setF_keeps
    | apply keeps_ite | split | apply keeps_mk

theorem State.modeTo_keeps {b s : State} (h : Keeps b s) (new : ℕ) (who : ℕ) : Keeps b (State.modeTo s new who) := by
  unfold State.modeTo
  try dsimp only
  repeat' with_reducible first | assumption | intro _ | apply State.when_keeps | apply State.setF_keeps | apply State.raiseBit_keeps

theorem State.masonGo_keeps {b s : State} (h : Keeps b s) (m : ℕ) : Keeps b (State.masonGo s m) := by
  unfold State.masonGo
  try dsimp only
  repeat' with_reducible first | assumption | apply State.setMason_keeps | apply State.setF_keeps

theorem State.toHold_keeps {b s : State} (h : Keeps b s)  : Keeps b (State.toHold s) := by
  unfold State.toHold
  try dsimp only
  repeat' with_reducible first
    | assumption | intro _ | apply State.modeTo_keeps | apply State.each_keeps | apply State.when_keeps | apply State.rateCheck_keeps
    | apply State.setF_keeps | apply State.masonGo_keeps | apply keeps_mk

theorem State.tryHold_keeps {b s : State} (h : Keeps b s)  : Keeps b (State.tryHold s) := by
  unfold State.tryHold
  try dsimp only
  repeat' with_reducible first | assumption | apply State.toHold_keeps | apply keeps_ite

theorem State.leaveAcquire_keeps {b s : State} (h : Keeps b s)  : Keeps b (State.leaveAcquire s) := by
  unfold State.leaveAcquire
  try dsimp only
  repeat' with_reducible first
    | assumption | intro _ | apply State.each_keeps | apply State.endWindow_keeps | apply State.flushAny_keeps | apply State.handSlots_keeps
    | apply keeps_ite

theorem State.stopData_keeps {b s : State} (h : Keeps b s)  : Keeps b (State.stopData s) := by
  unfold State.stopData
  try dsimp only
  repeat' with_reducible first
    | assumption | intro _ | apply State.each_keeps | apply State.endMeters_keeps | apply State.tileStop_keeps | apply State.stopGrid_keeps
    | apply State.masonReset_keeps | apply State.ppsLow_keeps | apply State.excOff_keeps | apply State.setF_keeps | apply keeps_mk

theorem State.endTest_keeps {b s : State} (h : Keeps b s) (result : ℕ) (patterns : ℕ) : Keeps b (State.endTest s result patterns) := by
  unfold State.endTest
  try dsimp only
  repeat' with_reducible first
    | assumption | intro _ | apply State.setF_keeps | apply State.resetBlock_keeps | apply State.when_keeps | apply State.raiseBit_keeps
    | apply keeps_ite | split | apply keeps_mk

theorem State.toSafe_keeps {b s : State} (h : Keeps b s) (who : ℕ) (cause : ℕ) : Keeps b (State.toSafe s who cause) := by
  unfold State.toSafe
  try dsimp only
  repeat' with_reducible first
    | assumption | intro _ | apply State.stopData_keeps | apply State.leaveAcquire_keeps | apply State.modeTo_keeps | apply State.raiseBit_keeps
    | apply State.when_keeps | apply State.drawCount_keeps | apply State.stopKiln_keeps | apply State.endTest_keeps | apply State.each_keeps
    | apply State.trainPort_keeps | split | refine Keeps.of_fst (by assumption) ?_ | apply keeps_mk

theorem State.endRelease_keeps {b s : State} (h : Keeps b s)  : Keeps b (State.endRelease s) := by
  unfold State.endRelease
  try dsimp only
  repeat' with_reducible first | assumption | apply State.toSafe_keeps | apply State.tryHold_keeps | split | apply keeps_mk

theorem State.enterSafe_keeps {b s : State} (h : Keeps b s) (cause : ℕ) : Keeps b (State.enterSafe s cause) := by
  unfold State.enterSafe
  try dsimp only
  repeat' with_reducible first | assumption | apply State.toSafe_keeps | apply keeps_ite

theorem State.csEnd_keeps {b s : State} (h : Keeps b s) (c : Status) : Keeps b (State.csEnd s c) := by
  unfold State.csEnd
  try dsimp only
  repeat' with_reducible first | assumption | apply State.fin_keeps | apply State.setF_keeps

theorem State.csCommand_keeps {b s : State} (h : Keeps b s) (v : Nat) (next : State → State) (p : CsPend) : Keeps b (s.csCommand v next p) := by
  have k := State.csChange_keeps h v next p
  unfold State.csCommand
  split
  · next e => exact State.csEnd_keeps (Keeps.of_fst e k) _
  · next e => exact Keeps.of_fst e k

theorem csCmd_keeps {b s : State} (h : Keeps b s) (r : Req) (locked : State → Bool) (refuse : Bool) (eff : State → State) (heff : ∀ t, Keeps b t
    → Keeps b (eff t)) : Keeps b (csCmd r locked refuse eff s) := by
  unfold csCmd
  try dsimp only
  repeat' with_reducible first
    | assumption | intro _ | apply State.csEnd_keeps | apply State.when_keeps | apply State.csRefuse_keeps | apply State.fin_keeps | apply heff
    | apply keeps_ite | split

theorem State.putTime_keeps {b s : State} (h : Keeps b s) (p : ℕ) (a2 : Hod) (t : ℕ) : Keeps b (State.putTime s p a2 t) := by
  unfold State.putTime
  try dsimp only
  repeat' with_reducible first | assumption | apply State.sendTime_keeps | apply State.setPort_keeps | apply keeps_ite

theorem State.meterShift_keeps {b s : State} (h : Keeps b s) (d : ℤ) : Keeps b (State.meterShift s d) := by
  unfold State.meterShift
  try dsimp only
  repeat' with_reducible first | assumption | intro _ | apply State.each_keeps | apply State.setMeter_keeps

theorem State.primaryMeas_keeps {b s : State} (h : Keeps b s) (q : ℕ) (th : ℤ) (rtt : ℤ) : Keeps b (State.primaryMeas s q th rtt) := by
  unfold State.primaryMeas
  try dsimp only
  repeat' with_reducible first | assumption | apply State.roundTrip_keeps | apply State.setF_keeps | apply State.measure_keeps

theorem State.tsqPop_keeps {b s : State} (h : Keeps b s) (r : Req) (p : ℕ) : Keeps b (State.tsqPop s r p) := by
  unfold State.tsqPop
  try dsimp only
  repeat' with_reducible first | assumption | apply State.finData_keeps | apply State.setShadows_keeps | split | apply keeps_mk

theorem State.meterStep_keeps {b s : State} (h : Keeps b s) (at_ : ℕ) : Keeps b (State.meterStep s at_) := by
  unfold State.meterStep
  try dsimp only
  repeat' with_reducible first | assumption | intro _ | apply State.each_keeps | apply State.draw_keeps | apply State.endInterval_keeps

theorem State.forcedSlew_keeps {b s : State} (h : Keeps b s)  : Keeps b (State.forcedSlew s) := by
  unfold State.forcedSlew
  try dsimp only
  repeat' with_reducible first | assumption | apply State.servoTo_keeps | apply State.setRate_keeps

theorem State.secondMeas_keeps {b s : State} (h : Keeps b s) (q : ℕ) (th : ℤ) : Keeps b (State.secondMeas s q th) := by
  unfold State.secondMeas
  try dsimp only
  repeat' with_reducible first
    | assumption | apply State.setF_keeps | apply State.setW_keeps | apply State.showQuality_keeps | apply State.routeDecide_keeps
    | apply keeps_ite | split | apply keeps_mk

theorem State.setXch_keeps {b s : State} (h : Keeps b s) (p : ℕ) (a2 : Xchg) : Keeps b (State.setXch s p a2) := by
  unfold State.setXch
  try dsimp only
  repeat' with_reducible first | assumption | apply keeps_mk

theorem State.ttStep_keeps {b s : State} (h : Keeps b s) (v : Word) : Keeps b (State.ttStep s v) := by
  unfold State.ttStep
  try dsimp only
  repeat' with_reducible first
    | assumption | apply State.fin_keeps | apply State.setF_keeps | apply State.forcedSlew_keeps | apply keeps_ite | split | apply keeps_mk

theorem ttStepWrite_keeps {b a : State} (h : Keeps b a) (r : Req) (v : Word) : Keeps b (ttStepWrite r v a) := by
  unfold ttStepWrite
  try dsimp only
  repeat' with_reducible first | assumption | intro _ | apply regWrite_keeps | apply State.ttStep_keeps

theorem State.badResp_keeps {b s : State} (h : Keeps b s)  : Keeps b (State.badResp s) := by
  unfold State.badResp
  try dsimp only
  repeat' with_reducible first | assumption | apply State.bump_keeps

theorem State.dstore_keeps {b s : State} (h : Keeps b s) (m : ℕ) (a : ℕ) (n : ℕ) (v : Word) : Keeps b (State.dstore s m a n v) := by
  unfold State.dstore
  try dsimp only
  repeat' with_reducible first | assumption | apply State.setBytes_keeps | apply keeps_ite | split | apply keeps_mk

theorem State.dstores_keeps {b s : State} (h : Keeps b s) (m a : Nat) (l : List Word) : Keeps b (s.dstores m a l) := by
  induction l generalizing s a with
  | nil => exact h
  | cons v r ih => exact ih (State.dstore_keeps h ..) _

theorem State.retire_keeps {b s : State} (h : Keeps b s) (m : ℕ) (pc : ℕ) : Keeps b (State.retire s m pc) := by
  unfold State.retire
  try dsimp only
  repeat' with_reducible first | assumption | apply State.setMason_keeps | apply State.setF_keeps | apply State.setTwo_keeps

theorem State.doubleFault_keeps {b s : State} (h : Keeps b s) (m : ℕ) (cause : ℕ) (tval : ℕ) : Keeps b (State.doubleFault s m cause tval) := by
  unfold State.doubleFault
  try dsimp only
  repeat' with_reducible first
    | assumption | intro _ | apply State.raise_keeps | apply State.setF_keeps | apply State.draw_keeps | apply State.lockup_keeps
    | apply State.when_keeps | apply State.handSlots_keeps

theorem State.firstTrap_keeps {b s : State} (h : Keeps b s) (m : ℕ) (cause : ℕ) (tval : ℕ) : Keeps b (State.firstTrap s m cause tval) := by
  unfold State.firstTrap
  try dsimp only
  repeat' with_reducible first
    | assumption | intro _ | apply State.setW_keeps | apply State.setF_keeps | apply State.setMason_keeps | apply State.when_keeps
    | apply State.raise_keeps

theorem State.trap_keeps {b s : State} (h : Keeps b s) (m : ℕ) (cause : ℕ) (tval : ℕ) : Keeps b (State.trap s m cause tval) := by
  unfold State.trap
  try dsimp only
  repeat' with_reducible first
    | assumption | intro _ | apply State.when_keeps | apply State.raise_keeps | apply State.setF_keeps | apply State.doubleFault_keeps
    | apply State.firstTrap_keeps | apply keeps_ite

/-- What an instruction's end keeps. -/
def TurnKeeps (b : State) : Turn → Prop
  | .next t => Keeps b t
  | .goto t _ => Keeps b t
  | .trap _ _ => True
  | .stall => True
  | .gate t => Keeps b t

theorem turnKeeps_next {b t : State} (h : Keeps b t) : TurnKeeps b (.next t) := h

theorem turnKeeps_goto {b t : State} (h : Keeps b t) (pc : Nat) : TurnKeeps b (.goto t pc) := h

theorem turnKeeps_gate {b t : State} (h : Keeps b t) : TurnKeeps b (.gate t) := h

theorem turnKeeps_trap (b : State) (c v : Nat) : TurnKeeps b (.trap c v) := trivial

theorem turnKeeps_stall (b : State) : TurnKeeps b .stall := trivial

theorem State.turn_keeps {b s : State} (h : Keeps b s) (m : Nat) (x : Turn) (k : TurnKeeps b x) : Keeps b (s.turn m x) := by
  cases x with
  | next t => exact State.retire_keeps k ..
  | goto t pc => exact State.retire_keeps k ..
  | trap c v => exact State.trap_keeps h ..
  | stall => exact State.setF_keeps h ..
  | gate t => exact k

theorem isa_next (m : Fin 16) (w : Word) (f : State → Mason → Turn) (s : State) (hf : ∀ t x, Keeps s t → TurnKeeps s (f t x)) :
    ∃ σ, isa m w f s = .next σ ∧ Keeps s σ := by
  unfold isa
  refine act_keeps _ s ?_
  intro t k
  exact keeps_ite (State.turn_keeps k _ _ (hf t _ k)) k

theorem illegal_keeps (b : State) (w : Word) : TurnKeeps b (illegal w) := by
  unfold illegal
  repeat' with_reducible first | assumption | exact turnKeeps_trap ..

theorem jump_keeps {b s : State} (h : Keeps b s) (target : ℕ) : TurnKeeps b (jump s target) := by
  unfold jump
  try dsimp only
  repeat' with_reducible first | assumption | apply turnKeeps_goto | exact turnKeeps_trap .. | split

theorem State.pqFlag_keeps {b s : State} (h : Keeps b s) (q : ℕ) (i : ℕ) : Keeps b (State.pqFlag s q i) := by
  unfold State.pqFlag
  try dsimp only
  repeat' with_reducible first | assumption | apply State.setBit_keeps

theorem State.pqPop_keeps {b s : State} (h : Keeps b s) (q : ℕ) : Keeps b (State.pqPop s q).1 := by
  unfold State.pqPop
  try dsimp only
  repeat' with_reducible first | assumption | apply State.setPq_keeps | apply State.pqFlag_keeps | split

theorem State.pqClose_keeps {b s : State} (h : Keeps b s) (q : ℕ) : Keeps b (State.pqClose s q).1 := by
  unfold State.pqClose
  try dsimp only
  repeat' with_reducible first | assumption | apply State.setPq_keeps | apply State.pqFlag_keeps | split

theorem stDone_keeps {b s : State} (h : Keeps b s) (m : ℕ) (c : Status) : TurnKeeps b (stDone m c s) := by
  unfold stDone
  try dsimp only
  repeat' with_reducible first | assumption | apply turnKeeps_next | apply State.setMason_keeps

theorem appendRec_keeps {b s : State} (h : Keeps b s) (m : ℕ) (k : ℕ) (a2 : Open) (r : Rec) (values : ℕ) (dec : ℕ) : TurnKeeps b (appendRec m k
    a2 r values dec s) := by
  unfold appendRec
  try dsimp only
  repeat' with_reducible first
    | assumption | intro _ | apply stDone_keeps | apply State.setMason_keeps | apply State.when_keeps | apply State.setTwo_keeps | split

theorem hputRec_keeps {b s : State} (h : Keeps b s) (m : ℕ) (k : ℕ) (a2 : Open) (ws : List Word) : TurnKeeps b (hputRec m k a2 ws s) := by
  unfold hputRec
  try dsimp only
  repeat' with_reducible first | assumption | apply appendRec_keeps | split | apply keeps_mk

theorem popCourse_keeps {b s : State} (h : Keeps b s) (m : ℕ) (gd : ℕ) (vd : ℕ) (p : List Word) : TurnKeeps b (popCourse m gd vd s p) := by
  unfold popCourse
  try dsimp only
  repeat' with_reducible first | assumption | apply stDone_keeps | apply State.setMason_keeps

theorem State.keepView_keeps {b s : State} (h : Keeps b s)  : Keeps b (State.keepView s) := by
  unfold State.keepView
  try dsimp only
  repeat' with_reducible first | assumption | split | apply keeps_mk

theorem State.segStart_keeps {b s : State} (h : Keeps b s) (seg : ℕ) : Keeps b (State.segStart s seg) := by
  unfold State.segStart
  try dsimp only
  repeat' with_reducible first | assumption | apply State.keepView_keeps | apply State.setF_keeps

theorem State.rldStuck_keeps {b s : State} (h : Keeps b s) (m : ℕ) : Keeps b (State.rldStuck s m) := by
  unfold State.rldStuck
  try dsimp only
  repeat' with_reducible first | assumption | intro _ | apply State.when_keeps | apply State.trap_keeps

theorem State.rails_keeps {b s : State} (h : Keeps b s) (pg : ℕ) (brown : ℕ) : Keeps b (State.rails s pg brown) := by
  unfold State.rails
  try dsimp only
  repeat' with_reducible first
    | assumption | apply State.setF_keeps | apply State.hubReset_keeps | apply State.finishBatch_keeps | apply keeps_ite | split | apply keeps_mk

theorem State.writeRstCtl_keeps {b s : State} (h : Keeps b s) (r : Req) (v : Word) (n : ℕ) : Keeps b (State.writeRstCtl s r v n) := by
  unfold State.writeRstCtl
  try dsimp only
  repeat' with_reducible first
    | assumption | intro _ | apply State.fin_keeps | apply State.setF_keeps | apply State.when_keeps | apply State.deferredReset_keeps
    | apply keeps_ite

theorem State.debugReset_keeps {b s : State} (h : Keeps b s) (n : ℕ) : Keeps b (State.debugReset s n) := by
  unfold State.debugReset
  try dsimp only
  repeat' with_reducible first | assumption | apply State.deferredReset_keeps | apply keeps_ite

theorem State.tapTo_keeps {b s : State} (h : Keeps b s) (code : ℕ) : Keeps b (State.tapTo s code) := by
  unfold State.tapTo
  try dsimp only
  repeat' with_reducible first
    | assumption | apply State.draw_keeps | apply State.debugReset_keeps | apply keeps_ite | split | refine Keeps.of_fst (by assumption) ?_
    | apply keeps_mk

theorem State.loadResult_keeps {b s : State} (h : Keeps b s) (src : ℕ) (ws : List ℕ) (blank : Bool) (fault : Bool) : Keeps b (State.loadResult s
    src ws blank fault).1 := by
  unfold State.loadResult
  try dsimp only
  repeat' with_reducible first
    | assumption | intro _ | apply State.setF_keeps | apply State.when_keeps | apply State.raiseBit_keeps | split | apply keeps_mk

theorem State.startBatch_keeps {b s : State} (h : Keeps b s) (writer : ℕ) (addr : ℕ) (rows : List (List Byte)) (v : ℕ) : Keeps b
    (State.startBatch s writer addr rows v) := by
  unfold State.startBatch
  try dsimp only
  repeat' with_reducible first
    | assumption | apply State.nvCheck_keeps | apply State.begin_keeps | apply State.fin_keeps | apply State.setF_keeps | apply keeps_ite

theorem writeCopy_keeps {b a : State} (h : Keeps b a) (a0 : Bool) (v : ℕ) : Keeps b (writeCopy a0 v a) := by
  unfold writeCopy
  try dsimp only
  repeat' with_reducible first | assumption | apply State.fin_keeps | apply State.startBatch_keeps | apply keeps_ite

theorem readCopy_keeps {b a : State} (h : Keeps b a) (a0 : Bool) : Keeps b (readCopy a0 a) := by
  unfold readCopy
  try dsimp only
  repeat' with_reducible first | assumption | apply State.fin_keeps | apply State.setWs_keeps | apply keeps_ite

theorem State.applyStrap_keeps {b s : State} (h : Keeps b s) (ws : List ℕ) (blank : Bool) : Keeps b (State.applyStrap s ws blank).1 := by
  unfold State.applyStrap
  try dsimp only
  repeat' with_reducible first | assumption | intro _ | apply State.setF_keeps | apply State.when_keeps | apply State.raiseBit_keeps | split

theorem State.measureCfgr_keeps {b s : State} (h : Keeps b s) (raw : ℕ) : Keeps b (State.measureCfgr s raw) := by
  unfold State.measureCfgr
  try dsimp only
  repeat' with_reducible first | assumption | apply State.setF_keeps

theorem State.logRelease_keeps {b s : State} (h : Keeps b s)  : Keeps b (State.logRelease s) := by
  unfold State.logRelease
  try dsimp only
  repeat' with_reducible first | assumption | intro _ | apply State.raiseBit_keeps | apply State.when_keeps | apply keeps_ite

theorem State.inForce_keeps {b s : State} (h : Keeps b s) (ws : List ℕ) : Keeps b (State.inForce s ws) := by
  unfold State.inForce
  try dsimp only
  repeat' with_reducible first
    | assumption | intro _ | apply State.setWs_keeps | apply State.each_keeps | apply State.setF_keeps | apply State.loadQuad_keeps
    | apply keeps_ite

theorem State.endWait_keeps {b s : State} (h : Keeps b s) (m : ℕ) (src : ℕ) (expiry : ℕ) (gd : ℕ) : Keeps b (State.endWait s m src expiry gd) :=
    by
  unfold State.endWait
  try dsimp only
  repeat' with_reducible first | assumption | apply State.setW_keeps | apply State.setMason_keeps | apply keeps_ite

theorem State.masonHalt_keeps {b s : State} (h : Keeps b s) (m : ℕ) : Keeps b (State.masonHalt s m) := by
  unfold State.masonHalt
  try dsimp only
  repeat' with_reducible first | assumption | apply State.setMason_keeps | apply State.setF_keeps

theorem State.masonStart_keeps {b s : State} (h : Keeps b s) (m : ℕ) : Keeps b (State.masonStart s m).1 := by
  unfold State.masonStart
  try dsimp only
  repeat' with_reducible first | assumption | apply State.masonGo_keeps | apply State.setF_keeps | split

theorem State.mcCtl_keeps {b s : State} (h : Keeps b s) (m : ℕ) (v : Word) : Keeps b (State.mcCtl s m v) := by
  unfold State.mcCtl
  try dsimp only
  repeat' with_reducible first
    | assumption | apply State.masonReset_keeps | apply State.masonHalt_keeps | apply State.setMason_keeps | apply State.masonStart_keeps
    | apply State.fin_keeps | apply keeps_ite

theorem mcWrite_keeps {b a : State} (h : Keeps b a) (r : Req) (m : ℕ) (v : Word) : Keeps b (mcWrite r m v a) := by
  unfold mcWrite
  try dsimp only
  repeat' with_reducible first | assumption | intro _ | apply regWrite_keeps | apply State.mcCtl_keeps

theorem State.memStore_keeps {b s : State} (h : Keeps b s) (a : ℕ) (v : Word) : Keeps b (State.memStore s a v) := by
  unfold State.memStore
  try dsimp only
  repeat' with_reducible first | assumption | apply State.setWordLE_keeps | apply keeps_mk

theorem State.memWrite_keeps {b s : State} (h : Keeps b s) (r : Req) (m : ℕ) (t : MemTarget) (v : Word) : Keeps b (State.memWrite s r m t v) :=
    by
  unfold State.memWrite
  try dsimp only
  repeat' with_reducible first
    | assumption | intro _ | apply State.fin_keeps | apply State.csRefuse_keeps | apply regWrite_keeps | apply State.memStore_keeps
    | apply State.setW_keeps | apply keeps_ite | split

theorem State.pqOpen_keeps {b s : State} (h : Keeps b s) (q : ℕ) (tag : ℕ) : Keeps b (State.pqOpen s q tag) := by
  unfold State.pqOpen
  try dsimp only
  repeat' with_reducible first | assumption | apply State.pqFlag_keeps | apply State.setPq_keeps | apply keeps_ite

theorem State.pqCtl_keeps {b s : State} (h : Keeps b s) (q : ℕ) (v : Word) : Keeps b (State.pqCtl s q v) := by
  unfold State.pqCtl
  try dsimp only
  repeat' with_reducible first
    | assumption | intro _ | apply State.when_keeps | apply State.setPq_keeps | apply State.pqClose_keeps | apply State.fin_keeps
    | apply State.pqOpen_keeps

theorem pqCtlWrite_keeps {b a : State} (h : Keeps b a) (r : Req) (q : ℕ) (v : Word) : Keeps b (pqCtlWrite r q v a) := by
  unfold pqCtlWrite
  try dsimp only
  repeat' with_reducible first | assumption | intro _ | apply regWrite_keeps | apply State.pqCtl_keeps

theorem State.horizon_keeps {b s : State} (h : Keeps b s) (p : ℕ) (k : ℕ) : Keeps b (State.horizon s p k) := by
  unfold State.horizon
  try dsimp only
  repeat' with_reducible first
    | assumption | intro _ | apply State.setW_keeps | apply State.setRing_keeps | apply State.when_keeps | apply State.setF_keeps
    | apply State.resumeClasses_keeps | apply State.watermarks_keeps | apply keeps_ite

theorem State.setBases_keeps {b s : State} (h : Keeps b s)  : Keeps b (State.setBases s) := by
  unfold State.setBases
  try dsimp only
  repeat' with_reducible first | assumption | intro _ | apply State.each_keeps | apply State.setF_keeps

theorem State.pxReject_keeps {b s : State} (h : Keeps b s) (c : Status) (k : ℕ) : Keeps b (State.pxReject s c k) := by
  unfold State.pxReject
  try dsimp only
  repeat' with_reducible first | assumption | apply State.raiseBit_keeps

theorem State.pxOut_keeps {b s : State} (h : Keeps b s) (k : Nat) (l : List Byte) : Keeps b (s.pxOut k l) := by
  fun_induction State.pxOut s k l with
  | case1 => exact h
  | case2 s k w x y z r ih => exact ih (State.setW_keeps h ..)
  | case3 => exact State.setW_keeps h ..

theorem State.pxEnd_keeps {b s : State} (h : Keeps b s) (c : Status) (out : List Byte) : Keeps b (State.pxEnd s c out) := by
  unfold State.pxEnd
  try dsimp only
  repeat' with_reducible first | assumption | apply State.setF_keeps | apply State.pxOut_keeps

theorem State.pxJobEnd_keeps {b s : State} (h : Keeps b s)  : Keeps b (State.pxJobEnd s) := by
  unfold State.pxJobEnd
  try dsimp only
  repeat' with_reducible first
    | assumption | apply State.pxReject_keeps | apply State.pxEnd_keeps | apply State.raiseBit_keeps | apply keeps_ite | split

theorem State.pxScanned_keeps {b s : State} (h : Keeps b s)  : Keeps b (State.pxScanned s) := by
  unfold State.pxScanned
  try dsimp only
  repeat' with_reducible first | assumption | apply State.setF_keeps | apply keeps_ite | split

theorem State.commitFail_keeps {b s : State} (h : Keeps b s) (m : ℕ) (e : Status × ℕ) : Keeps b (State.commitFail s m e) := by
  unfold State.commitFail
  try dsimp only
  repeat' with_reducible first | assumption | apply State.fin_keeps | apply State.raise_keeps

theorem State.expandStage_keeps {b s : State} (h : Keeps b s) (ws : List Word) : Keeps b (State.expandStage s ws).1 := by
  unfold State.expandStage
  try dsimp only
  repeat' with_reducible first | assumption | apply State.pxReject_keeps | apply State.raiseBit_keeps | split

/-- A stream that STREAM_ADD adds (R175, R176). -/

theorem State.addStream_keeps {b s t : State} {k : Nat} (h : Keeps b s) (ctl src rep : Word) (e : s.addStream ctl src rep = .ok (t, k)) :
    Keeps b t := by
  unfold State.addStream at e
  dsimp only at e
  have hn (i : Nat) : Keeps b (s.newEntry i ctl src rep) := State.newEntry_keeps h ..
  repeat' split at e
  all_goals first | cases e
  · exact State.startStream_keeps (hn _) _
  · exact hn _

theorem State.createAll_keeps {b s t : State} {ids : List (Nat × Nat × Nat)} (h : Keeps b s) (boot : Bool) (es : List AddEntry)
    (e : s.createAll boot es = some (t, ids)) : Keeps b t := by
  induction es generalizing s t ids with
  | nil => cases e; exact h
  | cons x r ih =>
    unfold State.createAll at e
    dsimp only at e
    generalize (if boot = true then x.ctl &&& 0xBFFFFFFF else x.ctl) = c at e
    split at e
    · cases e
    · split at e
      · cases e
      · next k =>
        obtain ⟨⟨t1, ids1⟩, e1, e2⟩ := Option.map_eq_some_iff.1 e
        cases e2
        exact ih (State.addStream_keeps h _ _ _ k) e1

theorem State.memStores_keeps {b s : State} (h : Keeps b s) (a : Nat) (l : List Word) : Keeps b (s.memStores a l) := by
  induction l generalizing s a with
  | nil => exact h
  | cons v r ih => exact ih (State.memStore_keeps h ..) _

theorem State.fillMason_keeps {b s : State} (h : Keeps b s) (a1 : Image) (m : ℕ) : Keeps b (State.fillMason s a1 m) := by
  unfold State.fillMason
  try dsimp only
  repeat' with_reducible first
    | assumption | intro _ | apply State.each_keeps | apply State.dropMem_keeps | apply State.memStores_keeps | apply State.setF_keeps | split

theorem State.place_keeps {b s t : State} (h : Keeps b s) (x : Image) (boot : Bool) (e : s.place x boot = .ok t) : Keeps b t := by
  unfold State.place at e
  dsimp only at e
  repeat' split at e
  all_goals first | cases e
  next k =>
    exact State.each_keeps (State.each_keeps (State.createAll_keeps h _ _ k) _ _ fun t m q => State.fillMason_keeps q x m) _ _
      fun t m q => State.memStore_keeps q _ _

theorem State.install_keeps {b s : State} (h : Keeps b s) (x : Image) (boot : Option Bool) (vh : Nat) : Keeps b (s.install x boot vh).1 := by
  unfold State.install
  extract_lets same change
  clear_value same change
  dsimp only
  split
  · split
    · exact h
    · next e => exact State.place_keeps h _ _ e
  · split
    · exact State.when_keeps (State.csRefuse_keeps h ..) _ _ fun t k => State.csEvent_keeps k ..
    · split
      · exact h
      · split
        · exact h
        · split
          · split
            · exact State.csRefuse_keeps (State.nvCheck_keeps h ..) ..
            · exact State.nvCheck_keeps h ..
          · have k := State.csChange_keeps h vh (fun s => s.noteDig x.targets x.digest) (.image x.bytes boot vh)
            split
            · next e => exact Keeps.of_fst e k
            · next e => exact Keeps.of_fst e k

theorem State.commitImage_keeps {b s : State} (h : Keeps b s) (bs : List Byte) (vh : Nat) : Keeps b (s.commitImage bs vh).1 := by
  unfold State.commitImage
  repeat' with_reducible first | assumption | exact State.install_keeps h .. | split

theorem State.commitSteps_keeps {b s : State} (h : Keeps b s) (vh : ℕ) : Keeps b (State.commitSteps s vh).1 := by
  unfold State.commitSteps
  try dsimp only
  repeat' with_reducible first
    | assumption | apply State.expandStage_keeps | apply State.pxJobEnd_keeps | apply State.commitImage_keeps | split
    | refine Keeps.of_fst (by assumption) ?_

theorem State.commitDone_keeps {b s : State} (h : Keeps b s) (m : ℕ) : Keeps b (State.commitDone s m) := by
  unfold State.commitDone
  try dsimp only
  repeat' with_reducible first | assumption | apply State.fin_keeps | apply State.raise_keeps | apply keeps_mk

theorem State.retireSlice_keeps {b s : State} (h : Keeps b s) (t : ℕ) (k : ℕ) : Keeps b (State.retireSlice s t k) := by
  unfold State.retireSlice
  try dsimp only
  repeat' with_reducible first | assumption | apply State.raise_keeps | apply State.setBit_keeps

theorem State.bootFail_keeps {b s : State} (h : Keeps b s) (a1 : Bool) (step : ℕ) : Keeps b (State.bootFail s a1 step) := by
  unfold State.bootFail
  try dsimp only
  repeat' with_reducible first | assumption | apply State.raiseBit_keeps | apply State.setF_keeps

theorem State.bootDone_keeps {b s : State} (h : Keeps b s) (a1 : Bool) (a2 : Image) : Keeps b (State.bootDone s a1 a2) := by
  unfold State.bootDone
  try dsimp only
  repeat' with_reducible first | assumption | apply State.raise_keeps | apply State.setF_keeps | apply keeps_mk

theorem State.tryBoot_keeps {b s : State} (h : Keeps b s) (a1 : Bool) (vh : ℕ) : Keeps b (State.tryBoot s a1 vh).1 := by
  unfold State.tryBoot
  try dsimp only
  repeat' with_reducible first
    | assumption | apply State.bootFail_keeps | apply State.install_keeps | apply State.bootDone_keeps | split
    | refine Keeps.of_fst (by assumption) ?_

theorem State.standIn_keeps {b s : State} (h : Keeps b s) (t : ℕ) : Keeps b (State.standIn s t) := by
  unfold State.standIn
  try dsimp only
  repeat' with_reducible first | assumption | apply State.setF_keeps | apply State.setSrc_keeps | split

theorem State.applyMap_keeps {b s : State} (h : Keeps b s) (t : ℕ) (map : ℕ) : Keeps b (State.applyMap s t map) := by
  unfold State.applyMap
  try dsimp only
  repeat' with_reducible first
    | assumption | intro _ | apply State.each_keeps | apply State.retireSlice_keeps | apply State.when_keeps | apply State.freeze_keeps
    | apply State.raise_keeps | apply State.setF_keeps | apply State.standIn_keeps | apply State.failInput_keeps

theorem State.releaseTile_keeps {b s : State} (h : Keeps b s) (t : ℕ) : Keeps b (State.releaseTile s t) := by
  unfold State.releaseTile
  try dsimp only
  repeat' with_reducible first
    | assumption | intro _ | apply State.setF_keeps | apply State.setW_keeps | apply State.each_keeps | apply State.setTile_keeps
    | apply State.tileStop_keeps | apply State.showPairs_keeps | apply State.applyMap_keeps

theorem State.seed_keeps {b s : State} (h : Keeps b s)  : Keeps b (State.seed s) := by
  unfold State.seed
  try dsimp only
  repeat' with_reducible first
    | assumption | intro _ | apply State.when_keeps | apply State.setF_keeps | apply State.raiseBit_keeps | apply State.servoReset_keeps
    | apply keeps_ite | split | apply keeps_mk

theorem State.smplUp_keeps {b s : State} (h : Keeps b s)  : Keeps b (State.smplUp s) := by
  unfold State.smplUp
  try dsimp only
  repeat' with_reducible first | assumption | intro _ | apply State.when_keeps | apply State.setF_keeps | apply State.smplLock_keeps

theorem State.boot_keeps {b s : State} (h : Keeps b s) (vh : ℕ) : Keeps b (State.boot s vh) := by
  unfold State.boot
  try dsimp only
  repeat' with_reducible first
    | assumption | apply State.setW_keeps | apply State.tryBoot_keeps | apply keeps_ite | split | refine Keeps.of_fst (by assumption) ?_
    | apply keeps_mk

theorem State.bootStep_keeps {b s : State} (h : Keeps b s) (vh : ℕ) : Keeps b (State.bootStep s vh) := by
  unfold State.bootStep
  try dsimp only
  repeat' with_reducible first | assumption | apply State.boot_keeps | apply keeps_ite | split | apply keeps_mk

theorem State.kilnVerdict_keeps {b s : State} (h : Keeps b s) (why : ℕ) : Keeps b (State.kilnVerdict s why) := by
  unfold State.kilnVerdict
  try dsimp only
  repeat' with_reducible first
    | assumption | apply State.setF_keeps | apply State.raiseBit_keeps | apply State.segStart_keeps | apply keeps_ite | split | apply keeps_mk

theorem State.kilnStep_keeps {b s : State} (h : Keeps b s) (vh : ℕ) : Keeps b (State.kilnStep s vh) := by
  unfold State.kilnStep
  try dsimp only
  repeat' with_reducible first
    | assumption | apply State.kilnVerdict_keeps | apply State.nvCheck_keeps | apply State.begin_keeps | apply keeps_ite | split
    | refine Keeps.of_fst (by assumption) ?_ | apply keeps_mk

theorem State.releaseStep_keeps {b s : State} (h : Keeps b s) (vh : ℕ) : Keeps b (State.releaseStep s vh) := by
  unfold State.releaseStep
  try dsimp only
  repeat' with_reducible first
    | assumption | intro _ | apply State.seed_keeps | apply State.smplUp_keeps | apply State.setF_keeps | apply State.dropMem_keeps
    | apply State.bootStep_keeps | apply State.kilnStep_keeps | apply State.each_keeps | apply State.releaseTile_keeps
    | apply State.endRelease_keeps | apply State.trainPort_keeps | apply keeps_ite | split | apply keeps_mk

theorem State.kilnJudge_keeps {b s : State} (h : Keeps b s)  : Keeps b (State.kilnJudge s) := by
  unfold State.kilnJudge
  try dsimp only
  repeat' with_reducible first | assumption | apply State.kilnVerdict_keeps | apply keeps_ite | split | apply keeps_mk

theorem State.toAcquire_keeps {b s : State} (h : Keeps b s) (who : ℕ) : Keeps b (State.toAcquire s who) := by
  unfold State.toAcquire
  try dsimp only
  repeat' with_reducible first
    | assumption | intro _ | apply State.each_keeps | apply State.emptyStore_keeps | apply State.modeTo_keeps | apply State.setStr_keeps
    | apply keeps_mk

theorem State.goDormant_keeps {b s : State} (h : Keeps b s) (who : ℕ) : Keeps b (State.goDormant s who) := by
  unfold State.goDormant
  try dsimp only
  repeat' with_reducible first | assumption | apply State.setF_keeps | apply State.modeTo_keeps

theorem State.toDormant_keeps {b s : State} (h : Keeps b s) (who : ℕ) (nokiln : Bool) : Keeps b (State.toDormant s who nokiln) := by
  unfold State.toDormant
  try dsimp only
  repeat' with_reducible first
    | assumption | intro _ | apply State.emptyYard_keeps | apply State.stopData_keeps | apply State.each_keeps | apply State.portOff_keeps
    | apply State.setF_keeps | apply State.goDormant_keeps | apply State.segStart_keeps | apply State.raiseBit_keeps | apply State.modeTo_keeps
    | apply keeps_ite | split | apply keeps_mk

theorem State.modeWrite_keeps {b s : State} (h : Keeps b s) (r : Req) (new : ℕ) (nokiln : Bool) (discard : Bool) : Keeps b (State.modeWrite s r
    new nokiln discard) := by
  unfold State.modeWrite
  try dsimp only
  repeat' with_reducible first
    | assumption | apply State.fin_keeps | apply State.toAcquire_keeps | apply State.drain_keeps | apply State.modeTo_keeps
    | apply State.leaveAcquire_keeps | apply State.toSafe_keeps | apply State.toDormant_keeps | apply State.csWake_keeps | apply keeps_ite
    | split | apply keeps_mk

theorem State.trigioWrite_keeps {b s : State} (h : Keeps b s) (k : ℕ) (v : Word) : Keeps b (State.trigioWrite s k v) := by
  unfold State.trigioWrite
  try dsimp only
  repeat' with_reducible first
    | assumption | intro _ | apply State.fin_keeps | apply State.setW_keeps | apply State.when_keeps | apply keeps_ite | split | apply keeps_mk

theorem State.ownerEvent_keeps {b s : State} (h : Keeps b s) (i : ℕ) (code : ℕ) (old : ℕ) : Keeps b (State.ownerEvent s i code old) := by
  unfold State.ownerEvent
  try dsimp only
  repeat' with_reducible first | assumption | apply State.raiseBit_keeps

theorem State.ownerWrite_keeps {b s : State} (h : Keeps b s) (r : Req) (own : ℕ) (force : Bool) : Keeps b (State.ownerWrite s r own force) := by
  unfold State.ownerWrite
  try dsimp only
  repeat' with_reducible first | assumption | apply State.fin_keeps | apply State.ownerEvent_keeps | apply State.setF_keeps | apply keeps_ite

theorem State.ownerGone_keeps {b s : State} (h : Keeps b s) (old : ℕ) : Keeps b (State.ownerGone s old) := by
  unfold State.ownerGone
  try dsimp only
  repeat' with_reducible first | assumption | apply State.ownerEvent_keeps | apply State.setF_keeps

theorem State.faultSafe_keeps {b s : State} (h : Keeps b s) (cause : ℕ) : Keeps b (State.faultSafe s cause) := by
  unfold State.faultSafe
  try dsimp only
  repeat' with_reducible first | assumption | intro _ | apply State.enterSafe_keeps | apply State.when_keeps | apply State.dropDrain_keeps

theorem State.segReport_keeps {b s : State} (h : Keeps b s) (seg : ℕ) (result : ℕ) (n : ℕ) (map : ℕ) : Keeps b (State.segReport s seg result n
    map) := by
  unfold State.segReport
  try dsimp only
  repeat' with_reducible first | assumption | intro _ | apply State.setF_keeps | apply State.when_keeps | apply State.raiseBit_keeps

theorem State.kilnOver_keeps {b s : State} (h : Keeps b s)  : Keeps b (State.kilnOver s) := by
  unfold State.kilnOver
  try dsimp only
  repeat' with_reducible first | assumption | apply State.raiseBit_keeps | apply State.goDormant_keeps | apply State.setF_keeps | apply keeps_mk

theorem State.imageSaved_keeps {b s : State} (h : Keeps b s) (bs : List Byte) (boot : Option Bool) (vh : Nat) : Keeps b (s.imageSaved bs boot vh)
    := by
  unfold State.imageSaved
  dsimp only
  split
  · exact h
  · split
    · next e => exact State.commitDone_keeps (State.csChanged_keeps (State.noteDig_keeps (State.place_keeps h _ _ e) ..)) _
    · exact State.commitFail_keeps h ..
    · next e => exact keeps_mk (State.bootDone_keeps (State.csChanged_keeps (State.noteDig_keeps (State.place_keeps h _ _ e) ..)) ..) ..
    · next b' e _ =>
      have f := State.bootFail_keeps h b' e.2
      generalize hq : ite (bits ((s.bootFail b' e.2).w (R.OPT_CUR 3)).toNat 17 16 = 3 ∧ b' = false) _ _ = q
      have k : Keeps b q := hq ▸ keeps_ite (State.tryBoot_keeps f ..) f
      exact keeps_ite k (keeps_mk k ..)

theorem State.csSaved_keeps {b s : State} (h : Keeps b s)  : Keeps b (State.csSaved s) := by
  unfold State.csSaved
  try dsimp only
  repeat' with_reducible first
    | assumption | apply State.imageSaved_keeps | apply State.csEnd_keeps | apply State.csChanged_keeps | apply State.csTake_keeps
    | apply State.fin_keeps | split | apply keeps_mk

theorem State.batchEffect_keeps {b s : State} (h : Keeps b s) (writer : ℕ) : Keeps b (State.batchEffect s writer) := by
  unfold State.batchEffect
  try dsimp only
  repeat' with_reducible first
    | assumption | apply State.kilnOver_keeps | apply State.kilnJudge_keeps | apply State.csSaved_keeps | apply State.fin_keeps
    | apply State.csEnd_keeps | apply State.setF_keeps | apply keeps_ite | split

theorem State.segNext_keeps {b s : State} (h : Keeps b s) (seg : ℕ) (sigOk : Bool) (fault : Bool) (patterns : ℕ) (map : ℕ) : Keeps b
    (State.segNext s seg sigOk fault patterns map) := by
  unfold State.segNext
  try dsimp only
  repeat' with_reducible first
    | assumption | apply State.segReport_keeps | apply State.segReset_keeps | apply State.segStart_keeps | apply State.setF_keeps
    | apply keeps_ite | split | apply keeps_mk

theorem State.kilnWrite_keeps {b s : State} (h : Keeps b s) (v : Word) : Keeps b (State.kilnWrite s v) := by
  unfold State.kilnWrite
  try dsimp only
  repeat' with_reducible first
    | assumption | apply State.fin_keeps | apply State.keepView_keeps | apply State.setF_keeps | apply keeps_ite | split | apply keeps_mk

theorem State.logWrite_keeps {b s : State} (h : Keeps b s) (v : Word) : Keeps b (State.logWrite s v) := by
  unfold State.logWrite
  try dsimp only
  repeat' with_reducible first | assumption | intro _ | apply State.fin_keeps | apply State.when_keeps | apply State.setW_keeps

theorem State.testNext_keeps {b s : State} (h : Keeps b s) (kind : ℕ) (sigOk : Bool) (fault : Bool) (patterns : ℕ) (map : ℕ) : Keeps b
    (State.testNext s kind sigOk fault patterns map) := by
  unfold State.testNext
  try dsimp only
  repeat' with_reducible first | assumption | apply State.endTest_keeps

theorem State.batchOver_keeps {b s : State} (h : Keeps b s) (a1 : Batch) : Keeps b (State.batchOver s a1) := by
  unfold State.batchOver
  try dsimp only
  repeat' with_reducible first | assumption | apply State.setF_keeps | apply State.writeRows_keeps | apply keeps_mk

theorem State.bscan_keeps {b s : State} (h : Keeps b s) (code : ℕ) (seen : BitVec 1472) (set_ : BitVec 1472) : Keeps b (State.bscan s code seen
    set_) := by
  unfold State.bscan
  try dsimp only
  repeat' with_reducible first | assumption | apply State.tapTo_keeps | apply keeps_ite | split | apply keeps_mk

theorem State.hkEvent_keeps {b s : State} (h : Keeps b s) (i : ℕ) (code : ℕ) (src : ℕ) (detail : ℕ) : Keeps b (State.hkEvent s i code src detail)
    := by
  unfold State.hkEvent
  try dsimp only
  repeat' with_reducible first | assumption | apply State.raiseBit_keeps

theorem State.guardSupply_keeps {b s : State} (h : Keeps b s) (k : ℕ) (code : ℕ) : Keeps b (State.guardSupply s k code) := by
  unfold State.guardSupply
  try dsimp only
  repeat' with_reducible first
    | assumption | intro _ | apply State.setF_keeps | apply State.when_keeps | apply State.hkEvent_keeps | apply keeps_mk

theorem State.hkStart_keeps {b s : State} (h : Keeps b s)  : Keeps b (State.hkStart s) := by
  unfold State.hkStart
  try dsimp only
  repeat' with_reducible first | assumption | apply State.setF_keeps | apply keeps_mk

theorem State.hkTrigger_keeps {b s : State} (h : Keeps b s)  : Keeps b (State.hkTrigger s) := by
  unfold State.hkTrigger
  try dsimp only
  repeat' with_reducible first
    | assumption | apply State.hkStart_keeps | apply State.setF_keeps | apply State.bumpW_keeps | apply State.hkEvent_keeps | apply keeps_ite

theorem State.hkCtlWrite_keeps {b s : State} (h : Keeps b s) (v : Word) : Keeps b (State.hkCtlWrite s v) := by
  unfold State.hkCtlWrite
  try dsimp only
  repeat' with_reducible first
    | assumption | intro _ | apply State.fin_keeps | apply State.setW_keeps | apply State.when_keeps | apply State.hkStart_keeps
    | apply State.setF_keeps | apply keeps_ite | split | apply keeps_mk

theorem State.hkTrigWrite_keeps {b s : State} (h : Keeps b s) (v : Word) : Keeps b (State.hkTrigWrite s v) := by
  unfold State.hkTrigWrite
  try dsimp only
  repeat' with_reducible first | assumption | intro _ | apply State.fin_keeps | apply State.when_keeps | apply State.hkTrigger_keeps

theorem State.guardTemp_keeps {b s : State} (h : Keeps b s) (k : ℕ) (code : ℕ) : Keeps b (State.guardTemp s k code) := by
  unfold State.guardTemp
  try dsimp only
  repeat' with_reducible first
    | assumption | intro _ | apply State.setF_keeps | apply State.when_keeps | apply State.hkEvent_keeps | apply State.enterSafe_keeps
    | apply keeps_mk

theorem State.hkResult_keeps {b s : State} (h : Keeps b s) (n : ℕ) (value : ℕ) : Keeps b (State.hkResult s n value) := by
  unfold State.hkResult
  try dsimp only
  repeat' with_reducible first
    | assumption | intro _ | apply State.when_keeps | apply State.setF_keeps | apply State.hkEvent_keeps | apply State.setBit_keeps

theorem State.rsvUncorr_keeps {b s : State} (h : Keeps b s)  : Keeps b (State.rsvUncorr s) := by
  unfold State.rsvUncorr
  try dsimp only
  repeat' with_reducible first | assumption | apply State.faultSafe_keeps | apply State.raiseBit_keeps

theorem State.csAbandon_keeps {b s : State} (h : Keeps b s)  : Keeps b (State.csAbandon s) := by
  unfold State.csAbandon
  try dsimp only
  repeat' with_reducible first
    | assumption | intro _ | apply State.setF_keeps | apply State.when_keeps | apply State.csEnd_keeps | apply State.endAccess_keeps
    | apply State.fin_keeps | apply keeps_ite | split | apply keeps_mk

theorem State.feUncorr_keeps {b s : State} (h : Keeps b s) (t : ℕ) (p : ℕ) : Keeps b (State.feUncorr s t p) := by
  unfold State.feUncorr
  try dsimp only
  repeat' with_reducible first | assumption | apply State.faultSafe_keeps | apply State.raiseBit_keeps

theorem State.logUncorr_keeps {b s : State} (h : Keeps b s) (k : ℕ) : Keeps b (State.logUncorr s k) := by
  unfold State.logUncorr
  try dsimp only
  repeat' with_reducible first | assumption | apply State.raiseBit_keeps | apply keeps_mk

theorem State.tileUncorr_keeps {b s : State} (h : Keeps b s) (t : ℕ) : Keeps b (State.tileUncorr s t) := by
  unfold State.tileUncorr
  try dsimp only
  repeat' with_reducible first | assumption | apply State.faultSafe_keeps | apply State.raiseBit_keeps

theorem State.trigUncorr_keeps {b s : State} (h : Keeps b s)  : Keeps b (State.trigUncorr s) := by
  unfold State.trigUncorr
  try dsimp only
  repeat' with_reducible first | assumption | apply State.faultSafe_keeps | apply State.raiseBit_keeps

theorem State.pressUncorr_keeps {b s : State} (h : Keeps b s)  : Keeps b (State.pressUncorr s) := by
  unfold State.pressUncorr
  try dsimp only
  repeat' with_reducible first | assumption | apply State.faultSafe_keeps | apply State.raiseBit_keeps

theorem State.csUncorr_keeps {b s : State} (h : Keeps b s)  : Keeps b (State.csUncorr s) := by
  unfold State.csUncorr
  try dsimp only
  repeat' with_reducible first
    | assumption | intro _ | apply State.csAbandon_keeps | apply State.csEvent_keeps | apply State.each_keeps | apply State.setMeter_keeps
    | apply State.faultSafe_keeps | apply keeps_ite | split | apply keeps_mk

theorem State.openBits_keeps {b s : State} (h : Keeps b s) (v : Word) (hi : ℕ) (lo : ℕ) : Keeps b (State.openBits s v hi lo).1 := by
  unfold State.openBits
  try dsimp only
  repeat' with_reducible first | assumption | apply State.draw_keeps

theorem State.trigIn_keeps {b s : State} (h : Keeps b s) (k : ℕ) (v : Word) : Keeps b (State.trigIn s k v).1 := by
  unfold State.trigIn
  try dsimp only
  repeat' with_reducible first | assumption | apply State.openBits_keeps | split

theorem State.logBad_keeps {b s : State} (h : Keeps b s) (r : Req) (a : ℕ) : Keeps b (State.logBad s r a).1 := by
  unfold State.logBad
  try dsimp only
  repeat' with_reducible first | assumption | apply State.draw_keeps | apply State.logUncorr_keeps | apply State.setShadows_keeps

theorem State.memRead_keeps {b s : State} (h : Keeps b s) (a : ℕ) (v : Word) : Keeps b (State.memRead s a v).1 := by
  unfold State.memRead
  try dsimp only
  repeat' with_reducible first | assumption | apply State.draw_keeps | split

theorem State.plainRead_keeps {b s : State} (h : Keeps b s) (r : Req) (a : ℕ) : Keeps b (State.plainRead s r a).1 := by
  unfold State.plainRead
  try dsimp only
  repeat' with_reducible first | assumption | apply State.setShadows_keeps | apply State.setW_keeps | split

theorem State.readReg_keeps {b s : State} (h : Keeps b s) (r : Req) (a : ℕ) (bad : Bool) : Keeps b (State.readReg s r a bad).1 := by
  unfold State.readReg
  try dsimp only
  repeat' with_reducible first
    | assumption | apply State.memRead_keeps | apply State.logBad_keeps | apply State.pqPop_keeps | apply State.tsqPop_keeps
    | apply State.plainRead_keeps | apply State.trigIn_keeps | apply State.openBits_keeps | split

theorem State.readWord_keeps {b s : State} (h : Keeps b s) (r : Req) (a : ℕ) (bad : Bool) : Keeps b (State.readWord s r a bad) := by
  unfold State.readWord
  try dsimp only
  repeat' with_reducible first | assumption | apply State.fin_keeps | apply State.readReg_keeps | apply State.finData_keeps | split

theorem State.lineBits_keeps {b s : State} (h : Keeps b s) (q : ℕ) (bs : List Bool) : Keeps b (State.lineBits s q bs) := by
  unfold State.lineBits
  try dsimp only
  repeat' with_reducible first | assumption | apply State.checkBits_keeps | apply keeps_ite

theorem State.adapt_keeps {b s : State} (h : Keeps b s) (n : ℕ) (ctle : BitVec 4) (dfe : BitVec 30) : Keeps b (State.adapt s n ctle dfe) := by
  unfold State.adapt
  try dsimp only
  repeat' with_reducible first | assumption | apply State.setW_keeps | apply State.setF_keeps | apply keeps_ite

theorem State.echo_keeps {b s : State} (h : Keeps b s) (n : Nat) (l : List Sym) : Keeps b (s.echo n l) := by
  induction l generalizing s with
  | nil => exact h
  | cons y r ih =>
    unfold State.echo
    split
    · next e => cases e
    · next e => cases e; exact ih (State.setLane_keeps (State.draw_keeps h 10) ..)
    · next e => cases e; exact ih (State.setLane_keeps h ..)

theorem State.sendBack_keeps {b s : State} (h : Keeps b s) (n : ℕ) (ys : List Sym) : Keeps b (State.sendBack s n ys) := by
  unfold State.sendBack
  try dsimp only
  repeat' with_reducible first | assumption | intro _ | apply State.when_keeps | apply State.echo_keeps | apply State.setLane_keeps

theorem State.tsLearn_keeps {b s : State} (h : Keeps b s) (n : ℕ) (late : ℕ) (a3 : TsRead) : Keeps b (State.tsLearn s n late a3) := by
  unfold State.tsLearn
  try dsimp only
  repeat' with_reducible first | assumption | apply State.setLane_keeps

theorem State.tsRate_keeps {b s : State} (h : Keeps b s) (p : ℕ) (n : ℕ) (ts : TsRead) : Keeps b (State.tsRate s p n ts) := by
  unfold State.tsRate
  try dsimp only
  repeat' with_reducible first | assumption | apply State.toEq_keeps | apply State.failPort_keeps | apply State.setLane_keeps | apply keeps_ite

theorem State.tsEq_keeps {b s : State} (h : Keeps b s) (p : ℕ) (n : ℕ) (ts : TsRead) : Keeps b (State.tsEq s p n ts) := by
  unfold State.tsEq
  try dsimp only
  repeat' with_reducible first | assumption | apply State.tryUp_keeps | apply State.setLane_keeps

theorem State.tsValid_keeps {b s : State} (h : Keeps b s) (p : ℕ) (n : ℕ) (late : ℕ) (a4 : TsRead) : Keeps b (State.tsValid s p n late a4) := by
  unfold State.tsValid
  try dsimp only
  repeat' with_reducible first
    | assumption | apply State.tsLearn_keeps | apply State.tsRate_keeps | apply State.tsEq_keeps | apply State.leaveUp_keeps | apply keeps_ite
    | split

theorem State.ebAdjust_keeps {b s : State} (h : Keeps b s) (n : ℕ) (fill : ℕ) : Keeps b (State.ebAdjust s n fill) := by
  unfold State.ebAdjust
  try dsimp only
  repeat' with_reducible first | assumption | apply State.setF_keeps | apply State.setLane_keeps | apply State.bump_keeps | apply keeps_ite

theorem State.groutBack_keeps {b s : State} (h : Keeps b s) (n : ℕ) (k : ℕ) : Keeps b (State.groutBack s n k) := by
  unfold State.groutBack
  try dsimp only
  repeat' with_reducible first | assumption | intro _ | apply State.when_keeps | apply State.setLane_keeps

theorem State.tsPolar_keeps {b s : State} (h : Keeps b s) (n : ℕ) (late : ℕ) (a : Option TsRead) : Keeps b (State.tsPolar s n late a) := by
  unfold State.tsPolar
  try dsimp only
  repeat' with_reducible first
    | assumption | apply State.setLane_keeps | apply State.tsLearn_keeps | apply State.toLst_keeps | apply keeps_ite | split

theorem State.tsAlign_keeps {b s : State} (h : Keeps b s) (n : ℕ) (ts : TrainSet) : Keeps b (State.tsAlign s n ts) := by
  unfold State.tsAlign
  try dsimp only
  repeat' with_reducible first
    | assumption | apply State.setLane_keeps | apply State.setF_keeps | apply State.toLst_keeps | apply keeps_ite | split

theorem State.dropTdisc_keeps {b s : State} (h : Keeps b s) (k : ℕ) : Keeps b (State.dropTdisc s k) := by
  unfold State.dropTdisc
  try dsimp only
  repeat' with_reducible first
    | assumption | apply State.setF_keeps | apply State.setW_keeps | apply State.bumpW_keeps | apply keeps_ite | split | apply keeps_mk

theorem State.via_keeps {b s : State} (h : Keeps b s) (f : State → Host.Outcome State Fault Refusal)
    (hf : ∀ t, ∃ σ, f t = .next σ ∧ Keeps t σ) : Keeps b (s.via f) := by
  obtain ⟨t, e, k⟩ := hf s
  unfold State.via
  rw [e]
  exact h.trans k

theorem State.store_keeps {b s : State} (h : Keeps b s) (a : ℕ) (v : Word) : Keeps b (State.store s a v) := by
  unfold State.store
  try dsimp only
  repeat' with_reducible first | assumption | apply State.setW_keeps | split

theorem checkedWrite_keeps {b a4 : State} (h : Keeps b a4) (r : Req) (a : ℕ) (stop : State → Option Status) (v : Word) : Keeps b (checkedWrite r
    a stop v a4) := by
  unfold checkedWrite
  try dsimp only
  repeat' with_reducible first | assumption | intro _ | apply regWrite_keeps | apply State.fin_keeps | apply State.store_keeps | split

theorem ppsCtl_keeps {b a : State} (h : Keeps b a) (r : Req) (v : Word) : Keeps b (ppsCtl r v a) := by
  unfold ppsCtl
  try dsimp only
  repeat' with_reducible first
    | assumption | intro _ | apply regWrite_keeps | apply State.fin_keeps | apply State.when_keeps | apply State.store_keeps
    | apply State.ppsLow_keeps | split

theorem plainWrite_keeps {b a3 : State} (h : Keeps b a3) (r : Req) (a : ℕ) (v : Word) : Keeps b (plainWrite r a v a3) := by
  unfold plainWrite
  try dsimp only
  repeat' with_reducible first | assumption | intro _ | apply checkedWrite_keeps

theorem unitWrite_keeps {b a4 : State} (h : Keeps b a4) (r : Req) (u : ℕ) (a : ℕ) (v : Word) : Keeps b (unitWrite r u a v a4) := by
  unfold unitWrite
  try dsimp only
  repeat' with_reducible first
    | assumption | intro _ | apply regWrite_keeps | apply State.fin_keeps | apply State.unitRecompute_keeps | apply State.store_keeps

theorem State.mgpReject_keeps {b s : State} (h : Keeps b s) (status : Status) : Keeps b (State.mgpReject s status) := by
  unfold State.mgpReject
  try dsimp only
  repeat' with_reducible first | assumption | intro _ | apply State.when_keeps | apply keeps_mk

theorem State.mgpDiscard_keeps {b s : State} (h : Keeps b s) (i : ℕ) : Keeps b (State.mgpDiscard s i) := by
  unfold State.mgpDiscard
  try dsimp only
  repeat' with_reducible first | assumption | apply State.bump_keeps | apply State.raiseBit_keeps | apply keeps_ite

theorem State.mgpFrame_keeps {b s : State} (h : Keeps b s) (frame : BitVec 72) (edges : ℕ) : Keeps b (State.mgpFrame s frame edges) := by
  unfold State.mgpFrame
  try dsimp only
  repeat' with_reducible first
    | assumption | apply State.mgpReject_keeps | apply State.mgpDiscard_keeps | apply keeps_ite | split | apply keeps_mk

theorem State.readWords_keeps {b s : State} (h : Keeps b s) (r : Req) (a n : Nat) : Keeps b (s.readWords r a n).1 := by
  induction n generalizing s a with
  | zero => exact h
  | succ n ih => exact ih (State.readReg_keeps h ..) _

theorem State.readHod_keeps {b s : State} (h : Keeps b s) (ws : List Word) : Keeps b (State.readHod s ws) := by
  unfold State.readHod
  try dsimp only
  repeat' with_reducible first | assumption | apply State.fin_keeps | apply State.readWords_keeps | apply State.finData_keeps | split

theorem State.tick_keeps {b s : State} (h : Keeps b s)  : Keeps b (State.tick s) := by
  unfold State.tick
  try dsimp only
  repeat' with_reducible first
    | assumption | apply State.passRtc_keeps | apply State.pxScanned_keeps | apply State.passSys_keeps | apply keeps_ite

theorem State.retiredAs_keeps {b s : State} (h : Keeps b s) (m : Fin 16) (a2 : Mason) : Keeps b (State.retiredAs s m a2) := by
  unfold State.retiredAs
  try dsimp only
  repeat' with_reducible first | assumption | apply State.retire_keeps | apply State.setMason_keeps

end Sys2Proof.Machine
end

