-- ==== Sys2Proof/Laws/Commands.lean ====
section
/-!
SUPPORT. What each command answers: a next state, which keeps the queue as it stands and the canonical form of the tables. `execFoo_next` is
about the meaning `execFoo`.
-/

namespace Sys2Proof.Machine

theorem execTileApply_next (r : Req) (t : Fin 24) (v : Word) (s : State) : ∃ σ, execTileApply r t v s = .next σ ∧ Keeps s σ := by
  unfold execTileApply
  refine act_keeps _ s ?_
  intro σ h
  try dsimp only
  repeat' with_reducible first
    | assumption | intro _ | apply regWrite_keeps | apply State.fin_keeps | apply State.when_keeps | apply State.each_keeps
    | apply State.applyChan_keeps

theorem execTileSleep_next (t : Fin 24) (s : State) : ∃ σ, execTileSleep t s = .next σ ∧ Keeps s σ := by
  unfold execTileSleep
  refine act_keeps _ s ?_
  intro σ h
  try dsimp only
  repeat' with_reducible first | assumption | apply State.tileStop_keeps | apply keeps_ite

theorem execSpareCalDone_next (t : Fin 24) (trim : Trim) (s : State) : ∃ σ, execSpareCalDone t trim s = .next σ ∧ Keeps s σ := by
  unfold execSpareCalDone
  refine act_keeps _ s ?_
  intro σ h
  try dsimp only
  repeat' with_reducible first | assumption | apply State.countCals_keeps | apply State.setF_keeps | apply State.setTrim_keeps | apply keeps_ite

theorem execExcFault_next (t : Fin 24) (iload : BitVec 12) (s : State) : ∃ σ, execExcFault t iload s = .next σ ∧ Keeps s σ := by
  unfold execExcFault
  refine act_keeps _ s ?_
  intro σ h
  try dsimp only
  repeat' with_reducible first | assumption | apply State.setF_keeps | apply State.excCut_keeps | apply State.raiseBit_keeps | apply keeps_ite

theorem execFadeResidualDone_next (t : Fin 24) (s : State) : ∃ σ, execFadeResidualDone t s = .next σ ∧ Keeps s σ := by
  unfold execFadeResidualDone
  refine act_keeps _ s ?_
  intro σ h
  try dsimp only
  repeat' with_reducible first | assumption | apply State.setTile_keeps | apply keeps_ite | split

theorem execConvertSample_next (t : Fin 24) (sl : Fin 17) (code : BitVec 16) (edge : ℕ) (tau : ℕ) (s : State) : ∃ σ, execConvertSample t sl code
    edge tau s = .next σ ∧ Keeps s σ := by
  unfold execConvertSample
  refine act_keeps _ s ?_
  intro σ h
  try dsimp only
  repeat' with_reducible first
    | assumption | intro _ | apply State.when_keeps | apply State.setTile_keeps | apply State.clip_keeps | apply State.channelWord_keeps
    | apply keeps_ite | split

theorem execHandIn_next (t : Fin 24) (s : State) : ∃ σ, execHandIn t s = .next σ ∧ Keeps s σ := by
  unfold execHandIn
  refine act_keeps _ s ?_
  intro σ h
  try dsimp only
  repeat' with_reducible first
    | assumption | intro _ | apply State.setSrc_keeps | apply State.setF_keeps | apply State.setTile_keeps | apply State.raiseBit_keeps
    | apply State.bump_keeps | apply State.when_keeps | apply State.freeze_keeps | apply keeps_ite

theorem execSkewUpdate_next (t : Fin 24) (k : Fin 8) (quiet : Bool) (est : ℤ) (s : State) : ∃ σ, execSkewUpdate t k quiet est s = .next σ ∧ Keeps
    s σ := by
  unfold execSkewUpdate
  refine act_keeps _ s ?_
  intro σ h
  try dsimp only
  repeat' with_reducible first | assumption | apply State.setF_keeps | apply State.raiseBit_keeps | apply keeps_ite

theorem execTileCtlWrite_next (r : Req) (t : Fin 24) (ilv : Bool) (v : Word) (s : State) : ∃ σ, execTileCtlWrite r t ilv v s = .next σ ∧ Keeps s
    σ := by
  unfold execTileCtlWrite
  refine act_keeps _ s ?_
  intro σ h
  try dsimp only
  repeat' with_reducible first
    | assumption | intro _ | apply regWrite_keeps | apply State.tileIlv_keeps | apply State.tileCtl_keeps | apply keeps_ite

theorem execTileWake_next (t : Fin 24) (s : State) : ∃ σ, execTileWake t s = .next σ ∧ Keeps s σ := by
  unfold execTileWake
  refine act_keeps _ s ?_
  intro σ h
  try dsimp only
  repeat' with_reducible first
    | assumption | intro _ | apply State.setF_keeps | apply State.rateCheck_keeps | apply State.when_keeps | apply keeps_ite

theorem execHandBack_next (t : Fin 24) (s : State) : ∃ σ, execHandBack t s = .next σ ∧ Keeps s σ := by
  unfold execHandBack
  refine act_keeps _ s ?_
  intro σ h
  try dsimp only
  repeat' with_reducible first
    | assumption | apply State.setSrc_keeps | apply State.setF_keeps | apply State.setTile_keeps | apply State.raiseBit_keeps
    | apply State.bump_keeps | apply State.setBit_keeps | apply State.freeze_keeps | apply State.countCals_keeps | apply keeps_ite

theorem execExcRampStep_next (t : Fin 24) (iload : BitVec 12) (s : State) : ∃ σ, execExcRampStep t iload s = .next σ ∧ Keeps s σ := by
  unfold execExcRampStep
  refine act_keeps _ s ?_
  intro σ h
  try dsimp only
  repeat' with_reducible first | assumption | apply State.setF_keeps | apply State.excSettle_keeps | apply keeps_ite

theorem execSliceCalDone_next (t : Fin 24) (trim : Trim) (s : State) : ∃ σ, execSliceCalDone t trim s = .next σ ∧ Keeps s σ := by
  unfold execSliceCalDone
  refine act_keeps _ s ?_
  intro σ h
  try dsimp only
  repeat' with_reducible first | assumption | apply State.setF_keeps | apply State.setTrim_keeps | apply State.setTile_keeps | apply keeps_ite

theorem execGainSettleDone_next (t : Fin 24) (i : Fin 16) (s : State) : ∃ σ, execGainSettleDone t i s = .next σ ∧ Keeps s σ := by
  unfold execGainSettleDone
  refine act_keeps _ s ?_
  intro σ h
  try dsimp only
  repeat' with_reducible first
    | assumption | intro _ | apply State.setF_keeps | apply State.settleUntil_keeps | apply State.when_keeps | apply State.setTile_keeps
    | apply keeps_ite

theorem execTileReady_next (t : Fin 24) (trims : List Trim) (s : State) : ∃ σ, execTileReady t trims s = .next σ ∧ Keeps s σ := by
  unfold execTileReady
  refine act_keeps _ s ?_
  intro σ h
  try dsimp only
  repeat' with_reducible first
    | assumption | intro _ | apply State.when_keeps | apply State.each_keeps | apply State.setTrim_keeps | apply State.setF_keeps
    | apply State.restartWake_keeps | apply State.setTile_keeps | apply keeps_ite

theorem execRotationBoundary_next (t : Fin 24) (s : State) : ∃ σ, execRotationBoundary t s = .next σ ∧ Keeps s σ := by
  unfold execRotationBoundary
  refine act_keeps _ s ?_
  intro σ h
  try dsimp only
  repeat' with_reducible first
    | assumption | intro _ | apply State.setTile_keeps | apply State.when_keeps | apply State.setF_keeps | apply State.startRotation_keeps
    | apply keeps_ite

theorem execExcCtlWrite_next (r : Req) (t : Fin 24) (lvl : Bool) (v : Word) (s : State) : ∃ σ, execExcCtlWrite r t lvl v s = .next σ ∧ Keeps s σ
    := by
  unfold execExcCtlWrite
  refine act_keeps _ s ?_
  intro σ h
  try dsimp only
  repeat' with_reducible first
    | assumption | intro _ | apply regWrite_keeps | apply State.fin_keeps | apply State.excSettle_keeps | apply State.setF_keeps
    | apply State.when_keeps | apply keeps_ite

theorem execGainChange_next (r : Req) (t : Fin 24) (i : Fin 16) (v : Word) (s : State) : ∃ σ, execGainChange r t i v s = .next σ ∧ Keeps s σ :=
    by
  unfold execGainChange
  refine act_keeps _ s ?_
  intro σ h
  try dsimp only
  repeat' with_reducible first
    | assumption | intro _ | apply regWrite_keeps | apply State.fin_keeps | apply State.setGain_keeps | apply keeps_ite

theorem execPpsOutRise_next  (s : State) : ∃ σ, execPpsOutRise s = .next σ ∧ Keeps s σ := by
  unfold execPpsOutRise
  refine act_keeps _ s ?_
  intro σ h
  try dsimp only
  repeat' with_reducible first | assumption | apply State.reach_keeps | apply keeps_ite | split | apply keeps_mk

theorem execSmplPhaseWrite_next (r : Req) (v : Word) (s : State) : ∃ σ, execSmplPhaseWrite r v s = .next σ ∧ Keeps s σ := by
  unfold execSmplPhaseWrite
  refine act_keeps _ s ?_
  intro σ h
  try dsimp only
  repeat' with_reducible first
    | assumption | intro _ | apply regWrite_keeps | apply State.fin_keeps | apply State.setF_keeps | apply State.smplNow_keeps | apply keeps_ite

theorem execPpsOutFall_next  (s : State) : ∃ σ, execPpsOutFall s = .next σ ∧ Keeps s σ := by
  unfold execPpsOutFall
  refine act_keeps _ s ?_
  intro σ h
  try dsimp only
  repeat' with_reducible first | assumption | apply State.ppsLow_keeps | apply State.passTo_keeps | split

theorem execMclkLoss_next (los : Bool) (freq : BitVec 24) (s : State) : ∃ σ, execMclkLoss los freq s = .next σ ∧ Keeps s σ := by
  unfold execMclkLoss
  refine act_keeps _ s ?_
  intro σ h
  try dsimp only
  repeat' with_reducible first
    | assumption | intro _ | apply State.when_keeps | apply State.smplHold_keeps | apply State.setF_keeps | apply State.raiseBit_keeps
    | apply keeps_ite

theorem execRtcGo_next (r : Req) (v : Word) (s : State) : ∃ σ, execRtcGo r v s = .next σ ∧ Keeps s σ := by
  unfold execRtcGo
  refine act_keeps _ s ?_
  intro σ h
  try dsimp only
  repeat' with_reducible first | assumption | intro _ | apply regWrite_keeps | apply State.rtcCtl_keeps

theorem execTodMessage_next (bytes : List Byte) (frameErr : Bool) (s : State) : ∃ σ, execTodMessage bytes frameErr s = .next σ ∧ Keeps s σ := by
  unfold execTodMessage
  refine act_keeps _ s ?_
  intro σ h
  try dsimp only
  repeat' with_reducible first
    | assumption | apply State.setTwo_keeps | apply State.bump_keeps | apply State.raiseBit_keeps | apply keeps_ite | split | apply keeps_mk

theorem execMclkLockAcquired_next (freq : BitVec 24) (s : State) : ∃ σ, execMclkLockAcquired freq s = .next σ ∧ Keeps s σ := by
  unfold execMclkLockAcquired
  refine act_keeps _ s ?_
  intro σ h
  try dsimp only
  repeat' with_reducible first
    | assumption | apply State.rateChecks_keeps | apply State.smplLock_keeps | apply State.setF_keeps | apply keeps_ite

theorem execGridSyncCancel_next (r : Req) (m : BitVec 4) (s : State) : ∃ σ, execGridSyncCancel r m s = .next σ ∧ Keeps s σ := by
  unfold execGridSyncCancel
  refine act_keeps _ s ?_
  intro σ h
  try dsimp only
  repeat' with_reducible first
    | assumption | intro _ | apply regWrite_keeps | apply State.fin_keeps | apply State.each_keeps | apply State.disarm_keeps | apply keeps_ite

theorem execGridSyncNextSec_next (r : Req) (m : BitVec 4) (s : State) : ∃ σ, execGridSyncNextSec r m s = .next σ ∧ Keeps s σ := by
  unfold execGridSyncNextSec
  refine act_keeps _ s ?_
  intro σ h
  try dsimp only
  repeat' with_reducible first | assumption | intro _ | apply regWrite_keeps | apply State.armGrids_keeps

theorem execGridCtlWrite_next (r : Req) (g : Fin 4) (v : Word) (s : State) : ∃ σ, execGridCtlWrite r g v s = .next σ ∧ Keeps s σ := by
  unfold execGridCtlWrite
  refine act_keeps _ s ?_
  intro σ h
  try dsimp only
  repeat' with_reducible first | assumption | intro _ | apply regWrite_keeps | apply State.gridCtl_keeps

theorem execGridSyncInstant_next (g : Fin 4) (edge : ℕ) (s : State) : ∃ σ, execGridSyncInstant g edge s = .next σ ∧ Keeps s σ := by
  unfold execGridSyncInstant
  refine act_keeps _ s ?_
  intro σ h
  try dsimp only
  repeat' with_reducible first
    | assumption | intro _ | apply State.syncGroups_keeps | apply State.each_keeps | apply State.reach_keeps | apply State.restartPath_keeps
    | apply State.setGrid_keeps | apply State.setF_keeps | apply State.when_keeps | apply State.noteSync_keeps | apply State.syncBreaks_keeps
    | apply State.setTime4_keeps | apply keeps_ite | split

theorem execMclkRelock_next (r : Req) (v : Word) (s : State) : ∃ σ, execMclkRelock r v s = .next σ ∧ Keeps s σ := by
  unfold execMclkRelock
  refine act_keeps _ s ?_
  intro σ h
  try dsimp only
  repeat' with_reducible first | assumption | intro _ | apply regWrite_keeps | apply State.mclkCtl_keeps

theorem execMclkReturn_next (freq : BitVec 24) (s : State) : ∃ σ, execMclkReturn freq s = .next σ ∧ Keeps s σ := by
  unfold execMclkReturn
  refine act_keeps _ s ?_
  intro σ h
  try dsimp only
  repeat' with_reducible first | assumption | apply State.setF_keeps | apply keeps_ite

theorem execCourseInstant_next (g : Fin 4) (edge : ℕ) (tau : ℕ) (s : State) : ∃ σ, execCourseInstant g edge tau s = .next σ ∧ Keeps s σ := by
  unfold execCourseInstant
  refine act_keeps _ s ?_
  intro σ h
  try dsimp only
  repeat' with_reducible first
    | assumption | intro _ | apply State.when_keeps | apply State.wrapCourse_keeps | apply State.courseFalls_keeps | apply keeps_ite

theorem execStLoad_next (r : Req) (v : Word) (s : State) : ∃ σ, execStLoad r v s = .next σ ∧ Keeps s σ := by
  unfold execStLoad
  refine act_keeps _ s ?_
  intro σ h
  try dsimp only
  repeat' with_reducible first
    | assumption | intro _ | apply regWrite_keeps | apply State.fin_keeps | apply State.moveSmpl_keeps | apply State.meterLoad_keeps
    | apply State.servoReset_keeps | apply keeps_ite | split | apply keeps_mk

theorem execGridPerWrite_next (r : Req) (g : Fin 4) (frac : Bool) (v : Word) (s : State) : ∃ σ, execGridPerWrite r g frac v s = .next σ ∧ Keeps s
    σ := by
  unfold execGridPerWrite
  refine act_keeps _ s ?_
  intro σ h
  try dsimp only
  repeat' with_reducible first | assumption | intro _ | apply regWrite_keeps | apply State.setW_keeps | apply State.fin_keeps | apply keeps_ite

theorem execPpsMiss_next  (s : State) : ∃ σ, execPpsMiss s = .next σ ∧ Keeps s σ := by
  unfold execPpsMiss
  refine act_keeps _ s ?_
  intro σ h
  try dsimp only
  repeat' with_reducible first
    | assumption | apply State.passTo_keeps | apply State.raiseBit_keeps | apply State.rootOks_keeps | apply keeps_ite | split | apply keeps_mk

theorem execSmplCtlWrite_next (r : Req) (mclk : Bool) (v : Word) (s : State) : ∃ σ, execSmplCtlWrite r mclk v s = .next σ ∧ Keeps s σ := by
  unfold execSmplCtlWrite
  refine act_keeps _ s ?_
  intro σ h
  try dsimp only
  repeat' with_reducible first
    | assumption | intro _ | apply regWrite_keeps | apply State.mclkCtl_keeps | apply State.smplCtl_keeps | apply keeps_ite

theorem execRtcFollow_next  (s : State) : ∃ σ, execRtcFollow s = .next σ ∧ Keeps s σ := by
  unfold execRtcFollow
  refine act_keeps _ s ?_
  intro σ h
  try dsimp only
  repeat' with_reducible first | assumption | apply State.reach_keeps | apply keeps_ite | split | apply keeps_mk

theorem execXtalStop_next (s : State) : ∃ σ, execXtalStop s = .next σ ∧ Keeps s σ := ⟨_, rfl, State.setF_keeps (Keeps.refl s) ..⟩

theorem execGridSyncAt_next (r : Req) (m : BitVec 4) (s : State) : ∃ σ, execGridSyncAt r m s = .next σ ∧ Keeps s σ := by
  unfold execGridSyncAt
  refine act_keeps _ s ?_
  intro σ h
  try dsimp only
  repeat' with_reducible first | assumption | intro _ | apply regWrite_keeps | apply State.armGrids_keeps

theorem execGridStop_next (r : Req) (g : Fin 4) (v : Word) (s : State) : ∃ σ, execGridStop r g v s = .next σ ∧ Keeps s σ := by
  unfold execGridStop
  refine act_keeps _ s ?_
  intro σ h
  try dsimp only
  repeat' with_reducible first | assumption | intro _ | apply regWrite_keeps | apply State.gridCtl_keeps

theorem execDetectOutput_next (t : Fin 24) (d : Fin 32) (s : State) : ∃ σ, execDetectOutput t d s = .next σ ∧ Keeps s σ := by
  unfold execDetectOutput
  refine act_keeps _ s ?_
  intro σ h
  try dsimp only
  repeat' with_reducible first | assumption | apply State.detDeliver_keeps | apply State.setDet_keeps | split

theorem execFadeBlendStart_next (t : Fin 24) (p : Fin 8) (s : State) : ∃ σ, execFadeBlendStart t p s = .next σ ∧ Keeps s σ := by
  unfold execFadeBlendStart
  refine act_keeps _ s ?_
  intro σ h
  try dsimp only
  repeat' with_reducible first | assumption | apply State.startBlend_keeps | apply keeps_ite | split

theorem execFadeDone_next (t : Fin 24) (p : Fin 8) (s : State) : ∃ σ, execFadeDone t p s = .next σ ∧ Keeps s σ := by
  unfold execFadeDone
  refine act_keeps _ s ?_
  intro σ h
  try dsimp only
  repeat' with_reducible first | assumption | apply State.endFade_keeps | apply keeps_ite | split

theorem execFpConfigWrite_next (r : Req) (t : Fin 24) (p : Fin 8) (which : Fin 4) (v : Word) (s : State) : ∃ σ, execFpConfigWrite r t p which v s
    = .next σ ∧ Keeps s σ := by
  unfold execFpConfigWrite
  refine act_keeps _ s ?_
  intro σ h
  try dsimp only
  repeat' with_reducible first
    | assumption | intro _ | apply regWrite_keeps | apply State.setW_keeps | apply State.fpTry_keeps | apply State.setF_keeps
    | apply State.fpTaps_keeps | split

theorem execCoefWrite_next (r : Req) (t : Fin 24) (p : Fin 8) (a3 : Fin 2) (k : Fin 256) (v : Word) (s : State) : ∃ σ, execCoefWrite r t p a3 k v
    s = .next σ ∧ Keeps s σ := by
  unfold execCoefWrite
  refine act_keeps _ s ?_
  intro σ h
  try dsimp only
  repeat' with_reducible first | assumption | intro _ | apply regWrite_keeps | apply State.fin_keeps | apply State.setF_keeps | apply keeps_ite

theorem execDetCtlWrite_next (r : Req) (t : Fin 24) (d : Fin 32) (which : Fin 3) (v : Word) (s : State) : ∃ σ, execDetCtlWrite r t d which v s =
    .next σ ∧ Keeps s σ := by
  unfold execDetCtlWrite
  refine act_keeps _ s ?_
  intro σ h
  try dsimp only
  repeat' with_reducible first
    | assumption | intro _ | apply State.setW_keeps | apply State.fin_keeps | apply regWrite_keeps | apply State.detCtl_keeps | apply keeps_ite
    | split

theorem execFadeGo_next (r : Req) (t : Fin 24) (p : Fin 8) (v : Word) (s : State) : ∃ σ, execFadeGo r t p v s = .next σ ∧ Keeps s σ := by
  unfold execFadeGo
  refine act_keeps _ s ?_
  intro σ h
  try dsimp only
  repeat' with_reducible first
    | assumption | intro _ | apply regWrite_keeps | apply State.setF_keeps | apply State.fin_keeps | apply State.fadeStart_keeps
    | apply keeps_ite

theorem execFilterOutput_next (t : Fin 24) (p : Fin 8) (s : State) : ∃ σ, execFilterOutput t p s = .next σ ∧ Keeps s σ := by
  unfold execFilterOutput
  refine act_keeps _ s ?_
  intro σ h
  try dsimp only
  repeat' with_reducible first | assumption | apply State.pathCourse_keeps | apply State.setPath_keeps | apply keeps_ite | split

theorem execWindowClose_next (g : Fin 64) (s : State) : ∃ σ, execWindowClose g s = .next σ ∧ Keeps s σ := by
  unfold execWindowClose
  refine act_keeps _ s ?_
  intro σ h
  try dsimp only
  repeat' with_reducible first | assumption | apply State.setF_keeps | apply keeps_ite | split

theorem execHoldoffEnd_next (u : Fin 64) (s : State) : ∃ σ, execHoldoffEnd u s = .next σ ∧ Keeps s σ := by
  unfold execHoldoffEnd
  refine act_keeps _ s ?_
  intro σ h
  try dsimp only
  repeat' with_reducible first | assumption | apply State.setF_keeps | apply keeps_ite | split

theorem execTuCtlWrite_next (r : Req) (u : Fin 64) (src : Bool) (v : Word) (s : State) : ∃ σ, execTuCtlWrite r u src v s = .next σ ∧ Keeps s σ :=
    by
  unfold execTuCtlWrite
  refine act_keeps _ s ?_
  intro σ h
  try dsimp only
  repeat' with_reducible first
    | assumption | intro _ | apply regWrite_keeps | apply State.fin_keeps | apply State.setW_keeps | apply State.tuCtl_keeps | apply keeps_ite

theorem execTuAutoForce_next (u : Fin 64) (s : State) : ∃ σ, execTuAutoForce u s = .next σ ∧ Keeps s σ := by
  unfold execTuAutoForce
  refine act_keeps _ s ?_
  intro σ h
  try dsimp only
  repeat' with_reducible first | assumption | apply State.acceptTrig_keeps | apply keeps_ite | split

theorem execStoreRelease_next (sid : Fin 8192) (s : State) : ∃ σ, execStoreRelease sid s = .next σ ∧ Keeps s σ := by
  unfold execStoreRelease
  refine act_keeps _ s ?_
  intro σ h
  try dsimp only
  repeat' with_reducible first | assumption | apply State.reduce_keeps | apply State.setStr_keeps | apply keeps_ite | split

theorem execDeltaHeartbeat_next (sid : Fin 8192) (s : State) : ∃ σ, execDeltaHeartbeat sid s = .next σ ∧ Keeps s σ := by
  unfold execDeltaHeartbeat
  refine act_keeps _ s ?_
  intro σ h
  try dsimp only
  repeat' with_reducible first | assumption | apply State.putValue_keeps | apply State.setStr_keeps | apply keeps_ite | split

theorem execGroupEvaluate_next (g : Fin 64) (n : ℕ) (s : State) : ∃ σ, execGroupEvaluate g n s = .next σ ∧ Keeps s σ := by
  unfold execGroupEvaluate
  refine act_keeps _ s ?_
  intro σ h
  try dsimp only
  repeat' with_reducible first
    | assumption | intro _ | apply State.setTg_keeps | apply State.each_keeps | apply State.setTu_keeps | apply State.when_keeps
    | apply State.takeTrig_keeps | apply keeps_ite

theorem execTuEvaluate_next (u : Fin 64) (n : ℕ) (s : State) : ∃ σ, execTuEvaluate u n s = .next σ ∧ Keeps s σ := by
  unfold execTuEvaluate
  refine act_keeps _ s ?_
  intro σ h
  try dsimp only
  repeat' with_reducible first | assumption | apply State.unitCourse_keeps | apply State.setTu_keeps | apply keeps_ite

theorem execTgCtlWrite_next (r : Req) (g : Fin 64) (post : Bool) (v : Word) (s : State) : ∃ σ, execTgCtlWrite r g post v s = .next σ ∧ Keeps s σ
    := by
  unfold execTgCtlWrite
  refine act_keeps _ s ?_
  intro σ h
  try dsimp only
  repeat' with_reducible first
    | assumption | intro _ | apply regWrite_keeps | apply State.fin_keeps | apply State.setF_keeps | apply State.setW_keeps | apply keeps_ite

theorem execTrigioPulseEnd_next (k : Fin 4) (s : State) : ∃ σ, execTrigioPulseEnd k s = .next σ ∧ Keeps s σ := by
  unfold execTrigioPulseEnd
  refine act_keeps _ s ?_
  intro σ h
  try dsimp only
  repeat' with_reducible first | assumption | apply State.passTo_keeps | split | apply keeps_mk

theorem execWsLinkWrite_next (r : Req) (l : Fin 1024) (v : Word) (s : State) : ∃ σ, execWsLinkWrite r l v s = .next σ ∧ Keeps s σ := by
  unfold execWsLinkWrite
  refine act_keeps _ s ?_
  intro σ h
  try dsimp only
  repeat' with_reducible first | assumption | intro _ | apply regWrite_keeps | apply State.setW_keeps | apply State.fin_keeps | apply keeps_ite

theorem execRpWrite_next (r : Req) (p : Fin 64) (which : Fin 4) (v : Word) (s : State) : ∃ σ, execRpWrite r p which v s = .next σ ∧ Keeps s σ :=
    by
  unfold execRpWrite
  refine act_keeps _ s ?_
  intro σ h
  try dsimp only
  repeat' with_reducible first
    | assumption | intro _ | apply State.fin_keeps | apply State.setW_keeps | apply regWrite_keeps | apply keeps_ite | split

theorem execLinkHodSend_next (p : Fin 16) (s : State) : ∃ σ, execLinkHodSend p s = .next σ ∧ Keeps s σ := by
  unfold execLinkHodSend
  refine act_keeps _ s ?_
  intro σ h
  try dsimp only
  repeat' with_reducible first | assumption | apply State.sendLink_keeps | apply keeps_ite

theorem execLink_next (p : Fin 16) (nak : Bool) (seq : BitVec 12) (l0 : BitVec 16) (l1 : BitVec 16) (l2 : BitVec 16) (l3 : BitVec 16) (s : State)
    : ∃ σ, execLink p nak seq l0 l1 l2 l3 s = .next σ ∧ Keeps s σ := by
  unfold execLink
  refine act_keeps _ s ?_
  intro σ h
  try dsimp only
  repeat' with_reducible first
    | assumption | apply State.thaw_keeps | apply State.setPort_keeps | apply State.pump_keeps | apply State.resend_keeps | apply keeps_ite

theorem execLinkSilent_next (p : Fin 16) (s : State) : ∃ σ, execLinkSilent p s = .next σ ∧ Keeps s σ := by
  unfold execLinkSilent
  refine act_keeps _ s ?_
  intro σ h
  try dsimp only
  repeat' with_reducible first | assumption | apply State.raiseBit_keeps | apply State.leaveUp_keeps | apply keeps_ite

theorem execHodArrival_next (p : Fin 16) (lines : List LineIn) (s : State) : ∃ σ, execHodArrival p lines s = .next σ ∧ Keeps s σ := by
  unfold execHodArrival
  refine act_keeps _ s ?_
  intro σ h
  have k (l : List Arrival) (t : State) (ht : Keeps s t) : Keeps s (l.foldl (State.arrive p.val) t) := by
    induction l generalizing t with
    | nil => exact ht
    | cons w r ih => exact ih _ (State.arrive_keeps ht ..)
  exact keeps_ite h (k _ _ (State.rxPort_keeps h ..))

theorem execLinkCfgWrite_next (r : Req) (v : Word) (s : State) : ∃ σ, execLinkCfgWrite r v s = .next σ ∧ Keeps s σ := by
  unfold execLinkCfgWrite
  refine act_keeps _ s ?_
  intro σ h
  try dsimp only
  repeat' with_reducible first
    | assumption | intro _ | apply regWrite_keeps | apply State.fin_keeps | apply State.movePrimary_keeps | apply State.setW_keeps
    | apply keeps_ite

theorem execReplayTimeout_next (p : Fin 16) (s : State) : ∃ σ, execReplayTimeout p s = .next σ ∧ Keeps s σ := by
  unfold execReplayTimeout
  refine act_keeps _ s ?_
  intro σ h
  try dsimp only
  repeat' with_reducible first | assumption | apply State.resend_keeps | apply keeps_ite

theorem execEventHodSend_next  (s : State) : ∃ σ, execEventHodSend s = .next σ ∧ Keeps s σ := by
  unfold execEventHodSend
  refine act_keeps _ s ?_
  intro σ h
  try dsimp only
  repeat' with_reducible first | assumption | apply State.eventGone_keeps | apply State.sendHod_keeps | apply keeps_ite | split | apply keeps_mk

theorem execFwBlock_next (r : Req) (arg : BitVec 16) (vh : BitVec 16) (s : State) : ∃ σ, execFwBlock r arg vh s = .next σ ∧ Keeps s σ := by
  unfold execFwBlock
  refine act_keeps _ s ?_
  intro σ h
  try dsimp only
  repeat' with_reducible first
    | assumption | intro _ | apply csCmd_keeps | apply State.csEnd_keeps | apply State.nvCheck_keeps | apply State.begin_keeps | apply keeps_ite

theorem csAct_next (f : State → State) (s : State) (hf : ∀ t, Keeps s t → Keeps s (f t)) : ∃ σ, csAct f s = .next σ ∧ Keeps s σ :=
  ⟨_, rfl, keeps_ite (hf s (Keeps.refl s)) (Keeps.refl s)⟩

theorem execSealClose_next  (s : State) : ∃ σ, execSealClose s = .next σ ∧ Keeps s σ := by
  unfold execSealClose
  apply csAct_next
  try dsimp only
  repeat' with_reducible first | assumption | intro _ | apply State.csEvent_keeps | apply State.setF_keeps | apply keeps_ite

theorem execMeterRecordPlace_next (j : Fin 16) (s : State) : ∃ σ, execMeterRecordPlace j s = .next σ ∧ Keeps s σ := by
  unfold execMeterRecordPlace
  refine act_keeps _ s ?_
  intro σ h
  try dsimp only
  repeat' with_reducible first | assumption | apply State.setMeter_keeps | apply State.setStr_keeps | split

theorem execIntervalEnd_next (j : Fin 16) (vh : BitVec 16) (s : State) : ∃ σ, execIntervalEnd j vh s = .next σ ∧ Keeps s σ := by
  unfold execIntervalEnd
  refine act_keeps _ s ?_
  intro σ h
  try dsimp only
  repeat' with_reducible first | assumption | apply State.closeUpTo_keeps | apply State.endInterval_keeps | apply keeps_ite | split

theorem execSealOpen_next  (s : State) : ∃ σ, execSealOpen s = .next σ ∧ Keeps s σ := by
  unfold execSealOpen
  apply csAct_next
  try dsimp only
  repeat' with_reducible first
    | assumption | intro _ | apply State.each_keeps | apply State.setF_keeps | apply State.setMeter_keeps | apply State.csEvent_keeps
    | apply keeps_ite

theorem execReload_next (r : Req) (s : State) : ∃ σ, execReload r s = .next σ ∧ Keeps s σ := by
  unfold execReload
  refine act_keeps _ s ?_
  intro σ h
  try dsimp only
  repeat' with_reducible first
    | assumption | intro _ | apply csCmd_keeps | apply State.csEnd_keeps | apply State.each_keeps | apply State.setW_keeps

theorem execVddCstLoss_next  (s : State) : ∃ σ, execVddCstLoss s = .next σ ∧ Keeps s σ := by
  refine ⟨_, rfl, ?_⟩
  have h := Keeps.refl s
  try dsimp only
  repeat' with_reducible first | assumption | apply State.csClear_keeps | apply State.setF_keeps | apply keeps_ite

theorem execVddCstReturn_next  (s : State) : ∃ σ, execVddCstReturn s = .next σ ∧ Keeps s σ := by
  refine ⟨_, rfl, ?_⟩
  have h := Keeps.refl s
  try dsimp only
  repeat' with_reducible first | assumption | apply State.setF_keeps | apply State.csRestore_keeps | apply keeps_ite | split | apply keeps_mk

theorem execMeterSample_next (j : Fin 16) (edge : ℕ) (tau : ℕ) (s : State) : ∃ σ, execMeterSample j edge tau s = .next σ ∧ Keeps s σ := by
  unfold execMeterSample
  refine act_keeps _ s ?_
  intro σ h
  try dsimp only
  repeat' with_reducible first
    | assumption | apply State.closeUpTo_keeps | apply State.reach_keeps | apply State.setMeter_keeps | apply keeps_ite

theorem execIdentityDone_next  (s : State) : ∃ σ, execIdentityDone s = .next σ ∧ Keeps s σ := by
  unfold execIdentityDone
  apply csAct_next
  try dsimp only
  repeat' with_reducible first | assumption | intro _ | apply State.setF_keeps | apply State.setWs_keeps | apply keeps_ite

theorem execFwCommit_next (r : Req) (arg : BitVec 16) (vh : BitVec 16) (s : State) : ∃ σ, execFwCommit r arg vh s = .next σ ∧ Keeps s σ := by
  unfold execFwCommit
  refine act_keeps _ s ?_
  intro σ h
  try dsimp only
  repeat' with_reducible first
    | assumption | intro _ | apply csCmd_keeps | apply State.csEnd_keeps | apply State.csCommand_keeps | apply State.setF_keeps | apply keeps_ite

theorem execApply_next (r : Req) (arg : BitVec 16) (vh : BitVec 16) (s : State) : ∃ σ, execApply r arg vh s = .next σ ∧ Keeps s σ := by
  unfold execApply
  refine act_keeps _ s ?_
  intro σ h
  try dsimp only
  repeat' with_reducible first
    | assumption | intro _ | apply csCmd_keeps | apply State.takeSet_keeps | apply State.csEnd_keeps | apply State.csCommand_keeps
    | apply keeps_ite

theorem execTtAsymWrite_next (r : Req) (second : Bool) (v : Word) (s : State) : ∃ σ, execTtAsymWrite r second v s = .next σ ∧ Keeps s σ := by
  unfold execTtAsymWrite
  refine act_keeps _ s ?_
  intro σ h
  try dsimp only
  repeat' with_reducible first
    | assumption | intro _ | apply regWrite_keeps | apply State.fin_keeps | apply State.setW_keeps | apply State.when_keeps
    | apply State.endRoute_keeps | apply keeps_ite

theorem execTsqPop_next (r : Req) (p : Fin 16) (s : State) : ∃ σ, execTsqPop r p s = .next σ ∧ Keeps s σ := by
  unfold execTsqPop
  refine act_keeps _ s ?_
  intro σ h
  try dsimp only
  repeat' with_reducible first | assumption | apply State.fin_keeps | apply State.tsqPop_keeps | split

theorem execPpsInEdge_next (t : ℕ) (falling : Bool) (s : State) : ∃ σ, execPpsInEdge t falling s = .next σ ∧ Keeps s σ := by
  unfold execPpsInEdge
  refine act_keeps _ s ?_
  intro σ h
  try dsimp only
  repeat' with_reducible first
    | assumption | intro _ | apply State.reach_keeps | apply State.setTime4_keeps | apply State.raiseBit_keeps | apply State.rootOks_keeps
    | apply State.when_keeps | apply State.tryHold_keeps | apply State.measure_keeps | apply keeps_ite | split | apply keeps_mk

theorem execTimeStep_next  (s : State) : ∃ σ, execTimeStep s = .next σ ∧ Keeps s σ := by
  unfold execTimeStep
  refine act_keeps _ s ?_
  intro σ h
  try dsimp only
  repeat' with_reducible first
    | assumption | apply State.reach_keeps | apply State.setF_keeps | apply State.meterShift_keeps | apply State.stepTime_keeps
    | apply State.meterStep_keeps | apply keeps_ite | split | apply keeps_mk

theorem execTReqSend_next (second : Bool) (t1 : ℕ) (s : State) : ∃ σ, execTReqSend second t1 s = .next σ ∧ Keeps s σ := by
  unfold execTReqSend
  refine act_keeps _ s ?_
  intro σ h
  try dsimp only
  repeat' with_reducible first | assumption | apply State.sendTime_keeps | apply State.setXch_keeps | apply keeps_ite

theorem execTReq_next (p : Fin 16) (_hid : BitVec 14) (tsid : BitVec 8) (t2 : ℕ) (t3 : ℕ) (s : State) : ∃ σ, execTReq p _hid tsid t2 t3 s = .next
    σ ∧ Keeps s σ := by
  unfold execTReq
  refine act_keeps _ s ?_
  intro σ h
  try dsimp only
  repeat' with_reducible first
    | assumption | apply State.freeBuf_keeps | apply State.thaw_keeps | apply State.putTime_keeps | apply State.setXch_keeps | apply keeps_ite

theorem execTtProbe_next (r : Req) (v : Word) (t : ℕ) (s : State) : ∃ σ, execTtProbe r v t s = .next σ ∧ Keeps s σ := by
  unfold execTtProbe
  refine act_keeps _ s ?_
  intro σ h
  try dsimp only
  repeat' with_reducible first
    | assumption | intro _ | apply regWrite_keeps | apply State.fin_keeps | apply State.putTime_keeps | apply keeps_ite

theorem execSrcLost_next  (s : State) : ∃ σ, execSrcLost s = .next σ ∧ Keeps s σ := by
  unfold execSrcLost
  refine act_keeps _ s ?_
  intro σ h
  try dsimp only
  repeat' with_reducible first | assumption | apply State.srcLost_keeps | apply State.passTo_keeps | apply keeps_ite | split

theorem execForcedSlew_next (r : Req) (v : Word) (s : State) : ∃ σ, execForcedSlew r v s = .next σ ∧ Keeps s σ := by
  unfold execForcedSlew
  refine act_keeps _ s ?_
  intro σ h
  try dsimp only
  repeat' with_reducible first | assumption | apply ttStepWrite_keeps

theorem execTResp_next (p : Fin 16) (tsid : BitVec 8) (steps : BitVec 8) (q : BitVec 2) (t2 : ℕ) (t3 : ℕ) (t4 : ℕ) (s : State) : ∃ σ, execTResp p
    tsid steps q t2 t3 t4 s = .next σ ∧ Keeps s σ := by
  unfold execTResp
  refine act_keeps _ s ?_
  intro σ h
  try dsimp only
  repeat' with_reducible first
    | assumption | apply State.freeBuf_keeps | apply State.thaw_keeps | apply State.badResp_keeps | apply State.setXch_keeps
    | apply State.tryHold_keeps | apply State.primaryMeas_keeps | apply State.secondMeas_keeps | apply keeps_ite | split

theorem execTtStepImmediate_next (r : Req) (v : Word) (s : State) : ∃ σ, execTtStepImmediate r v s = .next σ ∧ Keeps s σ := by
  unfold execTtStepImmediate
  refine act_keeps _ s ?_
  intro σ h
  try dsimp only
  repeat' with_reducible first | assumption | apply ttStepWrite_keeps

theorem execTtStepCancel_next (r : Req) (v : Word) (s : State) : ∃ σ, execTtStepCancel r v s = .next σ ∧ Keeps s σ := by
  unfold execTtStepCancel
  refine act_keeps _ s ?_
  intro σ h
  try dsimp only
  repeat' with_reducible first | assumption | apply ttStepWrite_keeps

theorem execTimeSrcWrite_next (r : Req) (v : Word) (s : State) : ∃ σ, execTimeSrcWrite r v s = .next σ ∧ Keeps s σ := by
  unfold execTimeSrcWrite
  refine act_keeps _ s ?_
  intro σ h
  try dsimp only
  repeat' with_reducible first
    | assumption | intro _ | apply regWrite_keeps | apply State.fin_keeps | apply State.when_keeps | apply State.setF_keeps
    | apply State.servoReset_keeps | apply keeps_ite | split | apply keeps_mk

theorem execTtCtlWrite_next (r : Req) (v : Word) (s : State) : ∃ σ, execTtCtlWrite r v s = .next σ ∧ Keeps s σ := by
  unfold execTtCtlWrite
  refine act_keeps _ s ?_
  intro σ h
  try dsimp only
  repeat' with_reducible first
    | assumption | intro _ | apply regWrite_keeps | apply State.fin_keeps | apply State.setW_keeps | apply State.when_keeps
    | apply State.servoTo_keeps | apply keeps_ite

theorem execTtStepNextSec_next (r : Req) (v : Word) (s : State) : ∃ σ, execTtStepNextSec r v s = .next σ ∧ Keeps s σ := by
  unfold execTtStepNextSec
  refine act_keeps _ s ?_
  intro σ h
  try dsimp only
  repeat' with_reducible first | assumption | apply ttStepWrite_keeps

theorem isaReg_next (m : Fin 16) (w : Word) (f : Mason → Mason) (s : State) : ∃ σ, isaReg m w f s = .next σ ∧ Keeps s σ := by
  unfold isaReg
  apply isa_next
  try dsimp only
  repeat' with_reducible first | assumption | intro _ | apply turnKeeps_next | apply State.setMason_keeps

theorem g3_next (m : Fin 16) (func : ℕ) (gd : Fin 32) (ga : Fin 32) (gb : Fin 32) (f : Word → Word → Word) (s : State) : ∃ σ, g3 m func gd ga gb
    f s = .next σ ∧ Keeps s σ := by
  unfold g3
  apply isaReg_next
  try dsimp only

theorem execSll_next (m : Fin 16) (gd : Fin 32) (ga : Fin 32) (gb : Fin 32) (s : State) : ∃ σ, execSll m gd ga gb s = .next σ ∧ Keeps s σ := by
  unfold execSll
  apply g3_next
  try dsimp only

theorem execJr_next (m : Fin 16) (ga : Fin 32) (s : State) : ∃ σ, execJr m ga s = .next σ ∧ Keeps s σ := by
  unfold execJr
  apply isa_next
  try dsimp only
  repeat' with_reducible first | assumption | intro _ | apply jump_keeps

theorem gi_next (m : Fin 16) (op : ℕ) (gd : Fin 32) (ga : Fin 32) (imm : BitVec 16) (f : Word → Word) (s : State) : ∃ σ, gi m op gd ga imm f s =
    .next σ ∧ Keeps s σ := by
  unfold gi
  apply isaReg_next
  try dsimp only

theorem execXori_next (m : Fin 16) (gd : Fin 32) (ga : Fin 32) (imm : BitVec 16) (s : State) : ∃ σ, execXori m gd ga imm s = .next σ ∧ Keeps s σ
    := by
  unfold execXori
  apply gi_next
  try dsimp only

theorem g3sh_next (m : Fin 16) (func : ℕ) (gd : Fin 32) (ga : Fin 32) (sh : Fin 32) (f : Word → ℕ → Word) (s : State) : ∃ σ, g3sh m func gd ga sh
    f s = .next σ ∧ Keeps s σ := by
  unfold g3sh
  apply isaReg_next
  try dsimp only

theorem execMinu_next (m : Fin 16) (gd : Fin 32) (ga : Fin 32) (gb : Fin 32) (s : State) : ∃ σ, execMinu m gd ga gb s = .next σ ∧ Keeps s σ := by
  unfold execMinu
  apply g3_next
  try dsimp only

theorem execCmpi_next (m : Fin 16) (ga : Fin 32) (imm : BitVec 16) (s : State) : ∃ σ, execCmpi m ga imm s = .next σ ∧ Keeps s σ := by
  unfold execCmpi
  apply isaReg_next
  try dsimp only

theorem execSrl_next (m : Fin 16) (gd : Fin 32) (ga : Fin 32) (gb : Fin 32) (s : State) : ∃ σ, execSrl m gd ga gb s = .next σ ∧ Keeps s σ := by
  unfold execSrl
  apply g3_next
  try dsimp only

theorem g3one_next (m : Fin 16) (func : ℕ) (gd : Fin 32) (ga : Fin 32) (f : Word → Word) (s : State) : ∃ σ, g3one m func gd ga f s = .next σ ∧
    Keeps s σ := by
  unfold g3one
  apply isaReg_next
  try dsimp only

theorem execClz_next (m : Fin 16) (gd : Fin 32) (ga : Fin 32) (s : State) : ∃ σ, execClz m gd ga s = .next σ ∧ Keeps s σ := by
  unfold execClz
  apply g3one_next
  try dsimp only

theorem execSltiu_next (m : Fin 16) (gd : Fin 32) (ga : Fin 32) (imm : BitVec 16) (s : State) : ∃ σ, execSltiu m gd ga imm s = .next σ ∧ Keeps s
    σ := by
  unfold execSltiu
  apply gi_next
  try dsimp only

theorem execSrai_next (m : Fin 16) (gd : Fin 32) (ga : Fin 32) (sh : Fin 32) (s : State) : ∃ σ, execSrai m gd ga sh s = .next σ ∧ Keeps s σ := by
  unfold execSrai
  apply g3sh_next
  try dsimp only

theorem execBl_next (m : Fin 16) (off : BitVec 21) (s : State) : ∃ σ, execBl m off s = .next σ ∧ Keeps s σ := by
  unfold execBl
  apply isa_next
  try dsimp only
  repeat' with_reducible first | assumption | intro _ | apply jump_keeps | apply State.setMason_keeps

theorem execSltu_next (m : Fin 16) (gd : Fin 32) (ga : Fin 32) (gb : Fin 32) (s : State) : ∃ σ, execSltu m gd ga gb s = .next σ ∧ Keeps s σ := by
  unfold execSltu
  apply g3_next
  try dsimp only

theorem execBCond_next (m : Fin 16) (cond : BitVec 5) (off : BitVec 21) (s : State) : ∃ σ, execBCond m cond off s = .next σ ∧ Keeps s σ := by
  unfold execBCond
  apply isa_next
  try dsimp only
  repeat' with_reducible first | assumption | intro _ | apply turnKeeps_next | apply illegal_keeps | apply jump_keeps | split

theorem execSlli_next (m : Fin 16) (gd : Fin 32) (ga : Fin 32) (sh : Fin 32) (s : State) : ∃ σ, execSlli m gd ga sh s = .next σ ∧ Keeps s σ := by
  unfold execSlli
  apply g3sh_next
  try dsimp only

theorem execAddi_next (m : Fin 16) (gd : Fin 32) (ga : Fin 32) (imm : BitVec 16) (s : State) : ∃ σ, execAddi m gd ga imm s = .next σ ∧ Keeps s σ
    := by
  unfold execAddi
  apply gi_next
  try dsimp only

theorem execMaxu_next (m : Fin 16) (gd : Fin 32) (ga : Fin 32) (gb : Fin 32) (s : State) : ∃ σ, execMaxu m gd ga gb s = .next σ ∧ Keeps s σ := by
  unfold execMaxu
  apply g3_next
  try dsimp only

theorem execPopc_next (m : Fin 16) (gd : Fin 32) (ga : Fin 32) (s : State) : ∃ σ, execPopc m gd ga s = .next σ ∧ Keeps s σ := by
  unfold execPopc
  apply g3one_next
  try dsimp only

theorem execMulhu_next (m : Fin 16) (gd : Fin 32) (ga : Fin 32) (gb : Fin 32) (s : State) : ∃ σ, execMulhu m gd ga gb s = .next σ ∧ Keeps s σ :=
    by
  unfold execMulhu
  apply g3_next
  try dsimp only

theorem execAndi_next (m : Fin 16) (gd : Fin 32) (ga : Fin 32) (imm : BitVec 16) (s : State) : ∃ σ, execAndi m gd ga imm s = .next σ ∧ Keeps s σ
    := by
  unfold execAndi
  apply gi_next
  try dsimp only

theorem execMin_next (m : Fin 16) (gd : Fin 32) (ga : Fin 32) (gb : Fin 32) (s : State) : ∃ σ, execMin m gd ga gb s = .next σ ∧ Keeps s σ := by
  unfold execMin
  apply g3_next
  try dsimp only

theorem execSlt_next (m : Fin 16) (gd : Fin 32) (ga : Fin 32) (gb : Fin 32) (s : State) : ∃ σ, execSlt m gd ga gb s = .next σ ∧ Keeps s σ := by
  unfold execSlt
  apply g3_next
  try dsimp only

theorem execSub_next (m : Fin 16) (gd : Fin 32) (ga : Fin 32) (gb : Fin 32) (s : State) : ∃ σ, execSub m gd ga gb s = .next σ ∧ Keeps s σ := by
  unfold execSub
  apply g3_next
  try dsimp only

theorem execOr_next (m : Fin 16) (gd : Fin 32) (ga : Fin 32) (gb : Fin 32) (s : State) : ∃ σ, execOr m gd ga gb s = .next σ ∧ Keeps s σ := by
  unfold execOr
  apply g3_next
  try dsimp only

theorem execMax_next (m : Fin 16) (gd : Fin 32) (ga : Fin 32) (gb : Fin 32) (s : State) : ∃ σ, execMax m gd ga gb s = .next σ ∧ Keeps s σ := by
  unfold execMax
  apply g3_next
  try dsimp only

theorem execJalr_next (m : Fin 16) (gd : Fin 32) (ga : Fin 32) (s : State) : ∃ σ, execJalr m gd ga s = .next σ ∧ Keeps s σ := by
  unfold execJalr
  apply isa_next
  try dsimp only
  repeat' with_reducible first | assumption | intro _ | apply jump_keeps | apply State.setMason_keeps

theorem execSra_next (m : Fin 16) (gd : Fin 32) (ga : Fin 32) (gb : Fin 32) (s : State) : ∃ σ, execSra m gd ga gb s = .next σ ∧ Keeps s σ := by
  unfold execSra
  apply g3_next
  try dsimp only

theorem execMul_next (m : Fin 16) (gd : Fin 32) (ga : Fin 32) (gb : Fin 32) (s : State) : ∃ σ, execMul m gd ga gb s = .next σ ∧ Keeps s σ := by
  unfold execMul
  apply g3_next
  try dsimp only

theorem execOri_next (m : Fin 16) (gd : Fin 32) (ga : Fin 32) (imm : BitVec 16) (s : State) : ∃ σ, execOri m gd ga imm s = .next σ ∧ Keeps s σ :=
    by
  unfold execOri
  apply gi_next
  try dsimp only

theorem execXor_next (m : Fin 16) (gd : Fin 32) (ga : Fin 32) (gb : Fin 32) (s : State) : ∃ σ, execXor m gd ga gb s = .next σ ∧ Keeps s σ := by
  unfold execXor
  apply g3_next
  try dsimp only

theorem execCtz_next (m : Fin 16) (gd : Fin 32) (ga : Fin 32) (s : State) : ∃ σ, execCtz m gd ga s = .next σ ∧ Keeps s σ := by
  unfold execCtz
  apply g3one_next
  try dsimp only

theorem execLui_next (m : Fin 16) (gd : Fin 32) (imm : BitVec 16) (s : State) : ∃ σ, execLui m gd imm s = .next σ ∧ Keeps s σ := by
  unfold execLui
  apply isaReg_next
  try dsimp only

theorem execTst_next (m : Fin 16) (ga : Fin 32) (gb : Fin 32) (s : State) : ∃ σ, execTst m ga gb s = .next σ ∧ Keeps s σ := by
  unfold execTst
  apply isaReg_next
  try dsimp only

theorem execAnd_next (m : Fin 16) (gd : Fin 32) (ga : Fin 32) (gb : Fin 32) (s : State) : ∃ σ, execAnd m gd ga gb s = .next σ ∧ Keeps s σ := by
  unfold execAnd
  apply g3_next
  try dsimp only

theorem execCmp_next (m : Fin 16) (ga : Fin 32) (gb : Fin 32) (s : State) : ∃ σ, execCmp m ga gb s = .next σ ∧ Keeps s σ := by
  unfold execCmp
  apply isaReg_next
  try dsimp only

theorem execSrli_next (m : Fin 16) (gd : Fin 32) (ga : Fin 32) (sh : Fin 32) (s : State) : ∃ σ, execSrli m gd ga sh s = .next σ ∧ Keeps s σ := by
  unfold execSrli
  apply g3sh_next
  try dsimp only

theorem execSlti_next (m : Fin 16) (gd : Fin 32) (ga : Fin 32) (imm : BitVec 16) (s : State) : ∃ σ, execSlti m gd ga imm s = .next σ ∧ Keeps s σ
    := by
  unfold execSlti
  apply gi_next
  try dsimp only

theorem execAdd_next (m : Fin 16) (gd : Fin 32) (ga : Fin 32) (gb : Fin 32) (s : State) : ∃ σ, execAdd m gd ga gb s = .next σ ∧ Keeps s σ := by
  unfold execAdd
  apply g3_next
  try dsimp only

theorem execMulh_next (m : Fin 16) (gd : Fin 32) (ga : Fin 32) (gb : Fin 32) (s : State) : ∃ σ, execMulh m gd ga gb s = .next σ ∧ Keeps s σ := by
  unfold execMulh
  apply g3_next
  try dsimp only

theorem store_next (m : Fin 16) (op : ℕ) (rs : ℕ) (ga : Fin 32) (off : BitVec 16) (n : ℕ) (align : ℕ) (f : State → ℕ → Mason → State) (s : State)
    (hf : ∀ t n x, Keeps s t → Keeps s (f t n x)) : ∃ σ, store m op rs ga off n align f s = .next σ ∧ Keeps s σ := by
  unfold store
  apply isa_next
  try dsimp only
  repeat' with_reducible first | assumption | intro _ | apply hf | apply turnKeeps_next | exact turnKeeps_trap .. | split

theorem execVst_next (m : Fin 16) (vs : Fin 8) (ga : Fin 32) (off : BitVec 16) (s : State) : ∃ σ, execVst m vs ga off s = .next σ ∧ Keeps s σ :=
    by
  unfold execVst
  apply store_next
  try dsimp only
  repeat' with_reducible first | assumption | intro _ | apply State.dstores_keeps

theorem storeG_next (m : Fin 16) (op : ℕ) (gs : Fin 32) (ga : Fin 32) (off : BitVec 16) (n : ℕ) (s : State) : ∃ σ, storeG m op gs ga off n s =
    .next σ ∧ Keeps s σ := by
  unfold storeG
  apply store_next
  try dsimp only
  repeat' with_reducible first | assumption | intro _ | apply State.dstore_keeps

theorem load_next (m : Fin 16) (op : ℕ) (rd : ℕ) (ga : Fin 32) (off : BitVec 16) (n : ℕ) (align : ℕ) (f : State → ℕ → Mason → Mason) (s : State)
    : ∃ σ, load m op rd ga off n align f s = .next σ ∧ Keeps s σ := by
  unfold load
  apply isa_next
  try dsimp only
  repeat' with_reducible first | assumption | intro _ | apply turnKeeps_next | exact turnKeeps_trap .. | apply State.setMason_keeps | split

theorem execVld_next (m : Fin 16) (vd : Fin 8) (ga : Fin 32) (off : BitVec 16) (s : State) : ∃ σ, execVld m vd ga off s = .next σ ∧ Keeps s σ :=
    by
  unfold execVld
  apply load_next
  try dsimp only

theorem loadG_next (m : Fin 16) (op : ℕ) (gd : Fin 32) (ga : Fin 32) (off : BitVec 16) (n : ℕ) (ext : ℕ → Word) (s : State) : ∃ σ, loadG m op gd
    ga off n ext s = .next σ ∧ Keeps s σ := by
  unfold loadG
  apply load_next
  try dsimp only

theorem execLdb_next (m : Fin 16) (gd : Fin 32) (ga : Fin 32) (off : BitVec 16) (s : State) : ∃ σ, execLdb m gd ga off s = .next σ ∧ Keeps s σ :=
    by
  unfold execLdb
  apply loadG_next
  try dsimp only

theorem execSth_next (m : Fin 16) (gs : Fin 32) (ga : Fin 32) (off : BitVec 16) (s : State) : ∃ σ, execSth m gs ga off s = .next σ ∧ Keeps s σ :=
    by
  unfold execSth
  apply storeG_next
  try dsimp only

theorem execStb_next (m : Fin 16) (gs : Fin 32) (ga : Fin 32) (off : BitVec 16) (s : State) : ∃ σ, execStb m gs ga off s = .next σ ∧ Keeps s σ :=
    by
  unfold execStb
  apply storeG_next
  try dsimp only

theorem execLdh_next (m : Fin 16) (gd : Fin 32) (ga : Fin 32) (off : BitVec 16) (s : State) : ∃ σ, execLdh m gd ga off s = .next σ ∧ Keeps s σ :=
    by
  unfold execLdh
  apply loadG_next
  try dsimp only

theorem execLdbu_next (m : Fin 16) (gd : Fin 32) (ga : Fin 32) (off : BitVec 16) (s : State) : ∃ σ, execLdbu m gd ga off s = .next σ ∧ Keeps s σ
    := by
  unfold execLdbu
  apply loadG_next
  try dsimp only

theorem execLdhu_next (m : Fin 16) (gd : Fin 32) (ga : Fin 32) (off : BitVec 16) (s : State) : ∃ σ, execLdhu m gd ga off s = .next σ ∧ Keeps s σ
    := by
  unfold execLdhu
  apply loadG_next
  try dsimp only

theorem execStw_next (m : Fin 16) (gs : Fin 32) (ga : Fin 32) (off : BitVec 16) (s : State) : ∃ σ, execStw m gs ga off s = .next σ ∧ Keeps s σ :=
    by
  unfold execStw
  apply storeG_next
  try dsimp only

theorem execLdw_next (m : Fin 16) (gd : Fin 32) (ga : Fin 32) (off : BitVec 16) (s : State) : ∃ σ, execLdw m gd ga off s = .next σ ∧ Keeps s σ :=
    by
  unfold execLdw
  apply loadG_next
  try dsimp only

theorem v3_next (m : Fin 16) (func : ℕ) (vd : Fin 8) (va : Fin 8) (vb : Fin 8) (f : Word → Word → Word) (s : State) : ∃ σ, v3 m func vd va vb f s
    = .next σ ∧ Keeps s σ := by
  unfold v3
  apply isaReg_next
  try dsimp only

theorem execVadd_next (m : Fin 16) (vd : Fin 8) (va : Fin 8) (vb : Fin 8) (s : State) : ∃ σ, execVadd m vd va vb s = .next σ ∧ Keeps s σ := by
  unfold execVadd
  apply v3_next
  try dsimp only

theorem v3sat_next (m : Fin 16) (func : ℕ) (vd : Fin 8) (va : Fin 8) (vb : Fin 8) (f : ℤ → ℤ → ℤ) (s : State) : ∃ σ, v3sat m func vd va vb f s =
    .next σ ∧ Keeps s σ := by
  unfold v3sat
  apply isaReg_next
  try dsimp only

theorem execVmulq_next (m : Fin 16) (vd : Fin 8) (va : Fin 8) (vb : Fin 8) (s : State) : ∃ σ, execVmulq m vd va vb s = .next σ ∧ Keeps s σ := by
  unfold execVmulq
  apply v3sat_next
  try dsimp only

theorem execVabs_next (m : Fin 16) (vd : Fin 8) (va : Fin 8) (s : State) : ∃ σ, execVabs m vd va s = .next σ ∧ Keeps s σ := by
  unfold execVabs
  apply isaReg_next
  try dsimp only

theorem execVredsum_next (m : Fin 16) (gd : Fin 32) (va : Fin 8) (s : State) : ∃ σ, execVredsum m gd va s = .next σ ∧ Keeps s σ := by
  unfold execVredsum
  apply isaReg_next
  try dsimp only

theorem vsh_next (m : Fin 16) (func : ℕ) (vd : Fin 8) (va : Fin 8) (sh : Fin 32) (f : Word → ℕ → Word) (s : State) : ∃ σ, vsh m func vd va sh f s
    = .next σ ∧ Keeps s σ := by
  unfold vsh
  apply isaReg_next
  try dsimp only

theorem execVcgtg_next (m : Fin 16) (vd : Fin 8) (va : Fin 8) (ga : Fin 32) (s : State) : ∃ σ, execVcgtg m vd va ga s = .next σ ∧ Keeps s σ := by
  unfold execVcgtg
  apply isaReg_next
  try dsimp only

theorem execVmin_next (m : Fin 16) (vd : Fin 8) (va : Fin 8) (vb : Fin 8) (s : State) : ∃ σ, execVmin m vd va vb s = .next σ ∧ Keeps s σ := by
  unfold execVmin
  apply v3_next
  try dsimp only

theorem execVor_next (m : Fin 16) (vd : Fin 8) (va : Fin 8) (vb : Fin 8) (s : State) : ∃ σ, execVor m vd va vb s = .next σ ∧ Keeps s σ := by
  unfold execVor
  apply v3_next
  try dsimp only

theorem execVpair_next (m : Fin 16) (vd : Fin 8) (va : Fin 8) (s : State) : ∃ σ, execVpair m vd va s = .next σ ∧ Keeps s σ := by
  unfold execVpair
  apply isaReg_next
  try dsimp only

theorem execVmask_next (m : Fin 16) (vd : Fin 8) (ga : Fin 32) (s : State) : ∃ σ, execVmask m vd ga s = .next σ ∧ Keeps s σ := by
  unfold execVmask
  apply isaReg_next
  try dsimp only

theorem execVsrli_next (m : Fin 16) (vd : Fin 8) (va : Fin 8) (sh : Fin 32) (s : State) : ∃ σ, execVsrli m vd va sh s = .next σ ∧ Keeps s σ := by
  unfold execVsrli
  apply vsh_next
  try dsimp only

theorem execVadds_next (m : Fin 16) (vd : Fin 8) (va : Fin 8) (vb : Fin 8) (s : State) : ∃ σ, execVadds m vd va vb s = .next σ ∧ Keeps s σ := by
  unfold execVadds
  apply v3sat_next
  try dsimp only

theorem execVmax_next (m : Fin 16) (vd : Fin 8) (va : Fin 8) (vb : Fin 8) (s : State) : ∃ σ, execVmax m vd va vb s = .next σ ∧ Keeps s σ := by
  unfold execVmax
  apply v3_next
  try dsimp only

theorem vred_next (m : Fin 16) (func : ℕ) (gd : Fin 32) (va : Fin 8) (f : List Word → Word) (s : State) : ∃ σ, vred m func gd va f s = .next σ ∧
    Keeps s σ := by
  unfold vred
  apply isaReg_next
  try dsimp only

theorem execVand_next (m : Fin 16) (vd : Fin 8) (va : Fin 8) (vb : Fin 8) (s : State) : ∃ σ, execVand m vd va vb s = .next σ ∧ Keeps s σ := by
  unfold execVand
  apply v3_next
  try dsimp only

theorem execVxor_next (m : Fin 16) (vd : Fin 8) (va : Fin 8) (vb : Fin 8) (s : State) : ∃ σ, execVxor m vd va vb s = .next σ ∧ Keeps s σ := by
  unfold execVxor
  apply v3_next
  try dsimp only

theorem execVredmax_next (m : Fin 16) (gd : Fin 32) (va : Fin 8) (s : State) : ∃ σ, execVredmax m gd va s = .next σ ∧ Keeps s σ := by
  unfold execVredmax
  apply vred_next
  try dsimp only

theorem execVredmin_next (m : Fin 16) (gd : Fin 32) (va : Fin 8) (s : State) : ∃ σ, execVredmin m gd va s = .next σ ∧ Keeps s σ := by
  unfold execVredmin
  apply vred_next
  try dsimp only

theorem execVargmax_next (m : Fin 16) (gd : Fin 32) (va : Fin 8) (s : State) : ∃ σ, execVargmax m gd va s = .next σ ∧ Keeps s σ := by
  unfold execVargmax
  apply vred_next
  try dsimp only

theorem execVaddg_next (m : Fin 16) (vd : Fin 8) (va : Fin 8) (ga : Fin 32) (s : State) : ∃ σ, execVaddg m vd va ga s = .next σ ∧ Keeps s σ := by
  unfold execVaddg
  apply isaReg_next
  try dsimp only

theorem execVmovmsk_next (m : Fin 16) (gd : Fin 32) (va : Fin 8) (s : State) : ∃ σ, execVmovmsk m gd va s = .next σ ∧ Keeps s σ := by
  unfold execVmovmsk
  apply vred_next
  try dsimp only

theorem execVsubs_next (m : Fin 16) (vd : Fin 8) (va : Fin 8) (vb : Fin 8) (s : State) : ∃ σ, execVsubs m vd va vb s = .next σ ∧ Keeps s σ := by
  unfold execVsubs
  apply v3sat_next
  try dsimp only

theorem execVext_next (m : Fin 16) (gd : Fin 32) (va : Fin 8) (lane : Fin 16) (s : State) : ∃ σ, execVext m gd va lane s = .next σ ∧ Keeps s σ :=
    by
  unfold execVext
  apply isaReg_next
  try dsimp only

theorem execVins_next (m : Fin 16) (vd : Fin 8) (ga : Fin 32) (lane : Fin 16) (s : State) : ∃ σ, execVins m vd ga lane s = .next σ ∧ Keeps s σ :=
    by
  unfold execVins
  apply isaReg_next
  try dsimp only

theorem execVslli_next (m : Fin 16) (vd : Fin 8) (va : Fin 8) (sh : Fin 32) (s : State) : ∃ σ, execVslli m vd va sh s = .next σ ∧ Keeps s σ := by
  unfold execVslli
  apply vsh_next
  try dsimp only

theorem execVmov_next (m : Fin 16) (vd : Fin 8) (va : Fin 8) (s : State) : ∃ σ, execVmov m vd va s = .next σ ∧ Keeps s σ := by
  unfold execVmov
  apply isaReg_next
  try dsimp only

theorem execVmul_next (m : Fin 16) (vd : Fin 8) (va : Fin 8) (vb : Fin 8) (s : State) : ∃ σ, execVmul m vd va vb s = .next σ ∧ Keeps s σ := by
  unfold execVmul
  apply v3_next
  try dsimp only

theorem execVcgt_next (m : Fin 16) (vd : Fin 8) (va : Fin 8) (vb : Fin 8) (s : State) : ∃ σ, execVcgt m vd va vb s = .next σ ∧ Keeps s σ := by
  unfold execVcgt
  apply v3_next
  try dsimp only

theorem execVsat24_next (m : Fin 16) (vd : Fin 8) (va : Fin 8) (s : State) : ∃ σ, execVsat24 m vd va s = .next σ ∧ Keeps s σ := by
  unfold execVsat24
  apply isaReg_next
  try dsimp only

theorem execVsrai_next (m : Fin 16) (vd : Fin 8) (va : Fin 8) (sh : Fin 32) (s : State) : ∃ σ, execVsrai m vd va sh s = .next σ ∧ Keeps s σ := by
  unfold execVsrai
  apply vsh_next
  try dsimp only

theorem execVceq_next (m : Fin 16) (vd : Fin 8) (va : Fin 8) (vb : Fin 8) (s : State) : ∃ σ, execVceq m vd va vb s = .next σ ∧ Keeps s σ := by
  unfold execVceq
  apply v3_next
  try dsimp only

theorem execVsub_next (m : Fin 16) (vd : Fin 8) (va : Fin 8) (vb : Fin 8) (s : State) : ∃ σ, execVsub m vd va vb s = .next σ ∧ Keeps s σ := by
  unfold execVsub
  apply v3_next
  try dsimp only

theorem execVsplat_next (m : Fin 16) (vd : Fin 8) (ga : Fin 32) (s : State) : ∃ σ, execVsplat m vd ga s = .next σ ∧ Keeps s σ := by
  unfold execVsplat
  apply isaReg_next
  try dsimp only

theorem pqIsa_next (m : Fin 16) (w : Word) (ga : Fin 32) (f : State → Mason → ℕ → Turn) (s : State) (hf : ∀ t x n, Keeps s t → TurnKeeps s (f t x
    n)) : ∃ σ, pqIsa m w ga f s = .next σ ∧ Keeps s σ := by
  unfold pqIsa
  apply isa_next
  try dsimp only
  repeat' with_reducible first | assumption | intro _ | apply hf | apply stDone_keeps | apply keeps_ite | split

theorem execPqflush_next (m : Fin 16) (ga : Fin 32) (s : State) : ∃ σ, execPqflush m ga s = .next σ ∧ Keeps s σ := by
  unfold execPqflush
  apply pqIsa_next
  try dsimp only
  repeat' with_reducible first | assumption | intro _ | apply stDone_keeps | apply State.setPq_keeps

theorem execHput_next (m : Fin 16) (ga : Fin 32) (gb : Fin 32) (gc : Fin 32) (s : State) : ∃ σ, execHput m ga gb gc s = .next σ ∧ Keeps s σ := by
  unfold execHput
  apply isa_next
  try dsimp only
  repeat' with_reducible first
    | assumption | intro _ | exact turnKeeps_trap .. | exact turnKeeps_stall .. | apply stDone_keeps | apply hputRec_keeps | apply keeps_ite
    | split

theorem execGap_next (m : Fin 16) (ga : Fin 32) (gb : Fin 32) (gc : Fin 32) (s : State) : ∃ σ, execGap m ga gb gc s = .next σ ∧ Keeps s σ := by
  unfold execGap
  apply isa_next
  try dsimp only
  repeat' with_reducible first
    | assumption | intro _ | apply illegal_keeps | apply stDone_keeps | apply appendRec_keeps | apply keeps_ite | split

theorem execPqputn_next (m : Fin 16) (ga : Fin 32) (gb : Fin 32) (s : State) : ∃ σ, execPqputn m ga gb s = .next σ ∧ Keeps s σ := by
  unfold execPqputn
  apply pqIsa_next
  try dsimp only
  repeat' with_reducible first | assumption | intro _ | apply stDone_keeps | apply State.setPq_keeps | apply keeps_ite | split

theorem execHclose_next (m : Fin 16) (ga : Fin 32) (s : State) : ∃ σ, execHclose m ga s = .next σ ∧ Keeps s σ := by
  unfold execHclose
  apply isa_next
  try dsimp only
  repeat' with_reducible first | assumption | intro _ | apply stDone_keeps | apply State.handSlot_keeps | apply keeps_ite | split

theorem execHopen_next (m : Fin 16) (gd : Fin 32) (ga : Fin 32) (gb : Fin 32) (s : State) : ∃ σ, execHopen m gd ga gb s = .next σ ∧ Keeps s σ :=
    by
  unfold execHopen
  apply isa_next
  try dsimp only
  repeat' with_reducible first | assumption | intro _ | apply stDone_keeps | apply State.setMason_keeps | apply keeps_ite | split

theorem execPqopen_next (m : Fin 16) (ga : Fin 32) (gb : Fin 32) (s : State) : ∃ σ, execPqopen m ga gb s = .next σ ∧ Keeps s σ := by
  unfold execPqopen
  apply pqIsa_next
  try dsimp only
  repeat' with_reducible first
    | assumption | intro _ | exact turnKeeps_stall .. | apply stDone_keeps | apply State.pqFlag_keeps | apply State.setPq_keeps | apply keeps_ite
    | split

theorem execTgetc_next (m : Fin 16) (gd : Fin 32) (ga : Fin 32) (s : State) : ∃ σ, execTgetc m gd ga s = .next σ ∧ Keeps s σ := by
  unfold execTgetc
  apply isa_next
  try dsimp only
  repeat' with_reducible first
    | assumption | intro _ | apply illegal_keeps | apply stDone_keeps | apply State.setMason_keeps | apply keeps_ite | split

theorem execPqclose_next (m : Fin 16) (ga : Fin 32) (s : State) : ∃ σ, execPqclose m ga s = .next σ ∧ Keeps s σ := by
  unfold execPqclose
  apply pqIsa_next
  try dsimp only
  repeat' with_reducible first | assumption | intro _ | apply State.pqClose_keeps | apply stDone_keeps

theorem execTget_next (m : Fin 16) (gd : Fin 32) (s : State) : ∃ σ, execTget m gd s = .next σ ∧ Keeps s σ := by
  unfold execTget
  apply isa_next
  try dsimp only
  repeat' with_reducible first
    | assumption | intro _ | apply illegal_keeps | apply stDone_keeps | apply State.setMason_keeps | apply keeps_ite | split

theorem execCourse_next (m : Fin 16) (gd : Fin 32) (vd : Fin 8) (s : State) : ∃ σ, execCourse m gd vd s = .next σ ∧ Keeps s σ := by
  unfold execCourse
  apply isa_next
  try dsimp only
  repeat' with_reducible first
    | assumption | intro _ | apply illegal_keeps | apply popCourse_keeps | apply stDone_keeps | apply keeps_ite | split

theorem execPqput_next (m : Fin 16) (ga : Fin 32) (gb : Fin 32) (s : State) : ∃ σ, execPqput m ga gb s = .next σ ∧ Keeps s σ := by
  unfold execPqput
  apply pqIsa_next
  try dsimp only
  repeat' with_reducible first
    | assumption | intro _ | exact turnKeeps_stall .. | apply stDone_keeps | apply State.setPq_keeps | apply keeps_ite | split

theorem execPqget_next (m : Fin 16) (gd : Fin 32) (ga : Fin 32) (s : State) : ∃ σ, execPqget m gd ga s = .next σ ∧ Keeps s σ := by
  unfold execPqget
  apply pqIsa_next
  try dsimp only
  repeat' with_reducible first | assumption | intro _ | apply State.pqPop_keeps | apply stDone_keeps | apply State.setMason_keeps

theorem execCourseW_next (m : Fin 16) (gd : Fin 32) (vd : Fin 8) (s : State) : ∃ σ, execCourseW m gd vd s = .next σ ∧ Keeps s σ := by
  unfold execCourseW
  apply isa_next
  try dsimp only
  repeat' with_reducible first
    | assumption | intro _ | exact turnKeeps_stall .. | apply illegal_keeps | apply popCourse_keeps | apply keeps_ite | split

theorem execPqcnt_next (m : Fin 16) (gd : Fin 32) (ga : Fin 32) (s : State) : ∃ σ, execPqcnt m gd ga s = .next σ ∧ Keeps s σ := by
  unfold execPqcnt
  apply pqIsa_next
  try dsimp only
  repeat' with_reducible first | assumption | intro _ | apply stDone_keeps | apply State.setMason_keeps

theorem execMark_next (m : Fin 16) (ga : Fin 32) (gb : Fin 32) (gc : Fin 32) (gd : Fin 32) (s : State) : ∃ σ, execMark m ga gb gc gd s = .next σ
    ∧ Keeps s σ := by
  unfold execMark
  apply isa_next
  try dsimp only
  repeat' with_reducible first
    | assumption | intro _ | apply illegal_keeps | apply stDone_keeps | apply appendRec_keeps | apply keeps_ite | split

theorem execPor_next  (s : State) : ∃ σ, execPor s = .next σ ∧ Keeps s σ := by
  refine ⟨_, rfl, ?_⟩
  have h := Keeps.refl s
  try dsimp only
  repeat' with_reducible first
    | assumption | apply State.hubReset_keeps | apply State.finishBatch_keeps | apply keeps_ite | split | apply keeps_mk

theorem execMainPowerGood_next  (s : State) : ∃ σ, execMainPowerGood s = .next σ ∧ Keeps s σ := by
  refine ⟨_, rfl, ?_⟩
  have h := Keeps.refl s
  try dsimp only
  repeat' with_reducible first | assumption | apply State.rails_keeps | apply keeps_ite | split | apply keeps_mk

theorem execWdtKick_next (r : Req) (v : Word) (s : State) : ∃ σ, execWdtKick r v s = .next σ ∧ Keeps s σ := by
  unfold execWdtKick
  refine act_keeps _ s ?_
  intro σ h
  try dsimp only
  repeat' with_reducible first | assumption | intro _ | apply regWrite_keeps | apply State.fin_keeps | apply State.setF_keeps | apply keeps_ite

theorem execVbatLoss_next  (s : State) : ∃ σ, execVbatLoss s = .next σ ∧ Keeps s σ := by
  refine ⟨_, rfl, ?_⟩
  have h := Keeps.refl s
  try dsimp only
  repeat' with_reducible first | assumption | apply State.setW_keeps | apply State.setF_keeps | apply keeps_ite | split | apply keeps_mk

theorem execWdogExpire_next (a0 : Lasted) (s : State) : ∃ σ, execWdogExpire a0 s = .next σ ∧ Keeps s σ := by
  unfold execWdogExpire
  refine act_keeps _ s ?_
  intro σ h
  try dsimp only
  repeat' with_reducible first
    | assumption | apply State.deferredReset_keeps | apply State.raiseBit_keeps | apply State.setF_keeps | apply keeps_ite

theorem execMainPowerLoss_next  (s : State) : ∃ σ, execMainPowerLoss s = .next σ ∧ Keeps s σ := by
  refine ⟨_, rfl, ?_⟩
  have h := Keeps.refl s
  try dsimp only
  repeat' with_reducible first | assumption | apply State.rails_keeps

theorem execClkf_next (clock : Fin 3) (n : BitVec 7) (s : State) : ∃ σ, execClkf clock n s = .next σ ∧ Keeps s σ := by
  unfold execClkf
  refine act_keeps _ s ?_
  intro σ h
  try dsimp only
  repeat' with_reducible first | assumption | apply State.deferredReset_keeps | apply State.raiseBit_keeps | apply keeps_ite

theorem execDebugReset_next (n : BitVec 7) (s : State) : ∃ σ, execDebugReset n s = .next σ ∧ Keeps s σ := by
  refine ⟨_, rfl, ?_⟩
  have h := Keeps.refl s
  try dsimp only
  repeat' with_reducible first | assumption | apply State.debugReset_keeps

theorem execPin_next (a0 : Lasted) (s : State) : ∃ σ, execPin a0 s = .next σ ∧ Keeps s σ := by
  unfold execPin
  refine act_keeps _ s ?_
  intro σ h
  try dsimp only
  repeat' with_reducible first
    | assumption | apply State.deferredReset_keeps | apply State.draw_keeps | apply keeps_ite | split | refine Keeps.of_fst (by assumption) ?_
    | apply keeps_mk

theorem execBor_next (a0 : Rails) (s : State) : ∃ σ, execBor a0 s = .next σ ∧ Keeps s σ := by
  refine ⟨_, rfl, ?_⟩
  have h := Keeps.refl s
  try dsimp only
  repeat' with_reducible first | assumption | apply State.rails_keeps

theorem execVddAonPowerOn_next  (s : State) : ∃ σ, execVddAonPowerOn s = .next σ ∧ Keeps s σ := by
  refine ⟨_, rfl, ?_⟩
  have h := Keeps.refl s
  try dsimp only
  repeat' with_reducible first | assumption | apply State.csRestore_keeps | apply keeps_ite | split | apply keeps_mk

theorem execRstNHigh_next  (s : State) : ∃ σ, execRstNHigh s = .next σ ∧ Keeps s σ := by
  refine ⟨_, rfl, ?_⟩
  have h := Keeps.refl s
  try dsimp only
  repeat' with_reducible first | assumption | apply keeps_mk

theorem execSoft_next (r : Req) (v : Word) (n : BitVec 7) (s : State) : ∃ σ, execSoft r v n s = .next σ ∧ Keeps s σ := by
  unfold execSoft
  refine act_keeps _ s ?_
  intro σ h
  try dsimp only
  repeat' with_reducible first | assumption | intro _ | apply regWrite_keeps | apply State.writeRstCtl_keeps

theorem execLockup_next (a0 : Stuck) (s : State) : ∃ σ, execLockup a0 s = .next σ ∧ Keeps s σ := by
  unfold execLockup
  refine act_keeps _ s ?_
  intro σ h
  try dsimp only
  repeat' with_reducible first
    | assumption | apply State.lockup_keeps | apply State.fin_keeps | apply State.endAccess_keeps | apply State.rldStuck_keeps | apply keeps_ite
    | split

theorem execWriteB_next (r : Req) (vh : BitVec 16) (s : State) : ∃ σ, execWriteB r vh s = .next σ ∧ Keeps s σ := by
  unfold execWriteB
  refine act_keeps _ s ?_
  intro σ h
  try dsimp only
  repeat' with_reducible first | assumption | intro _ | apply regWrite_keeps | apply writeCopy_keeps

theorem execReadA_next (r : Req) (s : State) : ∃ σ, execReadA r s = .next σ ∧ Keeps s σ := by
  unfold execReadA
  refine act_keeps _ s ?_
  intro σ h
  try dsimp only
  repeat' with_reducible first | assumption | intro _ | apply regWrite_keeps | apply readCopy_keeps

theorem execWriteA_next (r : Req) (vh : BitVec 16) (s : State) : ∃ σ, execWriteA r vh s = .next σ ∧ Keeps s σ := by
  unfold execWriteA
  refine act_keeps _ s ?_
  intro σ h
  try dsimp only
  repeat' with_reducible first | assumption | intro _ | apply regWrite_keeps | apply writeCopy_keeps

theorem execNvCmd_next (r : Req) (v : Word) (vh : BitVec 16) (s : State) : ∃ σ, execNvCmd r v vh s = .next σ ∧ Keeps s σ := by
  unfold execNvCmd
  refine act_keeps _ s ?_
  intro σ h
  try dsimp only
  repeat' with_reducible first
    | assumption | intro _ | apply regWrite_keeps | apply State.fin_keeps | apply State.startBatch_keeps | apply keeps_ite

theorem execReadB_next (r : Req) (s : State) : ∃ σ, execReadB r s = .next σ ∧ Keeps s σ := by
  unfold execReadB
  refine act_keeps _ s ?_
  intro σ h
  try dsimp only
  repeat' with_reducible first | assumption | intro _ | apply regWrite_keeps | apply readCopy_keeps

theorem execOptionLoad_next (raw : BitVec 12) (errA : Bool) (errB : Bool) (s : State) : ∃ σ, execOptionLoad raw errA errB s = .next σ ∧ Keeps s σ
    := by
  unfold execOptionLoad
  refine act_keeps _ s ?_
  intro σ h
  try dsimp only
  repeat' with_reducible first
    | assumption | apply State.loadResult_keeps | apply State.measureCfgr_keeps | apply State.applyStrap_keeps | apply State.logRelease_keeps
    | apply State.inForce_keeps | apply keeps_ite | split | refine Keeps.of_fst (by assumption) ?_ | apply keeps_mk

theorem execRft_next (m : Fin 16) (s : State) : ∃ σ, execRft m s = .next σ ∧ Keeps s σ := by
  unfold execRft
  apply isa_next
  try dsimp only
  repeat' with_reducible first
    | assumption | intro _ | apply turnKeeps_goto | apply State.setF_keeps | apply illegal_keeps | apply keeps_ite | split

theorem execSprw_next (m : Fin 16) (ga : Fin 32) (n : BitVec 10) (s : State) : ∃ σ, execSprw m ga n s = .next σ ∧ Keeps s σ := by
  unfold execSprw
  apply isa_next
  try dsimp only
  repeat' with_reducible first
    | assumption | intro _ | apply turnKeeps_next | apply State.setF_keeps | apply State.setMason_keeps | apply illegal_keeps | apply keeps_ite
    | split

theorem execMtf_next (m : Fin 16) (ga : Fin 32) (s : State) : ∃ σ, execMtf m ga s = .next σ ∧ Keeps s σ := by
  unfold execMtf
  apply isaReg_next
  try dsimp only

theorem execEvt_next (m : Fin 16) (ga : Fin 32) (code : Fin 128) (s : State) : ∃ σ, execEvt m ga code s = .next σ ∧ Keeps s σ := by
  unfold execEvt
  apply isa_next
  try dsimp only
  repeat' with_reducible first
    | assumption | intro _ | apply turnKeeps_next | exact turnKeeps_stall .. | apply State.raise_keeps | apply State.setMason_keeps
    | apply keeps_ite | split

theorem execMff_next (m : Fin 16) (gd : Fin 32) (s : State) : ∃ σ, execMff m gd s = .next σ ∧ Keeps s σ := by
  unfold execMff
  apply isaReg_next
  try dsimp only

theorem execWait_next (m : Fin 16) (gd : Fin 32) (ga : Fin 32) (src : Fin 8) (s : State) : ∃ σ, execWait m gd ga src s = .next σ ∧ Keeps s σ :=
    by
  unfold execWait
  apply isa_next
  try dsimp only
  repeat' with_reducible first
    | assumption | intro _ | apply turnKeeps_next | apply turnKeeps_gate | apply illegal_keeps | apply State.endWait_keeps
    | apply State.setF_keeps | apply State.setMason_keeps | apply keeps_ite | split

theorem execTrap_next (m : Fin 16) (imm : BitVec 10) (s : State) : ∃ σ, execTrap m imm s = .next σ ∧ Keeps s σ := by
  unfold execTrap
  apply isa_next
  try dsimp only
  repeat' with_reducible first | assumption | intro _ | exact turnKeeps_trap ..

theorem execSprd_next (m : Fin 16) (gd : Fin 32) (n : BitVec 10) (s : State) : ∃ σ, execSprd m gd n s = .next σ ∧ Keeps s σ := by
  unfold execSprd
  apply isa_next
  try dsimp only
  repeat' with_reducible first | assumption | intro _ | apply turnKeeps_next | apply State.setMason_keeps | apply illegal_keeps | split

theorem execMcStop_next (r : Req) (m : Fin 16) (v : Word) (s : State) : ∃ σ, execMcStop r m v s = .next σ ∧ Keeps s σ := by
  unfold execMcStop
  refine act_keeps _ s ?_
  intro σ h
  try dsimp only
  repeat' with_reducible first | assumption | apply mcWrite_keeps

theorem execDoorbellWrite_next (r : Req) (m : Fin 16) (v : Word) (s : State) : ∃ σ, execDoorbellWrite r m v s = .next σ ∧ Keeps s σ := by
  unfold execDoorbellWrite
  refine act_keeps _ s ?_
  intro σ h
  try dsimp only
  repeat' with_reducible first | assumption | intro _ | apply regWrite_keeps | apply State.fin_keeps | apply State.setW_keeps

theorem execMasonUncorr_next (m : Fin 16) (e : MasonErr) (s : State) : ∃ σ, execMasonUncorr m e s = .next σ ∧ Keeps s σ := by
  unfold execMasonUncorr
  refine act_keeps _ s ?_
  intro σ h
  try dsimp only
  repeat' with_reducible first
    | assumption | apply State.enterSafe_keeps | apply State.raiseBit_keeps | apply State.raise_keeps | split | apply keeps_mk

theorem execMasonMemWrite_next (r : Req) (m : Fin 16) (t : MemTarget) (v : Word) (s : State) : ∃ σ, execMasonMemWrite r m t v s = .next σ ∧ Keeps
    s σ := by
  unfold execMasonMemWrite
  refine act_keeps _ s ?_
  intro σ h
  try dsimp only
  repeat' with_reducible first | assumption | apply State.memWrite_keeps

theorem execMasonWake_next (m : Fin 16) (s : State) : ∃ σ, execMasonWake m s = .next σ ∧ Keeps s σ := by
  unfold execMasonWake
  refine act_keeps _ s ?_
  intro σ h
  try dsimp only
  repeat' with_reducible first
    | assumption | apply State.retire_keeps | apply State.setF_keeps | apply State.endWait_keeps | apply keeps_ite | split

theorem execMcGo_next (r : Req) (m : Fin 16) (v : Word) (s : State) : ∃ σ, execMcGo r m v s = .next σ ∧ Keeps s σ := by
  unfold execMcGo
  refine act_keeps _ s ?_
  intro σ h
  try dsimp only
  repeat' with_reducible first | assumption | apply mcWrite_keeps

theorem execMcHalt_next (r : Req) (m : Fin 16) (v : Word) (s : State) : ∃ σ, execMcHalt r m v s = .next σ ∧ Keeps s σ := by
  unfold execMcHalt
  refine act_keeps _ s ?_
  intro σ h
  try dsimp only
  repeat' with_reducible first | assumption | apply mcWrite_keeps

theorem execMasonHalted_next (m : Fin 16) (s : State) : ∃ σ, execMasonHalted m s = .next σ ∧ Keeps s σ := by
  unfold execMasonHalted
  refine act_keeps _ s ?_
  intro σ h
  try dsimp only
  repeat' with_reducible first | assumption | apply State.masonHalt_keeps | apply keeps_ite

theorem execTrapTaken_next (m : Fin 16) (s : State) : ∃ σ, execTrapTaken m s = .next σ ∧ Keeps s σ := by
  unfold execTrapTaken
  refine act_keeps _ s ?_
  intro σ h
  try dsimp only
  repeat' with_reducible first | assumption | apply State.trap_keeps | apply keeps_ite | split

theorem execPqOpen_next (r : Req) (q : Fin 64) (v : Word) (s : State) : ∃ σ, execPqOpen r q v s = .next σ ∧ Keeps s σ := by
  unfold execPqOpen
  refine act_keeps _ s ?_
  intro σ h
  try dsimp only
  repeat' with_reducible first | assumption | apply pqCtlWrite_keeps

theorem execPqPop_next (r : Req) (q : Fin 64) (s : State) : ∃ σ, execPqPop r q s = .next σ ∧ Keeps s σ := by
  unfold execPqPop
  refine act_keeps _ s ?_
  intro σ h
  try dsimp only
  repeat' with_reducible first
    | assumption | apply State.fin_keeps | apply State.finData_keeps | apply State.pqPop_keeps | apply keeps_ite | split

theorem execPqPush_next (r : Req) (q : Fin 64) (v : Word) (s : State) : ∃ σ, execPqPush r q v s = .next σ ∧ Keeps s σ := by
  unfold execPqPush
  refine act_keeps _ s ?_
  intro σ h
  try dsimp only
  repeat' with_reducible first
    | assumption | intro _ | apply regWrite_keeps | apply State.fin_keeps | apply State.pqFlag_keeps | apply State.setPq_keeps | apply keeps_ite

theorem execPqFlush_next (r : Req) (q : Fin 64) (v : Word) (s : State) : ∃ σ, execPqFlush r q v s = .next σ ∧ Keeps s σ := by
  unfold execPqFlush
  refine act_keeps _ s ?_
  intro σ h
  try dsimp only
  repeat' with_reducible first | assumption | apply pqCtlWrite_keeps

theorem execPqUncorr_next (q : Fin 64) (s : State) : ∃ σ, execPqUncorr q s = .next σ ∧ Keeps s σ := by
  unfold execPqUncorr
  refine act_keeps _ s ?_
  intro σ h
  try dsimp only
  repeat' with_reducible first | assumption | apply State.enterSafe_keeps | apply State.raise_keeps

theorem execPqClose_next (r : Req) (q : Fin 64) (v : Word) (s : State) : ∃ σ, execPqClose r q v s = .next σ ∧ Keeps s σ := by
  unfold execPqClose
  refine act_keeps _ s ?_
  intro σ h
  try dsimp only
  repeat' with_reducible first | assumption | apply pqCtlWrite_keeps

theorem execRewind_next (p : Fin 16) (ws : List Word) (s : State) : ∃ σ, execRewind p ws s = .next σ ∧ Keeps s σ := by
  unfold execRewind
  refine act_keeps _ s ?_
  intro σ h
  try dsimp only
  repeat' with_reducible first
    | assumption | intro _ | apply State.raiseBit_keeps | apply State.bump_keeps | apply State.setF_keeps | apply State.setW_keeps
    | apply inTurn_keeps | apply keeps_ite | split

theorem execYardScrub_next (fixed : Word) (uncorr : Option (BitVec 26)) (s : State) : ∃ σ, execYardScrub fixed uncorr s = .next σ ∧ Keeps s σ :=
    by
  unfold execYardScrub
  refine act_keeps _ s ?_
  intro σ h
  try dsimp only
  repeat' with_reducible first | assumption | apply State.bumpW_keeps | apply keeps_ite | split | apply keeps_mk

theorem execReserveHodWrite_next (p : Fin 16) (sid : Fin 8192) (s : State) : ∃ σ, execReserveHodWrite p sid s = .next σ ∧ Keeps s σ := by
  unfold execReserveHodWrite
  refine act_keeps _ s ?_
  intro σ h
  try dsimp only
  repeat' with_reducible first | assumption | apply State.writeReserve_keeps | apply keeps_ite

theorem execPkCtlWrite_next (r : Req) (t : Fin 24) (v : Word) (s : State) : ∃ σ, execPkCtlWrite r t v s = .next σ ∧ Keeps s σ := by
  unfold execPkCtlWrite
  refine act_keeps _ s ?_
  intro σ h
  try dsimp only
  repeat' with_reducible first | assumption | intro _ | apply regWrite_keeps | apply State.fin_keeps | apply State.setW_keeps | apply keeps_ite

theorem execDrainEnd_next  (s : State) : ∃ σ, execDrainEnd s = .next σ ∧ Keeps s σ := by
  unfold execDrainEnd
  refine act_keeps _ s ?_
  intro σ h
  try dsimp only
  repeat' with_reducible first | assumption | apply keeps_ite | split | apply keeps_mk

theorem execYardFlushExpire_next (sid : Fin 8192) (s : State) : ∃ σ, execYardFlushExpire sid s = .next σ ∧ Keeps s σ := by
  unfold execYardFlushExpire
  refine act_keeps _ s ?_
  intro σ h
  try dsimp only
  repeat' with_reducible first | assumption | apply State.flushHod_keeps | apply keeps_ite | split

theorem execHorizon_next (p : Fin 16) (ws : List Word) (s : State) : ∃ σ, execHorizon p ws s = .next σ ∧ Keeps s σ := by
  unfold execHorizon
  refine act_keeps _ s ?_
  intro σ h
  try dsimp only
  repeat' with_reducible first
    | assumption | intro _ | apply State.raiseBit_keeps | apply State.bump_keeps | apply State.horizon_keeps | apply inTurn_keeps
    | apply keeps_ite | split

theorem execYardSrefEnter_next  (s : State) : ∃ σ, execYardSrefEnter s = .next σ ∧ Keeps s σ := by
  unfold execYardSrefEnter
  refine act_keeps _ s ?_
  intro σ h
  try dsimp only
  repeat' with_reducible first | assumption | apply State.setF_keeps | apply keeps_ite

theorem execRingCfgWrite_next (r : Req) (p : Fin 16) (v : Word) (s : State) : ∃ σ, execRingCfgWrite r p v s = .next σ ∧ Keeps s σ := by
  unfold execRingCfgWrite
  refine act_keeps _ s ?_
  intro σ h
  try dsimp only
  repeat' with_reducible first
    | assumption | intro _ | apply regWrite_keeps | apply State.fin_keeps | apply State.setBases_keeps | apply State.setF_keeps
    | apply State.each_keeps | apply State.setRing_keeps | apply State.setW_keeps | apply keeps_ite

theorem execHodHandOn_next (sid : Fin 8192) (s : State) : ∃ σ, execHodHandOn sid s = .next σ ∧ Keeps s σ := by
  unfold execHodHandOn
  refine act_keeps _ s ?_
  intro σ h
  try dsimp only
  repeat' with_reducible first | assumption | apply State.handOn_keeps | apply keeps_ite

theorem execHodAdmit_next  (s : State) : ∃ σ, execHodAdmit s = .next σ ∧ Keeps s σ := by
  unfold execHodAdmit
  refine act_keeps _ s ?_
  intro σ h
  try dsimp only
  repeat' with_reducible first | assumption | apply State.admitNext_keeps

theorem execStreamHodTransmit_next (p : Fin 16) (s : State) : ∃ σ, execStreamHodTransmit p s = .next σ ∧ Keeps s σ := by
  unfold execStreamHodTransmit
  refine act_keeps _ s ?_
  intro σ h
  try dsimp only
  repeat' with_reducible first
    | assumption | intro _ | apply State.when_keeps | apply State.sendHod_keeps | apply State.bumpW_keeps | apply State.raiseBit_keeps
    | apply State.setW_keeps | apply State.setRing_keeps | apply State.pump_keeps | apply State.setF_keeps | apply keeps_ite | split

theorem execPxJobEnd_next  (s : State) : ∃ σ, execPxJobEnd s = .next σ ∧ Keeps s σ := by
  unfold execPxJobEnd
  refine act_keeps _ s ?_
  intro σ h
  try dsimp only
  repeat' with_reducible first | assumption | apply State.pxJobEnd_keeps

theorem execBlockEnd_next (e : Fin 4) (s : State) : ∃ σ, execBlockEnd e s = .next σ ∧ Keeps s σ := by
  unfold execBlockEnd
  refine act_keeps _ s ?_
  intro σ h
  try dsimp only
  repeat' with_reducible first | assumption | apply State.blockEnd_keeps

theorem execPcCtlWrite_next (r : Req) (e : Fin 4) (v : Word) (s : State) : ∃ σ, execPcCtlWrite r e v s = .next σ ∧ Keeps s σ := by
  unfold execPcCtlWrite
  refine act_keeps _ s ?_
  intro σ h
  try dsimp only
  repeat' with_reducible first | assumption | intro _ | apply regWrite_keeps | apply State.fin_keeps | apply State.setW_keeps | apply keeps_ite

theorem execPcMresWrite_next (r : Req) (e : Fin 4) (v : Word) (s : State) : ∃ σ, execPcMresWrite r e v s = .next σ ∧ Keeps s σ := by
  unfold execPcMresWrite
  refine act_keeps _ s ?_
  intro σ h
  try dsimp only
  repeat' with_reducible first | assumption | intro _ | apply regWrite_keeps | apply State.setW_keeps | apply State.fin_keeps | apply keeps_ite

theorem execPxGo_next (r : Req) (v : Word) (s : State) : ∃ σ, execPxGo r v s = .next σ ∧ Keeps s σ := by
  unfold execPxGo
  refine act_keeps _ s ?_
  intro σ h
  try dsimp only
  repeat' with_reducible first | assumption | intro _ | apply regWrite_keeps | apply State.fin_keeps | apply State.setF_keeps | apply keeps_ite

theorem execCommit_next (p : Fin 16) (tag : BitVec 7) (ws : List Word) (vh : BitVec 16) (s : State) : ∃ σ, execCommit p tag ws vh s = .next σ ∧
    Keeps s σ := by
  unfold execCommit
  refine act_keeps _ s ?_
  intro σ h
  try dsimp only
  repeat' with_reducible first
    | assumption | intro _ | apply request_keeps | apply State.fin_keeps | apply State.commitSteps_keeps | apply State.commitFail_keeps
    | apply State.commitDone_keeps | apply keeps_ite | split | refine Keeps.of_fst (by assumption) ?_

theorem execData_next (p : Fin 16) (tag : BitVec 7) (ws : List Word) (s : State) : ∃ σ, execData p tag ws s = .next σ ∧ Keeps s σ := by
  unfold execData
  refine act_keeps _ s ?_
  intro σ h
  try dsimp only
  repeat' with_reducible first | assumption | intro _ | apply request_keeps | apply State.fin_keeps | apply keeps_ite | split | apply keeps_mk

theorem execBegin_next (p : Fin 16) (tag : BitVec 7) (ws : List Word) (s : State) : ∃ σ, execBegin p tag ws s = .next σ ∧ Keeps s σ := by
  unfold execBegin
  refine act_keeps _ s ?_
  intro σ h
  try dsimp only
  repeat' with_reducible first | assumption | intro _ | apply request_keeps | apply State.fin_keeps | apply keeps_ite | split | apply keeps_mk

theorem execAbort_next (p : Fin 16) (tag : BitVec 7) (ws : List Word) (s : State) : ∃ σ, execAbort p tag ws s = .next σ ∧ Keeps s σ := by
  unfold execAbort
  refine act_keeps _ s ?_
  intro σ h
  try dsimp only
  repeat' with_reducible first | assumption | intro _ | apply request_keeps | apply State.fin_keeps | apply keeps_ite | split | apply keeps_mk

theorem execBlkRst_next (r : Req) (v : Word) (s : State) : ∃ σ, execBlkRst r v s = .next σ ∧ Keeps s σ := by
  unfold execBlkRst
  refine act_keeps _ s ?_
  intro σ h
  try dsimp only
  repeat' with_reducible first
    | assumption | intro _ | apply State.fin_keeps | apply State.csRefuse_keeps | apply regWrite_keeps | apply State.raiseBit_keeps
    | apply State.resetBlock_keeps | apply keeps_ite | split

theorem execReleaseStep_next (vh : BitVec 16) (s : State) : ∃ σ, execReleaseStep vh s = .next σ ∧ Keeps s σ := by
  unfold execReleaseStep
  refine act_keeps _ s ?_
  intro σ h
  try dsimp only
  repeat' with_reducible first | assumption | apply State.releaseStep_keeps

theorem execModeBringup_next (r : Req) (s : State) : ∃ σ, execModeBringup r s = .next σ ∧ Keeps s σ := by
  unfold execModeBringup
  refine act_keeps _ s ?_
  intro σ h
  try dsimp only
  repeat' with_reducible first | assumption | intro _ | apply regWrite_keeps | apply State.modeWrite_keeps

theorem execModeSafe_next (r : Req) (s : State) : ∃ σ, execModeSafe r s = .next σ ∧ Keeps s σ := by
  unfold execModeSafe
  refine act_keeps _ s ?_
  intro σ h
  try dsimp only
  repeat' with_reducible first | assumption | intro _ | apply regWrite_keeps | apply State.modeWrite_keeps

theorem execTrigioCtlWrite_next (r : Req) (k : Fin 4) (v : Word) (s : State) : ∃ σ, execTrigioCtlWrite r k v s = .next σ ∧ Keeps s σ := by
  unfold execTrigioCtlWrite
  refine act_keeps _ s ?_
  intro σ h
  try dsimp only
  repeat' with_reducible first | assumption | intro _ | apply regWrite_keeps | apply State.trigioWrite_keeps

theorem execModeOwnerWrite_next (r : Req) (v : Word) (s : State) : ∃ σ, execModeOwnerWrite r v s = .next σ ∧ Keeps s σ := by
  unfold execModeOwnerWrite
  refine act_keeps _ s ?_
  intro σ h
  try dsimp only
  repeat' with_reducible first | assumption | intro _ | apply regWrite_keeps | apply State.ownerWrite_keeps

theorem execAlertCtlWrite_next (r : Req) (v : Word) (s : State) : ∃ σ, execAlertCtlWrite r v s = .next σ ∧ Keeps s σ := by
  unfold execAlertCtlWrite
  refine act_keeps _ s ?_
  intro σ h
  try dsimp only
  repeat' with_reducible first | assumption | intro _ | apply regWrite_keeps | apply State.fin_keeps | apply State.setF_keeps

theorem execOwnerReleased_next (jtag : Bool) (s : State) : ∃ σ, execOwnerReleased jtag s = .next σ ∧ Keeps s σ := by
  refine ⟨_, rfl, ?_⟩
  have h := Keeps.refl s
  try dsimp only
  repeat' with_reducible first | assumption | apply State.ownerGone_keeps | apply State.tapTo_keeps | apply keeps_ite

theorem execModeAcquire_next (r : Req) (s : State) : ∃ σ, execModeAcquire r s = .next σ ∧ Keeps s σ := by
  unfold execModeAcquire
  refine act_keeps _ s ?_
  intro σ h
  try dsimp only
  repeat' with_reducible first | assumption | intro _ | apply regWrite_keeps | apply State.modeWrite_keeps

theorem execModeHold_next (r : Req) (s : State) : ∃ σ, execModeHold r s = .next σ ∧ Keeps s σ := by
  unfold execModeHold
  refine act_keeps _ s ?_
  intro σ h
  try dsimp only
  repeat' with_reducible first | assumption | intro _ | apply regWrite_keeps | apply State.modeWrite_keeps

theorem execOwnerForced_next (r : Req) (own : BitVec 2) (s : State) : ∃ σ, execOwnerForced r own s = .next σ ∧ Keeps s σ := by
  unfold execOwnerForced
  refine act_keeps _ s ?_
  intro σ h
  try dsimp only
  repeat' with_reducible first | assumption | intro _ | apply regWrite_keeps | apply State.ownerWrite_keeps

theorem execModeDormant_next (r : Req) (nokiln : Bool) (discard : Bool) (s : State) : ∃ σ, execModeDormant r nokiln discard s = .next σ ∧ Keeps s
    σ := by
  unfold execModeDormant
  refine act_keeps _ s ?_
  intro σ h
  try dsimp only
  repeat' with_reducible first | assumption | intro _ | apply regWrite_keeps | apply State.modeWrite_keeps

theorem execSafeEntry_next (cause : BitVec 16) (s : State) : ∃ σ, execSafeEntry cause s = .next σ ∧ Keeps s σ := by
  unfold execSafeEntry
  refine act_keeps _ s ?_
  intro σ h
  try dsimp only
  repeat' with_reducible first | assumption | apply State.faultSafe_keeps

theorem execKilnDone_next (vh : BitVec 16) (s : State) : ∃ σ, execKilnDone vh s = .next σ ∧ Keeps s σ := by
  unfold execKilnDone
  refine act_keeps _ s ?_
  intro σ h
  try dsimp only
  repeat' with_reducible first | assumption | apply State.nvCheck_keeps | apply State.begin_keeps | apply State.kilnOver_keeps | apply keeps_ite

theorem execKilnGo_next (r : Req) (v : Word) (s : State) : ∃ σ, execKilnGo r v s = .next σ ∧ Keeps s σ := by
  unfold execKilnGo
  refine act_keeps _ s ?_
  intro σ h
  try dsimp only
  repeat' with_reducible first | assumption | intro _ | apply regWrite_keeps | apply State.kilnWrite_keeps

theorem execNvBatchDone_next  (s : State) : ∃ σ, execNvBatchDone s = .next σ ∧ Keeps s σ := by
  refine ⟨_, rfl, ?_⟩
  have h := Keeps.refl s
  try dsimp only
  repeat' with_reducible first
    | assumption | apply State.batchEffect_keeps | apply State.batchOver_keeps | apply State.nextSave_keeps | apply State.endAccess_keeps | split

theorem execSegmentEnd_next (run : SegRun) (fault : Bool) (patterns : BitVec 24) (map : BitVec 18) (s : State) : ∃ σ, execSegmentEnd run fault
    patterns map s = .next σ ∧ Keeps s σ := by
  unfold execSegmentEnd
  refine act_keeps _ s ?_
  intro σ h
  try dsimp only
  repeat' with_reducible first | assumption | apply State.testNext_keeps | apply State.segNext_keeps | apply keeps_ite | split

theorem execLogClear_next (r : Req) (v : Word) (s : State) : ∃ σ, execLogClear r v s = .next σ ∧ Keeps s σ := by
  unfold execLogClear
  refine act_keeps _ s ?_
  intro σ h
  try dsimp only
  repeat' with_reducible first | assumption | intro _ | apply regWrite_keeps | apply State.logWrite_keeps

theorem execBypass_next  (s : State) : ∃ σ, execBypass s = .next σ ∧ Keeps s σ := by
  refine ⟨_, rfl, ?_⟩
  have h := Keeps.refl s
  try dsimp only
  repeat' with_reducible first | assumption | apply State.tapTo_keeps

theorem execDbgReset_next (n : BitVec 7) (s : State) : ∃ σ, execDbgReset n s = .next σ ∧ Keeps s σ := by
  refine ⟨_, rfl, ?_⟩
  have h := Keeps.refl s
  try dsimp only
  repeat' with_reducible first | assumption | apply State.debugReset_keeps | apply keeps_ite | split | apply keeps_mk

theorem execSamplePreload_next (seen : BitVec 1472) (set_ : BitVec 1472) (s : State) : ∃ σ, execSamplePreload seen set_ s = .next σ ∧ Keeps s σ
    := by
  refine ⟨_, rfl, ?_⟩
  have h := Keeps.refl s
  try dsimp only
  repeat' with_reducible first | assumption | apply State.bscan_keeps

theorem execClamp_next  (s : State) : ∃ σ, execClamp s = .next σ ∧ Keeps s σ := by
  refine ⟨_, rfl, ?_⟩
  have h := Keeps.refl s
  try dsimp only
  repeat' with_reducible first | assumption | apply State.tapTo_keeps

theorem execExtestPulse_next (seen : BitVec 1472) (set_ : BitVec 1472) (s : State) : ∃ σ, execExtestPulse seen set_ s = .next σ ∧ Keeps s σ := by
  refine ⟨_, rfl, ?_⟩
  have h := Keeps.refl s
  try dsimp only
  repeat' with_reducible first | assumption | apply State.bscan_keeps

theorem execIntscan_next  (s : State) : ∃ σ, execIntscan s = .next σ ∧ Keeps s σ := by
  unfold execIntscan
  refine act_keeps _ s ?_
  intro σ h
  try dsimp only
  repeat' with_reducible first | assumption | apply State.raiseBit_keeps | apply State.setF_keeps | apply keeps_ite | split | apply keeps_mk

theorem execHighz_next  (s : State) : ∃ σ, execHighz s = .next σ ∧ Keeps s σ := by
  refine ⟨_, rfl, ?_⟩
  have h := Keeps.refl s
  try dsimp only
  repeat' with_reducible first | assumption | apply State.tapTo_keeps

theorem execIdcode_next  (s : State) : ∃ σ, execIdcode s = .next σ ∧ Keeps s σ := by
  refine ⟨_, rfl, ?_⟩
  have h := Keeps.refl s
  try dsimp only
  repeat' with_reducible first | assumption | apply State.tapTo_keeps

theorem execExtest_next (seen : BitVec 1472) (set_ : BitVec 1472) (s : State) : ∃ σ, execExtest seen set_ s = .next σ ∧ Keeps s σ := by
  refine ⟨_, rfl, ?_⟩
  have h := Keeps.refl s
  try dsimp only
  repeat' with_reducible first | assumption | apply State.bscan_keeps

theorem execExtestTrain_next (seen : BitVec 1472) (set_ : BitVec 1472) (s : State) : ∃ σ, execExtestTrain seen set_ s = .next σ ∧ Keeps s σ := by
  refine ⟨_, rfl, ?_⟩
  have h := Keeps.refl s
  try dsimp only
  repeat' with_reducible first | assumption | apply State.bscan_keeps

theorem execGuardConversion_next (k : Fin 28) (code : BitVec 12) (s : State) : ∃ σ, execGuardConversion k code s = .next σ ∧ Keeps s σ := by
  unfold execGuardConversion
  refine act_keeps _ s ?_
  intro σ h
  try dsimp only
  repeat' with_reducible first
    | assumption | apply State.setW_keeps | apply State.guardTemp_keeps | apply State.guardSupply_keeps | apply keeps_ite | split
    | apply keeps_mk

theorem execHkPeriodTick_next  (s : State) : ∃ σ, execHkPeriodTick s = .next σ ∧ Keeps s σ := by
  unfold execHkPeriodTick
  refine act_keeps _ s ?_
  intro σ h
  try dsimp only
  repeat' with_reducible first | assumption | apply State.hkTrigger_keeps | apply keeps_ite

theorem execHkCtlWrite_next (r : Req) (v : Word) (s : State) : ∃ σ, execHkCtlWrite r v s = .next σ ∧ Keeps s σ := by
  unfold execHkCtlWrite
  refine act_keeps _ s ?_
  intro σ h
  try dsimp only
  repeat' with_reducible first | assumption | intro _ | apply regWrite_keeps | apply State.hkCtlWrite_keeps

theorem execHkGo_next (r : Req) (v : Word) (s : State) : ∃ σ, execHkGo r v s = .next σ ∧ Keeps s σ := by
  unfold execHkGo
  refine act_keeps _ s ?_
  intro σ h
  try dsimp only
  repeat' with_reducible first | assumption | intro _ | apply regWrite_keeps | apply State.hkTrigWrite_keeps

theorem execHkRunEnd_next  (s : State) : ∃ σ, execHkRunEnd s = .next σ ∧ Keeps s σ := by
  unfold execHkRunEnd
  refine act_keeps _ s ?_
  intro σ h
  try dsimp only
  repeat' with_reducible first | assumption | apply State.setF_keeps | apply State.hkStart_keeps | apply keeps_ite | split | apply keeps_mk

theorem execHkSeqEntry_next (sum : BitVec 19) (s : State) : ∃ σ, execHkSeqEntry sum s = .next σ ∧ Keeps s σ := by
  unfold execHkSeqEntry
  refine act_keeps _ s ?_
  intro σ h
  try dsimp only
  repeat' with_reducible first | assumption | apply State.hkResult_keeps | apply State.setF_keeps | apply keeps_ite | split | apply keeps_mk

theorem execRsvUncorr_next  (s : State) : ∃ σ, execRsvUncorr s = .next σ ∧ Keeps s σ := by
  unfold execRsvUncorr
  refine act_keeps _ s ?_
  intro σ h
  try dsimp only
  repeat' with_reducible first | assumption | apply State.rsvUncorr_keeps

theorem execFeUncorr_next (a0 : FePath) (s : State) : ∃ σ, execFeUncorr a0 s = .next σ ∧ Keeps s σ := by
  unfold execFeUncorr
  refine act_keeps _ s ?_
  intro σ h
  try dsimp only
  repeat' with_reducible first | assumption | apply State.feUncorr_keeps

theorem execScrub_next (a0 : Blk) (fixed : Word) (uncorr : Option (Fin 1024)) (s : State) : ∃ σ, execScrub a0 fixed uncorr s = .next σ ∧ Keeps s
    σ := by
  refine ⟨_, rfl, ?_⟩
  have h := Keeps.refl s
  try dsimp only
  repeat' with_reducible first | assumption | apply State.bumpW_keeps | apply State.logUncorr_keeps | apply keeps_ite | split

theorem execTileUncorr_next (t : Fin 24) (s : State) : ∃ σ, execTileUncorr t s = .next σ ∧ Keeps s σ := by
  unfold execTileUncorr
  refine act_keeps _ s ?_
  intro σ h
  try dsimp only
  repeat' with_reducible first | assumption | apply State.tileUncorr_keeps

theorem execCrossingUncorr_next (a0 : Blk) (s : State) : ∃ σ, execCrossingUncorr a0 s = .next σ ∧ Keeps s σ := by
  unfold execCrossingUncorr
  refine act_keeps _ s ?_
  intro σ h
  try dsimp only
  repeat' with_reducible first
    | assumption | apply State.tileUncorr_keeps | apply State.feUncorr_keeps | apply State.trigUncorr_keeps | apply State.faultSafe_keeps
    | apply State.raiseBit_keeps | apply State.raise_keeps | apply State.rsvUncorr_keeps | apply State.pressUncorr_keeps
    | apply State.csUncorr_keeps | apply keeps_ite | split

theorem execPressUncorr_next  (s : State) : ∃ σ, execPressUncorr s = .next σ ∧ Keeps s σ := by
  unfold execPressUncorr
  refine act_keeps _ s ?_
  intro σ h
  try dsimp only
  repeat' with_reducible first | assumption | apply State.pressUncorr_keeps

theorem execTrigUncorr_next  (s : State) : ∃ σ, execTrigUncorr s = .next σ ∧ Keeps s σ := by
  unfold execTrigUncorr
  refine act_keeps _ s ?_
  intro σ h
  try dsimp only
  repeat' with_reducible first | assumption | apply State.trigUncorr_keeps

theorem execCsUncorr_next  (s : State) : ∃ σ, execCsUncorr s = .next σ ∧ Keeps s σ := by
  unfold execCsUncorr
  apply csAct_next
  try dsimp only
  repeat' with_reducible first | assumption | intro _ | apply State.csUncorr_keeps | apply keeps_ite

theorem execPrbsLock_next (a0 : QuadBits) (s : State) : ∃ σ, execPrbsLock a0 s = .next σ ∧ Keeps s σ := by
  unfold execPrbsLock
  refine act_keeps _ s ?_
  intro σ h
  try dsimp only
  repeat' with_reducible first | assumption | apply State.lineBits_keeps

theorem execOrderDecide_next (p : Fin 16) (first : ℕ) (own : ℕ) (s : State) : ∃ σ, execOrderDecide p first own s = .next σ ∧ Keeps s σ := by
  unfold execOrderDecide
  refine act_keeps _ s ?_
  intro σ h
  try dsimp only
  repeat' with_reducible first | assumption | apply State.orderDecide_keeps

theorem execQuadPllLock_next (q : Fin 8) (s : State) : ∃ σ, execQuadPllLock q s = .next σ ∧ Keeps s σ := by
  unfold execQuadPllLock
  refine act_keeps _ s ?_
  intro σ h
  try dsimp only
  repeat' with_reducible first | assumption | apply State.setF_keeps | apply keeps_ite

theorem execEqConverged_next (n : Fin 32) (ctle : BitVec 4) (dfe : BitVec 30) (s : State) : ∃ σ, execEqConverged n ctle dfe s = .next σ ∧ Keeps s
    σ := by
  unfold execEqConverged
  refine act_keeps _ s ?_
  intro σ h
  try dsimp only
  repeat' with_reducible first
    | assumption | apply State.adapt_keeps | apply State.tryUp_keeps | apply State.setLane_keeps | apply keeps_ite | split

theorem execInjb_next (r : Req) (q : Fin 8) (v : Word) (s : State) : ∃ σ, execInjb r q v s = .next σ ∧ Keeps s σ := by
  unfold execInjb
  refine act_keeps _ s ?_
  intro σ h
  try dsimp only
  repeat' with_reducible first | assumption | apply prbsCtl_keeps

theorem execCodeError_next (n : Fin 32) (l : LineIn) (s : State) : ∃ σ, execCodeError n l s = .next σ ∧ Keeps s σ := by
  unfold execCodeError
  refine act_keeps _ s ?_
  intro σ h
  try dsimp only
  repeat' with_reducible first
    | assumption | apply State.sendBack_keeps | apply State.thawLane_keeps | apply State.countBad_keeps | apply keeps_ite

theorem execPortRetrain_next (r : Req) (q : Fin 8) (v : Word) (s : State) : ∃ σ, execPortRetrain r q v s = .next σ ∧ Keeps s σ := by
  unfold execPortRetrain
  refine act_keeps _ s ?_
  intro σ h
  try dsimp only
  repeat' with_reducible first | assumption | apply quadCtl_keeps

theorem execQpllLoss_next (q : Fin 8) (refclk : Bool) (s : State) : ∃ σ, execQpllLoss q refclk s = .next σ ∧ Keeps s σ := by
  unfold execQpllLoss
  refine act_keeps _ s ?_
  intro σ h
  try dsimp only
  repeat' with_reducible first
    | assumption | intro _ | apply State.setF_keeps | apply State.each_keeps | apply State.leaveUp_keeps | apply State.toDetect_keeps
    | apply State.raiseBit_keeps | apply keeps_ite

theorem execGroutReceive_next (n : Fin 32) (g : GroutAt) (data : Bool) (fill : Fin 33) (s : State) : ∃ σ, execGroutReceive n g data fill s =
    .next σ ∧ Keeps s σ := by
  unfold execGroutReceive
  refine act_keeps _ s ?_
  intro σ h
  try dsimp only
  repeat' with_reducible first
    | assumption | intro _ | apply State.when_keeps | apply State.ebAdjust_keeps | apply State.thawLane_keeps | apply State.groutBack_keeps
    | apply State.setLane_keeps | apply State.leaveUp_keeps | apply keeps_ite | split

theorem execInj1_next (r : Req) (q : Fin 8) (v : Word) (s : State) : ∃ σ, execInj1 r q v s = .next σ ∧ Keeps s σ := by
  unfold execInj1
  refine act_keeps _ s ?_
  intro σ h
  try dsimp only
  repeat' with_reducible first | assumption | apply prbsCtl_keeps

theorem execLaneDown_next (p : Fin 16) (cause : Fin 5) (s : State) : ∃ σ, execLaneDown p cause s = .next σ ∧ Keeps s σ := by
  unfold execLaneDown
  refine act_keeps _ s ?_
  intro σ h
  try dsimp only
  repeat' with_reducible first | assumption | apply State.leaveUp_keeps

theorem execQuadCtlWrite_next (r : Req) (q : Fin 8) (v : Word) (s : State) : ∃ σ, execQuadCtlWrite r q v s = .next σ ∧ Keeps s σ := by
  unfold execQuadCtlWrite
  refine act_keeps _ s ?_
  intro σ h
  try dsimp only
  repeat' with_reducible first | assumption | apply quadCtl_keeps

theorem execLaneCtlWrite_next (r : Req) (n : Fin 32) (v : Word) (s : State) : ∃ σ, execLaneCtlWrite r n v s = .next σ ∧ Keeps s σ := by
  unfold execLaneCtlWrite
  refine act_keeps _ s ?_
  intro σ h
  try dsimp only
  repeat' with_reducible first
    | assumption | intro _ | apply regWrite_keeps | apply State.fin_keeps | apply State.when_keeps | apply State.setLane_keeps
    | apply State.setW_keeps | apply keeps_ite

theorem execTrainTimeout_next (n : Fin 32) (s : State) : ∃ σ, execTrainTimeout n s = .next σ ∧ Keeps s σ := by
  unfold execTrainTimeout
  refine act_keeps _ s ?_
  intro σ h
  try dsimp only
  repeat' with_reducible first | assumption | apply State.failPort_keeps | apply State.orderDecide_keeps | apply keeps_ite | split

theorem execEbSlip_next (n : Fin 32) (s : State) : ∃ σ, execEbSlip n s = .next σ ∧ Keeps s σ := by
  unfold execEbSlip
  refine act_keeps _ s ?_
  intro σ h
  try dsimp only
  repeat' with_reducible first
    | assumption | apply State.bump_keeps | apply State.setF_keeps | apply State.setLane_keeps | apply State.raiseBit_keeps | apply keeps_ite

theorem execTrainingSet_next (n : Fin 32) (ts : TrainSet) (s : State) : ∃ σ, execTrainingSet n ts s = .next σ ∧ Keeps s σ := by
  unfold execTrainingSet
  refine act_keeps _ s ?_
  intro σ h
  try dsimp only
  repeat' with_reducible first
    | assumption | apply State.thawLane_keeps | apply State.tsAlign_keeps | apply State.tsPolar_keeps | apply State.tsValid_keeps | split

theorem execDetectDone_next (n : Fin 32) (s : State) : ∃ σ, execDetectDone n s = .next σ ∧ Keeps s σ := by
  unfold execDetectDone
  refine act_keeps _ s ?_
  intro σ h
  try dsimp only
  repeat' with_reducible first | assumption | apply State.toLst_keeps | apply keeps_ite

theorem execPrbsCtlWrite_next (r : Req) (q : Fin 8) (v : Word) (s : State) : ∃ σ, execPrbsCtlWrite r q v s = .next σ ∧ Keeps s σ := by
  unfold execPrbsCtlWrite
  refine act_keeps _ s ?_
  intro σ h
  try dsimp only
  repeat' with_reducible first | assumption | apply prbsCtl_keeps

theorem execLosChange_next (n : Fin 32) (mv : ℕ) (lol : Bool) (s : State) : ∃ σ, execLosChange n mv lol s = .next σ ∧ Keeps s σ := by
  unfold execLosChange
  refine act_keeps _ s ?_
  intro σ h
  try dsimp only
  repeat' with_reducible first
    | assumption | apply State.setF_keeps | apply State.leaveUp_keeps | apply State.failPort_keeps | apply keeps_ite | split

theorem execGroutSend_next (n : Fin 32) (s : State) : ∃ σ, execGroutSend n s = .next σ ∧ Keeps s σ := by
  unfold execGroutSend
  refine act_keeps _ s ?_
  intro σ h
  try dsimp only
  repeat' with_reducible first | assumption | intro _ | apply State.when_keeps | apply State.each_keeps | apply State.sendGrout_keeps | split

theorem execEqFreeze_next (a0 : PlainRun) (s : State) : ∃ σ, execEqFreeze a0 s = .next σ ∧ Keeps s σ := by
  unfold execEqFreeze
  refine act_keeps _ s ?_
  intro σ h
  try dsimp only
  repeat' with_reducible first | assumption | apply State.setF_keeps | apply keeps_ite

theorem execPrbsLockLost_next (q : Fin 8) (before : List Bool) (last : List Bool) (s : State) : ∃ σ, execPrbsLockLost q before last s = .next σ ∧
    Keeps s σ := by
  unfold execPrbsLockLost
  refine act_keeps _ s ?_
  intro σ h
  try dsimp only
  repeat' with_reducible first | assumption | apply State.lineBits_keeps

theorem execBackoffExpire_next (p : Fin 16) (s : State) : ∃ σ, execBackoffExpire p s = .next σ ∧ Keeps s σ := by
  unfold execBackoffExpire
  refine act_keeps _ s ?_
  intro σ h
  try dsimp only
  repeat' with_reducible first | assumption | intro _ | apply State.each_keeps | apply State.setLane_keeps | apply keeps_ite

theorem execSidFree_next (sid : Fin 8192) (s : State) : ∃ σ, execSidFree sid s = .next σ ∧ Keeps s σ := by
  unfold execSidFree
  refine act_keeps _ s ?_
  intro σ h
  try dsimp only
  repeat' with_reducible first | assumption | apply State.setF_keeps | apply keeps_ite

theorem execSeConfigWrite_next (r : Req) (sid : Fin 8192) (which : Fin 3) (v : Word) (s : State) : ∃ σ, execSeConfigWrite r sid which v s = .next
    σ ∧ Keeps s σ := by
  unfold execSeConfigWrite
  refine act_keeps _ s ?_
  intro σ h
  try dsimp only
  repeat' with_reducible first | assumption | intro _ | apply regWrite_keeps | apply State.seWrite_keeps

theorem execStreamAdd_next (p : Fin 16) (tag : BitVec 7) (ws : List Word) (s : State) : ∃ σ, execStreamAdd p tag ws s = .next σ ∧ Keeps s σ := by
  unfold execStreamAdd
  refine act_keeps _ s ?_
  intro σ h
  refine request_keeps h _ _ _ _ _ ?_
  intro t k
  split
  · split
    · exact State.fin_keeps k _
    · split
      · exact State.fin_keeps k _
      · split
        · exact State.fin_keeps k _
        · next e => exact State.finData_keeps (State.addStream_keeps k _ _ _ e) _
  · exact State.fin_keeps k _

theorem execStreamDeactivate_next (r : Req) (sid : Fin 8192) (v : Word) (s : State) : ∃ σ, execStreamDeactivate r sid v s = .next σ ∧ Keeps s σ
    := by
  unfold execStreamDeactivate
  refine act_keeps _ s ?_
  intro σ h
  try dsimp only
  repeat' with_reducible first | assumption | intro _ | apply regWrite_keeps | apply State.seWrite_keeps

theorem execStreamActivate_next (r : Req) (sid : Fin 8192) (v : Word) (s : State) : ∃ σ, execStreamActivate r sid v s = .next σ ∧ Keeps s σ := by
  unfold execStreamActivate
  refine act_keeps _ s ?_
  intro σ h
  try dsimp only
  repeat' with_reducible first | assumption | intro _ | apply regWrite_keeps | apply State.seWrite_keeps

theorem execStreamDel_next (p : Fin 16) (tag : BitVec 7) (ws : List Word) (s : State) : ∃ σ, execStreamDel p tag ws s = .next σ ∧ Keeps s σ := by
  unfold execStreamDel
  refine act_keeps _ s ?_
  intro σ h
  try dsimp only
  repeat' with_reducible first
    | assumption | intro _ | apply request_keeps | apply State.fin_keeps | apply State.setF_keeps | apply State.dropTdisc_keeps | apply keeps_ite
    | split

theorem execRcRead_next (r : Req) (a : Word) (s : State) : ∃ σ, execRcRead r a s = .next σ ∧ Keeps s σ := by
  unfold execRcRead
  refine act_keeps _ s ?_
  intro σ h
  try dsimp only
  repeat' with_reducible first | assumption | apply State.readWord_keeps

theorem execLowWordRead_next (r : Req) (a : Word) (bad : Bool) (s : State) : ∃ σ, execLowWordRead r a bad s = .next σ ∧ Keeps s σ := by
  unfold execLowWordRead
  refine act_keeps _ s ?_
  intro σ h
  try dsimp only
  repeat' with_reducible first | assumption | apply State.readWord_keeps

theorem execMgpRead_next (frame : BitVec 72) (edges : ℕ) (s : State) : ∃ σ, execMgpRead frame edges s = .next σ ∧ Keeps s σ := by
  unfold execMgpRead
  refine act_keeps _ s ?_
  intro σ h
  try dsimp only
  repeat' with_reducible first | assumption | apply State.mgpFrame_keeps

theorem execRead_next (p : Fin 16) (tag : BitVec 7) (ws : List Word) (s : State) : ∃ σ, execRead p tag ws s = .next σ ∧ Keeps s σ := by
  unfold execRead
  refine act_keeps _ s ?_
  intro σ h
  try dsimp only
  repeat' with_reducible first | assumption | intro _ | apply request_keeps | apply State.readHod_keeps

theorem execMgpRepeat_next (frame : BitVec 72) (edges : ℕ) (s : State) : ∃ σ, execMgpRepeat frame edges s = .next σ ∧ Keeps s σ := by
  unfold execMgpRepeat
  refine act_keeps _ s ?_
  intro σ h
  try dsimp only
  repeat' with_reducible first | assumption | apply State.mgpFrame_keeps

theorem execMgpResponseLoad_next  (s : State) : ∃ σ, execMgpResponseLoad s = .next σ ∧ Keeps s σ := by
  unfold execMgpResponseLoad
  refine act_keeps _ s ?_
  intro σ h
  try dsimp only
  repeat' with_reducible first | assumption | apply keeps_ite | split | apply keeps_mk

theorem execMgpNop_next (frame : BitVec 72) (edges : ℕ) (s : State) : ∃ σ, execMgpNop frame edges s = .next σ ∧ Keeps s σ := by
  unfold execMgpNop
  refine act_keeps _ s ?_
  intro σ h
  try dsimp only
  repeat' with_reducible first | assumption | apply State.mgpFrame_keeps

theorem execRld_next (m : Fin 16) (gd : Fin 32) (ga : Fin 32) (off : BitVec 16) (s : State) : ∃ σ, execRld m gd ga off s = .next σ ∧ Keeps s σ :=
    by
  unfold execRld
  apply isa_next
  try dsimp only
  repeat' with_reducible first
    | assumption | intro _ | apply turnKeeps_next | exact turnKeeps_trap .. | apply State.readReg_keeps | apply State.setMason_keeps | split
    | refine Keeps.of_fst (by assumption) ?_ | apply keeps_mk

theorem execMgpWrite_next (frame : BitVec 72) (edges : ℕ) (s : State) : ∃ σ, execMgpWrite frame edges s = .next σ ∧ Keeps s σ := by
  unfold execMgpWrite
  refine act_keeps _ s ?_
  intro σ h
  try dsimp only
  repeat' with_reducible first | assumption | apply State.mgpFrame_keeps

theorem execDownstreamRoute_next (p : Fin 16) (header : BitVec 64) (payload : List Word) (s : State) : ∃ σ, execDownstreamRoute p header payload
    s = .next σ ∧ Keeps s σ := by
  unfold execDownstreamRoute
  refine act_keeps _ s ?_
  intro σ h
  try dsimp only
  repeat' with_reducible first
    | assumption | apply State.enqueue_keeps | apply State.freeBuf_keeps | apply State.raiseBit_keeps | apply State.bumpW_keeps | apply keeps_ite
    | split

theorem execRouteDel_next (p : Fin 16) (hids : List (BitVec 14)) (s : State) : ∃ σ, execRouteDel p hids s = .next σ ∧ Keeps s σ := by
  unfold execRouteDel
  refine act_keeps _ s ?_
  intro σ h
  try dsimp only
  repeat' with_reducible first | assumption | intro _ | apply State.delRoutes_keeps | apply State.thaw_keeps | apply keeps_ite

theorem execHello_next (p : Fin 16) (host : Bool) (primary : Bool) (depth : BitVec 4) (port : BitVec 4) (hid : BitVec 14) (s : State) : ∃ σ,
    execHello p host primary depth port hid s = .next σ ∧ Keeps s σ := by
  unfold execHello
  refine act_keeps _ s ?_
  intro σ h
  try dsimp only
  repeat' with_reducible first
    | assumption | apply State.setW_keeps | apply State.thaw_keeps | apply State.setDepth_keeps | apply State.setF_keeps
    | apply State.tryHold_keeps | apply State.sendRoutes_keeps | apply State.addRoutes_keeps | apply keeps_ite

theorem execRelayHod_next (p : Fin 16) (ok : Bool) (header : BitVec 64) (payload : List Word) (s : State) : ∃ σ, execRelayHod p ok header payload
    s = .next σ ∧ Keeps s σ := by
  unfold execRelayHod
  refine act_keeps _ s ?_
  intro σ h
  try dsimp only
  repeat' with_reducible first | assumption | apply State.relay_keeps | apply State.abortRelay_keeps | apply keeps_ite

theorem execRouteAdd_next (p : Fin 16) (hids : List (BitVec 14)) (s : State) : ∃ σ, execRouteAdd p hids s = .next σ ∧ Keeps s σ := by
  unfold execRouteAdd
  refine act_keeps _ s ?_
  intro σ h
  try dsimp only
  repeat' with_reducible first | assumption | apply State.addRoutes_keeps | apply State.thaw_keeps | apply keeps_ite

end Sys2Proof.Machine
end

