-- ==== Sys2Proof/Laws/Accesses.lean ====
section
/-!
SUPPORT. What the accesses by address keep: a write of a register hands on to the command that the register belongs to.
-/

namespace Sys2Proof.Machine

theorem State.syncCmd_keeps {b s : State} (h : Keeps b s) (r : Req) (v : Word) : Keeps b (State.syncCmd s r v) := by
  unfold State.syncCmd
  try dsimp only
  repeat' with_reducible first
    | assumption | intro _ | apply State.via_keeps | apply regWrite_keeps | apply State.fin_keeps | exact execGridSyncAt_next ..
    | exact execGridSyncNextSec_next .. | exact execGridSyncCancel_next .. | apply keeps_ite | split

theorem writeGrid_keeps {b s : State} (h : Keeps b s) (r : Req) (g : ℕ) (o : ℕ) (a : ℕ) (v : Word) : Keeps b (writeGrid r g o a v s) := by
  unfold writeGrid
  try dsimp only
  repeat' with_reducible first
    | assumption | intro _ | apply State.via_keeps | apply plainWrite_keeps | exact execGridCtlWrite_next .. | exact execGridPerWrite_next ..
    | split

theorem State.probe_keeps {b s : State} (h : Keeps b s) (r : Req) (v : Word) : Keeps b (State.probe s r v) := by
  unfold State.probe
  try dsimp only
  repeat' with_reducible first | assumption | intro _ | apply State.draw_keeps | apply State.via_keeps | exact execTtProbe_next ..

theorem writeTime_keeps {b s : State} (h : Keeps b s) (r : Req) (a : ℕ) (v : Word) : Keeps b (writeTime r a v s) := by
  unfold writeTime
  try dsimp only
  repeat' with_reducible first
    | assumption | intro _ | apply State.via_keeps | apply checkedWrite_keeps | apply ppsCtl_keeps | apply State.syncCmd_keeps
    | apply regWrite_keeps | apply State.rtcCtl_keeps | apply writeGrid_keeps | apply ttStepWrite_keeps | apply State.probe_keeps
    | apply plainWrite_keeps | exact execTimeSrcWrite_next .. | exact execStLoad_next .. | exact execSmplCtlWrite_next ..
    | exact execSmplPhaseWrite_next .. | exact execTtCtlWrite_next .. | exact execTtAsymWrite_next .. | apply keeps_ite

theorem writeYard_keeps {b s : State} (h : Keeps b s) (r : Req) (a : ℕ) (v : Word) : Keeps b (writeYard r a v s) := by
  unfold writeYard
  try dsimp only
  repeat' with_reducible first
    | assumption | intro _ | apply checkedWrite_keeps | apply State.via_keeps | apply plainWrite_keeps | exact execRingCfgWrite_next ..
    | exact execPkCtlWrite_next .. | apply keeps_ite

theorem writeKiln_keeps {b s : State} (h : Keeps b s) (r : Req) (a : ℕ) (v : Word) : Keeps b (writeKiln r a v s) := by
  unfold writeKiln
  try dsimp only
  repeat' with_reducible first
    | assumption | intro _ | apply State.via_keeps | apply plainWrite_keeps | exact execKilnGo_next .. | apply keeps_ite

theorem writeMason_keeps {b s : State} (h : Keeps b s) (r : Req) (a : ℕ) (v : Word) : Keeps b (writeMason r a v s) := by
  unfold writeMason
  try dsimp only
  repeat' with_reducible first
    | assumption | intro _ | apply plainWrite_keeps | apply State.memWrite_keeps | apply mcWrite_keeps | apply State.via_keeps
    | exact execDoorbellWrite_next .. | apply keeps_ite | split

theorem State.optCmd_keeps {b s : State} (h : Keeps b s) (r : Req) (op : ℕ) : Keeps b (State.optCmd s r op) := by
  unfold State.optCmd
  try dsimp only
  repeat' with_reducible first
    | assumption | intro _ | apply State.draw_keeps | apply State.via_keeps | apply regWrite_keeps | apply State.fin_keeps
    | exact execReadA_next .. | exact execReadB_next .. | exact execWriteA_next .. | exact execWriteB_next .. | split

theorem writeStreams_keeps {b s : State} (h : Keeps b s) (r : Req) (a : ℕ) (v : Word) : Keeps b (writeStreams r a v s) := by
  unfold writeStreams
  try dsimp only
  repeat' with_reducible first
    | assumption | intro _ | apply State.via_keeps | apply plainWrite_keeps | exact execSeConfigWrite_next .. | apply keeps_ite

theorem writeTileReg_keeps {b s : State} (h : Keeps b s) (r : Req) (t : ℕ) (o : ℕ) (a : ℕ) (v : Word) : Keeps b (writeTileReg r t o a v s) := by
  unfold writeTileReg
  try dsimp only
  repeat' with_reducible first
    | assumption | intro _ | apply State.via_keeps | apply checkedWrite_keeps | apply plainWrite_keeps | exact execTileCtlWrite_next ..
    | exact execTileApply_next .. | exact execExcCtlWrite_next .. | exact execGainChange_next .. | apply keeps_ite

theorem writeEngine_keeps {b s : State} (h : Keeps b s) (r : Req) (t : ℕ) (o : ℕ) (a : ℕ) (v : Word) : Keeps b (writeEngine r t o a v s) := by
  unfold writeEngine
  try dsimp only
  repeat' with_reducible first
    | assumption | intro _ | apply State.via_keeps | apply plainWrite_keeps | exact execFpConfigWrite_next .. | exact execFadeGo_next ..
    | exact execDetCtlWrite_next .. | exact execCoefWrite_next .. | apply keeps_ite | split

theorem writeTile_keeps {b s : State} (h : Keeps b s) (r : Req) (a : ℕ) (v : Word) : Keeps b (writeTile r a v s) := by
  unfold writeTile
  try dsimp only
  repeat' with_reducible first | assumption | apply writeTileReg_keeps | apply writeEngine_keeps | apply keeps_ite

theorem writeLanes_keeps {b s : State} (h : Keeps b s) (r : Req) (a : ℕ) (v : Word) : Keeps b (writeLanes r a v s) := by
  unfold writeLanes
  try dsimp only
  repeat' with_reducible first
    | assumption | intro _ | apply State.via_keeps | apply plainWrite_keeps | exact execLaneCtlWrite_next .. | exact execPrbsCtlWrite_next ..
    | exact execQuadCtlWrite_next .. | apply keeps_ite

theorem writeHkc_keeps {b s : State} (h : Keeps b s) (r : Req) (a : ℕ) (v : Word) : Keeps b (writeHkc r a v s) := by
  unfold writeHkc
  try dsimp only
  repeat' with_reducible first
    | assumption | intro _ | apply State.via_keeps | apply checkedWrite_keeps | apply plainWrite_keeps | exact execHkCtlWrite_next ..
    | exact execHkGo_next .. | apply keeps_ite

theorem writeGlobal_keeps {b s : State} (h : Keeps b s) (r : Req) (a : ℕ) (v : Word) : Keeps b (writeGlobal r a v s) := by
  unfold writeGlobal
  try dsimp only
  repeat' with_reducible first
    | assumption | intro _ | apply regWrite_keeps | apply State.modeWrite_keeps | apply State.via_keeps | apply plainWrite_keeps
    | exact execAlertCtlWrite_next .. | exact execModeOwnerWrite_next .. | exact execTrigioCtlWrite_next .. | apply keeps_ite

theorem writeRpc_keeps {b s : State} (h : Keeps b s) (r : Req) (a : ℕ) (v : Word) : Keeps b (writeRpc r a v s) := by
  unfold writeRpc
  try dsimp only
  repeat' with_reducible first
    | assumption | intro _ | apply State.draw_keeps | apply State.via_keeps | apply checkedWrite_keeps | apply State.optCmd_keeps
    | apply plainWrite_keeps | exact execSoft_next .. | exact execBlkRst_next .. | exact execWdtKick_next .. | exact execNvCmd_next ..
    | apply keeps_ite

theorem writeTrig_keeps {b s : State} (h : Keeps b s) (r : Req) (a : ℕ) (v : Word) : Keeps b (writeTrig r a v s) := by
  unfold writeTrig
  try dsimp only
  repeat' with_reducible first
    | assumption | intro _ | apply State.via_keeps | apply unitWrite_keeps | apply plainWrite_keeps | exact execTuCtlWrite_next ..
    | exact execTgCtlWrite_next .. | exact execRpWrite_next .. | exact execWsLinkWrite_next .. | apply keeps_ite | split

theorem writePress_keeps {b s : State} (h : Keeps b s) (r : Req) (a : ℕ) (v : Word) : Keeps b (writePress r a v s) := by
  unfold writePress
  try dsimp only
  repeat' with_reducible first
    | assumption | intro _ | apply State.via_keeps | apply checkedWrite_keeps | apply plainWrite_keeps | exact execPxGo_next ..
    | exact execPcCtlWrite_next .. | exact execPcMresWrite_next .. | apply keeps_ite | split

theorem writeLog_keeps {b s : State} (h : Keeps b s) (r : Req) (a : ℕ) (v : Word) : Keeps b (writeLog r a v s) := by
  unfold writeLog
  try dsimp only
  repeat' with_reducible first
    | assumption | intro _ | apply State.via_keeps | apply plainWrite_keeps | exact execLogClear_next .. | apply keeps_ite

theorem writePorts_keeps {b s : State} (h : Keeps b s) (r : Req) (a : ℕ) (v : Word) : Keeps b (writePorts r a v s) := by
  unfold writePorts
  try dsimp only
  repeat' with_reducible first
    | assumption | intro _ | apply State.via_keeps | apply plainWrite_keeps | exact execLinkCfgWrite_next .. | apply keeps_ite

theorem State.csCmdWrite_keeps {b s : State} (h : Keeps b s) (r : Req) (v : Word) : Keeps b (State.csCmdWrite s r v) := by
  unfold State.csCmdWrite
  try dsimp only
  repeat' with_reducible first
    | assumption | intro _ | apply State.draw_keeps | apply State.via_keeps | apply csCmd_keeps | apply State.csEnd_keeps
    | exact execApply_next .. | exact execReload_next .. | exact execFwBlock_next .. | exact execFwCommit_next .. | split

theorem writeCs_keeps {b s : State} (h : Keeps b s) (r : Req) (a : ℕ) (v : Word) : Keeps b (writeCs r a v s) := by
  unfold writeCs
  try dsimp only
  repeat' with_reducible first | assumption | apply State.csCmdWrite_keeps | apply plainWrite_keeps | apply keeps_ite

theorem writePallet_keeps {b s : State} (h : Keeps b s) (r : Req) (a : ℕ) (v : Word) : Keeps b (writePallet r a v s) := by
  unfold writePallet
  try dsimp only
  repeat' with_reducible first
    | assumption | intro _ | apply State.via_keeps | apply pqCtlWrite_keeps | apply plainWrite_keeps | exact execPqPush_next .. | apply keeps_ite
    | split

theorem State.writeReg_keeps {b s : State} (h : Keeps b s) (r : Req) (a : ℕ) (v : Word) : Keeps b (State.writeReg s r a v) := by
  unfold State.writeReg
  try dsimp only
  repeat' with_reducible first
    | assumption | apply plainWrite_keeps | apply writeGlobal_keeps | apply writeRpc_keeps | apply writeTime_keeps | apply writeHkc_keeps
    | apply writeTrig_keeps | apply writePress_keeps | apply writeYard_keeps | apply writeLog_keeps | apply writeLanes_keeps
    | apply writePorts_keeps | apply writeKiln_keeps | apply writeCs_keeps | apply writePallet_keeps | apply writeStreams_keeps
    | apply writeTile_keeps | apply writeMason_keeps | apply keeps_ite

theorem execRegisterWrite_next (r : Req) (a : Word) (v : Word) (s : State) : ∃ σ, execRegisterWrite r a v s = .next σ ∧ Keeps s σ := by
  unfold execRegisterWrite
  refine act_keeps _ s ?_
  intro σ h
  try dsimp only
  repeat' with_reducible first | assumption | apply State.writeReg_keeps

theorem State.mgpAccess_keeps {b s : State} (h : Keeps b s) (cmd : ℕ) (wa : ℕ) (data : ℕ) : Keeps b (State.mgpAccess s cmd wa data) := by
  unfold State.mgpAccess
  try dsimp only
  repeat' with_reducible first | assumption | apply State.readWord_keeps | apply State.writeReg_keeps | apply State.fin_keeps | apply keeps_ite

theorem State.writeWords_keeps {b s : State} (h : Keeps b s) (r : Req) (a : Nat) (l : List Word) : Keeps b (s.writeWords r a l).1 := by
  induction l generalizing s a with
  | nil => exact h
  | cons v l ih =>
    unfold State.writeWords
    dsimp only
    split
    · exact ih (State.writeReg_keeps h ..) _
    · exact State.writeReg_keeps h ..

theorem State.writeHod_keeps {b s : State} (h : Keeps b s) (ws : List Word) : Keeps b (State.writeHod s ws) := by
  unfold State.writeHod
  try dsimp only
  repeat' with_reducible first
    | assumption | apply State.fin_keeps | apply State.writeReg_keeps | apply State.writeWords_keeps | apply keeps_ite | split
    | refine Keeps.of_fst (by assumption) ?_

theorem execWrite_next (p : Fin 16) (tag : BitVec 7) (ws : List Word) (s : State) : ∃ σ, execWrite p tag ws s = .next σ ∧ Keeps s σ := by
  unfold execWrite
  refine act_keeps _ s ?_
  intro σ h
  try dsimp only
  repeat' with_reducible first | assumption | intro _ | apply request_keeps | apply State.writeHod_keeps

theorem execMgpAccessDone_next  (s : State) : ∃ σ, execMgpAccessDone s = .next σ ∧ Keeps s σ := by
  unfold execMgpAccessDone
  refine act_keeps _ s ?_
  intro σ h
  try dsimp only
  repeat' with_reducible first
    | assumption | apply State.mgpAccess_keeps | apply State.mgpResult_keeps | apply keeps_ite | split | apply keeps_mk

end Sys2Proof.Machine
end

