-- ==== Sys2Proof/Laws/State.lean ====
section
/-!
SUPPORT. The small laws of State: which field an update changes (each true by definition), what a register, a field, a byte and a block's state
read as after a write, and what the shared operations of Machine/Ops.lean answer.
-/

namespace Sys2Proof.Machine

/-! ### setW changes `regs` alone -/

@[simp] theorem State.setW_mem (s : State) (a : Nat) (v : Word) : (s.setW a v).mem = s.mem := rfl
@[simp] theorem State.setW_nvm (s : State) (a : Nat) (v : Word) : (s.setW a v).nvm = s.nvm := rfl
@[simp] theorem State.setW_bad (s : State) (a : Nat) (v : Word) : (s.setW a v).bad = s.bad := rfl
@[simp] theorem State.setW_shadows (s : State) (a : Nat) (v : Word) : (s.setW a v).shadows = s.shadows := rfl
@[simp] theorem State.setW_cpl (s : State) (a : Nat) (v : Word) : (s.setW a v).cpl = s.cpl := rfl
@[simp] theorem State.setW_pending (s : State) (a : Nat) (v : Word) : (s.setW a v).pending = s.pending := rfl
@[simp] theorem State.setW_free (s : State) (a : Nat) (v : Word) : (s.setW a v).free = s.free := rfl
@[simp] theorem State.setW_aon (s : State) (a : Nat) (v : Word) : (s.setW a v).aon = s.aon := rfl
@[simp] theorem State.setW_pgood (s : State) (a : Nat) (v : Word) : (s.setW a v).pgood = s.pgood := rfl
@[simp] theorem State.setW_brown (s : State) (a : Nat) (v : Word) : (s.setW a v).brown = s.brown := rfl
@[simp] theorem State.setW_vbat (s : State) (a : Nat) (v : Word) : (s.setW a v).vbat = s.vbat := rfl
@[simp] theorem State.setW_rstLow (s : State) (a : Nat) (v : Word) : (s.setW a v).rstLow = s.rstLow := rfl
@[simp] theorem State.setW_scan (s : State) (a : Nat) (v : Word) : (s.setW a v).scan = s.scan := rfl
@[simp] theorem State.setW_st (s : State) (a : Nat) (v : Word) : (s.setW a v).st = s.st := rfl
@[simp] theorem State.setW_cyc (s : State) (a : Nat) (v : Word) : (s.setW a v).cyc = s.cyc := rfl
@[simp] theorem State.setW_rtc (s : State) (a : Nat) (v : Word) : (s.setW a v).rtc = s.rtc := rfl
@[simp] theorem State.setW_evtq (s : State) (a : Nat) (v : Word) : (s.setW a v).evtq = s.evtq := rfl
@[simp] theorem State.setW_evtDropped (s : State) (a : Nat) (v : Word) : (s.setW a v).evtDropped = s.evtDropped := rfl
@[simp] theorem State.setW_kilnTest (s : State) (a : Nat) (v : Word) : (s.setW a v).kilnTest = s.kilnTest := rfl
@[simp] theorem State.setW_snap (s : State) (a : Nat) (v : Word) : (s.setW a v).snap = s.snap := rfl
@[simp] theorem State.setW_tiles (s : State) (a : Nat) (v : Word) : (s.setW a v).tiles = s.tiles := rfl
@[simp] theorem State.setW_paths (s : State) (a : Nat) (v : Word) : (s.setW a v).paths = s.paths := rfl
@[simp] theorem State.setW_detsH (s : State) (a : Nat) (v : Word) : (s.setW a v).detsH = s.detsH := rfl
@[simp] theorem State.setW_tus (s : State) (a : Nat) (v : Word) : (s.setW a v).tus = s.tus := rfl
@[simp] theorem State.setW_tgs (s : State) (a : Nat) (v : Word) : (s.setW a v).tgs = s.tgs := rfl
@[simp] theorem State.setW_strs (s : State) (a : Nat) (v : Word) : (s.setW a v).strs = s.strs := rfl
@[simp] theorem State.setW_packs (s : State) (a : Nat) (v : Word) : (s.setW a v).packs = s.packs := rfl
@[simp] theorem State.setW_handed (s : State) (a : Nat) (v : Word) : (s.setW a v).handed = s.handed := rfl
@[simp] theorem State.setW_rings (s : State) (a : Nat) (v : Word) : (s.setW a v).rings = s.rings := rfl
@[simp] theorem State.setW_runs (s : State) (a : Nat) (v : Word) : (s.setW a v).runs = s.runs := rfl
@[simp] theorem State.setW_kept (s : State) (a : Nat) (v : Word) : (s.setW a v).kept = s.kept := rfl
@[simp] theorem State.setW_lossy (s : State) (a : Nat) (v : Word) : (s.setW a v).lossy = s.lossy := rfl
@[simp] theorem State.setW_draining (s : State) (a : Nat) (v : Word) : (s.setW a v).draining = s.draining := rfl
@[simp] theorem State.setW_resumed (s : State) (a : Nat) (v : Word) : (s.setW a v).resumed = s.resumed := rfl
@[simp] theorem State.setW_masons (s : State) (a : Nat) (v : Word) : (s.setW a v).masons = s.masons := rfl
@[simp] theorem State.setW_pqs (s : State) (a : Nat) (v : Word) : (s.setW a v).pqs = s.pqs := rfl
@[simp] theorem State.setW_hputs (s : State) (a : Nat) (v : Word) : (s.setW a v).hputs = s.hputs := rfl
@[simp] theorem State.setW_grids (s : State) (a : Nat) (v : Word) : (s.setW a v).grids = s.grids := rfl
@[simp] theorem State.setW_smpl (s : State) (a : Nat) (v : Word) : (s.setW a v).smpl = s.smpl := rfl
@[simp] theorem State.setW_pps (s : State) (a : Nat) (v : Word) : (s.setW a v).pps = s.pps := rfl
@[simp] theorem State.setW_servo (s : State) (a : Nat) (v : Word) : (s.setW a v).servo = s.servo := rfl
@[simp] theorem State.setW_xchg (s : State) (a : Nat) (v : Word) : (s.setW a v).xchg = s.xchg := rfl
@[simp] theorem State.setW_tsq (s : State) (a : Nat) (v : Word) : (s.setW a v).tsq = s.tsq := rfl
@[simp] theorem State.setW_rtcPhase (s : State) (a : Nat) (v : Word) : (s.setW a v).rtcPhase = s.rtcPhase := rfl
@[simp] theorem State.setW_rtcLoad (s : State) (a : Nat) (v : Word) : (s.setW a v).rtcLoad = s.rtcLoad := rfl
@[simp] theorem State.setW_pulses (s : State) (a : Nat) (v : Word) : (s.setW a v).pulses = s.pulses := rfl
@[simp] theorem State.setW_lanes (s : State) (a : Nat) (v : Word) : (s.setW a v).lanes = s.lanes := rfl
@[simp] theorem State.setW_ports (s : State) (a : Nat) (v : Word) : (s.setW a v).ports = s.ports := rfl
@[simp] theorem State.setW_prbs (s : State) (a : Nat) (v : Word) : (s.setW a v).prbs = s.prbs := rfl
@[simp] theorem State.setW_rel (s : State) (a : Nat) (v : Word) : (s.setW a v).rel = s.rel := rfl
@[simp] theorem State.setW_relWake (s : State) (a : Nat) (v : Word) : (s.setW a v).relWake = s.relWake := rfl
@[simp] theorem State.setW_safeNext (s : State) (a : Nat) (v : Word) : (s.setW a v).safeNext = s.safeNext := rfl
@[simp] theorem State.setW_nv (s : State) (a : Nat) (v : Word) : (s.setW a v).nv = s.nv := rfl
@[simp] theorem State.setW_owed (s : State) (a : Nat) (v : Word) : (s.setW a v).owed = s.owed := rfl
@[simp] theorem State.setW_csPend (s : State) (a : Nat) (v : Word) : (s.setW a v).csPend = s.csPend := rfl
@[simp] theorem State.setW_csWait (s : State) (a : Nat) (v : Word) : (s.setW a v).csWait = s.csWait := rfl
@[simp] theorem State.setW_enDue (s : State) (a : Nat) (v : Word) : (s.setW a v).enDue = s.enDue := rfl
@[simp] theorem State.setW_csDig (s : State) (a : Nat) (v : Word) : (s.setW a v).csDig = s.csDig := rfl
@[simp] theorem State.setW_csStop (s : State) (a : Nat) (v : Word) : (s.setW a v).csStop = s.csStop := rfl
@[simp] theorem State.setW_secret (s : State) (a : Nat) (v : Word) : (s.setW a v).secret = s.secret := rfl
@[simp] theorem State.setW_meters (s : State) (a : Nat) (v : Word) : (s.setW a v).meters = s.meters := rfl
@[simp] theorem State.setW_prog (s : State) (a : Nat) (v : Word) : (s.setW a v).prog = s.prog := rfl
@[simp] theorem State.setW_mgp (s : State) (a : Nat) (v : Word) : (s.setW a v).mgp = s.mgp := rfl
@[simp] theorem State.setW_hk (s : State) (a : Nat) (v : Word) : (s.setW a v).hk = s.hk := rfl
@[simp] theorem State.setW_bootSha (s : State) (a : Nat) (v : Word) : (s.setW a v).bootSha = s.bootSha := rfl
@[simp] theorem State.setW_recMaps (s : State) (a : Nat) (v : Word) : (s.setW a v).recMaps = s.recMaps := rfl
@[simp] theorem State.setW_kilnWords (s : State) (a : Nat) (v : Word) : (s.setW a v).kilnWords = s.kilnWords := rfl
@[simp] theorem State.setW_tap (s : State) (a : Nat) (v : Word) : (s.setW a v).tap = s.tap := rfl
@[simp] theorem State.setW_bsrIn (s : State) (a : Nat) (v : Word) : (s.setW a v).bsrIn = s.bsrIn := rfl
@[simp] theorem State.setW_bsrOut (s : State) (a : Nat) (v : Word) : (s.setW a v).bsrOut = s.bsrOut := rfl
@[simp] theorem State.setW_kilnEnd (s : State) (a : Nat) (v : Word) : (s.setW a v).kilnEnd = s.kilnEnd := rfl
@[simp] theorem State.setW_alive (s : State) (a : Nat) (v : Word) : (s.setW a v).alive = s.alive := rfl

/-! ### setF changes `regs` alone -/

@[simp] theorem State.setF_mem (s : State) (x : Fld) (n : Nat) : (s.setF x n).mem = s.mem := rfl
@[simp] theorem State.setF_nvm (s : State) (x : Fld) (n : Nat) : (s.setF x n).nvm = s.nvm := rfl
@[simp] theorem State.setF_bad (s : State) (x : Fld) (n : Nat) : (s.setF x n).bad = s.bad := rfl
@[simp] theorem State.setF_shadows (s : State) (x : Fld) (n : Nat) : (s.setF x n).shadows = s.shadows := rfl
@[simp] theorem State.setF_cpl (s : State) (x : Fld) (n : Nat) : (s.setF x n).cpl = s.cpl := rfl
@[simp] theorem State.setF_pending (s : State) (x : Fld) (n : Nat) : (s.setF x n).pending = s.pending := rfl
@[simp] theorem State.setF_free (s : State) (x : Fld) (n : Nat) : (s.setF x n).free = s.free := rfl
@[simp] theorem State.setF_aon (s : State) (x : Fld) (n : Nat) : (s.setF x n).aon = s.aon := rfl
@[simp] theorem State.setF_pgood (s : State) (x : Fld) (n : Nat) : (s.setF x n).pgood = s.pgood := rfl
@[simp] theorem State.setF_brown (s : State) (x : Fld) (n : Nat) : (s.setF x n).brown = s.brown := rfl
@[simp] theorem State.setF_vbat (s : State) (x : Fld) (n : Nat) : (s.setF x n).vbat = s.vbat := rfl
@[simp] theorem State.setF_rstLow (s : State) (x : Fld) (n : Nat) : (s.setF x n).rstLow = s.rstLow := rfl
@[simp] theorem State.setF_scan (s : State) (x : Fld) (n : Nat) : (s.setF x n).scan = s.scan := rfl
@[simp] theorem State.setF_st (s : State) (x : Fld) (n : Nat) : (s.setF x n).st = s.st := rfl
@[simp] theorem State.setF_cyc (s : State) (x : Fld) (n : Nat) : (s.setF x n).cyc = s.cyc := rfl
@[simp] theorem State.setF_rtc (s : State) (x : Fld) (n : Nat) : (s.setF x n).rtc = s.rtc := rfl
@[simp] theorem State.setF_evtq (s : State) (x : Fld) (n : Nat) : (s.setF x n).evtq = s.evtq := rfl
@[simp] theorem State.setF_evtDropped (s : State) (x : Fld) (n : Nat) : (s.setF x n).evtDropped = s.evtDropped := rfl
@[simp] theorem State.setF_kilnTest (s : State) (x : Fld) (n : Nat) : (s.setF x n).kilnTest = s.kilnTest := rfl
@[simp] theorem State.setF_snap (s : State) (x : Fld) (n : Nat) : (s.setF x n).snap = s.snap := rfl
@[simp] theorem State.setF_tiles (s : State) (x : Fld) (n : Nat) : (s.setF x n).tiles = s.tiles := rfl
@[simp] theorem State.setF_paths (s : State) (x : Fld) (n : Nat) : (s.setF x n).paths = s.paths := rfl
@[simp] theorem State.setF_detsH (s : State) (x : Fld) (n : Nat) : (s.setF x n).detsH = s.detsH := rfl
@[simp] theorem State.setF_tus (s : State) (x : Fld) (n : Nat) : (s.setF x n).tus = s.tus := rfl
@[simp] theorem State.setF_tgs (s : State) (x : Fld) (n : Nat) : (s.setF x n).tgs = s.tgs := rfl
@[simp] theorem State.setF_strs (s : State) (x : Fld) (n : Nat) : (s.setF x n).strs = s.strs := rfl
@[simp] theorem State.setF_packs (s : State) (x : Fld) (n : Nat) : (s.setF x n).packs = s.packs := rfl
@[simp] theorem State.setF_handed (s : State) (x : Fld) (n : Nat) : (s.setF x n).handed = s.handed := rfl
@[simp] theorem State.setF_rings (s : State) (x : Fld) (n : Nat) : (s.setF x n).rings = s.rings := rfl
@[simp] theorem State.setF_runs (s : State) (x : Fld) (n : Nat) : (s.setF x n).runs = s.runs := rfl
@[simp] theorem State.setF_kept (s : State) (x : Fld) (n : Nat) : (s.setF x n).kept = s.kept := rfl
@[simp] theorem State.setF_lossy (s : State) (x : Fld) (n : Nat) : (s.setF x n).lossy = s.lossy := rfl
@[simp] theorem State.setF_draining (s : State) (x : Fld) (n : Nat) : (s.setF x n).draining = s.draining := rfl
@[simp] theorem State.setF_resumed (s : State) (x : Fld) (n : Nat) : (s.setF x n).resumed = s.resumed := rfl
@[simp] theorem State.setF_masons (s : State) (x : Fld) (n : Nat) : (s.setF x n).masons = s.masons := rfl
@[simp] theorem State.setF_pqs (s : State) (x : Fld) (n : Nat) : (s.setF x n).pqs = s.pqs := rfl
@[simp] theorem State.setF_hputs (s : State) (x : Fld) (n : Nat) : (s.setF x n).hputs = s.hputs := rfl
@[simp] theorem State.setF_grids (s : State) (x : Fld) (n : Nat) : (s.setF x n).grids = s.grids := rfl
@[simp] theorem State.setF_smpl (s : State) (x : Fld) (n : Nat) : (s.setF x n).smpl = s.smpl := rfl
@[simp] theorem State.setF_pps (s : State) (x : Fld) (n : Nat) : (s.setF x n).pps = s.pps := rfl
@[simp] theorem State.setF_servo (s : State) (x : Fld) (n : Nat) : (s.setF x n).servo = s.servo := rfl
@[simp] theorem State.setF_xchg (s : State) (x : Fld) (n : Nat) : (s.setF x n).xchg = s.xchg := rfl
@[simp] theorem State.setF_tsq (s : State) (x : Fld) (n : Nat) : (s.setF x n).tsq = s.tsq := rfl
@[simp] theorem State.setF_rtcPhase (s : State) (x : Fld) (n : Nat) : (s.setF x n).rtcPhase = s.rtcPhase := rfl
@[simp] theorem State.setF_rtcLoad (s : State) (x : Fld) (n : Nat) : (s.setF x n).rtcLoad = s.rtcLoad := rfl
@[simp] theorem State.setF_pulses (s : State) (x : Fld) (n : Nat) : (s.setF x n).pulses = s.pulses := rfl
@[simp] theorem State.setF_lanes (s : State) (x : Fld) (n : Nat) : (s.setF x n).lanes = s.lanes := rfl
@[simp] theorem State.setF_ports (s : State) (x : Fld) (n : Nat) : (s.setF x n).ports = s.ports := rfl
@[simp] theorem State.setF_prbs (s : State) (x : Fld) (n : Nat) : (s.setF x n).prbs = s.prbs := rfl
@[simp] theorem State.setF_rel (s : State) (x : Fld) (n : Nat) : (s.setF x n).rel = s.rel := rfl
@[simp] theorem State.setF_relWake (s : State) (x : Fld) (n : Nat) : (s.setF x n).relWake = s.relWake := rfl
@[simp] theorem State.setF_safeNext (s : State) (x : Fld) (n : Nat) : (s.setF x n).safeNext = s.safeNext := rfl
@[simp] theorem State.setF_nv (s : State) (x : Fld) (n : Nat) : (s.setF x n).nv = s.nv := rfl
@[simp] theorem State.setF_owed (s : State) (x : Fld) (n : Nat) : (s.setF x n).owed = s.owed := rfl
@[simp] theorem State.setF_csPend (s : State) (x : Fld) (n : Nat) : (s.setF x n).csPend = s.csPend := rfl
@[simp] theorem State.setF_csWait (s : State) (x : Fld) (n : Nat) : (s.setF x n).csWait = s.csWait := rfl
@[simp] theorem State.setF_enDue (s : State) (x : Fld) (n : Nat) : (s.setF x n).enDue = s.enDue := rfl
@[simp] theorem State.setF_csDig (s : State) (x : Fld) (n : Nat) : (s.setF x n).csDig = s.csDig := rfl
@[simp] theorem State.setF_csStop (s : State) (x : Fld) (n : Nat) : (s.setF x n).csStop = s.csStop := rfl
@[simp] theorem State.setF_secret (s : State) (x : Fld) (n : Nat) : (s.setF x n).secret = s.secret := rfl
@[simp] theorem State.setF_meters (s : State) (x : Fld) (n : Nat) : (s.setF x n).meters = s.meters := rfl
@[simp] theorem State.setF_prog (s : State) (x : Fld) (n : Nat) : (s.setF x n).prog = s.prog := rfl
@[simp] theorem State.setF_mgp (s : State) (x : Fld) (n : Nat) : (s.setF x n).mgp = s.mgp := rfl
@[simp] theorem State.setF_hk (s : State) (x : Fld) (n : Nat) : (s.setF x n).hk = s.hk := rfl
@[simp] theorem State.setF_bootSha (s : State) (x : Fld) (n : Nat) : (s.setF x n).bootSha = s.bootSha := rfl
@[simp] theorem State.setF_recMaps (s : State) (x : Fld) (n : Nat) : (s.setF x n).recMaps = s.recMaps := rfl
@[simp] theorem State.setF_kilnWords (s : State) (x : Fld) (n : Nat) : (s.setF x n).kilnWords = s.kilnWords := rfl
@[simp] theorem State.setF_tap (s : State) (x : Fld) (n : Nat) : (s.setF x n).tap = s.tap := rfl
@[simp] theorem State.setF_bsrIn (s : State) (x : Fld) (n : Nat) : (s.setF x n).bsrIn = s.bsrIn := rfl
@[simp] theorem State.setF_bsrOut (s : State) (x : Fld) (n : Nat) : (s.setF x n).bsrOut = s.bsrOut := rfl
@[simp] theorem State.setF_kilnEnd (s : State) (x : Fld) (n : Nat) : (s.setF x n).kilnEnd = s.kilnEnd := rfl
@[simp] theorem State.setF_alive (s : State) (x : Fld) (n : Nat) : (s.setF x n).alive = s.alive := rfl

/-! ### setByte changes `mem` alone -/

@[simp] theorem State.setByte_regs (s : State) (a : Nat) (v : Byte) : (s.setByte a v).regs = s.regs := rfl
@[simp] theorem State.setByte_nvm (s : State) (a : Nat) (v : Byte) : (s.setByte a v).nvm = s.nvm := rfl
@[simp] theorem State.setByte_bad (s : State) (a : Nat) (v : Byte) : (s.setByte a v).bad = s.bad := rfl
@[simp] theorem State.setByte_shadows (s : State) (a : Nat) (v : Byte) : (s.setByte a v).shadows = s.shadows := rfl
@[simp] theorem State.setByte_cpl (s : State) (a : Nat) (v : Byte) : (s.setByte a v).cpl = s.cpl := rfl
@[simp] theorem State.setByte_pending (s : State) (a : Nat) (v : Byte) : (s.setByte a v).pending = s.pending := rfl
@[simp] theorem State.setByte_free (s : State) (a : Nat) (v : Byte) : (s.setByte a v).free = s.free := rfl
@[simp] theorem State.setByte_aon (s : State) (a : Nat) (v : Byte) : (s.setByte a v).aon = s.aon := rfl
@[simp] theorem State.setByte_pgood (s : State) (a : Nat) (v : Byte) : (s.setByte a v).pgood = s.pgood := rfl
@[simp] theorem State.setByte_brown (s : State) (a : Nat) (v : Byte) : (s.setByte a v).brown = s.brown := rfl
@[simp] theorem State.setByte_vbat (s : State) (a : Nat) (v : Byte) : (s.setByte a v).vbat = s.vbat := rfl
@[simp] theorem State.setByte_rstLow (s : State) (a : Nat) (v : Byte) : (s.setByte a v).rstLow = s.rstLow := rfl
@[simp] theorem State.setByte_scan (s : State) (a : Nat) (v : Byte) : (s.setByte a v).scan = s.scan := rfl
@[simp] theorem State.setByte_st (s : State) (a : Nat) (v : Byte) : (s.setByte a v).st = s.st := rfl
@[simp] theorem State.setByte_cyc (s : State) (a : Nat) (v : Byte) : (s.setByte a v).cyc = s.cyc := rfl
@[simp] theorem State.setByte_rtc (s : State) (a : Nat) (v : Byte) : (s.setByte a v).rtc = s.rtc := rfl
@[simp] theorem State.setByte_evtq (s : State) (a : Nat) (v : Byte) : (s.setByte a v).evtq = s.evtq := rfl
@[simp] theorem State.setByte_evtDropped (s : State) (a : Nat) (v : Byte) : (s.setByte a v).evtDropped = s.evtDropped := rfl
@[simp] theorem State.setByte_kilnTest (s : State) (a : Nat) (v : Byte) : (s.setByte a v).kilnTest = s.kilnTest := rfl
@[simp] theorem State.setByte_snap (s : State) (a : Nat) (v : Byte) : (s.setByte a v).snap = s.snap := rfl
@[simp] theorem State.setByte_tiles (s : State) (a : Nat) (v : Byte) : (s.setByte a v).tiles = s.tiles := rfl
@[simp] theorem State.setByte_paths (s : State) (a : Nat) (v : Byte) : (s.setByte a v).paths = s.paths := rfl
@[simp] theorem State.setByte_detsH (s : State) (a : Nat) (v : Byte) : (s.setByte a v).detsH = s.detsH := rfl
@[simp] theorem State.setByte_tus (s : State) (a : Nat) (v : Byte) : (s.setByte a v).tus = s.tus := rfl
@[simp] theorem State.setByte_tgs (s : State) (a : Nat) (v : Byte) : (s.setByte a v).tgs = s.tgs := rfl
@[simp] theorem State.setByte_strs (s : State) (a : Nat) (v : Byte) : (s.setByte a v).strs = s.strs := rfl
@[simp] theorem State.setByte_packs (s : State) (a : Nat) (v : Byte) : (s.setByte a v).packs = s.packs := rfl
@[simp] theorem State.setByte_handed (s : State) (a : Nat) (v : Byte) : (s.setByte a v).handed = s.handed := rfl
@[simp] theorem State.setByte_rings (s : State) (a : Nat) (v : Byte) : (s.setByte a v).rings = s.rings := rfl
@[simp] theorem State.setByte_runs (s : State) (a : Nat) (v : Byte) : (s.setByte a v).runs = s.runs := rfl
@[simp] theorem State.setByte_kept (s : State) (a : Nat) (v : Byte) : (s.setByte a v).kept = s.kept := rfl
@[simp] theorem State.setByte_lossy (s : State) (a : Nat) (v : Byte) : (s.setByte a v).lossy = s.lossy := rfl
@[simp] theorem State.setByte_draining (s : State) (a : Nat) (v : Byte) : (s.setByte a v).draining = s.draining := rfl
@[simp] theorem State.setByte_resumed (s : State) (a : Nat) (v : Byte) : (s.setByte a v).resumed = s.resumed := rfl
@[simp] theorem State.setByte_masons (s : State) (a : Nat) (v : Byte) : (s.setByte a v).masons = s.masons := rfl
@[simp] theorem State.setByte_pqs (s : State) (a : Nat) (v : Byte) : (s.setByte a v).pqs = s.pqs := rfl
@[simp] theorem State.setByte_hputs (s : State) (a : Nat) (v : Byte) : (s.setByte a v).hputs = s.hputs := rfl
@[simp] theorem State.setByte_grids (s : State) (a : Nat) (v : Byte) : (s.setByte a v).grids = s.grids := rfl
@[simp] theorem State.setByte_smpl (s : State) (a : Nat) (v : Byte) : (s.setByte a v).smpl = s.smpl := rfl
@[simp] theorem State.setByte_pps (s : State) (a : Nat) (v : Byte) : (s.setByte a v).pps = s.pps := rfl
@[simp] theorem State.setByte_servo (s : State) (a : Nat) (v : Byte) : (s.setByte a v).servo = s.servo := rfl
@[simp] theorem State.setByte_xchg (s : State) (a : Nat) (v : Byte) : (s.setByte a v).xchg = s.xchg := rfl
@[simp] theorem State.setByte_tsq (s : State) (a : Nat) (v : Byte) : (s.setByte a v).tsq = s.tsq := rfl
@[simp] theorem State.setByte_rtcPhase (s : State) (a : Nat) (v : Byte) : (s.setByte a v).rtcPhase = s.rtcPhase := rfl
@[simp] theorem State.setByte_rtcLoad (s : State) (a : Nat) (v : Byte) : (s.setByte a v).rtcLoad = s.rtcLoad := rfl
@[simp] theorem State.setByte_pulses (s : State) (a : Nat) (v : Byte) : (s.setByte a v).pulses = s.pulses := rfl
@[simp] theorem State.setByte_lanes (s : State) (a : Nat) (v : Byte) : (s.setByte a v).lanes = s.lanes := rfl
@[simp] theorem State.setByte_ports (s : State) (a : Nat) (v : Byte) : (s.setByte a v).ports = s.ports := rfl
@[simp] theorem State.setByte_prbs (s : State) (a : Nat) (v : Byte) : (s.setByte a v).prbs = s.prbs := rfl
@[simp] theorem State.setByte_rel (s : State) (a : Nat) (v : Byte) : (s.setByte a v).rel = s.rel := rfl
@[simp] theorem State.setByte_relWake (s : State) (a : Nat) (v : Byte) : (s.setByte a v).relWake = s.relWake := rfl
@[simp] theorem State.setByte_safeNext (s : State) (a : Nat) (v : Byte) : (s.setByte a v).safeNext = s.safeNext := rfl
@[simp] theorem State.setByte_nv (s : State) (a : Nat) (v : Byte) : (s.setByte a v).nv = s.nv := rfl
@[simp] theorem State.setByte_owed (s : State) (a : Nat) (v : Byte) : (s.setByte a v).owed = s.owed := rfl
@[simp] theorem State.setByte_csPend (s : State) (a : Nat) (v : Byte) : (s.setByte a v).csPend = s.csPend := rfl
@[simp] theorem State.setByte_csWait (s : State) (a : Nat) (v : Byte) : (s.setByte a v).csWait = s.csWait := rfl
@[simp] theorem State.setByte_enDue (s : State) (a : Nat) (v : Byte) : (s.setByte a v).enDue = s.enDue := rfl
@[simp] theorem State.setByte_csDig (s : State) (a : Nat) (v : Byte) : (s.setByte a v).csDig = s.csDig := rfl
@[simp] theorem State.setByte_csStop (s : State) (a : Nat) (v : Byte) : (s.setByte a v).csStop = s.csStop := rfl
@[simp] theorem State.setByte_secret (s : State) (a : Nat) (v : Byte) : (s.setByte a v).secret = s.secret := rfl
@[simp] theorem State.setByte_meters (s : State) (a : Nat) (v : Byte) : (s.setByte a v).meters = s.meters := rfl
@[simp] theorem State.setByte_prog (s : State) (a : Nat) (v : Byte) : (s.setByte a v).prog = s.prog := rfl
@[simp] theorem State.setByte_mgp (s : State) (a : Nat) (v : Byte) : (s.setByte a v).mgp = s.mgp := rfl
@[simp] theorem State.setByte_hk (s : State) (a : Nat) (v : Byte) : (s.setByte a v).hk = s.hk := rfl
@[simp] theorem State.setByte_bootSha (s : State) (a : Nat) (v : Byte) : (s.setByte a v).bootSha = s.bootSha := rfl
@[simp] theorem State.setByte_recMaps (s : State) (a : Nat) (v : Byte) : (s.setByte a v).recMaps = s.recMaps := rfl
@[simp] theorem State.setByte_kilnWords (s : State) (a : Nat) (v : Byte) : (s.setByte a v).kilnWords = s.kilnWords := rfl
@[simp] theorem State.setByte_tap (s : State) (a : Nat) (v : Byte) : (s.setByte a v).tap = s.tap := rfl
@[simp] theorem State.setByte_bsrIn (s : State) (a : Nat) (v : Byte) : (s.setByte a v).bsrIn = s.bsrIn := rfl
@[simp] theorem State.setByte_bsrOut (s : State) (a : Nat) (v : Byte) : (s.setByte a v).bsrOut = s.bsrOut := rfl
@[simp] theorem State.setByte_kilnEnd (s : State) (a : Nat) (v : Byte) : (s.setByte a v).kilnEnd = s.kilnEnd := rfl
@[simp] theorem State.setByte_w (s : State) (a : Nat) (v : Byte) (i : Nat) : (s.setByte a v).w i = s.w i := rfl
@[simp] theorem State.setByte_f (s : State) (a : Nat) (v : Byte) (i : Fld) : (s.setByte a v).f i = s.f i := rfl
@[simp] theorem State.setByte_b (s : State) (a : Nat) (v : Byte) (i : Fld) : (s.setByte a v).b i = s.b i := rfl
@[simp] theorem State.setByte_mode (s : State) (a : Nat) (v : Byte) : (s.setByte a v).mode = s.mode := rfl
@[simp] theorem State.setByte_alive (s : State) (a : Nat) (v : Byte) : (s.setByte a v).alive = s.alive := rfl

/-! ### setShadow changes `shadows` alone -/

@[simp] theorem State.setShadow_regs (s : State) (r : Req) (a : Nat) (v : Word) : (s.setShadow r a v).regs = s.regs := rfl
@[simp] theorem State.setShadow_mem (s : State) (r : Req) (a : Nat) (v : Word) : (s.setShadow r a v).mem = s.mem := rfl
@[simp] theorem State.setShadow_nvm (s : State) (r : Req) (a : Nat) (v : Word) : (s.setShadow r a v).nvm = s.nvm := rfl
@[simp] theorem State.setShadow_bad (s : State) (r : Req) (a : Nat) (v : Word) : (s.setShadow r a v).bad = s.bad := rfl
@[simp] theorem State.setShadow_cpl (s : State) (r : Req) (a : Nat) (v : Word) : (s.setShadow r a v).cpl = s.cpl := rfl
@[simp] theorem State.setShadow_pending (s : State) (r : Req) (a : Nat) (v : Word) : (s.setShadow r a v).pending = s.pending := rfl
@[simp] theorem State.setShadow_free (s : State) (r : Req) (a : Nat) (v : Word) : (s.setShadow r a v).free = s.free := rfl
@[simp] theorem State.setShadow_aon (s : State) (r : Req) (a : Nat) (v : Word) : (s.setShadow r a v).aon = s.aon := rfl
@[simp] theorem State.setShadow_pgood (s : State) (r : Req) (a : Nat) (v : Word) : (s.setShadow r a v).pgood = s.pgood := rfl
@[simp] theorem State.setShadow_brown (s : State) (r : Req) (a : Nat) (v : Word) : (s.setShadow r a v).brown = s.brown := rfl
@[simp] theorem State.setShadow_vbat (s : State) (r : Req) (a : Nat) (v : Word) : (s.setShadow r a v).vbat = s.vbat := rfl
@[simp] theorem State.setShadow_rstLow (s : State) (r : Req) (a : Nat) (v : Word) : (s.setShadow r a v).rstLow = s.rstLow := rfl
@[simp] theorem State.setShadow_scan (s : State) (r : Req) (a : Nat) (v : Word) : (s.setShadow r a v).scan = s.scan := rfl
@[simp] theorem State.setShadow_st (s : State) (r : Req) (a : Nat) (v : Word) : (s.setShadow r a v).st = s.st := rfl
@[simp] theorem State.setShadow_cyc (s : State) (r : Req) (a : Nat) (v : Word) : (s.setShadow r a v).cyc = s.cyc := rfl
@[simp] theorem State.setShadow_rtc (s : State) (r : Req) (a : Nat) (v : Word) : (s.setShadow r a v).rtc = s.rtc := rfl
@[simp] theorem State.setShadow_evtq (s : State) (r : Req) (a : Nat) (v : Word) : (s.setShadow r a v).evtq = s.evtq := rfl
@[simp] theorem State.setShadow_evtDropped (s : State) (r : Req) (a : Nat) (v : Word) : (s.setShadow r a v).evtDropped = s.evtDropped := rfl
@[simp] theorem State.setShadow_kilnTest (s : State) (r : Req) (a : Nat) (v : Word) : (s.setShadow r a v).kilnTest = s.kilnTest := rfl
@[simp] theorem State.setShadow_snap (s : State) (r : Req) (a : Nat) (v : Word) : (s.setShadow r a v).snap = s.snap := rfl
@[simp] theorem State.setShadow_tiles (s : State) (r : Req) (a : Nat) (v : Word) : (s.setShadow r a v).tiles = s.tiles := rfl
@[simp] theorem State.setShadow_paths (s : State) (r : Req) (a : Nat) (v : Word) : (s.setShadow r a v).paths = s.paths := rfl
@[simp] theorem State.setShadow_detsH (s : State) (r : Req) (a : Nat) (v : Word) : (s.setShadow r a v).detsH = s.detsH := rfl
@[simp] theorem State.setShadow_tus (s : State) (r : Req) (a : Nat) (v : Word) : (s.setShadow r a v).tus = s.tus := rfl
@[simp] theorem State.setShadow_tgs (s : State) (r : Req) (a : Nat) (v : Word) : (s.setShadow r a v).tgs = s.tgs := rfl
@[simp] theorem State.setShadow_strs (s : State) (r : Req) (a : Nat) (v : Word) : (s.setShadow r a v).strs = s.strs := rfl
@[simp] theorem State.setShadow_packs (s : State) (r : Req) (a : Nat) (v : Word) : (s.setShadow r a v).packs = s.packs := rfl
@[simp] theorem State.setShadow_handed (s : State) (r : Req) (a : Nat) (v : Word) : (s.setShadow r a v).handed = s.handed := rfl
@[simp] theorem State.setShadow_rings (s : State) (r : Req) (a : Nat) (v : Word) : (s.setShadow r a v).rings = s.rings := rfl
@[simp] theorem State.setShadow_runs (s : State) (r : Req) (a : Nat) (v : Word) : (s.setShadow r a v).runs = s.runs := rfl
@[simp] theorem State.setShadow_kept (s : State) (r : Req) (a : Nat) (v : Word) : (s.setShadow r a v).kept = s.kept := rfl
@[simp] theorem State.setShadow_lossy (s : State) (r : Req) (a : Nat) (v : Word) : (s.setShadow r a v).lossy = s.lossy := rfl
@[simp] theorem State.setShadow_draining (s : State) (r : Req) (a : Nat) (v : Word) : (s.setShadow r a v).draining = s.draining := rfl
@[simp] theorem State.setShadow_resumed (s : State) (r : Req) (a : Nat) (v : Word) : (s.setShadow r a v).resumed = s.resumed := rfl
@[simp] theorem State.setShadow_masons (s : State) (r : Req) (a : Nat) (v : Word) : (s.setShadow r a v).masons = s.masons := rfl
@[simp] theorem State.setShadow_pqs (s : State) (r : Req) (a : Nat) (v : Word) : (s.setShadow r a v).pqs = s.pqs := rfl
@[simp] theorem State.setShadow_hputs (s : State) (r : Req) (a : Nat) (v : Word) : (s.setShadow r a v).hputs = s.hputs := rfl
@[simp] theorem State.setShadow_grids (s : State) (r : Req) (a : Nat) (v : Word) : (s.setShadow r a v).grids = s.grids := rfl
@[simp] theorem State.setShadow_smpl (s : State) (r : Req) (a : Nat) (v : Word) : (s.setShadow r a v).smpl = s.smpl := rfl
@[simp] theorem State.setShadow_pps (s : State) (r : Req) (a : Nat) (v : Word) : (s.setShadow r a v).pps = s.pps := rfl
@[simp] theorem State.setShadow_servo (s : State) (r : Req) (a : Nat) (v : Word) : (s.setShadow r a v).servo = s.servo := rfl
@[simp] theorem State.setShadow_xchg (s : State) (r : Req) (a : Nat) (v : Word) : (s.setShadow r a v).xchg = s.xchg := rfl
@[simp] theorem State.setShadow_tsq (s : State) (r : Req) (a : Nat) (v : Word) : (s.setShadow r a v).tsq = s.tsq := rfl
@[simp] theorem State.setShadow_rtcPhase (s : State) (r : Req) (a : Nat) (v : Word) : (s.setShadow r a v).rtcPhase = s.rtcPhase := rfl
@[simp] theorem State.setShadow_rtcLoad (s : State) (r : Req) (a : Nat) (v : Word) : (s.setShadow r a v).rtcLoad = s.rtcLoad := rfl
@[simp] theorem State.setShadow_pulses (s : State) (r : Req) (a : Nat) (v : Word) : (s.setShadow r a v).pulses = s.pulses := rfl
@[simp] theorem State.setShadow_lanes (s : State) (r : Req) (a : Nat) (v : Word) : (s.setShadow r a v).lanes = s.lanes := rfl
@[simp] theorem State.setShadow_ports (s : State) (r : Req) (a : Nat) (v : Word) : (s.setShadow r a v).ports = s.ports := rfl
@[simp] theorem State.setShadow_prbs (s : State) (r : Req) (a : Nat) (v : Word) : (s.setShadow r a v).prbs = s.prbs := rfl
@[simp] theorem State.setShadow_rel (s : State) (r : Req) (a : Nat) (v : Word) : (s.setShadow r a v).rel = s.rel := rfl
@[simp] theorem State.setShadow_relWake (s : State) (r : Req) (a : Nat) (v : Word) : (s.setShadow r a v).relWake = s.relWake := rfl
@[simp] theorem State.setShadow_safeNext (s : State) (r : Req) (a : Nat) (v : Word) : (s.setShadow r a v).safeNext = s.safeNext := rfl
@[simp] theorem State.setShadow_nv (s : State) (r : Req) (a : Nat) (v : Word) : (s.setShadow r a v).nv = s.nv := rfl
@[simp] theorem State.setShadow_owed (s : State) (r : Req) (a : Nat) (v : Word) : (s.setShadow r a v).owed = s.owed := rfl
@[simp] theorem State.setShadow_csPend (s : State) (r : Req) (a : Nat) (v : Word) : (s.setShadow r a v).csPend = s.csPend := rfl
@[simp] theorem State.setShadow_csWait (s : State) (r : Req) (a : Nat) (v : Word) : (s.setShadow r a v).csWait = s.csWait := rfl
@[simp] theorem State.setShadow_enDue (s : State) (r : Req) (a : Nat) (v : Word) : (s.setShadow r a v).enDue = s.enDue := rfl
@[simp] theorem State.setShadow_csDig (s : State) (r : Req) (a : Nat) (v : Word) : (s.setShadow r a v).csDig = s.csDig := rfl
@[simp] theorem State.setShadow_csStop (s : State) (r : Req) (a : Nat) (v : Word) : (s.setShadow r a v).csStop = s.csStop := rfl
@[simp] theorem State.setShadow_secret (s : State) (r : Req) (a : Nat) (v : Word) : (s.setShadow r a v).secret = s.secret := rfl
@[simp] theorem State.setShadow_meters (s : State) (r : Req) (a : Nat) (v : Word) : (s.setShadow r a v).meters = s.meters := rfl
@[simp] theorem State.setShadow_prog (s : State) (r : Req) (a : Nat) (v : Word) : (s.setShadow r a v).prog = s.prog := rfl
@[simp] theorem State.setShadow_mgp (s : State) (r : Req) (a : Nat) (v : Word) : (s.setShadow r a v).mgp = s.mgp := rfl
@[simp] theorem State.setShadow_hk (s : State) (r : Req) (a : Nat) (v : Word) : (s.setShadow r a v).hk = s.hk := rfl
@[simp] theorem State.setShadow_bootSha (s : State) (r : Req) (a : Nat) (v : Word) : (s.setShadow r a v).bootSha = s.bootSha := rfl
@[simp] theorem State.setShadow_recMaps (s : State) (r : Req) (a : Nat) (v : Word) : (s.setShadow r a v).recMaps = s.recMaps := rfl
@[simp] theorem State.setShadow_kilnWords (s : State) (r : Req) (a : Nat) (v : Word) : (s.setShadow r a v).kilnWords = s.kilnWords := rfl
@[simp] theorem State.setShadow_tap (s : State) (r : Req) (a : Nat) (v : Word) : (s.setShadow r a v).tap = s.tap := rfl
@[simp] theorem State.setShadow_bsrIn (s : State) (r : Req) (a : Nat) (v : Word) : (s.setShadow r a v).bsrIn = s.bsrIn := rfl
@[simp] theorem State.setShadow_bsrOut (s : State) (r : Req) (a : Nat) (v : Word) : (s.setShadow r a v).bsrOut = s.bsrOut := rfl
@[simp] theorem State.setShadow_kilnEnd (s : State) (r : Req) (a : Nat) (v : Word) : (s.setShadow r a v).kilnEnd = s.kilnEnd := rfl
@[simp] theorem State.setShadow_w (s : State) (r : Req) (a : Nat) (v : Word) (i : Nat) : (s.setShadow r a v).w i = s.w i := rfl
@[simp] theorem State.setShadow_f (s : State) (r : Req) (a : Nat) (v : Word) (i : Fld) : (s.setShadow r a v).f i = s.f i := rfl
@[simp] theorem State.setShadow_b (s : State) (r : Req) (a : Nat) (v : Word) (i : Fld) : (s.setShadow r a v).b i = s.b i := rfl
@[simp] theorem State.setShadow_mode (s : State) (r : Req) (a : Nat) (v : Word) : (s.setShadow r a v).mode = s.mode := rfl
@[simp] theorem State.setShadow_alive (s : State) (r : Req) (a : Nat) (v : Word) : (s.setShadow r a v).alive = s.alive := rfl

/-! ### fin changes `cpl` alone -/

@[simp] theorem State.fin_regs (s : State) (c : Status) : (s.fin c).regs = s.regs := rfl
@[simp] theorem State.fin_mem (s : State) (c : Status) : (s.fin c).mem = s.mem := rfl
@[simp] theorem State.fin_nvm (s : State) (c : Status) : (s.fin c).nvm = s.nvm := rfl
@[simp] theorem State.fin_bad (s : State) (c : Status) : (s.fin c).bad = s.bad := rfl
@[simp] theorem State.fin_shadows (s : State) (c : Status) : (s.fin c).shadows = s.shadows := rfl
@[simp] theorem State.fin_pending (s : State) (c : Status) : (s.fin c).pending = s.pending := rfl
@[simp] theorem State.fin_free (s : State) (c : Status) : (s.fin c).free = s.free := rfl
@[simp] theorem State.fin_aon (s : State) (c : Status) : (s.fin c).aon = s.aon := rfl
@[simp] theorem State.fin_pgood (s : State) (c : Status) : (s.fin c).pgood = s.pgood := rfl
@[simp] theorem State.fin_brown (s : State) (c : Status) : (s.fin c).brown = s.brown := rfl
@[simp] theorem State.fin_vbat (s : State) (c : Status) : (s.fin c).vbat = s.vbat := rfl
@[simp] theorem State.fin_rstLow (s : State) (c : Status) : (s.fin c).rstLow = s.rstLow := rfl
@[simp] theorem State.fin_scan (s : State) (c : Status) : (s.fin c).scan = s.scan := rfl
@[simp] theorem State.fin_st (s : State) (c : Status) : (s.fin c).st = s.st := rfl
@[simp] theorem State.fin_cyc (s : State) (c : Status) : (s.fin c).cyc = s.cyc := rfl
@[simp] theorem State.fin_rtc (s : State) (c : Status) : (s.fin c).rtc = s.rtc := rfl
@[simp] theorem State.fin_evtq (s : State) (c : Status) : (s.fin c).evtq = s.evtq := rfl
@[simp] theorem State.fin_evtDropped (s : State) (c : Status) : (s.fin c).evtDropped = s.evtDropped := rfl
@[simp] theorem State.fin_kilnTest (s : State) (c : Status) : (s.fin c).kilnTest = s.kilnTest := rfl
@[simp] theorem State.fin_snap (s : State) (c : Status) : (s.fin c).snap = s.snap := rfl
@[simp] theorem State.fin_tiles (s : State) (c : Status) : (s.fin c).tiles = s.tiles := rfl
@[simp] theorem State.fin_paths (s : State) (c : Status) : (s.fin c).paths = s.paths := rfl
@[simp] theorem State.fin_detsH (s : State) (c : Status) : (s.fin c).detsH = s.detsH := rfl
@[simp] theorem State.fin_tus (s : State) (c : Status) : (s.fin c).tus = s.tus := rfl
@[simp] theorem State.fin_tgs (s : State) (c : Status) : (s.fin c).tgs = s.tgs := rfl
@[simp] theorem State.fin_strs (s : State) (c : Status) : (s.fin c).strs = s.strs := rfl
@[simp] theorem State.fin_packs (s : State) (c : Status) : (s.fin c).packs = s.packs := rfl
@[simp] theorem State.fin_handed (s : State) (c : Status) : (s.fin c).handed = s.handed := rfl
@[simp] theorem State.fin_rings (s : State) (c : Status) : (s.fin c).rings = s.rings := rfl
@[simp] theorem State.fin_runs (s : State) (c : Status) : (s.fin c).runs = s.runs := rfl
@[simp] theorem State.fin_kept (s : State) (c : Status) : (s.fin c).kept = s.kept := rfl
@[simp] theorem State.fin_lossy (s : State) (c : Status) : (s.fin c).lossy = s.lossy := rfl
@[simp] theorem State.fin_draining (s : State) (c : Status) : (s.fin c).draining = s.draining := rfl
@[simp] theorem State.fin_resumed (s : State) (c : Status) : (s.fin c).resumed = s.resumed := rfl
@[simp] theorem State.fin_masons (s : State) (c : Status) : (s.fin c).masons = s.masons := rfl
@[simp] theorem State.fin_pqs (s : State) (c : Status) : (s.fin c).pqs = s.pqs := rfl
@[simp] theorem State.fin_hputs (s : State) (c : Status) : (s.fin c).hputs = s.hputs := rfl
@[simp] theorem State.fin_grids (s : State) (c : Status) : (s.fin c).grids = s.grids := rfl
@[simp] theorem State.fin_smpl (s : State) (c : Status) : (s.fin c).smpl = s.smpl := rfl
@[simp] theorem State.fin_pps (s : State) (c : Status) : (s.fin c).pps = s.pps := rfl
@[simp] theorem State.fin_servo (s : State) (c : Status) : (s.fin c).servo = s.servo := rfl
@[simp] theorem State.fin_xchg (s : State) (c : Status) : (s.fin c).xchg = s.xchg := rfl
@[simp] theorem State.fin_tsq (s : State) (c : Status) : (s.fin c).tsq = s.tsq := rfl
@[simp] theorem State.fin_rtcPhase (s : State) (c : Status) : (s.fin c).rtcPhase = s.rtcPhase := rfl
@[simp] theorem State.fin_rtcLoad (s : State) (c : Status) : (s.fin c).rtcLoad = s.rtcLoad := rfl
@[simp] theorem State.fin_pulses (s : State) (c : Status) : (s.fin c).pulses = s.pulses := rfl
@[simp] theorem State.fin_lanes (s : State) (c : Status) : (s.fin c).lanes = s.lanes := rfl
@[simp] theorem State.fin_ports (s : State) (c : Status) : (s.fin c).ports = s.ports := rfl
@[simp] theorem State.fin_prbs (s : State) (c : Status) : (s.fin c).prbs = s.prbs := rfl
@[simp] theorem State.fin_rel (s : State) (c : Status) : (s.fin c).rel = s.rel := rfl
@[simp] theorem State.fin_relWake (s : State) (c : Status) : (s.fin c).relWake = s.relWake := rfl
@[simp] theorem State.fin_safeNext (s : State) (c : Status) : (s.fin c).safeNext = s.safeNext := rfl
@[simp] theorem State.fin_nv (s : State) (c : Status) : (s.fin c).nv = s.nv := rfl
@[simp] theorem State.fin_owed (s : State) (c : Status) : (s.fin c).owed = s.owed := rfl
@[simp] theorem State.fin_csPend (s : State) (c : Status) : (s.fin c).csPend = s.csPend := rfl
@[simp] theorem State.fin_csWait (s : State) (c : Status) : (s.fin c).csWait = s.csWait := rfl
@[simp] theorem State.fin_enDue (s : State) (c : Status) : (s.fin c).enDue = s.enDue := rfl
@[simp] theorem State.fin_csDig (s : State) (c : Status) : (s.fin c).csDig = s.csDig := rfl
@[simp] theorem State.fin_csStop (s : State) (c : Status) : (s.fin c).csStop = s.csStop := rfl
@[simp] theorem State.fin_secret (s : State) (c : Status) : (s.fin c).secret = s.secret := rfl
@[simp] theorem State.fin_meters (s : State) (c : Status) : (s.fin c).meters = s.meters := rfl
@[simp] theorem State.fin_prog (s : State) (c : Status) : (s.fin c).prog = s.prog := rfl
@[simp] theorem State.fin_mgp (s : State) (c : Status) : (s.fin c).mgp = s.mgp := rfl
@[simp] theorem State.fin_hk (s : State) (c : Status) : (s.fin c).hk = s.hk := rfl
@[simp] theorem State.fin_bootSha (s : State) (c : Status) : (s.fin c).bootSha = s.bootSha := rfl
@[simp] theorem State.fin_recMaps (s : State) (c : Status) : (s.fin c).recMaps = s.recMaps := rfl
@[simp] theorem State.fin_kilnWords (s : State) (c : Status) : (s.fin c).kilnWords = s.kilnWords := rfl
@[simp] theorem State.fin_tap (s : State) (c : Status) : (s.fin c).tap = s.tap := rfl
@[simp] theorem State.fin_bsrIn (s : State) (c : Status) : (s.fin c).bsrIn = s.bsrIn := rfl
@[simp] theorem State.fin_bsrOut (s : State) (c : Status) : (s.fin c).bsrOut = s.bsrOut := rfl
@[simp] theorem State.fin_kilnEnd (s : State) (c : Status) : (s.fin c).kilnEnd = s.kilnEnd := rfl
@[simp] theorem State.fin_w (s : State) (c : Status) (i : Nat) : (s.fin c).w i = s.w i := rfl
@[simp] theorem State.fin_f (s : State) (c : Status) (i : Fld) : (s.fin c).f i = s.f i := rfl
@[simp] theorem State.fin_b (s : State) (c : Status) (i : Fld) : (s.fin c).b i = s.b i := rfl
@[simp] theorem State.fin_mode (s : State) (c : Status) : (s.fin c).mode = s.mode := rfl
@[simp] theorem State.fin_alive (s : State) (c : Status) : (s.fin c).alive = s.alive := rfl

/-! ### finData changes `cpl` alone -/

@[simp] theorem State.finData_regs (s : State) (d : List Word) : (s.finData d).regs = s.regs := rfl
@[simp] theorem State.finData_mem (s : State) (d : List Word) : (s.finData d).mem = s.mem := rfl
@[simp] theorem State.finData_nvm (s : State) (d : List Word) : (s.finData d).nvm = s.nvm := rfl
@[simp] theorem State.finData_bad (s : State) (d : List Word) : (s.finData d).bad = s.bad := rfl
@[simp] theorem State.finData_shadows (s : State) (d : List Word) : (s.finData d).shadows = s.shadows := rfl
@[simp] theorem State.finData_pending (s : State) (d : List Word) : (s.finData d).pending = s.pending := rfl
@[simp] theorem State.finData_free (s : State) (d : List Word) : (s.finData d).free = s.free := rfl
@[simp] theorem State.finData_aon (s : State) (d : List Word) : (s.finData d).aon = s.aon := rfl
@[simp] theorem State.finData_pgood (s : State) (d : List Word) : (s.finData d).pgood = s.pgood := rfl
@[simp] theorem State.finData_brown (s : State) (d : List Word) : (s.finData d).brown = s.brown := rfl
@[simp] theorem State.finData_vbat (s : State) (d : List Word) : (s.finData d).vbat = s.vbat := rfl
@[simp] theorem State.finData_rstLow (s : State) (d : List Word) : (s.finData d).rstLow = s.rstLow := rfl
@[simp] theorem State.finData_scan (s : State) (d : List Word) : (s.finData d).scan = s.scan := rfl
@[simp] theorem State.finData_st (s : State) (d : List Word) : (s.finData d).st = s.st := rfl
@[simp] theorem State.finData_cyc (s : State) (d : List Word) : (s.finData d).cyc = s.cyc := rfl
@[simp] theorem State.finData_rtc (s : State) (d : List Word) : (s.finData d).rtc = s.rtc := rfl
@[simp] theorem State.finData_evtq (s : State) (d : List Word) : (s.finData d).evtq = s.evtq := rfl
@[simp] theorem State.finData_evtDropped (s : State) (d : List Word) : (s.finData d).evtDropped = s.evtDropped := rfl
@[simp] theorem State.finData_kilnTest (s : State) (d : List Word) : (s.finData d).kilnTest = s.kilnTest := rfl
@[simp] theorem State.finData_snap (s : State) (d : List Word) : (s.finData d).snap = s.snap := rfl
@[simp] theorem State.finData_tiles (s : State) (d : List Word) : (s.finData d).tiles = s.tiles := rfl
@[simp] theorem State.finData_paths (s : State) (d : List Word) : (s.finData d).paths = s.paths := rfl
@[simp] theorem State.finData_detsH (s : State) (d : List Word) : (s.finData d).detsH = s.detsH := rfl
@[simp] theorem State.finData_tus (s : State) (d : List Word) : (s.finData d).tus = s.tus := rfl
@[simp] theorem State.finData_tgs (s : State) (d : List Word) : (s.finData d).tgs = s.tgs := rfl
@[simp] theorem State.finData_strs (s : State) (d : List Word) : (s.finData d).strs = s.strs := rfl
@[simp] theorem State.finData_packs (s : State) (d : List Word) : (s.finData d).packs = s.packs := rfl
@[simp] theorem State.finData_handed (s : State) (d : List Word) : (s.finData d).handed = s.handed := rfl
@[simp] theorem State.finData_rings (s : State) (d : List Word) : (s.finData d).rings = s.rings := rfl
@[simp] theorem State.finData_runs (s : State) (d : List Word) : (s.finData d).runs = s.runs := rfl
@[simp] theorem State.finData_kept (s : State) (d : List Word) : (s.finData d).kept = s.kept := rfl
@[simp] theorem State.finData_lossy (s : State) (d : List Word) : (s.finData d).lossy = s.lossy := rfl
@[simp] theorem State.finData_draining (s : State) (d : List Word) : (s.finData d).draining = s.draining := rfl
@[simp] theorem State.finData_resumed (s : State) (d : List Word) : (s.finData d).resumed = s.resumed := rfl
@[simp] theorem State.finData_masons (s : State) (d : List Word) : (s.finData d).masons = s.masons := rfl
@[simp] theorem State.finData_pqs (s : State) (d : List Word) : (s.finData d).pqs = s.pqs := rfl
@[simp] theorem State.finData_hputs (s : State) (d : List Word) : (s.finData d).hputs = s.hputs := rfl
@[simp] theorem State.finData_grids (s : State) (d : List Word) : (s.finData d).grids = s.grids := rfl
@[simp] theorem State.finData_smpl (s : State) (d : List Word) : (s.finData d).smpl = s.smpl := rfl
@[simp] theorem State.finData_pps (s : State) (d : List Word) : (s.finData d).pps = s.pps := rfl
@[simp] theorem State.finData_servo (s : State) (d : List Word) : (s.finData d).servo = s.servo := rfl
@[simp] theorem State.finData_xchg (s : State) (d : List Word) : (s.finData d).xchg = s.xchg := rfl
@[simp] theorem State.finData_tsq (s : State) (d : List Word) : (s.finData d).tsq = s.tsq := rfl
@[simp] theorem State.finData_rtcPhase (s : State) (d : List Word) : (s.finData d).rtcPhase = s.rtcPhase := rfl
@[simp] theorem State.finData_rtcLoad (s : State) (d : List Word) : (s.finData d).rtcLoad = s.rtcLoad := rfl
@[simp] theorem State.finData_pulses (s : State) (d : List Word) : (s.finData d).pulses = s.pulses := rfl
@[simp] theorem State.finData_lanes (s : State) (d : List Word) : (s.finData d).lanes = s.lanes := rfl
@[simp] theorem State.finData_ports (s : State) (d : List Word) : (s.finData d).ports = s.ports := rfl
@[simp] theorem State.finData_prbs (s : State) (d : List Word) : (s.finData d).prbs = s.prbs := rfl
@[simp] theorem State.finData_rel (s : State) (d : List Word) : (s.finData d).rel = s.rel := rfl
@[simp] theorem State.finData_relWake (s : State) (d : List Word) : (s.finData d).relWake = s.relWake := rfl
@[simp] theorem State.finData_safeNext (s : State) (d : List Word) : (s.finData d).safeNext = s.safeNext := rfl
@[simp] theorem State.finData_nv (s : State) (d : List Word) : (s.finData d).nv = s.nv := rfl
@[simp] theorem State.finData_owed (s : State) (d : List Word) : (s.finData d).owed = s.owed := rfl
@[simp] theorem State.finData_csPend (s : State) (d : List Word) : (s.finData d).csPend = s.csPend := rfl
@[simp] theorem State.finData_csWait (s : State) (d : List Word) : (s.finData d).csWait = s.csWait := rfl
@[simp] theorem State.finData_enDue (s : State) (d : List Word) : (s.finData d).enDue = s.enDue := rfl
@[simp] theorem State.finData_csDig (s : State) (d : List Word) : (s.finData d).csDig = s.csDig := rfl
@[simp] theorem State.finData_csStop (s : State) (d : List Word) : (s.finData d).csStop = s.csStop := rfl
@[simp] theorem State.finData_secret (s : State) (d : List Word) : (s.finData d).secret = s.secret := rfl
@[simp] theorem State.finData_meters (s : State) (d : List Word) : (s.finData d).meters = s.meters := rfl
@[simp] theorem State.finData_prog (s : State) (d : List Word) : (s.finData d).prog = s.prog := rfl
@[simp] theorem State.finData_mgp (s : State) (d : List Word) : (s.finData d).mgp = s.mgp := rfl
@[simp] theorem State.finData_hk (s : State) (d : List Word) : (s.finData d).hk = s.hk := rfl
@[simp] theorem State.finData_bootSha (s : State) (d : List Word) : (s.finData d).bootSha = s.bootSha := rfl
@[simp] theorem State.finData_recMaps (s : State) (d : List Word) : (s.finData d).recMaps = s.recMaps := rfl
@[simp] theorem State.finData_kilnWords (s : State) (d : List Word) : (s.finData d).kilnWords = s.kilnWords := rfl
@[simp] theorem State.finData_tap (s : State) (d : List Word) : (s.finData d).tap = s.tap := rfl
@[simp] theorem State.finData_bsrIn (s : State) (d : List Word) : (s.finData d).bsrIn = s.bsrIn := rfl
@[simp] theorem State.finData_bsrOut (s : State) (d : List Word) : (s.finData d).bsrOut = s.bsrOut := rfl
@[simp] theorem State.finData_kilnEnd (s : State) (d : List Word) : (s.finData d).kilnEnd = s.kilnEnd := rfl
@[simp] theorem State.finData_w (s : State) (d : List Word) (i : Nat) : (s.finData d).w i = s.w i := rfl
@[simp] theorem State.finData_f (s : State) (d : List Word) (i : Fld) : (s.finData d).f i = s.f i := rfl
@[simp] theorem State.finData_b (s : State) (d : List Word) (i : Fld) : (s.finData d).b i = s.b i := rfl
@[simp] theorem State.finData_mode (s : State) (d : List Word) : (s.finData d).mode = s.mode := rfl
@[simp] theorem State.finData_alive (s : State) (d : List Word) : (s.finData d).alive = s.alive := rfl

/-! ### setTile changes `tiles` alone -/

@[simp] theorem State.setTile_regs (s : State) (k : Nat) (x : Tile) : (s.setTile k x).regs = s.regs := rfl
@[simp] theorem State.setTile_mem (s : State) (k : Nat) (x : Tile) : (s.setTile k x).mem = s.mem := rfl
@[simp] theorem State.setTile_nvm (s : State) (k : Nat) (x : Tile) : (s.setTile k x).nvm = s.nvm := rfl
@[simp] theorem State.setTile_bad (s : State) (k : Nat) (x : Tile) : (s.setTile k x).bad = s.bad := rfl
@[simp] theorem State.setTile_shadows (s : State) (k : Nat) (x : Tile) : (s.setTile k x).shadows = s.shadows := rfl
@[simp] theorem State.setTile_cpl (s : State) (k : Nat) (x : Tile) : (s.setTile k x).cpl = s.cpl := rfl
@[simp] theorem State.setTile_pending (s : State) (k : Nat) (x : Tile) : (s.setTile k x).pending = s.pending := rfl
@[simp] theorem State.setTile_free (s : State) (k : Nat) (x : Tile) : (s.setTile k x).free = s.free := rfl
@[simp] theorem State.setTile_aon (s : State) (k : Nat) (x : Tile) : (s.setTile k x).aon = s.aon := rfl
@[simp] theorem State.setTile_pgood (s : State) (k : Nat) (x : Tile) : (s.setTile k x).pgood = s.pgood := rfl
@[simp] theorem State.setTile_brown (s : State) (k : Nat) (x : Tile) : (s.setTile k x).brown = s.brown := rfl
@[simp] theorem State.setTile_vbat (s : State) (k : Nat) (x : Tile) : (s.setTile k x).vbat = s.vbat := rfl
@[simp] theorem State.setTile_rstLow (s : State) (k : Nat) (x : Tile) : (s.setTile k x).rstLow = s.rstLow := rfl
@[simp] theorem State.setTile_scan (s : State) (k : Nat) (x : Tile) : (s.setTile k x).scan = s.scan := rfl
@[simp] theorem State.setTile_st (s : State) (k : Nat) (x : Tile) : (s.setTile k x).st = s.st := rfl
@[simp] theorem State.setTile_cyc (s : State) (k : Nat) (x : Tile) : (s.setTile k x).cyc = s.cyc := rfl
@[simp] theorem State.setTile_rtc (s : State) (k : Nat) (x : Tile) : (s.setTile k x).rtc = s.rtc := rfl
@[simp] theorem State.setTile_evtq (s : State) (k : Nat) (x : Tile) : (s.setTile k x).evtq = s.evtq := rfl
@[simp] theorem State.setTile_evtDropped (s : State) (k : Nat) (x : Tile) : (s.setTile k x).evtDropped = s.evtDropped := rfl
@[simp] theorem State.setTile_kilnTest (s : State) (k : Nat) (x : Tile) : (s.setTile k x).kilnTest = s.kilnTest := rfl
@[simp] theorem State.setTile_snap (s : State) (k : Nat) (x : Tile) : (s.setTile k x).snap = s.snap := rfl
@[simp] theorem State.setTile_paths (s : State) (k : Nat) (x : Tile) : (s.setTile k x).paths = s.paths := rfl
@[simp] theorem State.setTile_detsH (s : State) (k : Nat) (x : Tile) : (s.setTile k x).detsH = s.detsH := rfl
@[simp] theorem State.setTile_tus (s : State) (k : Nat) (x : Tile) : (s.setTile k x).tus = s.tus := rfl
@[simp] theorem State.setTile_tgs (s : State) (k : Nat) (x : Tile) : (s.setTile k x).tgs = s.tgs := rfl
@[simp] theorem State.setTile_strs (s : State) (k : Nat) (x : Tile) : (s.setTile k x).strs = s.strs := rfl
@[simp] theorem State.setTile_packs (s : State) (k : Nat) (x : Tile) : (s.setTile k x).packs = s.packs := rfl
@[simp] theorem State.setTile_handed (s : State) (k : Nat) (x : Tile) : (s.setTile k x).handed = s.handed := rfl
@[simp] theorem State.setTile_rings (s : State) (k : Nat) (x : Tile) : (s.setTile k x).rings = s.rings := rfl
@[simp] theorem State.setTile_runs (s : State) (k : Nat) (x : Tile) : (s.setTile k x).runs = s.runs := rfl
@[simp] theorem State.setTile_kept (s : State) (k : Nat) (x : Tile) : (s.setTile k x).kept = s.kept := rfl
@[simp] theorem State.setTile_lossy (s : State) (k : Nat) (x : Tile) : (s.setTile k x).lossy = s.lossy := rfl
@[simp] theorem State.setTile_draining (s : State) (k : Nat) (x : Tile) : (s.setTile k x).draining = s.draining := rfl
@[simp] theorem State.setTile_resumed (s : State) (k : Nat) (x : Tile) : (s.setTile k x).resumed = s.resumed := rfl
@[simp] theorem State.setTile_masons (s : State) (k : Nat) (x : Tile) : (s.setTile k x).masons = s.masons := rfl
@[simp] theorem State.setTile_pqs (s : State) (k : Nat) (x : Tile) : (s.setTile k x).pqs = s.pqs := rfl
@[simp] theorem State.setTile_hputs (s : State) (k : Nat) (x : Tile) : (s.setTile k x).hputs = s.hputs := rfl
@[simp] theorem State.setTile_grids (s : State) (k : Nat) (x : Tile) : (s.setTile k x).grids = s.grids := rfl
@[simp] theorem State.setTile_smpl (s : State) (k : Nat) (x : Tile) : (s.setTile k x).smpl = s.smpl := rfl
@[simp] theorem State.setTile_pps (s : State) (k : Nat) (x : Tile) : (s.setTile k x).pps = s.pps := rfl
@[simp] theorem State.setTile_servo (s : State) (k : Nat) (x : Tile) : (s.setTile k x).servo = s.servo := rfl
@[simp] theorem State.setTile_xchg (s : State) (k : Nat) (x : Tile) : (s.setTile k x).xchg = s.xchg := rfl
@[simp] theorem State.setTile_tsq (s : State) (k : Nat) (x : Tile) : (s.setTile k x).tsq = s.tsq := rfl
@[simp] theorem State.setTile_rtcPhase (s : State) (k : Nat) (x : Tile) : (s.setTile k x).rtcPhase = s.rtcPhase := rfl
@[simp] theorem State.setTile_rtcLoad (s : State) (k : Nat) (x : Tile) : (s.setTile k x).rtcLoad = s.rtcLoad := rfl
@[simp] theorem State.setTile_pulses (s : State) (k : Nat) (x : Tile) : (s.setTile k x).pulses = s.pulses := rfl
@[simp] theorem State.setTile_lanes (s : State) (k : Nat) (x : Tile) : (s.setTile k x).lanes = s.lanes := rfl
@[simp] theorem State.setTile_ports (s : State) (k : Nat) (x : Tile) : (s.setTile k x).ports = s.ports := rfl
@[simp] theorem State.setTile_prbs (s : State) (k : Nat) (x : Tile) : (s.setTile k x).prbs = s.prbs := rfl
@[simp] theorem State.setTile_rel (s : State) (k : Nat) (x : Tile) : (s.setTile k x).rel = s.rel := rfl
@[simp] theorem State.setTile_relWake (s : State) (k : Nat) (x : Tile) : (s.setTile k x).relWake = s.relWake := rfl
@[simp] theorem State.setTile_safeNext (s : State) (k : Nat) (x : Tile) : (s.setTile k x).safeNext = s.safeNext := rfl
@[simp] theorem State.setTile_nv (s : State) (k : Nat) (x : Tile) : (s.setTile k x).nv = s.nv := rfl
@[simp] theorem State.setTile_owed (s : State) (k : Nat) (x : Tile) : (s.setTile k x).owed = s.owed := rfl
@[simp] theorem State.setTile_csPend (s : State) (k : Nat) (x : Tile) : (s.setTile k x).csPend = s.csPend := rfl
@[simp] theorem State.setTile_csWait (s : State) (k : Nat) (x : Tile) : (s.setTile k x).csWait = s.csWait := rfl
@[simp] theorem State.setTile_enDue (s : State) (k : Nat) (x : Tile) : (s.setTile k x).enDue = s.enDue := rfl
@[simp] theorem State.setTile_csDig (s : State) (k : Nat) (x : Tile) : (s.setTile k x).csDig = s.csDig := rfl
@[simp] theorem State.setTile_csStop (s : State) (k : Nat) (x : Tile) : (s.setTile k x).csStop = s.csStop := rfl
@[simp] theorem State.setTile_secret (s : State) (k : Nat) (x : Tile) : (s.setTile k x).secret = s.secret := rfl
@[simp] theorem State.setTile_meters (s : State) (k : Nat) (x : Tile) : (s.setTile k x).meters = s.meters := rfl
@[simp] theorem State.setTile_prog (s : State) (k : Nat) (x : Tile) : (s.setTile k x).prog = s.prog := rfl
@[simp] theorem State.setTile_mgp (s : State) (k : Nat) (x : Tile) : (s.setTile k x).mgp = s.mgp := rfl
@[simp] theorem State.setTile_hk (s : State) (k : Nat) (x : Tile) : (s.setTile k x).hk = s.hk := rfl
@[simp] theorem State.setTile_bootSha (s : State) (k : Nat) (x : Tile) : (s.setTile k x).bootSha = s.bootSha := rfl
@[simp] theorem State.setTile_recMaps (s : State) (k : Nat) (x : Tile) : (s.setTile k x).recMaps = s.recMaps := rfl
@[simp] theorem State.setTile_kilnWords (s : State) (k : Nat) (x : Tile) : (s.setTile k x).kilnWords = s.kilnWords := rfl
@[simp] theorem State.setTile_tap (s : State) (k : Nat) (x : Tile) : (s.setTile k x).tap = s.tap := rfl
@[simp] theorem State.setTile_bsrIn (s : State) (k : Nat) (x : Tile) : (s.setTile k x).bsrIn = s.bsrIn := rfl
@[simp] theorem State.setTile_bsrOut (s : State) (k : Nat) (x : Tile) : (s.setTile k x).bsrOut = s.bsrOut := rfl
@[simp] theorem State.setTile_kilnEnd (s : State) (k : Nat) (x : Tile) : (s.setTile k x).kilnEnd = s.kilnEnd := rfl
@[simp] theorem State.setTile_w (s : State) (k : Nat) (x : Tile) (i : Nat) : (s.setTile k x).w i = s.w i := rfl
@[simp] theorem State.setTile_f (s : State) (k : Nat) (x : Tile) (i : Fld) : (s.setTile k x).f i = s.f i := rfl
@[simp] theorem State.setTile_b (s : State) (k : Nat) (x : Tile) (i : Fld) : (s.setTile k x).b i = s.b i := rfl
@[simp] theorem State.setTile_mode (s : State) (k : Nat) (x : Tile) : (s.setTile k x).mode = s.mode := rfl
@[simp] theorem State.setTile_alive (s : State) (k : Nat) (x : Tile) : (s.setTile k x).alive = s.alive := rfl

/-! ### setPath changes `paths` alone -/

@[simp] theorem State.setPath_regs (s : State) (k : Nat) (x : Path) : (s.setPath k x).regs = s.regs := rfl
@[simp] theorem State.setPath_mem (s : State) (k : Nat) (x : Path) : (s.setPath k x).mem = s.mem := rfl
@[simp] theorem State.setPath_nvm (s : State) (k : Nat) (x : Path) : (s.setPath k x).nvm = s.nvm := rfl
@[simp] theorem State.setPath_bad (s : State) (k : Nat) (x : Path) : (s.setPath k x).bad = s.bad := rfl
@[simp] theorem State.setPath_shadows (s : State) (k : Nat) (x : Path) : (s.setPath k x).shadows = s.shadows := rfl
@[simp] theorem State.setPath_cpl (s : State) (k : Nat) (x : Path) : (s.setPath k x).cpl = s.cpl := rfl
@[simp] theorem State.setPath_pending (s : State) (k : Nat) (x : Path) : (s.setPath k x).pending = s.pending := rfl
@[simp] theorem State.setPath_free (s : State) (k : Nat) (x : Path) : (s.setPath k x).free = s.free := rfl
@[simp] theorem State.setPath_aon (s : State) (k : Nat) (x : Path) : (s.setPath k x).aon = s.aon := rfl
@[simp] theorem State.setPath_pgood (s : State) (k : Nat) (x : Path) : (s.setPath k x).pgood = s.pgood := rfl
@[simp] theorem State.setPath_brown (s : State) (k : Nat) (x : Path) : (s.setPath k x).brown = s.brown := rfl
@[simp] theorem State.setPath_vbat (s : State) (k : Nat) (x : Path) : (s.setPath k x).vbat = s.vbat := rfl
@[simp] theorem State.setPath_rstLow (s : State) (k : Nat) (x : Path) : (s.setPath k x).rstLow = s.rstLow := rfl
@[simp] theorem State.setPath_scan (s : State) (k : Nat) (x : Path) : (s.setPath k x).scan = s.scan := rfl
@[simp] theorem State.setPath_st (s : State) (k : Nat) (x : Path) : (s.setPath k x).st = s.st := rfl
@[simp] theorem State.setPath_cyc (s : State) (k : Nat) (x : Path) : (s.setPath k x).cyc = s.cyc := rfl
@[simp] theorem State.setPath_rtc (s : State) (k : Nat) (x : Path) : (s.setPath k x).rtc = s.rtc := rfl
@[simp] theorem State.setPath_evtq (s : State) (k : Nat) (x : Path) : (s.setPath k x).evtq = s.evtq := rfl
@[simp] theorem State.setPath_evtDropped (s : State) (k : Nat) (x : Path) : (s.setPath k x).evtDropped = s.evtDropped := rfl
@[simp] theorem State.setPath_kilnTest (s : State) (k : Nat) (x : Path) : (s.setPath k x).kilnTest = s.kilnTest := rfl
@[simp] theorem State.setPath_snap (s : State) (k : Nat) (x : Path) : (s.setPath k x).snap = s.snap := rfl
@[simp] theorem State.setPath_tiles (s : State) (k : Nat) (x : Path) : (s.setPath k x).tiles = s.tiles := rfl
@[simp] theorem State.setPath_detsH (s : State) (k : Nat) (x : Path) : (s.setPath k x).detsH = s.detsH := rfl
@[simp] theorem State.setPath_tus (s : State) (k : Nat) (x : Path) : (s.setPath k x).tus = s.tus := rfl
@[simp] theorem State.setPath_tgs (s : State) (k : Nat) (x : Path) : (s.setPath k x).tgs = s.tgs := rfl
@[simp] theorem State.setPath_strs (s : State) (k : Nat) (x : Path) : (s.setPath k x).strs = s.strs := rfl
@[simp] theorem State.setPath_packs (s : State) (k : Nat) (x : Path) : (s.setPath k x).packs = s.packs := rfl
@[simp] theorem State.setPath_handed (s : State) (k : Nat) (x : Path) : (s.setPath k x).handed = s.handed := rfl
@[simp] theorem State.setPath_rings (s : State) (k : Nat) (x : Path) : (s.setPath k x).rings = s.rings := rfl
@[simp] theorem State.setPath_runs (s : State) (k : Nat) (x : Path) : (s.setPath k x).runs = s.runs := rfl
@[simp] theorem State.setPath_kept (s : State) (k : Nat) (x : Path) : (s.setPath k x).kept = s.kept := rfl
@[simp] theorem State.setPath_lossy (s : State) (k : Nat) (x : Path) : (s.setPath k x).lossy = s.lossy := rfl
@[simp] theorem State.setPath_draining (s : State) (k : Nat) (x : Path) : (s.setPath k x).draining = s.draining := rfl
@[simp] theorem State.setPath_resumed (s : State) (k : Nat) (x : Path) : (s.setPath k x).resumed = s.resumed := rfl
@[simp] theorem State.setPath_masons (s : State) (k : Nat) (x : Path) : (s.setPath k x).masons = s.masons := rfl
@[simp] theorem State.setPath_pqs (s : State) (k : Nat) (x : Path) : (s.setPath k x).pqs = s.pqs := rfl
@[simp] theorem State.setPath_hputs (s : State) (k : Nat) (x : Path) : (s.setPath k x).hputs = s.hputs := rfl
@[simp] theorem State.setPath_grids (s : State) (k : Nat) (x : Path) : (s.setPath k x).grids = s.grids := rfl
@[simp] theorem State.setPath_smpl (s : State) (k : Nat) (x : Path) : (s.setPath k x).smpl = s.smpl := rfl
@[simp] theorem State.setPath_pps (s : State) (k : Nat) (x : Path) : (s.setPath k x).pps = s.pps := rfl
@[simp] theorem State.setPath_servo (s : State) (k : Nat) (x : Path) : (s.setPath k x).servo = s.servo := rfl
@[simp] theorem State.setPath_xchg (s : State) (k : Nat) (x : Path) : (s.setPath k x).xchg = s.xchg := rfl
@[simp] theorem State.setPath_tsq (s : State) (k : Nat) (x : Path) : (s.setPath k x).tsq = s.tsq := rfl
@[simp] theorem State.setPath_rtcPhase (s : State) (k : Nat) (x : Path) : (s.setPath k x).rtcPhase = s.rtcPhase := rfl
@[simp] theorem State.setPath_rtcLoad (s : State) (k : Nat) (x : Path) : (s.setPath k x).rtcLoad = s.rtcLoad := rfl
@[simp] theorem State.setPath_pulses (s : State) (k : Nat) (x : Path) : (s.setPath k x).pulses = s.pulses := rfl
@[simp] theorem State.setPath_lanes (s : State) (k : Nat) (x : Path) : (s.setPath k x).lanes = s.lanes := rfl
@[simp] theorem State.setPath_ports (s : State) (k : Nat) (x : Path) : (s.setPath k x).ports = s.ports := rfl
@[simp] theorem State.setPath_prbs (s : State) (k : Nat) (x : Path) : (s.setPath k x).prbs = s.prbs := rfl
@[simp] theorem State.setPath_rel (s : State) (k : Nat) (x : Path) : (s.setPath k x).rel = s.rel := rfl
@[simp] theorem State.setPath_relWake (s : State) (k : Nat) (x : Path) : (s.setPath k x).relWake = s.relWake := rfl
@[simp] theorem State.setPath_safeNext (s : State) (k : Nat) (x : Path) : (s.setPath k x).safeNext = s.safeNext := rfl
@[simp] theorem State.setPath_nv (s : State) (k : Nat) (x : Path) : (s.setPath k x).nv = s.nv := rfl
@[simp] theorem State.setPath_owed (s : State) (k : Nat) (x : Path) : (s.setPath k x).owed = s.owed := rfl
@[simp] theorem State.setPath_csPend (s : State) (k : Nat) (x : Path) : (s.setPath k x).csPend = s.csPend := rfl
@[simp] theorem State.setPath_csWait (s : State) (k : Nat) (x : Path) : (s.setPath k x).csWait = s.csWait := rfl
@[simp] theorem State.setPath_enDue (s : State) (k : Nat) (x : Path) : (s.setPath k x).enDue = s.enDue := rfl
@[simp] theorem State.setPath_csDig (s : State) (k : Nat) (x : Path) : (s.setPath k x).csDig = s.csDig := rfl
@[simp] theorem State.setPath_csStop (s : State) (k : Nat) (x : Path) : (s.setPath k x).csStop = s.csStop := rfl
@[simp] theorem State.setPath_secret (s : State) (k : Nat) (x : Path) : (s.setPath k x).secret = s.secret := rfl
@[simp] theorem State.setPath_meters (s : State) (k : Nat) (x : Path) : (s.setPath k x).meters = s.meters := rfl
@[simp] theorem State.setPath_prog (s : State) (k : Nat) (x : Path) : (s.setPath k x).prog = s.prog := rfl
@[simp] theorem State.setPath_mgp (s : State) (k : Nat) (x : Path) : (s.setPath k x).mgp = s.mgp := rfl
@[simp] theorem State.setPath_hk (s : State) (k : Nat) (x : Path) : (s.setPath k x).hk = s.hk := rfl
@[simp] theorem State.setPath_bootSha (s : State) (k : Nat) (x : Path) : (s.setPath k x).bootSha = s.bootSha := rfl
@[simp] theorem State.setPath_recMaps (s : State) (k : Nat) (x : Path) : (s.setPath k x).recMaps = s.recMaps := rfl
@[simp] theorem State.setPath_kilnWords (s : State) (k : Nat) (x : Path) : (s.setPath k x).kilnWords = s.kilnWords := rfl
@[simp] theorem State.setPath_tap (s : State) (k : Nat) (x : Path) : (s.setPath k x).tap = s.tap := rfl
@[simp] theorem State.setPath_bsrIn (s : State) (k : Nat) (x : Path) : (s.setPath k x).bsrIn = s.bsrIn := rfl
@[simp] theorem State.setPath_bsrOut (s : State) (k : Nat) (x : Path) : (s.setPath k x).bsrOut = s.bsrOut := rfl
@[simp] theorem State.setPath_kilnEnd (s : State) (k : Nat) (x : Path) : (s.setPath k x).kilnEnd = s.kilnEnd := rfl
@[simp] theorem State.setPath_w (s : State) (k : Nat) (x : Path) (i : Nat) : (s.setPath k x).w i = s.w i := rfl
@[simp] theorem State.setPath_f (s : State) (k : Nat) (x : Path) (i : Fld) : (s.setPath k x).f i = s.f i := rfl
@[simp] theorem State.setPath_b (s : State) (k : Nat) (x : Path) (i : Fld) : (s.setPath k x).b i = s.b i := rfl
@[simp] theorem State.setPath_mode (s : State) (k : Nat) (x : Path) : (s.setPath k x).mode = s.mode := rfl
@[simp] theorem State.setPath_alive (s : State) (k : Nat) (x : Path) : (s.setPath k x).alive = s.alive := rfl

/-! ### setDet changes `detsH` alone -/

@[simp] theorem State.setDet_regs (s : State) (k : Nat) (x : Det) : (s.setDet k x).regs = s.regs := rfl
@[simp] theorem State.setDet_mem (s : State) (k : Nat) (x : Det) : (s.setDet k x).mem = s.mem := rfl
@[simp] theorem State.setDet_nvm (s : State) (k : Nat) (x : Det) : (s.setDet k x).nvm = s.nvm := rfl
@[simp] theorem State.setDet_bad (s : State) (k : Nat) (x : Det) : (s.setDet k x).bad = s.bad := rfl
@[simp] theorem State.setDet_shadows (s : State) (k : Nat) (x : Det) : (s.setDet k x).shadows = s.shadows := rfl
@[simp] theorem State.setDet_cpl (s : State) (k : Nat) (x : Det) : (s.setDet k x).cpl = s.cpl := rfl
@[simp] theorem State.setDet_pending (s : State) (k : Nat) (x : Det) : (s.setDet k x).pending = s.pending := rfl
@[simp] theorem State.setDet_free (s : State) (k : Nat) (x : Det) : (s.setDet k x).free = s.free := rfl
@[simp] theorem State.setDet_aon (s : State) (k : Nat) (x : Det) : (s.setDet k x).aon = s.aon := rfl
@[simp] theorem State.setDet_pgood (s : State) (k : Nat) (x : Det) : (s.setDet k x).pgood = s.pgood := rfl
@[simp] theorem State.setDet_brown (s : State) (k : Nat) (x : Det) : (s.setDet k x).brown = s.brown := rfl
@[simp] theorem State.setDet_vbat (s : State) (k : Nat) (x : Det) : (s.setDet k x).vbat = s.vbat := rfl
@[simp] theorem State.setDet_rstLow (s : State) (k : Nat) (x : Det) : (s.setDet k x).rstLow = s.rstLow := rfl
@[simp] theorem State.setDet_scan (s : State) (k : Nat) (x : Det) : (s.setDet k x).scan = s.scan := rfl
@[simp] theorem State.setDet_st (s : State) (k : Nat) (x : Det) : (s.setDet k x).st = s.st := rfl
@[simp] theorem State.setDet_cyc (s : State) (k : Nat) (x : Det) : (s.setDet k x).cyc = s.cyc := rfl
@[simp] theorem State.setDet_rtc (s : State) (k : Nat) (x : Det) : (s.setDet k x).rtc = s.rtc := rfl
@[simp] theorem State.setDet_evtq (s : State) (k : Nat) (x : Det) : (s.setDet k x).evtq = s.evtq := rfl
@[simp] theorem State.setDet_evtDropped (s : State) (k : Nat) (x : Det) : (s.setDet k x).evtDropped = s.evtDropped := rfl
@[simp] theorem State.setDet_kilnTest (s : State) (k : Nat) (x : Det) : (s.setDet k x).kilnTest = s.kilnTest := rfl
@[simp] theorem State.setDet_snap (s : State) (k : Nat) (x : Det) : (s.setDet k x).snap = s.snap := rfl
@[simp] theorem State.setDet_tiles (s : State) (k : Nat) (x : Det) : (s.setDet k x).tiles = s.tiles := rfl
@[simp] theorem State.setDet_paths (s : State) (k : Nat) (x : Det) : (s.setDet k x).paths = s.paths := rfl
@[simp] theorem State.setDet_tus (s : State) (k : Nat) (x : Det) : (s.setDet k x).tus = s.tus := rfl
@[simp] theorem State.setDet_tgs (s : State) (k : Nat) (x : Det) : (s.setDet k x).tgs = s.tgs := rfl
@[simp] theorem State.setDet_strs (s : State) (k : Nat) (x : Det) : (s.setDet k x).strs = s.strs := rfl
@[simp] theorem State.setDet_packs (s : State) (k : Nat) (x : Det) : (s.setDet k x).packs = s.packs := rfl
@[simp] theorem State.setDet_handed (s : State) (k : Nat) (x : Det) : (s.setDet k x).handed = s.handed := rfl
@[simp] theorem State.setDet_rings (s : State) (k : Nat) (x : Det) : (s.setDet k x).rings = s.rings := rfl
@[simp] theorem State.setDet_runs (s : State) (k : Nat) (x : Det) : (s.setDet k x).runs = s.runs := rfl
@[simp] theorem State.setDet_kept (s : State) (k : Nat) (x : Det) : (s.setDet k x).kept = s.kept := rfl
@[simp] theorem State.setDet_lossy (s : State) (k : Nat) (x : Det) : (s.setDet k x).lossy = s.lossy := rfl
@[simp] theorem State.setDet_draining (s : State) (k : Nat) (x : Det) : (s.setDet k x).draining = s.draining := rfl
@[simp] theorem State.setDet_resumed (s : State) (k : Nat) (x : Det) : (s.setDet k x).resumed = s.resumed := rfl
@[simp] theorem State.setDet_masons (s : State) (k : Nat) (x : Det) : (s.setDet k x).masons = s.masons := rfl
@[simp] theorem State.setDet_pqs (s : State) (k : Nat) (x : Det) : (s.setDet k x).pqs = s.pqs := rfl
@[simp] theorem State.setDet_hputs (s : State) (k : Nat) (x : Det) : (s.setDet k x).hputs = s.hputs := rfl
@[simp] theorem State.setDet_grids (s : State) (k : Nat) (x : Det) : (s.setDet k x).grids = s.grids := rfl
@[simp] theorem State.setDet_smpl (s : State) (k : Nat) (x : Det) : (s.setDet k x).smpl = s.smpl := rfl
@[simp] theorem State.setDet_pps (s : State) (k : Nat) (x : Det) : (s.setDet k x).pps = s.pps := rfl
@[simp] theorem State.setDet_servo (s : State) (k : Nat) (x : Det) : (s.setDet k x).servo = s.servo := rfl
@[simp] theorem State.setDet_xchg (s : State) (k : Nat) (x : Det) : (s.setDet k x).xchg = s.xchg := rfl
@[simp] theorem State.setDet_tsq (s : State) (k : Nat) (x : Det) : (s.setDet k x).tsq = s.tsq := rfl
@[simp] theorem State.setDet_rtcPhase (s : State) (k : Nat) (x : Det) : (s.setDet k x).rtcPhase = s.rtcPhase := rfl
@[simp] theorem State.setDet_rtcLoad (s : State) (k : Nat) (x : Det) : (s.setDet k x).rtcLoad = s.rtcLoad := rfl
@[simp] theorem State.setDet_pulses (s : State) (k : Nat) (x : Det) : (s.setDet k x).pulses = s.pulses := rfl
@[simp] theorem State.setDet_lanes (s : State) (k : Nat) (x : Det) : (s.setDet k x).lanes = s.lanes := rfl
@[simp] theorem State.setDet_ports (s : State) (k : Nat) (x : Det) : (s.setDet k x).ports = s.ports := rfl
@[simp] theorem State.setDet_prbs (s : State) (k : Nat) (x : Det) : (s.setDet k x).prbs = s.prbs := rfl
@[simp] theorem State.setDet_rel (s : State) (k : Nat) (x : Det) : (s.setDet k x).rel = s.rel := rfl
@[simp] theorem State.setDet_relWake (s : State) (k : Nat) (x : Det) : (s.setDet k x).relWake = s.relWake := rfl
@[simp] theorem State.setDet_safeNext (s : State) (k : Nat) (x : Det) : (s.setDet k x).safeNext = s.safeNext := rfl
@[simp] theorem State.setDet_nv (s : State) (k : Nat) (x : Det) : (s.setDet k x).nv = s.nv := rfl
@[simp] theorem State.setDet_owed (s : State) (k : Nat) (x : Det) : (s.setDet k x).owed = s.owed := rfl
@[simp] theorem State.setDet_csPend (s : State) (k : Nat) (x : Det) : (s.setDet k x).csPend = s.csPend := rfl
@[simp] theorem State.setDet_csWait (s : State) (k : Nat) (x : Det) : (s.setDet k x).csWait = s.csWait := rfl
@[simp] theorem State.setDet_enDue (s : State) (k : Nat) (x : Det) : (s.setDet k x).enDue = s.enDue := rfl
@[simp] theorem State.setDet_csDig (s : State) (k : Nat) (x : Det) : (s.setDet k x).csDig = s.csDig := rfl
@[simp] theorem State.setDet_csStop (s : State) (k : Nat) (x : Det) : (s.setDet k x).csStop = s.csStop := rfl
@[simp] theorem State.setDet_secret (s : State) (k : Nat) (x : Det) : (s.setDet k x).secret = s.secret := rfl
@[simp] theorem State.setDet_meters (s : State) (k : Nat) (x : Det) : (s.setDet k x).meters = s.meters := rfl
@[simp] theorem State.setDet_prog (s : State) (k : Nat) (x : Det) : (s.setDet k x).prog = s.prog := rfl
@[simp] theorem State.setDet_mgp (s : State) (k : Nat) (x : Det) : (s.setDet k x).mgp = s.mgp := rfl
@[simp] theorem State.setDet_hk (s : State) (k : Nat) (x : Det) : (s.setDet k x).hk = s.hk := rfl
@[simp] theorem State.setDet_bootSha (s : State) (k : Nat) (x : Det) : (s.setDet k x).bootSha = s.bootSha := rfl
@[simp] theorem State.setDet_recMaps (s : State) (k : Nat) (x : Det) : (s.setDet k x).recMaps = s.recMaps := rfl
@[simp] theorem State.setDet_kilnWords (s : State) (k : Nat) (x : Det) : (s.setDet k x).kilnWords = s.kilnWords := rfl
@[simp] theorem State.setDet_tap (s : State) (k : Nat) (x : Det) : (s.setDet k x).tap = s.tap := rfl
@[simp] theorem State.setDet_bsrIn (s : State) (k : Nat) (x : Det) : (s.setDet k x).bsrIn = s.bsrIn := rfl
@[simp] theorem State.setDet_bsrOut (s : State) (k : Nat) (x : Det) : (s.setDet k x).bsrOut = s.bsrOut := rfl
@[simp] theorem State.setDet_kilnEnd (s : State) (k : Nat) (x : Det) : (s.setDet k x).kilnEnd = s.kilnEnd := rfl
@[simp] theorem State.setDet_w (s : State) (k : Nat) (x : Det) (i : Nat) : (s.setDet k x).w i = s.w i := rfl
@[simp] theorem State.setDet_f (s : State) (k : Nat) (x : Det) (i : Fld) : (s.setDet k x).f i = s.f i := rfl
@[simp] theorem State.setDet_b (s : State) (k : Nat) (x : Det) (i : Fld) : (s.setDet k x).b i = s.b i := rfl
@[simp] theorem State.setDet_mode (s : State) (k : Nat) (x : Det) : (s.setDet k x).mode = s.mode := rfl
@[simp] theorem State.setDet_alive (s : State) (k : Nat) (x : Det) : (s.setDet k x).alive = s.alive := rfl

/-! ### setTu changes `tus` alone -/

@[simp] theorem State.setTu_regs (s : State) (k : Nat) (x : Tu) : (s.setTu k x).regs = s.regs := rfl
@[simp] theorem State.setTu_mem (s : State) (k : Nat) (x : Tu) : (s.setTu k x).mem = s.mem := rfl
@[simp] theorem State.setTu_nvm (s : State) (k : Nat) (x : Tu) : (s.setTu k x).nvm = s.nvm := rfl
@[simp] theorem State.setTu_bad (s : State) (k : Nat) (x : Tu) : (s.setTu k x).bad = s.bad := rfl
@[simp] theorem State.setTu_shadows (s : State) (k : Nat) (x : Tu) : (s.setTu k x).shadows = s.shadows := rfl
@[simp] theorem State.setTu_cpl (s : State) (k : Nat) (x : Tu) : (s.setTu k x).cpl = s.cpl := rfl
@[simp] theorem State.setTu_pending (s : State) (k : Nat) (x : Tu) : (s.setTu k x).pending = s.pending := rfl
@[simp] theorem State.setTu_free (s : State) (k : Nat) (x : Tu) : (s.setTu k x).free = s.free := rfl
@[simp] theorem State.setTu_aon (s : State) (k : Nat) (x : Tu) : (s.setTu k x).aon = s.aon := rfl
@[simp] theorem State.setTu_pgood (s : State) (k : Nat) (x : Tu) : (s.setTu k x).pgood = s.pgood := rfl
@[simp] theorem State.setTu_brown (s : State) (k : Nat) (x : Tu) : (s.setTu k x).brown = s.brown := rfl
@[simp] theorem State.setTu_vbat (s : State) (k : Nat) (x : Tu) : (s.setTu k x).vbat = s.vbat := rfl
@[simp] theorem State.setTu_rstLow (s : State) (k : Nat) (x : Tu) : (s.setTu k x).rstLow = s.rstLow := rfl
@[simp] theorem State.setTu_scan (s : State) (k : Nat) (x : Tu) : (s.setTu k x).scan = s.scan := rfl
@[simp] theorem State.setTu_st (s : State) (k : Nat) (x : Tu) : (s.setTu k x).st = s.st := rfl
@[simp] theorem State.setTu_cyc (s : State) (k : Nat) (x : Tu) : (s.setTu k x).cyc = s.cyc := rfl
@[simp] theorem State.setTu_rtc (s : State) (k : Nat) (x : Tu) : (s.setTu k x).rtc = s.rtc := rfl
@[simp] theorem State.setTu_evtq (s : State) (k : Nat) (x : Tu) : (s.setTu k x).evtq = s.evtq := rfl
@[simp] theorem State.setTu_evtDropped (s : State) (k : Nat) (x : Tu) : (s.setTu k x).evtDropped = s.evtDropped := rfl
@[simp] theorem State.setTu_kilnTest (s : State) (k : Nat) (x : Tu) : (s.setTu k x).kilnTest = s.kilnTest := rfl
@[simp] theorem State.setTu_snap (s : State) (k : Nat) (x : Tu) : (s.setTu k x).snap = s.snap := rfl
@[simp] theorem State.setTu_tiles (s : State) (k : Nat) (x : Tu) : (s.setTu k x).tiles = s.tiles := rfl
@[simp] theorem State.setTu_paths (s : State) (k : Nat) (x : Tu) : (s.setTu k x).paths = s.paths := rfl
@[simp] theorem State.setTu_detsH (s : State) (k : Nat) (x : Tu) : (s.setTu k x).detsH = s.detsH := rfl
@[simp] theorem State.setTu_tgs (s : State) (k : Nat) (x : Tu) : (s.setTu k x).tgs = s.tgs := rfl
@[simp] theorem State.setTu_strs (s : State) (k : Nat) (x : Tu) : (s.setTu k x).strs = s.strs := rfl
@[simp] theorem State.setTu_packs (s : State) (k : Nat) (x : Tu) : (s.setTu k x).packs = s.packs := rfl
@[simp] theorem State.setTu_handed (s : State) (k : Nat) (x : Tu) : (s.setTu k x).handed = s.handed := rfl
@[simp] theorem State.setTu_rings (s : State) (k : Nat) (x : Tu) : (s.setTu k x).rings = s.rings := rfl
@[simp] theorem State.setTu_runs (s : State) (k : Nat) (x : Tu) : (s.setTu k x).runs = s.runs := rfl
@[simp] theorem State.setTu_kept (s : State) (k : Nat) (x : Tu) : (s.setTu k x).kept = s.kept := rfl
@[simp] theorem State.setTu_lossy (s : State) (k : Nat) (x : Tu) : (s.setTu k x).lossy = s.lossy := rfl
@[simp] theorem State.setTu_draining (s : State) (k : Nat) (x : Tu) : (s.setTu k x).draining = s.draining := rfl
@[simp] theorem State.setTu_resumed (s : State) (k : Nat) (x : Tu) : (s.setTu k x).resumed = s.resumed := rfl
@[simp] theorem State.setTu_masons (s : State) (k : Nat) (x : Tu) : (s.setTu k x).masons = s.masons := rfl
@[simp] theorem State.setTu_pqs (s : State) (k : Nat) (x : Tu) : (s.setTu k x).pqs = s.pqs := rfl
@[simp] theorem State.setTu_hputs (s : State) (k : Nat) (x : Tu) : (s.setTu k x).hputs = s.hputs := rfl
@[simp] theorem State.setTu_grids (s : State) (k : Nat) (x : Tu) : (s.setTu k x).grids = s.grids := rfl
@[simp] theorem State.setTu_smpl (s : State) (k : Nat) (x : Tu) : (s.setTu k x).smpl = s.smpl := rfl
@[simp] theorem State.setTu_pps (s : State) (k : Nat) (x : Tu) : (s.setTu k x).pps = s.pps := rfl
@[simp] theorem State.setTu_servo (s : State) (k : Nat) (x : Tu) : (s.setTu k x).servo = s.servo := rfl
@[simp] theorem State.setTu_xchg (s : State) (k : Nat) (x : Tu) : (s.setTu k x).xchg = s.xchg := rfl
@[simp] theorem State.setTu_tsq (s : State) (k : Nat) (x : Tu) : (s.setTu k x).tsq = s.tsq := rfl
@[simp] theorem State.setTu_rtcPhase (s : State) (k : Nat) (x : Tu) : (s.setTu k x).rtcPhase = s.rtcPhase := rfl
@[simp] theorem State.setTu_rtcLoad (s : State) (k : Nat) (x : Tu) : (s.setTu k x).rtcLoad = s.rtcLoad := rfl
@[simp] theorem State.setTu_pulses (s : State) (k : Nat) (x : Tu) : (s.setTu k x).pulses = s.pulses := rfl
@[simp] theorem State.setTu_lanes (s : State) (k : Nat) (x : Tu) : (s.setTu k x).lanes = s.lanes := rfl
@[simp] theorem State.setTu_ports (s : State) (k : Nat) (x : Tu) : (s.setTu k x).ports = s.ports := rfl
@[simp] theorem State.setTu_prbs (s : State) (k : Nat) (x : Tu) : (s.setTu k x).prbs = s.prbs := rfl
@[simp] theorem State.setTu_rel (s : State) (k : Nat) (x : Tu) : (s.setTu k x).rel = s.rel := rfl
@[simp] theorem State.setTu_relWake (s : State) (k : Nat) (x : Tu) : (s.setTu k x).relWake = s.relWake := rfl
@[simp] theorem State.setTu_safeNext (s : State) (k : Nat) (x : Tu) : (s.setTu k x).safeNext = s.safeNext := rfl
@[simp] theorem State.setTu_nv (s : State) (k : Nat) (x : Tu) : (s.setTu k x).nv = s.nv := rfl
@[simp] theorem State.setTu_owed (s : State) (k : Nat) (x : Tu) : (s.setTu k x).owed = s.owed := rfl
@[simp] theorem State.setTu_csPend (s : State) (k : Nat) (x : Tu) : (s.setTu k x).csPend = s.csPend := rfl
@[simp] theorem State.setTu_csWait (s : State) (k : Nat) (x : Tu) : (s.setTu k x).csWait = s.csWait := rfl
@[simp] theorem State.setTu_enDue (s : State) (k : Nat) (x : Tu) : (s.setTu k x).enDue = s.enDue := rfl
@[simp] theorem State.setTu_csDig (s : State) (k : Nat) (x : Tu) : (s.setTu k x).csDig = s.csDig := rfl
@[simp] theorem State.setTu_csStop (s : State) (k : Nat) (x : Tu) : (s.setTu k x).csStop = s.csStop := rfl
@[simp] theorem State.setTu_secret (s : State) (k : Nat) (x : Tu) : (s.setTu k x).secret = s.secret := rfl
@[simp] theorem State.setTu_meters (s : State) (k : Nat) (x : Tu) : (s.setTu k x).meters = s.meters := rfl
@[simp] theorem State.setTu_prog (s : State) (k : Nat) (x : Tu) : (s.setTu k x).prog = s.prog := rfl
@[simp] theorem State.setTu_mgp (s : State) (k : Nat) (x : Tu) : (s.setTu k x).mgp = s.mgp := rfl
@[simp] theorem State.setTu_hk (s : State) (k : Nat) (x : Tu) : (s.setTu k x).hk = s.hk := rfl
@[simp] theorem State.setTu_bootSha (s : State) (k : Nat) (x : Tu) : (s.setTu k x).bootSha = s.bootSha := rfl
@[simp] theorem State.setTu_recMaps (s : State) (k : Nat) (x : Tu) : (s.setTu k x).recMaps = s.recMaps := rfl
@[simp] theorem State.setTu_kilnWords (s : State) (k : Nat) (x : Tu) : (s.setTu k x).kilnWords = s.kilnWords := rfl
@[simp] theorem State.setTu_tap (s : State) (k : Nat) (x : Tu) : (s.setTu k x).tap = s.tap := rfl
@[simp] theorem State.setTu_bsrIn (s : State) (k : Nat) (x : Tu) : (s.setTu k x).bsrIn = s.bsrIn := rfl
@[simp] theorem State.setTu_bsrOut (s : State) (k : Nat) (x : Tu) : (s.setTu k x).bsrOut = s.bsrOut := rfl
@[simp] theorem State.setTu_kilnEnd (s : State) (k : Nat) (x : Tu) : (s.setTu k x).kilnEnd = s.kilnEnd := rfl
@[simp] theorem State.setTu_w (s : State) (k : Nat) (x : Tu) (i : Nat) : (s.setTu k x).w i = s.w i := rfl
@[simp] theorem State.setTu_f (s : State) (k : Nat) (x : Tu) (i : Fld) : (s.setTu k x).f i = s.f i := rfl
@[simp] theorem State.setTu_b (s : State) (k : Nat) (x : Tu) (i : Fld) : (s.setTu k x).b i = s.b i := rfl
@[simp] theorem State.setTu_mode (s : State) (k : Nat) (x : Tu) : (s.setTu k x).mode = s.mode := rfl
@[simp] theorem State.setTu_alive (s : State) (k : Nat) (x : Tu) : (s.setTu k x).alive = s.alive := rfl

/-! ### setTg changes `tgs` alone -/

@[simp] theorem State.setTg_regs (s : State) (k : Nat) (x : Tg) : (s.setTg k x).regs = s.regs := rfl
@[simp] theorem State.setTg_mem (s : State) (k : Nat) (x : Tg) : (s.setTg k x).mem = s.mem := rfl
@[simp] theorem State.setTg_nvm (s : State) (k : Nat) (x : Tg) : (s.setTg k x).nvm = s.nvm := rfl
@[simp] theorem State.setTg_bad (s : State) (k : Nat) (x : Tg) : (s.setTg k x).bad = s.bad := rfl
@[simp] theorem State.setTg_shadows (s : State) (k : Nat) (x : Tg) : (s.setTg k x).shadows = s.shadows := rfl
@[simp] theorem State.setTg_cpl (s : State) (k : Nat) (x : Tg) : (s.setTg k x).cpl = s.cpl := rfl
@[simp] theorem State.setTg_pending (s : State) (k : Nat) (x : Tg) : (s.setTg k x).pending = s.pending := rfl
@[simp] theorem State.setTg_free (s : State) (k : Nat) (x : Tg) : (s.setTg k x).free = s.free := rfl
@[simp] theorem State.setTg_aon (s : State) (k : Nat) (x : Tg) : (s.setTg k x).aon = s.aon := rfl
@[simp] theorem State.setTg_pgood (s : State) (k : Nat) (x : Tg) : (s.setTg k x).pgood = s.pgood := rfl
@[simp] theorem State.setTg_brown (s : State) (k : Nat) (x : Tg) : (s.setTg k x).brown = s.brown := rfl
@[simp] theorem State.setTg_vbat (s : State) (k : Nat) (x : Tg) : (s.setTg k x).vbat = s.vbat := rfl
@[simp] theorem State.setTg_rstLow (s : State) (k : Nat) (x : Tg) : (s.setTg k x).rstLow = s.rstLow := rfl
@[simp] theorem State.setTg_scan (s : State) (k : Nat) (x : Tg) : (s.setTg k x).scan = s.scan := rfl
@[simp] theorem State.setTg_st (s : State) (k : Nat) (x : Tg) : (s.setTg k x).st = s.st := rfl
@[simp] theorem State.setTg_cyc (s : State) (k : Nat) (x : Tg) : (s.setTg k x).cyc = s.cyc := rfl
@[simp] theorem State.setTg_rtc (s : State) (k : Nat) (x : Tg) : (s.setTg k x).rtc = s.rtc := rfl
@[simp] theorem State.setTg_evtq (s : State) (k : Nat) (x : Tg) : (s.setTg k x).evtq = s.evtq := rfl
@[simp] theorem State.setTg_evtDropped (s : State) (k : Nat) (x : Tg) : (s.setTg k x).evtDropped = s.evtDropped := rfl
@[simp] theorem State.setTg_kilnTest (s : State) (k : Nat) (x : Tg) : (s.setTg k x).kilnTest = s.kilnTest := rfl
@[simp] theorem State.setTg_snap (s : State) (k : Nat) (x : Tg) : (s.setTg k x).snap = s.snap := rfl
@[simp] theorem State.setTg_tiles (s : State) (k : Nat) (x : Tg) : (s.setTg k x).tiles = s.tiles := rfl
@[simp] theorem State.setTg_paths (s : State) (k : Nat) (x : Tg) : (s.setTg k x).paths = s.paths := rfl
@[simp] theorem State.setTg_detsH (s : State) (k : Nat) (x : Tg) : (s.setTg k x).detsH = s.detsH := rfl
@[simp] theorem State.setTg_tus (s : State) (k : Nat) (x : Tg) : (s.setTg k x).tus = s.tus := rfl
@[simp] theorem State.setTg_strs (s : State) (k : Nat) (x : Tg) : (s.setTg k x).strs = s.strs := rfl
@[simp] theorem State.setTg_packs (s : State) (k : Nat) (x : Tg) : (s.setTg k x).packs = s.packs := rfl
@[simp] theorem State.setTg_handed (s : State) (k : Nat) (x : Tg) : (s.setTg k x).handed = s.handed := rfl
@[simp] theorem State.setTg_rings (s : State) (k : Nat) (x : Tg) : (s.setTg k x).rings = s.rings := rfl
@[simp] theorem State.setTg_runs (s : State) (k : Nat) (x : Tg) : (s.setTg k x).runs = s.runs := rfl
@[simp] theorem State.setTg_kept (s : State) (k : Nat) (x : Tg) : (s.setTg k x).kept = s.kept := rfl
@[simp] theorem State.setTg_lossy (s : State) (k : Nat) (x : Tg) : (s.setTg k x).lossy = s.lossy := rfl
@[simp] theorem State.setTg_draining (s : State) (k : Nat) (x : Tg) : (s.setTg k x).draining = s.draining := rfl
@[simp] theorem State.setTg_resumed (s : State) (k : Nat) (x : Tg) : (s.setTg k x).resumed = s.resumed := rfl
@[simp] theorem State.setTg_masons (s : State) (k : Nat) (x : Tg) : (s.setTg k x).masons = s.masons := rfl
@[simp] theorem State.setTg_pqs (s : State) (k : Nat) (x : Tg) : (s.setTg k x).pqs = s.pqs := rfl
@[simp] theorem State.setTg_hputs (s : State) (k : Nat) (x : Tg) : (s.setTg k x).hputs = s.hputs := rfl
@[simp] theorem State.setTg_grids (s : State) (k : Nat) (x : Tg) : (s.setTg k x).grids = s.grids := rfl
@[simp] theorem State.setTg_smpl (s : State) (k : Nat) (x : Tg) : (s.setTg k x).smpl = s.smpl := rfl
@[simp] theorem State.setTg_pps (s : State) (k : Nat) (x : Tg) : (s.setTg k x).pps = s.pps := rfl
@[simp] theorem State.setTg_servo (s : State) (k : Nat) (x : Tg) : (s.setTg k x).servo = s.servo := rfl
@[simp] theorem State.setTg_xchg (s : State) (k : Nat) (x : Tg) : (s.setTg k x).xchg = s.xchg := rfl
@[simp] theorem State.setTg_tsq (s : State) (k : Nat) (x : Tg) : (s.setTg k x).tsq = s.tsq := rfl
@[simp] theorem State.setTg_rtcPhase (s : State) (k : Nat) (x : Tg) : (s.setTg k x).rtcPhase = s.rtcPhase := rfl
@[simp] theorem State.setTg_rtcLoad (s : State) (k : Nat) (x : Tg) : (s.setTg k x).rtcLoad = s.rtcLoad := rfl
@[simp] theorem State.setTg_pulses (s : State) (k : Nat) (x : Tg) : (s.setTg k x).pulses = s.pulses := rfl
@[simp] theorem State.setTg_lanes (s : State) (k : Nat) (x : Tg) : (s.setTg k x).lanes = s.lanes := rfl
@[simp] theorem State.setTg_ports (s : State) (k : Nat) (x : Tg) : (s.setTg k x).ports = s.ports := rfl
@[simp] theorem State.setTg_prbs (s : State) (k : Nat) (x : Tg) : (s.setTg k x).prbs = s.prbs := rfl
@[simp] theorem State.setTg_rel (s : State) (k : Nat) (x : Tg) : (s.setTg k x).rel = s.rel := rfl
@[simp] theorem State.setTg_relWake (s : State) (k : Nat) (x : Tg) : (s.setTg k x).relWake = s.relWake := rfl
@[simp] theorem State.setTg_safeNext (s : State) (k : Nat) (x : Tg) : (s.setTg k x).safeNext = s.safeNext := rfl
@[simp] theorem State.setTg_nv (s : State) (k : Nat) (x : Tg) : (s.setTg k x).nv = s.nv := rfl
@[simp] theorem State.setTg_owed (s : State) (k : Nat) (x : Tg) : (s.setTg k x).owed = s.owed := rfl
@[simp] theorem State.setTg_csPend (s : State) (k : Nat) (x : Tg) : (s.setTg k x).csPend = s.csPend := rfl
@[simp] theorem State.setTg_csWait (s : State) (k : Nat) (x : Tg) : (s.setTg k x).csWait = s.csWait := rfl
@[simp] theorem State.setTg_enDue (s : State) (k : Nat) (x : Tg) : (s.setTg k x).enDue = s.enDue := rfl
@[simp] theorem State.setTg_csDig (s : State) (k : Nat) (x : Tg) : (s.setTg k x).csDig = s.csDig := rfl
@[simp] theorem State.setTg_csStop (s : State) (k : Nat) (x : Tg) : (s.setTg k x).csStop = s.csStop := rfl
@[simp] theorem State.setTg_secret (s : State) (k : Nat) (x : Tg) : (s.setTg k x).secret = s.secret := rfl
@[simp] theorem State.setTg_meters (s : State) (k : Nat) (x : Tg) : (s.setTg k x).meters = s.meters := rfl
@[simp] theorem State.setTg_prog (s : State) (k : Nat) (x : Tg) : (s.setTg k x).prog = s.prog := rfl
@[simp] theorem State.setTg_mgp (s : State) (k : Nat) (x : Tg) : (s.setTg k x).mgp = s.mgp := rfl
@[simp] theorem State.setTg_hk (s : State) (k : Nat) (x : Tg) : (s.setTg k x).hk = s.hk := rfl
@[simp] theorem State.setTg_bootSha (s : State) (k : Nat) (x : Tg) : (s.setTg k x).bootSha = s.bootSha := rfl
@[simp] theorem State.setTg_recMaps (s : State) (k : Nat) (x : Tg) : (s.setTg k x).recMaps = s.recMaps := rfl
@[simp] theorem State.setTg_kilnWords (s : State) (k : Nat) (x : Tg) : (s.setTg k x).kilnWords = s.kilnWords := rfl
@[simp] theorem State.setTg_tap (s : State) (k : Nat) (x : Tg) : (s.setTg k x).tap = s.tap := rfl
@[simp] theorem State.setTg_bsrIn (s : State) (k : Nat) (x : Tg) : (s.setTg k x).bsrIn = s.bsrIn := rfl
@[simp] theorem State.setTg_bsrOut (s : State) (k : Nat) (x : Tg) : (s.setTg k x).bsrOut = s.bsrOut := rfl
@[simp] theorem State.setTg_kilnEnd (s : State) (k : Nat) (x : Tg) : (s.setTg k x).kilnEnd = s.kilnEnd := rfl
@[simp] theorem State.setTg_w (s : State) (k : Nat) (x : Tg) (i : Nat) : (s.setTg k x).w i = s.w i := rfl
@[simp] theorem State.setTg_f (s : State) (k : Nat) (x : Tg) (i : Fld) : (s.setTg k x).f i = s.f i := rfl
@[simp] theorem State.setTg_b (s : State) (k : Nat) (x : Tg) (i : Fld) : (s.setTg k x).b i = s.b i := rfl
@[simp] theorem State.setTg_mode (s : State) (k : Nat) (x : Tg) : (s.setTg k x).mode = s.mode := rfl
@[simp] theorem State.setTg_alive (s : State) (k : Nat) (x : Tg) : (s.setTg k x).alive = s.alive := rfl

/-! ### setStr changes `strs` alone -/

@[simp] theorem State.setStr_regs (s : State) (k : Nat) (x : Str) : (s.setStr k x).regs = s.regs := rfl
@[simp] theorem State.setStr_mem (s : State) (k : Nat) (x : Str) : (s.setStr k x).mem = s.mem := rfl
@[simp] theorem State.setStr_nvm (s : State) (k : Nat) (x : Str) : (s.setStr k x).nvm = s.nvm := rfl
@[simp] theorem State.setStr_bad (s : State) (k : Nat) (x : Str) : (s.setStr k x).bad = s.bad := rfl
@[simp] theorem State.setStr_shadows (s : State) (k : Nat) (x : Str) : (s.setStr k x).shadows = s.shadows := rfl
@[simp] theorem State.setStr_cpl (s : State) (k : Nat) (x : Str) : (s.setStr k x).cpl = s.cpl := rfl
@[simp] theorem State.setStr_pending (s : State) (k : Nat) (x : Str) : (s.setStr k x).pending = s.pending := rfl
@[simp] theorem State.setStr_free (s : State) (k : Nat) (x : Str) : (s.setStr k x).free = s.free := rfl
@[simp] theorem State.setStr_aon (s : State) (k : Nat) (x : Str) : (s.setStr k x).aon = s.aon := rfl
@[simp] theorem State.setStr_pgood (s : State) (k : Nat) (x : Str) : (s.setStr k x).pgood = s.pgood := rfl
@[simp] theorem State.setStr_brown (s : State) (k : Nat) (x : Str) : (s.setStr k x).brown = s.brown := rfl
@[simp] theorem State.setStr_vbat (s : State) (k : Nat) (x : Str) : (s.setStr k x).vbat = s.vbat := rfl
@[simp] theorem State.setStr_rstLow (s : State) (k : Nat) (x : Str) : (s.setStr k x).rstLow = s.rstLow := rfl
@[simp] theorem State.setStr_scan (s : State) (k : Nat) (x : Str) : (s.setStr k x).scan = s.scan := rfl
@[simp] theorem State.setStr_st (s : State) (k : Nat) (x : Str) : (s.setStr k x).st = s.st := rfl
@[simp] theorem State.setStr_cyc (s : State) (k : Nat) (x : Str) : (s.setStr k x).cyc = s.cyc := rfl
@[simp] theorem State.setStr_rtc (s : State) (k : Nat) (x : Str) : (s.setStr k x).rtc = s.rtc := rfl
@[simp] theorem State.setStr_evtq (s : State) (k : Nat) (x : Str) : (s.setStr k x).evtq = s.evtq := rfl
@[simp] theorem State.setStr_evtDropped (s : State) (k : Nat) (x : Str) : (s.setStr k x).evtDropped = s.evtDropped := rfl
@[simp] theorem State.setStr_kilnTest (s : State) (k : Nat) (x : Str) : (s.setStr k x).kilnTest = s.kilnTest := rfl
@[simp] theorem State.setStr_snap (s : State) (k : Nat) (x : Str) : (s.setStr k x).snap = s.snap := rfl
@[simp] theorem State.setStr_tiles (s : State) (k : Nat) (x : Str) : (s.setStr k x).tiles = s.tiles := rfl
@[simp] theorem State.setStr_paths (s : State) (k : Nat) (x : Str) : (s.setStr k x).paths = s.paths := rfl
@[simp] theorem State.setStr_detsH (s : State) (k : Nat) (x : Str) : (s.setStr k x).detsH = s.detsH := rfl
@[simp] theorem State.setStr_tus (s : State) (k : Nat) (x : Str) : (s.setStr k x).tus = s.tus := rfl
@[simp] theorem State.setStr_tgs (s : State) (k : Nat) (x : Str) : (s.setStr k x).tgs = s.tgs := rfl
@[simp] theorem State.setStr_packs (s : State) (k : Nat) (x : Str) : (s.setStr k x).packs = s.packs := rfl
@[simp] theorem State.setStr_handed (s : State) (k : Nat) (x : Str) : (s.setStr k x).handed = s.handed := rfl
@[simp] theorem State.setStr_rings (s : State) (k : Nat) (x : Str) : (s.setStr k x).rings = s.rings := rfl
@[simp] theorem State.setStr_runs (s : State) (k : Nat) (x : Str) : (s.setStr k x).runs = s.runs := rfl
@[simp] theorem State.setStr_kept (s : State) (k : Nat) (x : Str) : (s.setStr k x).kept = s.kept := rfl
@[simp] theorem State.setStr_lossy (s : State) (k : Nat) (x : Str) : (s.setStr k x).lossy = s.lossy := rfl
@[simp] theorem State.setStr_draining (s : State) (k : Nat) (x : Str) : (s.setStr k x).draining = s.draining := rfl
@[simp] theorem State.setStr_resumed (s : State) (k : Nat) (x : Str) : (s.setStr k x).resumed = s.resumed := rfl
@[simp] theorem State.setStr_masons (s : State) (k : Nat) (x : Str) : (s.setStr k x).masons = s.masons := rfl
@[simp] theorem State.setStr_pqs (s : State) (k : Nat) (x : Str) : (s.setStr k x).pqs = s.pqs := rfl
@[simp] theorem State.setStr_hputs (s : State) (k : Nat) (x : Str) : (s.setStr k x).hputs = s.hputs := rfl
@[simp] theorem State.setStr_grids (s : State) (k : Nat) (x : Str) : (s.setStr k x).grids = s.grids := rfl
@[simp] theorem State.setStr_smpl (s : State) (k : Nat) (x : Str) : (s.setStr k x).smpl = s.smpl := rfl
@[simp] theorem State.setStr_pps (s : State) (k : Nat) (x : Str) : (s.setStr k x).pps = s.pps := rfl
@[simp] theorem State.setStr_servo (s : State) (k : Nat) (x : Str) : (s.setStr k x).servo = s.servo := rfl
@[simp] theorem State.setStr_xchg (s : State) (k : Nat) (x : Str) : (s.setStr k x).xchg = s.xchg := rfl
@[simp] theorem State.setStr_tsq (s : State) (k : Nat) (x : Str) : (s.setStr k x).tsq = s.tsq := rfl
@[simp] theorem State.setStr_rtcPhase (s : State) (k : Nat) (x : Str) : (s.setStr k x).rtcPhase = s.rtcPhase := rfl
@[simp] theorem State.setStr_rtcLoad (s : State) (k : Nat) (x : Str) : (s.setStr k x).rtcLoad = s.rtcLoad := rfl
@[simp] theorem State.setStr_pulses (s : State) (k : Nat) (x : Str) : (s.setStr k x).pulses = s.pulses := rfl
@[simp] theorem State.setStr_lanes (s : State) (k : Nat) (x : Str) : (s.setStr k x).lanes = s.lanes := rfl
@[simp] theorem State.setStr_ports (s : State) (k : Nat) (x : Str) : (s.setStr k x).ports = s.ports := rfl
@[simp] theorem State.setStr_prbs (s : State) (k : Nat) (x : Str) : (s.setStr k x).prbs = s.prbs := rfl
@[simp] theorem State.setStr_rel (s : State) (k : Nat) (x : Str) : (s.setStr k x).rel = s.rel := rfl
@[simp] theorem State.setStr_relWake (s : State) (k : Nat) (x : Str) : (s.setStr k x).relWake = s.relWake := rfl
@[simp] theorem State.setStr_safeNext (s : State) (k : Nat) (x : Str) : (s.setStr k x).safeNext = s.safeNext := rfl
@[simp] theorem State.setStr_nv (s : State) (k : Nat) (x : Str) : (s.setStr k x).nv = s.nv := rfl
@[simp] theorem State.setStr_owed (s : State) (k : Nat) (x : Str) : (s.setStr k x).owed = s.owed := rfl
@[simp] theorem State.setStr_csPend (s : State) (k : Nat) (x : Str) : (s.setStr k x).csPend = s.csPend := rfl
@[simp] theorem State.setStr_csWait (s : State) (k : Nat) (x : Str) : (s.setStr k x).csWait = s.csWait := rfl
@[simp] theorem State.setStr_enDue (s : State) (k : Nat) (x : Str) : (s.setStr k x).enDue = s.enDue := rfl
@[simp] theorem State.setStr_csDig (s : State) (k : Nat) (x : Str) : (s.setStr k x).csDig = s.csDig := rfl
@[simp] theorem State.setStr_csStop (s : State) (k : Nat) (x : Str) : (s.setStr k x).csStop = s.csStop := rfl
@[simp] theorem State.setStr_secret (s : State) (k : Nat) (x : Str) : (s.setStr k x).secret = s.secret := rfl
@[simp] theorem State.setStr_meters (s : State) (k : Nat) (x : Str) : (s.setStr k x).meters = s.meters := rfl
@[simp] theorem State.setStr_prog (s : State) (k : Nat) (x : Str) : (s.setStr k x).prog = s.prog := rfl
@[simp] theorem State.setStr_mgp (s : State) (k : Nat) (x : Str) : (s.setStr k x).mgp = s.mgp := rfl
@[simp] theorem State.setStr_hk (s : State) (k : Nat) (x : Str) : (s.setStr k x).hk = s.hk := rfl
@[simp] theorem State.setStr_bootSha (s : State) (k : Nat) (x : Str) : (s.setStr k x).bootSha = s.bootSha := rfl
@[simp] theorem State.setStr_recMaps (s : State) (k : Nat) (x : Str) : (s.setStr k x).recMaps = s.recMaps := rfl
@[simp] theorem State.setStr_kilnWords (s : State) (k : Nat) (x : Str) : (s.setStr k x).kilnWords = s.kilnWords := rfl
@[simp] theorem State.setStr_tap (s : State) (k : Nat) (x : Str) : (s.setStr k x).tap = s.tap := rfl
@[simp] theorem State.setStr_bsrIn (s : State) (k : Nat) (x : Str) : (s.setStr k x).bsrIn = s.bsrIn := rfl
@[simp] theorem State.setStr_bsrOut (s : State) (k : Nat) (x : Str) : (s.setStr k x).bsrOut = s.bsrOut := rfl
@[simp] theorem State.setStr_kilnEnd (s : State) (k : Nat) (x : Str) : (s.setStr k x).kilnEnd = s.kilnEnd := rfl
@[simp] theorem State.setStr_w (s : State) (k : Nat) (x : Str) (i : Nat) : (s.setStr k x).w i = s.w i := rfl
@[simp] theorem State.setStr_f (s : State) (k : Nat) (x : Str) (i : Fld) : (s.setStr k x).f i = s.f i := rfl
@[simp] theorem State.setStr_b (s : State) (k : Nat) (x : Str) (i : Fld) : (s.setStr k x).b i = s.b i := rfl
@[simp] theorem State.setStr_mode (s : State) (k : Nat) (x : Str) : (s.setStr k x).mode = s.mode := rfl
@[simp] theorem State.setStr_alive (s : State) (k : Nat) (x : Str) : (s.setStr k x).alive = s.alive := rfl

/-! ### setPack changes `packs` alone -/

@[simp] theorem State.setPack_regs (s : State) (k : Nat) (x : List Open) : (s.setPack k x).regs = s.regs := rfl
@[simp] theorem State.setPack_mem (s : State) (k : Nat) (x : List Open) : (s.setPack k x).mem = s.mem := rfl
@[simp] theorem State.setPack_nvm (s : State) (k : Nat) (x : List Open) : (s.setPack k x).nvm = s.nvm := rfl
@[simp] theorem State.setPack_bad (s : State) (k : Nat) (x : List Open) : (s.setPack k x).bad = s.bad := rfl
@[simp] theorem State.setPack_shadows (s : State) (k : Nat) (x : List Open) : (s.setPack k x).shadows = s.shadows := rfl
@[simp] theorem State.setPack_cpl (s : State) (k : Nat) (x : List Open) : (s.setPack k x).cpl = s.cpl := rfl
@[simp] theorem State.setPack_pending (s : State) (k : Nat) (x : List Open) : (s.setPack k x).pending = s.pending := rfl
@[simp] theorem State.setPack_free (s : State) (k : Nat) (x : List Open) : (s.setPack k x).free = s.free := rfl
@[simp] theorem State.setPack_aon (s : State) (k : Nat) (x : List Open) : (s.setPack k x).aon = s.aon := rfl
@[simp] theorem State.setPack_pgood (s : State) (k : Nat) (x : List Open) : (s.setPack k x).pgood = s.pgood := rfl
@[simp] theorem State.setPack_brown (s : State) (k : Nat) (x : List Open) : (s.setPack k x).brown = s.brown := rfl
@[simp] theorem State.setPack_vbat (s : State) (k : Nat) (x : List Open) : (s.setPack k x).vbat = s.vbat := rfl
@[simp] theorem State.setPack_rstLow (s : State) (k : Nat) (x : List Open) : (s.setPack k x).rstLow = s.rstLow := rfl
@[simp] theorem State.setPack_scan (s : State) (k : Nat) (x : List Open) : (s.setPack k x).scan = s.scan := rfl
@[simp] theorem State.setPack_st (s : State) (k : Nat) (x : List Open) : (s.setPack k x).st = s.st := rfl
@[simp] theorem State.setPack_cyc (s : State) (k : Nat) (x : List Open) : (s.setPack k x).cyc = s.cyc := rfl
@[simp] theorem State.setPack_rtc (s : State) (k : Nat) (x : List Open) : (s.setPack k x).rtc = s.rtc := rfl
@[simp] theorem State.setPack_evtq (s : State) (k : Nat) (x : List Open) : (s.setPack k x).evtq = s.evtq := rfl
@[simp] theorem State.setPack_evtDropped (s : State) (k : Nat) (x : List Open) : (s.setPack k x).evtDropped = s.evtDropped := rfl
@[simp] theorem State.setPack_kilnTest (s : State) (k : Nat) (x : List Open) : (s.setPack k x).kilnTest = s.kilnTest := rfl
@[simp] theorem State.setPack_snap (s : State) (k : Nat) (x : List Open) : (s.setPack k x).snap = s.snap := rfl
@[simp] theorem State.setPack_tiles (s : State) (k : Nat) (x : List Open) : (s.setPack k x).tiles = s.tiles := rfl
@[simp] theorem State.setPack_paths (s : State) (k : Nat) (x : List Open) : (s.setPack k x).paths = s.paths := rfl
@[simp] theorem State.setPack_detsH (s : State) (k : Nat) (x : List Open) : (s.setPack k x).detsH = s.detsH := rfl
@[simp] theorem State.setPack_tus (s : State) (k : Nat) (x : List Open) : (s.setPack k x).tus = s.tus := rfl
@[simp] theorem State.setPack_tgs (s : State) (k : Nat) (x : List Open) : (s.setPack k x).tgs = s.tgs := rfl
@[simp] theorem State.setPack_strs (s : State) (k : Nat) (x : List Open) : (s.setPack k x).strs = s.strs := rfl
@[simp] theorem State.setPack_handed (s : State) (k : Nat) (x : List Open) : (s.setPack k x).handed = s.handed := rfl
@[simp] theorem State.setPack_rings (s : State) (k : Nat) (x : List Open) : (s.setPack k x).rings = s.rings := rfl
@[simp] theorem State.setPack_runs (s : State) (k : Nat) (x : List Open) : (s.setPack k x).runs = s.runs := rfl
@[simp] theorem State.setPack_kept (s : State) (k : Nat) (x : List Open) : (s.setPack k x).kept = s.kept := rfl
@[simp] theorem State.setPack_lossy (s : State) (k : Nat) (x : List Open) : (s.setPack k x).lossy = s.lossy := rfl
@[simp] theorem State.setPack_draining (s : State) (k : Nat) (x : List Open) : (s.setPack k x).draining = s.draining := rfl
@[simp] theorem State.setPack_resumed (s : State) (k : Nat) (x : List Open) : (s.setPack k x).resumed = s.resumed := rfl
@[simp] theorem State.setPack_masons (s : State) (k : Nat) (x : List Open) : (s.setPack k x).masons = s.masons := rfl
@[simp] theorem State.setPack_pqs (s : State) (k : Nat) (x : List Open) : (s.setPack k x).pqs = s.pqs := rfl
@[simp] theorem State.setPack_hputs (s : State) (k : Nat) (x : List Open) : (s.setPack k x).hputs = s.hputs := rfl
@[simp] theorem State.setPack_grids (s : State) (k : Nat) (x : List Open) : (s.setPack k x).grids = s.grids := rfl
@[simp] theorem State.setPack_smpl (s : State) (k : Nat) (x : List Open) : (s.setPack k x).smpl = s.smpl := rfl
@[simp] theorem State.setPack_pps (s : State) (k : Nat) (x : List Open) : (s.setPack k x).pps = s.pps := rfl
@[simp] theorem State.setPack_servo (s : State) (k : Nat) (x : List Open) : (s.setPack k x).servo = s.servo := rfl
@[simp] theorem State.setPack_xchg (s : State) (k : Nat) (x : List Open) : (s.setPack k x).xchg = s.xchg := rfl
@[simp] theorem State.setPack_tsq (s : State) (k : Nat) (x : List Open) : (s.setPack k x).tsq = s.tsq := rfl
@[simp] theorem State.setPack_rtcPhase (s : State) (k : Nat) (x : List Open) : (s.setPack k x).rtcPhase = s.rtcPhase := rfl
@[simp] theorem State.setPack_rtcLoad (s : State) (k : Nat) (x : List Open) : (s.setPack k x).rtcLoad = s.rtcLoad := rfl
@[simp] theorem State.setPack_pulses (s : State) (k : Nat) (x : List Open) : (s.setPack k x).pulses = s.pulses := rfl
@[simp] theorem State.setPack_lanes (s : State) (k : Nat) (x : List Open) : (s.setPack k x).lanes = s.lanes := rfl
@[simp] theorem State.setPack_ports (s : State) (k : Nat) (x : List Open) : (s.setPack k x).ports = s.ports := rfl
@[simp] theorem State.setPack_prbs (s : State) (k : Nat) (x : List Open) : (s.setPack k x).prbs = s.prbs := rfl
@[simp] theorem State.setPack_rel (s : State) (k : Nat) (x : List Open) : (s.setPack k x).rel = s.rel := rfl
@[simp] theorem State.setPack_relWake (s : State) (k : Nat) (x : List Open) : (s.setPack k x).relWake = s.relWake := rfl
@[simp] theorem State.setPack_safeNext (s : State) (k : Nat) (x : List Open) : (s.setPack k x).safeNext = s.safeNext := rfl
@[simp] theorem State.setPack_nv (s : State) (k : Nat) (x : List Open) : (s.setPack k x).nv = s.nv := rfl
@[simp] theorem State.setPack_owed (s : State) (k : Nat) (x : List Open) : (s.setPack k x).owed = s.owed := rfl
@[simp] theorem State.setPack_csPend (s : State) (k : Nat) (x : List Open) : (s.setPack k x).csPend = s.csPend := rfl
@[simp] theorem State.setPack_csWait (s : State) (k : Nat) (x : List Open) : (s.setPack k x).csWait = s.csWait := rfl
@[simp] theorem State.setPack_enDue (s : State) (k : Nat) (x : List Open) : (s.setPack k x).enDue = s.enDue := rfl
@[simp] theorem State.setPack_csDig (s : State) (k : Nat) (x : List Open) : (s.setPack k x).csDig = s.csDig := rfl
@[simp] theorem State.setPack_csStop (s : State) (k : Nat) (x : List Open) : (s.setPack k x).csStop = s.csStop := rfl
@[simp] theorem State.setPack_secret (s : State) (k : Nat) (x : List Open) : (s.setPack k x).secret = s.secret := rfl
@[simp] theorem State.setPack_meters (s : State) (k : Nat) (x : List Open) : (s.setPack k x).meters = s.meters := rfl
@[simp] theorem State.setPack_prog (s : State) (k : Nat) (x : List Open) : (s.setPack k x).prog = s.prog := rfl
@[simp] theorem State.setPack_mgp (s : State) (k : Nat) (x : List Open) : (s.setPack k x).mgp = s.mgp := rfl
@[simp] theorem State.setPack_hk (s : State) (k : Nat) (x : List Open) : (s.setPack k x).hk = s.hk := rfl
@[simp] theorem State.setPack_bootSha (s : State) (k : Nat) (x : List Open) : (s.setPack k x).bootSha = s.bootSha := rfl
@[simp] theorem State.setPack_recMaps (s : State) (k : Nat) (x : List Open) : (s.setPack k x).recMaps = s.recMaps := rfl
@[simp] theorem State.setPack_kilnWords (s : State) (k : Nat) (x : List Open) : (s.setPack k x).kilnWords = s.kilnWords := rfl
@[simp] theorem State.setPack_tap (s : State) (k : Nat) (x : List Open) : (s.setPack k x).tap = s.tap := rfl
@[simp] theorem State.setPack_bsrIn (s : State) (k : Nat) (x : List Open) : (s.setPack k x).bsrIn = s.bsrIn := rfl
@[simp] theorem State.setPack_bsrOut (s : State) (k : Nat) (x : List Open) : (s.setPack k x).bsrOut = s.bsrOut := rfl
@[simp] theorem State.setPack_kilnEnd (s : State) (k : Nat) (x : List Open) : (s.setPack k x).kilnEnd = s.kilnEnd := rfl
@[simp] theorem State.setPack_w (s : State) (k : Nat) (x : List Open) (i : Nat) : (s.setPack k x).w i = s.w i := rfl
@[simp] theorem State.setPack_f (s : State) (k : Nat) (x : List Open) (i : Fld) : (s.setPack k x).f i = s.f i := rfl
@[simp] theorem State.setPack_b (s : State) (k : Nat) (x : List Open) (i : Fld) : (s.setPack k x).b i = s.b i := rfl
@[simp] theorem State.setPack_mode (s : State) (k : Nat) (x : List Open) : (s.setPack k x).mode = s.mode := rfl
@[simp] theorem State.setPack_alive (s : State) (k : Nat) (x : List Open) : (s.setPack k x).alive = s.alive := rfl

/-! ### setRing changes `rings` alone -/

@[simp] theorem State.setRing_regs (s : State) (k : Nat) (x : Ring) : (s.setRing k x).regs = s.regs := rfl
@[simp] theorem State.setRing_mem (s : State) (k : Nat) (x : Ring) : (s.setRing k x).mem = s.mem := rfl
@[simp] theorem State.setRing_nvm (s : State) (k : Nat) (x : Ring) : (s.setRing k x).nvm = s.nvm := rfl
@[simp] theorem State.setRing_bad (s : State) (k : Nat) (x : Ring) : (s.setRing k x).bad = s.bad := rfl
@[simp] theorem State.setRing_shadows (s : State) (k : Nat) (x : Ring) : (s.setRing k x).shadows = s.shadows := rfl
@[simp] theorem State.setRing_cpl (s : State) (k : Nat) (x : Ring) : (s.setRing k x).cpl = s.cpl := rfl
@[simp] theorem State.setRing_pending (s : State) (k : Nat) (x : Ring) : (s.setRing k x).pending = s.pending := rfl
@[simp] theorem State.setRing_free (s : State) (k : Nat) (x : Ring) : (s.setRing k x).free = s.free := rfl
@[simp] theorem State.setRing_aon (s : State) (k : Nat) (x : Ring) : (s.setRing k x).aon = s.aon := rfl
@[simp] theorem State.setRing_pgood (s : State) (k : Nat) (x : Ring) : (s.setRing k x).pgood = s.pgood := rfl
@[simp] theorem State.setRing_brown (s : State) (k : Nat) (x : Ring) : (s.setRing k x).brown = s.brown := rfl
@[simp] theorem State.setRing_vbat (s : State) (k : Nat) (x : Ring) : (s.setRing k x).vbat = s.vbat := rfl
@[simp] theorem State.setRing_rstLow (s : State) (k : Nat) (x : Ring) : (s.setRing k x).rstLow = s.rstLow := rfl
@[simp] theorem State.setRing_scan (s : State) (k : Nat) (x : Ring) : (s.setRing k x).scan = s.scan := rfl
@[simp] theorem State.setRing_st (s : State) (k : Nat) (x : Ring) : (s.setRing k x).st = s.st := rfl
@[simp] theorem State.setRing_cyc (s : State) (k : Nat) (x : Ring) : (s.setRing k x).cyc = s.cyc := rfl
@[simp] theorem State.setRing_rtc (s : State) (k : Nat) (x : Ring) : (s.setRing k x).rtc = s.rtc := rfl
@[simp] theorem State.setRing_evtq (s : State) (k : Nat) (x : Ring) : (s.setRing k x).evtq = s.evtq := rfl
@[simp] theorem State.setRing_evtDropped (s : State) (k : Nat) (x : Ring) : (s.setRing k x).evtDropped = s.evtDropped := rfl
@[simp] theorem State.setRing_kilnTest (s : State) (k : Nat) (x : Ring) : (s.setRing k x).kilnTest = s.kilnTest := rfl
@[simp] theorem State.setRing_snap (s : State) (k : Nat) (x : Ring) : (s.setRing k x).snap = s.snap := rfl
@[simp] theorem State.setRing_tiles (s : State) (k : Nat) (x : Ring) : (s.setRing k x).tiles = s.tiles := rfl
@[simp] theorem State.setRing_paths (s : State) (k : Nat) (x : Ring) : (s.setRing k x).paths = s.paths := rfl
@[simp] theorem State.setRing_detsH (s : State) (k : Nat) (x : Ring) : (s.setRing k x).detsH = s.detsH := rfl
@[simp] theorem State.setRing_tus (s : State) (k : Nat) (x : Ring) : (s.setRing k x).tus = s.tus := rfl
@[simp] theorem State.setRing_tgs (s : State) (k : Nat) (x : Ring) : (s.setRing k x).tgs = s.tgs := rfl
@[simp] theorem State.setRing_strs (s : State) (k : Nat) (x : Ring) : (s.setRing k x).strs = s.strs := rfl
@[simp] theorem State.setRing_packs (s : State) (k : Nat) (x : Ring) : (s.setRing k x).packs = s.packs := rfl
@[simp] theorem State.setRing_handed (s : State) (k : Nat) (x : Ring) : (s.setRing k x).handed = s.handed := rfl
@[simp] theorem State.setRing_runs (s : State) (k : Nat) (x : Ring) : (s.setRing k x).runs = s.runs := rfl
@[simp] theorem State.setRing_kept (s : State) (k : Nat) (x : Ring) : (s.setRing k x).kept = s.kept := rfl
@[simp] theorem State.setRing_lossy (s : State) (k : Nat) (x : Ring) : (s.setRing k x).lossy = s.lossy := rfl
@[simp] theorem State.setRing_draining (s : State) (k : Nat) (x : Ring) : (s.setRing k x).draining = s.draining := rfl
@[simp] theorem State.setRing_resumed (s : State) (k : Nat) (x : Ring) : (s.setRing k x).resumed = s.resumed := rfl
@[simp] theorem State.setRing_masons (s : State) (k : Nat) (x : Ring) : (s.setRing k x).masons = s.masons := rfl
@[simp] theorem State.setRing_pqs (s : State) (k : Nat) (x : Ring) : (s.setRing k x).pqs = s.pqs := rfl
@[simp] theorem State.setRing_hputs (s : State) (k : Nat) (x : Ring) : (s.setRing k x).hputs = s.hputs := rfl
@[simp] theorem State.setRing_grids (s : State) (k : Nat) (x : Ring) : (s.setRing k x).grids = s.grids := rfl
@[simp] theorem State.setRing_smpl (s : State) (k : Nat) (x : Ring) : (s.setRing k x).smpl = s.smpl := rfl
@[simp] theorem State.setRing_pps (s : State) (k : Nat) (x : Ring) : (s.setRing k x).pps = s.pps := rfl
@[simp] theorem State.setRing_servo (s : State) (k : Nat) (x : Ring) : (s.setRing k x).servo = s.servo := rfl
@[simp] theorem State.setRing_xchg (s : State) (k : Nat) (x : Ring) : (s.setRing k x).xchg = s.xchg := rfl
@[simp] theorem State.setRing_tsq (s : State) (k : Nat) (x : Ring) : (s.setRing k x).tsq = s.tsq := rfl
@[simp] theorem State.setRing_rtcPhase (s : State) (k : Nat) (x : Ring) : (s.setRing k x).rtcPhase = s.rtcPhase := rfl
@[simp] theorem State.setRing_rtcLoad (s : State) (k : Nat) (x : Ring) : (s.setRing k x).rtcLoad = s.rtcLoad := rfl
@[simp] theorem State.setRing_pulses (s : State) (k : Nat) (x : Ring) : (s.setRing k x).pulses = s.pulses := rfl
@[simp] theorem State.setRing_lanes (s : State) (k : Nat) (x : Ring) : (s.setRing k x).lanes = s.lanes := rfl
@[simp] theorem State.setRing_ports (s : State) (k : Nat) (x : Ring) : (s.setRing k x).ports = s.ports := rfl
@[simp] theorem State.setRing_prbs (s : State) (k : Nat) (x : Ring) : (s.setRing k x).prbs = s.prbs := rfl
@[simp] theorem State.setRing_rel (s : State) (k : Nat) (x : Ring) : (s.setRing k x).rel = s.rel := rfl
@[simp] theorem State.setRing_relWake (s : State) (k : Nat) (x : Ring) : (s.setRing k x).relWake = s.relWake := rfl
@[simp] theorem State.setRing_safeNext (s : State) (k : Nat) (x : Ring) : (s.setRing k x).safeNext = s.safeNext := rfl
@[simp] theorem State.setRing_nv (s : State) (k : Nat) (x : Ring) : (s.setRing k x).nv = s.nv := rfl
@[simp] theorem State.setRing_owed (s : State) (k : Nat) (x : Ring) : (s.setRing k x).owed = s.owed := rfl
@[simp] theorem State.setRing_csPend (s : State) (k : Nat) (x : Ring) : (s.setRing k x).csPend = s.csPend := rfl
@[simp] theorem State.setRing_csWait (s : State) (k : Nat) (x : Ring) : (s.setRing k x).csWait = s.csWait := rfl
@[simp] theorem State.setRing_enDue (s : State) (k : Nat) (x : Ring) : (s.setRing k x).enDue = s.enDue := rfl
@[simp] theorem State.setRing_csDig (s : State) (k : Nat) (x : Ring) : (s.setRing k x).csDig = s.csDig := rfl
@[simp] theorem State.setRing_csStop (s : State) (k : Nat) (x : Ring) : (s.setRing k x).csStop = s.csStop := rfl
@[simp] theorem State.setRing_secret (s : State) (k : Nat) (x : Ring) : (s.setRing k x).secret = s.secret := rfl
@[simp] theorem State.setRing_meters (s : State) (k : Nat) (x : Ring) : (s.setRing k x).meters = s.meters := rfl
@[simp] theorem State.setRing_prog (s : State) (k : Nat) (x : Ring) : (s.setRing k x).prog = s.prog := rfl
@[simp] theorem State.setRing_mgp (s : State) (k : Nat) (x : Ring) : (s.setRing k x).mgp = s.mgp := rfl
@[simp] theorem State.setRing_hk (s : State) (k : Nat) (x : Ring) : (s.setRing k x).hk = s.hk := rfl
@[simp] theorem State.setRing_bootSha (s : State) (k : Nat) (x : Ring) : (s.setRing k x).bootSha = s.bootSha := rfl
@[simp] theorem State.setRing_recMaps (s : State) (k : Nat) (x : Ring) : (s.setRing k x).recMaps = s.recMaps := rfl
@[simp] theorem State.setRing_kilnWords (s : State) (k : Nat) (x : Ring) : (s.setRing k x).kilnWords = s.kilnWords := rfl
@[simp] theorem State.setRing_tap (s : State) (k : Nat) (x : Ring) : (s.setRing k x).tap = s.tap := rfl
@[simp] theorem State.setRing_bsrIn (s : State) (k : Nat) (x : Ring) : (s.setRing k x).bsrIn = s.bsrIn := rfl
@[simp] theorem State.setRing_bsrOut (s : State) (k : Nat) (x : Ring) : (s.setRing k x).bsrOut = s.bsrOut := rfl
@[simp] theorem State.setRing_kilnEnd (s : State) (k : Nat) (x : Ring) : (s.setRing k x).kilnEnd = s.kilnEnd := rfl
@[simp] theorem State.setRing_w (s : State) (k : Nat) (x : Ring) (i : Nat) : (s.setRing k x).w i = s.w i := rfl
@[simp] theorem State.setRing_f (s : State) (k : Nat) (x : Ring) (i : Fld) : (s.setRing k x).f i = s.f i := rfl
@[simp] theorem State.setRing_b (s : State) (k : Nat) (x : Ring) (i : Fld) : (s.setRing k x).b i = s.b i := rfl
@[simp] theorem State.setRing_mode (s : State) (k : Nat) (x : Ring) : (s.setRing k x).mode = s.mode := rfl
@[simp] theorem State.setRing_alive (s : State) (k : Nat) (x : Ring) : (s.setRing k x).alive = s.alive := rfl

/-! ### setRun changes `runs` alone -/

@[simp] theorem State.setRun_regs (s : State) (k : Nat) (x : Option GRun) : (s.setRun k x).regs = s.regs := rfl
@[simp] theorem State.setRun_mem (s : State) (k : Nat) (x : Option GRun) : (s.setRun k x).mem = s.mem := rfl
@[simp] theorem State.setRun_nvm (s : State) (k : Nat) (x : Option GRun) : (s.setRun k x).nvm = s.nvm := rfl
@[simp] theorem State.setRun_bad (s : State) (k : Nat) (x : Option GRun) : (s.setRun k x).bad = s.bad := rfl
@[simp] theorem State.setRun_shadows (s : State) (k : Nat) (x : Option GRun) : (s.setRun k x).shadows = s.shadows := rfl
@[simp] theorem State.setRun_cpl (s : State) (k : Nat) (x : Option GRun) : (s.setRun k x).cpl = s.cpl := rfl
@[simp] theorem State.setRun_pending (s : State) (k : Nat) (x : Option GRun) : (s.setRun k x).pending = s.pending := rfl
@[simp] theorem State.setRun_free (s : State) (k : Nat) (x : Option GRun) : (s.setRun k x).free = s.free := rfl
@[simp] theorem State.setRun_aon (s : State) (k : Nat) (x : Option GRun) : (s.setRun k x).aon = s.aon := rfl
@[simp] theorem State.setRun_pgood (s : State) (k : Nat) (x : Option GRun) : (s.setRun k x).pgood = s.pgood := rfl
@[simp] theorem State.setRun_brown (s : State) (k : Nat) (x : Option GRun) : (s.setRun k x).brown = s.brown := rfl
@[simp] theorem State.setRun_vbat (s : State) (k : Nat) (x : Option GRun) : (s.setRun k x).vbat = s.vbat := rfl
@[simp] theorem State.setRun_rstLow (s : State) (k : Nat) (x : Option GRun) : (s.setRun k x).rstLow = s.rstLow := rfl
@[simp] theorem State.setRun_scan (s : State) (k : Nat) (x : Option GRun) : (s.setRun k x).scan = s.scan := rfl
@[simp] theorem State.setRun_st (s : State) (k : Nat) (x : Option GRun) : (s.setRun k x).st = s.st := rfl
@[simp] theorem State.setRun_cyc (s : State) (k : Nat) (x : Option GRun) : (s.setRun k x).cyc = s.cyc := rfl
@[simp] theorem State.setRun_rtc (s : State) (k : Nat) (x : Option GRun) : (s.setRun k x).rtc = s.rtc := rfl
@[simp] theorem State.setRun_evtq (s : State) (k : Nat) (x : Option GRun) : (s.setRun k x).evtq = s.evtq := rfl
@[simp] theorem State.setRun_evtDropped (s : State) (k : Nat) (x : Option GRun) : (s.setRun k x).evtDropped = s.evtDropped := rfl
@[simp] theorem State.setRun_kilnTest (s : State) (k : Nat) (x : Option GRun) : (s.setRun k x).kilnTest = s.kilnTest := rfl
@[simp] theorem State.setRun_snap (s : State) (k : Nat) (x : Option GRun) : (s.setRun k x).snap = s.snap := rfl
@[simp] theorem State.setRun_tiles (s : State) (k : Nat) (x : Option GRun) : (s.setRun k x).tiles = s.tiles := rfl
@[simp] theorem State.setRun_paths (s : State) (k : Nat) (x : Option GRun) : (s.setRun k x).paths = s.paths := rfl
@[simp] theorem State.setRun_detsH (s : State) (k : Nat) (x : Option GRun) : (s.setRun k x).detsH = s.detsH := rfl
@[simp] theorem State.setRun_tus (s : State) (k : Nat) (x : Option GRun) : (s.setRun k x).tus = s.tus := rfl
@[simp] theorem State.setRun_tgs (s : State) (k : Nat) (x : Option GRun) : (s.setRun k x).tgs = s.tgs := rfl
@[simp] theorem State.setRun_strs (s : State) (k : Nat) (x : Option GRun) : (s.setRun k x).strs = s.strs := rfl
@[simp] theorem State.setRun_packs (s : State) (k : Nat) (x : Option GRun) : (s.setRun k x).packs = s.packs := rfl
@[simp] theorem State.setRun_handed (s : State) (k : Nat) (x : Option GRun) : (s.setRun k x).handed = s.handed := rfl
@[simp] theorem State.setRun_rings (s : State) (k : Nat) (x : Option GRun) : (s.setRun k x).rings = s.rings := rfl
@[simp] theorem State.setRun_kept (s : State) (k : Nat) (x : Option GRun) : (s.setRun k x).kept = s.kept := rfl
@[simp] theorem State.setRun_lossy (s : State) (k : Nat) (x : Option GRun) : (s.setRun k x).lossy = s.lossy := rfl
@[simp] theorem State.setRun_draining (s : State) (k : Nat) (x : Option GRun) : (s.setRun k x).draining = s.draining := rfl
@[simp] theorem State.setRun_resumed (s : State) (k : Nat) (x : Option GRun) : (s.setRun k x).resumed = s.resumed := rfl
@[simp] theorem State.setRun_masons (s : State) (k : Nat) (x : Option GRun) : (s.setRun k x).masons = s.masons := rfl
@[simp] theorem State.setRun_pqs (s : State) (k : Nat) (x : Option GRun) : (s.setRun k x).pqs = s.pqs := rfl
@[simp] theorem State.setRun_hputs (s : State) (k : Nat) (x : Option GRun) : (s.setRun k x).hputs = s.hputs := rfl
@[simp] theorem State.setRun_grids (s : State) (k : Nat) (x : Option GRun) : (s.setRun k x).grids = s.grids := rfl
@[simp] theorem State.setRun_smpl (s : State) (k : Nat) (x : Option GRun) : (s.setRun k x).smpl = s.smpl := rfl
@[simp] theorem State.setRun_pps (s : State) (k : Nat) (x : Option GRun) : (s.setRun k x).pps = s.pps := rfl
@[simp] theorem State.setRun_servo (s : State) (k : Nat) (x : Option GRun) : (s.setRun k x).servo = s.servo := rfl
@[simp] theorem State.setRun_xchg (s : State) (k : Nat) (x : Option GRun) : (s.setRun k x).xchg = s.xchg := rfl
@[simp] theorem State.setRun_tsq (s : State) (k : Nat) (x : Option GRun) : (s.setRun k x).tsq = s.tsq := rfl
@[simp] theorem State.setRun_rtcPhase (s : State) (k : Nat) (x : Option GRun) : (s.setRun k x).rtcPhase = s.rtcPhase := rfl
@[simp] theorem State.setRun_rtcLoad (s : State) (k : Nat) (x : Option GRun) : (s.setRun k x).rtcLoad = s.rtcLoad := rfl
@[simp] theorem State.setRun_pulses (s : State) (k : Nat) (x : Option GRun) : (s.setRun k x).pulses = s.pulses := rfl
@[simp] theorem State.setRun_lanes (s : State) (k : Nat) (x : Option GRun) : (s.setRun k x).lanes = s.lanes := rfl
@[simp] theorem State.setRun_ports (s : State) (k : Nat) (x : Option GRun) : (s.setRun k x).ports = s.ports := rfl
@[simp] theorem State.setRun_prbs (s : State) (k : Nat) (x : Option GRun) : (s.setRun k x).prbs = s.prbs := rfl
@[simp] theorem State.setRun_rel (s : State) (k : Nat) (x : Option GRun) : (s.setRun k x).rel = s.rel := rfl
@[simp] theorem State.setRun_relWake (s : State) (k : Nat) (x : Option GRun) : (s.setRun k x).relWake = s.relWake := rfl
@[simp] theorem State.setRun_safeNext (s : State) (k : Nat) (x : Option GRun) : (s.setRun k x).safeNext = s.safeNext := rfl
@[simp] theorem State.setRun_nv (s : State) (k : Nat) (x : Option GRun) : (s.setRun k x).nv = s.nv := rfl
@[simp] theorem State.setRun_owed (s : State) (k : Nat) (x : Option GRun) : (s.setRun k x).owed = s.owed := rfl
@[simp] theorem State.setRun_csPend (s : State) (k : Nat) (x : Option GRun) : (s.setRun k x).csPend = s.csPend := rfl
@[simp] theorem State.setRun_csWait (s : State) (k : Nat) (x : Option GRun) : (s.setRun k x).csWait = s.csWait := rfl
@[simp] theorem State.setRun_enDue (s : State) (k : Nat) (x : Option GRun) : (s.setRun k x).enDue = s.enDue := rfl
@[simp] theorem State.setRun_csDig (s : State) (k : Nat) (x : Option GRun) : (s.setRun k x).csDig = s.csDig := rfl
@[simp] theorem State.setRun_csStop (s : State) (k : Nat) (x : Option GRun) : (s.setRun k x).csStop = s.csStop := rfl
@[simp] theorem State.setRun_secret (s : State) (k : Nat) (x : Option GRun) : (s.setRun k x).secret = s.secret := rfl
@[simp] theorem State.setRun_meters (s : State) (k : Nat) (x : Option GRun) : (s.setRun k x).meters = s.meters := rfl
@[simp] theorem State.setRun_prog (s : State) (k : Nat) (x : Option GRun) : (s.setRun k x).prog = s.prog := rfl
@[simp] theorem State.setRun_mgp (s : State) (k : Nat) (x : Option GRun) : (s.setRun k x).mgp = s.mgp := rfl
@[simp] theorem State.setRun_hk (s : State) (k : Nat) (x : Option GRun) : (s.setRun k x).hk = s.hk := rfl
@[simp] theorem State.setRun_bootSha (s : State) (k : Nat) (x : Option GRun) : (s.setRun k x).bootSha = s.bootSha := rfl
@[simp] theorem State.setRun_recMaps (s : State) (k : Nat) (x : Option GRun) : (s.setRun k x).recMaps = s.recMaps := rfl
@[simp] theorem State.setRun_kilnWords (s : State) (k : Nat) (x : Option GRun) : (s.setRun k x).kilnWords = s.kilnWords := rfl
@[simp] theorem State.setRun_tap (s : State) (k : Nat) (x : Option GRun) : (s.setRun k x).tap = s.tap := rfl
@[simp] theorem State.setRun_bsrIn (s : State) (k : Nat) (x : Option GRun) : (s.setRun k x).bsrIn = s.bsrIn := rfl
@[simp] theorem State.setRun_bsrOut (s : State) (k : Nat) (x : Option GRun) : (s.setRun k x).bsrOut = s.bsrOut := rfl
@[simp] theorem State.setRun_kilnEnd (s : State) (k : Nat) (x : Option GRun) : (s.setRun k x).kilnEnd = s.kilnEnd := rfl
@[simp] theorem State.setRun_w (s : State) (k : Nat) (x : Option GRun) (i : Nat) : (s.setRun k x).w i = s.w i := rfl
@[simp] theorem State.setRun_f (s : State) (k : Nat) (x : Option GRun) (i : Fld) : (s.setRun k x).f i = s.f i := rfl
@[simp] theorem State.setRun_b (s : State) (k : Nat) (x : Option GRun) (i : Fld) : (s.setRun k x).b i = s.b i := rfl
@[simp] theorem State.setRun_mode (s : State) (k : Nat) (x : Option GRun) : (s.setRun k x).mode = s.mode := rfl
@[simp] theorem State.setRun_alive (s : State) (k : Nat) (x : Option GRun) : (s.setRun k x).alive = s.alive := rfl

/-! ### setMason changes `masons` alone -/

@[simp] theorem State.setMason_regs (s : State) (k : Nat) (x : Mason) : (s.setMason k x).regs = s.regs := rfl
@[simp] theorem State.setMason_mem (s : State) (k : Nat) (x : Mason) : (s.setMason k x).mem = s.mem := rfl
@[simp] theorem State.setMason_nvm (s : State) (k : Nat) (x : Mason) : (s.setMason k x).nvm = s.nvm := rfl
@[simp] theorem State.setMason_bad (s : State) (k : Nat) (x : Mason) : (s.setMason k x).bad = s.bad := rfl
@[simp] theorem State.setMason_shadows (s : State) (k : Nat) (x : Mason) : (s.setMason k x).shadows = s.shadows := rfl
@[simp] theorem State.setMason_cpl (s : State) (k : Nat) (x : Mason) : (s.setMason k x).cpl = s.cpl := rfl
@[simp] theorem State.setMason_pending (s : State) (k : Nat) (x : Mason) : (s.setMason k x).pending = s.pending := rfl
@[simp] theorem State.setMason_free (s : State) (k : Nat) (x : Mason) : (s.setMason k x).free = s.free := rfl
@[simp] theorem State.setMason_aon (s : State) (k : Nat) (x : Mason) : (s.setMason k x).aon = s.aon := rfl
@[simp] theorem State.setMason_pgood (s : State) (k : Nat) (x : Mason) : (s.setMason k x).pgood = s.pgood := rfl
@[simp] theorem State.setMason_brown (s : State) (k : Nat) (x : Mason) : (s.setMason k x).brown = s.brown := rfl
@[simp] theorem State.setMason_vbat (s : State) (k : Nat) (x : Mason) : (s.setMason k x).vbat = s.vbat := rfl
@[simp] theorem State.setMason_rstLow (s : State) (k : Nat) (x : Mason) : (s.setMason k x).rstLow = s.rstLow := rfl
@[simp] theorem State.setMason_scan (s : State) (k : Nat) (x : Mason) : (s.setMason k x).scan = s.scan := rfl
@[simp] theorem State.setMason_st (s : State) (k : Nat) (x : Mason) : (s.setMason k x).st = s.st := rfl
@[simp] theorem State.setMason_cyc (s : State) (k : Nat) (x : Mason) : (s.setMason k x).cyc = s.cyc := rfl
@[simp] theorem State.setMason_rtc (s : State) (k : Nat) (x : Mason) : (s.setMason k x).rtc = s.rtc := rfl
@[simp] theorem State.setMason_evtq (s : State) (k : Nat) (x : Mason) : (s.setMason k x).evtq = s.evtq := rfl
@[simp] theorem State.setMason_evtDropped (s : State) (k : Nat) (x : Mason) : (s.setMason k x).evtDropped = s.evtDropped := rfl
@[simp] theorem State.setMason_kilnTest (s : State) (k : Nat) (x : Mason) : (s.setMason k x).kilnTest = s.kilnTest := rfl
@[simp] theorem State.setMason_snap (s : State) (k : Nat) (x : Mason) : (s.setMason k x).snap = s.snap := rfl
@[simp] theorem State.setMason_tiles (s : State) (k : Nat) (x : Mason) : (s.setMason k x).tiles = s.tiles := rfl
@[simp] theorem State.setMason_paths (s : State) (k : Nat) (x : Mason) : (s.setMason k x).paths = s.paths := rfl
@[simp] theorem State.setMason_detsH (s : State) (k : Nat) (x : Mason) : (s.setMason k x).detsH = s.detsH := rfl
@[simp] theorem State.setMason_tus (s : State) (k : Nat) (x : Mason) : (s.setMason k x).tus = s.tus := rfl
@[simp] theorem State.setMason_tgs (s : State) (k : Nat) (x : Mason) : (s.setMason k x).tgs = s.tgs := rfl
@[simp] theorem State.setMason_strs (s : State) (k : Nat) (x : Mason) : (s.setMason k x).strs = s.strs := rfl
@[simp] theorem State.setMason_packs (s : State) (k : Nat) (x : Mason) : (s.setMason k x).packs = s.packs := rfl
@[simp] theorem State.setMason_handed (s : State) (k : Nat) (x : Mason) : (s.setMason k x).handed = s.handed := rfl
@[simp] theorem State.setMason_rings (s : State) (k : Nat) (x : Mason) : (s.setMason k x).rings = s.rings := rfl
@[simp] theorem State.setMason_runs (s : State) (k : Nat) (x : Mason) : (s.setMason k x).runs = s.runs := rfl
@[simp] theorem State.setMason_kept (s : State) (k : Nat) (x : Mason) : (s.setMason k x).kept = s.kept := rfl
@[simp] theorem State.setMason_lossy (s : State) (k : Nat) (x : Mason) : (s.setMason k x).lossy = s.lossy := rfl
@[simp] theorem State.setMason_draining (s : State) (k : Nat) (x : Mason) : (s.setMason k x).draining = s.draining := rfl
@[simp] theorem State.setMason_resumed (s : State) (k : Nat) (x : Mason) : (s.setMason k x).resumed = s.resumed := rfl
@[simp] theorem State.setMason_pqs (s : State) (k : Nat) (x : Mason) : (s.setMason k x).pqs = s.pqs := rfl
@[simp] theorem State.setMason_hputs (s : State) (k : Nat) (x : Mason) : (s.setMason k x).hputs = s.hputs := rfl
@[simp] theorem State.setMason_grids (s : State) (k : Nat) (x : Mason) : (s.setMason k x).grids = s.grids := rfl
@[simp] theorem State.setMason_smpl (s : State) (k : Nat) (x : Mason) : (s.setMason k x).smpl = s.smpl := rfl
@[simp] theorem State.setMason_pps (s : State) (k : Nat) (x : Mason) : (s.setMason k x).pps = s.pps := rfl
@[simp] theorem State.setMason_servo (s : State) (k : Nat) (x : Mason) : (s.setMason k x).servo = s.servo := rfl
@[simp] theorem State.setMason_xchg (s : State) (k : Nat) (x : Mason) : (s.setMason k x).xchg = s.xchg := rfl
@[simp] theorem State.setMason_tsq (s : State) (k : Nat) (x : Mason) : (s.setMason k x).tsq = s.tsq := rfl
@[simp] theorem State.setMason_rtcPhase (s : State) (k : Nat) (x : Mason) : (s.setMason k x).rtcPhase = s.rtcPhase := rfl
@[simp] theorem State.setMason_rtcLoad (s : State) (k : Nat) (x : Mason) : (s.setMason k x).rtcLoad = s.rtcLoad := rfl
@[simp] theorem State.setMason_pulses (s : State) (k : Nat) (x : Mason) : (s.setMason k x).pulses = s.pulses := rfl
@[simp] theorem State.setMason_lanes (s : State) (k : Nat) (x : Mason) : (s.setMason k x).lanes = s.lanes := rfl
@[simp] theorem State.setMason_ports (s : State) (k : Nat) (x : Mason) : (s.setMason k x).ports = s.ports := rfl
@[simp] theorem State.setMason_prbs (s : State) (k : Nat) (x : Mason) : (s.setMason k x).prbs = s.prbs := rfl
@[simp] theorem State.setMason_rel (s : State) (k : Nat) (x : Mason) : (s.setMason k x).rel = s.rel := rfl
@[simp] theorem State.setMason_relWake (s : State) (k : Nat) (x : Mason) : (s.setMason k x).relWake = s.relWake := rfl
@[simp] theorem State.setMason_safeNext (s : State) (k : Nat) (x : Mason) : (s.setMason k x).safeNext = s.safeNext := rfl
@[simp] theorem State.setMason_nv (s : State) (k : Nat) (x : Mason) : (s.setMason k x).nv = s.nv := rfl
@[simp] theorem State.setMason_owed (s : State) (k : Nat) (x : Mason) : (s.setMason k x).owed = s.owed := rfl
@[simp] theorem State.setMason_csPend (s : State) (k : Nat) (x : Mason) : (s.setMason k x).csPend = s.csPend := rfl
@[simp] theorem State.setMason_csWait (s : State) (k : Nat) (x : Mason) : (s.setMason k x).csWait = s.csWait := rfl
@[simp] theorem State.setMason_enDue (s : State) (k : Nat) (x : Mason) : (s.setMason k x).enDue = s.enDue := rfl
@[simp] theorem State.setMason_csDig (s : State) (k : Nat) (x : Mason) : (s.setMason k x).csDig = s.csDig := rfl
@[simp] theorem State.setMason_csStop (s : State) (k : Nat) (x : Mason) : (s.setMason k x).csStop = s.csStop := rfl
@[simp] theorem State.setMason_secret (s : State) (k : Nat) (x : Mason) : (s.setMason k x).secret = s.secret := rfl
@[simp] theorem State.setMason_meters (s : State) (k : Nat) (x : Mason) : (s.setMason k x).meters = s.meters := rfl
@[simp] theorem State.setMason_prog (s : State) (k : Nat) (x : Mason) : (s.setMason k x).prog = s.prog := rfl
@[simp] theorem State.setMason_mgp (s : State) (k : Nat) (x : Mason) : (s.setMason k x).mgp = s.mgp := rfl
@[simp] theorem State.setMason_hk (s : State) (k : Nat) (x : Mason) : (s.setMason k x).hk = s.hk := rfl
@[simp] theorem State.setMason_bootSha (s : State) (k : Nat) (x : Mason) : (s.setMason k x).bootSha = s.bootSha := rfl
@[simp] theorem State.setMason_recMaps (s : State) (k : Nat) (x : Mason) : (s.setMason k x).recMaps = s.recMaps := rfl
@[simp] theorem State.setMason_kilnWords (s : State) (k : Nat) (x : Mason) : (s.setMason k x).kilnWords = s.kilnWords := rfl
@[simp] theorem State.setMason_tap (s : State) (k : Nat) (x : Mason) : (s.setMason k x).tap = s.tap := rfl
@[simp] theorem State.setMason_bsrIn (s : State) (k : Nat) (x : Mason) : (s.setMason k x).bsrIn = s.bsrIn := rfl
@[simp] theorem State.setMason_bsrOut (s : State) (k : Nat) (x : Mason) : (s.setMason k x).bsrOut = s.bsrOut := rfl
@[simp] theorem State.setMason_kilnEnd (s : State) (k : Nat) (x : Mason) : (s.setMason k x).kilnEnd = s.kilnEnd := rfl
@[simp] theorem State.setMason_w (s : State) (k : Nat) (x : Mason) (i : Nat) : (s.setMason k x).w i = s.w i := rfl
@[simp] theorem State.setMason_f (s : State) (k : Nat) (x : Mason) (i : Fld) : (s.setMason k x).f i = s.f i := rfl
@[simp] theorem State.setMason_b (s : State) (k : Nat) (x : Mason) (i : Fld) : (s.setMason k x).b i = s.b i := rfl
@[simp] theorem State.setMason_mode (s : State) (k : Nat) (x : Mason) : (s.setMason k x).mode = s.mode := rfl
@[simp] theorem State.setMason_alive (s : State) (k : Nat) (x : Mason) : (s.setMason k x).alive = s.alive := rfl

/-! ### setPq changes `pqs` alone -/

@[simp] theorem State.setPq_regs (s : State) (k : Nat) (x : Pq) : (s.setPq k x).regs = s.regs := rfl
@[simp] theorem State.setPq_mem (s : State) (k : Nat) (x : Pq) : (s.setPq k x).mem = s.mem := rfl
@[simp] theorem State.setPq_nvm (s : State) (k : Nat) (x : Pq) : (s.setPq k x).nvm = s.nvm := rfl
@[simp] theorem State.setPq_bad (s : State) (k : Nat) (x : Pq) : (s.setPq k x).bad = s.bad := rfl
@[simp] theorem State.setPq_shadows (s : State) (k : Nat) (x : Pq) : (s.setPq k x).shadows = s.shadows := rfl
@[simp] theorem State.setPq_cpl (s : State) (k : Nat) (x : Pq) : (s.setPq k x).cpl = s.cpl := rfl
@[simp] theorem State.setPq_pending (s : State) (k : Nat) (x : Pq) : (s.setPq k x).pending = s.pending := rfl
@[simp] theorem State.setPq_free (s : State) (k : Nat) (x : Pq) : (s.setPq k x).free = s.free := rfl
@[simp] theorem State.setPq_aon (s : State) (k : Nat) (x : Pq) : (s.setPq k x).aon = s.aon := rfl
@[simp] theorem State.setPq_pgood (s : State) (k : Nat) (x : Pq) : (s.setPq k x).pgood = s.pgood := rfl
@[simp] theorem State.setPq_brown (s : State) (k : Nat) (x : Pq) : (s.setPq k x).brown = s.brown := rfl
@[simp] theorem State.setPq_vbat (s : State) (k : Nat) (x : Pq) : (s.setPq k x).vbat = s.vbat := rfl
@[simp] theorem State.setPq_rstLow (s : State) (k : Nat) (x : Pq) : (s.setPq k x).rstLow = s.rstLow := rfl
@[simp] theorem State.setPq_scan (s : State) (k : Nat) (x : Pq) : (s.setPq k x).scan = s.scan := rfl
@[simp] theorem State.setPq_st (s : State) (k : Nat) (x : Pq) : (s.setPq k x).st = s.st := rfl
@[simp] theorem State.setPq_cyc (s : State) (k : Nat) (x : Pq) : (s.setPq k x).cyc = s.cyc := rfl
@[simp] theorem State.setPq_rtc (s : State) (k : Nat) (x : Pq) : (s.setPq k x).rtc = s.rtc := rfl
@[simp] theorem State.setPq_evtq (s : State) (k : Nat) (x : Pq) : (s.setPq k x).evtq = s.evtq := rfl
@[simp] theorem State.setPq_evtDropped (s : State) (k : Nat) (x : Pq) : (s.setPq k x).evtDropped = s.evtDropped := rfl
@[simp] theorem State.setPq_kilnTest (s : State) (k : Nat) (x : Pq) : (s.setPq k x).kilnTest = s.kilnTest := rfl
@[simp] theorem State.setPq_snap (s : State) (k : Nat) (x : Pq) : (s.setPq k x).snap = s.snap := rfl
@[simp] theorem State.setPq_tiles (s : State) (k : Nat) (x : Pq) : (s.setPq k x).tiles = s.tiles := rfl
@[simp] theorem State.setPq_paths (s : State) (k : Nat) (x : Pq) : (s.setPq k x).paths = s.paths := rfl
@[simp] theorem State.setPq_detsH (s : State) (k : Nat) (x : Pq) : (s.setPq k x).detsH = s.detsH := rfl
@[simp] theorem State.setPq_tus (s : State) (k : Nat) (x : Pq) : (s.setPq k x).tus = s.tus := rfl
@[simp] theorem State.setPq_tgs (s : State) (k : Nat) (x : Pq) : (s.setPq k x).tgs = s.tgs := rfl
@[simp] theorem State.setPq_strs (s : State) (k : Nat) (x : Pq) : (s.setPq k x).strs = s.strs := rfl
@[simp] theorem State.setPq_packs (s : State) (k : Nat) (x : Pq) : (s.setPq k x).packs = s.packs := rfl
@[simp] theorem State.setPq_handed (s : State) (k : Nat) (x : Pq) : (s.setPq k x).handed = s.handed := rfl
@[simp] theorem State.setPq_rings (s : State) (k : Nat) (x : Pq) : (s.setPq k x).rings = s.rings := rfl
@[simp] theorem State.setPq_runs (s : State) (k : Nat) (x : Pq) : (s.setPq k x).runs = s.runs := rfl
@[simp] theorem State.setPq_kept (s : State) (k : Nat) (x : Pq) : (s.setPq k x).kept = s.kept := rfl
@[simp] theorem State.setPq_lossy (s : State) (k : Nat) (x : Pq) : (s.setPq k x).lossy = s.lossy := rfl
@[simp] theorem State.setPq_draining (s : State) (k : Nat) (x : Pq) : (s.setPq k x).draining = s.draining := rfl
@[simp] theorem State.setPq_resumed (s : State) (k : Nat) (x : Pq) : (s.setPq k x).resumed = s.resumed := rfl
@[simp] theorem State.setPq_masons (s : State) (k : Nat) (x : Pq) : (s.setPq k x).masons = s.masons := rfl
@[simp] theorem State.setPq_hputs (s : State) (k : Nat) (x : Pq) : (s.setPq k x).hputs = s.hputs := rfl
@[simp] theorem State.setPq_grids (s : State) (k : Nat) (x : Pq) : (s.setPq k x).grids = s.grids := rfl
@[simp] theorem State.setPq_smpl (s : State) (k : Nat) (x : Pq) : (s.setPq k x).smpl = s.smpl := rfl
@[simp] theorem State.setPq_pps (s : State) (k : Nat) (x : Pq) : (s.setPq k x).pps = s.pps := rfl
@[simp] theorem State.setPq_servo (s : State) (k : Nat) (x : Pq) : (s.setPq k x).servo = s.servo := rfl
@[simp] theorem State.setPq_xchg (s : State) (k : Nat) (x : Pq) : (s.setPq k x).xchg = s.xchg := rfl
@[simp] theorem State.setPq_tsq (s : State) (k : Nat) (x : Pq) : (s.setPq k x).tsq = s.tsq := rfl
@[simp] theorem State.setPq_rtcPhase (s : State) (k : Nat) (x : Pq) : (s.setPq k x).rtcPhase = s.rtcPhase := rfl
@[simp] theorem State.setPq_rtcLoad (s : State) (k : Nat) (x : Pq) : (s.setPq k x).rtcLoad = s.rtcLoad := rfl
@[simp] theorem State.setPq_pulses (s : State) (k : Nat) (x : Pq) : (s.setPq k x).pulses = s.pulses := rfl
@[simp] theorem State.setPq_lanes (s : State) (k : Nat) (x : Pq) : (s.setPq k x).lanes = s.lanes := rfl
@[simp] theorem State.setPq_ports (s : State) (k : Nat) (x : Pq) : (s.setPq k x).ports = s.ports := rfl
@[simp] theorem State.setPq_prbs (s : State) (k : Nat) (x : Pq) : (s.setPq k x).prbs = s.prbs := rfl
@[simp] theorem State.setPq_rel (s : State) (k : Nat) (x : Pq) : (s.setPq k x).rel = s.rel := rfl
@[simp] theorem State.setPq_relWake (s : State) (k : Nat) (x : Pq) : (s.setPq k x).relWake = s.relWake := rfl
@[simp] theorem State.setPq_safeNext (s : State) (k : Nat) (x : Pq) : (s.setPq k x).safeNext = s.safeNext := rfl
@[simp] theorem State.setPq_nv (s : State) (k : Nat) (x : Pq) : (s.setPq k x).nv = s.nv := rfl
@[simp] theorem State.setPq_owed (s : State) (k : Nat) (x : Pq) : (s.setPq k x).owed = s.owed := rfl
@[simp] theorem State.setPq_csPend (s : State) (k : Nat) (x : Pq) : (s.setPq k x).csPend = s.csPend := rfl
@[simp] theorem State.setPq_csWait (s : State) (k : Nat) (x : Pq) : (s.setPq k x).csWait = s.csWait := rfl
@[simp] theorem State.setPq_enDue (s : State) (k : Nat) (x : Pq) : (s.setPq k x).enDue = s.enDue := rfl
@[simp] theorem State.setPq_csDig (s : State) (k : Nat) (x : Pq) : (s.setPq k x).csDig = s.csDig := rfl
@[simp] theorem State.setPq_csStop (s : State) (k : Nat) (x : Pq) : (s.setPq k x).csStop = s.csStop := rfl
@[simp] theorem State.setPq_secret (s : State) (k : Nat) (x : Pq) : (s.setPq k x).secret = s.secret := rfl
@[simp] theorem State.setPq_meters (s : State) (k : Nat) (x : Pq) : (s.setPq k x).meters = s.meters := rfl
@[simp] theorem State.setPq_prog (s : State) (k : Nat) (x : Pq) : (s.setPq k x).prog = s.prog := rfl
@[simp] theorem State.setPq_mgp (s : State) (k : Nat) (x : Pq) : (s.setPq k x).mgp = s.mgp := rfl
@[simp] theorem State.setPq_hk (s : State) (k : Nat) (x : Pq) : (s.setPq k x).hk = s.hk := rfl
@[simp] theorem State.setPq_bootSha (s : State) (k : Nat) (x : Pq) : (s.setPq k x).bootSha = s.bootSha := rfl
@[simp] theorem State.setPq_recMaps (s : State) (k : Nat) (x : Pq) : (s.setPq k x).recMaps = s.recMaps := rfl
@[simp] theorem State.setPq_kilnWords (s : State) (k : Nat) (x : Pq) : (s.setPq k x).kilnWords = s.kilnWords := rfl
@[simp] theorem State.setPq_tap (s : State) (k : Nat) (x : Pq) : (s.setPq k x).tap = s.tap := rfl
@[simp] theorem State.setPq_bsrIn (s : State) (k : Nat) (x : Pq) : (s.setPq k x).bsrIn = s.bsrIn := rfl
@[simp] theorem State.setPq_bsrOut (s : State) (k : Nat) (x : Pq) : (s.setPq k x).bsrOut = s.bsrOut := rfl
@[simp] theorem State.setPq_kilnEnd (s : State) (k : Nat) (x : Pq) : (s.setPq k x).kilnEnd = s.kilnEnd := rfl
@[simp] theorem State.setPq_w (s : State) (k : Nat) (x : Pq) (i : Nat) : (s.setPq k x).w i = s.w i := rfl
@[simp] theorem State.setPq_f (s : State) (k : Nat) (x : Pq) (i : Fld) : (s.setPq k x).f i = s.f i := rfl
@[simp] theorem State.setPq_b (s : State) (k : Nat) (x : Pq) (i : Fld) : (s.setPq k x).b i = s.b i := rfl
@[simp] theorem State.setPq_mode (s : State) (k : Nat) (x : Pq) : (s.setPq k x).mode = s.mode := rfl
@[simp] theorem State.setPq_alive (s : State) (k : Nat) (x : Pq) : (s.setPq k x).alive = s.alive := rfl

@[simp] theorem State.fin_cpl (s : State) (c : Status) : (s.fin c).cpl = ⟨c, []⟩ := rfl
@[simp] theorem State.finData_cpl (s : State) (d : List Word) : (s.finData d).cpl = ⟨.ok, d⟩ := rfl

/-! ### Reads after writes -/

@[simp] theorem State.setW_w_same (s : State) (a : Nat) (v : Word) : (s.setW a v).w a = v := Tab.get_set_same ..

theorem State.setW_w_other (s : State) (a i : Nat) (v : Word) (h : i ≠ a) : (s.setW a v).w i = s.w i := Tab.get_set_other _ _ _ _ _ h

theorem State.setW_w (s : State) (a i : Nat) (v : Word) : (s.setW a v).w i = if i = a then v else s.w i := by
  split
  · next h => subst h; simp
  · next h => exact State.setW_w_other s a i v h

theorem State.setW_f_other (s : State) (a : Nat) (v : Word) (x : Fld) (h : x.addr ≠ a) : (s.setW a v).f x = s.f x := by
  unfold State.f
  rw [State.setW_w_other s a x.addr v h]

theorem State.setF_w_other (s : State) (x : Fld) (n i : Nat) (h : i ≠ x.addr) : (s.setF x n).w i = s.w i := State.setW_w_other _ _ _ _ h

theorem State.setF_f_other (s : State) (x y : Fld) (n : Nat) (h : y.addr ≠ x.addr) : (s.setF x n).f y = s.f y :=
  State.setW_f_other _ _ _ _ h

/-- A byte read after a byte written. -/
theorem State.setByte_byte (s : State) (a i : Nat) (v : Byte) : (s.setByte a v).byte i = if i = a then v else s.byte i := by
  split
  · next h => subst h; exact Tab.get_set_same ..
  · next h => exact Tab.get_set_other _ _ _ _ _ h

@[simp] theorem State.setTile_same (s : State) (k : Nat) (x : Tile) : (s.setTile k x).tile k = x := Tab.get_set_same ..
theorem State.setTile_other (s : State) (k i : Nat) (x : Tile) (h : i ≠ k) : (s.setTile k x).tile i = s.tile i := Tab.get_set_other _ _ _ _ _ h

@[simp] theorem State.setPath_same (s : State) (k : Nat) (x : Path) : (s.setPath k x).path k = x := Tab.get_set_same ..
theorem State.setPath_other (s : State) (k i : Nat) (x : Path) (h : i ≠ k) : (s.setPath k x).path i = s.path i := Tab.get_set_other _ _ _ _ _ h

@[simp] theorem State.setDet_same (s : State) (k : Nat) (x : Det) : (s.setDet k x).det k = x := Tab.get_set_same ..
theorem State.setDet_other (s : State) (k i : Nat) (x : Det) (h : i ≠ k) : (s.setDet k x).det i = s.det i := Tab.get_set_other _ _ _ _ _ h

@[simp] theorem State.setTu_same (s : State) (k : Nat) (x : Tu) : (s.setTu k x).tu k = x := Tab.get_set_same ..
theorem State.setTu_other (s : State) (k i : Nat) (x : Tu) (h : i ≠ k) : (s.setTu k x).tu i = s.tu i := Tab.get_set_other _ _ _ _ _ h

@[simp] theorem State.setTg_same (s : State) (k : Nat) (x : Tg) : (s.setTg k x).tg k = x := Tab.get_set_same ..
theorem State.setTg_other (s : State) (k i : Nat) (x : Tg) (h : i ≠ k) : (s.setTg k x).tg i = s.tg i := Tab.get_set_other _ _ _ _ _ h

@[simp] theorem State.setStr_same (s : State) (k : Nat) (x : Str) : (s.setStr k x).str k = x := Tab.get_set_same ..
theorem State.setStr_other (s : State) (k i : Nat) (x : Str) (h : i ≠ k) : (s.setStr k x).str i = s.str i := Tab.get_set_other _ _ _ _ _ h

@[simp] theorem State.setPack_same (s : State) (k : Nat) (x : List Open) : (s.setPack k x).pack k = x := Tab.get_set_same ..
theorem State.setPack_other (s : State) (k i : Nat) (x : List Open) (h : i ≠ k) : (s.setPack k x).pack i = s.pack i := Tab.get_set_other _ _ _ _ _ h

@[simp] theorem State.setRing_same (s : State) (k : Nat) (x : Ring) : (s.setRing k x).ring k = x := Tab.get_set_same ..
theorem State.setRing_other (s : State) (k i : Nat) (x : Ring) (h : i ≠ k) : (s.setRing k x).ring i = s.ring i := Tab.get_set_other _ _ _ _ _ h

@[simp] theorem State.setRun_same (s : State) (k : Nat) (x : Option GRun) : (s.setRun k x).run k = x := Tab.get_set_same ..
theorem State.setRun_other (s : State) (k i : Nat) (x : Option GRun) (h : i ≠ k) : (s.setRun k x).run i = s.run i := Tab.get_set_other _ _ _ _ _ h

@[simp] theorem State.setMason_same (s : State) (k : Nat) (x : Mason) : (s.setMason k x).mason k = x := Tab.get_set_same ..
theorem State.setMason_other (s : State) (k i : Nat) (x : Mason) (h : i ≠ k) : (s.setMason k x).mason i = s.mason i := Tab.get_set_other _ _ _ _ _ h

@[simp] theorem State.setPq_same (s : State) (k : Nat) (x : Pq) : (s.setPq k x).pq k = x := Tab.get_set_same ..
theorem State.setPq_other (s : State) (k i : Nat) (x : Pq) (h : i ≠ k) : (s.setPq k x).pq i = s.pq i := Tab.get_set_other _ _ _ _ _ h

/-! ### The bytes of a memory -/

/-- Bytes written change no byte outside them. -/
theorem State.setBytes_byte_other (s : State) (a i : Nat) (l : List Byte) (h : i < a ∨ a + l.length ≤ i) : (s.setBytes a l).byte i = s.byte i := by
  induction l generalizing s a with
  | nil => rfl
  | cons v r ih =>
    unfold State.setBytes
    simp only [List.length_cons] at h
    rw [ih _ _ (by omega), State.setByte_byte, if_neg (by omega)]

/-! ### The completion of a register write -/

/-- A locked register refuses a requester with the right to write before anything else (R29, R399, R407). -/
theorem regWrite_locked (r : Req) (a : Nat) (l : State → Bool) (eff : State → State) (s : State) (h : l s = true)
    (ha : accOf r a = .rw) : regWrite r a l eff s = s.fin .locked := by
  simp [regWrite, h, ha]

/-- The address map refuses next (R2, R29 to R31). -/
theorem regWrite_map (r : Req) (a : Nat) (l : State → Bool) (eff : State → State) (s : State) (c : Status) (h : l s = false)
    (hm : s.mapStop r a true = some c) : regWrite r a l eff s = s.fin c := by
  simp [regWrite, h, hm]

/-- A block under test refuses after the map (R474). -/
theorem regWrite_test (r : Req) (a : Nat) (l : State → Bool) (eff : State → State) (s : State) (h : l s = false)
    (hm : s.mapStop r a true = none) (ht : s.underTest a = true) : regWrite r a l eff s = s.fin .busyTest := by
  simp [regWrite, h, hm, ht]

/-- Otherwise the register's own effect. -/
theorem regWrite_eff (r : Req) (a : Nat) (l : State → Bool) (eff : State → State) (s : State) (h : l s = false)
    (hm : s.mapStop r a true = none) (ht : s.underTest a = false) : regWrite r a l eff s = eff s := by
  simp [regWrite, h, hm, ht]

/-- A command that a running hub takes. -/
theorem act_alive (f : State → State) (s : State) (h : s.alive = true) : act f s = .next (f s) := by
  simp [act, h]

/-- A hub that does not run stays as it is. -/
theorem act_idle (f : State → State) (s : State) (h : s.alive = false) : act f s = .next s := by
  simp [act, h]

end Sys2Proof.Machine
end

