-- ==== Sys2Proof/Laws/Bits.lean ====
section
/-!
SUPPORT. The laws of bit fields: what a field reads as after a write of it, and that a write leaves every field apart from it alone.
-/

namespace Sys2Proof.Machine

theorem putBits_mod (n hi lo v : Nat) (h : lo ≤ hi) : putBits n hi lo v % 2 ^ lo = n % 2 ^ lo := by
  have e : 2 ^ (hi + 1) = 2 ^ (hi + 1 - lo) * 2 ^ lo := by rw [← pow_add]; congr 1; omega
  unfold putBits
  rw [e, ← mul_assoc, ← add_mul, mul_comm, Nat.mul_add_mod, Nat.mod_mod]

theorem putBits_div (n hi lo v : Nat) (h : lo ≤ hi) : putBits n hi lo v / 2 ^ lo =
    n / 2 ^ (hi + 1) * 2 ^ (hi + 1 - lo) + v % 2 ^ (hi + 1 - lo) := by
  have e : 2 ^ (hi + 1) = 2 ^ (hi + 1 - lo) * 2 ^ lo := by rw [← pow_add]; congr 1; omega
  have p : 0 < 2 ^ lo := by positivity
  unfold putBits
  conv_lhs => rw [e, ← mul_assoc, ← add_mul, mul_comm]
  rw [Nat.mul_add_div p, Nat.div_eq_of_lt (Nat.mod_lt _ p), add_zero, e]

/-- A field reads as the low bits of what was put into it. -/
theorem bits_putBits_same (n hi lo v : Nat) (h : lo ≤ hi) : bits (putBits n hi lo v) hi lo = v % 2 ^ (hi + 1 - lo) := by
  unfold bits
  rw [putBits_div n hi lo v h, mul_comm, Nat.mul_add_mod, Nat.mod_mod]

/-- A field below the one written keeps its value. -/
theorem bits_putBits_below (n hi lo v hi' lo' : Nat) (h : lo ≤ hi) (k : hi' < lo) (l : lo' ≤ hi') :
    bits (putBits n hi lo v) hi' lo' = bits n hi' lo' := by
  have key (m : Nat) : bits m hi' lo' = m % 2 ^ lo / 2 ^ lo' % 2 ^ (hi' + 1 - lo') := by
    unfold bits
    have e : 2 ^ lo = 2 ^ lo' * 2 ^ (lo - lo') := by rw [← pow_add]; congr 1; omega
    rw [e, Nat.mod_mul_right_div_self, Nat.mod_mod_of_dvd]
    exact pow_dvd_pow 2 (by omega)
  rw [key, key, putBits_mod n hi lo v h]

/-- A field above the one written keeps its value. -/
theorem bits_putBits_above (n hi lo v hi' lo' : Nat) (h : lo ≤ hi) (k : hi < lo') :
    bits (putBits n hi lo v) hi' lo' = bits n hi' lo' := by
  have d : putBits n hi lo v / 2 ^ (hi + 1) = n / 2 ^ (hi + 1) := by
    have e : 2 ^ (hi + 1) = 2 ^ lo * 2 ^ (hi + 1 - lo) := by rw [← pow_add]; congr 1; omega
    conv_lhs => rw [e, ← Nat.div_div_eq_div_mul, putBits_div n hi lo v h]
    rw [mul_comm, Nat.mul_add_div (by positivity), Nat.div_eq_of_lt (Nat.mod_lt _ (by positivity)), add_zero]
  have key (m : Nat) : bits m hi' lo' = m / 2 ^ (hi + 1) / 2 ^ (lo' - (hi + 1)) % 2 ^ (hi' + 1 - lo') := by
    unfold bits
    rw [Nat.div_div_eq_div_mul, ← pow_add, show hi + 1 + (lo' - (hi + 1)) = lo' by omega]
  rw [key, key, d]

theorem putBits_lt (n hi lo v : Nat) (h : lo ≤ hi) (k : hi < 32) (l : n < 2 ^ 32) : putBits n hi lo v < 2 ^ 32 := by
  have e : 2 ^ (hi + 1) = 2 ^ (hi + 1 - lo) * 2 ^ lo := by rw [← pow_add]; congr 1; omega
  have f : 2 ^ 32 = 2 ^ (32 - (hi + 1)) * 2 ^ (hi + 1) := by rw [← pow_add]; congr 1; omega
  have q : n / 2 ^ (hi + 1) < 2 ^ (32 - (hi + 1)) := by rw [Nat.div_lt_iff_lt_mul (by positivity), ← f]; exact l
  have r : v % 2 ^ (hi + 1 - lo) < 2 ^ (hi + 1 - lo) := Nat.mod_lt _ (by positivity)
  have t : n % 2 ^ lo < 2 ^ lo := Nat.mod_lt _ (by positivity)
  have u : v % 2 ^ (hi + 1 - lo) * 2 ^ lo + n % 2 ^ lo < 2 ^ (hi + 1) := by
    have g : (v % 2 ^ (hi + 1 - lo) + 1) * 2 ^ lo ≤ 2 ^ (hi + 1 - lo) * 2 ^ lo := Nat.mul_le_mul_right _ r
    rw [e]
    linarith [add_mul (v % 2 ^ (hi + 1 - lo)) 1 (2 ^ lo)]
  have w : (n / 2 ^ (hi + 1) + 1) * 2 ^ (hi + 1) ≤ 2 ^ (32 - (hi + 1)) * 2 ^ (hi + 1) := Nat.mul_le_mul_right _ q
  unfold putBits
  rw [f]
  linarith [add_mul (n / 2 ^ (hi + 1)) 1 (2 ^ (hi + 1))]

/-- What a field reads as after a write of it. -/
theorem State.setF_f_same (s : State) (x : Fld) (v : Nat) (h : x.lo ≤ x.hi) (k : x.hi < 32) :
    (s.setF x v).f x = v % 2 ^ (x.hi + 1 - x.lo) := by
  unfold State.f State.setF
  rw [State.setW_w_same, BitVec.toNat_ofNat, Nat.mod_eq_of_lt (putBits_lt _ _ _ _ h k (s.w x.addr).isLt), bits_putBits_same _ _ _ _ h]

/-- A write of a field leaves a field apart from it alone, in the same register or another. -/
theorem State.setF_f_apart (s : State) (x y : Fld) (v : Nat) (h : x.lo ≤ x.hi) (k : x.hi < 32) (l : y.lo ≤ y.hi)
    (a : y.addr ≠ x.addr ∨ y.hi < x.lo ∨ x.hi < y.lo) : (s.setF x v).f y = s.f y := by
  by_cases e : y.addr = x.addr
  · unfold State.f State.setF
    rw [e, State.setW_w_same, BitVec.toNat_ofNat, Nat.mod_eq_of_lt (putBits_lt _ _ _ _ h k (s.w x.addr).isLt)]
    rcases a with a | a | a
    · exact absurd e a
    · exact bits_putBits_below _ _ _ _ _ _ h a l
    · exact bits_putBits_above _ _ _ _ _ _ h a
  · exact State.setF_f_other s x y v e

/-- A field of a bitwise AND is the AND of the fields. -/
theorem bits_and (a b h l : Nat) : bits (a &&& b) h l = bits a h l &&& bits b h l := by
  apply Nat.eq_of_testBit_eq
  intro i
  simp only [bits, Nat.testBit_mod_two_pow, Nat.testBit_div_two_pow, Nat.testBit_and]
  cases decide (i < h + 1 - l) <;> simp

/-- A field of a bitwise OR is the OR of the fields. -/
theorem bits_or (a b h l : Nat) : bits (a ||| b) h l = bits a h l ||| bits b h l := by
  apply Nat.eq_of_testBit_eq
  intro i
  simp only [bits, Nat.testBit_mod_two_pow, Nat.testBit_div_two_pow, Nat.testBit_or]
  cases decide (i < h + 1 - l) <;> simp

/-- A bit of a number, as the library names it. -/
theorem bit_eq_testBit (n i : Nat) : bit n i = n.testBit i := by
  rw [bit, Nat.testBit_eq_decide_div_mod_eq]; rfl

/-- A bit of a bitwise AND. -/
theorem bit_and (a b k : Nat) : bit (a &&& b) k = (bit a k && bit b k) := by simp [bit_eq_testBit]

/-- A bit of a bitwise OR. -/
theorem bit_or (a b k : Nat) : bit (a ||| b) k = (bit a k || bit b k) := by simp [bit_eq_testBit]

/-- A bit of the OR of two words. -/
theorem wbit_or (a b : Word) (k : Nat) : wbit (a ||| b) k = (wbit a k || wbit b k) := by
  rw [wbit, BitVec.toNat_or, bit_or]; rfl

/-- A bit of the AND of two words. -/
theorem wbit_and (a b : Word) (k : Nat) : wbit (a &&& b) k = (wbit a k && wbit b k) := by
  rw [wbit, BitVec.toNat_and, bit_and]; rfl

/-- A multiple of the divisor that lies at or above the number. -/
theorem le_ceilDiv_mul (n d : Nat) (h : 0 < d) : n ≤ ceilDiv n d * d := by
  rw [ceilDiv]; have := Nat.div_add_mod (n + d - 1) d; have := Nat.mod_lt (n + d - 1) h
  rw [mul_comm]; omega

/-- Putting into a field what it holds changes nothing. -/
theorem putBits_bits (n hi lo : Nat) (h : lo ≤ hi) : putBits n hi lo (bits n hi lo) = n := by
  have e : 2 ^ (hi + 1) = 2 ^ lo * 2 ^ (hi + 1 - lo) := by rw [← pow_add]; congr 1; omega
  unfold putBits bits
  rw [Nat.mod_mod, e, ← Nat.div_div_eq_div_mul]
  have a := Nat.div_add_mod (n / 2 ^ lo) (2 ^ (hi + 1 - lo))
  have b := Nat.div_add_mod n (2 ^ lo)
  generalize n / 2 ^ lo / 2 ^ (hi + 1 - lo) = q at *
  generalize n / 2 ^ lo % 2 ^ (hi + 1 - lo) = r at *
  generalize n % 2 ^ lo = z at *
  rw [← a] at b
  rw [← b]; ring

/-- Writing into a field the value it has leaves every register as it reads. -/
theorem State.setF_w_of_f (s : State) (x : Fld) (v : Nat) (h : x.lo ≤ x.hi) (e : s.f x = v) (a : Nat) : (s.setF x v).w a = s.w a := by
  subst e
  by_cases k : a = x.addr
  · subst k
    unfold State.setF State.f
    rw [putBits_bits _ _ _ h, State.setW_w_same]; simp
  · unfold State.setF; rw [State.setW_w_other _ _ _ _ k]

end Sys2Proof.Machine
end

