-- ==== Sys2Proof/WellFormed.lean ====
section
/-!
DEFINITION. Which commands are well formed: every operand within the range that the spec gives it, where the operand's type does not say so.
-/

namespace Sys2Proof

/-- A system time in units of 1/65,536 ns: 48 bits of seconds (R77). -/
def stOk (t : Nat) : Bool := decide (t < 2 ^ 48 * 1000000000 * 65536)

/-- An instant in units of 1/(5 · 2^32) ns within 48 bits of seconds (R77). -/
def instantOk (t : Nat) : Bool := decide (t < 2 ^ 48 * 1000000000 * 5 * 2 ^ 32)

/-- A stamp of the 80-bit form in units of 1/65,536 ns: 32 bits of seconds (R78). -/
def stampOk (t : Nat) : Bool := decide (t < 2 ^ 32 * 1000000000 * 65536)

/-- A course number has 48 bits (R93). -/
def courseOk (n : Nat) : Bool := decide (n < 2 ^ 48)

/-- A scrub names an entry it cannot correct only in the trouble log (R480). -/
def scrubOk : Blk → Option (Fin 1024) → Bool
  | .log, _ => true
  | _, u => u.isNone


/-- Whether every operand of a command lies within the range the spec gives it. -/
def Instr.wf : Instr → Bool
  | .registerWrite _ _ _ => true
  | .rcRead _ _ => true
  | .lowWordRead _ _ _ => true
  | .crossingUncorr _ => true
  | .scrub b _ u => scrubOk b u
  | .hello _ _ _ _ _ _ => true
  | .routeAdd _ _ => true
  | .routeDel _ _ => true
  | .downstreamRoute _ _ payload => decide (payload.length ≤ 1024)
  | .relayHod _ _ _ payload => decide (payload.length ≤ 1024)
  | .convertSample _ _ _ _ tau => instantOk tau
  | .gainChange _ _ _ _ => true
  | .gainSettleDone _ _ => true
  | .tileCtlWrite _ _ _ _ => true
  | .tileApply _ _ _ => true
  | .tileWake _ => true
  | .tileReady _ trims => decide (trims.length = 17)
  | .tileSleep _ => true
  | .rotationBoundary _ => true
  | .handIn _ => true
  | .sliceCalDone _ _ => true
  | .handBack _ => true
  | .fadeResidualDone _ => true
  | .spareCalDone _ _ => true
  | .skewUpdate _ _ _ _ => true
  | .excCtlWrite _ _ _ _ => true
  | .excRampStep _ _ => true
  | .excFault _ _ => true
  | .tileUncorr _ => true
  | .stLoad _ _ => true
  | .gridPerWrite _ _ _ _ => true
  | .gridCtlWrite _ _ _ => true
  | .gridStop _ _ _ => true
  | .gridSyncAt _ _ => true
  | .gridSyncNextSec _ _ => true
  | .gridSyncCancel _ _ => true
  | .gridSyncInstant _ _ => true
  | .courseInstant _ _ tau => instantOk tau
  | .smplCtlWrite _ _ _ => true
  | .smplPhaseWrite _ _ => true
  | .mclkLockAcquired _ => true
  | .mclkRelock _ _ => true
  | .mclkLoss _ _ => true
  | .mclkReturn _ => true
  | .ppsInEdge t _ => stOk t
  | .ppsMiss => true
  | .todMessage _ _ => true
  | .ppsOutRise => true
  | .ppsOutFall => true
  | .rtcGo _ _ => true
  | .rtcFollow => true
  | .xtalStop => true
  | .fpConfigWrite _ _ _ _ _ => true
  | .coefWrite _ _ _ _ _ _ => true
  | .filterOutput _ _ => true
  | .fadeGo _ _ _ _ => true
  | .fadeBlendStart _ _ => true
  | .fadeDone _ _ => true
  | .detCtlWrite _ _ _ _ _ => true
  | .detectOutput _ _ => true
  | .feUncorr _ => true
  | .tuCtlWrite _ _ _ _ => true
  | .tuEvaluate _ n => courseOk n
  | .holdoffEnd _ => true
  | .tuAutoForce _ => true
  | .groupEvaluate _ n => courseOk n
  | .windowClose _ => true
  | .trigioPulseEnd _ => true
  | .storeRelease _ => true
  | .wsLinkWrite _ _ _ => true
  | .tgCtlWrite _ _ _ _ => true
  | .rpWrite _ _ _ _ => true
  | .deltaHeartbeat _ => true
  | .trigUncorr => true
  | .streamAdd _ _ ws => decide (ws.length ≤ 1024)
  | .streamDel _ _ ws => decide (ws.length ≤ 1024)
  | .sidFree _ => true
  | .seConfigWrite _ _ _ _ => true
  | .streamActivate _ _ _ => true
  | .streamDeactivate _ _ _ => true
  | .mcGo _ _ _ => true
  | .mcHalt _ _ _ => true
  | .masonHalted _ => true
  | .mcStop _ _ _ => true
  | .masonMemWrite _ _ _ _ => true
  | .doorbellWrite _ _ _ => true
  | .masonWake _ => true
  | .trapTaken _ => true
  | .masonUncorr _ _ => true
  | .begin _ _ ws => decide (ws.length ≤ 1024)
  | .data _ _ ws => decide (ws.length ≤ 1024)
  | .commit _ _ ws _ => decide (ws.length ≤ 1024)
  | .abort _ _ ws => decide (ws.length ≤ 1024)
  | .pqPush _ _ _ => true
  | .pqPop _ _ => true
  | .pqFlush _ _ _ => true
  | .pqOpen _ _ _ => true
  | .pqClose _ _ _ => true
  | .pqUncorr _ => true
  | .add _ _ _ _ => true
  | .sub _ _ _ _ => true
  | .and _ _ _ _ => true
  | .or _ _ _ _ => true
  | .xor _ _ _ _ => true
  | .sll _ _ _ _ => true
  | .srl _ _ _ _ => true
  | .sra _ _ _ _ => true
  | .slli _ _ _ _ => true
  | .srli _ _ _ _ => true
  | .srai _ _ _ _ => true
  | .slt _ _ _ _ => true
  | .sltu _ _ _ _ => true
  | .min _ _ _ _ => true
  | .max _ _ _ _ => true
  | .minu _ _ _ _ => true
  | .maxu _ _ _ _ => true
  | .mul _ _ _ _ => true
  | .mulh _ _ _ _ => true
  | .mulhu _ _ _ _ => true
  | .ctz _ _ _ => true
  | .clz _ _ _ => true
  | .popc _ _ _ => true
  | .cmp _ _ _ => true
  | .tst _ _ _ => true
  | .jr _ _ => true
  | .jalr _ _ _ => true
  | .addi _ _ _ _ => true
  | .andi _ _ _ _ => true
  | .ori _ _ _ _ => true
  | .xori _ _ _ _ => true
  | .slti _ _ _ _ => true
  | .sltiu _ _ _ _ => true
  | .lui _ _ _ => true
  | .cmpi _ _ _ => true
  | .ldw _ _ _ _ => true
  | .ldh _ _ _ _ => true
  | .ldhu _ _ _ _ => true
  | .ldb _ _ _ _ => true
  | .ldbu _ _ _ _ => true
  | .stw _ _ _ _ => true
  | .sth _ _ _ _ => true
  | .stb _ _ _ _ => true
  | .vld _ _ _ _ => true
  | .vst _ _ _ _ => true
  | .rld _ _ _ _ => true
  | .bCond _ _ _ => true
  | .bl _ _ => true
  | .vadd _ _ _ _ => true
  | .vsub _ _ _ _ => true
  | .vadds _ _ _ _ => true
  | .vsubs _ _ _ _ => true
  | .vmul _ _ _ _ => true
  | .vmulq _ _ _ _ => true
  | .vmin _ _ _ _ => true
  | .vmax _ _ _ _ => true
  | .vand _ _ _ _ => true
  | .vor _ _ _ _ => true
  | .vxor _ _ _ _ => true
  | .vcgt _ _ _ _ => true
  | .vceq _ _ _ _ => true
  | .vabs _ _ _ => true
  | .vpair _ _ _ => true
  | .vsat24 _ _ _ => true
  | .vmov _ _ _ => true
  | .vsplat _ _ _ => true
  | .vext _ _ _ _ => true
  | .vins _ _ _ _ => true
  | .vmask _ _ _ => true
  | .vmovmsk _ _ _ => true
  | .vredsum _ _ _ => true
  | .vredmax _ _ _ => true
  | .vredmin _ _ _ => true
  | .vargmax _ _ _ => true
  | .vslli _ _ _ _ => true
  | .vsrai _ _ _ _ => true
  | .vsrli _ _ _ _ => true
  | .vaddg _ _ _ _ => true
  | .vcgtg _ _ _ _ => true
  | .course _ _ _ => true
  | .courseW _ _ _ => true
  | .tget _ _ => true
  | .tgetc _ _ _ => true
  | .hopen _ _ _ _ => true
  | .hput _ _ _ _ => true
  | .hclose _ _ => true
  | .mark _ _ _ _ _ => true
  | .gap _ _ _ _ => true
  | .pqget _ _ _ => true
  | .pqput _ _ _ => true
  | .pqputn _ _ _ => true
  | .pqopen _ _ _ => true
  | .pqclose _ _ => true
  | .pqflush _ _ => true
  | .pqcnt _ _ _ => true
  | .wait _ _ _ _ => true
  | .evt _ _ _ => true
  | .trap _ _ => true
  | .rft _ => true
  | .mff _ _ => true
  | .mtf _ _ => true
  | .sprd _ _ _ => true
  | .sprw _ _ _ => true
  | .hodHandOn _ => true
  | .yardFlushExpire _ => true
  | .hodAdmit => true
  | .streamHodTransmit _ => true
  | .horizon _ ws => decide (ws.length ≤ 1024)
  | .rewind _ ws => decide (ws.length ≤ 1024)
  | .reserveHodWrite _ _ => true
  | .drainEnd => true
  | .yardScrub _ _ => true
  | .rsvUncorr => true
  | .yardSrefEnter => true
  | .ringCfgWrite _ _ _ => true
  | .pkCtlWrite _ _ _ => true
  | .blockEnd _ => true
  | .pcCtlWrite _ _ _ => true
  | .pcMresWrite _ _ _ => true
  | .pxGo _ _ => true
  | .pxJobEnd => true
  | .pressUncorr => true
  | .quadCtlWrite _ _ _ => true
  | .portRetrain _ _ _ => true
  | .detectDone _ => true
  | .trainingSet _ ts => decide (ts.groups.length = 16)
  | .orderDecide _ _ _ => true
  | .trainTimeout _ => true
  | .backoffExpire _ => true
  | .eqConverged _ _ _ => true
  | .laneDown _ _ => true
  | .losChange _ _ _ => true
  | .qpllLoss _ _ => true
  | .codeError _ _ => true
  | .groutSend _ => true
  | .groutReceive _ _ _ _ => true
  | .ebSlip _ => true
  | .eqFreeze _ => true
  | .laneCtlWrite _ _ _ => true
  | .prbsCtlWrite _ _ _ => true
  | .inj1 _ _ _ => true
  | .injb _ _ _ => true
  | .prbsLock _ => true
  | .prbsLockLost _ _ _ => true
  | .hodArrival _ lines => decide (lines.length ≤ 4)
  | .link _ _ _ _ _ _ _ => true
  | .linkHodSend _ => true
  | .replayTimeout _ => true
  | .linkSilent _ => true
  | .read _ _ ws => decide (ws.length ≤ 1024)
  | .write _ _ ws => decide (ws.length ≤ 1024)
  | .eventHodSend => true
  | .linkCfgWrite _ _ => true
  | .tReqSend _ t1 => stOk t1
  | .tReq _ _ _ t2 t3 => stOk t2 && stOk t3
  | .tResp _ _ _ _ t2 t3 t4 => stampOk t2 && stampOk t3 && stOk t4
  | .srcLost => true
  | .ttProbe _ _ t => stOk t
  | .tsqPop _ _ => true
  | .ttStepImmediate _ _ => true
  | .ttStepNextSec _ _ => true
  | .ttStepCancel _ _ => true
  | .forcedSlew _ _ => true
  | .timeStep => true
  | .timeSrcWrite _ _ => true
  | .ttAsymWrite _ _ _ => true
  | .ttCtlWrite _ _ => true
  | .apply _ _ _ => true
  | .reload _ => true
  | .fwBlock _ _ _ => true
  | .fwCommit _ _ _ => true
  | .meterSample _ _ tau => stOk tau
  | .intervalEnd _ _ => true
  | .meterRecordPlace _ => true
  | .sealOpen => true
  | .sealClose => true
  | .identityDone => true
  | .csUncorr => true
  | .mgpNop _ _ => true
  | .mgpRepeat _ _ => true
  | .mgpRead _ _ => true
  | .mgpWrite _ _ => true
  | .mgpAccessDone => true
  | .mgpResponseLoad => true
  | .modeOwnerWrite _ _ => true
  | .ownerForced _ _ => true
  | .ownerReleased _ => true
  | .guardConversion _ _ => true
  | .hkGo _ _ => true
  | .hkPeriodTick => true
  | .hkSeqEntry _ => true
  | .hkRunEnd => true
  | .hkCtlWrite _ _ => true
  | .por => true
  | .bor _ => true
  | .pin _ => true
  | .wdogExpire _ => true
  | .wdtKick _ _ => true
  | .soft _ _ _ => true
  | .debugReset _ => true
  | .clkf _ _ => true
  | .lockup _ => true
  | .nvBatchDone => true
  | .mainPowerGood => true
  | .optionLoad _ _ _ => true
  | .readA _ => true
  | .readB _ => true
  | .writeA _ _ => true
  | .writeB _ _ => true
  | .nvCmd _ _ _ => true
  | .releaseStep _ => true
  | .blkRst _ _ => true
  | .modeAcquire _ => true
  | .modeHold _ => true
  | .modeSafe _ => true
  | .modeDormant _ _ _ => true
  | .modeBringup _ => true
  | .safeEntry _ => true
  | .alertCtlWrite _ _ => true
  | .trigioCtlWrite _ _ _ => true
  | .segmentEnd _ _ _ _ => true
  | .kilnDone _ => true
  | .kilnGo _ _ => true
  | .intscan => true
  | .dbgReset _ => true
  | .extest _ _ => true
  | .samplePreload _ _ => true
  | .idcode => true
  | .clamp => true
  | .highz => true
  | .extestPulse _ _ => true
  | .extestTrain _ _ => true
  | .bypass => true
  | .logClear _ _ => true
  | .quadPllLock _ => true
  | .vddAonPowerOn => true
  | .rstNHigh => true
  | .vddCstLoss => true
  | .vddCstReturn => true
  | .vbatLoss => true
  | .mainPowerLoss => true

end Sys2Proof
end

