-- ==== Sys2Proof/Tests/Slice0.lean ====
section
/-!
SUPPORT. Tests of the model: that the checks of WellFormed refuse, that the hypotheses of the statements can be met, and single steps whose expected
results are worked out by hand from the rules named.
-/

namespace Sys2Proof.Tests

set_option Elab.async false

open Sys2Proof Sys2Proof.Machine

/-- A small state: reset, in a mode, with some fields set. -/
def tst (m : Nat) (fs : List (Fld × Nat)) : State := fs.foldl (fun s x => s.setF x.1 x.2) (State.reset.setF F.MODE_MODE m)

/-- A state in which mason 0 runs and stands at a word. -/
def ran (w : Word) : State := (tst 3 [(F.MC_STAT_STATE 0, 1)]).setBytes (imem 0) (natBE 4 w.toNat).reverse

/-- The words of a whole image of no words for mason 0. -/
def imageWords : List Word := [0x42524B31, 0x00010001, 0, 0, 40, 1, 0, 3727940072, 0x03000000, 0]

/-- A load session that holds them, and one that holds them in a RAW block. -/
def stagedProg : Prog := (⟨40, false, []⟩ : Prog).stage 0 imageWords
def packedProg : Prog := (⟨48, true, []⟩ : Prog).stage 0 (0x80000027 :: 2073908921 :: imageWords)

def staged : State := { tst 2 [] with prog := some stagedProg }
def packed : State := { tst 2 [] with prog := some packedProg }

/-- The load session's words, as COMMIT takes them of a compressed image, in the state that its request makes. -/
def unpacked (s : State) (ws : List Word) : State × Except Status (List Byte) := (s.pushReq 0 ⟨8, 2, 0, false⟩).pxJobEnd.expandStage ws

/-- A boot image A of mason 0, which holds a LEGAL image. -/
def bootable : State :=
  let s := ((tst 1 []).setNvBytes (nvBoot false) (wordsToBytes imageWords)).setW (R.OPT_CUR 3) 0x10000
  { s.setW (R.OPT_CUR 8) 0xFFFF with rel := 6, csDig := [(0, [0])] }

/-- Mason 0 stands at an `hput` while the crossing FIFO is full. -/
def hputFull : State :=
  { ((ran (encST 0x09 0 0 0 1)).setMason 0 ((Mason.init.setSlot 0 (some ⟨0, 0, [], 0, 0⟩)).put 1 1)).memStore (dmem 0) 0x10000000 with
    hputs := [(64000000, none)] }

/-- An entry of a stream that mason 0 writes. -/
def entryCtl : Word := 0x30000000

/-- A record of one channel, as the parser gives it. -/
def recOne : Cur := ⟨2, 0, 1, [(0, 0)], false, false, false, 0, 0, 0, true, false⟩

/-- The SHA-256 of one blank firmware block. -/
def blankSha : List Byte :=
  [0xf4, 0x7a, 0x8e, 0xc3, 0xe9, 0xaf, 0xf2, 0x31, 0x8d, 0x89, 0x69, 0x42, 0x28, 0x2a, 0xd4, 0xfe, 0x37, 0xd6, 0x39, 0x1c, 0x82, 0x91, 0x4f, 0x54,
    0xa5, 0xda, 0x8a, 0x37, 0xde, 0x13, 0x00, 0xc6]

theorem shaBlocks_append (n m : Nat) (ys : List Byte) :
    ∀ (h : List Nat) (xs : List Byte), xs.length = 64 * n → shaBlocks (n + m) h (xs ++ ys) = shaBlocks m (shaBlocks n h xs) ys := by
  induction n with
  | zero => intro h xs hx; obtain rfl : xs = [] := List.eq_nil_of_length_eq_zero (by omega); simp [shaBlocks]
  | succ n ih =>
    intro h xs hx
    rw [Nat.succ_add, shaBlocks, List.take_append_of_le_length (by omega), List.drop_append_of_le_length (by omega), ih _ _ (by simp; omega),
      shaBlocks]

/-- A quarter of a blank block. -/
def blankQ : List Byte := List.replicate 1024 0xFF

theorem sha_q1 : shaBlocks 16 shaStart blankQ =
    [0xd228e88a, 0xeec15b53, 0xd15a8b61, 0xfe7e5d7a, 0x66bfbc35, 0x5be59e37, 0xdafef5a9, 0xcc1dd357] := by decide +kernel
theorem sha_q2 : shaBlocks 16 [0xd228e88a, 0xeec15b53, 0xd15a8b61, 0xfe7e5d7a, 0x66bfbc35, 0x5be59e37, 0xdafef5a9, 0xcc1dd357] blankQ =
    [0x6a76d99e, 0xda7fb9e, 0x8927e6a1, 0x3e13fc0c, 0xf2445f57, 0xdd0bd263, 0x11ec0ebf, 0xa9f81bef] := by decide +kernel
theorem sha_q3 : shaBlocks 16 [0x6a76d99e, 0xda7fb9e, 0x8927e6a1, 0x3e13fc0c, 0xf2445f57, 0xdd0bd263, 0x11ec0ebf, 0xa9f81bef] blankQ =
    [0x62f2b37e, 0xc235159, 0x5f61cf85, 0x5843b0ef, 0xaf19e202, 0x34a0f2b1, 0x8a38b220, 0xa08b6770] := by decide +kernel
theorem sha_q4 : shaBlocks 16 [0x62f2b37e, 0xc235159, 0x5f61cf85, 0x5843b0ef, 0xaf19e202, 0x34a0f2b1, 0x8a38b220, 0xa08b6770] blankQ =
    [0x15d54dac, 0x61b2cb93, 0x9f86d662, 0x1af31dc1, 0x41cc12b4, 0x2d22d6fc, 0x70eda08b, 0x58569918] := by decide +kernel

theorem nvBytes_blank {s : State} (h : s.nvm = []) (n : Nat) : ∀ a, s.nvBytes a n = List.replicate n 0xFF := by
  induction n with
  | zero => intro a; rfl
  | succ n ih => intro a; simp only [State.nvBytes, State.nvByte, h, ih, List.replicate_succ]; rfl

/-- The SHA-256 of one blank firmware block is the published algorithm's. -/
theorem sha_blank : sha256 (List.replicate 4096 0xFF) = blankSha := by
  have e : (List.replicate 4096 0xFF : List Byte) = blankQ ++ (blankQ ++ (blankQ ++ blankQ)) := by
    simp only [blankQ, List.replicate_append_replicate]
  have l : blankQ.length = 64 * 16 := by rw [blankQ, List.length_replicate]
  rw [sha256, List.length_replicate, e, List.append_assoc, List.append_assoc, List.append_assoc]
  have k : ((blankQ ++ (blankQ ++ (blankQ ++ (blankQ ++ shaPad 4096)))).length / 64) = 16 + (16 + (16 + (16 + 1))) := by
    have p : (shaPad 4096).length = 64 := by decide
    simp only [List.length_append, l, p]
  rw [k, shaBlocks_append _ _ _ _ _ l, sha_q1, shaBlocks_append _ _ _ _ _ l, sha_q2, shaBlocks_append _ _ _ _ _ l, sha_q3,
    shaBlocks_append _ _ _ _ _ l, sha_q4]
  decide +kernel

theorem sha_of_blank {s : State} (h : s.nvm = []) (hc : s.b F.CS_STAT_FW_COPY = false) :
    sha256 (s.nvBytes (nvFw (!s.b F.CS_STAT_FW_COPY)) (4096 * (1 : BitVec 16).toNat)) = blankSha := by
  rw [hc, nvBytes_blank h]
  exact sha_blank

/-- The blank block's digest as the words of CS_FWDIG. -/
def blankDig : List Word := [0xf47a8ec3, 0xe9aff231, 0x8d896942, 0x282ad4fe, 0x37d6391c, 0x82914f54, 0xa5da8a37, 0xde1300c6]

/-- A hod with nothing in it. -/
def hod0 : Hod := { typ := 2, vc := 0, flags := 0, hid := 0, sub := 0, lseq := 0, payload := [] }

/-- Port 0 is UP on its lane 0. -/
def linked : State := tst 2 [(F.QUAD_STAT_PS0 0, 2), (F.LANE_STAT_INPORT 0, 1), (F.LANE_STAT_STATE 0, 6)]

/-- Symbols as one lane receives them from negative disparity on. -/
def wire (ys : List Sym) : List LineIn := [⟨true, (sendLine true ys).1⟩]

/-- A hod of type 1 with no payload and a sequence number, on the line. -/
def wired (seq : Nat) : List LineIn := wire ({ hod0 with typ := 1, lseq := seq } : Hod).frame

theorem stampDiff_self (a : Nat) : stampDiff a a = 0 := by simp [stampDiff]

/-- A training set of three bytes, as a lane receives it. -/
def tset (lane rate state : Nat) : TrainSet := ⟨0, 0, (sendLine true (tsOf lane rate state)).1⟩

/-- The image of the staged words. -/
def stagedImage : Image :=
  match readImage (wordsToBytes imageWords) with
  | .ok y => y
  | .error _ => ⟨0, 0, 0, false, [], []⟩

/-- The MRAM holds a kiln record with a valid CRC; its other words are blank. -/
def kilnKept : State :=
  (((tst 1 []).setW (R.OPT_CUR 8) 0xFFFF).setNvBytes nvKiln (wordsToBytes [0x4B494C4E, 0x1005C])).setNvBytes (nvKiln + 572) (wordBE 0xAFDEA029)

/-- The register of the CRC-32 over that record: after its first two words, and after every 47 blank bytes from there. -/
def kilnCrc : List Nat :=
  [0xC3FF9550, 0xED3FB1C1, 0x6B14A9EF, 0xC39461E1, 0xB71CFBC1, 0x234EFAB1, 0x505D53D0,
    0x18008E5A, 0x9C129A67, 0x63B0B239, 0x4EC3F7C2, 0x91F9C08B, 0x50215FD6]

theorem kilnCrc_next : ∀ k : Fin 12, (List.replicate 47 (0xFF : Byte)).foldl (fun c b => crcShift 0xEDB88320 8 (Nat.xor c b.toNat)) (kilnCrc.getD k 0) =
    kilnCrc.getD (k + 1) 0 := by decide +kernel

theorem kilnCrc_blank (n : Nat) (h : n ≤ 12) :
    (List.replicate (47 * n) (0xFF : Byte)).foldl (fun c b => crcShift 0xEDB88320 8 (Nat.xor c b.toNat)) (kilnCrc.getD 0 0) = kilnCrc.getD n 0 := by
  induction n with
  | zero => rfl
  | succ n ih =>
    rw [Nat.mul_succ, ← List.replicate_append_replicate, List.foldl_append, ih (by omega)]
    exact kilnCrc_next ⟨n, by omega⟩

theorem kilnKept_record : kilnKept.kilnRecord = 0x4B494C4E :: 0x1005C :: (List.replicate 141 0xFFFFFFFF ++ [0xAFDEA029]) := by decide +kernel

theorem kilnKept_valid : kilnValid kilnKept.kilnRecord = true := by
  have e : ((kilnKept.kilnRecord.take 143).flatMap (natBE 4)) = natBE 4 0x4B494C4E ++ natBE 4 0x1005C ++ List.replicate (47 * 12) 0xFF := by
    rw [kilnKept_record]; decide +kernel
  have c : crc32 ((kilnKept.kilnRecord.take 143).flatMap (natBE 4)) = 0xAFDEA029 := by
    rw [e, crc32, crcReflected, List.foldl_append]
    have h : (natBE 4 0x4B494C4E ++ natBE 4 0x1005C).foldl (fun c b => crcShift 0xEDB88320 8 (Nat.xor c b.toNat)) 0xFFFFFFFF = kilnCrc.getD 0 0 := by
      decide +kernel
    rw [h, kilnCrc_blank 12 (by omega)]
    rfl
  rw [kilnValid, c, kilnKept_record]
  decide +kernel

/-- The state that a command leaves (every command answers one). -/
def after (c : Instr) (s : State) : State :=
  match exec c s with
  | .next t => t
  | _ => s

/-! WellFormed: one ill-formed command for each check, refused, and well-formed ones, taken. -/

theorem test_wf_scrub : (Instr.scrub .trig 0 (some 0)).wf = false ∧ (Instr.scrub .log 0 (some 0)).wf = true := by decide
theorem test_wf_instant : (Instr.courseInstant 0 0 (2 ^ 48 * 1000000000 * 5 * 2 ^ 32)).wf = false ∧ (Instr.courseInstant 0 0 0).wf = true := by decide
theorem test_wf_st : (Instr.ppsInEdge (2 ^ 48 * 1000000000 * 65536) false).wf = false ∧ (Instr.ppsInEdge 0 false).wf = true := by decide
theorem test_wf_stamp : (Instr.tResp 0 0 0 0 (2 ^ 32 * 1000000000 * 65536) 0 0).wf = false ∧ (Instr.tResp 0 0 0 0 0 0 0).wf = true := by decide
theorem test_wf_course : (Instr.tuEvaluate 0 (2 ^ 48)).wf = false ∧ (Instr.tuEvaluate 0 (2 ^ 48 - 1)).wf = true := by decide
theorem test_wf_trims : (Instr.tileReady 0 []).wf = false ∧ (Instr.tileReady 0 (List.replicate 17 ⟨0, 0, 0⟩)).wf = true := by decide
theorem test_wf_words : (Instr.abort 0 0 (List.replicate 1025 0)).wf = false ∧ (Instr.abort 0 0 []).wf = true := by decide +kernel
theorem test_wf_payload : (Instr.downstreamRoute 0 0 (List.replicate 1025 0)).wf = false := by decide +kernel
theorem test_wf_set : (Instr.trainingSet 0 ⟨0, 0, []⟩).wf = false ∧ (Instr.trainingSet 0 ⟨0, 0, List.replicate 16 0⟩).wf = true := by decide
theorem test_wf_lines : (Instr.hodArrival 0 (List.replicate 5 ⟨true, []⟩)).wf = false ∧ (Instr.hodArrival 0 []).wf = true := by decide
theorem test_decode_no_row_has_bits : decodeTableWord 32 0 = none := by decide

/-! Checksums. The expected values are the published check values of CRC-32C and FIPS 180-4. -/

theorem test_crc32c : crc32c [0x31, 0x32, 0x33, 0x34, 0x35, 0x36, 0x37, 0x38, 0x39] = 0xE3069283 := by decide +kernel
theorem test_sha256 : (sha256 [0x61, 0x62, 0x63]).take 4 = [0xBA, 0x78, 0x16, 0xBF] := by decide +kernel

/-! Line coding (R312, R321). The groups are those of the published 8b/10b tables; the MAC is that of RFC 4231, test case 2. -/

theorem test_comma : encGroup true true 0xBC = (0x0FA, false) ∧ encGroup false true 0xBC = (0x305, true) := by decide +kernel
theorem test_d0_0 : encGroup true false 0 = (0x274, true) ∧ encGroup false false 0 = (0x18B, false) := by decide +kernel
theorem test_d21_5_alternates : encGroup true false 0xB5 = (0x2AA, true) ∧ encGroup false false 0xB5 = (0x2AA, false) := by decide +kernel
theorem test_bad_group : readGroup true 0x305 = .bad true ∧ readGroup true 0 = .bad false := by decide +kernel
theorem test_hmac : (hmac256 [0x4A, 0x65, 0x66, 0x65] ("what do ya want for nothing?".toUTF8.toList.map fun b => BitVec.ofNat 8 b.toNat)).take 4 =
    [0x5B, 0xDC, 0xC1, 0x46] := by decide +kernel

/-! Masons (R230 to R239, R200, R201). -/

theorem test_add_wraps : ((after (.add 0 1 2 3) ((ran (encG3 0 1 2 3 0)).setMason 0 ((Mason.init.put 2 0xFFFFFFFF).put 3 2))).mason 0).get 1 = 1 := by
  decide +kernel
theorem test_sub_in_place : ((after (.sub 0 2 2 3) ((ran (encG3 1 2 2 3 0)).setMason 0 ((Mason.init.put 2 1).put 3 2))).mason 0).get 2 = 0xFFFFFFFF := by
  decide +kernel
theorem test_g0_discards : ((after (.addi 0 0 0 5) (ran (encGI 1 0 0 5))).mason 0).get 0 = 0 := by decide +kernel
theorem test_sra_keeps_sign : ((after (.sra 0 1 2 3) ((ran (encG3 7 1 2 3 0)).setMason 0 ((Mason.init.put 2 0x80000000).put 3 63))).mason 0).get 1 =
    0xFFFFFFFF := by decide +kernel
theorem test_mulh_signed : ((after (.mulh 0 1 2 3) ((ran (encG3 0x11 1 2 3 0)).setMason 0 ((Mason.init.put 2 0xFFFFFFFF).put 3 1))).mason 0).get 1 =
    0xFFFFFFFF := by decide +kernel
theorem test_cmp_equal_sets_z_and_c : bits ((after (.cmp 0 1 1) (ran (encG3 0x18 0 1 1 0))).mason 0).fl 3 0 = 5 := by decide +kernel
theorem test_ldh_extends_sign : ((after (.ldh 0 1 0 4) ((ran (encGI 0x11 1 0 4)).memStore (dmem 0 + 4) 0x00008001)).mason 0).get 1 = 0xFFFF8001 := by
  decide +kernel
theorem test_stb_is_little_endian : (after (.stw 0 1 0 8) ((ran (encGI 0x15 1 0 8)).setMason 0 (Mason.init.put 1 0x11223344))).byte (dmem 0 + 8) = 0x44 := by
  decide +kernel
theorem test_vadds_saturates :
    let x := Mason.init.setLane 1 0 0x7FFFFFFF
    let t := after (.vadds 0 0 1 1) ((ran (encV3 2 0 1 1)).setMason 0 x)
    (t.mason 0).lane 0 0 = 0x7FFFFFFF ∧ (t.mason 0).flag 5 = true := by decide +kernel
theorem test_misaligned_load_traps : (after (.ldw 0 1 0 2) (ran (encGI 0x10 1 0 2))).f (F.MC_CAUSE_V 0) = 3 := by decide +kernel
theorem test_trap_saves_pc_and_immediate :
    let t := after (.trap 0 9) (ran (encSYS 2 0 0 9))
    t.f (F.MC_CAUSE_V 0) = 6 ∧ t.w (R.MC_TVAL 0) = 9 := by decide +kernel
theorem test_course_on_empty_inbox_is_busy : bits ((after (.course 0 1 0) (ran (encST 0 1 0 0 0))).mason 0).fl 15 8 = Status.busy.code := by
  decide +kernel
theorem test_another_word_is_not_run : (after (.add 0 1 2 3) (ran 0)).f (F.MC_STAT_STATE 0) = 1 ∧ (after (.sub 0 1 2 3) (ran 0)) = ran 0 := by
  decide +kernel

/-! Accesses (R2, R5, R29 to R31). -/

theorem test_misaligned_write_is_addr : (after (.registerWrite .host 0x40001 5) (tst 2 [])).cpl = ⟨.addr, []⟩ := by decide +kernel
theorem test_mason_cannot_write : (after (.registerWrite (.mason 0) 0x40018 5) (tst 2 [])).cpl.status = .addr := by decide +kernel
theorem test_reserved_bits_are_not_stored : (after (.registerWrite .host (BitVec.ofNat 32 (R.TU_HYST 0)) 0xFF000001) (tst 2 [])).w (R.TU_HYST 0) = 1 := by
  decide +kernel
theorem test_host_in_dormant_is_mode : (after (.registerWrite .host (BitVec.ofNat 32 (R.TU_HYST 0)) 1) (tst 0 [])).cpl.status = .mode := by decide +kernel
theorem test_pallet_push_then_pop :
    (after (.pqPop .host 3) (after (.pqPush .host 3 7) (tst 2 []))).cpl = ⟨.ok, [7]⟩ := by decide +kernel

/-! Time and tiles (R42, R80, R87, R97). -/

theorem test_st_carries_into_seconds : ({ tst 2 [(F.TIME_STAT_SEEDED, 1)] with rel := 0, st := secU - 4 * 65536 } : State).tick.st = secU := by
  decide +kernel
theorem test_period_below_12_5_ns : (after (.gridPerWrite .host 0 false 12) (tst 2 [])).cpl.status = .unsupported := by decide +kernel
theorem test_phase_beyond_its_range : (after (.smplPhaseWrite .host 8000) (tst 2 [(F.SMPL_CTL_VDIV, 125)])).cpl.status = .unsupported := by decide +kernel
theorem test_gain_code_5 : (after (.gainChange .host 0 0 5) (tst 2 [])).cpl.status = .unsupported := by decide +kernel
theorem test_pps_too_early : (after (.ppsInEdge (secU - 100001 * nsU) false)
    { tst 2 [] with pps := { Pps.init with last := some 0 } }).f F.TIME_EVT_EVT = 4 := by decide +kernel

/-! Triggers and streams (R150, R156, R182). -/

theorem test_holdoff_ends_after_its_courses :
    (after (.holdoffEnd 0) ((tst 3 [(F.TU_STAT_HOLDOFF 0, 1), (F.TU_HOLDOFF_V 0, 2)]).setTu 0 { Tu.init with trig := some 5, done := some 6 })).f
      (F.TU_STAT_HOLDOFF 0) = 1 ∧
    (after (.holdoffEnd 0) ((tst 3 [(F.TU_STAT_HOLDOFF 0, 1), (F.TU_HOLDOFF_V 0, 2)]).setTu 0 { Tu.init with trig := some 5, done := some 7 })).f
      (F.TU_STAT_HOLDOFF 0) = 0 := by decide +kernel
theorem test_delete_of_an_absent_stream : (after (.streamDel 0 0 [5]) (tst 2 [])).cpl.status = .addr := by decide +kernel
theorem test_horizon_of_an_absent_ring : (after (.horizon 0 [3, 0]) (tst 2 [])).f (F.RING_BAD_HORIZON 3) = 1 := by decide +kernel

/-! Modes, resets and supplies (R436 to R441, R455). -/

theorem test_acquire_from_hold : (after (.modeAcquire .host) (tst 2 [])).mode = 3 := by decide +kernel
theorem test_kiln_needs_hold : (after (.modeDormant .host false true) (tst 3 [])).cpl.status = .mode := by decide +kernel
theorem test_other_owner_is_busy : (after (.modeAcquire .host) (tst 2 [(F.MODE_OWNER_OWNER, 2)])).cpl.status = .busy := by decide +kernel
theorem test_first_expiry_only_warns :
    (after (.wdogExpire ⟨10 ^ 12, 0⟩) (tst 2 [(F.WDT_CTL_EN, 1)])).mode = 2 ∧ (after (.wdogExpire ⟨10 ^ 12, 0⟩) (tst 2 [(F.WDT_CTL_EN, 1)])).b F.WDT_STAT_WARN = true := by
  decide +kernel
theorem test_wrong_kick : (after (.wdtKick .host 0x4B48) (tst 2 [])).cpl.status = .unsupported := by decide +kernel
theorem test_power_good_starts_the_release : (after .mainPowerGood State.reset).rel = 2 := by decide +kernel
theorem test_por_holds_the_hub : (after .por (tst 2 [])).alive = false := by decide +kernel
theorem test_intscan_refused_while_sealed :
    (after .intscan (tst 2 [(F.CS_STAT_SEALED, 1)])).scan = false ∧ (after .intscan (tst 2 [(F.CS_STAT_SEALED, 0)])).scan = true := by decide +kernel
theorem test_short_pulse_is_ignored : (after (.pin ⟨999, 0⟩) (tst 3 [])).mode = 3 := by decide +kernel
theorem test_access_shorter_than_fab_tmo_goes_on : (after (.lockup ⟨.manager, 9, 0⟩) (tst 3 [(F.FAB_TMO_V, 10)])).mode = 3 := by decide +kernel
theorem test_det_val2_reads_zero_for_rms :
    ((tst 2 [(F.DET_VAL2_VALUE 0 0, 7), (F.DET_CTL_TYPE 0 0, 1)]).view (R.DET_VAL2 0 0)) = 0 ∧
    ((tst 2 [(F.DET_VAL2_VALUE 0 0, 7), (F.DET_CTL_TYPE 0 0, 0)]).view (R.DET_VAL2 0 0)) = 7 := by decide +kernel
theorem test_profiles_are_outside_a_trigger_test : testCovers 11 0 0x44000 = false ∧ testCovers 11 0 0x40000 = true := by decide +kernel

/-! The hypotheses of each statement, clause by clause, met by a concrete state and operands. -/

theorem witness_ScalarInstructionsWriteTheirResult_a :
    (∃ (s : State) (m : Fin 16) (gd : Fin 32) (ga : Fin 32) (gb : Fin 32), s.issues m (encG3 0x0 gd ga gb 0)) ∧
    (∃ (s : State) (m : Fin 16) (gd : Fin 32) (ga : Fin 32) (gb : Fin 32), s.issues m (encG3 0x1 gd ga gb 0)) ∧
    (∃ (s : State) (m : Fin 16) (gd : Fin 32) (ga : Fin 32) (gb : Fin 32), s.issues m (encG3 0x2 gd ga gb 0)) ∧
    (∃ (s : State) (m : Fin 16) (gd : Fin 32) (ga : Fin 32) (gb : Fin 32), s.issues m (encG3 0x3 gd ga gb 0)) ∧
    (∃ (s : State) (m : Fin 16) (gd : Fin 32) (ga : Fin 32) (gb : Fin 32), s.issues m (encG3 0x4 gd ga gb 0)) ∧
    (∃ (s : State) (m : Fin 16) (gd : Fin 32) (ga : Fin 32) (gb : Fin 32), s.issues m (encG3 0x5 gd ga gb 0)) ∧
    (∃ (s : State) (m : Fin 16) (gd : Fin 32) (ga : Fin 32) (gb : Fin 32), s.issues m (encG3 0x6 gd ga gb 0)) ∧
    (∃ (s : State) (m : Fin 16) (gd : Fin 32) (ga : Fin 32) (gb : Fin 32), s.issues m (encG3 0x7 gd ga gb 0)) ∧
    (∃ (s : State) (m : Fin 16) (gd : Fin 32) (ga : Fin 32) (gb : Fin 32), s.issues m (encG3 0xb gd ga gb 0)) ∧
    (∃ (s : State) (m : Fin 16) (gd : Fin 32) (ga : Fin 32) (gb : Fin 32), s.issues m (encG3 0xc gd ga gb 0)) ∧
    (∃ (s : State) (m : Fin 16) (gd : Fin 32) (ga : Fin 32) (gb : Fin 32), s.issues m (encG3 0xd gd ga gb 0)) ∧
    (∃ (s : State) (m : Fin 16) (gd : Fin 32) (ga : Fin 32) (gb : Fin 32), s.issues m (encG3 0xe gd ga gb 0)) := by
  refine ⟨⟨ran (encG3 0x0 0 0 0 0), 0, 0, 0, 0, ?_⟩,
    ⟨ran (encG3 0x1 0 0 0 0), 0, 0, 0, 0, ?_⟩,
    ⟨ran (encG3 0x2 0 0 0 0), 0, 0, 0, 0, ?_⟩,
    ⟨ran (encG3 0x3 0 0 0 0), 0, 0, 0, 0, ?_⟩,
    ⟨ran (encG3 0x4 0 0 0 0), 0, 0, 0, 0, ?_⟩,
    ⟨ran (encG3 0x5 0 0 0 0), 0, 0, 0, 0, ?_⟩,
    ⟨ran (encG3 0x6 0 0 0 0), 0, 0, 0, 0, ?_⟩,
    ⟨ran (encG3 0x7 0 0 0 0), 0, 0, 0, 0, ?_⟩,
    ⟨ran (encG3 0xb 0 0 0 0), 0, 0, 0, 0, ?_⟩,
    ⟨ran (encG3 0xc 0 0 0 0), 0, 0, 0, 0, ?_⟩,
    ⟨ran (encG3 0xd 0 0 0 0), 0, 0, 0, 0, ?_⟩,
    ⟨ran (encG3 0xe 0 0 0 0), 0, 0, 0, 0, ?_⟩⟩
  all_goals (try dsimp only [State.takes, State.issues])
  all_goals decide +kernel

theorem witness_ScalarInstructionsWriteTheirResult_b :
    (∃ (s : State) (m : Fin 16) (gd : Fin 32) (ga : Fin 32) (gb : Fin 32), s.issues m (encG3 0xf gd ga gb 0)) ∧
    (∃ (s : State) (m : Fin 16) (gd : Fin 32) (ga : Fin 32) (gb : Fin 32), s.issues m (encG3 0x10 gd ga gb 0)) ∧
    (∃ (s : State) (m : Fin 16) (gd : Fin 32) (ga : Fin 32) (gb : Fin 32), s.issues m (encG3 0x11 gd ga gb 0)) ∧
    (∃ (s : State) (m : Fin 16) (gd : Fin 32) (ga : Fin 32) (gb : Fin 32), s.issues m (encG3 0x12 gd ga gb 0)) ∧
    (∃ (s : State) (m : Fin 16) (gd : Fin 32) (ga : Fin 32) (gb : Fin 32), s.issues m (encG3 0x13 gd ga gb 0)) ∧
    (∃ (s : State) (m : Fin 16) (gd : Fin 32) (ga : Fin 32) (sh : Fin 32), s.issues m (encG3 0x8 gd ga 0 sh)) ∧
    (∃ (s : State) (m : Fin 16) (gd : Fin 32) (ga : Fin 32) (sh : Fin 32), s.issues m (encG3 0x9 gd ga 0 sh)) ∧
    (∃ (s : State) (m : Fin 16) (gd : Fin 32) (ga : Fin 32) (sh : Fin 32), s.issues m (encG3 0xa gd ga 0 sh)) ∧
    (∃ (s : State) (m : Fin 16) (gd : Fin 32) (ga : Fin 32), s.issues m (encG3 0x14 gd ga 0 0)) ∧
    (∃ (s : State) (m : Fin 16) (gd : Fin 32) (ga : Fin 32), s.issues m (encG3 0x15 gd ga 0 0)) ∧
    (∃ (s : State) (m : Fin 16) (gd : Fin 32) (ga : Fin 32), s.issues m (encG3 0x16 gd ga 0 0)) := by
  refine ⟨⟨ran (encG3 0xf 0 0 0 0), 0, 0, 0, 0, ?_⟩,
    ⟨ran (encG3 0x10 0 0 0 0), 0, 0, 0, 0, ?_⟩,
    ⟨ran (encG3 0x11 0 0 0 0), 0, 0, 0, 0, ?_⟩,
    ⟨ran (encG3 0x12 0 0 0 0), 0, 0, 0, 0, ?_⟩,
    ⟨ran (encG3 0x13 0 0 0 0), 0, 0, 0, 0, ?_⟩,
    ⟨ran (encG3 0x8 0 0 0 0), 0, 0, 0, 0, ?_⟩,
    ⟨ran (encG3 0x9 0 0 0 0), 0, 0, 0, 0, ?_⟩,
    ⟨ran (encG3 0xa 0 0 0 0), 0, 0, 0, 0, ?_⟩,
    ⟨ran (encG3 0x14 0 0 0 0), 0, 0, 0, ?_⟩,
    ⟨ran (encG3 0x15 0 0 0 0), 0, 0, 0, ?_⟩,
    ⟨ran (encG3 0x16 0 0 0 0), 0, 0, 0, ?_⟩⟩
  all_goals (try dsimp only [State.takes, State.issues])
  all_goals decide +kernel

theorem witness_CompareAndTestSetTheFlags :
    (∃ (s : State) (m : Fin 16) (ga : Fin 32) (gb : Fin 32), s.issues m (encG3 0x18 0 ga gb 0)) ∧
    (∃ (s : State) (m : Fin 16) (ga : Fin 32) (gb : Fin 32), s.issues m (encG3 0x19 0 ga gb 0)) ∧
    (∃ (s : State) (m : Fin 16) (ga : Fin 32) (imm : BitVec 16), s.issues m (encGI 8 0 ga imm.toNat)) := by
  refine ⟨⟨ran (encG3 0x18 0 0 0 0), 0, 0, 0, ?_⟩,
    ⟨ran (encG3 0x19 0 0 0 0), 0, 0, 0, ?_⟩,
    ⟨ran (encGI 8 0 0 0), 0, 0, 0, ?_⟩⟩
  all_goals (try dsimp only [State.takes, State.issues])
  all_goals decide +kernel

theorem witness_ImmediateInstructionsWriteTheirResult :
    (∃ (s : State) (m : Fin 16) (gd : Fin 32) (ga : Fin 32) (imm : BitVec 16), s.issues m (encGI 1 gd ga imm.toNat)) ∧
    (∃ (s : State) (m : Fin 16) (gd : Fin 32) (ga : Fin 32) (imm : BitVec 16), s.issues m (encGI 2 gd ga imm.toNat)) ∧
    (∃ (s : State) (m : Fin 16) (gd : Fin 32) (ga : Fin 32) (imm : BitVec 16), s.issues m (encGI 3 gd ga imm.toNat)) ∧
    (∃ (s : State) (m : Fin 16) (gd : Fin 32) (ga : Fin 32) (imm : BitVec 16), s.issues m (encGI 4 gd ga imm.toNat)) ∧
    (∃ (s : State) (m : Fin 16) (gd : Fin 32) (ga : Fin 32) (imm : BitVec 16), s.issues m (encGI 5 gd ga imm.toNat)) ∧
    (∃ (s : State) (m : Fin 16) (gd : Fin 32) (ga : Fin 32) (imm : BitVec 16), s.issues m (encGI 6 gd ga imm.toNat)) ∧
    (∃ (s : State) (m : Fin 16) (gd : Fin 32) (imm : BitVec 16), s.issues m (encGI 7 gd 0 imm.toNat)) := by
  refine ⟨⟨ran (encGI 1 0 0 0), 0, 0, 0, 0, ?_⟩,
    ⟨ran (encGI 2 0 0 0), 0, 0, 0, 0, ?_⟩,
    ⟨ran (encGI 3 0 0 0), 0, 0, 0, 0, ?_⟩,
    ⟨ran (encGI 4 0 0 0), 0, 0, 0, 0, ?_⟩,
    ⟨ran (encGI 5 0 0 0), 0, 0, 0, 0, ?_⟩,
    ⟨ran (encGI 6 0 0 0), 0, 0, 0, 0, ?_⟩,
    ⟨ran (encGI 7 0 0 0), 0, 0, 0, ?_⟩⟩
  all_goals (try dsimp only [State.takes, State.issues])
  all_goals decide +kernel

theorem witness_LoadsReadLittleEndianDataMemory :
    (∃ (s : State) (m : Fin 16) (gd : Fin 32) (ga : Fin 32) (off : BitVec 16),
      let x := s.mason m;
      let a := (x.get ga + off.signExtend 32).toNat;
      let fits (n align : Nat) : Prop := a % align = 0 ∧ a + n ≤ 131072 ∧ s.badRange (dmem m + a) n = false;
      s.issues m (encGI 0x10 gd ga off.toNat) ∧ fits 4 4) ∧
    (∃ (s : State) (m : Fin 16) (gd : Fin 32) (ga : Fin 32) (off : BitVec 16),
      let x := s.mason m;
      let a := (x.get ga + off.signExtend 32).toNat;
      let fits (n align : Nat) : Prop := a % align = 0 ∧ a + n ≤ 131072 ∧ s.badRange (dmem m + a) n = false;
      s.issues m (encGI 0x11 gd ga off.toNat) ∧ fits 2 2) ∧
    (∃ (s : State) (m : Fin 16) (gd : Fin 32) (ga : Fin 32) (off : BitVec 16),
      let x := s.mason m;
      let a := (x.get ga + off.signExtend 32).toNat;
      let fits (n align : Nat) : Prop := a % align = 0 ∧ a + n ≤ 131072 ∧ s.badRange (dmem m + a) n = false;
      s.issues m (encGI 0x12 gd ga off.toNat) ∧ fits 2 2) ∧
    (∃ (s : State) (m : Fin 16) (gd : Fin 32) (ga : Fin 32) (off : BitVec 16),
      let x := s.mason m;
      let a := (x.get ga + off.signExtend 32).toNat;
      let fits (n align : Nat) : Prop := a % align = 0 ∧ a + n ≤ 131072 ∧ s.badRange (dmem m + a) n = false;
      s.issues m (encGI 0x13 gd ga off.toNat) ∧ fits 1 1) ∧
    (∃ (s : State) (m : Fin 16) (gd : Fin 32) (ga : Fin 32) (off : BitVec 16),
      let x := s.mason m;
      let a := (x.get ga + off.signExtend 32).toNat;
      let fits (n align : Nat) : Prop := a % align = 0 ∧ a + n ≤ 131072 ∧ s.badRange (dmem m + a) n = false;
      s.issues m (encGI 0x14 gd ga off.toNat) ∧ fits 1 1) ∧
    (∃ (s : State) (m : Fin 16) (ga : Fin 32) (off : BitVec 16) (vd : Fin 8),
      let x := s.mason m;
      let a := (x.get ga + off.signExtend 32).toNat;
      let fits (n align : Nat) : Prop := a % align = 0 ∧ a + n ≤ 131072 ∧ s.badRange (dmem m + a) n = false;
      s.issues m (encGI 0x18 vd ga off.toNat) ∧ fits 64 4) ∧
    (∃ (s : State) (m : Fin 16) (gd : Fin 32) (ga : Fin 32) (off : BitVec 16), s.issues m (encGI 0x10 gd ga off.toNat)) ∧
    (∃ (s : State) (m : Fin 16) (gd : Fin 32) (ga : Fin 32) (off : BitVec 16), s.issues m (encGI 0x11 gd ga off.toNat)) ∧
    (∃ (s : State) (m : Fin 16) (gd : Fin 32) (ga : Fin 32) (off : BitVec 16), s.issues m (encGI 0x12 gd ga off.toNat)) ∧
    (∃ (s : State) (m : Fin 16) (gd : Fin 32) (ga : Fin 32) (off : BitVec 16), s.issues m (encGI 0x13 gd ga off.toNat)) ∧
    (∃ (s : State) (m : Fin 16) (gd : Fin 32) (ga : Fin 32) (off : BitVec 16), s.issues m (encGI 0x14 gd ga off.toNat)) ∧
    (∃ (s : State) (m : Fin 16) (ga : Fin 32) (off : BitVec 16) (vd : Fin 8), s.issues m (encGI 0x18 vd ga off.toNat)) := by
  refine ⟨⟨ran (encGI 0x10 0 0 0), 0, 0, 0, 0, ?_⟩,
    ⟨ran (encGI 0x11 0 0 0), 0, 0, 0, 0, ?_⟩,
    ⟨ran (encGI 0x12 0 0 0), 0, 0, 0, 0, ?_⟩,
    ⟨ran (encGI 0x13 0 0 0), 0, 0, 0, 0, ?_⟩,
    ⟨ran (encGI 0x14 0 0 0), 0, 0, 0, 0, ?_⟩,
    ⟨ran (encGI 0x18 0 0 0), 0, 0, 0, 0, ?_⟩,
    ⟨ran (encGI 0x10 0 0 0), 0, 0, 0, 0, ?_⟩,
    ⟨ran (encGI 0x11 0 0 0), 0, 0, 0, 0, ?_⟩,
    ⟨ran (encGI 0x12 0 0 0), 0, 0, 0, 0, ?_⟩,
    ⟨ran (encGI 0x13 0 0 0), 0, 0, 0, 0, ?_⟩,
    ⟨ran (encGI 0x14 0 0 0), 0, 0, 0, 0, ?_⟩,
    ⟨ran (encGI 0x18 0 0 0), 0, 0, 0, 0, ?_⟩⟩
  all_goals (try dsimp only [State.takes, State.issues])
  all_goals decide +kernel

theorem witness_StoresWriteLittleEndianDataMemory :
    (∃ (s : State) (m : Fin 16) (gs : Fin 32) (ga : Fin 32) (off : BitVec 16),
      let x := s.mason m;
      let a := (x.get ga + off.signExtend 32).toNat;
      s.issues m (encGI 0x15 gs ga off.toNat) ∧ a % 4 = 0 ∧ a + 4 ≤ 131072) ∧
    (∃ (s : State) (m : Fin 16) (gs : Fin 32) (ga : Fin 32) (off : BitVec 16),
      let x := s.mason m;
      let a := (x.get ga + off.signExtend 32).toNat;
      s.issues m (encGI 0x16 gs ga off.toNat) ∧ a % 2 = 0 ∧ a + 2 ≤ 131072) ∧
    (∃ (s : State) (m : Fin 16) (gs : Fin 32) (ga : Fin 32) (off : BitVec 16),
      let x := s.mason m;
      let a := (x.get ga + off.signExtend 32).toNat;
      s.issues m (encGI 0x17 gs ga off.toNat) ∧ a % 1 = 0 ∧ a + 1 ≤ 131072) ∧
    (∃ (s : State) (m : Fin 16) (gs : Fin 32) (ga : Fin 32) (off : BitVec 16), s.issues m (encGI 0x15 gs ga off.toNat)) ∧
    (∃ (s : State) (m : Fin 16) (gs : Fin 32) (ga : Fin 32) (off : BitVec 16), s.issues m (encGI 0x16 gs ga off.toNat)) ∧
    (∃ (s : State) (m : Fin 16) (gs : Fin 32) (ga : Fin 32) (off : BitVec 16), s.issues m (encGI 0x17 gs ga off.toNat)) := by
  refine ⟨⟨ran (encGI 0x15 0 0 0), 0, 0, 0, 0, ?_⟩,
    ⟨ran (encGI 0x16 0 0 0), 0, 0, 0, 0, ?_⟩,
    ⟨ran (encGI 0x17 0 0 0), 0, 0, 0, 0, ?_⟩,
    ⟨ran (encGI 0x15 0 0 0), 0, 0, 0, 0, ?_⟩,
    ⟨ran (encGI 0x16 0 0 0), 0, 0, 0, 0, ?_⟩,
    ⟨ran (encGI 0x17 0 0 0), 0, 0, 0, 0, ?_⟩⟩
  all_goals (try dsimp only [State.takes, State.issues])
  all_goals decide +kernel

theorem witness_VectorMemoryAndRegisterLoad :
    (∃ (s : State) (m : Fin 16) (ga : Fin 32) (vs : Fin 8) (off : BitVec 16),
      let x := s.mason m;
      let a := (x.get ga + off.signExtend 32).toNat;
      s.issues m (encGI 0x19 vs ga off.toNat) ∧ a % 4 = 0 ∧ a + 64 ≤ 131072) ∧
    (∃ (s : State) (m : Fin 16) (ga : Fin 32) (vs : Fin 8) (off : BitVec 16),
      let x := s.mason m;
      let a := (x.get ga + off.signExtend 32).toNat;
      s.issues m (encGI 0x19 vs ga off.toNat) ∧ a % 4 ≠ 0) ∧
    (∃ (s : State) (m : Fin 16) (ga : Fin 32) (vs : Fin 8) (off : BitVec 16),
      let x := s.mason m;
      let a := (x.get ga + off.signExtend 32).toNat;
      s.issues m (encGI 0x19 vs ga off.toNat) ∧ a % 4 = 0 ∧ 131072 < a + 64) ∧
    (∃ (s : State) (m : Fin 16) (gd : Fin 32) (ga : Fin 32) (off : BitVec 16),
      let x := s.mason m;
      let a := (x.get ga + off.signExtend 32).toNat;
      s.issues m (encGI 0x1A gd ga off.toNat) ∧ s.mapStop (.mason m) a false = none) ∧
    (∃ (s : State) (m : Fin 16) (gd : Fin 32) (ga : Fin 32) (off : BitVec 16),
      let x := s.mason m;
      let a := (x.get ga + off.signExtend 32).toNat;
      s.issues m (encGI 0x1A gd ga off.toNat) ∧ s.mapStop (.mason m) a false ≠ none) := by
  refine ⟨⟨ran (encGI 0x19 0 0 0), 0, 0, 0, 0, ?_⟩,
    ⟨((ran (encGI 0x19 0 1 0))).setMason 0 (Mason.init.put 1 2), 0, 1, 0, 0, ?_⟩,
    ⟨((ran (encGI 0x19 0 1 0))).setMason 0 (Mason.init.put 1 131072), 0, 1, 0, 0, ?_⟩,
    ⟨ran (encGI 0x1A 0 0 0), 0, 0, 0, 0, ?_⟩,
    ⟨ran (encGI 0x1A 0 0 1), 0, 0, 0, 1, ?_⟩⟩
  all_goals (try dsimp only [State.takes, State.issues])
  all_goals decide +kernel

theorem witness_TransfersOfControl :
    (∃ (s : State) (m : Fin 16) (ga : Fin 32),
      let x := s.mason m;
      let g := (x.get ga).toNat;
      let inside (n : Nat) : Prop := n % 4 = 0 ∧ n < 65536;
      s.issues m (encG3 0x1C 0 ga 0 0) ∧ inside g) ∧
    (∃ (s : State) (m : Fin 16) (gd : Fin 32) (ga : Fin 32),
      let x := s.mason m;
      let g := (x.get ga).toNat;
      let inside (n : Nat) : Prop := n % 4 = 0 ∧ n < 65536;
      s.issues m (encG3 0x1D gd ga 0 0) ∧ inside g) ∧
    (∃ (s : State) (m : Fin 16) (cond : BitVec 5) (off : BitVec 21),
      let x := s.mason m;
      let dest := (BitVec.ofNat 32 x.pc + off.signExtend 32 * 4).toNat;
      let inside (n : Nat) : Prop := n % 4 = 0 ∧ n < 65536;
      s.issues m (encBR 0x20 cond.toNat off.toNat) ∧ x.cond cond.toNat = some true ∧ inside dest) ∧
    (∃ (s : State) (m : Fin 16) (cond : BitVec 5) (off : BitVec 21),
      let x := s.mason m;
      s.issues m (encBR 0x20 cond.toNat off.toNat) ∧ x.cond cond.toNat = some false) ∧
    (∃ (s : State) (m : Fin 16) (off : BitVec 21),
      let x := s.mason m;
      let dest := (BitVec.ofNat 32 x.pc + off.signExtend 32 * 4).toNat;
      let inside (n : Nat) : Prop := n % 4 = 0 ∧ n < 65536;
      s.issues m (encBR 0x21 0 off.toNat) ∧ inside dest) := by
  refine ⟨⟨ran (encG3 0x1C 0 0 0 0), 0, 0, ?_⟩,
    ⟨ran (encG3 0x1D 0 0 0 0), 0, 0, 0, ?_⟩,
    ⟨ran (encBR 0x20 0 0), 0, 0, 0, ?_⟩,
    ⟨ran (encBR 0x20 1 0), 0, 1, 0, ?_⟩,
    ⟨ran (encBR 0x21 0 0), 0, 0, ?_⟩⟩
  all_goals (try dsimp only [State.takes, State.issues])
  all_goals decide +kernel

theorem witness_VectorInstructionsWriteTheirLanes :
    (∃ (s : State) (m : Fin 16) (vd : Fin 8) (va : Fin 8) (vb : Fin 8), s.issues m (encV3 0x0 vd va vb)) ∧
    (∃ (s : State) (m : Fin 16) (vd : Fin 8) (va : Fin 8) (vb : Fin 8), s.issues m (encV3 0x1 vd va vb)) ∧
    (∃ (s : State) (m : Fin 16) (vd : Fin 8) (va : Fin 8) (vb : Fin 8), s.issues m (encV3 0x4 vd va vb)) ∧
    (∃ (s : State) (m : Fin 16) (vd : Fin 8) (va : Fin 8) (vb : Fin 8), s.issues m (encV3 0x6 vd va vb)) ∧
    (∃ (s : State) (m : Fin 16) (vd : Fin 8) (va : Fin 8) (vb : Fin 8), s.issues m (encV3 0x7 vd va vb)) ∧
    (∃ (s : State) (m : Fin 16) (vd : Fin 8) (va : Fin 8) (vb : Fin 8), s.issues m (encV3 0x8 vd va vb)) ∧
    (∃ (s : State) (m : Fin 16) (vd : Fin 8) (va : Fin 8) (vb : Fin 8), s.issues m (encV3 0x9 vd va vb)) ∧
    (∃ (s : State) (m : Fin 16) (vd : Fin 8) (va : Fin 8) (vb : Fin 8), s.issues m (encV3 0xa vd va vb)) ∧
    (∃ (s : State) (m : Fin 16) (vd : Fin 8) (va : Fin 8) (vb : Fin 8), s.issues m (encV3 0xb vd va vb)) ∧
    (∃ (s : State) (m : Fin 16) (vd : Fin 8) (va : Fin 8) (vb : Fin 8), s.issues m (encV3 0xc vd va vb)) ∧
    (∃ (s : State) (m : Fin 16) (vd : Fin 8) (va : Fin 8), s.issues m (encV3 0xE vd va 0)) ∧
    (∃ (s : State) (m : Fin 16) (vd : Fin 8) (va : Fin 8), s.issues m (encV3 0x10 vd va 0)) ∧
    (∃ (s : State) (m : Fin 16) (vd : Fin 8) (va : Fin 8) (sh : Fin 32), s.issues m (encVS 0x9 vd va 0 sh)) ∧
    (∃ (s : State) (m : Fin 16) (vd : Fin 8) (va : Fin 8) (sh : Fin 32), s.issues m (encVS 0xa vd va 0 sh)) ∧
    (∃ (s : State) (m : Fin 16) (vd : Fin 8) (va : Fin 8) (sh : Fin 32), s.issues m (encVS 0xb vd va 0 sh)) := by
  refine ⟨⟨ran (encV3 0x0 0 0 0), 0, 0, 0, 0, ?_⟩,
    ⟨ran (encV3 0x1 0 0 0), 0, 0, 0, 0, ?_⟩,
    ⟨ran (encV3 0x4 0 0 0), 0, 0, 0, 0, ?_⟩,
    ⟨ran (encV3 0x6 0 0 0), 0, 0, 0, 0, ?_⟩,
    ⟨ran (encV3 0x7 0 0 0), 0, 0, 0, 0, ?_⟩,
    ⟨ran (encV3 0x8 0 0 0), 0, 0, 0, 0, ?_⟩,
    ⟨ran (encV3 0x9 0 0 0), 0, 0, 0, 0, ?_⟩,
    ⟨ran (encV3 0xa 0 0 0), 0, 0, 0, 0, ?_⟩,
    ⟨ran (encV3 0xb 0 0 0), 0, 0, 0, 0, ?_⟩,
    ⟨ran (encV3 0xc 0 0 0), 0, 0, 0, 0, ?_⟩,
    ⟨ran (encV3 0xE 0 0 0), 0, 0, 0, ?_⟩,
    ⟨ran (encV3 0x10 0 0 0), 0, 0, 0, ?_⟩,
    ⟨ran (encVS 0x9 0 0 0 0), 0, 0, 0, 0, ?_⟩,
    ⟨ran (encVS 0xa 0 0 0 0), 0, 0, 0, 0, ?_⟩,
    ⟨ran (encVS 0xb 0 0 0 0), 0, 0, 0, 0, ?_⟩⟩
  all_goals (try dsimp only [State.takes, State.issues])
  all_goals decide +kernel

theorem witness_SaturatingVectorInstructions :
    (∃ (s : State) (m : Fin 16) (vd : Fin 8) (va : Fin 8) (vb : Fin 8), s.issues m (encV3 0x2 vd va vb)) ∧
    (∃ (s : State) (m : Fin 16) (vd : Fin 8) (va : Fin 8) (vb : Fin 8), s.issues m (encV3 0x3 vd va vb)) ∧
    (∃ (s : State) (m : Fin 16) (vd : Fin 8) (va : Fin 8) (vb : Fin 8), s.issues m (encV3 0x5 vd va vb)) ∧
    (∃ (s : State) (m : Fin 16) (vd : Fin 8) (va : Fin 8), s.issues m (encV3 0xD vd va 0)) ∧
    (∃ (s : State) (m : Fin 16) (vd : Fin 8) (va : Fin 8), s.issues m (encV3 0xF vd va 0)) ∧
    (∃ (s : State) (m : Fin 16) (va : Fin 8) (gd : Fin 32), s.issues m (encVS 0x5 0 va gd 0)) := by
  refine ⟨⟨ran (encV3 0x2 0 0 0), 0, 0, 0, 0, ?_⟩,
    ⟨ran (encV3 0x3 0 0 0), 0, 0, 0, 0, ?_⟩,
    ⟨ran (encV3 0x5 0 0 0), 0, 0, 0, 0, ?_⟩,
    ⟨ran (encV3 0xD 0 0 0), 0, 0, 0, ?_⟩,
    ⟨ran (encV3 0xF 0 0 0), 0, 0, 0, ?_⟩,
    ⟨ran (encVS 0x5 0 0 0 0), 0, 0, 0, ?_⟩⟩
  all_goals (try dsimp only [State.takes, State.issues])
  all_goals decide +kernel

theorem witness_VectorScalarInstructions :
    (∃ (s : State) (m : Fin 16) (vd : Fin 8) (ga : Fin 32), s.issues m (encVS 0x0 vd 0 ga 0)) ∧
    (∃ (s : State) (m : Fin 16) (va : Fin 8) (gd : Fin 32) (lane : Fin 16), s.issues m (encVS 0x1 0 va gd lane)) ∧
    (∃ (s : State) (m : Fin 16) (vd : Fin 8) (ga : Fin 32) (lane : Fin 16), s.issues m (encVS 0x2 vd 0 ga lane)) ∧
    (∃ (s : State) (m : Fin 16) (vd : Fin 8) (ga : Fin 32), s.issues m (encVS 0x3 vd 0 ga 0)) ∧
    (∃ (s : State) (m : Fin 16) (va : Fin 8) (gd : Fin 32), s.issues m (encVS 0x4 0 va gd 0)) ∧
    (∃ (s : State) (m : Fin 16) (va : Fin 8) (gd : Fin 32), s.issues m (encVS 0x6 0 va gd 0)) ∧
    (∃ (s : State) (m : Fin 16) (va : Fin 8) (gd : Fin 32), s.issues m (encVS 0x7 0 va gd 0)) ∧
    (∃ (s : State) (m : Fin 16) (va : Fin 8) (gd : Fin 32), s.issues m (encVS 0x8 0 va gd 0)) ∧
    (∃ (s : State) (m : Fin 16) (vd : Fin 8) (va : Fin 8) (ga : Fin 32), s.issues m (encVS 0xC vd va ga 0)) ∧
    (∃ (s : State) (m : Fin 16) (vd : Fin 8) (va : Fin 8) (ga : Fin 32), s.issues m (encVS 0xD vd va ga 0)) := by
  refine ⟨⟨ran (encVS 0x0 0 0 0 0), 0, 0, 0, ?_⟩,
    ⟨ran (encVS 0x1 0 0 0 0), 0, 0, 0, 0, ?_⟩,
    ⟨ran (encVS 0x2 0 0 0 0), 0, 0, 0, 0, ?_⟩,
    ⟨ran (encVS 0x3 0 0 0 0), 0, 0, 0, ?_⟩,
    ⟨ran (encVS 0x4 0 0 0 0), 0, 0, 0, ?_⟩,
    ⟨ran (encVS 0x6 0 0 0 0), 0, 0, 0, ?_⟩,
    ⟨ran (encVS 0x7 0 0 0 0), 0, 0, 0, ?_⟩,
    ⟨ran (encVS 0x8 0 0 0 0), 0, 0, 0, ?_⟩,
    ⟨ran (encVS 0xC 0 0 0 0), 0, 0, 0, 0, ?_⟩,
    ⟨ran (encVS 0xD 0 0 0 0), 0, 0, 0, 0, ?_⟩⟩
  all_goals (try dsimp only [State.takes, State.issues])
  all_goals decide +kernel

theorem witness_CourseAndTimeInstructions :
    (∃ (s : State) (m : Fin 16) (gd : Fin 32) (vd : Fin 8) (p : List Word) (ps : List (List Word)),
      let x := s.mason m;
      s.issues m (encST 0x00 gd vd 0 0) ∧ groupOk gd = true ∧ x.inbox = p :: ps) ∧
    (∃ (s : State) (m : Fin 16) (gd : Fin 32) (vd : Fin 8),
      let x := s.mason m;
      s.issues m (encST 0x00 gd vd 0 0) ∧ groupOk gd = true ∧ x.inbox = []) ∧
    (∃ (s : State) (m : Fin 16) (gd : Fin 32) (vd : Fin 8) (p : List Word) (ps : List (List Word)),
      let x := s.mason m;
      s.issues m (encST 0x01 gd vd 0 0) ∧ groupOk gd = true ∧ x.inbox = p :: ps) ∧
    (∃ (s : State) (m : Fin 16) (gd : Fin 32) (vd : Fin 8),
      let x := s.mason m;
      s.issues m (encST 0x01 gd vd 0 0) ∧ groupOk gd = true ∧ x.inbox = []) ∧
    (∃ (s : State) (m : Fin 16) (gd : Fin 32), s.issues m (encST 0x02 gd 0 0 0) ∧ groupOk gd = true) ∧
    (∃ (s : State) (m : Fin 16) (gd : Fin 32) (ga : Fin 32),
      let x := s.mason m;
      let g := (x.get ga).toNat;
      s.issues m (encST 0x03 gd ga 0 0) ∧ pairOk gd = true ∧ g ≤ 3 ∧ s.running g = true) := by
  refine ⟨⟨(ran (encST 0x00 1 0 0 0)).setMason 0 { Mason.init with inbox := [[]] }, 0, 1, 0, [], [], ?_⟩,
    ⟨ran (encST 0x00 1 0 0 0), 0, 1, 0, ?_⟩,
    ⟨(ran (encST 0x01 1 0 0 0)).setMason 0 { Mason.init with inbox := [[]] }, 0, 1, 0, [], [], ?_⟩,
    ⟨ran (encST 0x01 1 0 0 0), 0, 1, 0, ?_⟩,
    ⟨ran (encST 0x02 1 0 0 0), 0, 1, ?_⟩,
    ⟨(ran (encST 0x03 1 0 0 0)).setF (F.GRID_STAT_STATE 0) 2, 0, 1, 0, ?_⟩⟩
  all_goals (try dsimp only [State.takes, State.issues])
  all_goals decide +kernel

theorem witness_HodInstructions :
    (∃ (s : State) (m : Fin 16) (ga : Fin 32) (gb : Fin 32) (gd : Fin 32) (k : Nat),
      let x := s.mason m;
      let a := (x.get ga).toNat;
      s.issues m (encST 0x08 gd ga gb 0) ∧ s.mode = 3 ∧ a < 8192 ∧ s.b (F.SE_CTL_VALID a) = true ∧ s.b (F.SE_CTL_ACT a) = true ∧
        s.masonWritten a = true ∧ s.f (F.SE_CTL_MASON a) = m ∧ x.slotOf a = none ∧ x.freeSlot = some k) ∧
    (∃ (s : State) (m : Fin 16) (ga : Fin 32) (gb : Fin 32) (gc : Fin 32) (h : Open),
      let x := s.mason m;
      let a := (x.get ga).toNat;
      let b := (x.get gb).toNat;
      let c := (x.get gc).toNat;
      let ws := s.dwords m b c;
      let fits (r : Rec) : Prop := recWords h.recs + r.words.length ≤ s.hodLimit h.sid;
      let rec_ := parseRec (s.grid (s.f (F.SE_CTL_GRID h.sid))).next h.cursor ws;
      s.issues m (encST 0x09 0 ga gb gc) ∧ a ≤ 3 ∧ 1 ≤ c ∧ c ≤ 1022 ∧ b % 4 = 0 ∧ b + 4 * c ≤ 131072 ∧ x.slot a = some h ∧ s.badRange
        (dmem m + b) (4 * c) = false ∧ bits (ws.headD 0).toNat 27 16 = c - 1 ∧ masonType (bits (ws.headD 0).toNat 31 28) = true ∧
        recWords h.recs + c ≤ s.hodLimit h.sid ∧ fits rec_.1 ∧ s.hputFull = false) ∧
    (∃ (s : State) (m : Fin 16) (ga : Fin 32) (gb : Fin 32) (gc : Fin 32) (h : Open),
      let x := s.mason m;
      let a := (x.get ga).toNat;
      let b := (x.get gb).toNat;
      let c := (x.get gc).toNat;
      let ws := s.dwords m b c;
      s.issues m (encST 0x09 0 ga gb gc) ∧ a ≤ 3 ∧ 1 ≤ c ∧ c ≤ 1022 ∧ b % 4 = 0 ∧ b + 4 * c ≤ 131072 ∧ x.slot a = some h ∧ s.badRange
        (dmem m + b) (4 * c) = false ∧ bits (ws.headD 0).toNat 27 16 = c - 1 ∧ masonType (bits (ws.headD 0).toNat 31 28) = true ∧
        recWords h.recs + c ≤ s.hodLimit h.sid ∧ (64 ≤ (s.hputs.map fun y => ceilDiv y.1 1000000).sum)) ∧
    (∃ (s : State) (m : Fin 16) (ga : Fin 32) (h : Open),
      let x := s.mason m;
      let a := (x.get ga).toNat;
      s.issues m (encST 0x0A 0 ga 0 0) ∧ a ≤ 3 ∧ x.slot a = some h) ∧
    (∃ (s : State) (m : Fin 16) (ga : Fin 32) (gb : Fin 32) (gc : Fin 32) (gd : Fin 32) (h : Open),
      let x := s.mason m;
      let a := (x.get ga).toNat;
      let b := (x.get gb).toNat;
      let fits (r : Rec) : Prop := recWords h.recs + r.words.length ≤ s.hodLimit h.sid;
      let mark_ := markRec (c48 (x.pair gc)) (a % 64) (s.f (F.SE_CTL_GRID h.sid)) 0 (x.pair gd) 0 0 (s.f F.TIME_STAT_QUALITY) false
        false false;
      s.issues m (encST 0x0B ga gb gc gd) ∧ groupOk ga = true ∧ pairOk gc = true ∧ pairOk gd = true ∧ b ≤ 3 ∧ x.slot b = some h ∧ fits
        mark_) ∧
    (∃ (s : State) (m : Fin 16) (ga : Fin 32) (gb : Fin 32) (gc : Fin 32) (h : Open),
      let x := s.mason m;
      let a := (x.get ga).toNat;
      let c := (x.get gc).toNat;
      let fits (r : Rec) : Prop := recWords h.recs + r.words.length ≤ s.hodLimit h.sid;
      let gap_ := gapRec ⟨c48 (x.pair gb), c, 3, s.f F.TIME_STAT_QUALITY, false⟩;
      s.issues m (encST 0x0C 0 ga gb gc) ∧ pairOk gb = true ∧ a ≤ 3 ∧ c ≠ 0 ∧ x.slot a = some h ∧ fits gap_) := by
  refine ⟨⟨(((ran (encST 0x08 0 0 0 0)).setF (F.SE_CTL_VALID 0) 1).setF (F.SE_CTL_ACT 0) 1).setF (F.SE_CTL_PATH 0) 1, 0, 0, 0, 0, 0, ?_⟩,
    ⟨((ran (encST 0x09 0 0 0 1)).setMason 0 ((Mason.init.setSlot 0 (some ⟨0, 0, [], 0, 0⟩)).put 1 1)).memStore (dmem 0) 0x10000000,
      0, 0, 0, 1, ⟨0, 0, [], 0, 0⟩, ?_⟩,
    ⟨hputFull, 0, 0, 0, 1, ⟨0, 0, [], 0, 0⟩, ?_⟩,
    ⟨(ran (encST 0x0A 0 0 0 0)).setMason 0 (Mason.init.setSlot 0 (some ⟨0, 0, [], 0, 0⟩)), 0, 0, ⟨0, 0, [], 0, 0⟩, ?_⟩,
    ⟨(ran (encST 0x0B 1 0 1 1)).setMason 0 (Mason.init.setSlot 0 (some ⟨0, 0, [], 0, 0⟩)), 0, 1, 0, 1, 1, ⟨0, 0, [], 0, 0⟩, ?_⟩,
    ⟨(ran (encST 0x0C 0 0 1 3)).setMason 0 ((Mason.init.setSlot 0 (some ⟨0, 0, [], 0, 0⟩)).put 3 1), 0, 0, 1, 3, ⟨0, 0, [], 0, 0⟩, ?_⟩⟩
  all_goals (try dsimp only [State.takes, State.issues])
  all_goals decide +kernel

theorem witness_PalletInstructions_a :
    (∃ (s : State) (m : Fin 16) (gd : Fin 32) (ga : Fin 32) (w : Word) (ws : List Word),
      let x := s.mason m;
      let q := (x.get ga).toNat;
      let y := s.pq q;
      s.issues m (encST 0x10 gd ga 0 0) ∧ q ≤ 63 ∧ y.words = w :: ws) ∧
    (∃ (s : State) (m : Fin 16) (ga : Fin 32) (gb : Fin 32),
      let x := s.mason m;
      let q := (x.get ga).toNat;
      let y := s.pq q;
      s.issues m (encST 0x11 0 ga gb 0) ∧ q ≤ 63 ∧ y.full = false) ∧
    (∃ (s : State) (m : Fin 16) (ga : Fin 32) (gb : Fin 32),
      let x := s.mason m;
      let q := (x.get ga).toNat;
      let y := s.pq q;
      s.issues m (encST 0x11 0 ga gb 0) ∧ q ≤ 63 ∧ y.full = true) ∧
    (∃ (s : State) (m : Fin 16) (ga : Fin 32) (gb : Fin 32),
      let x := s.mason m;
      let q := (x.get ga).toNat;
      let y := s.pq q;
      s.issues m (encST 0x12 0 ga gb 0) ∧ q ≤ 63 ∧ y.full = false) ∧
    (∃ (s : State) (m : Fin 16) (ga : Fin 32) (gb : Fin 32),
      let x := s.mason m;
      let q := (x.get ga).toNat;
      let y := s.pq q;
      s.issues m (encST 0x12 0 ga gb 0) ∧ q ≤ 63 ∧ y.full = true) ∧
    (∃ (s : State) (m : Fin 16) (ga : Fin 32) (gb : Fin 32),
      let x := s.mason m;
      let q := (x.get ga).toNat;
      let y := s.pq q;
      s.issues m (encST 0x13 0 ga gb 0) ∧ q ≤ 63 ∧ y.item = none ∧ y.full = false) ∧
    (∃ (s : State) (m : Fin 16) (ga : Fin 32) (tag : Nat) (it : List Word),
      let x := s.mason m;
      let q := (x.get ga).toNat;
      let y := s.pq q;
      s.issues m (encST 0x14 0 ga 0 0) ∧ q ≤ 63 ∧ y.item = some (tag, it)) ∧
    (∃ (s : State) (m : Fin 16) (ga : Fin 32),
      let x := s.mason m;
      let q := (x.get ga).toNat;
      s.issues m (encST 0x15 0 ga 0 0) ∧ q ≤ 63) ∧
    (∃ (s : State) (m : Fin 16) (gd : Fin 32) (ga : Fin 32),
      let x := s.mason m;
      let q := (x.get ga).toNat;
      s.issues m (encST 0x16 gd ga 0 0) ∧ q ≤ 63) ∧
    (∃ (s : State) (m : Fin 16) (gd : Fin 32) (ga : Fin 32),
      let x := s.mason m;
      let q := (x.get ga).toNat;
      let y := s.pq q;
      s.issues m (encST 0x10 gd ga 0 0) ∧ q ≤ 63 ∧ y.words = []) ∧
    (∃ (s : State) (m : Fin 16) (ga : Fin 32) (gb : Fin 32),
      let x := s.mason m;
      let q := (x.get ga).toNat;
      let y := s.pq q;
      s.issues m (encST 0x13 0 ga gb 0) ∧ q ≤ 63 ∧ y.item ≠ none) := by
  refine ⟨⟨((ran (encST 0x10 0 0 0 0))).setPq 0 { Pq.init with words := [0] }, 0, 0, 0, 0, [], ?_⟩,
    ⟨ran (encST 0x11 0 0 0 0), 0, 0, 0, ?_⟩,
    ⟨((ran (encST 0x11 0 0 0 0))).setPq 0 { Pq.init with words := List.replicate 256 0 }, 0, 0, 0, ?_⟩,
    ⟨ran (encST 0x12 0 0 0 0), 0, 0, 0, ?_⟩,
    ⟨((ran (encST 0x12 0 0 0 0))).setPq 0 { Pq.init with words := List.replicate 256 0 }, 0, 0, 0, ?_⟩,
    ⟨ran (encST 0x13 0 0 0 0), 0, 0, 0, ?_⟩,
    ⟨((ran (encST 0x14 0 0 0 0))).setPq 0 { Pq.init with item := some (0, []) }, 0, 0, 0, [], ?_⟩,
    ⟨ran (encST 0x15 0 0 0 0), 0, 0, ?_⟩,
    ⟨ran (encST 0x16 0 0 0 0), 0, 0, 0, ?_⟩,
    ⟨ran (encST 0x10 0 0 0 0), 0, 0, 0, ?_⟩,
    ⟨((ran (encST 0x13 0 0 0 0))).setPq 0 { Pq.init with item := some (0, []) }, 0, 0, 0, ?_⟩⟩
  all_goals (try dsimp only [State.takes, State.issues])
  all_goals decide +kernel

theorem witness_PalletInstructions_b :
    (∃ (s : State) (m : Fin 16) (ga : Fin 32) (gb : Fin 32),
      let x := s.mason m;
      let q := (x.get ga).toNat;
      let y := s.pq q;
      s.issues m (encST 0x13 0 ga gb 0) ∧ q ≤ 63 ∧ y.item = none ∧ y.full = true) ∧
    (∃ (s : State) (m : Fin 16) (ga : Fin 32),
      let x := s.mason m;
      let q := (x.get ga).toNat;
      let y := s.pq q;
      s.issues m (encST 0x14 0 ga 0 0) ∧ q ≤ 63 ∧ y.item = none ∧ y.orphan = false) ∧
    (∃ (s : State) (m : Fin 16) (ga : Fin 32),
      let x := s.mason m;
      let q := (x.get ga).toNat;
      let y := s.pq q;
      s.issues m (encST 0x14 0 ga 0 0) ∧ q ≤ 63 ∧ y.item = none ∧ y.orphan = true) ∧
    (∃ (s : State) (m : Fin 16) (gd : Fin 32) (ga : Fin 32),
      let x := s.mason m;
      let q := (x.get ga).toNat;
      s.issues m (encST 0x10 gd ga 0 0) ∧ 63 < q) ∧
    (∃ (s : State) (m : Fin 16) (ga : Fin 32) (gb : Fin 32),
      let x := s.mason m;
      let q := (x.get ga).toNat;
      s.issues m (encST 0x11 0 ga gb 0) ∧ 63 < q) ∧
    (∃ (s : State) (m : Fin 16) (ga : Fin 32) (gb : Fin 32),
      let x := s.mason m;
      let q := (x.get ga).toNat;
      s.issues m (encST 0x12 0 ga gb 0) ∧ 63 < q) ∧
    (∃ (s : State) (m : Fin 16) (ga : Fin 32) (gb : Fin 32),
      let x := s.mason m;
      let q := (x.get ga).toNat;
      s.issues m (encST 0x13 0 ga gb 0) ∧ 63 < q) ∧
    (∃ (s : State) (m : Fin 16) (ga : Fin 32),
      let x := s.mason m;
      let q := (x.get ga).toNat;
      s.issues m (encST 0x14 0 ga 0 0) ∧ 63 < q) ∧
    (∃ (s : State) (m : Fin 16) (ga : Fin 32),
      let x := s.mason m;
      let q := (x.get ga).toNat;
      s.issues m (encST 0x15 0 ga 0 0) ∧ 63 < q) ∧
    (∃ (s : State) (m : Fin 16) (gd : Fin 32) (ga : Fin 32),
      let x := s.mason m;
      let q := (x.get ga).toNat;
      s.issues m (encST 0x16 gd ga 0 0) ∧ 63 < q) := by
  refine ⟨⟨((ran (encST 0x13 0 0 0 0))).setPq 0 { Pq.init with words := List.replicate 256 0 }, 0, 0, 0, ?_⟩,
    ⟨ran (encST 0x14 0 0 0 0), 0, 0, ?_⟩,
    ⟨((ran (encST 0x14 0 0 0 0))).setPq 0 { Pq.init with orphan := true }, 0, 0, ?_⟩,
    ⟨((ran (encST 0x10 0 1 0 0))).setMason 0 (Mason.init.put 1 64), 0, 0, 1, ?_⟩,
    ⟨((ran (encST 0x11 0 1 0 0))).setMason 0 (Mason.init.put 1 64), 0, 1, 0, ?_⟩,
    ⟨((ran (encST 0x12 0 1 0 0))).setMason 0 (Mason.init.put 1 64), 0, 1, 0, ?_⟩,
    ⟨((ran (encST 0x13 0 1 0 0))).setMason 0 (Mason.init.put 1 64), 0, 1, 0, ?_⟩,
    ⟨((ran (encST 0x14 0 1 0 0))).setMason 0 (Mason.init.put 1 64), 0, 1, ?_⟩,
    ⟨(ran (encST 0x15 0 1 0 0)).setMason 0 (Mason.init.put 1 64), 0, 1, ?_⟩,
    ⟨((ran (encST 0x16 0 1 0 0))).setMason 0 (Mason.init.put 1 64), 0, 0, 1, ?_⟩⟩
  all_goals (try dsimp only [State.takes, State.issues])
  all_goals decide +kernel

theorem witness_SystemInstructions :
    (∃ (s : State) (m : Fin 16) (gd : Fin 32) (ga : Fin 32) (src : Fin 8),
      let x := s.mason m;
      let a := x.get ga;
      let expiry := s.cyc + 4 * 65536 * a.toNat;
      s.issues m (encSYS 0 gd ga src) ∧ pairOk gd = true ∧ s.wakeBits m src expiry ≠ 0) ∧
    (∃ (s : State) (m : Fin 16) (gd : Fin 32) (ga : Fin 32) (src : Fin 8),
      let x := s.mason m;
      let a := x.get ga;
      let expiry := s.cyc + 4 * 65536 * a.toNat;
      s.issues m (encSYS 0 gd ga src) ∧ pairOk gd = true ∧ s.wakeBits m src expiry = 0) ∧
    (∃ (s : State) (m : Fin 16) (ga : Fin 32) (code : Fin 128),
      let x := s.mason m;
      s.issues m (encSYS 1 0 ga code) ∧ ((∀ t, x.evtAt = some t → t + 1000 * 65536 ≤ s.cyc))) ∧
    (∃ (s : State) (m : Fin 16) (ga : Fin 32) (code : Fin 128) (t : Nat),
      let x := s.mason m;
      s.issues m (encSYS 1 0 ga code) ∧ x.evtAt = some t ∧ s.cyc < t + 1000 * 65536) ∧
    (∃ (s : State) (m : Fin 16) (ga : Fin 32) (n : BitVec 10), s.issues m (encSYS 7 0 ga n.toNat) ∧ n.toNat ≠ 1 ∧ n.toNat ≠ 4) ∧
    (∃ (s : State) (m : Fin 16), s.issues m (encSYS 3 0 0 0) ∧ s.b (F.MC_STAT_IN_TRAP m) = true) ∧
    (∃ (s : State) (m : Fin 16) (gd : Fin 32), s.issues m (encSYS 4 gd 0 0)) ∧
    (∃ (s : State) (m : Fin 16) (ga : Fin 32), s.issues m (encSYS 5 0 ga 0)) ∧
    (∃ (s : State) (m : Fin 16) (gd : Fin 32) (n : BitVec 10) (v : Word), s.issues m (encSYS 6 gd 0 n.toNat) ∧ s.special m n.toNat =
      some v) ∧
    (∃ (s : State) (m : Fin 16) (ga : Fin 32), s.issues m (encSYS 7 0 ga 1)) ∧
    (∃ (s : State) (m : Fin 16) (ga : Fin 32), s.issues m (encSYS 7 0 ga 4)) := by
  refine ⟨⟨ran (encSYS 0 1 0 4), 0, 1, 0, 4, ?_⟩,
    ⟨ran (encSYS 0 1 0 0), 0, 1, 0, 0, ?_⟩,
    ⟨ran (encSYS 1 0 0 0), 0, 0, 0, ?_⟩,
    ⟨(ran (encSYS 1 0 0 0)).setMason 0 { Mason.init with evtAt := some 0 }, 0, 0, 0, 0, ?_⟩,
    ⟨ran (encSYS 7 0 0 0), 0, 0, 0, ?_⟩,
    ⟨(ran (encSYS 3 0 0 0)).setF (F.MC_STAT_IN_TRAP 0) 1, 0, ?_⟩,
    ⟨ran (encSYS 4 0 0 0), 0, 0, ?_⟩,
    ⟨ran (encSYS 5 0 0 0), 0, 0, ?_⟩,
    ⟨ran (encSYS 6 0 0 0), 0, 0, 0, 0, ?_⟩,
    ⟨ran (encSYS 7 0 0 1), 0, 0, ?_⟩,
    ⟨ran (encSYS 7 0 0 4), 0, 0, ?_⟩⟩
  all_goals (try dsimp only [State.takes, State.issues])
  all_goals decide +kernel

theorem witness_TrapEntry :
    (∃ (s : State) (m : Fin 16) (cause : Nat) (tval : Nat),
      let s0 := (if cause = 5 then (s.setF (F.MC_EVT_UNCORR m) 1).raise 0x0C04 m tval else s).setF (F.MC_STAT_STALLED m) 0;
      s0.b (F.MC_STAT_IN_TRAP m) = false ∧ cause ≤ 5) ∧
    (∃ (s : State) (m : Fin 16) (cause : Nat) (tval : Nat),
      let s0 := (if cause = 5 then (s.setF (F.MC_EVT_UNCORR m) 1).raise 0x0C04 m tval else s).setF (F.MC_STAT_STALLED m) 0;
      s0.b (F.MC_STAT_IN_TRAP m) = false ∧ cause = 6) ∧
    (∃ (s : State) (m : Fin 16) (cause : Nat) (tval : Nat),
      let s0 := (if cause = 5 then (s.setF (F.MC_EVT_UNCORR m) 1).raise 0x0C04 m tval else s).setF (F.MC_STAT_STALLED m) 0;
      let pc := (s0.mason m).pc % 65536;
      let detail := cause * 2 ^ 56 + pc * 2 ^ 32 + tval % 2 ^ 32;
      let twice := ((s0.setF (F.MC_EVT_DFAULT m) 1).raise 0x0C02 m detail).draw 6;
      s0.b (F.MC_STAT_IN_TRAP m) = true ∧ twice.1.b F.RST_CTL_LOCKUP_ACT = true) ∧
    (∃ (s : State) (m : Fin 16) (cause : Nat) (tval : Nat),
      let s0 := (if cause = 5 then (s.setF (F.MC_EVT_UNCORR m) 1).raise 0x0C04 m tval else s).setF (F.MC_STAT_STALLED m) 0;
      let pc := (s0.mason m).pc % 65536;
      let detail := cause * 2 ^ 56 + pc * 2 ^ 32 + tval % 2 ^ 32;
      let twice := ((s0.setF (F.MC_EVT_DFAULT m) 1).raise 0x0C02 m detail).draw 6;
      s0.b (F.MC_STAT_IN_TRAP m) = true ∧ twice.1.b F.RST_CTL_LOCKUP_ACT = false) ∧
    (∃ (s : State) (m : Fin 16) (imm : BitVec 10), s.issues m (encSYS 2 0 0 imm.toNat)) := by
  refine ⟨⟨tst 2 [], 0, 0, 0, ?_⟩,
    ⟨tst 2 [], 0, 6, 0, ?_⟩,
    ⟨tst 2 [(F.MC_STAT_IN_TRAP 0, 1), (F.RST_CTL_LOCKUP_ACT, 1)], 0, 0, 0, ?_⟩,
    ⟨tst 2 [(F.MC_STAT_IN_TRAP 0, 1)], 0, 0, 0, ?_⟩,
    ⟨ran (encSYS 2 0 0 0), 0, 0, ?_⟩⟩
  all_goals (try dsimp only [State.takes, State.issues])
  all_goals decide +kernel

theorem witness_IllegalFormsTrap :
    (∃ (s : State) (m : Fin 16) (gd : Fin 32) (vd : Fin 8), s.issues m (encST 0x00 gd vd 0 0) ∧ groupOk gd = false) ∧
    (∃ (s : State) (m : Fin 16) (gd : Fin 32) (vd : Fin 8), s.issues m (encST 0x01 gd vd 0 0) ∧ groupOk gd = false) ∧
    (∃ (s : State) (m : Fin 16) (gd : Fin 32), s.issues m (encST 0x02 gd 0 0 0) ∧ groupOk gd = false) ∧
    (∃ (s : State) (m : Fin 16) (gd : Fin 32) (ga : Fin 32), s.issues m (encST 0x03 gd ga 0 0) ∧ pairOk gd = false) ∧
    (∃ (s : State) (m : Fin 16) (gd : Fin 32) (ga : Fin 32) (gb : Fin 32) (gc : Fin 32), s.issues m (encST 0x0B ga gb gc gd) ∧
      (groupOk ga && pairOk gc && pairOk gd) = false) ∧
    (∃ (s : State) (m : Fin 16) (ga : Fin 32) (gb : Fin 32) (gc : Fin 32), s.issues m (encST 0x0C 0 ga gb gc) ∧ pairOk gb = false) ∧
    (∃ (s : State) (m : Fin 16) (gd : Fin 32) (ga : Fin 32) (src : Fin 8), s.issues m (encSYS 0 gd ga src) ∧ pairOk gd = false) ∧
    (∃ (s : State) (m : Fin 16), s.issues m (encSYS 3 0 0 0) ∧ s.b (F.MC_STAT_IN_TRAP m) = false) ∧
    (∃ (s : State) (m : Fin 16) (gd : Fin 32) (n : BitVec 10), s.issues m (encSYS 6 gd 0 n.toNat) ∧ 5 < n.toNat) := by
  refine ⟨⟨ran (encST 0x00 0 0 0 0), 0, 0, 0, ?_⟩,
    ⟨ran (encST 0x01 0 0 0 0), 0, 0, 0, ?_⟩,
    ⟨ran (encST 0x02 0 0 0 0), 0, 0, ?_⟩,
    ⟨ran (encST 0x03 0 0 0 0), 0, 0, 0, ?_⟩,
    ⟨ran (encST 0x0B 0 0 0 0), 0, 0, 0, 0, 0, ?_⟩,
    ⟨ran (encST 0x0C 0 0 0 0), 0, 0, 0, 0, ?_⟩,
    ⟨ran (encSYS 0 0 0 0), 0, 0, 0, 0, ?_⟩,
    ⟨ran (encSYS 3 0 0 0), 0, ?_⟩,
    ⟨ran (encSYS 6 0 0 6), 0, 0, 6, ?_⟩⟩
  all_goals (try dsimp only [State.takes, State.issues])
  all_goals decide +kernel

theorem witness_StopOfAGridInUseOrStopped :
    (∃ (s : State) (r : Req) (g : Fin 4) (v : Word), s.takes r (R.GRID_CTL g) ∧ bits v.toNat 27 16 ≠ 0 ∧ s.f (F.GRID_CTL_TYPE g) =
      b2n (wbit v 0) ∧ s.f (F.GRID_CTL_CDIV g) = bits v.toNat 27 16) := by
  refine ⟨tst 2 [], .host, 0, 0x10000, ?_⟩
  all_goals (try dsimp only [State.takes, State.issues])
  all_goals decide +kernel

theorem witness_RefusedAccessChangesNoRegister :
    (∃ (s : State), s.alive = true) ∧
    (∃ (r : Req) (a : Word) (s : State), s.alive = true ∧ accOf r a.toNat = .ro ∧ a.toNat < 0x20000000) ∧
    (∃ (r : Req) (a : Word) (s : State), s.alive = true ∧ s.mapStop r a.toNat true = some Status.addr) := by
  refine ⟨⟨tst 2 [], ?_⟩,
    ⟨(.mason 0), 0, tst 2 [], ?_⟩,
    ⟨.host, 1, tst 2 [], ?_⟩⟩
  all_goals decide +kernel

theorem witness_ReadAndWriteTransactions :
    (∃ (s : State) (p : Fin 16) (tag : BitVec 7) (a : Word) (c : Word),
      let n := bits c.toNat 8 0;
      let r (op : Nat) : Reqd := ⟨1, op, tag.toNat, false⟩;
      let u (op : Nat) : State := s.setPort p { s.port p with reqs := [r op] };
      let held (op : Nat) (t : State) : Prop := (u op).began t = false ∧ (t.port p).reqs = [r op];
      let read := (u 0).readWords .host a.toNat n;
      let free := s.tagsOut.contains tag.toNat = false ∧ (s.port p).reqs = [] ∧ s.role p ≠ 2;
      s.alive = true ∧ s.mode ≠ 0 ∧ s.mode ≠ 4 ∧ free ∧ rangeStop a.toNat n (bits c.toNat 31 9) 2 0 = none ∧ (u 0).mapStop .host
        a.toNat false = none ∧ held 0 (read.1.finData read.2)) ∧
    (∃ (s : State) (p : Fin 16) (tag : BitVec 7) (a : Word) (c : Word),
      let n := bits c.toNat 8 0;
      let free := s.tagsOut.contains tag.toNat = false ∧ (s.port p).reqs = [] ∧ s.role p ≠ 2;
      s.alive = true ∧ s.mode ≠ 0 ∧ s.mode ≠ 4 ∧ free ∧ n = 1 ∧ rangeStop a.toNat 1 (bits c.toNat 31 9) 2 0 = none ∧ s.mapStop .host
        a.toNat false = none ∧ plainReg a.toNat) ∧
    (∃ (s : State) (p : Fin 16) (tag : BitVec 7) (a : Word) (c : Word) (v : Word),
      let n := bits c.toNat 8 0;
      let r (op : Nat) : Reqd := ⟨1, op, tag.toNat, false⟩;
      let u (op : Nat) : State := s.setPort p { s.port p with reqs := [r op] };
      let held (op : Nat) (t : State) : Prop := (u op).began t = false ∧ (t.port p).reqs = [r op];
      let t1 := (u 1).writeReg .host a.toNat v;
      let free := s.tagsOut.contains tag.toNat = false ∧ (s.port p).reqs = [] ∧ s.role p ≠ 2;
      s.alive = true ∧ s.mode ≠ 0 ∧ s.mode ≠ 4 ∧ free ∧ n = 1 ∧ rangeStop a.toNat 1 (bits c.toNat 31 9) 3 1 = none ∧ t1.cpl.status =
        .ok ∧ held 1 t1) ∧
    (∃ (s : State) (p : Fin 16) (tag : BitVec 7) (a : Word) (c : Word) (v : Word),
      let n := bits c.toNat 8 0;
      let r (op : Nat) : Reqd := ⟨1, op, tag.toNat, false⟩;
      let u (op : Nat) : State := s.setPort p { s.port p with reqs := [r op] };
      let held (op : Nat) (t : State) : Prop := (u op).began t = false ∧ (t.port p).reqs = [r op];
      let t1 := (u 1).writeReg .host a.toNat v;
      let free := s.tagsOut.contains tag.toNat = false ∧ (s.port p).reqs = [] ∧ s.role p ≠ 2;
      s.alive = true ∧ s.mode ≠ 0 ∧ s.mode ≠ 4 ∧ free ∧ n = 1 ∧ rangeStop a.toNat 1 (bits c.toNat 31 9) 3 1 = none ∧ t1.cpl.status ≠
        .ok ∧ held 1 t1) ∧
    (∃ (s : State) (p : Fin 16) (tag : BitVec 7) (c : Word),
      let free := s.tagsOut.contains tag.toNat = false ∧ (s.port p).reqs = [] ∧ s.role p ≠ 2;
      s.alive = true ∧ s.mode ≠ 0 ∧ s.mode ≠ 4 ∧ free ∧ c = 1 ∧ s.takes .host R.EVT_MASK) ∧
    (∃ (s : State) (t2 : State) (p : Fin 16) (tag : BitVec 7) (a : Word) (c : Word) (v : Word) (vs : List Word) (e : Status),
      let n := bits c.toNat 8 0;
      let r (op : Nat) : Reqd := ⟨1, op, tag.toNat, false⟩;
      let u (op : Nat) : State := s.setPort p { s.port p with reqs := [r op] };
      let held (op : Nat) (t : State) : Prop := (u op).began t = false ∧ (t.port p).reqs = [r op];
      let t1 := (u 1).writeReg .host a.toNat v;
      let free := s.tagsOut.contains tag.toNat = false ∧ (s.port p).reqs = [] ∧ s.role p ≠ 2;
      s.alive = true ∧ s.mode ≠ 0 ∧ s.mode ≠ 4 ∧ free ∧ rangeStop a.toNat n (bits c.toNat 31 9) (3 + vs.length) n = none ∧ ((∃ b e,
        bulkOf a.toNat = some (b, e) ∧ a.toNat + 4 * n ≤ e)) ∧ t1.cpl.status = .ok ∧ (u 1).began t1 = false ∧ t1.writeWords .host
        (a.toNat + 4) vs = (t2, .ok) ∧ held 1 (t2.fin .ok)) ∧
    (∃ (s : State) (p : Fin 16) (tag : BitVec 7) (a : Word) (c : Word) (e : Status),
      let n := bits c.toNat 8 0;
      let free := s.tagsOut.contains tag.toNat = false ∧ (s.port p).reqs = [] ∧ s.role p ≠ 2;
      s.alive = true ∧ s.mode ≠ 0 ∧ s.mode ≠ 4 ∧ free ∧ rangeStop a.toNat n (bits c.toNat 31 9) 2 0 = some e) ∧
    (∃ (s : State) (p : Fin 16) (tag : BitVec 7), s.alive = true ∧ s.mode ≠ 0 ∧ s.mode ≠ 4 ∧ s.role p ≠ 2 ∧ s.tagsOut.contains
      tag.toNat = true ∧ (((s.port p).reqs.any fun z => z.typ == 1 && z.op == 0 && z.tag == tag.toNat) = false)) ∧
    (∃ (s : State) (p : Fin 16), s.alive = true ∧ s.mode ≠ 0 ∧ s.mode ≠ 4 ∧ (s.port p).reqs = [] ∧ s.role p = 2) := by
  refine ⟨⟨tst 2 [], 0, 0, 0x40018, 1, ?_⟩,
    ⟨tst 2 [], 0, 0, 0x40018, 1, by
    dsimp only
    unfold plainReg
    decide +kernel⟩,
    ⟨tst 2 [], 0, 0, 0x40018, 1, 0, ?_⟩,
    ⟨tst 2 [], 0, 0, (BitVec.ofNat 32 (R.TILE_PGA 0 0)), 1, 7, ?_⟩,
    ⟨tst 2 [], 0, 0, 1, ?_⟩,
    ⟨tst 2 [], ((({ (tst 2 []).setPort 0 { Port.init with reqs := [⟨1, 1, 0, false⟩] } with free := 0 } : State).writeReg .host 0x400000 0)), 0, 0, 0x400000, 1, 0, [], .ok, by
    dsimp only
    and_intros
    all_goals first | decide +kernel | exact ⟨0x400000, 0x410000, by decide +kernel⟩⟩,
    ⟨tst 2 [], 0, 0, 0x40000, 0, .length, ?_⟩,
    ⟨((tst 2 [(F.QUAD_STAT_PS0 0, 2)])).setPort 0 { Port.init with reqs := [⟨1, 1, 0, true⟩] }, 0, 0, ?_⟩,
    ⟨tst 2 [(F.QUAD_CTL_ROLE0 0, 2)], 0, ?_⟩⟩
  all_goals (try dsimp only [State.takes, State.issues])
  all_goals decide +kernel

theorem witness_ModeOwnership :
    (∃ (s : State) (r : Req) (v : Word),
      let old := s.f F.MODE_OWNER_OWNER;
      let me := reqCode r;
      s.takes r R.MODE_OWNER ∧ wbit v 8 = false ∧ ((old = 0 ∨ old = me)) ∧ ((bits v.toNat 1 0 = me ∨ bits v.toNat 1 0 = 0))) ∧
    (∃ (s : State) (r : Req) (v : Word),
      let old := s.f F.MODE_OWNER_OWNER;
      let me := reqCode r;
      s.takes r R.MODE_OWNER ∧ wbit v 8 = false ∧ ((old = 0 ∨ old = me)) ∧ bits v.toNat 1 0 ≠ me ∧ bits v.toNat 1 0 ≠ 0) ∧
    (∃ (s : State) (r : Req) (v : Word),
      let old := s.f F.MODE_OWNER_OWNER;
      let me := reqCode r;
      s.takes r R.MODE_OWNER ∧ wbit v 8 = false ∧ old ≠ 0 ∧ old ≠ me) ∧
    (∃ (s : State) (v : Word), s.takes .manager R.MODE_OWNER ∧ wbit v 8 = true) ∧
    (∃ (s : State) (r : Req) (v : Word), s.takes r R.MODE_OWNER ∧ r ≠ .manager ∧ wbit v 8 = true) ∧
    (∃ (s : State), s.takes .manager R.MODE_OWNER) ∧
    (∃ (s : State) (r : Req), s.takes r R.MODE_OWNER ∧ r ≠ .manager) ∧
    (∃ (s : State),
      let old := s.f F.MODE_OWNER_OWNER;
      s.alive = true ∧ old = 1 ∧ s.portUp s.primary = false) ∧
    (∃ (s : State),
      let old := s.f F.MODE_OWNER_OWNER;
      s.alive = true ∧ old = 3) ∧
    (∃ (s : State),
      let old := s.f F.MODE_OWNER_OWNER;
      s.alive = true ∧ old ≠ 3) := by
  refine ⟨⟨tst 2 [], .host, 1, ?_⟩,
    ⟨tst 2 [], .host, 2, ?_⟩,
    ⟨tst 2 [(F.MODE_OWNER_OWNER, 2)], .host, 0x0, ?_⟩,
    ⟨tst 2 [], 0x100, ?_⟩,
    ⟨tst 2 [], .host, 0x100, ?_⟩,
    ⟨tst 2 [], ?_⟩,
    ⟨tst 2 [], .host, ?_⟩,
    ⟨tst 2 [(F.MODE_OWNER_OWNER, 1)], ?_⟩,
    ⟨tst 2 [(F.MODE_OWNER_OWNER, 3)], ?_⟩,
    ⟨tst 2 [], ?_⟩⟩
  all_goals (try dsimp only [State.takes, State.issues])
  all_goals decide +kernel

theorem witness_RoutesOfTheTree :
    (∃ (s : State) (p : Fin 16) (host : Bool) (depth : BitVec 4) (port : BitVec 4) (hid : BitVec 14),
      let peer := BitVec.ofNat 32 (2 ^ 31 + b2n host * 2 ^ 30 + 2 ^ 29 + depth.toNat * 2 ^ 24 + port.toNat * 2 ^ 20 + hid.toNat);
      s.alive = true ∧ s.portUp p = true ∧ s.role p ≠ 1 ∧ ((s.thaw p).setW (R.PL_PEER p) peer).role p ≠ 1) ∧
    (∃ (s : State) (p : Fin 16), s.alive = true ∧ s.portUp p = true ∧ s.role p = 2) ∧
    (∃ (s : State) (p : Fin 16) (header : BitVec 64) (payload : List Word) (k : Nat),
      let h := hodOf header payload;
      s.alive = true ∧ s.portUp p = true ∧ s.role p = 1 ∧ h.hid ≠ s.hid ∧ (s.descs.find? (fun i => s.f (F.DESC_HID i) == h.hid) = some
        k)) ∧
    (∃ (s : State) (p : Fin 16) (header : BitVec 64) (payload : List Word),
      let h := hodOf header payload;
      s.alive = true ∧ s.portUp p = true ∧ s.role p = 1 ∧ h.hid ≠ s.hid ∧ (s.descs.find? (fun i => s.f (F.DESC_HID i) == h.hid) = none)) ∧
    (∃ (s : State) (p : Fin 16), s.alive = true ∧ s.portUp p = true ∧ s.role p = 2 ∧ (s.port p).conflict = false) ∧
    (∃ (s : State) (p : Fin 16) (header : BitVec 64) (payload : List Word),
      let h := hodOf header payload;
      s.alive = true ∧ s.portUp p = true ∧ s.role p = 2 ∧ (s.port p).conflict = false ∧ s.maySend s.primary ⟨3, some p, 0, h⟩ = true ∧
        (((s.port s.primary).waiting.any fun w => w.cls == 3) = false)) := by
  refine ⟨⟨tst 2 [(F.QUAD_STAT_PS0 0, 2), (F.QUAD_CTL_ROLE0 0, 0)], 0, false, 0, 0, 0, ?_⟩,
    ⟨tst 2 [(F.QUAD_STAT_PS0 0, 2), (F.QUAD_CTL_ROLE0 0, 2)], 0, ?_⟩,
    ⟨tst 2 [(F.QUAD_STAT_PS0 0, 2), (F.QUAD_CTL_ROLE0 0, 1), (F.DESC_VALID 0, 1), (F.DESC_HID 0, 5)], 0, 0xA0000000, [], 0, ?_⟩,
    ⟨tst 2 [(F.QUAD_STAT_PS0 0, 2), (F.QUAD_CTL_ROLE0 0, 1)], 0, 0xA0000000, [], ?_⟩,
    ⟨tst 2 [(F.QUAD_STAT_PS0 0, 2), (F.QUAD_CTL_ROLE0 0, 2)], 0, ?_⟩,
    ⟨(tst 2 [(F.QUAD_STAT_PS0 0, 2), (F.QUAD_CTL_ROLE0 0, 1), (F.QUAD_STAT_PS1 0, 2), (F.QUAD_CTL_ROLE1 0, 2)]).setPort 0
      { Port.init with gotLink := true, lim := [(3, 1)] }, 1, 0, [], ?_⟩⟩
  all_goals (try dsimp only [State.takes, State.issues])
  all_goals decide +kernel

theorem witness_SequencedArrivals :
    (∃ (s : State) (u : State) (p : Fin 16) (lines : List LineIn) (a : Arrival), s.alive = true ∧ s.portUp p = true ∧ s.rxPort p
      lines = (u, [a]) ∧ a.abort = true) ∧
    (∃ (s : State) (u : State) (p : Fin 16) (lines : List LineIn) (a : Arrival), s.alive = true ∧ s.portUp p = true ∧ s.rxPort p
      lines = (u, [a]) ∧ a.abort = false ∧ a.crcOk = false) ∧
    (∃ (s : State) (u : State) (p : Fin 16) (lines : List LineIn) (a : Arrival),
      let h := hodOf a.header a.payload;
      let e := u.f (F.PL_STAT_RX_NEXT p);
      s.alive = true ∧ s.portUp p = true ∧ s.rxPort p lines = (u, [a]) ∧ a.abort = false ∧ a.crcOk = true ∧ h.typ ≠ 0 ∧ h.typ ≠ 4 ∧
        h.lseq = e) ∧
    (∃ (s : State) (u : State) (p : Fin 16) (lines : List LineIn) (a : Arrival),
      let h := hodOf a.header a.payload;
      let e := u.f (F.PL_STAT_RX_NEXT p);
      s.alive = true ∧ s.portUp p = true ∧ s.rxPort p lines = (u, [a]) ∧ a.abort = false ∧ a.crcOk = true ∧ h.typ ≠ 0 ∧ h.typ ≠ 4 ∧
        h.lseq ≠ e ∧ (e + 4096 - h.lseq) % 4096 ≤ 128) ∧
    (∃ (s : State) (u : State) (p : Fin 16) (lines : List LineIn) (a : Arrival),
      let h := hodOf a.header a.payload;
      let e := u.f (F.PL_STAT_RX_NEXT p);
      s.alive = true ∧ s.portUp p = true ∧ s.rxPort p lines = (u, [a]) ∧ a.abort = false ∧ a.crcOk = true ∧ h.typ ≠ 0 ∧ h.typ ≠ 4 ∧
        h.lseq ≠ e ∧ 128 < (e + 4096 - h.lseq) % 4096) := by
  refine ⟨⟨linked, (linked.rxPort 0 (wire [.sof, .abort])).1, 0, wire [.sof, .abort], ((linked.rxPort 0 (wire [.sof, .abort])).2.headD
      (.broken false)), ?_⟩,
    ⟨linked, (linked.rxPort 0 (wire [.sof, .d 0, .eof])).1, 0, wire [.sof, .d 0, .eof], ((linked.rxPort 0 (wire [.sof, .d 0,
      .eof])).2.headD (.broken false)), ?_⟩,
    ⟨linked, (linked.rxPort 0 (wired 0)).1, 0, wired 0, ((linked.rxPort 0 (wired 0)).2.headD (.broken false)), ?_⟩,
    ⟨linked, (linked.rxPort 0 (wired 0xFFF)).1, 0, wired 0xFFF, ((linked.rxPort 0 (wired 0xFFF)).2.headD (.broken false)), ?_⟩,
    ⟨linked, (linked.rxPort 0 (wired 1)).1, 0, wired 1, ((linked.rxPort 0 (wired 1)).2.headD (.broken false)), ?_⟩⟩
  all_goals (try dsimp only [State.takes, State.issues])
  all_goals decide +kernel

theorem witness_LinkControl :
    (∃ (s : State) (p : Fin 16), s.alive = true ∧ s.portUp p = true) ∧
    (∃ (s : State) (ws : List Word) (q : List EvtHod), s.alive = true ∧ s.evtq = ws :: q ∧ s.role s.primary = 1 ∧ s.canSend s.primary
      0 = true ∧ s.before s.primary = false) ∧
    (∃ (s : State) (r : Req) (v : Word), s.takes r R.LINK_CFG ∧ bits v.toNat 23 16 ≠ 0 ∧ s.role (bits v.toNat 3 0) = 1 ∧ wbit v 12 =
      false ∧ s.portUp s.primary = false ∧ s.portUp (bits v.toNat 3 0) = false) := by
  refine ⟨⟨tst 2 [(F.QUAD_STAT_PS0 0, 2)], 0, ?_⟩,
    ⟨{ (tst 2 [(F.QUAD_STAT_PS0 0, 2)]).setPort 0 { Port.init with gotLink := true, lim := [(0, 1)] } with evtq := [[]] }, [], [], ?_⟩,
    ⟨tst 2 [], .host, 0x10000, ?_⟩⟩
  all_goals (try dsimp only [State.takes, State.issues])
  all_goals decide +kernel

theorem witness_StorageErrors :
    (∃ (s : State), s.csRuns = true ∧ s.csOn = true) ∧
    (∃ (s : State),
      let stopped : State := { s.csEvent 7 0x0B08 0 0 with csStop := true, enDue := none };
      let left := stopped.csAbandon;
      let halted := left.each left.metering fun u j => u.setMeter j { u.meter j with start := none };
      s.csRuns = true ∧ s.csOn = true ∧ halted.rstLow = true) ∧
    (∃ (s : State), ((∀ x : Batch, s.nv = some x → x.writer < 5))) ∧
    (∃ (s : State) (x : Batch), s.nv = some x ∧ 5 ≤ x.writer ∧ s.owed = none) ∧
    (∃ (s : State), s.alive = true) ∧
    (∃ (s : State) (b : Blk), s.mode = 0 ∧ b ≠ .log) ∧
    (∃ (s : State),
      let stopped : State := { s.csEvent 7 0x0B08 0 0 with csStop := true, enDue := none };
      let left := stopped.csAbandon;
      let halted := left.each left.metering fun u j => u.setMeter j { u.meter j with start := none };
      s.csOn = true ∧ s.mode ≠ 0 ∧ halted.rstLow = false) := by
  refine ⟨⟨tst 2 [], ?_⟩,
    ⟨({ tst 2 [(F.PWR_STAT_CST, 1)] with rstLow := true } : State), ?_⟩,
    ⟨tst 2 [], ?_⟩,
    ⟨({ (tst 2 []) with nv := some ⟨5, 0, []⟩ } : State), ⟨5, 0, []⟩, ?_⟩,
    ⟨tst 2 [], ?_⟩,
    ⟨tst 0 [], .trig, ?_⟩,
    ⟨tst 2 [], ?_⟩⟩
  all_goals (try dsimp only [State.takes, State.issues])
  all_goals decide +kernel

theorem witness_TileRegisterWrites_a :
    (∃ (s : State) (r : Req) (t : Fin 24) (i : Fin 16) (v : Word),
      let g := bits v.toNat 2 0;
      s.takes r (R.TILE_PGA t i) ∧ s.metered t i = false ∧ g < 5 ∧ (s.tileActive t = false ∨ g = s.f (F.TILE_PGA_GAIN t i))) ∧
    (∃ (s : State) (r : Req) (t : Fin 24) (i : Fin 16) (v : Word),
      let g := bits v.toNat 2 0;
      s.takes r (R.TILE_PGA t i) ∧ s.metered t i = false ∧ g < 5 ∧ s.tileActive t = true ∧ g ≠ s.f (F.TILE_PGA_GAIN t i)) ∧
    (∃ (s : State) (r : Req) (t : Fin 24) (i : Fin 16), s.alive = true ∧ accOf r (R.TILE_PGA t i) = .rw ∧ s.metered t i = true) ∧
    (∃ (s : State) (r : Req) (t : Fin 24) (i : Fin 16) (v : Word),
      let g := bits v.toNat 2 0;
      s.takes r (R.TILE_PGA t i) ∧ s.metered t i = false ∧ 5 ≤ g) ∧
    (∃ (s : State) (r : Req) (t : Fin 24) (v : Word),
      let rdiv := bits v.toNat 13 8;
      let same := rdiv = s.f (F.TILE_CTL_RDIV t);
      s.takes r (R.TILE_CTL t) ∧ same) ∧
    (∃ (s : State) (r : Req) (t : Fin 24) (v : Word),
      let rdiv := bits v.toNat 13 8;
      let ctl := s.setW (R.TILE_CTL t) (v &&& 0x3F03);
      let same := rdiv = s.f (F.TILE_CTL_RDIV t);
      s.takes r (R.TILE_CTL t) ∧ s.tileMetered t = false ∧ ¬same ∧ 1 ≤ rdiv ∧ rdiv ≤ 40 ∧ s.f (F.TILE_STAT_PSTATE t) = 0 ∧ ctl.tileOk t
        = true) ∧
    (∃ (s : State) (r : Req) (t : Fin 24) (v : Word),
      let rdiv := bits v.toNat 13 8;
      let same := rdiv = s.f (F.TILE_CTL_RDIV t);
      s.takes r (R.TILE_CTL t) ∧ s.tileMetered t = false ∧ ¬same ∧ (rdiv = 0 ∨ 40 < rdiv)) ∧
    (∃ (s : State) (r : Req) (t : Fin 24) (v : Word),
      let rdiv := bits v.toNat 13 8;
      let same := rdiv = s.f (F.TILE_CTL_RDIV t);
      s.takes r (R.TILE_CTL t) ∧ s.tileMetered t = false ∧ ¬same ∧ 1 ≤ rdiv ∧ rdiv ≤ 40 ∧ s.f (F.TILE_STAT_PSTATE t) ≠ 0) ∧
    (∃ (s : State) (r : Req) (t : Fin 24) (v : Word),
      let rdiv := bits v.toNat 13 8;
      let ctl := s.setW (R.TILE_CTL t) (v &&& 0x3F03);
      let same := rdiv = s.f (F.TILE_CTL_RDIV t);
      s.takes r (R.TILE_CTL t) ∧ s.tileMetered t = false ∧ ¬same ∧ 1 ≤ rdiv ∧ rdiv ≤ 40 ∧ s.f (F.TILE_STAT_PSTATE t) = 0 ∧ ctl.tileOk t
        = false) ∧
    (∃ (s : State) (r : Req) (t : Fin 24) (v : Word),
      let rdiv := bits v.toNat 13 8;
      let same := rdiv = s.f (F.TILE_CTL_RDIV t);
      s.alive = true ∧ accOf r (R.TILE_CTL t) = .rw ∧ s.tileMetered t = true ∧ ¬same) ∧
    (∃ (s : State) (r : Req) (t : Fin 24) (v : Word),
      let ilv := bits v.toNat 7 0;
      s.takes r (R.TILE_ILV t) ∧ ilv = s.f (F.TILE_ILV_ILV t)) ∧
    (∃ (s : State) (r : Req) (t : Fin 24) (v : Word),
      let ilv := bits v.toNat 7 0;
      let paired := s.setF (F.TILE_ILV_ILV t) ilv;
      s.takes r (R.TILE_ILV t) ∧ s.tileMetered t = false ∧ ilv ≠ s.f (F.TILE_ILV_ILV t) ∧ s.f (F.TILE_STAT_PSTATE t) = 0 ∧
        paired.tileOk t = true) ∧
    (∃ (s : State) (r : Req) (t : Fin 24) (v : Word),
      let ilv := bits v.toNat 7 0;
      let paired := s.setF (F.TILE_ILV_ILV t) ilv;
      s.takes r (R.TILE_ILV t) ∧ s.tileMetered t = false ∧ ilv ≠ s.f (F.TILE_ILV_ILV t) ∧ s.f (F.TILE_STAT_PSTATE t) = 0 ∧
        paired.tileOk t = false) := by
  refine ⟨⟨tst 2 [], .host, 0, 0, 0x0, ?_⟩,
    ⟨tst 2 [(F.TILE_STAT_PSTATE 0, 2)], .host, 0, 0, 1, ?_⟩,
    ⟨tst 2 [(F.CH_STAT_METERED 0 0, 1)], .host, 0, 0, ?_⟩,
    ⟨tst 2 [], .host, 0, 0, 0x5, ?_⟩,
    ⟨tst 2 [], .host, 0, 0x100, ?_⟩,
    ⟨tst 2 [(F.TILE_STAT_PSTATE 0, 0)], .host, 0, 0x200, ?_⟩,
    ⟨tst 2 [], .host, 0, 0x0, ?_⟩,
    ⟨tst 2 [(F.TILE_STAT_PSTATE 0, 1)], .host, 0, 0x200, ?_⟩,
    ⟨tst 2 [(F.TILE_STAT_PSTATE 0, 0), (F.DET_CTL_EN 0 0, 1)], .host, 0, 0x200, ?_⟩,
    ⟨tst 2 [(F.CH_STAT_METERED 0 0, 1)], .host, 0, 0x200, ?_⟩,
    ⟨tst 2 [], .host, 0, 0, ?_⟩,
    ⟨tst 2 [(F.TILE_STAT_PSTATE 0, 0)], .host, 0, 2, ?_⟩,
    ⟨tst 2 [(F.TILE_STAT_PSTATE 0, 0), (F.DET_CTL_EN 0 0, 1)], .host, 0, 1, ?_⟩⟩
  all_goals (try dsimp only [State.takes, State.issues])
  all_goals decide +kernel

theorem witness_TileRegisterWrites_b :
    (∃ (s : State) (r : Req) (t : Fin 24) (v : Word),
      let ilv := bits v.toNat 7 0;
      s.takes r (R.TILE_ILV t) ∧ s.tileMetered t = false ∧ ilv ≠ s.f (F.TILE_ILV_ILV t) ∧ s.f (F.TILE_STAT_PSTATE t) ≠ 0) ∧
    (∃ (s : State) (r : Req) (t : Fin 24) (v : Word),
      let ilv := bits v.toNat 7 0;
      s.alive = true ∧ accOf r (R.TILE_ILV t) = .rw ∧ s.tileMetered t = true ∧ ilv ≠ s.f (F.TILE_ILV_ILV t)) ∧
    (∃ (s : State) (r : Req) (t : Fin 24) (v : Word), s.takes r (R.TILE_APPLY t) ∧ wbit v 0 = true) ∧
    (∃ (s : State) (r : Req) (t : Fin 24) (v : Word), s.takes r (R.TILE_APPLY t) ∧ wbit v 0 = false) ∧
    (∃ (s : State) (t : Fin 24) (i : Fin 16), s.metered t i = false) ∧
    (∃ (s : State) (t : Fin 24) (i : Fin 16), s.metered t i = true) ∧
    (∃ (s : State) (r : Req) (t : Fin 24), s.takes r (R.EXC_LVL t)) ∧
    (∃ (s : State) (r : Req) (t : Fin 24) (v : Word),
      let exc := (s.setF (F.EXC_CTL_RAMP t) (bits v.toNat 31 16)).setF (F.EXC_CTL_EN t) (b2n (wbit v 0));
      s.takes r (R.EXC_CTL t) ∧ wbit v 0 = true ∧ s.live = true ∧ s.b (F.EXC_STAT_FAULT t) = false ∧ exc.b (F.EXC_STAT_CONNECTED t) =
        false) ∧
    (∃ (s : State) (r : Req) (t : Fin 24) (v : Word),
      let exc := (s.setF (F.EXC_CTL_RAMP t) (bits v.toNat 31 16)).setF (F.EXC_CTL_EN t) (b2n (wbit v 0));
      s.takes r (R.EXC_CTL t) ∧ wbit v 0 = true ∧ s.live = true ∧ s.b (F.EXC_STAT_FAULT t) = false ∧ exc.b (F.EXC_STAT_CONNECTED t) =
        true) ∧
    (∃ (s : State) (r : Req) (t : Fin 24) (v : Word), s.takes r (R.EXC_CTL t) ∧ wbit v 0 = false) ∧
    (∃ (s : State) (r : Req) (t : Fin 24) (v : Word), s.takes r (R.EXC_CTL t) ∧ wbit v 0 = true ∧ s.live = false) ∧
    (∃ (s : State) (r : Req) (t : Fin 24) (v : Word), s.takes r (R.EXC_CTL t) ∧ wbit v 0 = true ∧ s.live = true ∧ s.b
      (F.EXC_STAT_FAULT t) = true) := by
  refine ⟨⟨tst 2 [(F.TILE_STAT_PSTATE 0, 1)], .host, 0, 1, ?_⟩,
    ⟨tst 2 [(F.CH_STAT_METERED 0 0, 1)], .host, 0, 1, ?_⟩,
    ⟨tst 2 [], .host, 0, 0x1, ?_⟩,
    ⟨tst 2 [], .host, 0, 0x0, ?_⟩,
    ⟨tst 2 [], 0, 0, ?_⟩,
    ⟨tst 2 [(F.CH_STAT_METERED 0 0, 1)], 0, 0, ?_⟩,
    ⟨tst 2 [], .host, 0, ?_⟩,
    ⟨tst 2 [(F.EXC_STAT_FAULT 0, 0)], .host, 0, 0x1, ?_⟩,
    ⟨tst 2 [(F.EXC_STAT_FAULT 0, 0), (F.EXC_STAT_CONNECTED 0, 1)], .host, 0, 1, ?_⟩,
    ⟨tst 2 [], .host, 0, 0x0, ?_⟩,
    ⟨tst 5 [], .host, 0, 0x1, ?_⟩,
    ⟨tst 2 [(F.EXC_STAT_FAULT 0, 1)], .host, 0, 0x1, ?_⟩⟩
  all_goals (try dsimp only [State.takes, State.issues])
  all_goals decide +kernel

theorem witness_TilePowerAndDrive :
    (∃ (s : State) (t : Fin 24), s.alive = true ∧ s.f (F.TILE_STAT_PSTATE t) = 0 ∧ s.live = true ∧ s.smplRuns = true ∧ s.rateOk t =
      true ∧ s.wanted t = true) ∧
    (∃ (s : State) (t : Fin 24), s.alive = true ∧ s.smplRuns = true ∧ s.rateOk t = true) ∧
    (∃ (s : State) (t : Fin 24), s.alive = true ∧ s.f (F.TILE_STAT_PSTATE t) = 0 ∧ s.live = true ∧ s.smplRuns = true ∧ s.rateOk t =
      false ∧ s.wanted t = true) ∧
    (∃ (s : State) (t : Fin 24), s.alive = true ∧ s.f (F.TILE_STAT_PSTATE t) = 1 ∧ s.b (F.TILE_STAT_CAL_FROZEN t) = true) ∧
    (∃ (s : State) (t : Fin 24), s.alive = true ∧ s.f (F.TILE_STAT_PSTATE t) = 1 ∧ s.b (F.TILE_STAT_CAL_FROZEN t) = false) ∧
    (∃ (s : State) (t : Fin 24), s.alive = true ∧ s.f (F.TILE_STAT_PSTATE t) = 2 ∧ s.wanted t = false) ∧
    (∃ (s : State) (t : Fin 24) (i : Fin 16), s.alive = true ∧ s.b (F.CH_STAT_UNSETTLED t i) = true) ∧
    (∃ (s : State) (t : Fin 24), s.alive = true ∧ s.b (F.EXC_STAT_RAMPING t) = true) ∧
    (∃ (s : State) (t : Fin 24) (iload : BitVec 12), s.alive = true ∧ s.b (F.EXC_STAT_CONNECTED t) = true ∧ 3000 < iload.toNat) ∧
    (∃ (s : State) (t : Fin 24) (k : Fin 8), s.alive = true ∧ s.tileActive t = true ∧ s.pairEven t (2 * k) = true) ∧
    (∃ (s : State) (t : Fin 24) (k : Fin 8) (est : Int),
      let low := s.setF (F.SKEW_HOLD t k) 0;
      let n := if 0 < est then sx 8 (low.f (F.SKEW_TRIM t k)) + 1 else sx 8 (low.f (F.SKEW_TRIM t k)) - 1;
      s.alive = true ∧ s.tileActive t = true ∧ s.pairEven t (2 * k) = true ∧ 25 < est.natAbs ∧ -127 ≤ n ∧ n ≤ 127) := by
  refine ⟨⟨tst 2 [(F.TILE_STAT_PSTATE 0, 0), (F.TILE_CTL_FORCE_ON 0, 1)], 0, ?_⟩,
    ⟨tst 2 [], 0, ?_⟩,
    ⟨tst 2 [(F.TILE_STAT_PSTATE 0, 0), (F.TILE_CTL_FORCE_ON 0, 1), (F.SMPL_CTL_VDIV, 1)], 0, ?_⟩,
    ⟨tst 2 [(F.TILE_STAT_PSTATE 0, 1), (F.TILE_STAT_CAL_FROZEN 0, 1)], 0, ?_⟩,
    ⟨tst 2 [(F.TILE_STAT_PSTATE 0, 1), (F.TILE_STAT_CAL_FROZEN 0, 0)], 0, ?_⟩,
    ⟨tst 2 [(F.TILE_STAT_PSTATE 0, 2)], 0, ?_⟩,
    ⟨tst 2 [(F.CH_STAT_UNSETTLED 0 0, 1)], 0, 0, ?_⟩,
    ⟨tst 2 [(F.EXC_STAT_RAMPING 0, 1)], 0, ?_⟩,
    ⟨tst 2 [(F.EXC_STAT_CONNECTED 0, 1)], 0, 3001, ?_⟩,
    ⟨tst 2 [(F.TILE_STAT_PSTATE 0, 2), (F.TILE_ILV_ILV 0, 1)], 0, 0, ?_⟩,
    ⟨tst 2 [(F.TILE_STAT_PSTATE 0, 2), (F.TILE_ILV_ILV 0, 1)], 0, 0, 26, ?_⟩⟩
  all_goals (try dsimp only [State.takes, State.issues])
  all_goals decide +kernel

theorem witness_HandoverOfASlice :
    (∃ (s : State) (t : Fin 24), s.alive = true ∧ s.tileActive t = true ∧ s.f (F.TILE_STAT_PHASE t) = 0 ∧ s.f (F.TILE_STAT_SPARE_POS
      t) = 16 ∧ s.b (F.TILE_CTL_ROT_EN t) = true ∧ s.b (F.TILE_STAT_CAL_FROZEN t) = false) ∧
    (∃ (s : State) (t : Fin 24),
      let x := s.tile t;
      s.alive = true ∧ s.f (F.TILE_STAT_PHASE t) = 1 ∧ x.ovCount = 256 ∧ iabs x.ovSum ≤ 256 * s.tol t) ∧
    (∃ (s : State) (t : Fin 24),
      let x := s.tile t;
      s.alive = true ∧ s.f (F.TILE_STAT_PHASE t) = 1 ∧ x.ovCount = 256 ∧ 256 * s.tol t < iabs x.ovSum ∧ x.aborts < 2) ∧
    (∃ (s : State) (t : Fin 24), s.alive = true ∧ s.f (F.TILE_STAT_PHASE t) = 2) ∧
    (∃ (s : State) (t : Fin 24),
      let x := s.tile t;
      s.alive = true ∧ s.f (F.TILE_STAT_PHASE t) = 3 ∧ x.ovCount = 256 ∧ iabs x.ovSum ≤ 256 * s.tol t) ∧
    (∃ (s : State) (t : Fin 24),
      let x := s.tile t;
      s.alive = true ∧ s.f (F.TILE_STAT_PHASE t) = 3 ∧ x.ovCount = 256 ∧ 256 * s.tol t < iabs x.ovSum ∧ x.repeated = false) ∧
    (∃ (s : State) (t : Fin 24) (k : Nat) (m : Nat) (e : Int),
      let x := s.tile t;
      s.alive = true ∧ x.fade = some (k, e, m) ∧ 4096 ≤ m) ∧
    (∃ (s : State) (t : Fin 24), s.alive = true ∧ s.f (F.TILE_STAT_PHASE t) = 4) ∧
    (∃ (s : State) (t : Fin 24),
      let x := s.tile t;
      s.alive = true ∧ s.f (F.TILE_STAT_PHASE t) = 3 ∧ x.ovCount = 256 ∧ 256 * s.tol t < iabs x.ovSum ∧ x.repeated = true) := by
  refine ⟨⟨tst 2 [(F.TILE_STAT_PHASE 0, 0), (F.TILE_STAT_SPARE_POS 0, 16), (F.TILE_CTL_ROT_EN 0, 1), (F.TILE_STAT_CAL_FROZEN 0, 0),
      (F.TILE_STAT_PSTATE 0, 2), (F.TILE_STAT_SPARE_POS 0, 16)], 0, ?_⟩,
    ⟨((tst 2 [(F.TILE_STAT_PHASE 0, 1)])).setTile 0 { Tile.init with ovCount := 256, ovSum := 0 }, 0, ?_⟩,
    ⟨((tst 2 [(F.TILE_STAT_PHASE 0, 1)])).setTile 0 { Tile.init with ovCount := 256, ovSum := 10^9 }, 0, ?_⟩,
    ⟨tst 2 [(F.TILE_STAT_PHASE 0, 2)], 0, ?_⟩,
    ⟨((tst 2 [(F.TILE_STAT_PHASE 0, 3)])).setTile 0 { Tile.init with ovCount := 256, ovSum := 0 }, 0, ?_⟩,
    ⟨((tst 2 [(F.TILE_STAT_PHASE 0, 3)])).setTile 0 { Tile.init with ovCount := 256, ovSum := 10^9 }, 0, ?_⟩,
    ⟨((tst 2 [])).setTile 0 { Tile.init with fade := some (0, 0, 4096) }, 0, 0, 4096, 0, ?_⟩,
    ⟨tst 2 [(F.TILE_STAT_PHASE 0, 4)], 0, ?_⟩,
    ⟨(tst 2 [(F.TILE_STAT_PHASE 0, 3)]).setTile 0 { Tile.init with ovCount := 256, ovSum := 10^9, repeated := true }, 0, ?_⟩⟩
  all_goals (try dsimp only [State.takes, State.issues])
  all_goals decide +kernel

theorem witness_ConversionsBecomeChannelWords :
    (∃ (s : State) (t : Fin 24) (sl : Fin 17) (edge : Nat) (k : Nat),
      let i := s.inputOf t k;
      s.alive = true ∧ s.tileActive t = true ∧ s.samples t edge = true ∧ s.placeOf t sl = some k ∧ s.b (F.CH_STAT_FAILED t i) = false ∧
        s.overlap t = false ∧ s.delivers t sl k = true ∧ sl.val ≠ 16 ∧ (s.tile t).fade = none) := by
  refine ⟨tst 3 [(F.TILE_STAT_PSTATE 0, 2), (F.TILE_STAT_SPARE_POS 0, 16)], 0, 0, 0, 0, ?_⟩
  all_goals (try dsimp only [State.takes, State.issues])
  all_goals decide +kernel

theorem witness_SystemTimeAndGrids :
    (∃ (s : State) (r : Req) (v : Word), s.takes r R.ST_LOAD ∧ wbit v 0 = true ∧ (s.mode = 1 ∨ s.mode = 2) ∧ s.gridsStopped = true) ∧
    (∃ (s : State) (r : Req) (v : Word), s.takes r R.ST_LOAD ∧ wbit v 0 = true ∧ s.mode ≠ 1 ∧ s.mode ≠ 2) ∧
    (∃ (s : State) (r : Req) (v : Word), s.takes r R.ST_LOAD ∧ wbit v 0 = true ∧ (s.mode = 1 ∨ s.mode = 2) ∧ s.gridsStopped = false) ∧
    (∃ (s : State) (r : Req) (g : Fin 4) (frac : Bool) (v : Word),
      let a := if frac then R.GRID_PER_FRAC g.val else R.GRID_PER_NS g.val;
      s.takes r a ∧ 25 * 2 ^ 31 ≤ (s.setW a v).per g ∧ s.gstate g = 0 ∧ (s.setW a v).periodFits g = true) ∧
    (∃ (s : State) (r : Req) (g : Fin 4) (v : Word),
      let cdiv := bits v.toNat 27 16;
      s.takes r (R.GRID_CTL g) ∧ wbit v 1 = false ∧ cdiv ≠ 0 ∧ s.gstate g = 0) ∧
    (∃ (s : State) (r : Req) (g : Fin 4) (v : Word),
      let cdiv := bits v.toNat 27 16;
      s.takes r (R.GRID_CTL g) ∧ cdiv ≠ 0 ∧ s.f (F.GRID_CTL_TYPE g) = b2n (wbit v 0) ∧ s.f (F.GRID_CTL_CDIV g) = cdiv ∧ s.gridUsed g =
        false) ∧
    (∃ (s : State) (r : Req) (g : Fin 4) (v : Word),
      let cdiv := bits v.toNat 27 16;
      s.takes r (R.GRID_CTL g) ∧ s.gstate g ≠ 0 ∧ s.gridUsed g = true ∧ cdiv ≠ 0 ∧ wbit v 1 = true) ∧
    (∃ (s : State) (r : Req) (m : BitVec 4),
      let at_ := s.two R.GRID_SYNC_SEC % 2 ^ 48 * secU + (s.w R.GRID_SYNC_NS).toNat * nsU;
      s.takes r R.GRID_SYNC_CMD ∧ s.live = true ∧ s.st + 100000 * nsU ≤ at_ ∧ s.machineUnlocked (maskGrids m) = false) ∧
    (∃ (s : State) (r : Req) (m : BitVec 4), s.takes r R.GRID_SYNC_CMD ∧ s.live = true ∧ s.machineUnlocked (maskGrids m) = false) ∧
    (∃ (s : State) (r : Req), s.takes r R.GRID_SYNC_CMD ∧ s.live = true) ∧
    (∃ (s : State) (r : Req) (g : Fin 4) (frac : Bool),
      let a := if frac then R.GRID_PER_FRAC g.val else R.GRID_PER_NS g.val;
      s.takes r a ∧ s.gstate g ≠ 0) ∧
    (∃ (s : State) (r : Req) (g : Fin 4) (frac : Bool) (v : Word),
      let a := if frac then R.GRID_PER_FRAC g.val else R.GRID_PER_NS g.val;
      s.takes r a ∧ s.gstate g = 0 ∧ (s.setW a v).per g < 25 * 2 ^ 31) ∧
    (∃ (s : State) (r : Req) (g : Fin 4) (frac : Bool) (v : Word),
      let a := if frac then R.GRID_PER_FRAC g.val else R.GRID_PER_NS g.val;
      s.takes r a ∧ s.gstate g = 0 ∧ (s.setW a v).periodFits g = false) := by
  refine ⟨⟨tst 1 [], .host, 0x1, ?_⟩,
    ⟨tst 3 [], .host, 0x1, ?_⟩,
    ⟨tst 1 [(F.GRID_STAT_STATE 0, 2)], .host, 0x1, ?_⟩,
    ⟨tst 2 [], .host, 0, false, 13, ?_⟩,
    ⟨tst 2 [], .host, 0, 0x10000, ?_⟩,
    ⟨tst 2 [], .host, 0, 0x10000, ?_⟩,
    ⟨tst 2 [(F.GRID_STAT_STATE 0, 2), (F.SE_CTL_VALID 0, 1), (F.SE_CTL_ACT 0, 1)], .host, 0, 0x10002, ?_⟩,
    ⟨((tst 2 [])).setW R.GRID_SYNC_SEC 1, .host, 0, ?_⟩,
    ⟨tst 2 [], .host, 0, ?_⟩,
    ⟨tst 2 [], .host, ?_⟩,
    ⟨tst 2 [(F.GRID_STAT_STATE 0, 2)], .host, 0, false, ?_⟩,
    ⟨tst 2 [], .host, 0, false, 0, ?_⟩,
    ⟨tst 2 [(F.SE_CTL_VALID 0, 1), (F.SE_CTL_PATH 0, 1)], .host, 0, false, 13, ?_⟩⟩
  all_goals (try dsimp only [State.takes, State.issues])
  all_goals decide +kernel

theorem witness_CoursesAndTheSyncInstant :
    (∃ (s : State) (g : Fin 4) (t : Nat),
      let x := s.grid g;
      s.alive = true ∧ s.armed g = true ∧ x.sync = some t ∧ s.machine g = false) ∧
    (∃ (s : State) (g : Fin 4) (edge : Nat) (t : Nat),
      let x := s.grid g;
      s.alive = true ∧ s.armed g = true ∧ x.sync = some t ∧ s.machine g = true ∧ (s.smpl.sync = none ∨ s.smpl.sync = some (t, edge))) ∧
    (∃ (s : State) (g : Fin 4) (edge : Nat) (t : Nat) (e : Nat),
      let x := s.grid g;
      s.alive = true ∧ s.armed g = true ∧ x.sync = some t ∧ s.machine g = true ∧ s.smpl.sync = some (t, e) ∧ e ≠ edge) ∧
    (∃ (s : State) (g : Fin 4), s.alive = true ∧ s.armed g = false) ∧
    (∃ (s : State) (g : Fin 4),
      let x := s.grid g;
      let n := x.next;
      s.alive = true ∧ s.running g = false ∧ n < 2 ^ 48) ∧
    (∃ (s : State) (g : Fin 4),
      let x := s.grid g;
      let n := x.next;
      s.alive = true ∧ s.running g = true ∧ n < 2 ^ 48 ∧ s.machine g = false ∧ x.sync = none) ∧
    (∃ (s : State) (g : Fin 4) (t : Nat),
      let x := s.grid g;
      let n := x.next;
      s.alive = true ∧ s.running g = true ∧ n < 2 ^ 48 ∧ s.machine g = false ∧ x.sync = some t ∧ s.instant5 g n < u5 t) ∧
    (∃ (s : State) (g : Fin 4) (t : Nat),
      let x := s.grid g;
      let n := x.next;
      s.alive = true ∧ s.running g = true ∧ n < 2 ^ 48 ∧ s.machine g = false ∧ s.armed g = true ∧ x.sync = some t ∧ u5 t ≤ s.instant5 g
        n) ∧
    (∃ (s : State) (g : Fin 4),
      let x := s.grid g;
      let n := x.next;
      let w := s.wrapCourse g;
      s.alive = true ∧ s.running g = true ∧ 2 ^ 48 ≤ n ∧ w.machine g = false ∧ (w.grid g).sync = none) ∧
    (∃ (s : State), s.alive = true) ∧
    (∃ (s : State) (g : Fin 4),
      let x := s.grid g;
      let z := (s.bump (F.GRID_STAT_WRAPS g) 1).setGrid g
        { x with next := 0, prev := 2 ^ 48 - 1, base := x.base + 2 ^ 48, edge0 := x.edge0 + s.f (F.GRID_CTL_CDIV g) * 2 ^ 48 };
      s.alive = true ∧ z.machine g = false) ∧
    (∃ (s : State) (g : Fin 4) (edge : Nat) (tau : Nat),
      let x := s.grid g;
      let n := x.next;
      let at_ := (s.edgeTime edge tau).toNat;
      s.alive = true ∧ s.running g = true ∧ n < 2 ^ 48 ∧ s.machine g = true ∧ x.sync = none ∧ s.smplRuns = true ∧ edge = x.edge0 + s.f
        (F.GRID_CTL_CDIV g) * n ∧ s.firstEdge x at_ = true) ∧
    (∃ (s : State) (g : Fin 4) (edge : Nat) (tau : Nat),
      let x := s.grid g;
      let n := x.next;
      let at_ := (s.edgeTime edge tau).toNat;
      s.alive = true ∧ s.running g = true ∧ n < 2 ^ 48 ∧ s.machine g = true ∧ (edge ≠ x.edge0 + s.f (F.GRID_CTL_CDIV g) * n ∨
        s.smplRuns = false ∨ s.firstEdge x at_ = false)) ∧
    (∃ (s : State) (g : Fin 4) (edge : Nat) (tau : Nat) (t : Nat),
      let x := s.grid g;
      let at_ := (s.edgeTime edge tau).toNat;
      s.alive = true ∧ x.at0 = some t ∧ at_ < u5 t) ∧
    (∃ (s : State) (g : Fin 4) (edge : Nat) (tau : Nat) (t : Nat),
      let x := s.grid g;
      let at_ := (s.edgeTime edge tau).toNat;
      s.alive = true ∧ x.at0 = some t ∧ u5 t + s.widestSmpl ≤ at_) := by
  refine ⟨⟨((tst 2 [(F.GRID_STAT_STATE 0, 1)]).setGrid 0 { Grid.init with sync := some 0 }), 0, 0, ?_⟩,
    ⟨(tst 2 [(F.GRID_STAT_STATE 0, 1), (F.GRID_CTL_TYPE 0, 1)]).setGrid 0 { Grid.init with sync := some 0 }, 0, 0, 0, ?_⟩,
    ⟨({ (tst 2 [(F.GRID_STAT_STATE 0, 1), (F.GRID_CTL_TYPE 0, 1)]).setGrid 0 { Grid.init with sync := some 0 } with smpl := { State.reset.smpl with sync := some (0, 0) } }
      : State), 0, 1, 0, 0, ?_⟩,
    ⟨tst 2 [], 0, ?_⟩,
    ⟨tst 2 [], 0, ?_⟩,
    ⟨tst 2 [(F.GRID_STAT_STATE 0, 2)], 0, ?_⟩,
    ⟨(tst 2 [(F.GRID_STAT_STATE 0, 2)]).setGrid 0 { Grid.init with sync := some 1 }, 0, 1, ?_⟩,
    ⟨(tst 2 [(F.GRID_STAT_STATE 0, 3)]).setGrid 0 { Grid.init with sync := some 0 }, 0, 0, ?_⟩,
    ⟨(tst 2 [(F.GRID_STAT_STATE 0, 2)]).setGrid 0 { Grid.init with next := 2 ^ 48 }, 0, ?_⟩,
    ⟨tst 2 [], ?_⟩,
    ⟨tst 2 [], 0, ?_⟩,
    ⟨tst 2 [(F.GRID_STAT_STATE 0, 2), (F.GRID_CTL_TYPE 0, 1), (F.SMPL_CTL_SRC, 1), (F.MCLK_STAT_LOCK, 1), (F.GRID_CTL_CDIV 0, 1)], 0,
      0, 0, ?_⟩,
    ⟨tst 2 [(F.GRID_STAT_STATE 0, 2), (F.GRID_CTL_TYPE 0, 1), (F.SMPL_CTL_SRC, 1), (F.MCLK_STAT_LOCK, 1), (F.GRID_CTL_CDIV 0, 1)], 0,
      1, 0, ?_⟩,
    ⟨(tst 2 []).setGrid 0 { Grid.init with at0 := some (2 ^ 62) }, 0, 0, 0, (2 ^ 62), ?_⟩,
    ⟨((tst 2 [])).setGrid 0 { Grid.init with at0 := some 0 }, 0, (2 ^ 64), 0, 0, ?_⟩⟩
  all_goals (try dsimp only [State.takes, State.issues])
  all_goals decide +kernel

theorem witness_SampleClockAndReference :
    (∃ (s : State) (r : Req) (v : Word),
      let vdiv := bits v.toNat 12 0;
      s.takes r R.SMPL_CTL ∧ s.anyMetered = false ∧ 125 ≤ vdiv ∧ vdiv ≤ 5000 ∧ s.b F.SMPL_CTL_SRC = wbit v 16 ∧ s.tilesQuiet = true ∧
        s.sourceOk (wbit v 16) = true) ∧
    (∃ (s : State) (r : Req) (v : Word),
      let vdiv := bits v.toNat 12 0;
      s.takes r R.SMPL_CTL ∧ s.anyMetered = false ∧ 125 ≤ vdiv ∧ vdiv ≤ 5000 ∧ s.b F.SMPL_CTL_SRC ≠ wbit v 16 ∧ s.tilesQuiet = true ∧
        s.sourceOk (wbit v 16) = true) ∧
    (∃ (s : State) (r : Req) (v : Word),
      let vdiv := bits v.toNat 12 0;
      s.takes r R.SMPL_CTL ∧ s.anyMetered = false ∧ s.tilesQuiet = true ∧ 125 ≤ vdiv ∧ vdiv ≤ 5000 ∧ s.sourceOk (wbit v 16) = false) ∧
    (∃ (s : State) (r : Req) (v : Word),
      let vdiv := bits v.toNat 12 0;
      s.takes r R.SMPL_CTL ∧ s.anyMetered = false ∧ s.tilesQuiet = true ∧ (vdiv < 125 ∨ 5000 < vdiv)) ∧
    (∃ (s : State) (r : Req) (v : Word),
      let mul := bits v.toNat 28 16;
      s.takes r R.MCLK_CTL ∧ 50 ≤ mul ∧ mul ≤ 5000 ∧ s.f F.MCLK_CTL_MMUL = mul ∧ wbit v 0 = false) ∧
    (∃ (s : State) (r : Req) (v : Word), s.takes r R.SMPL_PHASE ∧ bits v.toNat 18 0 < 64 * s.f F.SMPL_CTL_VDIV) ∧
    (∃ (s : State) (r : Req) (v : Word), s.takes r R.SMPL_PHASE ∧ 64 * s.f F.SMPL_CTL_VDIV ≤ bits v.toNat 18 0) ∧
    (∃ (s : State) (freq : BitVec 24), s.alive = true ∧ s.mode ≠ 0 ∧ s.b F.SMPL_CTL_SRC = true ∧ s.b F.MCLK_STAT_LOCK = false ∧ s.b
      F.MCLK_STAT_HOLDOVER = false ∧ s.b F.MCLK_STAT_LOS = false ∧ s.productOk freq.toNat = true) ∧
    (∃ (s : State), s.alive = true ∧ s.mode ≠ 0 ∧ s.b F.MCLK_STAT_LOCK = true) ∧
    (∃ (s : State) (freq : BitVec 24), s.alive = true ∧ s.mode ≠ 0 ∧ s.b F.MCLK_STAT_LOCK = true ∧ (s.smplHold.setF F.MCLK_STAT_FREQ
      freq.toNat).productOk freq.toNat = false) ∧
    (∃ (s : State), s.alive = true ∧ s.mode ≠ 0) ∧
    (∃ (s : State) (r : Req) (v : Word),
      let mul := bits v.toNat 28 16;
      s.takes r R.MCLK_CTL ∧ 50 ≤ mul ∧ mul ≤ 5000 ∧ s.f F.MCLK_CTL_MMUL = mul ∧ s.b F.MCLK_STAT_LOS = false ∧ (
      let u := s.setF F.MCLK_CTL_MMUL (mul);
      u.b F.SMPL_CTL_SRC = true ∧ u.b F.MCLK_STAT_HOLDOVER = true ∧ u.productOk (u.f F.MCLK_STAT_FREQ) = true)) ∧
    (∃ (s : State) (r : Req), s.takes r R.SMPL_CTL ∧ s.anyMetered = false ∧ s.tilesQuiet = false) := by
  refine ⟨⟨tst 2 [], .host, 0x7d, ?_⟩,
    ⟨tst 2 [], .host, 0x1007D, ?_⟩,
    ⟨tst 2 [(F.SE_CTL_VALID 0, 1), (F.SE_CTL_ACT 0, 1)], .host, 0x1007D, ?_⟩,
    ⟨tst 2 [], .host, 0x0, ?_⟩,
    ⟨tst 2 [(F.MCLK_CTL_MMUL, 50)], .host, 50 <<< 16, ?_⟩,
    ⟨tst 2 [], .host, 0, ?_⟩,
    ⟨tst 2 [(F.SMPL_CTL_VDIV, 125)], .host, 8000, ?_⟩,
    ⟨tst 2 [(F.SMPL_CTL_SRC, 1), (F.MCLK_STAT_LOCK, 0), (F.MCLK_STAT_HOLDOVER, 0), (F.MCLK_STAT_LOS, 0), (F.MCLK_CTL_MMUL, 500)],
      1000000, ?_⟩,
    ⟨tst 2 [(F.MCLK_STAT_LOCK, 1), (F.MCLK_STAT_LOCK, 1)], ?_⟩,
    ⟨tst 2 [(F.MCLK_STAT_LOCK, 1)], 0, ?_⟩,
    ⟨tst 2 [], ?_⟩,
    ⟨tst 2 [(F.MCLK_STAT_LOS, 0), (F.MCLK_CTL_MMUL, 500), (F.MCLK_STAT_FREQ, 1000000), (F.SMPL_CTL_SRC, 1), (F.MCLK_STAT_HOLDOVER,
      1)], .host, 500 <<< 16, ?_⟩,
    ⟨tst 2 [(F.TILE_STAT_PSTATE 0, 1)], .host, ?_⟩⟩
  all_goals (try dsimp only [State.takes, State.issues])
  all_goals decide +kernel

theorem witness_SecondPulseTimeOfDayAndCalendar :
    (∃ (s : State) (t : Nat) (l : Nat) (falling : Bool),
      let u := t / 16384 * 16384;
      let s0 := s.reach t;
      let c := s0.cycAt u;
      let stamp := moveT u (-(s0.sw R.PPS_IN_ADJ) * nsU);
      let s1 := s0.setTime4 R.PPS_IN_STAMP stamp;
      let fresh := s1.pps;
      s.alive = true ∧ s.mode ≠ 0 ∧ s.b F.PPS_CTL_IN_POL = falling ∧ fresh.last = some l ∧ (c + 100000 * nsU < l + secU ∨ l + secU +
        100000 * nsU < c)) ∧
    (∃ (s : State) (t : Nat) (l : Nat) (falling : Bool),
      let u := t / 16384 * 16384;
      let s0 := s.reach t;
      let c := s0.cycAt u;
      let stamp := moveT u (-(s0.sw R.PPS_IN_ADJ) * nsU);
      let s1 := s0.setTime4 R.PPS_IN_STAMP stamp;
      let fresh := s1.pps;
      s.alive = true ∧ s.mode ≠ 0 ∧ s.b F.PPS_CTL_IN_POL = falling ∧ fresh.last = some l ∧ l + secU ≤ c + 100000 * nsU ∧ c ≤ l + secU +
        100000 * nsU ∧ fresh.tod = none) ∧
    (∃ (s : State) (t : Nat) (falling : Bool),
      let u := t / 16384 * 16384;
      let s0 := s.reach t;
      let stamp := moveT u (-(s0.sw R.PPS_IN_ADJ) * nsU);
      let s1 := s0.setTime4 R.PPS_IN_STAMP stamp;
      let fresh := s1.pps;
      s.alive = true ∧ s.mode ≠ 0 ∧ s.b F.PPS_CTL_IN_POL = falling ∧ fresh.last = none ∧ fresh.tod = none) ∧
    (∃ (s : State) (t : Nat) (sec : Nat) (falling : Bool),
      let u := t / 16384 * 16384;
      let s0 := s.reach t;
      let c := s0.cycAt u;
      let stamp := moveT u (-(s0.sw R.PPS_IN_ADJ) * nsU);
      let s1 := s0.setTime4 R.PPS_IN_STAMP stamp;
      let fresh := s1.pps;
      let taken := fun (run : Nat) =>
        ({ s1 with pps := { fresh with last := some c, from_ := c, run := fresh.run + 1, missed := false, tod := none, todRun := run } }
        : State);
      s.alive = true ∧ s.mode ≠ 0 ∧ s.b F.PPS_CTL_IN_POL = falling ∧ fresh.last = none ∧ fresh.tod = some sec ∧ (
      let z := (taken (fresh.todRun + 1)).rootOks ((taken (fresh.todRun + 1)).b F.TIME_STAT_PPS_OK || decide (2 ≤ fresh.run + 1))
        (decide (2 ≤ fresh.todRun + 1));
      z.f F.TIME_CTL_SRC = 1 ∧ z.b F.TIME_STAT_TOD_OK = true)) ∧
    (∃ (s : State) (falling : Bool), s.alive = true ∧ s.b F.PPS_CTL_IN_POL ≠ falling) ∧
    (∃ (s : State), s.alive = true ∧ s.mode ≠ 0 ∧ s.pps.missed = false) ∧
    (∃ (s : State) (sec : Nat) (bytes : List Byte), s.alive = true ∧ s.mode ≠ 0 ∧ s.b F.TOD_CTL_EN = true ∧ todValid bytes = true ∧
      beNat ((bytes.drop 2).take 6) = sec) ∧
    (∃ (s : State) (err : Bool) (bytes : List Byte), s.alive = true ∧ s.mode ≠ 0 ∧ s.b F.TOD_CTL_EN = true ∧ (todValid bytes = false
      ∨ err = true)) ∧
    (∃ (s : State), s.alive = true ∧ s.live = true ∧ s.b F.PPS_CTL_OUT_EN = true ∧ s.pps.out = none ∧ s.pps.mark = none) ∧
    (∃ (s : State) (l : Nat), s.alive = true ∧ s.live = true ∧ s.b F.PPS_CTL_OUT_EN = true ∧ s.pps.out = none ∧ s.pps.mark = some l) ∧
    (∃ (s : State) (t : Nat), s.alive = true ∧ s.pps.out = some t) ∧
    (∃ (s : State) (r : Req), s.takes r R.RTC_CTL) ∧
    (∃ (s : State), s.alive = true ∧ s.mode ≠ 0 ∧ s.b F.RTC_CTL_FOLLOW = true ∧ s.f F.TIME_STAT_QUALITY = 0) ∧
    (∃ (s : State) (t : Nat), s.rtcLoad = some t) ∧
    (∃ (s : State), s.rtcLoad = none) ∧
    (∃ (s : State) (k : Nat), (s.aon = true ∨ s.vbat = true) ∧ s.rtcPhase + 131072 * k < 1000000000) ∧
    (∃ (s : State) (k : Nat), (s.aon = true ∨ s.vbat = true) ∧ 1000000000 ≤ s.rtcPhase + 131072 * k) := by
  refine ⟨⟨({ tst 2 [] with pps := { Pps.init with last := some 0 } } : State), 0, 0, false, ?_⟩,
    ⟨({ tst 2 [] with pps := { Pps.init with last := some 0 } } : State), secU, 0, false, ?_⟩,
    ⟨tst 2 [], 0, false, ?_⟩,
    ⟨({ tst 2 [(F.TIME_CTL_SRC, 1)] with pps := { Pps.init with tod := some 0, todRun := 1 } } : State), 0, 0, false, ?_⟩,
    ⟨tst 2 [], true, ?_⟩,
    ⟨({ tst 2 [] with pps := { Pps.init with last := some 0 } } : State), ?_⟩,
    ⟨tst 2 [(F.TOD_CTL_EN, 1)], 0, [0x54, 0x44, 0, 0, 0, 0, 0, 0, 0, 236], ?_⟩,
    ⟨tst 2 [(F.TOD_CTL_EN, 1)], false, [], ?_⟩,
    ⟨tst 2 [(F.PPS_CTL_OUT_EN, 1)], ?_⟩,
    ⟨({ (tst 2 [(F.PPS_CTL_OUT_EN, 1)]) with pps := { Pps.init with mark := some 0 } } : State), 0, ?_⟩,
    ⟨({ tst 2 [] with pps := { Pps.init with out := some 0 } } : State), 0, ?_⟩,
    ⟨tst 2 [], .host, ?_⟩,
    ⟨tst 2 [(F.RTC_CTL_FOLLOW, 1), (F.TIME_STAT_QUALITY, 0)], ?_⟩,
    ⟨{ tst 2 [] with rtcLoad := some 5 }, 5, by
    rfl⟩,
    ⟨tst 2 [], ?_⟩,
    ⟨tst 2 [], 0, ?_⟩,
    ⟨tst 2 [], 7630, ?_⟩⟩
  all_goals (try dsimp only [State.takes, State.issues])
  all_goals decide +kernel

theorem witness_TimeExchanges :
    (∃ (s : State), s.alive = true ∧ s.f F.TIME_CTL_SRC = 2 ∧ s.role s.primary = 1 ∧ s.canTime s.primary = true) ∧
    (∃ (s : State) (p : Fin 16),
      let x := s.xch p;
      let u := (s.thaw p).freeBuf p 1;
      s.alive = true ∧ s.portUp p = true ∧ x.answered = none ∧ u.role p = 2 ∧ u.b F.TT_CTL_SERVE = true ∧ u.b F.TIME_STAT_SEEDED = true
        ∧ u.live = true) ∧
    (∃ (s : State) (p : Fin 16) (t : Nat),
      let x := s.xch p;
      s.alive = true ∧ s.portUp p = true ∧ x.answered = some t ∧ s.cyc < t + 50000 * nsU) ∧
    (∃ (s : State) (p : Fin 16),
      let x := s.xch p;
      let u := (s.thaw p).freeBuf p 1;
      s.alive = true ∧ s.portUp p = true ∧ u.role p = 1 ∧ x.sent = none) ∧
    (∃ (s : State) (p : Fin 16) (tsid : BitVec 8) (t1 : Nat) (ts0 : Nat),
      let x := s.xch p;
      let u := (s.thaw p).freeBuf p 1;
      s.alive = true ∧ s.portUp p = true ∧ u.role p = 1 ∧ x.sent = some (ts0, t1) ∧ ts0 ≠ tsid.toNat) ∧
    (∃ (s : State) (p : Fin 16) (tsid : BitVec 8) (steps : BitVec 8) (t1 : Nat) (t4 : Nat),
      let x := s.xch p;
      let u := (s.thaw p).freeBuf p 1;
      let own := u.f F.TT_CNT_STEPS;
      let u2 := u.setXch p { x with steps := some (steps.toNat, own) };
      s.alive = true ∧ s.portUp p = true ∧ u.role p = 1 ∧ x.sent = some (tsid.toNat, t1) ∧ x.steps = none ∧ stampDiff (s.rxStamp p t4)
        t1 ≤ 200000 * (nsU : Int) ∧ u2.f F.TIME_CTL_SRC = 2 ∧ p = u2.primary) ∧
    (∃ (s : State) (t : Nat), s.alive = true ∧ s.mode ≠ 0 ∧ s.servo.measAt = some t ∧ s.f F.TIME_CTL_SRC = 2) ∧
    (∃ (s : State) (r : Req) (v : Word),
      let ts := bits v.toNat 7 0;
      s.takes r R.TT_PROBE ∧ ts = 0) ∧
    (∃ (s : State) (r : Req) (v : Word),
      let ts := bits v.toNat 7 0;
      s.takes r R.TT_PROBE ∧ ts ≠ 0 ∧ s.portUp (bits v.toNat 27 24) = false) ∧
    (∃ (s : State) (r : Req) (v : Word),
      let ts := bits v.toNat 7 0;
      s.takes r R.TT_PROBE ∧ ts ≠ 0 ∧ s.portUp (bits v.toNat 27 24) = true ∧ s.live = true) ∧
    (∃ (s : State) (r : Req) (p : Fin 16), s.alive = true ∧ s.mapStop r (R.TSQ_POP p) false = none ∧ (Tab.get (fun _ => []) s.tsq p =
      [])) ∧
    (∃ (s : State) (r : Req) (p : Fin 16) (ts0 : Nat) (t : Nat) (l : List (Bool × Nat × Nat)) (ex : Bool), s.alive = true ∧ s.mapStop
      r (R.TSQ_POP p) false = none ∧ (Tab.get (fun _ => []) s.tsq p = (ex, ts0, t) :: l)) := by
  refine ⟨⟨((tst 2 [(F.TIME_CTL_SRC, 2), (F.QUAD_STAT_PS0 0, 2), (F.QUAD_CTL_ROLE0 0, 1)])).setPort 0
      { Port.init with gotLink := true, lim := [(1, 1)] }, ?_⟩,
    ⟨tst 2 [(F.QUAD_STAT_PS0 0, 2), (F.QUAD_CTL_ROLE0 0, 2), (F.TT_CTL_SERVE, 1), (F.TIME_STAT_SEEDED, 1)], 0, ?_⟩,
    ⟨((tst 2 [(F.QUAD_STAT_PS0 0, 2)])).setXch 0 { Xchg.init with answered := some 0 }, 0, 0, ?_⟩,
    ⟨tst 2 [(F.QUAD_STAT_PS0 0, 2), (F.QUAD_CTL_ROLE0 0, 1)], 0, ?_⟩,
    ⟨((tst 2 [(F.QUAD_STAT_PS0 0, 2), (F.QUAD_CTL_ROLE0 0, 1)])).setXch 0 { Xchg.init with sent := some (1, 0) }, 0, 0, 0, 1, ?_⟩,
    ⟨(tst 2 [(F.QUAD_STAT_PS0 0, 2), (F.QUAD_CTL_ROLE0 0, 1), (F.TIME_CTL_SRC, 2)]).setXch 0 { Xchg.init with sent := some (0, (tst 2 [(F.QUAD_STAT_PS0 0, 2), (F.QUAD_CTL_ROLE0 0, 1), (F.TIME_CTL_SRC, 2)]).rxStamp 0 0) }, 0, 0, 0, ((tst 2 [(F.QUAD_STAT_PS0 0, 2), (F.QUAD_CTL_ROLE0 0, 1), (F.TIME_CTL_SRC, 2)]).rxStamp 0 0), 0, by
    dsimp only
    and_intros
    all_goals first | decide +kernel | rfl | exact (stampDiff_self _).trans_le (by decide)⟩,
    ⟨(({ tst 2 [] with servo := { Servo.init with measAt := some 0 } } : State).setF F.TIME_CTL_SRC 2), 0, ?_⟩,
    ⟨tst 2 [], .host, 0x0, ?_⟩,
    ⟨tst 2 [], .host, 0x1, ?_⟩,
    ⟨tst 2 [(F.QUAD_STAT_PS0 0, 2)], .host, 1, ?_⟩,
    ⟨tst 2 [], .host, 0, ?_⟩,
    ⟨({ tst 2 [] with tsq := [(0, [(false, 0, 0)])] } : State), .host, 0, 0, 0, [], false, ?_⟩⟩
  all_goals (try dsimp only [State.takes, State.issues])
  all_goals decide +kernel

theorem witness_StepsAndTheServo :
    (∃ (s : State) (r : Req) (v : Word),
      let delta := s.offset4 R.TT_DELTA;
      s.takes r R.TT_STEP ∧ wbit v 0 = false ∧ wbit v 4 = true ∧ s.live = true ∧ s.servo.pend = none ∧ delta ≠ 0) ∧
    (∃ (s : State) (r : Req) (v : Word),
      let delta := s.offset4 R.TT_DELTA;
      s.takes r R.TT_STEP ∧ wbit v 0 = false ∧ wbit v 4 = true ∧ s.live = true ∧ s.servo.pend = none ∧ delta = 0) ∧
    (∃ (s : State) (r : Req) (v : Word), s.takes r R.TT_STEP ∧ wbit v 0 = false ∧ s.live = true) ∧
    (∃ (s : State) (r : Req) (v : Word), s.takes r R.TT_STEP ∧ bits v.toNat 9 8 = 0 ∧ wbit v 4 = false ∧ s.f F.TT_STAT_STATE = 4) ∧
    (∃ (s : State) (r : Req) (v : Word), s.takes r R.TT_STEP ∧ bits v.toNat 9 8 = 0 ∧ wbit v 4 = false ∧ s.f F.TT_STAT_STATE ≠ 4) ∧
    (∃ (s : State) (t : Nat) (d : Int), s.alive = true ∧ s.mode ≠ 0 ∧ s.servo.pend = some ⟨t, some d⟩ ∧ d ≠ 0) ∧
    (∃ (s : State), s.alive = true ∧ s.servo.pend = none) ∧
    (∃ (s : State) (r : Req) (v : Word), s.takes r R.TIME_CTL ∧ bits v.toNat 1 0 = 3) ∧
    (∃ (s : State) (r : Req) (v : Word), s.takes r R.TIME_CTL ∧ (bits v.toNat 1 0 = 2 ∨ bits v.toNat 1 0 = 0)) ∧
    (∃ (s : State) (r : Req) (v : Word), s.takes r R.TIME_CTL ∧ bits v.toNat 1 0 = 1 ∧ s.f F.TIME_CTL_SRC = 1) ∧
    (∃ (s : State) (r : Req) (v : Word), s.takes r R.TIME_CTL ∧ bits v.toNat 1 0 = 1 ∧ s.f F.TIME_CTL_SRC ≠ 1) ∧
    (∃ (s : State) (r : Req) (v : Word) (second : Bool),
      let a := if second then R.TT_ASYM2 else R.TT_ASYM;
      s.takes r a ∧ 1000000 < iabs v.toInt) ∧
    (∃ (s : State) (r : Req) (v : Word) (second : Bool),
      let a := if second then R.TT_ASYM2 else R.TT_ASYM;
      s.takes r a ∧ iabs v.toInt ≤ 1000000 ∧ (s.setW a v).f F.TT_STAT_STATE ≠ 5) ∧
    (∃ (s : State) (r : Req) (v : Word), s.takes r R.TT_CTL ∧ (bits v.toNat 24 16 = 0 ∨ 500 < bits v.toNat 24 16 ∨ 10 < bits v.toNat
      11 8)) ∧
    (∃ (s : State) (r : Req) (v : Word), s.takes r R.TT_CTL ∧ 1 ≤ bits v.toNat 24 16 ∧ bits v.toNat 24 16 ≤ 500 ∧ bits v.toNat 11 8 ≤
      10 ∧ wbit v 1 = false) := by
  refine ⟨⟨((tst 2 [])).setW R.TT_DELTA 1, .host, 0x10, ?_⟩,
    ⟨tst 2 [], .host, 0x10, ?_⟩,
    ⟨tst 2 [], .host, 0x0, ?_⟩,
    ⟨tst 2 [(F.TT_STAT_STATE, 4)], .host, 0x0, ?_⟩,
    ⟨tst 2 [(F.TT_STAT_STATE, 0)], .host, 0x0, ?_⟩,
    ⟨({ tst 2 [] with servo := { Servo.init with pend := some ⟨0, some 1⟩ } } : State), 0, 1, ?_⟩,
    ⟨tst 2 [], ?_⟩,
    ⟨tst 2 [], .host, 0x3, ?_⟩,
    ⟨tst 2 [], .host, 0x2, ?_⟩,
    ⟨tst 2 [(F.TIME_CTL_SRC, 1)], .host, 0x1, ?_⟩,
    ⟨tst 2 [(F.TIME_CTL_SRC, 0)], .host, 0x1, ?_⟩,
    ⟨tst 2 [], .host, 1000001, false, ?_⟩,
    ⟨tst 2 [], .host, 0, false, ?_⟩,
    ⟨tst 2 [], .host, 0x0, ?_⟩,
    ⟨tst 2 [], .host, 0x10000, ?_⟩⟩
  all_goals (try dsimp only [State.takes, State.issues])
  all_goals decide +kernel

theorem witness_FilterConfiguration_a :
    (∃ (s : State) (r : Req) (t : Fin 24) (p : Fin 8) (v : Word), s.takes r (R.FP_CTL t p) ∧ s.pathIdle t p = true ∧ fpCtlRange
      v.toNat = false) ∧
    (∃ (s : State) (r : Req) (t : Fin 24) (p : Fin 8), s.takes r (R.FP_CTL t p) ∧ s.pathIdle t p = false) ∧
    (∃ (s : State) (r : Req) (t : Fin 24) (p : Fin 8) (v : Word),
      let ctl := s.setW (R.FP_CTL t p) (v &&& 0xB73F3700);
      s.takes r (R.FP_CTL t p) ∧ fpCtlRange v.toNat = true ∧ s.pathIdle t p = true ∧ ctl.ctlOk t p = true ∧ ctl.gridMatch t p = true ∧
        ctl.pathFits t p = true) ∧
    (∃ (s : State) (r : Req) (t : Fin 24) (p : Fin 8) (v : Word),
      let cic := s.setF (F.FP_CIC_RATIO t p) v.toNat;
      s.takes r (R.FP_CIC t p) ∧ within (bits v.toNat 12 0) 1 4096 = true ∧ s.pathIdle t p = true ∧ cic.cicOk t p = true ∧
        cic.gridMatch t p = true ∧ cic.pathFits t p = true) ∧
    (∃ (s : State) (r : Req) (t : Fin 24) (p : Fin 8) (v : Word), s.takes r (R.FP_TAPS t p) ∧ within (bits v.toNat 8 0) 1 256 = true
      ∧ within (bits v.toNat 24 16) 1 256 = true ∧ s.pathIdle t p = true ∧ (s.fpTaps t p v.toNat).gridMatch t p = true ∧
      (s.fpTaps t p v.toNat).pathFits t p = true) ∧
    (∃ (s : State) (r : Req) (t : Fin 24) (p : Fin 8) (v : Word),
      let gd := s.setW (R.FP_GD t p) v;
      s.takes r (R.FP_GD t p) ∧ bits v.toNat 15 0 ≤ (s.f (F.FP_TAPS_TAPS0 t p) - 1) * 128 ∧ bits v.toNat 31 16 ≤ (s.f (F.FP_TAPS_TAPS1
        t p) - 1) * 128 ∧ s.pathIdle t p = true ∧ gd.gridMatch t p = true ∧ gd.pathFits t p = true) ∧
    (∃ (s : State) (r : Req) (t : Fin 24) (p : Fin 8) (b : Fin 2) (k : Fin 256), s.takes r (R.COEF t p b k) ∧ s.fading t p = false ∧
      s.pathIdle t p = true) ∧
    (∃ (s : State) (r : Req) (t : Fin 24) (p : Fin 8) (b : Fin 2) (k : Fin 256), s.takes r (R.COEF t p b k) ∧ s.fading t p = false ∧
      s.f (F.FP_STAT_ACT t p) ≠ b) ∧
    (∃ (s : State) (r : Req) (t : Fin 24) (p : Fin 8) (b : Fin 2) (k : Fin 256), s.takes r (R.COEF t p b k) ∧ s.fading t p = true) ∧
    (∃ (s : State) (r : Req) (t : Fin 24) (p : Fin 8) (v : Word),
      let len := bits v.toNat 15 0;
      s.takes r (R.FP_FADE t p) ∧ len ≠ 0 ∧ wbit v 31 = true ∧ s.fadeBad t p len = true) ∧
    (∃ (s : State) (t : Fin 24) (p : Fin 8), (s.b (F.FP_CTL_FIR_EN t p) = false ∨ s.bankOk t p (1 - s.f (F.FP_STAT_ACT t p)) = false)) ∧
    (∃ (s : State) (r : Req) (t : Fin 24) (p : Fin 8) (v : Word),
      let len := bits v.toNat 15 0;
      s.takes r (R.FP_FADE t p) ∧ len ≠ 0 ∧ wbit v 31 = true ∧ s.fadeBad t p len = false ∧ s.pathSettling t p = true) := by
  refine ⟨⟨tst 2 [], .host, 0, 0, 0, ?_⟩,
    ⟨tst 2 [(F.DET_CTL_EN 0 0, 1)], .host, 0, 0, ?_⟩,
    ⟨tst 2 [], .host, 0, 0, 0x10100, ?_⟩,
    ⟨tst 2 [], .host, 0, 0, 1, ?_⟩,
    ⟨tst 2 [], .host, 0, 0, 0x10001, ?_⟩,
    ⟨tst 2 [], .host, 0, 0, 0, ?_⟩,
    ⟨tst 2 [], .host, 0, 0, 0, 0, ?_⟩,
    ⟨tst 2 [], .host, 0, 0, 1, 0, ?_⟩,
    ⟨((tst 2 [])).setPath 0 { Path.init with fade := some ⟨0, 0, 0, 1⟩ }, .host, 0, 0, 0, 0, ?_⟩,
    ⟨tst 2 [], .host, 0, 0, 0x80000001, ?_⟩,
    ⟨tst 2 [(F.FP_CTL_FIR_EN 0 0, 0)], 0, 0, ?_⟩,
    ⟨((tst 2 [(F.FP_CTL_FIR_EN 0 0, 1), (F.FP_TAPS_TAPS1 0 0, 1), (F.DET_CTL_EN 0 0, 1)])).setPath 0
      { Path.init with chans := [(0, { Chan.init with held := true })] }, .host, 0, 0, 0x80000001, ?_⟩⟩
  all_goals (try dsimp only [State.takes, State.issues])
  all_goals decide +kernel

theorem witness_FilterConfiguration_b :
    (∃ (s : State) (r : Req) (t : Fin 24) (p : Fin 8) (v : Word),
      let ctl := s.setW (R.FP_CTL t p) (v &&& 0xB73F3700);
      s.takes r (R.FP_CTL t p) ∧ s.pathIdle t p = true ∧ (ctl.ctlOk t p = false ∨ ctl.gridMatch t p = false ∨ ctl.pathFits t p = false)) ∧
    (∃ (s : State) (r : Req) (t : Fin 24) (p : Fin 8) (b : Fin 2) (k : Fin 256), s.takes r (R.COEF t p b k) ∧ s.f (F.FP_STAT_ACT t p)
      = b ∧ s.pathIdle t p = false) ∧
    (∃ (s : State) (r : Req) (t : Fin 24) (p : Fin 8) (v : Word),
      let len := bits v.toNat 15 0;
      s.takes r (R.FP_FADE t p) ∧ len = 0) ∧
    (∃ (s : State) (r : Req) (t : Fin 24) (p : Fin 8) (v : Word),
      let len := bits v.toNat 15 0;
      s.takes r (R.FP_FADE t p) ∧ len ≠ 0 ∧ wbit v 31 = false) ∧
    (∃ (s : State) (r : Req) (t : Fin 24) (p : Fin 8) (v : Word),
      let len := bits v.toNat 15 0;
      s.takes r (R.FP_FADE t p) ∧ len ≠ 0 ∧ wbit v 31 = true ∧ s.fadeBad t p len = false ∧ s.fading t p = false ∧ s.pathSettling t p =
        false) ∧
    (∃ (s : State) (r : Req) (t : Fin 24) (p : Fin 8) (v : Word),
      let len := bits v.toNat 15 0;
      s.takes r (R.FP_FADE t p) ∧ len ≠ 0 ∧ wbit v 31 = true ∧ s.fadeBad t p len = false ∧ s.fading t p = true) ∧
    (∃ (s : State) (t : Fin 24) (p : Fin 8) (fd : Fade), s.alive = true ∧ (s.path (8 * t + p)).fade = some fd ∧ s.f (F.FP_STAT_STATE
      t p) ≠ 3 ∧ fd.pre = 0 ∧ fd.warm = 0) ∧
    (∃ (s : State) (t : Fin 24) (p : Fin 8) (fd : Fade), s.alive = true ∧ (s.path (8 * t + p)).fade = some fd ∧ s.f (F.FP_STAT_STATE
      t p) = 3 ∧ fd.m = fd.len) ∧
    (∃ (s : State) (r : Req) (t : Fin 24) (p : Fin 8), s.takes r (R.FP_CIC t p) ∧ s.pathIdle t p = false) ∧
    (∃ (s : State) (r : Req) (t : Fin 24) (p : Fin 8), s.takes r (R.FP_TAPS t p) ∧ s.pathIdle t p = false) ∧
    (∃ (s : State) (r : Req) (t : Fin 24) (p : Fin 8), s.takes r (R.FP_GD t p) ∧ s.pathIdle t p = false) := by
  refine ⟨⟨tst 2 [(F.FP_CTL_GRID 0 0, 3)], .host, 0, 0, 0x3F3F3700, ?_⟩,
    ⟨tst 2 [(F.DET_CTL_EN 0 0, 1)], .host, 0, 0, 0, 0, ?_⟩,
    ⟨tst 2 [], .host, 0, 0, 0x0, ?_⟩,
    ⟨tst 2 [], .host, 0, 0, 0x1, ?_⟩,
    ⟨tst 2 [(F.FP_CTL_FIR_EN 0 0, 1)], .host, 0, 0, 0x80000001, ?_⟩,
    ⟨((tst 2 [(F.FP_CTL_FIR_EN 0 0, 1), (F.FP_TAPS_TAPS1 0 0, 1)])).setPath 0 { Path.init with fade := some ⟨0, 0, 0, 1⟩ }, .host, 0,
      0, 0x80000001, ?_⟩,
    ⟨((tst 2 [(F.FP_STAT_STATE 0 0, 0)])).setPath 0 { Path.init with fade := some ⟨0, 0, 0, 0⟩ }, 0, 0, ⟨0, 0, 0, 0⟩, ?_⟩,
    ⟨((tst 2 [(F.FP_STAT_STATE 0 0, 3)])).setPath 0 { Path.init with fade := some ⟨0, 0, 0, 0⟩ }, 0, 0, ⟨0, 0, 0, 0⟩, ?_⟩,
    ⟨tst 2 [(F.DET_CTL_EN 0 0, 1)], .host, 0, 0, ?_⟩,
    ⟨tst 2 [(F.DET_CTL_EN 0 0, 1)], .host, 0, 0, ?_⟩,
    ⟨tst 2 [(F.DET_CTL_EN 0 0, 1)], .host, 0, 0, ?_⟩⟩
  all_goals (try dsimp only [State.takes, State.issues])
  all_goals decide +kernel

theorem witness_CourseOutputsAndDetectors :
    (∃ (s : State) (t : Fin 24) (p : Fin 8) (c : Due) (cs : List Due),
      let pa := s.path (8 * t + p);
      let turns := pa.fade.any fun f => f.turns (s.f (F.FP_STAT_STATE t p));
      s.alive = true ∧ pa.due = c :: cs ∧ s.courseReady t p c = true ∧ turns = false) ∧
    (∃ (s : State) (t : Fin 24) (p : Fin 8),
      let pa := s.path (8 * t + p);
      s.alive = true ∧ pa.due = []) ∧
    (∃ (s : State) (t : Fin 24) (p : Fin 8) (c : Due) (cs : List Due),
      let pa := s.path (8 * t + p);
      let turns := pa.fade.any fun f => f.turns (s.f (F.FP_STAT_STATE t p));
      s.alive = true ∧ pa.due = c :: cs ∧ (s.courseReady t p c = false ∨ turns = true)) ∧
    (∃ (s : State) (r : Req) (t : Fin 24) (d : Fin 32) (v : Word),
      let win := s.setW (R.DET_WIN t d) (v &&& 0xFFFF);
      s.takes r (R.DET_WIN t d) ∧ s.b (F.DET_CTL_EN t d) = false ∧ win.packerOk t = true ∧ win.pressOk = true) ∧
    (∃ (s : State) (r : Req) (t : Fin 24) (d : Fin 32) (v : Word),
      let win := s.setW (R.DET_WIN t d) (v &&& 0xFFFF);
      s.takes r (R.DET_WIN t d) ∧ s.b (F.DET_CTL_EN t d) = false ∧ (win.packerOk t = false ∨ win.pressOk = false)) ∧
    (∃ (s : State) (r : Req) (t : Fin 24) (d : Fin 32), s.takes r (R.DET_WIN t d) ∧ s.b (F.DET_CTL_EN t d) = true) ∧
    (∃ (s : State) (r : Req) (t : Fin 24) (d : Fin 32), s.takes r (R.DET_ENV t d) ∧ s.b (F.DET_CTL_EN t d) = false) ∧
    (∃ (s : State) (r : Req) (t : Fin 24) (d : Fin 32) (v : Word), s.takes r (R.DET_CTL t d) ∧ bits v.toNat 25 24 = 3) ∧
    (∃ (s : State) (r : Req) (t : Fin 24) (d : Fin 32) (v : Word), s.takes r (R.DET_CTL t d) ∧ bits v.toNat 25 24 ≠ 3 ∧ s.b
      (F.DET_CTL_EN t d) = true ∧ wbit v 31 = true) ∧
    (∃ (s : State) (r : Req) (t : Fin 24) (d : Fin 32) (v : Word), s.takes r (R.DET_CTL t d) ∧ bits v.toNat 25 24 ≠ 3 ∧ s.b
      (F.DET_CTL_EN t d) = false ∧ wbit v 31 = false) ∧
    (∃ (s : State) (t : Fin 24) (d : Fin 32) (o : DetOut) (os : List DetOut),
      let x := s.det (32 * t + d);
      s.alive = true ∧ x.ready = o :: os) ∧
    (∃ (s : State) (t : Fin 24) (d : Fin 32),
      let x := s.det (32 * t + d);
      s.alive = true ∧ x.ready = []) := by
  refine ⟨⟨((tst 2 [])).setPath 0 { Path.init with due := [⟨0, 0, 0, 0, 0, 0⟩] }, 0, 0, ⟨0, 0, 0, 0, 0, 0⟩, [], ?_⟩,
    ⟨tst 2 [], 0, 0, ?_⟩,
    ⟨((tst 2 [(F.FP_STAT_STATE 0 0, 1)])).setPath 0 { Path.init with due := [⟨0, 0, 0, 0, 0, 0⟩], fade := some ⟨0, 0, 0, 0⟩ }, 0, 0,
      ⟨0, 0, 0, 0, 0, 0⟩, [], ?_⟩,
    ⟨tst 2 [(F.DET_CTL_EN 0 0, 0)], .host, 0, 0, 0, ?_⟩,
    ⟨((tst 2 [(F.DET_CTL_EN 0 0, 0), (F.SE_CTL_VALID 0, 1), (F.SE_CTL_ACT 0, 1), (F.SE_CTL_PATH 0, 1), (F.SE_REP_PRESS_EN 0,
      1)])).setW (R.PC_MRES 0) 0xFFFFFFFF, .host, 0, 0, 0, ?_⟩,
    ⟨tst 2 [(F.DET_CTL_EN 0 0, 1)], .host, 0, 0, ?_⟩,
    ⟨tst 2 [(F.DET_CTL_EN 0 0, 0)], .host, 0, 0, ?_⟩,
    ⟨tst 2 [], .host, 0, 0, 0x3000000, ?_⟩,
    ⟨tst 2 [(F.DET_CTL_EN 0 0, 1)], .host, 0, 0, 0x80000000, ?_⟩,
    ⟨tst 2 [(F.DET_CTL_EN 0 0, 0)], .host, 0, 0, 0x0, ?_⟩,
    ⟨((tst 2 [])).setDet 0 { Det.init with ready := [⟨0, 1, 0, 0, 0, false, 0, 0⟩] }, 0, 0, ⟨0, 1, 0, 0, 0, false, 0, 0⟩, [], ?_⟩,
    ⟨tst 2 [], 0, 0, ?_⟩⟩
  all_goals (try dsimp only [State.takes, State.issues])
  all_goals decide +kernel

theorem witness_TriggerUnitsAndGroups :
    (∃ (s : State) (r : Req) (u : Fin 64) (v : Word),
      let kinds := s.setW (R.TU_CTL u) (v &&& 0x83BF3000);
      s.takes r (R.TU_CTL u) ∧ bits v.toNat 25 24 ≠ 3 ∧ bits v.toNat 13 12 ≠ 3 ∧ wbit v 31 = true ∧ s.b (F.TU_CTL_EN u) = false ∧
        kinds.unitOk u = true) ∧
    (∃ (s : State) (r : Req) (u : Fin 64) (v : Word),
      let kinds := s.setW (R.TU_CTL u) (v &&& 0x83BF3000);
      s.takes r (R.TU_CTL u) ∧ bits v.toNat 25 24 ≠ 3 ∧ bits v.toNat 13 12 ≠ 3 ∧ wbit v 31 = true ∧ s.b (F.TU_CTL_EN u) = false ∧
        kinds.unitOk u = false) ∧
    (∃ (s : State) (r : Req) (u : Fin 64) (v : Word), s.takes r (R.TU_CTL u) ∧ bits v.toNat 25 24 ≠ 3 ∧ bits v.toNat 13 12 ≠ 3 ∧ wbit
      v 31 = false) ∧
    (∃ (s : State) (r : Req) (u : Fin 64), s.takes r (R.TU_SRC u) ∧ s.b (F.TU_CTL_EN u) = false) ∧
    (∃ (s : State) (r : Req) (u : Fin 64) (v : Word), s.takes r (R.TU_CTL u) ∧ (bits v.toNat 25 24 = 3 ∨ bits v.toNat 13 12 = 3)) ∧
    (∃ (s : State) (r : Req) (u : Fin 64) (v : Word), s.takes r (R.TU_CTL u) ∧ bits v.toNat 25 24 ≠ 3 ∧ bits v.toNat 13 12 ≠ 3 ∧ s.b
      (F.TU_CTL_EN u) = true ∧ wbit v 31 = true) ∧
    (∃ (s : State) (u : Fin 64) (n : Nat),
      let x := s.tu u;
      let q0 := (s.grid (s.unitGrid u)).base + n;
      s.alive = true ∧ s.mode = 3 ∧ s.b (F.TU_CTL_EN u) = true ∧ s.unitDone u = none ∧ c48 q0 = n ∧ x.vals = [] ∧ s.coursePast
        (s.unitGrid u) q0 = true ∧ s.awaits u q0 = false) ∧
    (∃ (s : State) (u : Fin 64) (n : Nat) (d : Nat) (tv : TuVal) (tvs : List TuVal),
      let x := s.tu u;
      let left := x.drop fun z => decide (z.p ≤ d);
      s.alive = true ∧ s.mode = 3 ∧ s.b (F.TU_CTL_EN u) = true ∧ s.unitDone u = some d ∧ c48 (d + 1) = n ∧ left.vals = tv :: tvs ∧ tv.p
        = d + 1 ∧ s.coursePast (s.unitGrid u) (d + 1) = true) ∧
    (∃ (s : State) (u : Fin 64) (tr : Nat) (d : Nat),
      let x := s.tu u;
      s.alive = true ∧ x.trig = some tr ∧ x.done = some d ∧ tr + s.f (F.TU_HOLDOFF_V u) ≤ d) ∧
    (∃ (s : State) (u : Fin 64) (n : Nat),
      let x := s.tu u;
      s.alive = true ∧ s.mode = 3 ∧ x.done = some n ∧ (s.tg (s.f (F.TU_CTL_GROUP u))).done = none ∧ s.b (F.TU_CTL_EN u) = true ∧
        s.autoDue u n = true) ∧
    (∃ (s : State) (g : Fin 64) (n : Nat),
      let y := s.tg g;
      let g0 := (s.grid (s.f (F.TG_CTL_GRID g))).base + n;
      s.alive = true ∧ s.mode = 3 ∧ y.done = none ∧ c48 g0 = n ∧ s.groupReady g g0 = true) ∧
    (∃ (s : State) (g : Fin 64) (n : Nat) (d : Nat),
      let y := s.tg g;
      s.alive = true ∧ s.mode = 3 ∧ y.done = some d ∧ c48 (d + 1) = n ∧ s.groupReady g (d + 1) = true) ∧
    (∃ (s : State) (g : Fin 64) (e : Nat) (d : Nat) (b : Nat) (ws : List (Nat × Nat)),
      let y := s.tg g;
      s.alive = true ∧ y.wins = (e, b) :: ws ∧ y.done = some d ∧ b < d) ∧
    (∃ (s : State) (d : Nat) (b : Nat) (sid : Fin 8192) (h : Held) (hs : List Held), s.alive = true ∧ s.mode = 3 ∧ s.linkOf sid =
      some b ∧ (s.str sid).held = h :: hs ∧ (s.tg (s.f (F.WS_LINK_GROUP b))).done = some d ∧ h.p + s.f (F.TG_CTL_PRE (s.f
      (F.WS_LINK_GROUP b))) ≤ d) ∧
    (∃ (s : State) (r : Req) (v : Word) (l : Fin 1024),
      let linked := s.setW (R.WS_LINK l) (v &&& 0xBF001FFF);
      s.takes r (R.WS_LINK l) ∧ wbit v 31 = true ∧ linked.linkOk l = false) ∧
    (∃ (s : State) (r : Req) (v : Word) (l : Fin 1024),
      let linked := s.setW (R.WS_LINK l) (v &&& 0xBF001FFF);
      let busy := fun (z : State) => z.b (F.WS_LINK_VALID l) && z.b (F.SE_CTL_VALID (z.f (F.WS_LINK_SID l))) && z.b (F.SE_CTL_ACT (z.f
        (F.WS_LINK_SID l)));
      s.takes r (R.WS_LINK l) ∧ wbit v 31 = true ∧ linked.linkOk l = true ∧ busy s = false ∧ busy linked = false) ∧
    (∃ (s : State) (r : Req) (v : Word) (l : Fin 1024),
      let linked := s.setW (R.WS_LINK l) (v &&& 0xBF001FFF);
      let busy := fun (z : State) => z.b (F.WS_LINK_VALID l) && z.b (F.SE_CTL_VALID (z.f (F.WS_LINK_SID l))) && z.b (F.SE_CTL_ACT (z.f
        (F.WS_LINK_SID l)));
      s.takes r (R.WS_LINK l) ∧ wbit v 31 = false ∧ busy s = false ∧ busy linked = false) ∧
    (∃ (s : State) (n : Nat) (k : Fin 4), s.alive = true ∧ (Tab.get (fun _ => none) s.pulses k = some n)) := by
  refine ⟨⟨tst 2 [(F.TU_CTL_EN 0, 0), (F.SE_CTL_VALID 0, 1)], .host, 0, 0x80000000, ?_⟩,
    ⟨tst 2 [(F.TU_CTL_EN 0, 0)], .host, 0, 0x80000000, ?_⟩,
    ⟨tst 2 [], .host, 0, 0x0, ?_⟩,
    ⟨tst 2 [(F.TU_CTL_EN 0, 0)], .host, 0, ?_⟩,
    ⟨tst 2 [], .host, 0, 0x3000000, ?_⟩,
    ⟨tst 2 [(F.TU_CTL_EN 0, 1)], .host, 0, 0x80000000, ?_⟩,
    ⟨((tst 3 [(F.TU_CTL_EN 0, 1), (F.GRID_STAT_STATE 0, 2)])).setGrid 0 { Grid.init with next := 1 }, 0, 0, ?_⟩,
    ⟨(((tst 3 [(F.TU_CTL_EN 0, 1), (F.GRID_STAT_STATE 0, 2)])).setGrid 0 { Grid.init with next := 2 }).setTu 0
      { Tu.init with done := some 0, vals := [⟨1, 0, false, 0, false⟩] }, 0, 1, 0, ⟨1, 0, false, 0, false⟩, [], ?_⟩,
    ⟨((tst 2 [])).setTu 0 { Tu.init with trig := some 0, done := some 0 }, 0, 0, 0, ?_⟩,
    ⟨((tst 3 [(F.TU_CTL_EN 0, 1), (F.TU_CTL_AUTO_EN 0, 1), (F.TU_AUTO_COUNT 0, 0)])).setTu 0
      { Tu.init with na := some 0, done := some 1 }, 0, 1, ?_⟩,
    ⟨((tst 3 [(F.TU_CTL_EN 0, 1)])).setTu 0 { Tu.init with done := some 0 }, 0, 0, ?_⟩,
    ⟨(((tst 3 [(F.TU_CTL_EN 0, 1)])).setTu 0 { Tu.init with done := some 1 }).setTg 0 { Tg.init with done := some 0 }, 0, 1, 0, ?_⟩,
    ⟨((tst 2 [])).setTg 0 { Tg.init with wins := [(0, 0)], done := some 1 }, 0, 0, 1, 0, [], ?_⟩,
    ⟨(((tst 3 [(F.WS_LINK_VALID 0, 1)])).setStr 0 { Str.init with held := [⟨0, 0, false, 0, 0, 0⟩] }).setTg 0
      { Tg.init with done := some 0 }, 0, 0, 0, ⟨0, 0, false, 0, 0, 0⟩, [], ?_⟩,
    ⟨tst 2 [], .host, 0x80000000, 0, ?_⟩,
    ⟨tst 2 [(F.SE_CTL_VALID 0, 1)], .host, 0x80000000, 0, ?_⟩,
    ⟨tst 2 [], .host, 0x0, 0, ?_⟩,
    ⟨({ tst 2 [] with pulses := [(0, some 0)] } : State), 0, 0, ?_⟩⟩
  all_goals (try dsimp only [State.takes, State.issues])
  all_goals decide +kernel

theorem witness_ProfilesAndStreams_a :
    (∃ (s : State) (r : Req) (g : Fin 64),
      let unused := s.groupUnits g = [] ∧ s.groupStreams g = [];
      s.takes r (R.TG_POST g) ∧ unused) ∧
    (∃ (s : State) (r : Req) (g : Fin 64),
      let used := s.groupUnits g ≠ [] ∨ s.groupStreams g ≠ [];
      s.takes r (R.TG_POST g) ∧ used) ∧
    (∃ (s : State) (r : Req) (g : Fin 64) (v : Word),
      let unused := s.groupUnits g = [] ∧ s.groupStreams g = [];
      s.takes r (R.TG_CTL g) ∧ bits v.toNat 12 0 ≤ 4096 ∧ unused) ∧
    (∃ (s : State) (r : Req) (g : Fin 64) (v : Word), s.takes r (R.TG_CTL g) ∧ 4096 < bits v.toNat 12 0) ∧
    (∃ (s : State) (r : Req) (q : Fin 64) (v : Word), s.takes r (R.RP_CTL q) ∧ bits v.toNat 2 0 ≤ 3 ∧ s.profileUsed q = false) ∧
    (∃ (s : State) (r : Req) (q : Fin 64) (v : Word), s.takes r (R.RP_CTL q) ∧ 3 < bits v.toNat 2 0) ∧
    (∃ (s : State) (r : Req) (q : Fin 64) (v : Word), s.takes r (R.RP_HB q) ∧ v.toNat % 65536 ≠ 0 ∧ s.profileUsed q = false) ∧
    (∃ (s : State) (r : Req) (q : Fin 64), s.takes r (R.RP_DB q) ∧ s.profileUsed q = false) ∧
    (∃ (s : State) (r : Req) (q : Fin 64), s.takes r (R.RP_DB q) ∧ s.profileUsed q = true) ∧
    (∃ (s : State) (r : Req) (q : Fin 64), s.takes r (R.RP_DEC q) ∧ s.profileUsed q = false) ∧
    (∃ (s : State) (r : Req) (q : Fin 64) (v : Word), s.takes r (R.RP_HB q) ∧ v.toNat % 65536 = 0) ∧
    (∃ (s : State) (ctl : Word) (src : Word) (rep : Word) (p : Fin 16) (tag : BitVec 7) (k : Nat),
      let free := s.tagsOut.contains tag.toNat = false ∧ (s.port p).reqs = [] ∧ s.role p ≠ 2 ∧ s.mode ≠ 0 ∧ s.mode ≠ 4;
      let req := fun (op : Nat) => (⟨1, op, tag.toNat, false⟩ : Reqd);
      let u := s.pushReq p (req 0x10);
      let rec_ := u.newEntry k ctl src rep;
      let legal := rec_.pressTest k = false ∧ rec_.entryOk k = true;
      s.alive = true ∧ free ∧ u.live = true ∧ addBitsOk ctl src rep = true ∧ bits ctl.toNat 28 27 ≠ 3 ∧ u.freeSid 8192 0 = some k ∧
        legal ∧ wbit ctl 30 = false) := by
  refine ⟨⟨tst 2 [], .host, 0, ?_⟩,
    ⟨tst 2 [(F.TU_CTL_EN 0, 1)], .host, 0, ?_⟩,
    ⟨tst 2 [], .host, 0, 0x0, ?_⟩,
    ⟨tst 2 [], .host, 0, 0x1001, ?_⟩,
    ⟨tst 2 [], .host, 0, 0x0, ?_⟩,
    ⟨tst 2 [], .host, 0, 0x4, ?_⟩,
    ⟨tst 2 [], .host, 0, 1, ?_⟩,
    ⟨tst 2 [], .host, 0, ?_⟩,
    ⟨tst 2 [(F.SE_CTL_VALID 0, 1), (F.SE_CTL_ACT 0, 1)], .host, 0, ?_⟩,
    ⟨tst 2 [], .host, 0, ?_⟩,
    ⟨tst 2 [], .host, 0, 0, ?_⟩,
    ⟨tst 2 [], 0x30000000, 0, 0, 0, 0, 0, ?_⟩⟩
  all_goals (try dsimp only [State.takes, State.issues])
  all_goals decide +kernel

theorem witness_ProfilesAndStreams_b :
    (∃ (s : State) (ctl : Word) (src : Word) (rep : Word) (p : Fin 16) (tag : BitVec 7) (k : Nat),
      let free := s.tagsOut.contains tag.toNat = false ∧ (s.port p).reqs = [] ∧ s.role p ≠ 2 ∧ s.mode ≠ 0 ∧ s.mode ≠ 4;
      let req := fun (op : Nat) => (⟨1, op, tag.toNat, false⟩ : Reqd);
      let u := s.pushReq p (req 0x10);
      let rec_ := u.newEntry k ctl src rep;
      let legal := rec_.pressTest k = false ∧ rec_.entryOk k = true;
      s.alive = true ∧ free ∧ u.live = true ∧ addBitsOk ctl src rep = true ∧ bits ctl.toNat 28 27 ≠ 3 ∧ u.freeSid 8192 0 = some k ∧
        legal ∧ wbit ctl 30 = true ∧ u.actStop (rec_.setF (F.SE_CTL_ACT k) 1) k = none) ∧
    (∃ (s : State) (ctl : Word) (src : Word) (rep : Word) (p : Fin 16) (tag : BitVec 7) (c : Status),
      let free := s.tagsOut.contains tag.toNat = false ∧ (s.port p).reqs = [] ∧ s.role p ≠ 2 ∧ s.mode ≠ 0 ∧ s.mode ≠ 4;
      let req := fun (op : Nat) => (⟨1, op, tag.toNat, false⟩ : Reqd);
      let u := s.pushReq p (req 0x10);
      s.alive = true ∧ free ∧ u.live = true ∧ addBitsOk ctl src rep = true ∧ u.addStream ctl src rep = .error c) ∧
    (∃ (s : State) (p : Fin 16), (s.port p).reqs = [] ∧ s.alive = true ∧ s.role p = 2 ∧ s.mode ≠ 0 ∧ s.mode ≠ 4) ∧
    (∃ (s : State) (p : Fin 16) (tag : BitVec 7) (t : State),
      let req := fun (op : Nat) => (⟨1, op, tag.toNat, false⟩ : Reqd);
      (s.pushReq p (req 0x10)).began t = false ∧ (t.port p).reqs = [req 0x10]) ∧
    (∃ (s : State) (w : Word) (p : Fin 16) (tag : BitVec 7) (k : Nat),
      let free := s.tagsOut.contains tag.toNat = false ∧ (s.port p).reqs = [] ∧ s.role p ≠ 2 ∧ s.mode ≠ 0 ∧ s.mode ≠ 4;
      let req := fun (op : Nat) => (⟨1, op, tag.toNat, false⟩ : Reqd);
      let d := s.pushReq p (req 0x11);
      s.alive = true ∧ free ∧ w.toNat < 2 ^ 13 ∧ bits w.toNat 12 0 = k ∧ d.b (F.SE_CTL_VALID k) = true ∧ d.b (F.SE_CTL_ACT k) = false ∧
        d.namedElsewhere k = false) ∧
    (∃ (s : State) (sid : Fin 8192), s.alive = true ∧ s.b (F.SE_STAT_RETIRING sid) = true ∧ s.sidInYard sid = false) ∧
    (∃ (s : State) (r : Req) (sid : Fin 8192), s.takes r (R.SE_CTL sid + 4) ∧ s.b (F.SE_CTL_VALID sid) = false) ∧
    (∃ (s : State) (r : Req) (v : Word) (sid : Fin 8192),
      let src1 := s.w (R.SE_SRC sid);
      let cfg := s.setW (R.SE_SRC sid) ((src1 &&& ~~~(seMask 1)) ||| (v &&& seMask 1));
      s.takes r (R.SE_CTL sid + 4) ∧ s.b (F.SE_CTL_VALID sid) = true ∧ s.b (F.SE_CTL_ACT sid) = false ∧ s.namedElsewhere sid = false ∧
        cfg.pressTest sid = false ∧ cfg.entryOk sid = true) ∧
    (∃ (s : State) (r : Req) (v : Word) (sid : Fin 8192),
      let src1 := s.w (R.SE_SRC sid);
      s.takes r (R.SE_CTL sid + 4) ∧ s.b (F.SE_CTL_VALID sid) = true ∧ v &&& seMask 1 ≠ src1 &&& seMask 1 ∧ (s.b (F.SE_CTL_ACT sid) =
        true ∨ s.namedElsewhere sid = true)) ∧
    (∃ (s : State) (r : Req) (v : Word) (sid : Fin 8192),
      let old := s.w (R.SE_CTL sid);
      s.takes r (R.SE_CTL sid) ∧ s.b (F.SE_CTL_VALID sid) = true ∧ bits v.toNat 28 27 ≠ 3 ∧ v &&& seMask 0 = old &&& seMask 0 ∧ s.b
        (F.SE_CTL_ACT sid) = false ∧ (
      let z := s.setW (R.SE_CTL sid) ((old &&& ~~~(seMask 0)) ||| (old &&& seMask 0));
      s.actStop (z.setF (F.SE_CTL_ACT sid) 1) sid = none)) ∧
    (∃ (s : State) (r : Req) (v : Word) (sid : Fin 8192),
      let old := s.w (R.SE_CTL sid);
      s.takes r (R.SE_CTL sid) ∧ s.b (F.SE_CTL_VALID sid) = true ∧ bits v.toNat 28 27 ≠ 3 ∧ v &&& seMask 0 = old &&& seMask 0 ∧ s.b
        (F.SE_CTL_ACT sid) = true) ∧
    (∃ (s : State) (r : Req) (sid : Fin 8192) (k : Nat) (i : Nat) (h : Held) (b : Cur),
      let st := s.str sid;
      s.alive = true ∧ s.mode = 3 ∧ st.last = some h ∧ st.ref = some ((k : Int), i) ∧ st.cur = some b ∧ b.typ = 2 ∧ h.n ≠ i ∧ (
      let r := if st.fb then s.f (F.SE_REP_FALLBACK sid) else s.f (F.SE_REP_NORMAL sid);
      s.f (F.RP_CTL_REP r) = 1 ∧ s.f (F.RP_HB_V r) ≤ c48 (h.n + 2 ^ 48 - i))) := by
  refine ⟨⟨tst 2 [(F.QUAD_CTL_ROLE0 0, 1), (F.RING_CFG_SIZE 0, 1)], 0x70000000, 0, 0, 0, 0, 0, ?_⟩,
    ⟨tst 2 [], 3 <<< 27, 0, 0, 0, 0, .unsupported, by
    dsimp only
    and_intros
    all_goals first | decide +kernel | rfl⟩,
    ⟨tst 2 [(F.QUAD_CTL_ROLE0 0, 2)], 0, ?_⟩,
    ⟨tst 2 [], 0, 0, ((tst 2 []).setPort 0 { Port.init with reqs := [⟨1, 0x10, 0, false⟩] }), ?_⟩,
    ⟨tst 2 [(F.SE_CTL_VALID 0, 1)], 0, 0, 0, 0, ?_⟩,
    ⟨tst 2 [(F.SE_STAT_RETIRING 0, 1)], 0, ?_⟩,
    ⟨tst 2 [(F.SE_CTL_VALID 0, 0)], .host, 0, ?_⟩,
    ⟨(tst 2 []).newEntry 0 entryCtl 0 0, .host, 0, 0, ?_⟩,
    ⟨tst 2 [(F.SE_CTL_VALID 0, 1), (F.SE_CTL_ACT 0, 1), (F.SE_CTL_VALID 0, 1), (F.SE_CTL_ACT 0, 1)], .host, 1, 0, ?_⟩,
    ⟨tst 2 [(F.SE_CTL_VALID 0, 1), (F.SE_CTL_ACT 0, 0), (F.QUAD_CTL_ROLE0 0, 1), (F.RING_CFG_SIZE 0, 1)], .host, 0x0, 0, ?_⟩,
    ⟨tst 2 [(F.SE_CTL_VALID 0, 1), (F.SE_CTL_ACT 0, 1), (F.SE_CTL_ACT 0, 1)], .host, 0x0, 0, ?_⟩,
    ⟨(tst 3 [(F.RP_CTL_REP 0, 1), (F.RP_HB_V 0, 1)]).setStr 0
      { Str.init with last := some ⟨1, 0, false, 0, 0, 0⟩, ref := some (0, 0), cur := some recOne }, .host, 0, 0, 0, ⟨1, 0,
      false, 0, 0, 0⟩, recOne, ?_⟩⟩
  all_goals (try dsimp only [State.takes, State.issues])
  all_goals decide +kernel

theorem witness_MasonControlMemoryAndPallet_a :
    (∃ (s : State) (r : Req) (m : Fin 16) (v : Word),
      let st := s.f (F.MC_STAT_STATE m);
      s.takes r (R.MC_CTL m) ∧ wbit v 1 = false ∧ wbit v 2 = false ∧ s.live = true ∧ st = 0) ∧
    (∃ (s : State) (r : Req) (m : Fin 16) (v : Word),
      let st := s.f (F.MC_STAT_STATE m);
      s.takes r (R.MC_CTL m) ∧ wbit v 1 = false ∧ wbit v 2 = false ∧ s.live = true ∧ st = 3) ∧
    (∃ (s : State) (r : Req) (m : Fin 16) (v : Word),
      let st := s.f (F.MC_STAT_STATE m);
      s.takes r (R.MC_CTL m) ∧ wbit v 1 = false ∧ wbit v 2 = false ∧ s.live = true ∧ st ≠ 0 ∧ st ≠ 3) ∧
    (∃ (s : State) (r : Req) (m : Fin 16) (v : Word), s.takes r (R.MC_CTL m) ∧ wbit v 1 = false ∧ wbit v 2 = false ∧ s.live = false) ∧
    (∃ (s : State) (r : Req) (m : Fin 16) (v : Word), s.takes r (R.MC_CTL m) ∧ wbit v 0 = false ∧ wbit v 2 = false ∧ s.masonOn m =
      true) ∧
    (∃ (s : State) (r : Req) (m : Fin 16) (v : Word), s.takes r (R.MC_CTL m) ∧ wbit v 0 = false ∧ wbit v 1 = false) ∧
    (∃ (s : State) (m : Fin 16),
      let x := s.mason m;
      s.alive = true ∧ s.masonOn m = true ∧ x.haltReq = true) ∧
    (∃ (s : State) (m : Fin 16),
      let x := s.mason m;
      s.alive = true ∧ x.haltReq = false) ∧
    (∃ (s : State) (r : Req) (m : Fin 16) (i : Fin 16384), s.takes r (memAddr m (.imem i)) ∧ s.memLocked m (.imem i) = false ∧
      s.masonOn m = false) ∧
    (∃ (s : State) (r : Req) (m : Fin 16) (i : Fin 16384), s.takes r (memAddr m (.imem i)) ∧ s.memLocked m (.imem i) = false ∧
      s.masonOn m = true) ∧
    (∃ (s : State) (r : Req) (m : Fin 16) (j : Fin 32768), s.takes r (memAddr m (.dmem j)) ∧ s.masonOn m = false) ∧
    (∃ (s : State) (r : Req) (m : Fin 16) (j : Fin 32768), s.takes r (memAddr m (.dmem j)) ∧ s.masonOn m = true) ∧
    (∃ (s : State) (r : Req) (m : Fin 16) (v : Word) (mt : MemTarget), (mt = .entry ∨ mt = .tvec) ∧ s.takes r (memAddr m mt) ∧
      s.memLocked m mt = false ∧ v.toNat % 4 ≠ 0) ∧
    (∃ (s : State) (r : Req) (m : Fin 16) (v : Word) (mt : MemTarget), (mt = .entry ∨ mt = .tvec) ∧ s.takes r (memAddr m mt) ∧
      s.memLocked m mt = false ∧ v.toNat % 4 = 0 ∧ s.masonOn m = true) := by
  refine ⟨⟨tst 2 [], .host, 0, 0x0, ?_⟩,
    ⟨tst 2 [(F.MC_STAT_STATE 0, 3)], .host, 0, 0x0, ?_⟩,
    ⟨tst 2 [(F.MC_STAT_STATE 0, 1)], .host, 0, 0x0, ?_⟩,
    ⟨tst 5 [], .host, 0, 0x0, ?_⟩,
    ⟨tst 2 [(F.MC_STAT_STATE 0, 1)], .host, 0, 0x0, ?_⟩,
    ⟨tst 2 [], .host, 0, 0x0, ?_⟩,
    ⟨((tst 2 [(F.MC_STAT_STATE 0, 1)])).setMason 0 { Mason.init with haltReq := true }, 0, ?_⟩,
    ⟨tst 2 [], 0, ?_⟩,
    ⟨tst 2 [], .host, 0, 0, ?_⟩,
    ⟨tst 2 [(F.MC_STAT_STATE 0, 1)], .host, 0, 0, ?_⟩,
    ⟨tst 2 [], .host, 0, 0, ?_⟩,
    ⟨tst 2 [(F.MC_STAT_STATE 0, 1)], .host, 0, 0, ?_⟩,
    ⟨tst 2 [], .host, 0, 1, .entry, ?_⟩,
    ⟨tst 2 [(F.MC_STAT_STATE 0, 1)], .host, 0, 0, .entry, ?_⟩⟩
  all_goals (try dsimp only [State.takes, State.issues])
  all_goals decide +kernel

theorem witness_MasonControlMemoryAndPallet_b :
    (∃ (s : State) (r : Req) (m : Fin 16) (v : Word) (mt : MemTarget), (mt = .entry ∨ mt = .tvec) ∧ s.takes r (memAddr m mt) ∧
      s.memLocked m mt = false ∧ v.toNat % 4 = 0 ∧ s.masonOn m = false) ∧
    (∃ (s : State) (r : Req) (m : Fin 16) (mt : MemTarget), s.alive = true ∧ accOf r (memAddr m mt) = .rw ∧ s.memLocked m mt = true) ∧
    (∃ (s : State) (r : Req) (m : Fin 16), s.takes r (R.MC_DOORBELL m)) ∧
    (∃ (s : State) (m : Fin 16) (src : Nat) (expiry : Nat) (gd : Nat),
      let x := s.mason m;
      s.alive = true ∧ x.wait = some (src, expiry, gd) ∧ s.f (F.MC_STAT_STATE m) = 2 ∧ x.haltReq = false ∧ s.wakeBits m src expiry ≠ 0) ∧
    (∃ (s : State) (m : Fin 16) (src : Nat) (expiry : Nat) (gd : Nat),
      let x := s.mason m;
      s.alive = true ∧ x.wait = some (src, expiry, gd) ∧ s.wakeBits m src expiry = 0) ∧
    (∃ (s : State) (m : Fin 16) (c : Nat) (tv : Nat),
      let x := s.mason m;
      s.alive = true ∧ s.f (F.MC_STAT_STATE m) = 1 ∧ x.haltReq = false ∧ s.fetchTrap m = some (c, tv)) ∧
    (∃ (s : State) (m : Fin 16), s.alive = true ∧ s.f (F.MC_STAT_STATE m) = 1 ∧ s.fetchTrap m = none) ∧
    (∃ (s : State) (r : Req) (q : Fin 64),
      let y := s.pq q;
      s.takes r (R.PQ_PUSH q) ∧ y.full = false) ∧
    (∃ (s : State) (r : Req) (q : Fin 64),
      let y := s.pq q;
      s.takes r (R.PQ_PUSH q) ∧ y.full = true) ∧
    (∃ (s : State) (r : Req) (q : Fin 64), s.alive = true ∧ s.mapStop r (R.PQ_POP q) false = none ∧ s.underTest (R.PQ_POP q) = false) ∧
    (∃ (s : State) (r : Req) (v : Word) (q : Fin 64), s.takes r (R.PQ_CTL q) ∧ wbit v 1 = false ∧ wbit v 2 = false) ∧
    (∃ (s : State) (r : Req) (v : Word) (q : Fin 64), s.takes r (R.PQ_CTL q) ∧ wbit v 0 = false ∧ wbit v 2 = false) ∧
    (∃ (s : State) (r : Req) (v : Word) (q : Fin 64), s.takes r (R.PQ_CTL q) ∧ wbit v 0 = false ∧ wbit v 1 = false) := by
  refine ⟨⟨tst 2 [], .host, 0, 0, .entry, ?_⟩,
    ⟨({ (tst 2 [(F.CS_STAT_SEALED, 1)]) with csDig := [(0, [0])] } : State), .host, 0, .entry, ?_⟩,
    ⟨tst 2 [], .host, 0, ?_⟩,
    ⟨(((tst 2 [(F.MC_STAT_STATE 0, 2)])).setMason 0 { Mason.init with wait := some (2, 0, 0) }).setW (R.MC_DOORBELL 0) 1, 0, 2, 0, 0,
      ?_⟩,
    ⟨((tst 2 [])).setMason 0 { Mason.init with wait := some (0, 0, 0) }, 0, 0, 0, 0, ?_⟩,
    ⟨((tst 2 [(F.MC_STAT_STATE 0, 1)])).setMason 0 { Mason.init with pc := 65536 }, 0, 1, 65536, ?_⟩,
    ⟨tst 2 [(F.MC_STAT_STATE 0, 1)], 0, ?_⟩,
    ⟨tst 2 [], .host, 0, ?_⟩,
    ⟨((tst 2 [])).setPq 0 { Pq.init with words := List.replicate 256 0 }, .host, 0, ?_⟩,
    ⟨tst 2 [], .host, 0, ?_⟩,
    ⟨tst 2 [], .host, 0x0, 0, ?_⟩,
    ⟨tst 2 [], .host, 0x0, 0, ?_⟩,
    ⟨tst 2 [], .host, 0x0, 0, ?_⟩⟩
  all_goals (try dsimp only [State.takes, State.issues])
  all_goals decide +kernel

theorem witness_ProgramHods :
    (∃ (s : State) (p : Fin 16) (tag : BitVec 7) (l : Word) (c : Word),
      let free := s.tagsOut.contains tag.toNat = false ∧ (s.port p).reqs = [] ∧ s.role p ≠ 2;
      s.alive = true ∧ s.mode ≠ 0 ∧ s.mode ≠ 4 ∧ free ∧ bits c.toNat 30 0 = 0 ∧ s.prog = none ∧ l.toNat ≠ 0 ∧ l.toNat ≤ 524288) ∧
    (∃ (s : State) (p : Fin 16) (tag : BitVec 7) (c : Word) (x : Prog),
      let free := s.tagsOut.contains tag.toNat = false ∧ (s.port p).reqs = [] ∧ s.role p ≠ 2;
      s.alive = true ∧ s.mode ≠ 0 ∧ s.mode ≠ 4 ∧ free ∧ bits c.toNat 30 0 = 0 ∧ s.prog = some x) ∧
    (∃ (s : State) (p : Fin 16) (tag : BitVec 7) (l : Word) (c : Word),
      let free := s.tagsOut.contains tag.toNat = false ∧ (s.port p).reqs = [] ∧ s.role p ≠ 2;
      s.alive = true ∧ s.mode ≠ 0 ∧ s.mode ≠ 4 ∧ free ∧ bits c.toNat 30 0 = 0 ∧ s.prog = none ∧ (l.toNat = 0 ∨ 524288 < l.toNat)) ∧
    (∃ (s : State) (p : Fin 16) (tag : BitVec 7) (o : Word) (ds : List Word) (x : Prog),
      let free := s.tagsOut.contains tag.toNat = false ∧ (s.port p).reqs = [] ∧ s.role p ≠ 2;
      s.alive = true ∧ s.mode ≠ 0 ∧ s.mode ≠ 4 ∧ free ∧ s.prog = some x ∧ o.toNat % 4 = 0 ∧ o.toNat + 4 * (ds.length + 1) ≤ 4 * ceilDiv
        x.len 4) ∧
    (∃ (s : State) (p : Fin 16) (tag : BitVec 7) (o : Word) (x : Prog),
      let free := s.tagsOut.contains tag.toNat = false ∧ (s.port p).reqs = [] ∧ s.role p ≠ 2;
      s.alive = true ∧ s.mode ≠ 0 ∧ s.mode ≠ 4 ∧ free ∧ s.prog = some x ∧ o.toNat % 4 ≠ 0) ∧
    (∃ (s : State) (p : Fin 16) (tag : BitVec 7) (x : Prog) (y : Image),
      let free := s.tagsOut.contains tag.toNat = false ∧ (s.port p).reqs = [] ∧ s.role p ≠ 2;
      let req := fun (op : Nat) => (⟨8, op, tag.toNat, false⟩ : Reqd);
      let at_ := fun (op : Nat) => s.pushReq p (req op);
      let u := at_ 2;
      let idxs := range' 0 (ceilDiv x.len 4);
      let staged := idxs.map fun i => (x.word i).getD 0;
      let bytes := (wordsToBytes staged).take x.len;
      let idle := fun (z : State) => (y.targets.any fun i => z.kilnTest == some (3, i)) = false ∧ (y.targets.any fun i => z.f
        (F.MC_STAT_STATE i) != 0) = false;
      let plain := fun (z : State) => y.legal = false ∧ y.targets.any z.holdsLegal = false ∧ y.entries = [];
      s.alive = true ∧ s.mode ≠ 0 ∧ s.mode ≠ 4 ∧ free ∧ s.prog = some x ∧ x.comp = false ∧ ((idxs.any fun i => (x.word i).isNone) =
        false) ∧ readImage bytes = .ok y ∧ u.live = true ∧ idle u ∧ plain u) ∧
    (∃ (s : State) (t : State) (p : Fin 16) (tag : BitVec 7) (x : Prog) (y : Image) (bs : List Byte),
      let free := s.tagsOut.contains tag.toNat = false ∧ (s.port p).reqs = [] ∧ s.role p ≠ 2;
      let req := fun (op : Nat) => (⟨8, op, tag.toNat, false⟩ : Reqd);
      let at_ := fun (op : Nat) => s.pushReq p (req op);
      let u := at_ 2;
      let idxs := range' 0 (ceilDiv x.len 4);
      let staged := idxs.map fun i => (x.word i).getD 0;
      let idle := fun (z : State) => (y.targets.any fun i => z.kilnTest == some (3, i)) = false ∧ (y.targets.any fun i => z.f
        (F.MC_STAT_STATE i) != 0) = false;
      let plain := fun (z : State) => y.legal = false ∧ y.targets.any z.holdsLegal = false ∧ y.entries = [];
      let placed := fun (z : State) => z.each y.targets fun w i => w.fillMason y i;
      s.alive = true ∧ s.mode ≠ 0 ∧ s.mode ≠ 4 ∧ free ∧ s.prog = some x ∧ x.comp = true ∧ ((idxs.any fun i => (x.word i).isNone) =
        false) ∧ u.kilnTest ≠ some (5, 0) ∧ u.pxJobEnd.expandStage staged = (t, .ok bs) ∧ readImage bs = .ok y ∧ t.live = true ∧
        idle t ∧ plain t ∧ u.began (placed t) = false) ∧
    (∃ (s : State) (t : State) (p : Fin 16) (tag : BitVec 7) (x : Prog) (st : Status),
      let free := s.tagsOut.contains tag.toNat = false ∧ (s.port p).reqs = [] ∧ s.role p ≠ 2;
      let req := fun (op : Nat) => (⟨8, op, tag.toNat, false⟩ : Reqd);
      let at_ := fun (op : Nat) => s.pushReq p (req op);
      let u := at_ 2;
      let idxs := range' 0 (ceilDiv x.len 4);
      let staged := idxs.map fun i => (x.word i).getD 0;
      s.alive = true ∧ s.mode ≠ 0 ∧ s.mode ≠ 4 ∧ free ∧ s.prog = some x ∧ x.comp = true ∧ ((idxs.any fun i => (x.word i).isNone) =
        false) ∧ u.kilnTest ≠ some (5, 0) ∧ u.pxJobEnd.expandStage staged = (t, .error st)) ∧
    (∃ (s : State) (p : Fin 16) (tag : BitVec 7) (x : Prog),
      let free := s.tagsOut.contains tag.toNat = false ∧ (s.port p).reqs = [] ∧ s.role p ≠ 2;
      let req := fun (op : Nat) => (⟨8, op, tag.toNat, false⟩ : Reqd);
      let at_ := fun (op : Nat) => s.pushReq p (req op);
      let u := at_ 2;
      let idxs := range' 0 (ceilDiv x.len 4);
      s.alive = true ∧ s.mode ≠ 0 ∧ s.mode ≠ 4 ∧ free ∧ s.prog = some x ∧ x.comp = true ∧ ((idxs.any fun i => (x.word i).isNone) =
        false) ∧ u.kilnTest = some (5, 0)) ∧
    (∃ (s : State) (t : State) (p : Fin 16) (tag : BitVec 7) (vh : BitVec 16) (m : Nat) (k : Nat) (st : Status),
      let free := s.tagsOut.contains tag.toNat = false ∧ (s.port p).reqs = [] ∧ s.role p ≠ 2;
      let req := fun (op : Nat) => (⟨8, op, tag.toNat, false⟩ : Reqd);
      let at_ := fun (op : Nat) => s.pushReq p (req op);
      let u := at_ 2;
      s.alive = true ∧ s.mode ≠ 0 ∧ s.mode ≠ 4 ∧ free ∧ u.commitSteps vh.toNat = (t, m, some (st, k))) ∧
    (∃ (s : State) (p : Fin 16) (tag : BitVec 7),
      let free := s.tagsOut.contains tag.toNat = false ∧ (s.port p).reqs = [] ∧ s.role p ≠ 2;
      s.alive = true ∧ s.mode ≠ 0 ∧ s.mode ≠ 4 ∧ free ∧ s.prog = none) ∧
    (∃ (s : State) (p : Fin 16) (tag : BitVec 7) (x : Prog),
      let free := s.tagsOut.contains tag.toNat = false ∧ (s.port p).reqs = [] ∧ s.role p ≠ 2;
      s.alive = true ∧ s.mode ≠ 0 ∧ s.mode ≠ 4 ∧ free ∧ s.prog = some x) ∧
    (∃ (s : State) (t : State) (p : Fin 16) (tag : BitVec 7),
      let req := fun (op : Nat) => (⟨8, op, tag.toNat, false⟩ : Reqd);
      let at_ := fun (op : Nat) => s.pushReq p (req op);
      s.alive = true ∧ s.mode ≠ 0 ∧ s.mode ≠ 4 ∧ (at_ 0).began t = false ∧ (t.port p).reqs = [req 0]) ∧
    (∃ (s : State) (p : Fin 16) (tag : BitVec 7) (x : Prog) (h : Bool) (qs : List Reqd), s.alive = true ∧ s.mode ≠ 0 ∧ s.mode ≠ 4 ∧
      (s.port p).reqs = ⟨8, 3, tag.toNat, h⟩ :: qs ∧ s.owed ≠ some p.val ∧ s.prog = some x) ∧
    (∃ (s : State) (p : Fin 16) (tag : BitVec 7) (q : Reqd) (qs : List Reqd),
      let mine := fun (z : Reqd) => z.typ = 8 ∧ z.op = 3 ∧ z.tag = tag.toNat;
      s.alive = true ∧ s.mode ≠ 0 ∧ s.mode ≠ 4 ∧ s.tagsOut.contains tag.toNat = false ∧ s.role p ≠ 2 ∧ (s.port p).reqs = q :: qs ∧ ¬
        mine q ∧ (∀ z ∈ qs, ¬ mine z)) ∧
    (∃ (s : State) (p : Fin 16) (tag : BitVec 7), s.alive = true ∧ s.mode ≠ 0 ∧ s.mode ≠ 4 ∧ s.tagsOut.contains tag.toNat = true ∧
      s.role p ≠ 2 ∧ (((s.port p).reqs.any fun z => z.typ == 8 && z.op == 3 && z.tag == tag.toNat) = false)) ∧
    (∃ (s : State) (p : Fin 16), s.alive = true ∧ s.mode ≠ 0 ∧ s.mode ≠ 4 ∧ (s.port p).reqs = [] ∧ s.role p = 2) := by
  refine ⟨⟨tst 2 [], 0, 0, 1, 0x0, ?_⟩,
    ⟨({ tst 2 [] with prog := some ⟨4, false, []⟩ } : State), 0, 0, 0x0, ⟨4, false, []⟩, ?_⟩,
    ⟨tst 2 [], 0, 0, 524289, 0x0, ?_⟩,
    ⟨({ tst 2 [] with prog := some ⟨4, false, []⟩ } : State), 0, 0, 0, [], ⟨4, false, []⟩, ?_⟩,
    ⟨({ tst 2 [] with prog := some ⟨4, false, []⟩ } : State), 0, 0, 1, ⟨4, false, []⟩, ?_⟩,
    ⟨staged, 0, 0, stagedProg, stagedImage, ?_⟩,
    ⟨packed, (unpacked packed (0x80000027 :: 2073908921 :: imageWords)).1, 0, 0, packedProg, stagedImage, (wordsToBytes imageWords), by
    dsimp only
    and_intros
    all_goals first | decide +kernel | exact Prod.ext rfl (by decide +kernel)⟩,
    ⟨({ tst 2 [] with prog := some ⟨4, true, [(0, some 1)]⟩ } : State), (unpacked { tst 2 [] with prog := some ⟨4, true, [(0, some 1)]⟩ } [1]).1, 0, 0, ⟨4, true, [(0, some 1)]⟩, .length, by
    dsimp only
    and_intros
    all_goals first | decide +kernel | exact Prod.ext rfl (by decide +kernel)⟩,
    ⟨({ packed with kilnTest := some (5, 0) } : State), 0, 0, packedProg, ?_⟩,
    ⟨tst 2 [], ((tst 2 []).pushReq 0 ⟨8, 2, 0, false⟩), 0, 0, 0, 0, 1, .unsupported, by
    dsimp only
    and_intros
    all_goals first | decide +kernel | rfl⟩,
    ⟨tst 2 [], 0, 0, ?_⟩,
    ⟨({ tst 2 [] with prog := some ⟨4, false, []⟩ } : State), 0, 0, ⟨4, false, []⟩, ?_⟩,
    ⟨tst 2 [], ((tst 2 []).setPort 0 { Port.init with reqs := [⟨8, 0, 0, false⟩] }), 0, 0, ?_⟩,
    ⟨{ (tst 2 []).setPort 0 { Port.init with reqs := [⟨8, 3, 0, true⟩] } with prog := some ⟨4, false, []⟩ }, 0, 0, ⟨4, false, []⟩,
      true, [], ?_⟩,
    ⟨(tst 2 []).setPort 0 { Port.init with reqs := [⟨2, 0, 1, true⟩] }, 0, 0, ⟨2, 0, 1, true⟩, [], ?_⟩,
    ⟨(tst 2 []).setPort 0 { Port.init with waiting := [⟨0, none, 0, hod0⟩] }, 0, 0, ?_⟩,
    ⟨tst 2 [(F.QUAD_CTL_ROLE0 0, 2)], 0, ?_⟩⟩
  all_goals (try dsimp only [State.takes, State.issues])
  all_goals decide +kernel

theorem witness_RingsAndHodsOfTheYard :
    (∃ (s : State) (sid : Fin 8192), s.alive = true ∧ s.masonWritten sid = false ∧ s.handOnDue sid = true) ∧
    (∃ (s : State) (sid : Fin 8192), s.alive = true ∧ s.handOnDue sid = false) ∧
    (∃ (s : State) (sid : Fin 8192) (o : Open), s.alive = true ∧ s.openOf (s.hodKey sid) sid = some o ∧ s.masonWritten sid = false ∧
      o.opened + (s.w R.YARD_FLUSH).toNat * 1000 * nsU ≤ s.cyc) ∧
    (∃ (s : State) (h : Handed) (hs : List Handed), s.alive = true ∧ s.admits = true ∧ s.nextHanded [] s.handed = some (h, hs)) ∧
    (∃ (s : State), s.alive = true ∧ s.admits = false) ∧
    (∃ (s : State) (p : Fin 16) (x : RHod) (z : State),
      let tseq := (s.w (R.RING_TSEQ p)).toNat;
      s.alive = true ∧ s.role p = 1 ∧ s.mode ≠ 5 ∧ s.canSend p 2 = true ∧ s.eventDue p = false ∧ (s.ring p).find tseq = some x ∧ x.sent
        = false ∧ (s.ringHod p x).flags % 4 ≠ 2 ∧ (
      let u := s.sendHod p 2 (s.ringHod p x);
      (
      let w := (u.setRing p
        { u.ring p with hods := (u.ring p).hods.map fun z => if z.yseq = tseq then { z with sent := true } else z }).setW
        (R.RING_TSEQ p) (BitVec.ofNat 32 (tseq + 1));
      (((u.ring p).hods.map fun z => if z.yseq = tseq then { z with sent := true } else z).any (fun z => z.yseq == (tseq + 1) % 2 ^ 32
        && z.sent) = false)))) ∧
    (∃ (s : State) (p : Fin 16), s.alive = true ∧ (s.role p ≠ 1 ∨ s.mode = 5 ∨ s.canSend p 2 = false ∨ s.eventDue p = true)) ∧
    (∃ (s : State) (p : Fin 16) (ws : List Word) (q : Nat) (n : Nat),
      let free := s.mode ≠ 0 ∧ s.mode ≠ 4 ∧ (s.port p).reqs = [] ∧ s.role p ≠ 2;
      let hseq := (s.w (R.RING_HSEQ q)).toNat;
      let k := (n + 1 + 2 ^ 32 - hseq) % 2 ^ 32;
      s.alive = true ∧ free ∧ s.ringArg ws = some (q, n) ∧ k ≤ (s.ring q).sentCount) ∧
    (∃ (s : State) (p : Fin 16) (ws : List Word) (q : Nat) (n : Nat),
      let free := s.mode ≠ 0 ∧ s.mode ≠ 4 ∧ (s.port p).reqs = [] ∧ s.role p ≠ 2;
      let hseq := (s.w (R.RING_HSEQ q)).toNat;
      let k := (n + 1 + 2 ^ 32 - hseq) % 2 ^ 32;
      s.alive = true ∧ free ∧ (s.ringArg ws = none ∨ (s.ringArg ws = some (q, n) ∧ (s.ring q).sentCount < k))) ∧
    (∃ (s : State) (p : Fin 16) (ws : List Word) (q : Nat) (n : Nat),
      let free := s.mode ≠ 0 ∧ s.mode ≠ 4 ∧ (s.port p).reqs = [] ∧ s.role p ≠ 2;
      let hseq := (s.w (R.RING_HSEQ q)).toNat;
      let j := (n + 2 ^ 32 - hseq) % 2 ^ 32;
      s.alive = true ∧ free ∧ s.ringArg ws = some (q, n) ∧ j ≤ ((s.w (R.RING_TSEQ q)).toNat + 2 ^ 32 - hseq) % 2 ^ 32) ∧
    (∃ (s : State) (p : Fin 16) (ws : List Word) (q : Nat) (n : Nat),
      let free := s.mode ≠ 0 ∧ s.mode ≠ 4 ∧ (s.port p).reqs = [] ∧ s.role p ≠ 2;
      let hseq := (s.w (R.RING_HSEQ q)).toNat;
      let j := (n + 2 ^ 32 - hseq) % 2 ^ 32;
      s.alive = true ∧ free ∧ (s.ringArg ws = none ∨ (s.ringArg ws = some (q, n) ∧ ((s.w (R.RING_TSEQ q)).toNat + 2 ^ 32 - hseq) % 2 ^
        32 < j))) ∧
    (∃ (s : State) (p : Fin 16) (z : State),
      let h_ := s.pushReq p ⟨6, 0, 0, false⟩;
      s.alive = true ∧ h_.began z = false ∧ (z.port p).reqs = [⟨6, 0, 0, false⟩]) ∧
    (∃ (s : State) (p : Fin 16), s.alive = true ∧ s.mode ≠ 0 ∧ s.mode ≠ 4 ∧ (s.port p).reqs = [] ∧ s.role p = 2) ∧
    (∃ (s : State) (p : Fin 16) (sid : Fin 8192), s.alive = true ∧ s.admits = true ∧ s.resumed.contains (sid.val, p.val) = true) ∧
    (∃ (s : State), s.alive = true ∧ s.draining = true ∧ s.handed = []) ∧
    (∃ (s : State), s.alive = true ∧ s.mode ≠ 0) ∧
    (∃ (s : State), s.alive = true ∧ s.mode ≠ 0 ∧ s.b F.YARD_STAT_READY = true ∧ s.yardEmpty = true ∧ s.activeSids = [] ∧ s.inFlight
      = false) := by
  refine ⟨⟨tst 2 [], 0, ?_⟩,
    ⟨tst 3 [(F.SE_CTL_VALID 0, 1), (F.SE_CTL_ACT 0, 1)], 0, ?_⟩,
    ⟨({ tst 2 [(F.SE_CTL_VALID 0, 1)] with packs := [((tst 2 []).hodKey 0, [⟨0, 0, [], 0, 0⟩])], cyc := secU } : State), 0, ⟨0, 0,
      [], 0, 0⟩, ?_⟩,
    ⟨({ tst 3 [] with handed := [⟨0, 0, [], none, false, [], false, false⟩] } : State), ⟨0, 0, [], none, false, [], false, false⟩,
      [], ?_⟩,
    ⟨tst 2 [], ?_⟩,
    ⟨(((tst 2 [(F.QUAD_CTL_ROLE0 0, 1), (F.QUAD_STAT_PS0 0, 2)])).setPort 0
      { Port.init with gotLink := true, lim := [(2, 1)] }).setRing 0 ⟨[⟨0, 0, false, 2, 0, 16, false⟩], 16⟩, 0, ⟨0, 0, false, 2,
      0, 16, false⟩, State.reset, ?_⟩,
    ⟨tst 2 [], 0, ?_⟩,
    ⟨tst 2 [(F.RING_CFG_SIZE 0, 1)], 0, [0, 0xFFFFFFFF], 0, 0xFFFFFFFF, ?_⟩,
    ⟨tst 2 [], 0, [], 0, 0, ?_⟩,
    ⟨tst 2 [(F.RING_CFG_SIZE 0, 1)], 0, [0, 0], 0, 0, ?_⟩,
    ⟨tst 2 [(F.RING_CFG_SIZE 0, 1)], 0, [0, 1], 0, 1, ?_⟩,
    ⟨tst 2 [], 0, ((tst 2 []).setPort 0 { Port.init with reqs := [⟨6, 0, 0, false⟩] }), ?_⟩,
    ⟨tst 2 [(F.QUAD_CTL_ROLE0 0, 2)], 0, ?_⟩,
    ⟨({ tst 3 [] with resumed := [(0, 0)] } : State), 0, 0, ?_⟩,
    ⟨({ tst 2 [] with draining := true } : State), ?_⟩,
    ⟨tst 2 [], ?_⟩,
    ⟨tst 2 [(F.YARD_STAT_READY, 1)], ?_⟩⟩
  all_goals (try dsimp only [State.takes, State.issues])
  all_goals decide +kernel

theorem witness_RingAndPressConfiguration :
    (∃ (s : State) (r : Req) (p : Fin 16) (v : Word),
      let n := bits v.toNat 9 0;
      let rest := ((range' 0 16).map fun q => if q = p.val then 0 else s.f (F.RING_CFG_SIZE q)).sum;
      s.takes r (R.RING_CFG p) ∧ (s.mode = 1 ∨ s.mode = 2) ∧ n ≠ 0 ∧ n + rest ≤ 512 ∧ s.yardEmpty = true) ∧
    (∃ (s : State) (r : Req) (p : Fin 16) (v : Word),
      let n := bits v.toNat 9 0;
      let rest := ((range' 0 16).map fun q => if q = p.val then 0 else s.f (F.RING_CFG_SIZE q)).sum;
      s.takes r (R.RING_CFG p) ∧ (s.mode = 1 ∨ s.mode = 2) ∧ n = 0 ∧ rest ≤ 512 ∧ s.yardEmpty = true ∧ ((s.activeSids.any fun i =>
        s.portOf i == p.val) = false)) ∧
    (∃ (s : State) (r : Req) (p : Fin 16) (v : Word),
      let n := bits v.toNat 9 0;
      let rest := ((range' 0 16).map fun q => if q = p.val then 0 else s.f (F.RING_CFG_SIZE q)).sum;
      s.takes r (R.RING_CFG p) ∧ (s.mode = 1 ∨ s.mode = 2) ∧ n + rest ≤ 512 ∧ (s.yardEmpty = false ∨ (n = 0 ∧ (s.activeSids.any fun i
        => s.portOf i == p.val) = true))) ∧
    (∃ (s : State) (r : Req) (p : Fin 16), s.takes r (R.RING_CFG p) ∧ s.mode ≠ 1 ∧ s.mode ≠ 2) ∧
    (∃ (s : State) (r : Req) (p : Fin 16) (v : Word),
      let n := bits v.toNat 9 0;
      let rest := ((range' 0 16).map fun q => if q = p.val then 0 else s.f (F.RING_CFG_SIZE q)).sum;
      s.takes r (R.RING_CFG p) ∧ (s.mode = 1 ∨ s.mode = 2) ∧ 512 < n + rest) ∧
    (∃ (s : State) (r : Req) (t : Fin 24) (v : Word),
      let differs := Nat.xor (bits v.toNat 15 0) (bits (s.w (R.PK_CTL t)).toNat 15 0);
      let hit := s.activeSids.any fun i => !s.masonWritten i && s.f (F.SE_CTL_SRC_KIND i) == 0 && s.f (F.SE_SRC_CH i) / 16 == t.val &&
        bit differs (s.f (F.SE_SRC_CH i) % 16);
      s.takes r (R.PK_CTL t) ∧ hit = true) ∧
    (∃ (s : State) (r : Req) (t : Fin 24) (v : Word),
      let differs := Nat.xor (bits v.toNat 15 0) (bits (s.w (R.PK_CTL t)).toNat 15 0);
      let hit := s.activeSids.any fun i => !s.masonWritten i && s.f (F.SE_CTL_SRC_KIND i) == 0 && s.f (F.SE_SRC_CH i) / 16 == t.val &&
        bit differs (s.f (F.SE_SRC_CH i) % 16);
      s.takes r (R.PK_CTL t) ∧ hit = false) ∧
    (∃ (s : State), s.alive = true) ∧
    (∃ (s : State) (r : Req) (e : Fin 4) (v : Word),
      let m := bits v.toNat 25 16;
      s.takes r (R.PC_CTL e) ∧ 16 ≤ m ∧ m ≤ 1020 ∧ s.engineUsed e = false) ∧
    (∃ (s : State) (r : Req) (e : Fin 4) (v : Word),
      let m := bits v.toNat 25 16;
      s.takes r (R.PC_CTL e) ∧ 16 ≤ m ∧ m ≤ 1020 ∧ s.engineUsed e = true) ∧
    (∃ (s : State) (r : Req) (e : Fin 4) (v : Word),
      let m := bits v.toNat 25 16;
      s.takes r (R.PC_CTL e) ∧ (m < 16 ∨ 1020 < m)) ∧
    (∃ (s : State) (r : Req) (e : Fin 4) (v : Word), s.takes r (R.PC_MRES e) ∧ (s.setW (R.PC_MRES e) v).pressOk = true) ∧
    (∃ (s : State) (r : Req) (e : Fin 4) (v : Word), s.takes r (R.PC_MRES e) ∧ (s.setW (R.PC_MRES e) v).pressOk = false) ∧
    (∃ (s : State) (r : Req) (v : Word), s.takes r R.PX_CTL ∧ wbit v 0 = true ∧ s.f F.PX_STAT_STATE = 0 ∧ s.b F.PX_STAT_OWNER = false) ∧
    (∃ (s : State) (r : Req) (v : Word), s.takes r R.PX_CTL ∧ wbit v 0 = true ∧ (s.f F.PX_STAT_STATE ≠ 0 ∨ s.b F.PX_STAT_OWNER =
      true)) ∧
    (∃ (s : State) (bs : List PBlock) (out : List Byte),
      let input := (range' 0 (s.f F.PX_JOB_IN_LEN)).map fun i => s.w (R.PX_INBUF i);
      s.alive = true ∧ s.f F.PX_STAT_STATE ≠ 0 ∧ scanBlocks (s.f F.PX_JOB_IN_LEN + 1) 0 (s.f F.PX_JOB_OUT_LIMIT) input = .ok bs ∧
        expandBlocks bs (s.f F.PX_JOB_OUT_LIMIT) 0 [] = ⟨out, none⟩) ∧
    (∃ (s : State) (err : ScanErr) (k : Nat),
      let input := (range' 0 (s.f F.PX_JOB_IN_LEN)).map fun i => s.w (R.PX_INBUF i);
      s.alive = true ∧ s.f F.PX_STAT_STATE ≠ 0 ∧ scanBlocks (s.f F.PX_JOB_IN_LEN + 1) 0 (s.f F.PX_JOB_OUT_LIMIT) input = .error (err,
        k)) ∧
    (∃ (s : State), s.alive = true ∧ s.f F.PX_STAT_STATE = 0) := by
  refine ⟨⟨tst 1 [], .host, 0, 0x1, ?_⟩,
    ⟨tst 1 [], .host, 0, 0x0, ?_⟩,
    ⟨tst 1 [(F.SE_CTL_VALID 0, 1), (F.SE_CTL_ACT 0, 1)], .host, 0, 0, ?_⟩,
    ⟨tst 3 [], .host, 0, ?_⟩,
    ⟨tst 1 [(F.RING_CFG_SIZE 1, 512)], .host, 0, 1, ?_⟩,
    ⟨tst 2 [(F.SE_CTL_VALID 0, 1), (F.SE_CTL_ACT 0, 1)], .host, 0, 1, ?_⟩,
    ⟨tst 2 [], .host, 0, 0, ?_⟩,
    ⟨tst 2 [], ?_⟩,
    ⟨tst 2 [], .host, 0, 0x100000, ?_⟩,
    ⟨tst 2 [(F.SE_CTL_VALID 0, 1), (F.SE_CTL_ACT 0, 1), (F.SE_REP_PRESS_EN 0, 1)], .host, 0, 0x100000, ?_⟩,
    ⟨tst 2 [], .host, 0, 0x0, ?_⟩,
    ⟨tst 2 [], .host, 0, 0, ?_⟩,
    ⟨tst 2 [(F.SE_CTL_VALID 0, 1), (F.SE_CTL_ACT 0, 1), (F.SE_CTL_PATH 0, 1), (F.SE_REP_PRESS_EN 0, 1)], .host, 0, 0xFFFFFFFF, ?_⟩,
    ⟨tst 2 [(F.PX_STAT_STATE, 0), (F.PX_STAT_OWNER, 0)], .host, 0x1, ?_⟩,
    ⟨tst 2 [(F.PX_STAT_STATE, 1)], .host, 0x1, ?_⟩,
    ⟨tst 2 [(F.PX_STAT_STATE, 1), (F.PX_JOB_IN_LEN, 0)], [], [], ?_⟩,
    ⟨tst 2 [(F.PX_STAT_STATE, 1), (F.PX_JOB_IN_LEN, 1)], .length, 0, ?_⟩,
    ⟨tst 2 [(F.PX_STAT_STATE, 0)], ?_⟩⟩
  all_goals (try dsimp only [State.takes, State.issues])
  all_goals decide +kernel

theorem witness_LanesTrain_a :
    (∃ (s : State) (n : Fin 32) (i : Nat),
      let mine := s.lanePort n = some i;
      s.alive = true ∧ mine ∧ s.lst n = 0 ∧ s.b (F.LANE_STAT_LOS n) = false ∧ s.b (F.LANE_STAT_LOL n) = false ∧ s.b
        (F.QUAD_STAT_PLL_LOCK (n / 4)) = true) ∧
    (∃ (s : State) (n : Fin 32), s.alive = true ∧ s.b (F.LANE_STAT_LOS n) = true) ∧
    (∃ (s : State) (n : Fin 32) (i : Nat),
      let mine := s.lanePort n = some i;
      let u := s.setF (F.LANE_EQ_FROZEN n) 0;
      s.alive = true ∧ mine ∧ u.lst n = 1) ∧
    (∃ (s : State) (n : Fin 32) (i : Nat),
      let mine := s.lanePort n = some i;
      let u := s.setF (F.LANE_EQ_FROZEN n) 0;
      s.alive = true ∧ mine ∧ u.lst n = 2) ∧
    (∃ (s : State) (n : Fin 32) (i : Nat) (ts : TrainSet) (x : TsRead),
      let mine := s.lanePort n = some i;
      let u := s.setF (F.LANE_EQ_FROZEN n) 0;
      s.alive = true ∧ mine ∧ u.lst n = 3 ∧ u.readSet n ts = some x) ∧
    (∃ (s : State) (n : Fin 32) (i : Nat) (ts : TrainSet) (x : TsRead),
      let mine := s.lanePort n = some i;
      let u := s.setF (F.LANE_EQ_FROZEN n) 0;
      s.alive = true ∧ mine ∧ u.lst n = 4 ∧ u.readSet n ts = some x) ∧
    (∃ (s : State) (n : Fin 32) (i : Nat) (ts : TrainSet) (x : TsRead),
      let mine := s.lanePort n = some i;
      let u := s.setF (F.LANE_EQ_FROZEN n) 0;
      s.alive = true ∧ mine ∧ u.lst n = 5 ∧ u.readSet n ts = some x) ∧
    (∃ (s : State) (n : Fin 32) (i : Nat) (ts : TrainSet) (x : TsRead),
      let mine := s.lanePort n = some i;
      let u := s.setF (F.LANE_EQ_FROZEN n) 0;
      s.alive = true ∧ mine ∧ u.lst n = 6 ∧ u.readSet n ts = some x ∧ x.state < 6) ∧
    (∃ (s : State) (n : Fin 32) (i : Nat) (ts : TrainSet),
      let mine := s.lanePort n = some i;
      let u := s.setF (F.LANE_EQ_FROZEN n) 0;
      s.alive = true ∧ mine ∧ 3 ≤ u.lst n ∧ u.lst n ≤ 6 ∧ u.readSet n ts = none) ∧
    (∃ (s : State) (p : Fin 16) (c : Nat), s.alive = true ∧ s.lanesIn p 3 ≠ [] ∧ s.partnerMap p = .error c) ∧
    (∃ (s : State) (p : Fin 16), s.alive = true ∧ (((s.lanesIn p 3).all fun k => (s.lane k).width == s.widthCode p) = false)) ∧
    (∃ (s : State) (p : Fin 16) (first : Nat) (js : List Nat) (rev : Bool), s.alive = true ∧ s.lanesIn p 3 ≠ [] ∧ s.partnerMap p =
      .ok rev ∧ (s.role p ≠ 2 ∨ 2000 ≤ first ∨ 2 ^ s.widthCode p ≤ (s.lanesIn p 3).length) ∧ s.chooseLanes p = some js) ∧
    (∃ (s : State) (p : Fin 16) (first : Nat) (rev : Bool), s.alive = true ∧ s.lanesIn p 3 ≠ [] ∧ s.partnerMap p = .ok rev ∧ s.role p
      = 2 ∧ first < 2000 ∧ (s.lanesIn p 3).length < 2 ^ s.widthCode p) ∧
    (∃ (s : State) (p : Fin 16) (first : Nat) (own : Nat) (rev : Bool), s.alive = true ∧ s.lanesIn p 3 ≠ [] ∧ s.partnerMap p = .ok
      rev ∧ s.chooseLanes p = none ∧ ((if s.role p = 2 then 2000 ≤ first else 4000 ≤ own))) ∧
    (∃ (s : State) (n : Fin 32) (i : Nat),
      let mine := s.lanePort n = some i;
      s.alive = true ∧ mine ∧ s.lst n = 3) := by
  refine ⟨⟨tst 2 [(F.LANE_STAT_LOS 0, 0), (F.LANE_STAT_LOL 0, 0), (F.QUAD_STAT_PLL_LOCK (0 / 4), 1), (F.LANE_STAT_INPORT 0, 1),
      (F.LANE_STAT_STATE 0, 0)], 0, 0, ?_⟩,
    ⟨tst 2 [(F.LANE_STAT_LOS 0, 1)], 0, ?_⟩,
    ⟨tst 2 [(F.LANE_STAT_INPORT 0, 1), (F.LANE_STAT_STATE 0, 1)], 0, 0, ?_⟩,
    ⟨tst 2 [(F.LANE_STAT_INPORT 0, 1), (F.LANE_STAT_STATE 0, 2)], 0, 0, ?_⟩,
    ⟨tst 2 [(F.LANE_STAT_INPORT 0, 1), (F.LANE_STAT_STATE 0, 3)], 0, 0, (tset 0 0 3), ⟨false, false, 0, 0, 0, 0, 3, false⟩, ?_⟩,
    ⟨tst 2 [(F.LANE_STAT_INPORT 0, 1), (F.LANE_STAT_STATE 0, 4)], 0, 0, (tset 0 0 4), ⟨false, false, 0, 0, 0, 0, 4, false⟩, ?_⟩,
    ⟨tst 2 [(F.LANE_STAT_INPORT 0, 1), (F.LANE_STAT_STATE 0, 5)], 0, 0, (tset 0 0 5), ⟨false, false, 0, 0, 0, 0, 5, false⟩, ?_⟩,
    ⟨tst 2 [(F.LANE_STAT_INPORT 0, 1), (F.LANE_STAT_STATE 0, 6)], 0, 0, (tset 0 0 5), ⟨false, false, 0, 0, 0, 0, 5, false⟩, ?_⟩,
    ⟨tst 2 [(F.LANE_STAT_INPORT 0, 1), (F.LANE_STAT_STATE 0, 3)], 0, 0, ⟨0, 0, []⟩, ?_⟩,
    ⟨tst 2 [(F.LANE_STAT_INPORT 0, 1), (F.LANE_STAT_STATE 0, 3), (F.QUAD_CTL_W0 0, 0)], 0, 3, ?_⟩,
    ⟨tst 2 [(F.LANE_STAT_INPORT 0, 1), (F.LANE_STAT_STATE 0, 3), (F.QUAD_CTL_W0 0, 1)], 0, ?_⟩,
    ⟨((tst 2 [(F.LANE_STAT_INPORT 0, 1), (F.LANE_STAT_STATE 0, 3), (F.QUAD_CTL_W0 0, 0), (F.QUAD_CTL_ROLE0 0, 1)])).setLane 0
      { Lane.init with sel := true, idx := some 0 }, 0, 0, [0], false, ?_⟩,
    ⟨((tst 2 [(F.LANE_STAT_INPORT 0, 1), (F.LANE_STAT_STATE 0, 3), (F.QUAD_CTL_W0 0, 1), (F.QUAD_CTL_ROLE0 0, 2)])).setLane 0
      { Lane.init with width := 1, idx := some 0 }, 0, 0, false, ?_⟩,
    ⟨((tst 2 [(F.LANE_STAT_INPORT 0, 1), (F.LANE_STAT_STATE 0, 3), (F.QUAD_CTL_W0 0, 1), (F.QUAD_CTL_ROLE0 0, 1)])).setLane 0
      { Lane.init with width := 1, idx := some 0 }, 0, 0, 4000, false, ?_⟩,
    ⟨tst 2 [(F.LANE_STAT_INPORT 0, 1), (F.LANE_STAT_STATE 0, 3)], 0, 0, ?_⟩⟩
  all_goals (try dsimp only [State.takes, State.issues])
  all_goals decide +kernel

theorem witness_LanesTrain_b :
    (∃ (s : State) (n : Fin 32) (i : Nat),
      let mine := s.lanePort n = some i;
      s.alive = true ∧ mine ∧ s.lst n = 1) ∧
    (∃ (s : State) (n : Fin 32) (i : Nat),
      let mine := s.lanePort n = some i;
      s.alive = true ∧ mine ∧ s.lst n = 2) ∧
    (∃ (s : State) (n : Fin 32) (i : Nat),
      let mine := s.lanePort n = some i;
      s.alive = true ∧ mine ∧ s.lst n = 4 ∧ 0 < (s.lane n).badRole) ∧
    (∃ (s : State) (n : Fin 32) (i : Nat),
      let mine := s.lanePort n = some i;
      s.alive = true ∧ mine ∧ s.lst n = 4 ∧ (s.lane n).badRole = 0) ∧
    (∃ (s : State) (n : Fin 32) (i : Nat),
      let mine := s.lanePort n = some i;
      s.alive = true ∧ mine ∧ s.lst n = 5) ∧
    (∃ (s : State), s.alive = true) ∧
    (∃ (s : State) (n : Fin 32) (i : Nat),
      let mine := s.lanePort n = some i;
      s.alive = true ∧ mine ∧ s.lst n = 5 ∧ s.b (F.LANE_EQ_HOLD n) = false ∧ s.b (F.LANE_EQ_FROZEN n) = false) ∧
    (∃ (s : State) (n : Fin 32) (i : Nat),
      let mine := s.lanePort n = some i;
      s.alive = true ∧ mine ∧ s.lst n = 5 ∧ s.b (F.LANE_EQ_HOLD n) = true) ∧
    (∃ (s : State) (n : Fin 32) (i : Nat),
      let mine := s.lanePort n = some i;
      s.alive = true ∧ mine ∧ s.lst n = 6 ∧ s.b (F.LANE_EQ_HOLD n) = false ∧ s.b (F.LANE_EQ_FROZEN n) = false) ∧
    (∃ (s : State) (n : Fin 32) (i : Nat), s.alive = true ∧ s.lanePort n = some i ∧ (s.sending i).contains n.val = true) ∧
    (∃ (s : State) (syms : Nat) (n : Fin 32), s.alive = true ∧ (s.lst n = 5 ∨ s.lst n = 6) ∧ 4096 ≤ syms) ∧
    (∃ (s : State) (r : Req) (q : Fin 8) (v : Word) (st : Status), s.alive = true ∧ s.takes r (R.QUAD_CTL q) ∧ s.quadStop q v = some
      st) ∧
    (∃ (s : State) (r : Req) (q : Fin 8) (v : Word),
      let p0 := 2 * q.val;
      s.alive = true ∧ s.takes r (R.QUAD_CTL q) ∧ s.quadStop q v = none ∧ s.role p0 = 0 ∧ s.role (p0 + 1) = 0 ∧ bits v.toNat 15 12 ≠ 0) ∧
    (∃ (s : State) (r : Req) (q : Fin 8) (v : Word),
      let p0 := 2 * q.val;
      s.alive = true ∧ s.takes r (R.QUAD_CTL q) ∧ s.quadStop q v = none ∧ s.role p0 = 0 ∧ s.role (p0 + 1) = 0 ∧ bits v.toNat 15 12 = 0) ∧
    (∃ (s : State) (r : Req) (q : Fin 8) (v : Word),
      let p0 := 2 * q.val;
      s.alive = true ∧ s.takes r (R.QUAD_CTL q) ∧ s.quadStop q v = none ∧ bits v.toNat 13 12 = s.role p0 ∧ bits v.toNat 15 14 = s.role
        (p0 + 1) ∧ bits v.toNat 15 12 ≠ 0) := by
  refine ⟨⟨tst 2 [(F.LANE_STAT_INPORT 0, 1), (F.LANE_STAT_STATE 0, 1)], 0, 0, ?_⟩,
    ⟨tst 2 [(F.LANE_STAT_INPORT 0, 1), (F.LANE_STAT_STATE 0, 2)], 0, 0, ?_⟩,
    ⟨((tst 2 [(F.LANE_STAT_INPORT 0, 1), (F.LANE_STAT_STATE 0, 4)])).setLane 0 { Lane.init with badRole := 1 }, 0, 0, ?_⟩,
    ⟨tst 2 [(F.LANE_STAT_INPORT 0, 1), (F.LANE_STAT_STATE 0, 4)], 0, 0, ?_⟩,
    ⟨tst 2 [(F.LANE_STAT_INPORT 0, 1), (F.LANE_STAT_STATE 0, 5)], 0, 0, ?_⟩,
    ⟨tst 2 [], ?_⟩,
    ⟨tst 2 [(F.LANE_EQ_HOLD 0, 0), (F.LANE_EQ_FROZEN 0, 0), (F.LANE_STAT_INPORT 0, 1), (F.LANE_STAT_STATE 0, 5)], 0, 0, ?_⟩,
    ⟨tst 2 [(F.LANE_EQ_HOLD 0, 1), (F.LANE_STAT_INPORT 0, 1), (F.LANE_STAT_STATE 0, 5)], 0, 0, ?_⟩,
    ⟨tst 2 [(F.LANE_EQ_HOLD 0, 0), (F.LANE_EQ_FROZEN 0, 0), (F.LANE_STAT_INPORT 0, 1), (F.LANE_STAT_STATE 0, 6)], 0, 0, ?_⟩,
    ⟨tst 2 [(F.LANE_STAT_INPORT 0, 1), (F.LANE_STAT_STATE 0, 1)], 0, 0, ?_⟩,
    ⟨tst 2 [(F.LANE_STAT_INPORT 0, 1), (F.LANE_STAT_STATE 0, 5)], 4096, 0, ?_⟩,
    ⟨tst 2 [], .host, 0, 7, .unsupported, ?_⟩,
    ⟨tst 2 [(F.QUAD_CTL_ROLE0 0, 0), (F.QUAD_CTL_ROLE1 0, 0)], .host, 0, 0x11003, ?_⟩,
    ⟨tst 2 [(F.QUAD_CTL_ROLE0 0, 0), (F.QUAD_CTL_ROLE1 0, 0)], .host, 0, 0, ?_⟩,
    ⟨tst 2 [], .host, 0, 0x11003, ?_⟩⟩
  all_goals (try dsimp only [State.takes, State.issues])
  all_goals decide +kernel

theorem witness_LanesInOperation_a :
    (∃ (s : State), s.alive = true) ∧
    (∃ (s : State) (n : Fin 32) (i : Nat) (mv : Nat) (lol : Bool),
      let lost := (s.setF (F.LANE_STAT_LOS n) 1).setF (F.LANE_STAT_LOL n) (if lol then 1 else 0);
      let low := mv < 40 + 10 * s.f (F.LANE_CTL_LOS_THR n);
      s.alive = true ∧ low ∧ lost.lanePort n = some i ∧ lost.lst n = 6) ∧
    (∃ (s : State) (n : Fin 32) (i : Nat) (mv : Nat) (lol : Bool),
      let lost := (s.setF (F.LANE_STAT_LOS n) 1).setF (F.LANE_STAT_LOL n) (if lol then 1 else 0);
      let low := mv < 40 + 10 * s.f (F.LANE_CTL_LOS_THR n);
      s.alive = true ∧ low ∧ lost.lanePort n = some i ∧ 1 ≤ lost.lst n ∧ lost.lst n ≤ 5) ∧
    (∃ (s : State) (n : Fin 32) (mv : Nat) (lol : Bool),
      let lost := (s.setF (F.LANE_STAT_LOS n) 1).setF (F.LANE_STAT_LOL n) (if lol then 1 else 0);
      let low := mv < 40 + 10 * s.f (F.LANE_CTL_LOS_THR n);
      s.alive = true ∧ low ∧ lost.lanePort n = none) ∧
    (∃ (s : State) (n : Fin 32) (mv : Nat), s.alive = true ∧ 40 + 10 * s.f (F.LANE_CTL_LOS_THR n) < mv) ∧
    (∃ (s : State), s.alive = true ∧ s.lanesOn = true) ∧
    (∃ (s : State) (q : Fin 8),
      let p0 := 2 * q.val;
      s.alive = true ∧ s.lanesOn = true ∧ s.role p0 = 0 ∧ s.role (p0 + 1) = 0) ∧
    (∃ (s : State) (q : Fin 8),
      let p0 := 2 * q.val;
      s.alive = true ∧ s.lanesOn = true ∧ (s.role p0 ≠ 0 ∨ s.role (p0 + 1) ≠ 0)) ∧
    (∃ (s : State) (n : Fin 32), s.alive = true ∧ s.nearEnd n = true) ∧
    (∃ (s : State) (n : Fin 32) (neg : Bool) (g : BitVec 10) (c : Status),
      let bad := fun (c d : Nat) => ((s.bump (F.LANE_ERR_CODE n) c).bump (F.LANE_ERR_DISP n) d).setF (F.LANE_EVT_CODE_ERR n) 1;
      let word := readLine (s.b (F.LANE_STAT_RX_INV n)) neg [g];
      s.alive = true ∧ s.laneCounts n = true ∧ s.nearEnd n = false ∧ word = [.bad false] ∧ (bad 1 0).farEnd n = false) ∧
    (∃ (s : State) (n : Fin 32) (neg : Bool) (g : BitVec 10) (c : Status),
      let bad := fun (c d : Nat) => ((s.bump (F.LANE_ERR_CODE n) c).bump (F.LANE_ERR_DISP n) d).setF (F.LANE_EVT_CODE_ERR n) 1;
      let word := readLine (s.b (F.LANE_STAT_RX_INV n)) neg [g];
      s.alive = true ∧ s.laneCounts n = true ∧ s.nearEnd n = false ∧ word = [.bad true] ∧ (bad 0 1).farEnd n = false) ∧
    (∃ (s : State) (n : Fin 32) (i : Nat) (dist : Nat) (data : Bool) (fill : Fin 33),
      let e := if data then (s.ebAdjust n fill.val).setF (F.LANE_EQ_FROZEN n) 0 else s.ebAdjust n fill.val;
      let m := (s.lane n).miss + 1;
      let misplaced := dist < 1022 ∨ 1026 < dist;
      s.alive = true ∧ s.lst n ≠ 7 ∧ s.nearEnd n = false ∧ e.farEnd n = false ∧ e.lanePort n = some i ∧ e.lst n = 6 ∧ misplaced ∧ m = 4) := by
  refine ⟨⟨tst 2 [], ?_⟩,
    ⟨tst 2 [(F.LANE_STAT_INPORT 0, 1), (F.LANE_STAT_STATE 0, 6)], 0, 0, 0, false, ?_⟩,
    ⟨tst 2 [(F.LANE_STAT_INPORT 0, 1), (F.LANE_STAT_STATE 0, 1)], 0, 0, 0, false, ?_⟩,
    ⟨tst 2 [], 0, 0, false, ?_⟩,
    ⟨tst 2 [], 0, 1000, ?_⟩,
    ⟨tst 2 [], ?_⟩,
    ⟨tst 2 [(F.QUAD_CTL_ROLE0 0, 0), (F.QUAD_CTL_ROLE1 0, 0)], 0, ?_⟩,
    ⟨tst 2 [], 0, ?_⟩,
    ⟨tst 2 [(F.LANE_CTL_LB 0, 1)], 0, ?_⟩,
    ⟨tst 2 [(F.LANE_STAT_INPORT 0, 1), (F.LANE_STAT_STATE 0, 6)], 0, false, 0, .ok, ?_⟩,
    ⟨tst 2 [(F.LANE_STAT_INPORT 0, 1), (F.LANE_STAT_STATE 0, 6)], 0, true, 0x305, .ok, ?_⟩,
    ⟨((tst 2 [(F.LANE_STAT_INPORT 0, 1), (F.LANE_STAT_STATE 0, 6)])).setLane 0 { Lane.init with miss := 3 }, 0, 0, 0, false, 0, ?_⟩⟩
  all_goals (try dsimp only [State.takes, State.issues])
  all_goals decide +kernel

theorem witness_LanesInOperation_b :
    (∃ (s : State) (n : Fin 32) (i : Nat) (dist : Nat) (late : Nat) (data : Bool) (fill : Fin 33),
      let e := if data then (s.ebAdjust n fill.val).setF (F.LANE_EQ_FROZEN n) 0 else s.ebAdjust n fill.val;
      let misplaced := dist < 1022 ∨ 1026 < dist;
      let got := fun (j : Nat) => e.setLane n { e.lane n with miss := j, late := late };
      s.alive = true ∧ s.lst n ≠ 7 ∧ s.nearEnd n = false ∧ e.farEnd n = false ∧ e.lanePort n = some i ∧ e.lst n = 6 ∧ ¬ misplaced ∧
        (got 0).skewOk ((got 0).lanesIn i 6) = true) ∧
    (∃ (s : State) (n : Fin 32) (i : Nat) (dist : Nat) (late : Nat) (data : Bool) (fill : Fin 33),
      let e := if data then (s.ebAdjust n fill.val).setF (F.LANE_EQ_FROZEN n) 0 else s.ebAdjust n fill.val;
      let misplaced := dist < 1022 ∨ 1026 < dist;
      let got := fun (j : Nat) => e.setLane n { e.lane n with miss := j, late := late };
      s.alive = true ∧ s.lst n ≠ 7 ∧ s.nearEnd n = false ∧ e.farEnd n = false ∧ e.lanePort n = some i ∧ e.lst n = 6 ∧ ¬ misplaced ∧
        (got 0).skewOk ((got 0).lanesIn i 6) = false) ∧
    (∃ (s : State) (n : Fin 32), s.alive = true ∧ s.lst n ≠ 7 ∧ s.b (F.LANE_EVT_EB_SLIP n) = false) ∧
    (∃ (s : State) (r : Req) (n : Fin 32) (v : Word), s.alive = true ∧ s.takes r (R.LANE_CTL n) ∧ bits v.toNat 15 12 ≤ 12 ∧ bits
      v.toNat 11 8 ≤ 12 ∧ bits v.toNat 5 4 ≠ 0 ∧ s.laneBusy n = true) ∧
    (∃ (s : State) (r : Req) (n : Fin 32) (v : Word), s.alive = true ∧ s.takes r (R.LANE_CTL n) ∧ bits v.toNat 15 12 ≤ 12 ∧ bits
      v.toNat 11 8 ≤ 12 ∧ s.laneBusy n = false ∧ bits v.toNat 5 4 = s.f (F.LANE_CTL_LB n)) ∧
    (∃ (s : State) (r : Req) (n : Fin 32) (v : Word), s.alive = true ∧ s.takes r (R.LANE_CTL n) ∧ bits v.toNat 15 12 ≤ 12 ∧ bits
      v.toNat 11 8 ≤ 12 ∧ s.laneBusy n = false ∧ bits v.toNat 5 4 ≠ s.f (F.LANE_CTL_LB n)) ∧
    (∃ (s : State) (q : Fin 8),
      let k := 4 * q.val;
      s.alive = true ∧ s.nearEnd k = false) ∧
    (∃ (s : State) (q : Fin 8),
      let k := 4 * q.val;
      s.alive = true ∧ s.nearEnd k = true) ∧
    (∃ (s : State) (r : Req) (q : Fin 8) (v : Word) (c : Status),
      let k := 4 * q.val;
      s.alive = true ∧ s.takes r (R.PRBS_CTL k) ∧ s.prbsStop k v = some c) ∧
    (∃ (s : State) (r : Req) (q : Fin 8) (v : Word),
      let k := 4 * q.val;
      s.alive = true ∧ s.takes r (R.PRBS_CTL k) ∧ s.prbsStop k v = none ∧ wbit v 8 = false ∧ wbit v 9 = false ∧ wbit v 0 = false ∧ wbit
        v 1 = true ∧ s.b (F.PRBS_CTL_CHK_EN k) = true) ∧
    (∃ (s : State) (r : Req) (q : Fin 8) (v : Word),
      let k := 4 * q.val;
      s.alive = true ∧ s.takes r (R.PRBS_CTL k) ∧ s.prbsStop k (v ||| 0x100) = none ∧ wbit v 9 = false ∧ wbit v 1 = false ∧ s.b
        (F.PRBS_CTL_GEN_EN k) = true) ∧
    (∃ (s : State) (r : Req) (q : Fin 8) (v : Word),
      let k := 4 * q.val;
      s.alive = true ∧ s.takes r (R.PRBS_CTL k) ∧ s.prbsStop k (v ||| 0x200) = none ∧ wbit v 8 = false ∧ wbit v 1 = false ∧ s.b
        (F.PRBS_CTL_GEN_EN k) = true) := by
  refine ⟨⟨tst 2 [(F.LANE_STAT_INPORT 0, 1), (F.LANE_STAT_STATE 0, 6)], 0, 0, 1024, 0, false, 0, ?_⟩,
    ⟨tst 2 [(F.LANE_STAT_INPORT 0, 1), (F.LANE_STAT_STATE 0, 6), (F.LANE_STAT_INPORT 1, 1), (F.LANE_STAT_STATE 1, 6), (F.QUAD_CTL_W0
      0, 1)], 0, 0, 1024, 25, false, 0, ?_⟩,
    ⟨tst 2 [(F.LANE_EVT_EB_SLIP 0, 0), (F.LANE_STAT_INPORT 0, 1), (F.LANE_STAT_STATE 0, 1)], 0, ?_⟩,
    ⟨tst 2 [(F.QUAD_CTL_ROLE0 0, 1)], .host, 0, 0x10, ?_⟩,
    ⟨tst 2 [(F.QUAD_CTL_ROLE0 0, 0)], .host, 0, 0x0, ?_⟩,
    ⟨tst 2 [(F.QUAD_CTL_ROLE0 0, 0), (F.QUAD_CTL_ROLE1 0, 0)], .host, 0, 0x10, ?_⟩,
    ⟨tst 2 [], 0, ?_⟩,
    ⟨tst 2 [(F.LANE_CTL_LB 0, 1)], 0, ?_⟩,
    ⟨tst 2 [], .host, 0, 0x200, .unsupported, ?_⟩,
    ⟨tst 2 [(F.PRBS_CTL_CHK_EN (4 * 0), 1), (F.QUAD_CTL_ROLE0 0, 0)], .host, 0, 0x2, ?_⟩,
    ⟨tst 2 [(F.PRBS_CTL_GEN_EN (4 * 0), 1)], .host, 0, 0x0, ?_⟩,
    ⟨tst 2 [(F.PRBS_CTL_GEN_EN (4 * 0), 1)], .host, 0, 0x10200, ?_⟩⟩
  all_goals (try dsimp only [State.takes, State.issues])
  all_goals decide +kernel

theorem witness_CornerstoneCommandsAndMeters_a :
    (∃ (s : State) (r : Req),
      let taken := s.takeSet s.staged;
      s.takes r R.CS_CMD ∧ s.csBlocked = false ∧ s.csOn = true ∧ taken.csSetOk = false) ∧
    (∃ (s : State) (r : Req), s.takes r R.CS_CMD ∧ s.csBlocked = true ∧ r = .host) ∧
    (∃ (s : State) (r : Req),
      let taken := s.takeSet s.staged;
      let untested := (taken.csInputs.any fun i => s.testing == some (1, (taken.csPlace i).1)) = false;
      s.takes r R.CS_CMD ∧ s.csBlocked = false ∧ s.csOn = true ∧ taken.csSetOk = true ∧ ¬ untested) ∧
    (∃ (s : State) (r : Req) (vh : BitVec 16),
      let taken := s.takeSet s.staged;
      let works := s.csStop = false ∧ (s.nvCheck 3 64 vh.toNat).2 = true;
      let untested := (taken.csInputs.any fun i => s.testing == some (1, (taken.csPlace i).1)) = false;
      s.takes r R.CS_CMD ∧ s.csBlocked = false ∧ s.csOn = true ∧ taken.csSetOk = true ∧ untested ∧ s.nvBusy = false ∧ works) ∧
    (∃ (s : State) (r : Req),
      let taken := s.takeSet s.staged;
      let untested := (taken.csInputs.any fun i => s.testing == some (1, (taken.csPlace i).1)) = false;
      s.takes r R.CS_CMD ∧ s.csBlocked = false ∧ s.csOn = true ∧ taken.csSetOk = true ∧ untested ∧ s.nvBusy = false ∧ s.csStop = true) ∧
    (∃ (s : State) (r : Req) (vh : BitVec 16),
      let taken := s.takeSet s.staged;
      let untested := (taken.csInputs.any fun i => s.testing == some (1, (taken.csPlace i).1)) = false;
      s.takes r R.CS_CMD ∧ s.csBlocked = false ∧ s.csOn = true ∧ taken.csSetOk = true ∧ untested ∧ s.nvBusy = false ∧ s.csStop = false
        ∧ (s.nvCheck 3 64 vh.toNat).2 = false) ∧
    (∃ (s : State) (b : Batch), s.alive = true ∧ s.mode = 0 ∧ s.nv = some b ∧ b.writer = 5 ∧ s.owed = none) ∧
    (∃ (s : State) (k : Nat) (ws : List Word) (b : Batch) (clear : Bool), s.alive = true ∧ s.mode ≠ 0 ∧ s.nv = some b ∧ b.writer = 5
      ∧ s.owed = none ∧ s.csPend = some (.set ws clear k)) ∧
    (∃ (s : State) (b : Batch) (copy : Bool), s.alive = true ∧ s.mode ≠ 0 ∧ s.nv = some b ∧ b.writer = 5 ∧ s.owed = none ∧ s.csPend =
      some (.firmware copy)) ∧
    (∃ (s : State) (r : Req),
      let taken := s.takeSet s.staged;
      let untested := (taken.csInputs.any fun i => s.testing == some (1, (taken.csPlace i).1)) = false;
      s.takes r R.CS_CMD ∧ s.csBlocked = false ∧ s.csOn = true ∧ taken.csSetOk = true ∧ untested ∧ s.nvBusy = true) ∧
    (∃ (s : State) (r : Req), s.takes r R.CS_CMD ∧ s.csOn = true) ∧
    (∃ (s : State) (r : Req), s.takes r R.CS_CMD ∧ s.csOn = false) ∧
    (∃ (s : State) (r : Req), s.takes r R.CS_CMD ∧ s.b F.CS_STAT_SEALED = true ∧ r = .host) ∧
    (∃ (s : State) (r : Req) (arg : BitVec 16) (vh : BitVec 16), s.takes r R.CS_CMD ∧ s.b F.CS_STAT_SEALED = false ∧ s.csOn = true ∧
      arg.toNat < 48 ∧ s.nvBusy = false ∧ s.csStop = false ∧ (s.nvCheck 5 64 vh.toNat).2 = true) := by
  refine ⟨⟨tst 2 [], .host, ?_⟩,
    ⟨tst 2 [(F.CS_STAT_SEALED, 1)], .host, ?_⟩,
    ⟨({ (((tst 2 [])).setW (R.CSP_IVL + 0x400) 60).setW (R.CSI_CH 0 + 0x400) 0x80000000 with kilnTest := some (1, 0) } : State),
      .host, ?_⟩,
    ⟨(((tst 2 [])).setW (R.CSP_IVL + 0x400) 60).setW (R.OPT_CUR 8) 0xFFFF, .host, 0xFFFF, ?_⟩,
    ⟨({ (((tst 2 [])).setW (R.CSP_IVL + 0x400) 60) with csStop := true } : State), .host, ?_⟩,
    ⟨((tst 2 [])).setW (R.CSP_IVL + 0x400) 60, .host, 0, ?_⟩,
    ⟨({ tst 0 [] with nv := some ⟨5, 0, []⟩ } : State), ⟨5, 0, []⟩, ?_⟩,
    ⟨({ tst 2 [] with nv := some ⟨5, 0, []⟩, csPend := some (.set [] false 0) } : State), 0, [], ⟨5, 0, []⟩, false, ?_⟩,
    ⟨({ tst 2 [] with nv := some ⟨5, 0, []⟩, csPend := some (.firmware false) } : State), ⟨5, 0, []⟩, false, ?_⟩,
    ⟨{ (((tst 2 [])).setW (R.CSP_IVL + 0x400) 60) with nv := some ⟨0, 0, []⟩ }, .host, ?_⟩,
    ⟨tst 2 [], .host, ?_⟩,
    ⟨tst 2 [(F.PWR_STAT_CST, 0)], .host, ?_⟩,
    ⟨tst 2 [(F.CS_STAT_SEALED, 1)], .host, ?_⟩,
    ⟨((tst 2 [(F.CS_STAT_SEALED, 0)])).setW (R.OPT_CUR 8) 0xFFFF, .host, 0, 0xFFFF, ?_⟩⟩
  all_goals (try dsimp only [State.takes, State.issues])
  all_goals decide +kernel

theorem witness_CornerstoneCommandsAndMeters_b :
    (∃ (s : State) (r : Req) (arg : BitVec 16), s.takes r R.CS_CMD ∧ s.csBlocked = false ∧ s.csOn = true ∧ (arg.toNat = 0 ∨ 48 <
      arg.toNat)) ∧
    (∃ (s : State) (r : Req) (arg : BitVec 16),
      let other := !s.b F.CS_STAT_FW_COPY;
      s.takes r R.CS_CMD ∧ s.csBlocked = false ∧ s.csOn = true ∧ arg.toNat ≠ 0 ∧ arg.toNat ≤ 48 ∧ sha256 (s.nvBytes (nvFw other) (4096
        * arg.toNat)) ≠ s.fwDig) ∧
    (∃ (s : State) (r : Req) (arg : BitVec 16) (vh : BitVec 16),
      let other := !s.b F.CS_STAT_FW_COPY;
      let works := s.csStop = false ∧ (s.nvCheck 3 64 vh.toNat).2 = true;
      s.takes r R.CS_CMD ∧ s.csBlocked = false ∧ s.csOn = true ∧ arg.toNat ≠ 0 ∧ arg.toNat ≤ 48 ∧ sha256 (s.nvBytes (nvFw other) (4096
        * arg.toNat)) = s.fwDig ∧ s.nvBusy = false ∧ works) ∧
    (∃ (s : State) (j : Fin 16) (edge : Nat) (tau : Nat) (t : Nat),
      let runs := s.meterRuns j = true ∧ edge % (s.f (F.TILE_CTL_RDIV (s.csPlace (s.f (F.CSM_CFG_VIN j))).1) * s.mdiv j) = 0;
      let u := (s.reach tau).closeUpTo j tau;
      s.alive = true ∧ runs ∧ (u.meter j).start = some t ∧ (((s.meterInputs j).any fun i => !u.b (F.TILE_STAT_READY (u.csPlace i).1)) =
        false) ∧ (((s.meterInputs j).any fun i => u.b (F.CH_STAT_FAILED (u.csPlace i).1 (u.csPlace i).2)) = false)) ∧
    (∃ (s : State) (j : Fin 16) (t : Nat),
      let x := s.meter j;
      let bound := s.boundaryAfter t;
      s.alive = true ∧ x.start = some t ∧ s.meterRuns j = true ∧ bound ≤ s.st) ∧
    (∃ (s : State) (j : Fin 16),
      let x := s.meter j;
      s.alive = true ∧ x.start = none) ∧
    (∃ (s : State) (j : Fin 16) (k : Nat) (ws : List Word) (more : List (List Word)),
      let x := s.meter j;
      s.alive = true ∧ s.csOn = true ∧ s.carrier j = some k ∧ x.buf = ws :: more) ∧
    (∃ (s : State), s.csRuns = true ∧ s.b F.CS_STAT_SEALED = true) ∧
    (∃ (s : State), s.csRuns = true ∧ s.b F.CS_STAT_SEALED = false) ∧
    (∃ (s : State), s.csRuns = false) ∧
    (∃ (s : State), s.csRuns = true ∧ s.csOn = true ∧ s.b F.CS_STAT_ID_BUSY = true) ∧
    (∃ (s : State), s.csOn = true) ∧
    (∃ (s : State), s.csOn = false ∧ s.csRuns = true) ∧
    (∃ (s : State), s.csOn = false ∧ s.csRuns = false) := by
  refine ⟨⟨tst 2 [], .host, 0, ?_⟩,
    ⟨tst 2 [], .host, 1, by
    dsimp only [State.takes]
    and_intros
    all_goals first | decide +kernel | exact fun e => (by decide +kernel : blankSha ≠ (tst 2 []).fwDig) ((sha_of_blank (by decide +kernel) (by decide +kernel)).symm.trans e)⟩,
    ⟨(((tst 2 [])).setWs (R.CS_FWDIG 0) blankDig).setW (R.OPT_CUR 8) 0xFFFF, .host, 1, 0xFFFF, by
    dsimp only [State.takes]
    and_intros
    all_goals first | decide +kernel | exact (sha_of_blank (by decide +kernel) (by decide +kernel)).trans (by decide +kernel)⟩,
    ⟨((tst 2 [(F.CSM_CFG_EN 0, 1), (F.TILE_STAT_READY 0, 1)])).setMeter 0 { Meter.init with start := some 0 }, 0, 0, 0, 0, ?_⟩,
    ⟨({ ((tst 2 [(F.CSM_CFG_EN 0, 1)])).setMeter 0 { Meter.init with start := some 0 } with st := secU } : State), 0, 0, ?_⟩,
    ⟨tst 2 [], 0, ?_⟩,
    ⟨((tst 3 [(F.CSM_OUT_EN 0, 1), (F.SE_CTL_VALID 0, 1), (F.SE_CTL_ACT 0, 1)])).setMeter 0 { Meter.init with buf := [[]] }, 0, 0,
      [], [], ?_⟩,
    ⟨tst 2 [(F.CS_STAT_SEALED, 1)], ?_⟩,
    ⟨tst 2 [(F.CS_STAT_SEALED, 0)], ?_⟩,
    ⟨tst 0 [], ?_⟩,
    ⟨tst 2 [(F.CS_STAT_ID_BUSY, 1)], ?_⟩,
    ⟨tst 2 [], ?_⟩,
    ⟨tst 2 [(F.PWR_STAT_CST, 0)], ?_⟩,
    ⟨(tst 0 [(F.PWR_STAT_CST, 0)]), ?_⟩⟩
  all_goals (try dsimp only [State.takes, State.issues])
  all_goals decide +kernel

theorem witness_HousekeepingAndPins_a :
    (∃ (s : State) (k : Fin 28), s.alive = true ∧ s.hkRuns = true ∧ k.val = s.hk.next ∧ k.val < 12) ∧
    (∃ (s : State) (k : Fin 28), s.alive = true ∧ s.hkRuns = true ∧ k.val = s.hk.next ∧ 12 ≤ k.val) ∧
    (∃ (s : State) (k : Fin 28), s.alive = true ∧ k.val ≠ s.hk.next) ∧
    (∃ (s : State) (r : Req) (v : Word), s.takes r R.HK_TRIG ∧ wbit v 0 = true ∧ s.b F.HK_CTL_EN = true ∧ s.f F.HK_CTL_TMODE ≠ 2) ∧
    (∃ (s : State) (r : Req) (v : Word), s.takes r R.HK_TRIG ∧ wbit v 0 = true ∧ s.b F.HK_CTL_EN = false) ∧
    (∃ (s : State), s.alive = true ∧ s.hkRuns = true ∧ s.b F.HK_CTL_EN = true ∧ s.f F.HK_CTL_TMODE = 1) ∧
    (∃ (s : State), s.alive = true ∧ s.f F.HK_CTL_TMODE ≠ 1) ∧
    (∃ (s : State) (sum : BitVec 19),
      let n := s.f F.HK_STAT_ENTRY;
      let res := s.hkResult n (min (divEven (16 * sum.toNat) (2 ^ s.f (F.HK_SEQ_AVG n))).toNat 65535);
      s.alive = true ∧ s.hkRuns = true ∧ s.b F.HK_CTL_EN = true ∧ s.b F.HK_STAT_RUN = true ∧ s.hk.done = false ∧ s.hk.ending = false ∧
        n < s.f F.HK_CTL_LEN ∧ res.f F.HK_CTL_LEN = s.f F.HK_CTL_LEN) ∧
    (∃ (s : State),
      let n := s.f F.HK_STAT_ENTRY;
      s.alive = true ∧ s.hkRuns = true ∧ s.b F.HK_CTL_EN = true ∧ s.b F.HK_STAT_RUN = true ∧ s.hk.done = false ∧ s.hk.ending = false ∧
        n = s.f F.HK_CTL_LEN) ∧
    (∃ (s : State), s.alive = true ∧ s.hk.ending = true) ∧
    (∃ (s : State),
      let idle := ({ s.setF F.HK_STAT_RUN 0 with hk := { s.hk with done := false, ending := false } } : State);
      s.alive = true ∧ s.b F.HK_STAT_RUN = true ∧ s.hk.ending = true ∧ idle.b F.HK_CTL_EN = false) ∧
    (∃ (s : State),
      let idle := ({ s.setF F.HK_STAT_RUN 0 with hk := { s.hk with done := false, ending := false } } : State);
      s.alive = true ∧ s.b F.HK_STAT_RUN = true ∧ s.hk.done = true ∧ idle.b F.HK_CTL_EN = true ∧ idle.b F.HK_STAT_PEND = true) := by
  refine ⟨⟨tst 2 [], 0, ?_⟩,
    ⟨({ (tst 2 []) with hk := { Hk.init with next := 12 } } : State), 12, ?_⟩,
    ⟨tst 2 [], 1, ?_⟩,
    ⟨tst 2 [(F.HK_CTL_EN, 1), (F.HK_CTL_TMODE, 0)], .host, 0x1, ?_⟩,
    ⟨tst 2 [(F.HK_CTL_EN, 0)], .host, 0x1, ?_⟩,
    ⟨tst 2 [(F.HK_CTL_EN, 1), (F.HK_CTL_TMODE, 1)], ?_⟩,
    ⟨tst 2 [(F.HK_CTL_TMODE, 0)], ?_⟩,
    ⟨tst 2 [(F.HK_CTL_EN, 1), (F.HK_STAT_RUN, 1), (F.HK_CTL_LEN, 1)], 0, ?_⟩,
    ⟨tst 2 [(F.HK_CTL_EN, 1), (F.HK_STAT_RUN, 1)], ?_⟩,
    ⟨({ (tst 2 []) with hk := { Hk.init with ending := true } } : State), ?_⟩,
    ⟨({ (tst 2 [(F.HK_STAT_RUN, 1)]) with hk := { Hk.init with ending := true } } : State), ?_⟩,
    ⟨({ (tst 2 [(F.HK_STAT_RUN, 1), (F.HK_STAT_PEND, 1), (F.HK_CTL_EN, 1)]) with hk := { Hk.init with done := true } } : State), ?_⟩⟩
  all_goals (try dsimp only [State.takes, State.issues])
  all_goals decide +kernel

theorem witness_HousekeepingAndPins_b :
    (∃ (s : State),
      let idle := ({ s.setF F.HK_STAT_RUN 0 with hk := { s.hk with done := false, ending := false } } : State);
      s.alive = true ∧ s.b F.HK_STAT_RUN = true ∧ s.hk.done = true ∧ idle.b F.HK_CTL_EN = true ∧ idle.b F.HK_STAT_PEND = false ∧ idle.f
        F.HK_CTL_TMODE ≠ 2) ∧
    (∃ (s : State) (r : Req) (v : Word), s.takes r R.HK_CTL ∧ (bits v.toNat 31 16 = 0 ∨ bits v.toNat 5 4 = 3)) ∧
    (∃ (s : State) (r : Req) (v : Word), s.takes r R.HK_CTL ∧ bits v.toNat 31 16 ≠ 0 ∧ bits v.toNat 5 4 ≠ 3 ∧ s.b F.HK_CTL_EN = true
      ∧ v &&& 0xFFFF1F30 ≠ s.w R.HK_CTL &&& 0xFFFF1F30) ∧
    (∃ (s : State) (r : Req) (v : Word), s.takes r R.HK_CTL ∧ bits v.toNat 31 16 ≠ 0 ∧ bits v.toNat 5 4 < 2 ∧ s.b F.HK_CTL_EN = false
      ∧ wbit v 0 = true) ∧
    (∃ (s : State) (r : Req) (v : Word), s.takes r R.HK_CTL ∧ bits v.toNat 31 16 ≠ 0 ∧ bits v.toNat 5 4 = 2 ∧ s.b F.HK_CTL_EN = false
      ∧ s.b F.HK_STAT_RUN = false ∧ wbit v 0 = true) ∧
    (∃ (s : State) (r : Req) (v : Word), s.takes r R.HK_CTL ∧ bits v.toNat 31 16 ≠ 0 ∧ bits v.toNat 5 4 ≠ 3 ∧ (s.b F.HK_CTL_EN =
      false ∨ v &&& 0xFFFF1F30 = s.w R.HK_CTL &&& 0xFFFF1F30) ∧ wbit v 0 = false) ∧
    (∃ (s : State) (r : Req), s.takes r R.ALERT_CTL) ∧
    (∃ (s : State) (r : Req) (i : Fin 4) (v : Word),
      let m := bits v.toNat 9 8;
      s.takes r (R.TRIGIO_CTL i) ∧ m = 3) ∧
    (∃ (s : State) (r : Req) (i : Fin 4) (v : Word),
      let m := bits v.toNat 9 8;
      s.takes r (R.TRIGIO_CTL i) ∧ m ≠ 3 ∧ m ≠ 0 ∧ s.live = false) ∧
    (∃ (s : State) (r : Req) (i : Fin 4) (v : Word),
      let m := bits v.toNat 9 8;
      s.takes r (R.TRIGIO_CTL i) ∧ m = 2 ∧ s.live = true) ∧
    (∃ (s : State) (r : Req) (i : Fin 4) (v : Word),
      let m := bits v.toNat 9 8;
      s.takes r (R.TRIGIO_CTL i) ∧ m = 0) := by
  refine ⟨⟨({ (tst 2 [(F.HK_STAT_RUN, 1), (F.HK_CTL_EN, 1)]) with hk := { Hk.init with done := true } } : State), ?_⟩,
    ⟨tst 2 [], .host, 0x0, ?_⟩,
    ⟨tst 2 [(F.HK_CTL_EN, 1)], .host, 0x10000, ?_⟩,
    ⟨tst 2 [(F.HK_CTL_EN, 0)], .host, 0x10001, ?_⟩,
    ⟨tst 2 [(F.HK_CTL_EN, 0), (F.HK_STAT_RUN, 0)], .host, 0x10021, ?_⟩,
    ⟨tst 2 [(F.HK_CTL_EN, 0)], .host, 0x10000, ?_⟩,
    ⟨tst 2 [], .host, ?_⟩,
    ⟨tst 2 [], .host, 0, 0x300, ?_⟩,
    ⟨tst 5 [], .host, 0, 0x100, ?_⟩,
    ⟨tst 2 [], .host, 0, 0x200, ?_⟩,
    ⟨tst 2 [], .host, 0, 0x0, ?_⟩⟩
  all_goals (try dsimp only [State.takes, State.issues])
  all_goals decide +kernel

theorem witness_ResetSourcesAndSupplies_a :
    (∃ (s : State), s.aon = true) ∧
    (∃ (s : State) (x : Rails) (pg : Nat) (brown : Nat), railMonitor x (s.f F.PWR_STAT_PG) s.brown = (pg, brown)) ∧
    (∃ (s : State) (brown : Nat),
      let fell := (range' 0 6).any fun k => bit brown k && !bit s.brown k;
      s.aon = true ∧ s.scan = false ∧ s.mode ≠ 0 ∧ fell = true) ∧
    (∃ (s : State) (pg : Nat) (brown : Nat),
      let seen := ({ s with pgood := s.pgood && pg == 0x3F, brown := brown } : State).setF F.PWR_STAT_PG pg;
      let fell := (range' 0 6).any fun k => bit brown k && !bit s.brown k;
      (fell = false ∨ s.mode = 0) ∧ (seen.pgood = true ∨ seen.rel ≠ 2)) ∧
    (∃ (s : State) (pg : Nat) (brown : Nat),
      let seen := ({ s with pgood := s.pgood && pg == 0x3F, brown := brown } : State).setF F.PWR_STAT_PG pg;
      let fell := (range' 0 6).any fun k => bit brown k && !bit s.brown k;
      (fell = false ∨ s.mode = 0) ∧ seen.pgood = false ∧ seen.rel = 2) ∧
    (∃ (s : State) (low : Nat), s.alive = true ∧ 5000 ≤ low) ∧
    (∃ (s : State) (low : Nat), s.alive = true ∧ low < 1000) ∧
    (∃ (s : State) (low : Nat), s.alive = true ∧ 1000 ≤ low ∧ low < 5000) ∧
    (∃ (s : State) (cycles : Nat),
      let period := s.wdtCycles ≤ cycles;
      s.alive = true ∧ s.live = true ∧ s.b F.WDT_CTL_EN = true ∧ s.b F.WDT_STAT_WARN = true ∧ period) ∧
    (∃ (s : State) (cycles : Nat),
      let period := s.wdtCycles ≤ cycles;
      s.alive = true ∧ s.live = true ∧ s.b F.WDT_CTL_EN = true ∧ s.b F.WDT_STAT_WARN = false ∧ period) ∧
    (∃ (s : State) (cycles : Nat),
      let period := s.wdtCycles ≤ cycles;
      s.alive = true ∧ (s.b F.WDT_CTL_EN = false ∨ ¬ period)) ∧
    (∃ (s : State) (r : Req) (v : Word), s.takes r R.WDT_KICK ∧ bits v.toNat 15 0 = 0x4B49) ∧
    (∃ (s : State) (r : Req) (v : Word), s.takes r R.WDT_KICK ∧ bits v.toNat 15 0 ≠ 0x4B49) ∧
    (∃ (s : State) (r : Req) (v : Word), s.takes r R.RST_CTL ∧ wbit v 0 = true ∧ s.notOwner r = false) ∧
    (∃ (s : State) (r : Req) (v : Word), s.takes r R.RST_CTL ∧ wbit v 0 = true ∧ s.notOwner r = true) := by
  refine ⟨⟨tst 2 [], ?_⟩,
    ⟨tst 2 [], ⟨0, 0, 0, 0, 0, 0⟩, (railMonitor ⟨0, 0, 0, 0, 0, 0⟩ ((tst 2 []).f F.PWR_STAT_PG) (tst 2 []).brown).1, (railMonitor ⟨0, 0, 0, 0, 0, 0⟩ ((tst 2 []).f F.PWR_STAT_PG) (tst 2 []).brown).2, by
    rfl⟩,
    ⟨({ (tst 2 []) with brown := 0 } : State), 1, ?_⟩,
    ⟨tst 2 [], 0, 0, ?_⟩,
    ⟨({ tst 2 [] with rel := 2 } : State), 0, 0, ?_⟩,
    ⟨tst 2 [], 5000, ?_⟩,
    ⟨tst 2 [], 0, ?_⟩,
    ⟨tst 2 [], 1000, ?_⟩,
    ⟨tst 2 [(F.WDT_CTL_EN, 1), (F.WDT_STAT_WARN, 1)], 0, ?_⟩,
    ⟨tst 2 [(F.WDT_CTL_EN, 1), (F.WDT_STAT_WARN, 0)], 0, ?_⟩,
    ⟨tst 2 [(F.WDT_CTL_EN, 0)], 0, ?_⟩,
    ⟨tst 2 [], .host, 0x4b49, ?_⟩,
    ⟨tst 2 [], .host, 0x0, ?_⟩,
    ⟨tst 2 [], .host, 0x1, ?_⟩,
    ⟨tst 2 [(F.MODE_OWNER_OWNER, 2)], .host, 0x1, ?_⟩⟩
  all_goals (try dsimp only [State.takes, State.issues])
  all_goals decide +kernel

theorem witness_ResetSourcesAndSupplies_b :
    (∃ (s : State) (r : Req) (v : Word), s.takes r R.RST_CTL ∧ wbit v 0 = false) ∧
    (∃ (s : State), s.aon = true ∧ s.rstLow = false) ∧
    (∃ (s : State), s.alive = true ∧ s.mode ≠ 0) ∧
    (∃ (s : State) (us : Nat) (who : Accessor),
      let stuck := s.f F.FAB_TMO_V ≤ us;
      s.alive = true ∧ stuck ∧ (s.mode ≠ 0 ∨ who = .manager) ∧ s.b F.RST_CTL_LOCKUP_ACT = false) ∧
    (∃ (s : State) (who : Accessor), s.alive = true ∧ s.mode = 0 ∧ who ≠ .manager) ∧
    (∃ (s : State) (us : Nat), s.alive = true ∧ us < s.f F.FAB_TMO_V) ∧
    (∃ (s : State) (us : Nat),
      let stuck := s.f F.FAB_TMO_V ≤ us;
      s.alive = true ∧ stuck ∧ s.mode ≠ 0 ∧ s.b F.RST_CTL_LOCKUP_ACT = true) ∧
    (∃ (s : State) (us : Nat) (h : Reqd) (hs : List Reqd) (ps : Fin 16),
      let stuck := s.f F.FAB_TMO_V ≤ us;
      let fired := (s.fin .busy).raiseBit R.RPC_EVT 4 0x0105 16 0;
      s.alive = true ∧ stuck ∧ s.mode ≠ 0 ∧ s.b F.RST_CTL_LOCKUP_ACT = true ∧ (fired.port ps).reqs = h :: hs ∧ h.tagged = true) ∧
    (∃ (s : State) (us : Nat) (cmd : Nat) (wa : Nat) (data : Nat),
      let stuck := s.f F.FAB_TMO_V ≤ us;
      let fired := (s.fin .busy).raiseBit R.RPC_EVT 4 0x0105 16 0;
      s.alive = true ∧ stuck ∧ s.b F.RST_CTL_LOCKUP_ACT = true ∧ fired.mgp.pend = some (cmd, wa, data)) ∧
    (∃ (s : State),
      let good := ({ s.rails 0x3F 0 with pgood := true } : State);
      good.rel = 1) ∧
    (∃ (s : State),
      let good := ({ s.rails 0x3F 0 with pgood := true } : State);
      good.rel ≠ 1) ∧
    (∃ (s : State),
      let on := ({ s with aon := true, vbat := true, rel := if s.mainGood then 2 else 1 } : State);
      s.aon = false ∧ on.csOn = false) ∧
    (∃ (s : State),
      let on := ({ s with aon := true, vbat := true, rel := if s.mainGood then 2 else 1 } : State);
      s.aon = false ∧ on.csOn = true) ∧
    (∃ (s : State), s.aon = false) := by
  refine ⟨⟨tst 2 [], .host, 0x0, ?_⟩,
    ⟨tst 2 [], ?_⟩,
    ⟨tst 2 [], ?_⟩,
    ⟨tst 2 [(F.RST_CTL_LOCKUP_ACT, 0), (F.RST_CTL_LOCKUP_ACT, 0)], 65535, .manager, ?_⟩,
    ⟨tst 0 [], .other, ?_⟩,
    ⟨tst 2 [], 0, ?_⟩,
    ⟨tst 2 [(F.RST_CTL_LOCKUP_ACT, 1)], 65535, ?_⟩,
    ⟨((tst 2 [(F.RST_CTL_LOCKUP_ACT, 1)])).setPort 0 { Port.init with reqs := [⟨1, 0, 1, true⟩] }, 65535, ⟨1, 0, 1, true⟩, [], 0, ?_⟩,
    ⟨({ (tst 2 [(F.RST_CTL_LOCKUP_ACT, 1)]) with mgp := { Mgp.init with pend := some (0, 0, 0) } } : State), 65535, 0, 0, 0, ?_⟩,
    ⟨tst 2 [], ?_⟩,
    ⟨{ tst 0 [] with rel := 0 }, ?_⟩,
    ⟨{ (tst 2 []).setF F.PWR_STAT_CST 0 with aon := false }, by
    exact ⟨rfl, by decide +kernel⟩⟩,
    ⟨{ tst 2 [(F.PWR_STAT_CST, 1)] with aon := false }, by
    exact ⟨rfl, by decide +kernel⟩⟩,
    ⟨{ tst 2 [] with aon := false }, by
    rfl⟩⟩
  all_goals (try dsimp only [State.takes, State.issues])
  all_goals decide +kernel

theorem witness_OptionsNonVolatileAndRelease_a :
    (∃ (s : State) (b : Batch), s.alive = true ∧ s.nv = some b ∧ b.writer < 4 ∧ s.owed = none ∧ s.enDue = none) ∧
    (∃ (s : State) (b : Batch) (k : Nat), s.alive = true ∧ s.nv = some b ∧ b.writer < 4 ∧ s.owed = some k) ∧
    (∃ (s : State) (b : Batch), s.alive = true ∧ s.nv = some b ∧ b.writer = 7 ∧ s.owed = none ∧ s.enDue = none) ∧
    (∃ (s : State), s.alive = true ∧ s.nv = none) ∧
    (∃ (s : State), s.alive = true ∧ s.rel = 2) ∧
    (∃ (s : State), s.alive = true ∧ s.rel ≠ 2) ∧
    (∃ (s : State) (r : Req), s.takes r R.OPT_CMD ∧ s.nvBusy = false) ∧
    (∃ (s : State) (r : Req), s.takes r R.OPT_CMD ∧ s.nvBusy = true) ∧
    (∃ (s : State) (r : Req) (v : Word) (vh : BitVec 16),
      let ws := recSealed ((range' 0 31).map fun i => (s.w (R.OPT_STAGE i)).toNat);
      let i := bits v.toNat 7 0;
      let chk0 := s.nvCheck 0 2 vh.toNat;
      s.takes r R.OPT_CMD ∧ s.nvMode = true ∧ recFields ws = true ∧ s.nvBusy = false ∧ chk0.2 = true) ∧
    (∃ (s : State) (r : Req) (v : Word) (vh : BitVec 16),
      let ws := recSealed ((range' 0 31).map fun i => (s.w (R.OPT_STAGE i)).toNat);
      let i := bits v.toNat 7 0;
      let chk0 := s.nvCheck 0 2 vh.toNat;
      s.takes r R.OPT_CMD ∧ s.nvMode = true ∧ recFields ws = true ∧ s.nvBusy = false ∧ chk0.2 = false) ∧
    (∃ (s : State) (r : Req) (v : Word),
      let ws := recSealed ((range' 0 31).map fun i => (s.w (R.OPT_STAGE i)).toNat);
      let i := bits v.toNat 7 0;
      s.takes r R.OPT_CMD ∧ s.nvMode = true ∧ recFields ws = false) ∧
    (∃ (s : State) (r : Req), s.takes r R.OPT_CMD ∧ s.nvMode = false) ∧
    (∃ (s : State) (r : Req) (v : Word) (vh : BitVec 16),
      let target := bits v.toNat 29 28;
      let n := bits v.toNat 25 24 + 1;
      let row := bits v.toNat 13 0;
      let chk1 := s.nvCheck 1 n vh.toNat;
      s.takes r R.NV_CMD ∧ s.nvMode = true ∧ 2 ≤ target ∧ row + n ≤ 16384 ∧ s.nvBusy = false ∧ chk1.2 = true) ∧
    (∃ (s : State) (r : Req) (v : Word),
      let target := bits v.toNat 29 28;
      s.takes r R.NV_CMD ∧ s.nvMode = true ∧ target < 2) ∧
    (∃ (s : State) (r : Req) (v : Word),
      let target := bits v.toNat 29 28;
      let n := bits v.toNat 25 24 + 1;
      let row := bits v.toNat 13 0;
      s.takes r R.NV_CMD ∧ s.nvMode = true ∧ 2 ≤ target ∧ 16384 < row + n) ∧
    (∃ (s : State), s.alive = true ∧ s.rel = 3) ∧
    (∃ (s : State), s.alive = true ∧ s.rel = 4 ∧ s.b F.SMPL_CTL_SRC = true) := by
  refine ⟨⟨({ tst 2 [] with nv := some ⟨0, 0, []⟩ } : State), ⟨0, 0, []⟩, ?_⟩,
    ⟨({ tst 2 [] with nv := some ⟨0, 0, []⟩, owed := some 16 } : State), ⟨0, 0, []⟩, 16, ?_⟩,
    ⟨({ tst 2 [] with nv := some ⟨7, 0, []⟩ } : State), ⟨7, 0, []⟩, ?_⟩,
    ⟨tst 2 [], ?_⟩,
    ⟨({ tst 2 [] with rel := 2 } : State), ?_⟩,
    ⟨tst 2 [], ?_⟩,
    ⟨tst 2 [], .host, ?_⟩,
    ⟨({ tst 2 [] with nv := some ⟨0, 0, []⟩ } : State), .host, ?_⟩,
    ⟨(((tst 2 [])).setWs (R.OPT_STAGE 0) [0x564F5054, 0x10000, 0, 0, 0x100, 0, 0, 0, 0, 0x10000, 10]).setW (R.OPT_CUR 8) 0xFFFF,
      .host, 0, 0xFFFF, ?_⟩,
    ⟨((tst 2 [])).setWs (R.OPT_STAGE 0) [0x564F5054, 0x10000, 0, 0, 0x100, 0, 0, 0, 0, 0x10000, 10], .host, 0, 0, ?_⟩,
    ⟨tst 2 [], .host, 0, ?_⟩,
    ⟨tst 0 [], .manager, ?_⟩,
    ⟨((tst 2 [])).setW (R.OPT_CUR 8) 0xFFFF, .host, 0x20000000, 0xFFFF, ?_⟩,
    ⟨tst 2 [], .host, 0x0, ?_⟩,
    ⟨tst 2 [], .host, 0x23003FFF, ?_⟩,
    ⟨({ tst 2 [] with rel := 3 } : State), ?_⟩,
    ⟨{ tst 2 [(F.SMPL_CTL_SRC, 1)] with rel := 4 }, ?_⟩⟩
  all_goals (try dsimp only [State.takes, State.issues])
  all_goals decide +kernel

theorem witness_OptionsNonVolatileAndRelease_b :
    (∃ (s : State), s.alive = true ∧ s.rel = 4 ∧ s.b F.SMPL_CTL_SRC = false) ∧
    (∃ (s : State), s.alive = true ∧ s.rel = 5) ∧
    (∃ (s : State) (vh : BitVec 16), s.alive = true ∧ s.rel = 6 ∧ s.nvBusy = false ∧ s.began (s.boot vh.toNat) = false) ∧
    (∃ (s : State) (vh : BitVec 16), s.alive = true ∧ s.rel = 6 ∧ s.nvBusy = false ∧ s.began (s.boot vh.toNat) = true) ∧
    (∃ (s : State), s.alive = true ∧ s.rel = 6 ∧ s.nvBusy = true) ∧
    (∃ (s : State), s.alive = true ∧ s.rel = 7 ∧ s.nvBusy = false ∧ s.f F.KILN_STAT_STATE ≠ 2) ∧
    (∃ (s : State), kilnValid s.kilnRecord = false) ∧
    (∃ (s : State) (vh : BitVec 16), kilnValid s.kilnRecord = true ∧ (s.nvCheck 2 1 vh.toNat).2 = true) ∧
    (∃ (s : State) (vh : BitVec 16), kilnValid s.kilnRecord = true ∧ (s.nvCheck 2 1 vh.toNat).2 = false) ∧
    (∃ (s : State) (b : Batch),
      let done := ({ s.writeRows b b.rows.length with nv := none } : State);
      s.alive = true ∧ s.nv = some b ∧ b.writer = 4 ∧ s.owed = none ∧ done.mode = 1 ∧ s.rel = 7) ∧
    (∃ (s : State), s.alive = true ∧ s.rel = 8) ∧
    (∃ (s : State), s.alive = true ∧ s.rel = 9) ∧
    (∃ (s : State) (r : Req) (v : Word),
      let kind := bits v.toNat 27 24;
      s.takes r R.BLK_RST ∧ kind ≠ 3 ∧ 8 < kind) ∧
    (∃ (s : State) (r : Req) (v : Word) (k : Nat),
      let kind := bits v.toNat 27 24;
      let i := bits v.toNat 7 0;
      s.takes r R.BLK_RST ∧ kind ≠ 3 ∧ kind ≤ 8 ∧ kindCount kind = some k ∧ k ≤ i) ∧
    (∃ (s : State) (r : Req) (v : Word) (k : Nat),
      let kind := bits v.toNat 27 24;
      let i := bits v.toNat 7 0;
      s.takes r R.BLK_RST ∧ kind ≠ 3 ∧ kind ≤ 8 ∧ kindCount kind = some k ∧ i < k ∧ s.testing = none ∧ s.blockIdle kind i = false) ∧
    (∃ (s : State) (r : Req) (v : Word) (k : Nat),
      let kind := bits v.toNat 27 24;
      let i := bits v.toNat 7 0;
      s.takes r R.BLK_RST ∧ kind ≠ 3 ∧ kind ≤ 8 ∧ kindCount kind = some k ∧ i < k ∧ s.testing = some (kind, i)) ∧
    (∃ (s : State) (r : Req) (v : Word) (k : Nat),
      let kind := bits v.toNat 27 24;
      let i := bits v.toNat 7 0;
      s.takes r R.BLK_RST ∧ kind ≠ 3 ∧ kind ≤ 8 ∧ kindCount kind = some k ∧ i < k ∧ s.testing = none ∧ s.blockIdle kind i = true) := by
  refine ⟨⟨{ tst 2 [(F.SMPL_CTL_SRC, 0)] with rel := 4 }, ?_⟩,
    ⟨({ tst 2 [] with rel := 5 } : State), ?_⟩,
    ⟨({ tst 2 [] with rel := 6 } : State), 0, ?_⟩,
    ⟨bootable, 0xFFFF, ?_⟩,
    ⟨({ tst 1 [] with rel := 6, nv := some ⟨0, 0, []⟩ } : State), ?_⟩,
    ⟨({ tst 2 [] with rel := 7 } : State), ?_⟩,
    ⟨tst 2 [], ?_⟩,
    ⟨kilnKept, 0xFFFF, by
    exact ⟨kilnKept_valid, by decide +kernel⟩⟩,
    ⟨kilnKept, 0, by
    exact ⟨kilnKept_valid, by decide +kernel⟩⟩,
    ⟨({ tst 1 [] with rel := 7, nv := some ⟨4, 0, []⟩ } : State), ⟨4, 0, []⟩, ?_⟩,
    ⟨({ tst 2 [] with rel := 8 } : State), ?_⟩,
    ⟨({ tst 2 [] with rel := 9 } : State), ?_⟩,
    ⟨tst 2 [], .host, 0x09000000, ?_⟩,
    ⟨tst 2 [], .host, 0x01000018, 24, ?_⟩,
    ⟨tst 2 [(F.TU_CTL_EN 0, 1)], .host, 0x08000000, 64, ?_⟩,
    ⟨({ (tst 2 []) with kilnTest := some (1, 0) } : State), .host, 0x01000000, 24, ?_⟩,
    ⟨tst 2 [], .host, 0x08000000, 64, ?_⟩⟩
  all_goals (try dsimp only [State.takes, State.issues])
  all_goals decide +kernel

theorem witness_ModesKilnLogAndTap_a :
    (∃ (s : State) (r : Req),
      let owns := s.takes r R.MODE ∧ s.notOwner r = false;
      owns ∧ s.mode = 2) ∧
    (∃ (s : State) (r : Req),
      let owns := s.takes r R.MODE ∧ s.notOwner r = false;
      owns ∧ s.mode = 3) ∧
    (∃ (s : State) (r : Req),
      let owns := s.takes r R.MODE ∧ s.notOwner r = false;
      owns ∧ (s.mode = 2 ∨ s.mode = 3)) ∧
    (∃ (s : State) (r : Req),
      let owns := s.takes r R.MODE ∧ s.notOwner r = false;
      owns ∧ (s.mode = 2 ∨ s.mode = 5) ∧ s.kilnTest = none) ∧
    (∃ (s : State), s.takes .manager R.MODE ∧ s.notOwner .manager = false ∧ s.mode = 0 ∧ s.mainGood = true) ∧
    (∃ (s : State), s.takes .manager R.MODE ∧ s.notOwner .manager = false ∧ s.mode = 0 ∧ s.mainGood = false) ∧
    (∃ (s : State), s.alive = true) ∧
    (∃ (s : State) (i : Nat) (k : Nat), s.alive = true ∧ s.kilnTest = some (k, i) ∧ k ≠ 8) ∧
    (∃ (s : State), s.alive = true ∧ s.kilnTest = none ∧ s.f F.KILN_STAT_STATE = 1 ∧ s.kilnEnd = false) ∧
    (∃ (s : State), s.alive = true ∧ s.kilnTest = none ∧ s.f F.KILN_STAT_STATE = 2) ∧
    (∃ (s : State) (i : Nat), s.alive = true ∧ s.kilnTest = some (8, i)) := by
  refine ⟨⟨tst 2 [], .host, ?_⟩,
    ⟨tst 3 [], .host, ?_⟩,
    ⟨tst 2 [], .host, ?_⟩,
    ⟨tst 2 [], .host, ?_⟩,
    ⟨({ (tst 0 []) with pgood := true } : State), ?_⟩,
    ⟨tst 0 [], ?_⟩,
    ⟨tst 2 [], ?_⟩,
    ⟨({ tst 2 [] with kilnTest := some (1, 0) } : State), 0, 1, ?_⟩,
    ⟨tst 2 [(F.KILN_STAT_STATE, 1)], ?_⟩,
    ⟨tst 2 [(F.KILN_STAT_STATE, 2)], ?_⟩,
    ⟨({ tst 2 [] with kilnTest := some (8, 0) } : State), 0, ?_⟩⟩
  all_goals (try dsimp only [State.takes, State.issues])
  all_goals decide +kernel

theorem witness_ModesKilnLogAndTap_b :
    (∃ (s : State) (vh : BitVec 16), s.alive = true ∧ s.mode = 4 ∧ s.kilnEnd = true ∧ s.nvBusy = false ∧ (s.nvCheck 2 9 vh.toNat).2 =
      true) ∧
    (∃ (s : State) (vh : BitVec 16), s.alive = true ∧ s.mode = 4 ∧ s.kilnEnd = true ∧ s.nvBusy = false ∧ (s.nvCheck 2 9 vh.toNat).2 =
      false) ∧
    (∃ (s : State) (b : Batch), s.alive = true ∧ s.nv = some b ∧ b.writer = 4 ∧ s.owed = none ∧ (
      let w := ({ s.writeRows b b.rows.length with nv := none } : State).setF F.NV_STAT_BUSY 0;
      w.mode = 4 ∧ w.kilnEnd = true)) ∧
    (∃ (s : State) (r : Req) (v : Word) (k : Nat),
      let kind := bits v.toNat 27 24;
      let j := bits v.toNat 7 0;
      s.takes r R.KILN_CTL ∧ wbit v 31 = true ∧ s.live = true ∧ kindCount kind = some k ∧ j < k ∧ s.kilnTest = none ∧ kind ≠ 9 ∧ kind ≠
        1 ∧ s.blockIdle kind j = true) ∧
    (∃ (s : State) (r : Req) (v : Word), s.takes r R.KILN_CTL ∧ wbit v 31 = true ∧ s.live = false) ∧
    (∃ (s : State) (r : Req) (v : Word), s.takes r R.LOG_CTL ∧ wbit v 0 = true) ∧
    (∃ (s : State), s.alive = true ∧ s.b F.CS_STAT_SEALED = true) ∧
    (∃ (s : State), s.alive = true ∧ s.b F.CS_STAT_SEALED = false) ∧
    (∃ (s : State), s.aon = true ∧ s.rstLow = false) ∧
    (∃ (s : State),
      let tapOn := s.aon = true ∧ s.rstLow = false ∧ s.scan = false;
      tapOn) := by
  refine ⟨⟨({ tst 4 [] with kilnEnd := true } : State).setW (R.OPT_CUR 8) 0xFFFF, 0xFFFF, ?_⟩,
    ⟨{ tst 4 [] with kilnEnd := true }, 0, ?_⟩,
    ⟨{ tst 4 [] with kilnEnd := true, nv := some ⟨4, 0, []⟩ }, ⟨4, 0, []⟩, ?_⟩,
    ⟨tst 2 [], .host, 0x88000000, 64, ?_⟩,
    ⟨tst 5 [], .host, 0x80000000, ?_⟩,
    ⟨tst 2 [], .host, 0x1, ?_⟩,
    ⟨tst 2 [(F.CS_STAT_SEALED, 1)], ?_⟩,
    ⟨tst 2 [(F.CS_STAT_SEALED, 0)], ?_⟩,
    ⟨tst 2 [], ?_⟩,
    ⟨tst 2 [], ?_⟩⟩
  all_goals (try dsimp only [State.takes, State.issues])
  all_goals decide +kernel

theorem witness_EmptyQueuePassesOneSysCycle :
    (∃ s : State, s.pending = [] ∧ s.scan = true) ∧ (∃ s : State, s.pending = [] ∧ s.scan = false ∧ s.sysRunning = true) ∧
    (∃ s : State, s.pending = [] ∧ s.sysRunning = false) := by
  refine ⟨⟨{ State.reset with scan := true }, ?_⟩, ⟨{ tst 2 [(F.TIME_STAT_SEEDED, 1)] with rel := 0 }, ?_⟩, ⟨State.reset, ?_⟩⟩
  all_goals decide +kernel

theorem witness_EveryStepKeepsTheTablesCanonical :
    ∃ s t : State, s.regsWf ∧ s.memWf ∧ Tab.wf (fun _ => (0 : Word)) s.shadows = true ∧ step s = .next t :=
  ⟨State.reset, State.reset.tick, by decide, by decide, by decide, rfl⟩

theorem witness_RegisterReadsClearAndSnapshot :
    ∃ (r : Req) (a : Word) (s : State), s.alive = true ∧ s.mapStop r a.toNat false = none ∧ plainReg a.toNat ∧ s.underTest a.toNat = false := by
  refine ⟨.host, 0x40018, tst 2 [], ?_⟩
  unfold plainReg
  decide +kernel

theorem witness_BranchConditionsAndBadTargets :
    (∃ (s : State) (m : Fin 16) (ga : Fin 32), s.issues m (encG3 0x1C 0 ga 0 0) ∧ ((s.mason m).get ga).toNat % 4 ≠ 0) ∧
    (∃ (s : State) (m : Fin 16) (ga : Fin 32), s.issues m (encG3 0x1C 0 ga 0 0) ∧ ((s.mason m).get ga).toNat = 65536) ∧
    (∃ (s : State) (m : Fin 16) (gd ga : Fin 32), s.issues m (encG3 0x1D gd ga 0 0) ∧ ((s.mason m).get ga).toNat % 4 ≠ 0) ∧
    (∃ (s : State) (m : Fin 16) (gd ga : Fin 32), s.issues m (encG3 0x1D gd ga 0 0) ∧ ((s.mason m).get ga).toNat = 65536) ∧
    (∃ (s : State) (m : Fin 16) (off : BitVec 21), s.issues m (encBR 0x20 0 off.toNat) ∧ (s.mason m).cond 0 = some true ∧
      (BitVec.ofNat 32 (s.mason m).pc + off.signExtend 32 * 4).toNat = 65536) ∧
    (∃ (s : State) (m : Fin 16) (cond : BitVec 5) (off : BitVec 21), s.issues m (encBR 0x20 cond.toNat off.toNat) ∧ cond.toNat = 12) ∧
    (∃ (s : State) (m : Fin 16) (cond : BitVec 5) (off : BitVec 21), s.issues m (encBR 0x20 cond.toNat off.toNat) ∧ cond.toNat = 31) ∧
    (∃ (s : State) (m : Fin 16) (off : BitVec 21), s.issues m (encBR 0x21 0 off.toNat) ∧
      (BitVec.ofNat 32 (s.mason m).pc + off.signExtend 32 * 4).toNat = 65536) := by
  refine ⟨⟨(ran (encG3 0x1C 0 1 0 0)).setMason 0 (Mason.init.put 1 2), 0, 1, ?_⟩,
    ⟨(ran (encG3 0x1C 0 1 0 0)).setMason 0 (Mason.init.put 1 65536), 0, 1, ?_⟩,
    ⟨(ran (encG3 0x1D 2 1 0 0)).setMason 0 (Mason.init.put 1 2), 0, 2, 1, ?_⟩,
    ⟨(ran (encG3 0x1D 2 1 0 0)).setMason 0 (Mason.init.put 1 65536), 0, 2, 1, ?_⟩,
    ⟨ran (encBR 0x20 0 16384), 0, 16384, ?_⟩, ⟨ran (encBR 0x20 12 1), 0, 12, 1, ?_⟩, ⟨ran (encBR 0x20 31 1), 0, 31, 1, ?_⟩,
    ⟨ran (encBR 0x21 0 16384), 0, 16384, ?_⟩⟩
  all_goals dsimp only [State.issues]
  all_goals decide +kernel

theorem witness_AddressMapRefusals :
    accOf .host 0xD0000 = .no ∧ accOf (.mason 0) 0x40000 = .ro ∧ accOf .host 0x40000 = .rw ∧ (tst 0 []).mode = 0 ∧
    accOf .manager 0x20000 = .rw ∧ dormantWrite 0x20000 = false := by
  decide +kernel

theorem witness_RegisterWriteTakesEffect :
    (∃ (s : State) (u : Fin 64), s.takes .host (R.TU_HYST u)) ∧ (∃ s : State, s.takes .host R.EVT_MASK) ∧
    (∃ s : State, s.takes .jtag R.TRIG_EVT) ∧ (∃ (s : State) (m : Fin 16), s.takes .jtag (R.MC_DOORBELL m)) ∧
    (∃ (s : State) (q : Fin 64), s.takes .host (R.PQ_PUSH q) ∧ (s.pq q).full = false) ∧
    (∃ s : State, ∀ a ∈ [R.GLOBAL_ID, R.RST_CAUSE, R.MGP_CNT, R.ST_SECL], s.takes .manager a) ∧ (∃ s : State, s.takes .host 0x4FFC0) := by
  refine ⟨⟨tst 2 [], 0, ?_⟩, ⟨tst 2 [], ?_⟩, ⟨tst 2 [], ?_⟩, ⟨tst 2 [], 15, ?_⟩, ⟨tst 2 [], 63, ?_⟩, ⟨tst 2 [], ?_⟩, ⟨tst 2 [], ?_⟩⟩
  all_goals dsimp only [State.takes]
  all_goals decide +kernel

/-- A frame of the management port with command, word address and data, and its CRC. -/
def frame (c a d : Nat) : BitVec 72 :=
  let x := (c * 2 ^ 24 + a) * 2 ^ 32 + d
  BitVec.ofNat 72 (x * 256 + crc8 (natBE 8 x))

theorem witness_ManagementPortFrames :
    (∃ f : BitVec 72, crc8 (natBE 8 (f.toNat / 256)) = f.toNat % 256 ∧ bits f.toNat 71 64 = 0 ∧ bits f.toNat 39 8 ≠ 1) ∧
    (∃ f : BitVec 72, crc8 (natBE 8 (f.toNat / 256)) = f.toNat % 256 ∧ bits f.toNat 71 64 = 0 ∧ bits f.toNat 39 8 = 1) ∧
    (∃ f : BitVec 72, crc8 (natBE 8 (f.toNat / 256)) = f.toNat % 256 ∧ bits f.toNat 71 64 = 0x10) ∧
    (∃ f : BitVec 72, crc8 (natBE 8 (f.toNat / 256)) = f.toNat % 256 ∧ bits f.toNat 71 64 = 0x20) ∧ (tst 2 []).mgp.pend = none ∧
    (∃ (s : State) (wa data : Nat), s.alive = true ∧ s.mgp.pend = some (0x10, wa, data) ∧ s.owed ≠ some 16 ∧ s.mapStop .manager (4 * wa) false = none ∧
      plainReg (4 * wa) ∧ s.underTest (4 * wa) = false) ∧
    (∃ (s : State) (wa data : Nat) (c : Status), s.alive = true ∧ s.mgp.pend = some (0x10, wa, data) ∧ s.owed ≠ some 16 ∧
      s.mapStop .manager (4 * wa) false = some c) ∧
    (∃ s w : State, s.alive = true ∧ s.mgp.pend = some (0x20, 0x8000, 0) ∧ s.owed ≠ some 16 ∧ w = s.writeReg .manager 0x20000 0 ∧ w.mgp.pend = s.mgp.pend) ∧
    (∃ f : BitVec 72, crc8 (natBE 8 (f.toNat / 256)) ≠ f.toNat % 256) ∧
    (∃ (s : State) (f : BitVec 72), s.alive = true ∧ crc8 (natBE 8 (f.toNat / 256)) = f.toNat % 256 ∧ bits f.toNat 71 64 ≠ 0 ∧ s.mgp.pend ≠ none) := by
  refine ⟨⟨frame 0 0 0, ?_⟩, ⟨frame 0 0 1, ?_⟩, ⟨frame 0x10 0 0, ?_⟩, ⟨frame 0x20 0 0, ?_⟩, ?_,
    ⟨{ tst 2 [] with mgp := { Mgp.init with pend := some (0x10, 0x8000, 0) } }, 0x8000, 0, ?_⟩,
    ⟨{ tst 2 [] with mgp := { Mgp.init with pend := some (0x10, 0x34000, 0) } }, 0x34000, 0, .addr, ?_⟩,
    ⟨{ tst 2 [] with mgp := { Mgp.init with pend := some (0x20, 0x8000, 0) } }, _, ?_, ?_, ?_, rfl, ?_⟩, ⟨1, ?_⟩,
    ⟨{ tst 2 [] with mgp := { Mgp.init with pend := some (0x10, 0, 0) } }, frame 0x10 0 0, ?_⟩⟩
  all_goals (try unfold plainReg)
  all_goals decide +kernel

end Sys2Proof.Tests
end

section
/-!
PROOFS. The data memory of a mason (R184, R200, R233): which trap an access meets, what a load writes, what a store leaves.
-/

namespace Sys2Proof.Machine

/-- A mason that issues a word ends its instruction as the meaning of the word says (R222). -/
theorem isa_of_issues {s : State} {m : Fin 16} {w : Word} (h : s.issues m w) (f : State → Mason → Turn) :
    isa m w f s = .next (s.turn m (f s (s.mason m))) := by
  obtain ⟨alive, fetches⟩ := h
  rw [isa, act_alive _ _ alive, if_pos fetches]

/-! ### Which trap a data access meets (R200) -/

theorem State.dataTrap_align {s : State} {m a n align : Nat} {read : Bool} (h : a % align ≠ 0) :
    s.dataTrap m a n align read = some (3, a) := if_pos h

theorem State.dataTrap_daddr {s : State} {m a n align : Nat} {read : Bool} (h : a % align = 0) (k : 131072 < a + n) :
    s.dataTrap m a n align read = some (2, a) := by
  simp [State.dataTrap, h, k]

theorem State.dataTrap_ecc {s : State} {m a n align : Nat} (h : a % align = 0) (k : a + n ≤ 131072)
    (e : s.badRange (dmem m + a) n = true) : s.dataTrap m a n align true = some (5, a) := by
  simp [State.dataTrap, h, k, e]

theorem State.dataTrap_none {s : State} {m a n align : Nat} {read : Bool} (h : a % align = 0) (k : a + n ≤ 131072)
    (e : (read && s.badRange (dmem m + a) n) = false) : s.dataTrap m a n align read = none := by
  simp [State.dataTrap, h, k, e]

/-! ### How a load and a store end -/

section

variable {s : State} {m : Fin 16} {op rd n align : Nat} {ga : Fin 32} {off : BitVec 16} (hi : s.issues m (encGI op rd ga off.toNat))
include hi

theorem load_of_dataTrap {f : State → Nat → Mason → Mason} {c v : Nat}
    (h : s.dataTrap m ((s.mason m).addr ga off) n align true = some (c, v)) :
    load m op rd ga off n align f s = .next (s.trap m c v) := by
  rw [load, isa_of_issues hi]; simp only [h]; rfl

theorem load_of_fits (f : State → Nat → Mason → Mason)
    (h : let a := (s.mason m).addr ga off; a % align = 0 ∧ a + n ≤ 131072 ∧ s.badRange (dmem m + a) n = false) :
    load m op rd ga off n align f s = .next (s.retiredAs m (f s ((s.mason m).addr ga off) (s.mason m))) := by
  obtain ⟨aligned, inside, good⟩ := h
  rw [load, isa_of_issues hi]; simp only [State.dataTrap_none (read := true) aligned inside good]; rfl

theorem load_traps (f : State → Nat → Mason → Mason) :
    let a := (s.mason m).addr ga off
    (a % align ≠ 0 → load m op rd ga off n align f s = .next (s.trap m 3 a)) ∧
    (a % align = 0 → 131072 < a + n → load m op rd ga off n align f s = .next (s.trap m 2 a)) ∧
    (a % align = 0 → a + n ≤ 131072 → s.badRange (dmem m + a) n = true → load m op rd ga off n align f s = .next (s.trap m 5 a)) :=
  ⟨fun h => load_of_dataTrap hi (State.dataTrap_align h), fun h k => load_of_dataTrap hi (State.dataTrap_daddr h k),
    fun h k e => load_of_dataTrap hi (State.dataTrap_ecc h k e)⟩

theorem store_of_dataTrap {f : State → Nat → Mason → State} {c v : Nat}
    (h : s.dataTrap m ((s.mason m).addr ga off) n align false = some (c, v)) :
    store m op rd ga off n align f s = .next (s.trap m c v) := by
  rw [store, isa_of_issues hi]; simp only [h]; rfl

theorem store_of_fits (f : State → Nat → Mason → State)
    (h : let a := (s.mason m).addr ga off; a % align = 0 ∧ a + n ≤ 131072) :
    store m op rd ga off n align f s = .next ((f s ((s.mason m).addr ga off) (s.mason m)).retire m ((s.mason m).pc + 4)) := by
  obtain ⟨aligned, inside⟩ := h
  rw [store, isa_of_issues hi]; simp only [State.dataTrap_none (read := false) aligned inside rfl]; rfl

theorem store_traps (f : State → Nat → Mason → State) :
    let a := (s.mason m).addr ga off
    (a % align ≠ 0 → store m op rd ga off n align f s = .next (s.trap m 3 a)) ∧
    (a % align = 0 → 131072 < a + n → store m op rd ga off n align f s = .next (s.trap m 2 a)) :=
  ⟨fun h => store_of_dataTrap hi (State.dataTrap_align h), fun h k => store_of_dataTrap hi (State.dataTrap_daddr h k)⟩

end

theorem loadG_of_fits {s : State} {m : Fin 16} {op n : Nat} {gd ga : Fin 32} {off : BitVec 16}
    (hi : s.issues m (encGI op gd ga off.toNat)) (ext : Nat → Word)
    (h : let a := (s.mason m).addr ga off; a % n = 0 ∧ a + n ≤ 131072 ∧ s.badRange (dmem m + a) n = false) :
    loadG m op gd ga off n ext s =
      .next (s.retiredAs m ((s.mason m).put gd (ext (s.dload m ((s.mason m).addr ga off) n)))) :=
  load_of_fits hi _ h

/-! ### Little-endian numbers (R3) -/

theorem beNat_reverse_cons (b : Byte) (l : List Byte) : beNat (b :: l).reverse = b.toNat + 256 * beNat l.reverse := by
  simp only [beNat, List.reverse_cons, List.foldl_append, List.foldl_cons, List.foldl_nil]
  ring

/-- The first byte of a number in data memory is its lowest. -/
theorem State.dload_succ (s : State) (m a n : Nat) :
    s.dload m a (n + 1) = (s.byte (dmem m + a)).toNat + 256 * s.dload m (a + 1) n := by
  simp only [State.dload, State.bytes, beNat_reverse_cons, Nat.add_assoc]

theorem State.dload_zero (s : State) (m a : Nat) : s.dload m a 0 = 0 := rfl

theorem State.dload_one (s : State) (m a : Nat) : s.dload m a 1 = (s.byte (dmem m + a + 0)).toNat := by
  simp only [State.dload_succ, State.dload_zero, Nat.add_zero, Nat.mul_zero]

theorem State.dload_two (s : State) (m a : Nat) :
    s.dload m a 2 = (s.byte (dmem m + a + 0)).toNat + 256 * (s.byte (dmem m + a + 1)).toNat := by
  simp only [State.dload_succ, State.dload_zero, Nat.add_assoc, Nat.add_zero, Nat.mul_zero]

theorem State.dload_four (s : State) (m a : Nat) :
    s.dload m a 4 = (s.byte (dmem m + a + 0)).toNat + 256 * (s.byte (dmem m + a + 1)).toNat +
      65536 * (s.byte (dmem m + a + 2)).toNat + 16777216 * (s.byte (dmem m + a + 3)).toNat := by
  simp only [State.dload_succ, State.dload_zero, Nat.add_assoc, Nat.add_zero, Nat.reduceAdd]
  omega

@[simp] theorem natBE_length (k n : Nat) : (natBE k n).length = k := by
  induction k with
  | zero => rfl
  | succ k ih => rw [natBE, List.length_cons, ih]

/-- Byte `i` of a number written least significant first. -/
theorem natBE_reverse_getElem (k n i : Nat) (h : i < (natBE k n).reverse.length) :
    (natBE k n).reverse[i] = BitVec.ofNat 8 (n / 256 ^ i) := by
  induction k with
  | zero => simp at h
  | succ k ih =>
    simp only [natBE, List.reverse_cons]
    rcases Nat.lt_or_ge i (natBE k n).reverse.length with lt | ge
    · rw [List.getElem_append_left lt, ih lt]
    · obtain rfl : i = k := by simp only [List.length_reverse, natBE_length] at h ge; omega
      simp

/-! ### What bytes written into memory leave -/

theorem State.setBytes_byte_inside (s : State) (a : Nat) (l : List Byte) (i : Nat) (h : i < l.length) :
    (s.setBytes a l).byte (a + i) = l[i] := by
  induction l generalizing s a i with
  | nil => simp at h
  | cons b l ih =>
    rw [State.setBytes]
    cases i with
    | zero => rw [State.setBytes_byte_other _ _ _ _ (by omega), State.setByte_byte, if_pos (Nat.add_zero a)]; rfl
    | succ i =>
      rw [show a + (i + 1) = a + 1 + i by omega, ih _ _ _ (by simpa using h)]
      rfl

@[simp] theorem State.setBytes_mason (s : State) (a k : Nat) (l : List Byte) : (s.setBytes a l).mason k = s.mason k := by
  induction l generalizing s a with
  | nil => rfl
  | cons b l ih => exact ih _ _

@[simp] theorem State.setBytes_nvm (s : State) (a : Nat) (l : List Byte) : (s.setBytes a l).nvm = s.nvm := by
  induction l generalizing s a with
  | nil => rfl
  | cons b l ih => exact ih _ _

theorem State.dstore_mem (s : State) (m a n : Nat) (v : Word) :
    (s.dstore m a n v).mem = (s.setBytes (dmem m + a) (natBE n v.toNat).reverse).mem := by
  unfold State.dstore; dsimp only; split <;> rfl

@[simp] theorem State.dstore_mason (s : State) (m a n k : Nat) (v : Word) : (s.dstore m a n v).mason k = s.mason k := by
  unfold State.dstore; dsimp only; split <;> exact State.setBytes_mason ..

@[simp] theorem State.dstore_nvm (s : State) (m a n : Nat) (v : Word) : (s.dstore m a n v).nvm = s.nvm := by
  unfold State.dstore; dsimp only; split <;> exact State.setBytes_nvm ..

theorem State.dstore_byte (s : State) (m a n b : Nat) (v : Word) :
    (s.dstore m a n v).byte b = (s.setBytes (dmem m + a) (natBE n v.toNat).reverse).byte b := by
  rw [State.byte, State.dstore_mem, State.byte]

theorem State.dstore_byte_inside (s : State) (m a n : Nat) (v : Word) {i : Nat} (h : i < n) :
    ((s.dstore m a n v).byte (dmem m + a + i)).toNat = v.toNat / 256 ^ i % 256 := by
  rw [State.dstore_byte, State.setBytes_byte_inside _ _ _ _ (by simpa using h), natBE_reverse_getElem, BitVec.toNat_ofNat]

theorem State.dstore_byte_outside (s : State) (m a n : Nat) (v : Word) {b : Nat} (h : b < dmem m + a ∨ dmem m + a + n ≤ b) :
    (s.dstore m a n v).byte b = s.byte b := by
  rw [State.dstore_byte, State.setBytes_byte_other _ _ _ _ (by simpa using h)]

/-! ### What a retirement leaves (R219, R222) -/

@[simp] theorem State.retire_nvm (s : State) (m pc : Nat) : (s.retire m pc).nvm = s.nvm := rfl

@[simp] theorem State.retire_byte (s : State) (m pc b : Nat) : (s.retire m pc).byte b = s.byte b := rfl

@[simp] theorem State.retire_mason_same (s : State) (m pc : Nat) : (s.retire m pc).mason m = { s.mason m with pc := pc } :=
  State.setMason_same ..

/-- A scalar store whose bytes lie inside DMEM writes them and nothing else of the memories, and moves PC on. -/
theorem storeG_of_fits {s : State} {m : Fin 16} {op n : Nat} {gs ga : Fin 32} {off : BitVec 16}
    (hi : s.issues m (encGI op gs ga off.toNat)) :
    let x := s.mason m
    let a := x.addr ga off
    a % n = 0 → a + n ≤ 131072 → ∃ t, storeG m op gs ga off n s = .next t ∧
      (∀ i, i < n → (t.byte (dmem m + a + i)).toNat = (x.get gs).toNat / 256 ^ i % 256) ∧
      (∀ b, b < dmem m + a ∨ dmem m + a + n ≤ b → t.byte b = s.byte b) ∧ t.mason m = { x with pc := x.pc + 4 } ∧ t.nvm = s.nvm := by
  intro x a aligned inside
  refine ⟨_, store_of_fits hi _ ⟨aligned, inside⟩, fun i h => ?_, fun b h => ?_, ?_, ?_⟩
  · rw [State.retire_byte, State.dstore_byte_inside s m a n _ h]
  · rw [State.retire_byte, State.dstore_byte_outside s m a n _ h]
  · rw [State.retire_mason_same, State.dstore_mason]
  · rw [State.retire_nvm, State.dstore_nvm]

/-! ### The loads and stores of R233 -/

theorem exec_ldw (m : Fin 16) (gd ga : Fin 32) (off : BitVec 16) (s : State) :
    exec (.ldw m gd ga off) s = loadG m 0x10 gd ga off 4 (fun n => BitVec.ofNat 32 n) s := rfl

theorem exec_ldh (m : Fin 16) (gd ga : Fin 32) (off : BitVec 16) (s : State) :
    exec (.ldh m gd ga off) s = loadG m 0x11 gd ga off 2 (fun n => BitVec.ofInt 32 (sx 16 n)) s := rfl

theorem exec_ldhu (m : Fin 16) (gd ga : Fin 32) (off : BitVec 16) (s : State) :
    exec (.ldhu m gd ga off) s = loadG m 0x12 gd ga off 2 (fun n => BitVec.ofNat 32 n) s := rfl

theorem exec_ldb (m : Fin 16) (gd ga : Fin 32) (off : BitVec 16) (s : State) :
    exec (.ldb m gd ga off) s = loadG m 0x13 gd ga off 1 (fun n => BitVec.ofInt 32 (sx 8 n)) s := rfl

theorem exec_ldbu (m : Fin 16) (gd ga : Fin 32) (off : BitVec 16) (s : State) :
    exec (.ldbu m gd ga off) s = loadG m 0x14 gd ga off 1 (fun n => BitVec.ofNat 32 n) s := rfl

theorem exec_vld (m : Fin 16) (vd : Fin 8) (ga : Fin 32) (off : BitVec 16) (s : State) :
    exec (.vld m vd ga off) s = load m 0x18 vd ga off 64 4 (fun s a x => x.setVec vd (s.dwords m a 16)) s := rfl

theorem exec_stw (m : Fin 16) (gs ga : Fin 32) (off : BitVec 16) (s : State) :
    exec (.stw m gs ga off) s = storeG m 0x15 gs ga off 4 s := rfl

theorem exec_sth (m : Fin 16) (gs ga : Fin 32) (off : BitVec 16) (s : State) :
    exec (.sth m gs ga off) s = storeG m 0x16 gs ga off 2 s := rfl

theorem exec_stb (m : Fin 16) (gs ga : Fin 32) (off : BitVec 16) (s : State) :
    exec (.stb m gs ga off) s = storeG m 0x17 gs ga off 1 s := rfl

/-- Settles O9: a load whose address meets no trap of `dataTrap` retires with the number that `dload` spells, byte by byte. -/
theorem loadsReadLittleEndianDataMemory : Obligations.LoadsReadLittleEndianDataMemory := by
  intro s m gd ga off x a at_ fits traps writes
  simp only [exec_ldw, exec_ldh, exec_ldhu, exec_ldb, exec_ldbu, exec_vld]
  refine ⟨fun hi h => ?_, fun hi h => ?_, fun hi h => ?_, fun hi h => ?_, fun hi h => ?_, fun vd hi h => load_of_fits hi _ h,
    fun hi => load_traps hi _, fun hi => load_traps hi _, fun hi => load_traps hi _, fun hi => load_traps hi _,
    fun hi => load_traps hi _, fun vd hi => load_traps hi _⟩
  · rw [loadG_of_fits hi _ h, State.dload_four]; rfl
  · rw [loadG_of_fits hi _ h, State.dload_two]; rfl
  · rw [loadG_of_fits hi _ h, State.dload_two]; rfl
  · rw [loadG_of_fits hi _ h, State.dload_one]; rfl
  · rw [loadG_of_fits hi _ h, State.dload_one]; rfl

/-- Settles O10: the three scalar stores are one store of `n` bytes. -/
theorem storesWriteLittleEndianDataMemory : Obligations.StoresWriteLittleEndianDataMemory := by
  intro s m gs ga off x a stored traps
  rw [exec_stw, exec_sth, exec_stb]
  exact ⟨fun hi => storeG_of_fits hi, fun hi => storeG_of_fits hi, fun hi => storeG_of_fits hi,
    fun hi => store_traps hi _, fun hi => store_traps hi _, fun hi => store_traps hi _⟩

end Sys2Proof.Machine
end

section
/-!
PROOFS. Which accesses the address map refuses (R2, R29 to R31, R359, R419).
-/

namespace Sys2Proof.Machine

theorem State.mapStop_misaligned {s : State} {r : Req} {a : Nat} {write : Bool} (h : a % 4 ≠ 0) :
    s.mapStop r a write = some .addr := by
  simp [State.mapStop, h]

theorem State.mapStop_no {s : State} {r : Req} {a : Nat} {write : Bool} (h : a % 4 = 0) (k : accOf r a = .no) :
    s.mapStop r a write = some .addr := by
  simp [State.mapStop, h, k]

theorem State.mapStop_ro_write {s : State} {r : Req} {a : Nat} (h : a % 4 = 0) (k : accOf r a = .ro) :
    s.mapStop r a true = if 0x20000000 ≤ a then some .unsupported else some .addr := by
  simp only [State.mapStop, h, k]; rfl

theorem State.mapStop_rw_mode {s : State} {r : Req} {a : Nat} {write : Bool} (hr : r = .host ∨ r = .jtag) (h : a % 4 = 0)
    (k : accOf r a = .rw) (hm : s.mode = 0 ∨ s.mode = 4) : s.mapStop r a write = some .mode := by
  rcases hr with rfl | rfl <;> simp [State.mapStop, h, k, hm]

theorem State.mapStop_dormant_write {s : State} {a : Nat} (h : a % 4 = 0) (k : accOf .manager a = .rw) (hm : s.mode = 0)
    (hd : dormantWrite a = false) : s.mapStop .manager a true = some .mode := by
  simp [State.mapStop, h, k, hm, hd]

/-- The yard window, 0x20000000 to 0x3FFFFFFF, is RO for the host (R30). -/
theorem accOf_host_yard {a : Nat} (h : 0x20000000 ≤ a) (k : a < 0x40000000) : accOf .host a = .ro := by
  have e : regionAcc a = some (.ro, .no, .no) := by
    unfold regionAcc
    iterate 17 rw [if_neg (by omega)]
    exact if_pos k
  simp only [accOf, e]

theorem regionAcc_eq_none_of_le {a : Nat} (h : 0x40000000 ≤ a) : regionAcc a = none := by
  unfold regionAcc
  iterate 18 rw [if_neg (by omega)]

theorem accOf_eq_no_of_le {r : Req} {a : Nat} (h : 0x40000000 ≤ a) : accOf r a = .no := by
  simp only [accOf, regionAcc_eq_none_of_le h]

/-- No region gives the masons RW (R31). -/
theorem regionAcc_mason_ne_rw (a : Nat) : (regionAcc a).map (fun x => x.2.2) ≠ some .rw := by
  have ite_ne {c : Prop} [Decidable c] {x y : Option (Acc × Acc × Acc)} (hx : x.map (fun x => x.2.2) ≠ some .rw)
      (hy : y.map (fun x => x.2.2) ≠ some .rw) : (if c then x else y).map (fun x => x.2.2) ≠ some .rw := by split <;> assumption
  unfold regionAcc
  repeat' apply ite_ne
  all_goals decide

theorem accOf_mason_ne_rw (m : Fin 16) (a : Nat) : accOf (.mason m) a ≠ .rw := by
  have h := regionAcc_mason_ne_rw a
  unfold accOf
  cases e : regionAcc a with
  | none => exact fun n => nomatch n
  | some x => simpa [e] using h

/-- Settles O26: each clause is one branch of `mapStop`, in its order. -/
theorem addressMapRefusals : Obligations.AddressMapRefusals := by
  refine ⟨fun s r a w h => State.mapStop_misaligned h, fun s r a w h k => State.mapStop_no h k, fun s r a h k l => ?_,
    fun s a h k l => ?_, fun s r a w hr h k hm => State.mapStop_rw_mode hr h k hm,
    fun s a h k hm hd => State.mapStop_dormant_write h k hm hd, fun r a h => accOf_eq_no_of_le h, accOf_mason_ne_rw⟩
  · rw [State.mapStop_ro_write h k, if_neg (by omega)]
  · rw [State.mapStop_ro_write h (accOf_host_yard k l), if_pos k]

end Sys2Proof.Machine
end

section
/-!
PROOFS. What a read of a register does (R4, R5, R8, R106): the shadows of the requesters, and the effects of `plainRead`.
-/

namespace Sys2Proof.Machine

theorem plainReg_lt {a : Nat} (h : plainReg a) : a < 0x20000000 := by
  unfold plainReg at h; omega

/-- A register of `plainReg` meets none of the special cases of a read. -/
theorem State.readReg_of_plainReg {a : Nat} (h : plainReg a) (s : State) (r : Req) (bad : Bool) :
    s.readReg r a bad = s.plainRead r a := by
  unfold plainReg at h
  unfold State.readReg
  iterate 5 rw [if_neg (by omega)]
  rcases s.plainRead r a with ⟨t, v⟩
  dsimp only
  rw [if_neg (by omega), if_neg (by omega)]

theorem State.readWord_of_plainReg {s : State} {r : Req} {a : Nat} (hm : s.mapStop r a false = none) (hp : plainReg a) (bad : Bool) :
    s.readWord r a bad = (s.plainRead r a).1.finData [(s.plainRead r a).2] := by
  simp only [State.readWord, hm, State.readReg_of_plainReg hp]

/-! ### Shadows (R106) -/

theorem reqKey_injective : Function.Injective reqKey := by
  intro q r h
  cases q <;> cases r <;> simp only [reqKey, Req.mason.injEq, Fin.ext_iff, reduceCtorEq] at h ⊢ <;> omega

theorem State.setShadow_shadow_same (s : State) (r : Req) (a : Nat) (v : Word) : (s.setShadow r a v).shadow r a = v :=
  Tab.get_set_same ..

theorem State.setShadow_shadow_other (s : State) {r q : Req} {a i : Nat} (v : Word)
    (h : reqKey q * 2 ^ 32 + i ≠ reqKey r * 2 ^ 32 + a) : (s.setShadow r a v).shadow q i = s.shadow q i :=
  Tab.get_set_other _ _ _ _ _ h

/-- Shadow words written change no shadow of another requester and none outside them. The bounds keep the requesters' places in the table apart. -/
theorem State.setShadows_shadow_outside (s : State) {r q : Req} {a i : Nat} {l : List Word} (hl : a + 4 * l.length ≤ 2 ^ 32)
    (hi : i < 2 ^ 32) (h : q ≠ r ∨ i < a ∨ a + 4 * l.length ≤ i) : (s.setShadows r a l).shadow q i = s.shadow q i := by
  induction l generalizing s a with
  | nil => rfl
  | cons v l ih =>
    rw [List.length_cons] at hl h
    have key : reqKey q * 2 ^ 32 + i ≠ reqKey r * 2 ^ 32 + a := by
      rcases eq_or_ne q r with rfl | n
      · have := h.resolve_left (· rfl); omega
      · have := mt (@reqKey_injective q r) n; omega
    rw [State.setShadows, ih _ (by omega) (h.imp_right (by omega)), State.setShadow_shadow_other _ _ key]

theorem State.setShadows_shadow_inside (s : State) {r : Req} {a k : Nat} {l : List Word} (h : k < l.length)
    (hl : a + 4 * l.length ≤ 2 ^ 32) : (s.setShadows r a l).shadow r (a + 4 * k) = l[k] := by
  induction l generalizing s a k with
  | nil => simp at h
  | cons v l ih =>
    rw [List.length_cons] at hl h
    rw [State.setShadows]
    cases k with
    | zero =>
      rw [State.setShadows_shadow_outside _ (by omega) (by omega) (by omega)]
      exact State.setShadow_shadow_same ..
    | succ k =>
      rw [show a + 4 * (k + 1) = a + 4 + 4 * k by omega, ih _ (by omega) (by omega)]
      rfl

@[simp] theorem State.setShadows_w (s : State) (r : Req) (a i : Nat) (l : List Word) : (s.setShadows r a l).w i = s.w i := by
  induction l generalizing s a with
  | nil => rfl
  | cons v l ih => exact ih _ _

@[simp] theorem State.setShadows_mem (s : State) (r : Req) (a : Nat) (l : List Word) : (s.setShadows r a l).mem = s.mem := by
  induction l generalizing s a with
  | nil => rfl
  | cons v l ih => exact ih _ _

@[simp] theorem State.setShadows_nvm (s : State) (r : Req) (a : Nat) (l : List Word) : (s.setShadows r a l).nvm = s.nvm := by
  induction l generalizing s a with
  | nil => rfl
  | cons v l ih => exact ih _ _

/-! ### How many words a read snapshots -/

theorem regionRows_mw_le (a : Nat) : ∀ x ∈ regionRows a, x.mw ≤ 8 := by
  have ite_le {c : Prop} [Decidable c] {l k : List Row} (hl : ∀ x ∈ l, x.mw ≤ 8) (hk : ∀ x ∈ k, x.mw ≤ 8) :
      ∀ x ∈ (if c then l else k), x.mw ≤ 8 := by split <;> assumption
  unfold regionRows
  repeat' apply ite_le
  all_goals decide +kernel

theorem findRow_mem {rs : List Row} {a : Nat} {x : Row} {i j : Nat} (h : findRow rs a = some (x, i, j)) : x ∈ rs := by
  induction rs with
  | nil => simp [findRow] at h
  | cons r rs ih =>
    unfold findRow at h
    split at h
    · simp_all
    · exact List.mem_cons_of_mem _ (ih h)

theorem readMask_words_le (a : Nat) : (readMask a).2.2.2 ≤ 8 := by
  unfold readMask rowAt
  split
  · next x i j e => exact regionRows_mw_le a x (findRow_mem e)
  · decide

theorem range'_length (a n : Nat) : (range' a n).length = n := by
  induction n generalizing a with
  | zero => rfl
  | succ n ih => rw [range', List.length_cons, ih]

theorem range'_getElem (a n i : Nat) (h : i < (range' a n).length) : (range' a n)[i] = a + i := by
  induction n generalizing a i with
  | zero => simp [range'] at h
  | succ n ih =>
    cases i with
    | zero => rfl
    | succ i => simp only [range', List.getElem_cons_succ, ih]; omega

/-! ### plainRead -/

/-- The words of a multi-word value above its lowest, as a read of the lowest snapshots them. -/
def State.upperWords (s : State) (a : Nat) : List Word := (range' 1 ((readMask a).2.2.2 - 1)).map fun k => s.view (a + 4 * k)

@[simp] theorem State.upperWords_length (s : State) (a : Nat) : (s.upperWords a).length = (readMask a).2.2.2 - 1 := by
  rw [State.upperWords, List.length_map, range'_length]

theorem State.upperWords_getElem (s : State) (a i : Nat) (h : i < (s.upperWords a).length) :
    (s.upperWords a)[i] = s.view (a + 4 * (1 + i)) := by
  simp only [State.upperWords, List.getElem_map, range'_getElem]

theorem State.plainRead_fst (s : State) (r : Req) (a : Nat) : (s.plainRead r a).1 =
    if s.underTest a || (readMask a).2.1 == 0 then s.setShadows r (a + 4) (s.upperWords a)
    else (s.setShadows r (a + 4) (s.upperWords a)).setW a (s.w a &&& ~~~(readMask a).2.1) := by
  rw [← State.setShadows_w s r (a + 4) a (s.upperWords a)]; rfl

theorem State.plainRead_w_same {s : State} {a : Nat} (ht : s.underTest a = false) (r : Req) :
    (s.plainRead r a).1.w a = s.w a &&& ~~~(readMask a).2.1 := by
  rw [State.plainRead_fst, ht, Bool.false_or]
  split
  · next h =>
    have e : (readMask a).2.1 = 0#32 := beq_iff_eq.mp h
    rw [State.setShadows_w, e, BitVec.not_zero, BitVec.and_allOnes]
  · exact State.setW_w_same ..

theorem State.plainRead_w_other (s : State) (r : Req) {a i : Nat} (h : i ≠ a) : (s.plainRead r a).1.w i = s.w i := by
  rw [State.plainRead_fst]
  split
  · exact State.setShadows_w ..
  · rw [State.setW_w_other _ _ _ _ h, State.setShadows_w]

theorem State.plainRead_mem (s : State) (r : Req) (a : Nat) : (s.plainRead r a).1.mem = s.mem := by
  rw [State.plainRead_fst]; split <;> exact State.setShadows_mem ..

theorem State.plainRead_nvm (s : State) (r : Req) (a : Nat) : (s.plainRead r a).1.nvm = s.nvm := by
  rw [State.plainRead_fst]; split <;> exact State.setShadows_nvm ..

theorem State.plainRead_shadow (s : State) (r q : Req) (a i : Nat) :
    (s.plainRead r a).1.shadow q i = (s.setShadows r (a + 4) (s.upperWords a)).shadow q i := by
  rw [State.plainRead_fst]; split <;> rfl

theorem State.plainRead_shadow_inside (s : State) (r : Req) {a k : Nat} (ha : a < 0x20000000) (h1 : 1 ≤ k)
    (hk : k < (readMask a).2.2.2) : (s.plainRead r a).1.shadow r (a + 4 * k) = s.view (a + 4 * k) := by
  have hw := readMask_words_le a
  obtain ⟨j, rfl⟩ := Nat.exists_eq_add_of_le h1
  have hj : j < (s.upperWords a).length := by rw [State.upperWords_length]; omega
  have hl : a + 4 + 4 * (s.upperWords a).length ≤ 2 ^ 32 := by rw [State.upperWords_length]; omega
  have e : a + 4 * (1 + j) = a + 4 + 4 * j := by omega
  rw [State.plainRead_shadow, e, State.setShadows_shadow_inside _ hj hl, State.upperWords_getElem, e]

theorem State.plainRead_shadow_outside (s : State) {r q : Req} {a i : Nat} (ha : a < 0x20000000)
    (h : q ≠ r ∨ i < a + 4 ∨ a + 4 * (readMask a).2.2.2 ≤ i) (hi : i < 2 ^ 32) : (s.plainRead r a).1.shadow q i = s.shadow q i := by
  have hw := readMask_words_le a
  have hl := s.upperWords_length a
  rw [State.plainRead_shadow]
  exact State.setShadows_shadow_outside _ (by omega) hi (h.imp_right (by omega))

theorem exec_rcRead (r : Req) (a : Word) (s : State) : exec (.rcRead r a) s = act (fun s => s.readWord r a.toNat false) s := rfl

theorem exec_lowWordRead (r : Req) (a : Word) (bad : Bool) (s : State) :
    exec (.lowWordRead r a bad) s = act (fun s => s.readWord r a.toNat bad) s := rfl

/-- Settles O27: both reads are `plainRead`, whose effects the lemmas above give one by one. -/
theorem registerReadsClearAndSnapshot : Obligations.RegisterReadsClearAndSnapshot := by
  intro r a s alive hm hp ht m v
  have ha := plainReg_lt hp
  rw [exec_rcRead, exec_lowWordRead, act_alive _ _ alive, State.readWord_of_plainReg hm hp]
  refine ⟨⟨_, rfl, rfl, ?_, ?_, ?_, ?_⟩, ⟨_, rfl, rfl, ?_, ?_, ?_, ?_, ?_, ?_⟩⟩
  · exact State.plainRead_w_same ht r
  · exact fun i h => State.plainRead_w_other s r h
  · exact State.plainRead_mem s r _
  · exact State.plainRead_nvm s r _
  · exact State.plainRead_w_same ht r
  · exact fun k h1 hk => State.plainRead_shadow_inside s r ha h1 hk
  · exact fun q i h hi => State.plainRead_shadow_outside s ha h hi
  · exact fun i h => State.plainRead_w_other s r h
  · exact State.plainRead_mem s r _
  · exact State.plainRead_nvm s r _

end Sys2Proof.Machine
end

section
/-!
PROOFS. What a write of a register does (R2, R5): the field types, and which meaning a write of an address has.
-/

namespace Sys2Proof.Machine

/-! ### The field types (R5) -/

/-- The bits of the register at an address that a write stores, those that it clears where they are written as 1, and those that it sets. -/
def writeMask (a : Nat) : Word × Word × Word :=
  match rowAt a with
  | some (x, _, _) => (BitVec.ofNat 32 x.rw, BitVec.ofNat 32 x.w1c, BitVec.ofNat 32 x.w1s)
  | none => (0#32, 0#32, 0#32)

theorem and_not_zero (x : Word) : x &&& ~~~0#32 = x := by rw [BitVec.not_zero, BitVec.and_allOnes]

/-- A write through masks without a bit keeps the register. -/
theorem write_no_bits (old v : Word) : ((old &&& ~~~0#32) &&& ~~~(v &&& 0#32)) ||| (v &&& (0#32 ||| 0#32)) = old := by
  rw [BitVec.or_zero, BitVec.and_zero, BitVec.or_zero, and_not_zero, and_not_zero]

theorem State.store_w_same (s : State) (a : Nat) (v : Word) :
    (s.store a v).w a =
      ((s.w a &&& ~~~(writeMask a).1) &&& ~~~(v &&& (writeMask a).2.1)) ||| (v &&& ((writeMask a).1 ||| (writeMask a).2.2)) := by
  unfold State.store writeMask
  cases rowAt a with
  | some x => exact State.setW_w_same ..
  | none => exact (write_no_bits ..).symm

theorem State.store_w_other (s : State) {a i : Nat} (v : Word) (h : i ≠ a) : (s.store a v).w i = s.w i := by
  unfold State.store
  split
  · exact State.setW_w_other _ _ _ _ h
  · rfl

@[simp] theorem State.store_mem (s : State) (a : Nat) (v : Word) : (s.store a v).mem = s.mem := by
  unfold State.store; split <;> rfl

@[simp] theorem State.store_nvm (s : State) (a : Nat) (v : Word) : (s.store a v).nvm = s.nvm := by
  unfold State.store; split <;> rfl

/-- A write of a register without a writable bit, or of an unassigned offset, changes no register. -/
theorem State.store_w_of_no_bits (s : State) {a : Nat} (h : writeMask a = (0#32, 0#32, 0#32)) (v : Word) (i : Nat) :
    (s.store a v).w i = s.w i := by
  rcases eq_or_ne i a with rfl | n
  · rw [State.store_w_same, h]
    exact write_no_bits ..
  · exact State.store_w_other s v n

/-- A field whose bits are all RW takes the bits written. -/
theorem State.store_f_of_rw (s : State) {x : Fld} {rw_ w1c w1s : Word} (hm : writeMask x.addr = (rw_, w1c, w1s))
    (keeps : bits (~~~rw_).toNat x.hi x.lo = 0) (takes : bits (rw_ ||| w1s).toNat x.hi x.lo = 2 ^ (x.hi + 1 - x.lo) - 1) (v : Word) :
    (s.store x.addr v).f x = bits v.toNat x.hi x.lo := by
  have kept : bits v.toNat x.hi x.lo &&& (2 ^ (x.hi + 1 - x.lo) - 1) = bits v.toNat x.hi x.lo := by
    rw [Nat.and_two_pow_sub_one_eq_mod, bits, Nat.mod_mod]
  rw [State.f, State.store_w_same, hm]
  simp only [BitVec.toNat_and, BitVec.toNat_or _ (_ &&& _), bits_and, bits_or _ (_ &&& _), keeps, takes, kept, Nat.and_zero, Nat.zero_and,
    Nat.zero_or]

/-! ### The meaning of a write by its address -/

theorem plainWrite_of_takes {s : State} {r : Req} {a : Nat} (h : s.takes r a) (v : Word) : plainWrite r a v s = (s.store a v).fin .ok := by
  obtain ⟨-, map, test⟩ := h
  rw [plainWrite, checkedWrite, regWrite_eff _ _ noLock _ _ rfl map test]

theorem State.via_act {s : State} (h : s.alive = true) (f : State → State) : s.via (act f) = f s := by
  rw [State.via, act_alive _ _ h]

theorem State.writeReg_trig {a : Nat} (h4 : a % 4 = 0) (lo : 0x40000 ≤ a) (hi : a < 0x50000) (s : State) (r : Req) (v : Word) :
    s.writeReg r a v = writeTrig r a v s := by
  unfold State.writeReg
  iterate 5 rw [if_neg (by omega)]
  rw [if_pos hi]

theorem State.writeReg_pallet {a : Nat} (h4 : a % 4 = 0) (lo : 0xC0000 ≤ a) (hi : a < 0xD0000) (s : State) (r : Req) (v : Word) :
    s.writeReg r a v = writePallet r a v s := by
  unfold State.writeReg
  iterate 13 rw [if_neg (by omega)]
  rw [if_pos hi]

theorem State.writeReg_mason {a : Nat} (h4 : a % 4 = 0) (lo : 0x400000 ≤ a) (hi : a < 0x800000) (s : State) (r : Req) (v : Word) :
    s.writeReg r a v = writeMason r a v s := by
  unfold State.writeReg
  iterate 16 rw [if_neg (by omega)]
  rw [if_pos ⟨lo, hi⟩]

theorem State.writeReg_TU_HYST (s : State) (r : Req) (u : Fin 64) (v : Word) :
    s.writeReg r (R.TU_HYST u) v = plainWrite r (R.TU_HYST u) v s := by
  have hu := u.isLt
  have ha : R.TU_HYST u = 0x4000C + 0x100 * u := rfl
  have offset : (R.TU_HYST u - 0x40000) % 0x100 = 0xC := by omega
  rw [State.writeReg_trig (by omega) (by omega) (by omega), writeTrig, if_pos (by omega)]
  simp only [offset]

theorem State.writeReg_MC_DOORBELL {s : State} {r : Req} {m : Fin 16} (h : s.takes r (R.MC_DOORBELL m)) (v : Word) :
    s.writeReg r (R.MC_DOORBELL m) v = (s.setW (R.MC_DOORBELL m) (s.w (R.MC_DOORBELL m) ||| v)).fin .ok := by
  obtain ⟨alive, map, test⟩ := h
  have hm := m.isLt
  have ha : R.MC_DOORBELL m = 0x43001C + 0x40000 * m := rfl
  have offset : (R.MC_DOORBELL m - 0x400000) % 0x40000 - 0x30000 = 0x1C := by omega
  have index : Fin.ofNat 16 ((R.MC_DOORBELL m - 0x400000) / 0x40000) = m := Fin.ext (by rw [Fin.val_ofNat]; omega)
  rw [State.writeReg_mason (by omega) (by omega) (by omega), writeMason, if_neg (by omega), if_neg (by omega), if_neg (by omega)]
  simp only [offset, index]
  exact (State.via_act alive _).trans (regWrite_eff _ _ noLock _ _ rfl map test)

theorem State.writeReg_PQ_PUSH {s : State} {r : Req} {q : Fin 64} (h : s.takes r (R.PQ_PUSH q)) (v : Word) :
    s.writeReg r (R.PQ_PUSH q) v =
      if (s.pq q).full then (s.pqFlag q 5).fin .ok else (s.setPq q ((s.pq q).push v)).fin .ok := by
  obtain ⟨alive, map, test⟩ := h
  have hq := q.isLt
  have ha : R.PQ_PUSH q = 0xC0000 + 0x40 * q := rfl
  have offset : (R.PQ_PUSH q - 0xC0000) % 0x40 = 0 := by omega
  have index : Fin.ofNat 64 ((R.PQ_PUSH q - 0xC0000) / 0x40) = q := Fin.ext (by rw [Fin.val_ofNat]; omega)
  rw [State.writeReg_pallet (by omega) (by omega) (by omega), writePallet, if_pos (by omega)]
  simp only [offset, index]
  exact (State.via_act alive _).trans (regWrite_eff _ _ noLock _ _ rfl map test)

/-! ### The row REGISTER_WRITE -/

theorem exec_registerWrite {s : State} {r : Req} {a : Nat} (h : s.takes r a) (ha : a < 2 ^ 32) (v : Word) :
    exec (.registerWrite r (BitVec.ofNat 32 a) v) s = .next (s.writeReg r a v) := by
  have e : exec (.registerWrite r (BitVec.ofNat 32 a) v) s = act (fun s => s.writeReg r (BitVec.ofNat 32 a).toNat v) s := rfl
  rw [e, act_alive _ _ h.1, BitVec.toNat_ofNat, Nat.mod_eq_of_lt ha]

theorem exec_registerWrite_plain {s : State} {r : Req} {a : Nat} (h : s.takes r a) (ha : a < 2 ^ 32) {v : Word}
    (hp : s.writeReg r a v = plainWrite r a v s) :
    exec (.registerWrite r (BitVec.ofNat 32 a) v) s = .next ((s.store a v).fin .ok) := by
  rw [exec_registerWrite h ha, hp, plainWrite_of_takes h]

theorem exec_registerWrite_no_bits {s : State} {r : Req} {a : Nat} (h : s.takes r a) (ha : a < 2 ^ 32) {v : Word}
    (hp : s.writeReg r a v = plainWrite r a v s) (hm : writeMask a = (0#32, 0#32, 0#32)) :
    ∃ t, exec (.registerWrite r (BitVec.ofNat 32 a) v) s = .next t ∧ t.cpl = ⟨.ok, []⟩ ∧
      (∀ i, t.w i = s.w i) ∧ t.mem = s.mem ∧ t.nvm = s.nvm :=
  ⟨_, exec_registerWrite_plain h ha hp, rfl, State.store_w_of_no_bits s hm v, State.store_mem .., State.store_nvm ..⟩

theorem writeMask_TU_HYST (u : Fin 64) : writeMask (R.TU_HYST u) = (0xFFFFFF#32, 0#32, 0#32) := by
  revert u; decide +kernel

theorem writeMask_EVT_MASK : writeMask R.EVT_MASK = (0x7FFE#32, 0#32, 0#32) := by decide +kernel

theorem writeMask_TRIG_EVT : writeMask R.TRIG_EVT = (0#32, 3#32, 0#32) := by decide +kernel

theorem State.store_TU_HYST_H (s : State) (u : Fin 64) (v : Word) :
    (s.store (R.TU_HYST u) v).f (F.TU_HYST_H u) = v.toNat % 2 ^ 24 := by
  have keeps : bits (~~~0xFFFFFF#32).toNat 23 0 = 0 := by decide
  have takes : bits (0xFFFFFF#32 ||| 0#32).toNat 23 0 = 2 ^ 24 - 1 := by decide
  have f := State.store_f_of_rw s (x := F.TU_HYST_H u) (writeMask_TU_HYST u) keeps takes v
  rwa [F.TU_HYST_H, bits, pow_zero, Nat.div_one] at f

theorem State.store_EVT_MASK_EN (s : State) (v : Word) : (s.store R.EVT_MASK v).f F.EVT_MASK_EN = bits v.toNat 14 1 :=
  State.store_f_of_rw s (x := F.EVT_MASK_EN) writeMask_EVT_MASK (by decide) (by decide) v

theorem State.store_w_TRIG_EVT (s : State) (v : Word) : (s.store R.TRIG_EVT v).w R.TRIG_EVT = s.w R.TRIG_EVT &&& ~~~(v &&& 3#32) := by
  rw [State.store_w_same, writeMask_TRIG_EVT]
  dsimp only
  rw [and_not_zero, BitVec.or_zero, BitVec.and_zero, BitVec.or_zero]

/-- Settles O28: a register without a rule of its own takes what its write mask says, and the doorbell and PQ_PUSH the effect of their row. -/
theorem registerWriteTakesEffect : Obligations.RegisterWriteTakesEffect := by
  refine ⟨fun s r u v h => ?hysteresis, fun s r v h => ?eventMask, fun s r v h => ?trigEvt, fun s r m v h => ?doorbell,
    fun s r q v h => ?push,
    fun s r v h => exec_registerWrite_no_bits h (by decide) rfl (by decide +kernel),
    fun s r v h => exec_registerWrite_no_bits h (by decide) rfl (by decide +kernel),
    fun s r v h => exec_registerWrite_no_bits h (by decide) rfl (by decide +kernel),
    fun s r v h => exec_registerWrite_no_bits h (by decide) rfl (by decide +kernel),
    fun s r v h => exec_registerWrite_no_bits (a := 0x4FFC0) h (by decide) rfl (by decide +kernel)⟩
  case hysteresis =>
    have ha : R.TU_HYST u < 2 ^ 32 := by unfold R.TU_HYST; omega
    exact ⟨_, exec_registerWrite_plain h ha (State.writeReg_TU_HYST ..), rfl, State.store_TU_HYST_H s u v,
      fun i n => State.store_w_other s v n⟩
  case eventMask =>
    exact ⟨_, exec_registerWrite_plain h (by decide) rfl, rfl, State.store_EVT_MASK_EN s v, fun i n => State.store_w_other s v n⟩
  case trigEvt =>
    exact ⟨_, exec_registerWrite_plain h (by decide) rfl, rfl, State.store_w_TRIG_EVT s v, fun i n => State.store_w_other s v n⟩
  case doorbell =>
    have ha : R.MC_DOORBELL m < 2 ^ 32 := by unfold R.MC_DOORBELL; omega
    rw [exec_registerWrite h ha, State.writeReg_MC_DOORBELL h]
    exact ⟨_, rfl, rfl, State.setW_w_same .., fun i n => State.setW_w_other _ _ _ _ n⟩
  case push =>
    have ha : R.PQ_PUSH q < 2 ^ 32 := by unfold R.PQ_PUSH; omega
    rw [exec_registerWrite h ha, State.writeReg_PQ_PUSH h]
    cases (s.pq q).full with
    | true => exact ⟨_, rfl, rfl, fun n => nomatch n⟩
    | false => exact ⟨_, rfl, rfl, fun _ => ⟨State.setPq_same .., fun i => rfl⟩⟩

end Sys2Proof.Machine
end

section
/-!
PROOFS. Every command answers a next state, which keeps the queue as it stands and the canonical form of the tables (R31, R106, R184, R446).
-/

namespace Sys2Proof.Machine

/-- The arms of `exec`: each is the meaning whose lemma says what it keeps. -/
theorem exec_next (i : Instr) (s : State) : ∃ t, exec i s = .next t ∧ Keeps s t := by
  cases i with
  | registerWrite r a v => exact execRegisterWrite_next r a v s
  | rcRead r a => exact execRcRead_next r a s
  | lowWordRead r a bad => exact execLowWordRead_next r a bad s
  | crossingUncorr b => exact execCrossingUncorr_next b s
  | scrub b fixed uncorr => exact execScrub_next b fixed uncorr s
  | hello p host primary depth port hid => exact execHello_next p host primary depth port hid s
  | routeAdd p hids => exact execRouteAdd_next p hids s
  | routeDel p hids => exact execRouteDel_next p hids s
  | downstreamRoute p header payload => exact execDownstreamRoute_next p header payload s
  | relayHod p ok header payload => exact execRelayHod_next p ok header payload s
  | convertSample t sl code edge tau => exact execConvertSample_next t sl code edge tau s
  | gainChange r t ch v => exact execGainChange_next r t ch v s
  | gainSettleDone t ch => exact execGainSettleDone_next t ch s
  | tileCtlWrite r t ilv v => exact execTileCtlWrite_next r t ilv v s
  | tileApply r t v => exact execTileApply_next r t v s
  | tileWake t => exact execTileWake_next t s
  | tileReady t trims => exact execTileReady_next t trims s
  | tileSleep t => exact execTileSleep_next t s
  | rotationBoundary t => exact execRotationBoundary_next t s
  | handIn t => exact execHandIn_next t s
  | sliceCalDone t trim => exact execSliceCalDone_next t trim s
  | handBack t => exact execHandBack_next t s
  | fadeResidualDone t => exact execFadeResidualDone_next t s
  | spareCalDone t trim => exact execSpareCalDone_next t trim s
  | skewUpdate t k quiet est => exact execSkewUpdate_next t k quiet est s
  | excCtlWrite r t lvl v => exact execExcCtlWrite_next r t lvl v s
  | excRampStep t iload => exact execExcRampStep_next t iload s
  | excFault t iload => exact execExcFault_next t iload s
  | tileUncorr t => exact execTileUncorr_next t s
  | stLoad r v => exact execStLoad_next r v s
  | gridPerWrite r g frac v => exact execGridPerWrite_next r g frac v s
  | gridCtlWrite r g v => exact execGridCtlWrite_next r g v s
  | gridStop r g v => exact execGridStop_next r g v s
  | gridSyncAt r m => exact execGridSyncAt_next r m s
  | gridSyncNextSec r m => exact execGridSyncNextSec_next r m s
  | gridSyncCancel r m => exact execGridSyncCancel_next r m s
  | gridSyncInstant g edge => exact execGridSyncInstant_next g edge s
  | courseInstant g edge tau => exact execCourseInstant_next g edge tau s
  | smplCtlWrite r mclk v => exact execSmplCtlWrite_next r mclk v s
  | smplPhaseWrite r v => exact execSmplPhaseWrite_next r v s
  | mclkLockAcquired freq => exact execMclkLockAcquired_next freq s
  | mclkRelock r v => exact execMclkRelock_next r v s
  | mclkLoss los freq => exact execMclkLoss_next los freq s
  | mclkReturn freq => exact execMclkReturn_next freq s
  | ppsInEdge t falling => exact execPpsInEdge_next t falling s
  | ppsMiss => exact execPpsMiss_next s
  | todMessage bytes frameErr => exact execTodMessage_next bytes frameErr s
  | ppsOutRise => exact execPpsOutRise_next s
  | ppsOutFall => exact execPpsOutFall_next s
  | rtcGo r v => exact execRtcGo_next r v s
  | rtcFollow => exact execRtcFollow_next s
  | xtalStop => exact execXtalStop_next s
  | fpConfigWrite r t p which v => exact execFpConfigWrite_next r t p which v s
  | coefWrite r t p b k v => exact execCoefWrite_next r t p b k v s
  | filterOutput t p => exact execFilterOutput_next t p s
  | fadeGo r t p v => exact execFadeGo_next r t p v s
  | fadeBlendStart t p => exact execFadeBlendStart_next t p s
  | fadeDone t p => exact execFadeDone_next t p s
  | detCtlWrite r t d which v => exact execDetCtlWrite_next r t d which v s
  | detectOutput t d => exact execDetectOutput_next t d s
  | feUncorr x => exact execFeUncorr_next x s
  | tuCtlWrite r u src v => exact execTuCtlWrite_next r u src v s
  | tuEvaluate u n => exact execTuEvaluate_next u n s
  | holdoffEnd u => exact execHoldoffEnd_next u s
  | tuAutoForce u => exact execTuAutoForce_next u s
  | groupEvaluate g n => exact execGroupEvaluate_next g n s
  | windowClose g => exact execWindowClose_next g s
  | trigioPulseEnd k => exact execTrigioPulseEnd_next k s
  | storeRelease sid => exact execStoreRelease_next sid s
  | wsLinkWrite r l v => exact execWsLinkWrite_next r l v s
  | tgCtlWrite r g post v => exact execTgCtlWrite_next r g post v s
  | rpWrite r p which v => exact execRpWrite_next r p which v s
  | deltaHeartbeat sid => exact execDeltaHeartbeat_next sid s
  | trigUncorr => exact execTrigUncorr_next s
  | streamAdd p tag ws => exact execStreamAdd_next p tag ws s
  | streamDel p tag ws => exact execStreamDel_next p tag ws s
  | sidFree sid => exact execSidFree_next sid s
  | seConfigWrite r sid which v => exact execSeConfigWrite_next r sid which v s
  | streamActivate r sid v => exact execStreamActivate_next r sid v s
  | streamDeactivate r sid v => exact execStreamDeactivate_next r sid v s
  | mcGo r m v => exact execMcGo_next r m v s
  | mcHalt r m v => exact execMcHalt_next r m v s
  | masonHalted m => exact execMasonHalted_next m s
  | mcStop r m v => exact execMcStop_next r m v s
  | masonMemWrite r m t v => exact execMasonMemWrite_next r m t v s
  | doorbellWrite r m v => exact execDoorbellWrite_next r m v s
  | masonWake m => exact execMasonWake_next m s
  | trapTaken m => exact execTrapTaken_next m s
  | masonUncorr m e => exact execMasonUncorr_next m e s
  | begin p tag ws => exact execBegin_next p tag ws s
  | data p tag ws => exact execData_next p tag ws s
  | commit p tag ws vh => exact execCommit_next p tag ws vh s
  | abort p tag ws => exact execAbort_next p tag ws s
  | pqPush r q v => exact execPqPush_next r q v s
  | pqPop r q => exact execPqPop_next r q s
  | pqFlush r q v => exact execPqFlush_next r q v s
  | pqOpen r q v => exact execPqOpen_next r q v s
  | pqClose r q v => exact execPqClose_next r q v s
  | pqUncorr q => exact execPqUncorr_next q s
  | add m gd ga gb => exact execAdd_next m gd ga gb s
  | sub m gd ga gb => exact execSub_next m gd ga gb s
  | and m gd ga gb => exact execAnd_next m gd ga gb s
  | or m gd ga gb => exact execOr_next m gd ga gb s
  | xor m gd ga gb => exact execXor_next m gd ga gb s
  | sll m gd ga gb => exact execSll_next m gd ga gb s
  | srl m gd ga gb => exact execSrl_next m gd ga gb s
  | sra m gd ga gb => exact execSra_next m gd ga gb s
  | slli m gd ga sh => exact execSlli_next m gd ga sh s
  | srli m gd ga sh => exact execSrli_next m gd ga sh s
  | srai m gd ga sh => exact execSrai_next m gd ga sh s
  | slt m gd ga gb => exact execSlt_next m gd ga gb s
  | sltu m gd ga gb => exact execSltu_next m gd ga gb s
  | min m gd ga gb => exact execMin_next m gd ga gb s
  | max m gd ga gb => exact execMax_next m gd ga gb s
  | minu m gd ga gb => exact execMinu_next m gd ga gb s
  | maxu m gd ga gb => exact execMaxu_next m gd ga gb s
  | mul m gd ga gb => exact execMul_next m gd ga gb s
  | mulh m gd ga gb => exact execMulh_next m gd ga gb s
  | mulhu m gd ga gb => exact execMulhu_next m gd ga gb s
  | ctz m gd ga => exact execCtz_next m gd ga s
  | clz m gd ga => exact execClz_next m gd ga s
  | popc m gd ga => exact execPopc_next m gd ga s
  | cmp m ga gb => exact execCmp_next m ga gb s
  | tst m ga gb => exact execTst_next m ga gb s
  | jr m ga => exact execJr_next m ga s
  | jalr m gd ga => exact execJalr_next m gd ga s
  | addi m gd ga imm => exact execAddi_next m gd ga imm s
  | andi m gd ga imm => exact execAndi_next m gd ga imm s
  | ori m gd ga imm => exact execOri_next m gd ga imm s
  | xori m gd ga imm => exact execXori_next m gd ga imm s
  | slti m gd ga imm => exact execSlti_next m gd ga imm s
  | sltiu m gd ga imm => exact execSltiu_next m gd ga imm s
  | lui m gd imm => exact execLui_next m gd imm s
  | cmpi m ga imm => exact execCmpi_next m ga imm s
  | ldw m gd ga off => exact execLdw_next m gd ga off s
  | ldh m gd ga off => exact execLdh_next m gd ga off s
  | ldhu m gd ga off => exact execLdhu_next m gd ga off s
  | ldb m gd ga off => exact execLdb_next m gd ga off s
  | ldbu m gd ga off => exact execLdbu_next m gd ga off s
  | stw m gs ga off => exact execStw_next m gs ga off s
  | sth m gs ga off => exact execSth_next m gs ga off s
  | stb m gs ga off => exact execStb_next m gs ga off s
  | vld m vd ga off => exact execVld_next m vd ga off s
  | vst m vs ga off => exact execVst_next m vs ga off s
  | rld m gd ga off => exact execRld_next m gd ga off s
  | bCond m cond off => exact execBCond_next m cond off s
  | bl m off => exact execBl_next m off s
  | vadd m vd va vb => exact execVadd_next m vd va vb s
  | vsub m vd va vb => exact execVsub_next m vd va vb s
  | vadds m vd va vb => exact execVadds_next m vd va vb s
  | vsubs m vd va vb => exact execVsubs_next m vd va vb s
  | vmul m vd va vb => exact execVmul_next m vd va vb s
  | vmulq m vd va vb => exact execVmulq_next m vd va vb s
  | vmin m vd va vb => exact execVmin_next m vd va vb s
  | vmax m vd va vb => exact execVmax_next m vd va vb s
  | vand m vd va vb => exact execVand_next m vd va vb s
  | vor m vd va vb => exact execVor_next m vd va vb s
  | vxor m vd va vb => exact execVxor_next m vd va vb s
  | vcgt m vd va vb => exact execVcgt_next m vd va vb s
  | vceq m vd va vb => exact execVceq_next m vd va vb s
  | vabs m vd va => exact execVabs_next m vd va s
  | vpair m vd va => exact execVpair_next m vd va s
  | vsat24 m vd va => exact execVsat24_next m vd va s
  | vmov m vd va => exact execVmov_next m vd va s
  | vsplat m vd ga => exact execVsplat_next m vd ga s
  | vext m gd va lane => exact execVext_next m gd va lane s
  | vins m vd ga lane => exact execVins_next m vd ga lane s
  | vmask m vd ga => exact execVmask_next m vd ga s
  | vmovmsk m gd va => exact execVmovmsk_next m gd va s
  | vredsum m gd va => exact execVredsum_next m gd va s
  | vredmax m gd va => exact execVredmax_next m gd va s
  | vredmin m gd va => exact execVredmin_next m gd va s
  | vargmax m gd va => exact execVargmax_next m gd va s
  | vslli m vd va sh => exact execVslli_next m vd va sh s
  | vsrai m vd va sh => exact execVsrai_next m vd va sh s
  | vsrli m vd va sh => exact execVsrli_next m vd va sh s
  | vaddg m vd va ga => exact execVaddg_next m vd va ga s
  | vcgtg m vd va ga => exact execVcgtg_next m vd va ga s
  | course m gd vd => exact execCourse_next m gd vd s
  | courseW m gd vd => exact execCourseW_next m gd vd s
  | tget m gd => exact execTget_next m gd s
  | tgetc m gd ga => exact execTgetc_next m gd ga s
  | hopen m gd ga gb => exact execHopen_next m gd ga gb s
  | hput m ga gb gc => exact execHput_next m ga gb gc s
  | hclose m ga => exact execHclose_next m ga s
  | mark m ga gb gc gd => exact execMark_next m ga gb gc gd s
  | gap m ga gb gc => exact execGap_next m ga gb gc s
  | pqget m gd ga => exact execPqget_next m gd ga s
  | pqput m ga gb => exact execPqput_next m ga gb s
  | pqputn m ga gb => exact execPqputn_next m ga gb s
  | pqopen m ga gb => exact execPqopen_next m ga gb s
  | pqclose m ga => exact execPqclose_next m ga s
  | pqflush m ga => exact execPqflush_next m ga s
  | pqcnt m gd ga => exact execPqcnt_next m gd ga s
  | wait m gd ga src => exact execWait_next m gd ga src s
  | evt m ga code => exact execEvt_next m ga code s
  | trap m imm => exact execTrap_next m imm s
  | rft m => exact execRft_next m s
  | mff m gd => exact execMff_next m gd s
  | mtf m ga => exact execMtf_next m ga s
  | sprd m gd n => exact execSprd_next m gd n s
  | sprw m ga n => exact execSprw_next m ga n s
  | hodHandOn sid => exact execHodHandOn_next sid s
  | yardFlushExpire sid => exact execYardFlushExpire_next sid s
  | hodAdmit => exact execHodAdmit_next s
  | streamHodTransmit p => exact execStreamHodTransmit_next p s
  | horizon p ws => exact execHorizon_next p ws s
  | rewind p ws => exact execRewind_next p ws s
  | reserveHodWrite p sid => exact execReserveHodWrite_next p sid s
  | drainEnd => exact execDrainEnd_next s
  | yardScrub fixed uncorr => exact execYardScrub_next fixed uncorr s
  | rsvUncorr => exact execRsvUncorr_next s
  | yardSrefEnter => exact execYardSrefEnter_next s
  | ringCfgWrite r p v => exact execRingCfgWrite_next r p v s
  | pkCtlWrite r t v => exact execPkCtlWrite_next r t v s
  | blockEnd e => exact execBlockEnd_next e s
  | pcCtlWrite r e v => exact execPcCtlWrite_next r e v s
  | pcMresWrite r e v => exact execPcMresWrite_next r e v s
  | pxGo r v => exact execPxGo_next r v s
  | pxJobEnd => exact execPxJobEnd_next s
  | pressUncorr => exact execPressUncorr_next s
  | quadCtlWrite r q v => exact execQuadCtlWrite_next r q v s
  | portRetrain r q v => exact execPortRetrain_next r q v s
  | detectDone n => exact execDetectDone_next n s
  | trainingSet n ts => exact execTrainingSet_next n ts s
  | orderDecide p first own => exact execOrderDecide_next p first own s
  | trainTimeout n => exact execTrainTimeout_next n s
  | backoffExpire p => exact execBackoffExpire_next p s
  | eqConverged n ctle dfe => exact execEqConverged_next n ctle dfe s
  | laneDown p cause => exact execLaneDown_next p cause s
  | losChange n mv lol => exact execLosChange_next n mv lol s
  | qpllLoss q refclk => exact execQpllLoss_next q refclk s
  | codeError n l => exact execCodeError_next n l s
  | groutSend n => exact execGroutSend_next n s
  | groutReceive n g data fill => exact execGroutReceive_next n g data fill s
  | ebSlip n => exact execEbSlip_next n s
  | eqFreeze x => exact execEqFreeze_next x s
  | laneCtlWrite r n v => exact execLaneCtlWrite_next r n v s
  | prbsCtlWrite r q v => exact execPrbsCtlWrite_next r q v s
  | inj1 r q v => exact execInj1_next r q v s
  | injb r q v => exact execInjb_next r q v s
  | prbsLock x => exact execPrbsLock_next x s
  | prbsLockLost q before last => exact execPrbsLockLost_next q before last s
  | hodArrival p lines => exact execHodArrival_next p lines s
  | link p nak seq l0 l1 l2 l3 => exact execLink_next p nak seq l0 l1 l2 l3 s
  | linkHodSend p => exact execLinkHodSend_next p s
  | replayTimeout p => exact execReplayTimeout_next p s
  | linkSilent p => exact execLinkSilent_next p s
  | read p tag ws => exact execRead_next p tag ws s
  | write p tag ws => exact execWrite_next p tag ws s
  | eventHodSend => exact execEventHodSend_next s
  | linkCfgWrite r v => exact execLinkCfgWrite_next r v s
  | tReqSend second t1 => exact execTReqSend_next second t1 s
  | tReq p hid tsid t2 t3 => exact execTReq_next p hid tsid t2 t3 s
  | tResp p tsid steps q t2 t3 t4 => exact execTResp_next p tsid steps q t2 t3 t4 s
  | srcLost => exact execSrcLost_next s
  | ttProbe r v t => exact execTtProbe_next r v t s
  | tsqPop r p => exact execTsqPop_next r p s
  | ttStepImmediate r v => exact execTtStepImmediate_next r v s
  | ttStepNextSec r v => exact execTtStepNextSec_next r v s
  | ttStepCancel r v => exact execTtStepCancel_next r v s
  | forcedSlew r v => exact execForcedSlew_next r v s
  | timeStep => exact execTimeStep_next s
  | timeSrcWrite r v => exact execTimeSrcWrite_next r v s
  | ttAsymWrite r second v => exact execTtAsymWrite_next r second v s
  | ttCtlWrite r v => exact execTtCtlWrite_next r v s
  | apply r arg vh => exact execApply_next r arg vh s
  | reload r => exact execReload_next r s
  | fwBlock r arg vh => exact execFwBlock_next r arg vh s
  | fwCommit r arg vh => exact execFwCommit_next r arg vh s
  | meterSample j edge tau => exact execMeterSample_next j edge tau s
  | intervalEnd j vh => exact execIntervalEnd_next j vh s
  | meterRecordPlace j => exact execMeterRecordPlace_next j s
  | sealOpen => exact execSealOpen_next s
  | sealClose => exact execSealClose_next s
  | identityDone => exact execIdentityDone_next s
  | csUncorr => exact execCsUncorr_next s
  | mgpNop frame edges => exact execMgpNop_next frame edges s
  | mgpRepeat frame edges => exact execMgpRepeat_next frame edges s
  | mgpRead frame edges => exact execMgpRead_next frame edges s
  | mgpWrite frame edges => exact execMgpWrite_next frame edges s
  | mgpAccessDone => exact execMgpAccessDone_next s
  | mgpResponseLoad => exact execMgpResponseLoad_next s
  | modeOwnerWrite r v => exact execModeOwnerWrite_next r v s
  | ownerForced r own => exact execOwnerForced_next r own s
  | ownerReleased jtag => exact execOwnerReleased_next jtag s
  | guardConversion k code => exact execGuardConversion_next k code s
  | hkGo r v => exact execHkGo_next r v s
  | hkPeriodTick => exact execHkPeriodTick_next s
  | hkSeqEntry sum => exact execHkSeqEntry_next sum s
  | hkRunEnd => exact execHkRunEnd_next s
  | hkCtlWrite r v => exact execHkCtlWrite_next r v s
  | por => exact execPor_next s
  | bor x => exact execBor_next x s
  | pin x => exact execPin_next x s
  | wdogExpire x => exact execWdogExpire_next x s
  | wdtKick r v => exact execWdtKick_next r v s
  | soft r v n => exact execSoft_next r v n s
  | debugReset n => exact execDebugReset_next n s
  | clkf clock n => exact execClkf_next clock n s
  | lockup x => exact execLockup_next x s
  | nvBatchDone => exact execNvBatchDone_next s
  | mainPowerGood => exact execMainPowerGood_next s
  | optionLoad raw errA errB => exact execOptionLoad_next raw errA errB s
  | readA r => exact execReadA_next r s
  | readB r => exact execReadB_next r s
  | writeA r vh => exact execWriteA_next r vh s
  | writeB r vh => exact execWriteB_next r vh s
  | nvCmd r v vh => exact execNvCmd_next r v vh s
  | releaseStep vh => exact execReleaseStep_next vh s
  | blkRst r v => exact execBlkRst_next r v s
  | modeAcquire r => exact execModeAcquire_next r s
  | modeHold r => exact execModeHold_next r s
  | modeSafe r => exact execModeSafe_next r s
  | modeDormant r nokiln discard => exact execModeDormant_next r nokiln discard s
  | modeBringup r => exact execModeBringup_next r s
  | safeEntry cause => exact execSafeEntry_next cause s
  | alertCtlWrite r v => exact execAlertCtlWrite_next r v s
  | trigioCtlWrite r k v => exact execTrigioCtlWrite_next r k v s
  | segmentEnd run fault patterns map => exact execSegmentEnd_next run fault patterns map s
  | kilnDone vh => exact execKilnDone_next vh s
  | kilnGo r v => exact execKilnGo_next r v s
  | intscan => exact execIntscan_next s
  | dbgReset n => exact execDbgReset_next n s
  | extest seen set_ => exact execExtest_next seen set_ s
  | samplePreload seen set_ => exact execSamplePreload_next seen set_ s
  | idcode => exact execIdcode_next s
  | clamp => exact execClamp_next s
  | highz => exact execHighz_next s
  | extestPulse seen set_ => exact execExtestPulse_next seen set_ s
  | extestTrain seen set_ => exact execExtestTrain_next seen set_ s
  | bypass => exact execBypass_next s
  | logClear r v => exact execLogClear_next r v s
  | quadPllLock q => exact execQuadPllLock_next q s
  | vddAonPowerOn => exact execVddAonPowerOn_next s
  | rstNHigh => exact execRstNHigh_next s
  | vddCstLoss => exact execVddCstLoss_next s
  | vddCstReturn => exact execVddCstReturn_next s
  | vbatLoss => exact execVbatLoss_next s
  | mainPowerLoss => exact execMainPowerLoss_next s

/-- A step keeps the tables canonical: the command at the front of the queue, or the SYS cycle of an empty one. -/
theorem canon_of_step {s t : State} (hs : s.Canon) (h : step s = .next t) : t.Canon := by
  unfold step at h
  split at h
  · cases h
    exact (State.tick_keeps (Keeps.refl s)).canon hs
  · next c cs _ =>
    obtain ⟨u, hu, k⟩ := exec_next c { s with pending := cs }
    cases hu.symm.trans h
    exact k.canon hs

/-- Settles O4: no command and no SYS cycle writes a table other than through `Tab.set` and `List.filter`. -/
theorem everyStepKeepsTheTablesCanonical : Obligations.EveryStepKeepsTheTablesCanonical :=
  fun _ _ regs mem shadows h => canon_of_step ⟨regs, mem, shadows⟩ h

end Sys2Proof.Machine
end

section
/-!
PROOFS. An access without the requester's right has no effect (R29, R31): every write of the map asks the map before its register.
-/

namespace Sys2Proof.Machine

/-! ### Where a requester may not write -/

/-- The map gives the requester no right to write at an address; the yard window, RO for the host, answers otherwise (R30). -/
def MayNotWrite (r : Req) (a : Nat) : Prop := accOf r a = .no ∨ accOf r a = .ro ∧ a < 0x20000000

/-- The requester may write nowhere from `lo` up to `hi`. -/
def NoWrites (r : Req) (lo hi : Nat) : Prop := ∀ a, lo ≤ a ∧ a < hi → MayNotWrite r a

/-- An aligned write that the map refuses with ADDR is one without the right to it. -/
theorem mayNotWrite_of_mapStop {s : State} {r : Req} {a : Nat} (h4 : a % 4 = 0) (h : s.mapStop r a true = some .addr) :
    MayNotWrite r a := by
  unfold MayNotWrite
  cases k : accOf r a with
  | no => exact .inl rfl
  | ro =>
    rw [State.mapStop_ro_write h4 k] at h
    split at h
    · cases h
    · next lt => exact .inr ⟨rfl, Nat.lt_of_not_le lt⟩
  | rw =>
    simp only [State.mapStop, h4, k] at h
    cases r <;> simp at h

theorem mapStop_of_mayNotWrite {r : Req} {a : Nat} (h : MayNotWrite r a) (s : State) : s.mapStop r a true = some .addr := by
  rcases Nat.eq_zero_or_pos (a % 4) with h4 | h4
  · rcases h with no | ⟨ro, lt⟩
    · exact State.mapStop_no h4 no
    · rw [State.mapStop_ro_write h4 ro, if_neg (by omega)]
  · exact State.mapStop_misaligned (by omega)

/-- The addresses at which the access of the map changes. -/
def regionBounds : List Nat :=
  [0x10000, 0x20000, 0x40000, 0x70000, 0x80000, 0x90000, 0xA0000, 0xB0000, 0xC0000, 0xD0000, 0x100000, 0x140000, 0x200000, 0x380000,
    0x400000, 0x800000, 0x20000000, 0x40000000]

theorem regionAcc_congr {a b : Nat} (h : ∀ n ∈ regionBounds, a < n ↔ b < n) : regionAcc a = regionAcc b := by
  simp only [regionBounds, List.forall_mem_cons] at h
  simp only [regionAcc, h]

/-- Two addresses with no bound between them give a requester the same access. -/
theorem noWrites_of_mem {r : Req} {a lo hi : Nat} (h : MayNotWrite r a) (ha : lo ≤ a ∧ a < hi)
    (gap : ∀ n ∈ regionBounds, n ≤ lo ∨ hi ≤ n) : NoWrites r lo hi := by
  intro b hb
  have same : ∀ n ∈ regionBounds, b < n ↔ a < n := fun n hn => by have := gap n hn; omega
  have acc : accOf r b = accOf r a := by simp only [accOf, regionAcc_congr same]
  have window : b < 0x20000000 ↔ a < 0x20000000 := same _ (by decide)
  rwa [MayNotWrite, acc, window]

/-! ### What a refused write leaves -/

/-- The access has completed with ADDR and nothing else has changed; free values may have been drawn. -/
def State.AddrOnly (s t : State) : Prop := ∃ n, t = { s.fin .addr with free := n }

theorem State.AddrOnly.ite {s x y : State} {c : Prop} [Decidable c] (h : c → s.AddrOnly x) (k : ¬c → s.AddrOnly y) :
    s.AddrOnly (if c then x else y) := by
  split
  · next hc => exact h hc
  · next hc => exact k hc

/-- Drawing a free value beforehand makes no difference. -/
theorem State.AddrOnly.of_draw {s t : State} {w : Nat} (h : (s.draw w).1.AddrOnly t) : s.AddrOnly t := h

theorem State.fin_addrOnly (s : State) : s.AddrOnly (s.fin .addr) := ⟨s.free, rfl⟩

section

variable {r : Req} {a : Nat}

theorem MayNotWrite.acc_beq_rw (h : MayNotWrite r a) : (accOf r a == .rw) = false := by
  rcases h with e | ⟨e, -⟩ <;> rw [e] <;> rfl

theorem regWrite_addrOnly (h : MayNotWrite r a) (locked : State → Bool) (eff : State → State) (s : State) :
    s.AddrOnly (regWrite r a locked eff s) := by
  rw [regWrite, h.acc_beq_rw, Bool.and_false, mapStop_of_mayNotWrite h]
  exact s.fin_addrOnly

theorem checkedWrite_addrOnly (h : MayNotWrite r a) (stop : State → Option Status) (v : Word) (s : State) :
    s.AddrOnly (checkedWrite r a stop v s) := regWrite_addrOnly h ..

theorem plainWrite_addrOnly (h : MayNotWrite r a) (v : Word) (s : State) : s.AddrOnly (plainWrite r a v s) :=
  checkedWrite_addrOnly h ..

theorem via_act_addrOnly {s : State} (alive : s.alive = true) {f : State → State} (h : s.AddrOnly (f s)) : s.AddrOnly (s.via (act f)) := by
  rwa [State.via_act alive]

/-- A command that is a write of one register. -/
theorem via_regWrite_addrOnly {s : State} (alive : s.alive = true) (h : MayNotWrite r a) (locked : State → Bool) (eff : State → State) :
    s.AddrOnly (s.via (act (regWrite r a locked eff))) := via_act_addrOnly alive (regWrite_addrOnly h ..)

theorem via_draw_regWrite_addrOnly {s : State} (alive : s.alive = true) (h : MayNotWrite r a) (w : Nat) (locked : State → Bool)
    (eff : State → State) : s.AddrOnly ((s.draw w).1.via (act (regWrite r a locked eff))) :=
  .of_draw (w := w) (via_regWrite_addrOnly (s := (s.draw w).1) alive h ..)

end

/-! ### The commands that choose between registers -/

section

variable {s : State} {r : Req} (alive : s.alive = true) (v : Word)
include alive

theorem execSmplCtlWrite_addrOnly (h : NoWrites r 0x20000 0x40000) (mclk : Bool) : s.AddrOnly (s.via (execSmplCtlWrite r mclk v)) :=
  via_act_addrOnly alive (.ite (fun _ => regWrite_addrOnly (h _ (by decide)) ..) fun _ =>
    regWrite_addrOnly (h _ (by decide)) ..)

theorem execTileCtlWrite_addrOnly (h : NoWrites r 0x200000 0x380000) (t : Fin 24) (ilv : Bool) :
    s.AddrOnly (s.via (execTileCtlWrite r t ilv v)) :=
  via_act_addrOnly alive (.ite
    (fun _ => regWrite_addrOnly (h _ (by unfold R.TILE_ILV; omega)) ..) fun _ =>
    regWrite_addrOnly (h _ (by unfold R.TILE_CTL; omega)) ..)

theorem execExcCtlWrite_addrOnly (h : NoWrites r 0x200000 0x380000) (t : Fin 24) (lvl : Bool) :
    s.AddrOnly (s.via (execExcCtlWrite r t lvl v)) :=
  via_act_addrOnly alive (.ite
    (fun _ => regWrite_addrOnly (h _ (by unfold R.EXC_LVL; omega)) ..) fun _ =>
    regWrite_addrOnly (h _ (by unfold R.EXC_CTL; omega)) ..)

theorem execTuCtlWrite_addrOnly (h : NoWrites r 0x40000 0x70000) (u : Fin 64) (src : Bool) : s.AddrOnly (s.via (execTuCtlWrite r u src v)) :=
  via_act_addrOnly alive (.ite
    (fun _ => regWrite_addrOnly (h _ (by unfold R.TU_SRC; omega)) ..) fun _ =>
    regWrite_addrOnly (h _ (by unfold R.TU_CTL; omega)) ..)

theorem execTgCtlWrite_addrOnly (h : NoWrites r 0x40000 0x70000) (g : Fin 64) (post : Bool) : s.AddrOnly (s.via (execTgCtlWrite r g post v)) :=
  via_act_addrOnly alive (.ite
    (fun _ => regWrite_addrOnly (h _ (by unfold R.TG_POST; omega)) ..) fun _ =>
    regWrite_addrOnly (h _ (by unfold R.TG_CTL; omega)) ..)

theorem execFpConfigWrite_addrOnly (h : NoWrites r 0x200000 0x380000) (t : Fin 24) (p : Fin 8) (which : Fin 4) :
    s.AddrOnly (s.via (execFpConfigWrite r t p which v)) := by
  refine via_act_addrOnly alive ?_
  dsimp only
  split <;> refine regWrite_addrOnly (h _ ?_) .. <;> simp only [R.FP_CTL, R.FP_CIC, R.FP_TAPS, R.FP_GD] <;> omega

theorem execDetCtlWrite_addrOnly (h : NoWrites r 0x200000 0x380000) (t : Fin 24) (d : Fin 32) (which : Fin 3) :
    s.AddrOnly (s.via (execDetCtlWrite r t d which v)) := by
  refine via_act_addrOnly alive ?_
  dsimp only
  split <;> refine regWrite_addrOnly (h _ ?_) .. <;> simp only [R.DET_CTL, R.DET_WIN, R.DET_ENV] <;> omega

theorem execRpWrite_addrOnly (h : NoWrites r 0x40000 0x70000) (p : Fin 64) (which : Fin 4) :
    s.AddrOnly (s.via (execRpWrite r p which v)) := by
  refine via_act_addrOnly alive ?_
  dsimp only
  split <;> refine regWrite_addrOnly (h _ ?_) .. <;> simp only [R.RP_CTL, R.RP_DB, R.RP_DEC, R.RP_HB] <;> omega

/-! ### The commands with a lock of their own, which holds only for a requester with the right to write (R29, R407) -/

omit alive in
theorem ownLock_addrOnly {a : Nat} (h : MayNotWrite r a) (locked : Bool) (x : State) {y : State} (hy : s.AddrOnly y) :
    s.AddrOnly (if locked && accOf r a == .rw then x else y) := by
  rwa [h.acc_beq_rw, Bool.and_false, if_neg Bool.false_ne_true]

omit alive in
theorem csCmd_addrOnly (h : MayNotWrite r R.CS_CMD) (locked : State → Bool) (refuse : Bool) (eff : State → State) (s : State) :
    s.AddrOnly (csCmd r locked refuse eff s) := by
  refine ownLock_addrOnly h _ _ ?_
  rw [mapStop_of_mayNotWrite h]
  exact s.fin_addrOnly

omit alive in
theorem memWrite_addrOnly {m : Nat} {t : MemTarget} (h : MayNotWrite r (memAddr m t)) : s.AddrOnly (s.memWrite r m t v) :=
  ownLock_addrOnly h _ _ (regWrite_addrOnly h ..)

theorem execBlkRst_addrOnly (h : MayNotWrite r R.BLK_RST) : s.AddrOnly (s.via (execBlkRst r v)) :=
  via_act_addrOnly alive (ownLock_addrOnly h _ _ (regWrite_addrOnly h ..))

/-! ### The regions -/

theorem writeGlobal_addrOnly (h : NoWrites r 0 0x10000) {a : Nat} (hi : a < 0x10000) : s.AddrOnly (writeGlobal r a v s) :=
  .ite (fun _ => regWrite_addrOnly (h _ (by decide)) ..) fun _ =>
  .ite (fun _ => via_regWrite_addrOnly alive (h _ (by decide)) ..) fun _ =>
  .ite (fun _ => via_regWrite_addrOnly alive (h _ (by decide)) ..) fun _ =>
  .ite (fun _ => via_regWrite_addrOnly alive (h _ (by unfold R.TRIGIO_CTL; omega)) ..) fun _ =>
  plainWrite_addrOnly (h a ⟨Nat.zero_le a, hi⟩) ..

theorem optCmd_addrOnly (h : MayNotWrite r R.OPT_CMD) (op : Nat) : s.AddrOnly (s.optCmd r op) := by
  unfold State.optCmd
  dsimp only
  split
  · exact via_regWrite_addrOnly alive h ..
  · exact via_regWrite_addrOnly alive h ..
  · exact via_draw_regWrite_addrOnly alive h ..
  · exact via_draw_regWrite_addrOnly alive h ..
  · exact regWrite_addrOnly h ..

theorem writeRpc_addrOnly (h : NoWrites r 0x10000 0x20000) {a : Nat} (ha : 0x10000 ≤ a ∧ a < 0x20000) :
    s.AddrOnly (writeRpc r a v s) :=
  .ite (fun _ => via_draw_regWrite_addrOnly alive (h _ (by decide)) 7 ..) fun _ =>
  .ite (fun _ => execBlkRst_addrOnly alive v (h _ (by decide))) fun _ =>
  .ite (fun _ => checkedWrite_addrOnly (h a ha) ..) fun _ =>
  .ite (fun _ => via_regWrite_addrOnly alive (h _ (by decide)) ..) fun _ =>
  .ite (fun _ => checkedWrite_addrOnly (h a ha) ..) fun _ =>
  .ite (fun _ => optCmd_addrOnly alive (h _ (by decide)) _) fun _ =>
  .ite (fun _ => via_draw_regWrite_addrOnly alive (h _ (by decide)) 16 ..) fun _ =>
  plainWrite_addrOnly (h a ha) ..

theorem syncCmd_addrOnly (h : MayNotWrite r R.GRID_SYNC_CMD) : s.AddrOnly (s.syncCmd r v) := by
  unfold State.syncCmd
  dsimp only
  split
  · exact via_regWrite_addrOnly alive h ..
  · exact via_regWrite_addrOnly alive h ..
  · exact via_regWrite_addrOnly alive h ..
  · exact regWrite_addrOnly h ..

theorem writeGrid_addrOnly (h : NoWrites r 0x20000 0x40000) {a : Nat} (ha : 0x20000 ≤ a ∧ a < 0x40000) (g o : Nat) :
    s.AddrOnly (writeGrid r g o a v s) := by
  unfold writeGrid
  split
  · exact via_regWrite_addrOnly alive (h _ (by unfold R.GRID_CTL; omega)) ..
  · exact via_regWrite_addrOnly alive (h (R.GRID_PER_NS _) (by unfold R.GRID_PER_NS; omega)) ..
  · exact via_regWrite_addrOnly alive (h (R.GRID_PER_FRAC _) (by unfold R.GRID_PER_FRAC; omega)) ..
  · exact plainWrite_addrOnly (h a ha) ..

theorem writeTime_addrOnly (h : NoWrites r 0x20000 0x40000) {a : Nat} (ha : 0x20000 ≤ a ∧ a < 0x40000) :
    s.AddrOnly (writeTime r a v s) :=
  .ite (fun _ => via_regWrite_addrOnly alive (h _ (by decide)) ..) fun _ =>
  .ite (fun _ => checkedWrite_addrOnly (h a ha) ..) fun _ =>
  .ite (fun _ => via_regWrite_addrOnly alive (h _ (by decide)) ..) fun _ =>
  .ite (fun _ => execSmplCtlWrite_addrOnly alive v h false) fun _ =>
  .ite (fun _ => execSmplCtlWrite_addrOnly alive v h true) fun _ =>
  .ite (fun _ => via_regWrite_addrOnly alive (h _ (by decide)) ..) fun _ =>
  .ite (fun _ => regWrite_addrOnly (h _ (by decide)) ..) fun _ =>
  .ite (fun _ => checkedWrite_addrOnly (h a ha) ..) fun _ =>
  .ite (fun _ => checkedWrite_addrOnly (h a ha) ..) fun _ =>
  .ite (fun _ => syncCmd_addrOnly alive v (h _ (by decide))) fun _ =>
  .ite (fun _ => regWrite_addrOnly (h a ha) ..) fun _ =>
  .ite (fun _ => writeGrid_addrOnly alive v h ha _ _) fun _ =>
  .ite (fun _ => via_regWrite_addrOnly alive (h _ (by decide)) ..) fun _ =>
  .ite (fun _ => regWrite_addrOnly (h _ (by decide)) ..) fun _ =>
  .ite (fun _ => checkedWrite_addrOnly (h a ha) ..) fun _ =>
  .ite (fun _ => checkedWrite_addrOnly (h a ha) ..) fun _ =>
  .ite (fun _ => checkedWrite_addrOnly (h a ha) ..) fun _ =>
  .ite (fun _ => via_regWrite_addrOnly alive (h R.TT_ASYM (by decide)) ..) fun _ =>
  .ite (fun _ => via_regWrite_addrOnly alive (h R.TT_ASYM2 (by decide)) ..) fun _ =>
  .ite (fun _ => via_draw_regWrite_addrOnly alive (h _ (by decide)) 32 ..) fun _ =>
  plainWrite_addrOnly (h a ha) ..

theorem writeHkc_addrOnly (h : NoWrites r 0x20000 0x40000) {a : Nat} (ha : 0x20000 ≤ a ∧ a < 0x40000) :
    s.AddrOnly (writeHkc r a v s) :=
  .ite (fun _ => via_regWrite_addrOnly alive (h _ (by decide)) ..) fun _ =>
  .ite (fun _ => via_regWrite_addrOnly alive (h _ (by decide)) ..) fun _ =>
  .ite (fun _ => checkedWrite_addrOnly (h a ha) ..) fun _ =>
  .ite (fun _ => checkedWrite_addrOnly (h a ha) ..) fun _ =>
  plainWrite_addrOnly (h a ha) ..

theorem writeTrig_addrOnly (h : NoWrites r 0x40000 0x70000) {a : Nat} (ha : 0x40000 ≤ a ∧ a < 0x70000) :
    s.AddrOnly (writeTrig r a v s) := by
  have plain := plainWrite_addrOnly (h a ha) v s
  unfold writeTrig
  refine .ite (fun _ => ?unit) fun _ => .ite (fun _ => execRpWrite_addrOnly alive v h _ _) fun _ =>
    .ite (fun _ => via_regWrite_addrOnly alive (h _ (by unfold R.WS_LINK; omega)) ..) fun _ => plain
  split
  · exact execTuCtlWrite_addrOnly alive v h _ false
  · exact execTuCtlWrite_addrOnly alive v h _ true
  · exact regWrite_addrOnly (h a ha) ..
  · exact regWrite_addrOnly (h a ha) ..
  · exact execTgCtlWrite_addrOnly alive v h _ false
  · exact execTgCtlWrite_addrOnly alive v h _ true
  · exact plain

theorem writePress_addrOnly (h : NoWrites r 0x40000 0x70000) {a : Nat} (ha : 0x40000 ≤ a ∧ a < 0x70000) :
    s.AddrOnly (writePress r a v s) := by
  have plain := plainWrite_addrOnly (h a ha) v s
  refine .ite (fun _ => via_regWrite_addrOnly alive (h _ (by decide)) ..) fun _ =>
    .ite (fun _ => checkedWrite_addrOnly (h a ha) ..) fun _ => .ite (fun _ => ?engine) fun _ => plain
  dsimp only
  split
  · exact via_regWrite_addrOnly alive (h _ (by unfold R.PC_CTL; omega)) ..
  · exact via_regWrite_addrOnly alive (h _ (by unfold R.PC_MRES; omega)) ..
  · exact plain

theorem writeYard_addrOnly (h : NoWrites r 0x40000 0x70000) {a : Nat} (ha : 0x40000 ≤ a ∧ a < 0x70000) :
    s.AddrOnly (writeYard r a v s) :=
  .ite (fun _ => checkedWrite_addrOnly (h a ha) ..) fun _ =>
  .ite (fun _ => checkedWrite_addrOnly (h a ha) ..) fun _ =>
  .ite (fun _ => via_regWrite_addrOnly alive (h _ (by unfold R.RING_CFG; omega)) ..) fun _ =>
  .ite (fun _ => via_regWrite_addrOnly alive (h _ (by unfold R.PK_CTL; omega)) ..) fun _ =>
  plainWrite_addrOnly (h a ha) ..

theorem writeLog_addrOnly {a : Nat} (h : MayNotWrite r a) : s.AddrOnly (writeLog r a v s) :=
  .ite (fun e => via_regWrite_addrOnly alive (e ▸ h) ..) fun _ => plainWrite_addrOnly h ..

theorem writePorts_addrOnly {a : Nat} (h : MayNotWrite r a) : s.AddrOnly (writePorts r a v s) :=
  .ite (fun e => via_regWrite_addrOnly alive (e ▸ h) ..) fun _ => plainWrite_addrOnly h ..

theorem writeKiln_addrOnly {a : Nat} (h : MayNotWrite r a) : s.AddrOnly (writeKiln r a v s) :=
  .ite (fun e => via_regWrite_addrOnly alive (e ▸ h) ..) fun _ => plainWrite_addrOnly h ..

theorem writeLanes_addrOnly (h : NoWrites r 0x80000 0x90000) {a : Nat} (ha : 0x80000 ≤ a ∧ a < 0x90000) :
    s.AddrOnly (writeLanes r a v s) := by
  unfold writeLanes
  exact .ite (fun _ =>
    .ite (fun _ => via_regWrite_addrOnly alive (h _ (by unfold R.LANE_CTL; omega)) ..) fun _ =>
    .ite (fun _ => via_regWrite_addrOnly alive (h _ (by unfold R.PRBS_CTL; omega)) ..) fun _ =>
    plainWrite_addrOnly (h a ha) ..) fun _ =>
  .ite (fun _ => via_regWrite_addrOnly alive (h _ (by unfold R.QUAD_CTL; omega)) ..) fun _ =>
  plainWrite_addrOnly (h a ha) ..

theorem csCmdWrite_addrOnly (h : MayNotWrite r R.CS_CMD) : s.AddrOnly (s.csCmdWrite r v) := by
  have cmd (l refuse eff) : s.AddrOnly (s.via (act (csCmd r l refuse eff))) := via_act_addrOnly alive (csCmd_addrOnly h ..)
  have drawn (l refuse eff) : s.AddrOnly ((s.draw 16).1.via (act (csCmd r l refuse eff))) :=
    .of_draw (w := 16) (via_act_addrOnly (s := (s.draw 16).1) alive (csCmd_addrOnly h ..))
  unfold State.csCmdWrite
  dsimp only
  split
  · exact drawn ..
  · exact cmd ..
  · exact drawn ..
  · exact drawn ..
  · exact csCmd_addrOnly h ..

theorem writeCs_addrOnly {a : Nat} (h : MayNotWrite r a) : s.AddrOnly (writeCs r a v s) :=
  .ite (fun e => csCmdWrite_addrOnly alive v (e ▸ h)) fun _ =>
  .ite (fun _ => plainWrite_addrOnly h ..) fun _ => plainWrite_addrOnly h ..

theorem writePallet_addrOnly (h : NoWrites r 0xC0000 0xD0000) {a : Nat} (ha : 0xC0000 ≤ a ∧ a < 0xD0000) :
    s.AddrOnly (writePallet r a v s) := by
  have plain := plainWrite_addrOnly (h a ha) v s
  unfold writePallet
  refine .ite (fun _ => ?_) fun _ => plain
  split
  · exact via_regWrite_addrOnly alive (h _ (by unfold R.PQ_PUSH; omega)) ..
  · exact regWrite_addrOnly (h _ (by unfold R.PQ_CTL; omega)) ..
  · exact plain

theorem writeStreams_addrOnly (h : NoWrites r 0x100000 0x140000) {a : Nat} (ha : 0x100000 ≤ a ∧ a < 0x140000) :
    s.AddrOnly (writeStreams r a v s) := by
  unfold writeStreams
  exact .ite (fun _ => via_regWrite_addrOnly alive (h _ (by unfold R.SE_CTL; omega)) ..) fun _ =>
  plainWrite_addrOnly (h a ha) ..

theorem writeTileReg_addrOnly (h : NoWrites r 0x200000 0x380000) {a : Nat} (ha : 0x200000 ≤ a ∧ a < 0x380000) (t o : Nat) :
    s.AddrOnly (writeTileReg r t o a v s) :=
  .ite (fun _ => execTileCtlWrite_addrOnly alive v h _ false) fun _ =>
  .ite (fun _ => execTileCtlWrite_addrOnly alive v h _ true) fun _ =>
  .ite (fun _ => checkedWrite_addrOnly (h a ha) ..) fun _ =>
  .ite (fun _ => via_regWrite_addrOnly alive (h _ (by unfold R.TILE_APPLY; omega)) ..) fun _ =>
  .ite (fun _ => execExcCtlWrite_addrOnly alive v h _ false) fun _ =>
  .ite (fun _ => execExcCtlWrite_addrOnly alive v h _ true) fun _ =>
  .ite (fun _ => via_regWrite_addrOnly alive (h _ (by unfold R.TILE_PGA; omega)) ..) fun _ =>
  .ite (fun _ => checkedWrite_addrOnly (h a ha) ..) fun _ =>
  .ite (fun _ => checkedWrite_addrOnly (h a ha) ..) fun _ =>
  plainWrite_addrOnly (h a ha) ..

theorem writeEngine_addrOnly (h : NoWrites r 0x200000 0x380000) {a : Nat} (ha : 0x200000 ≤ a ∧ a < 0x380000) (t o : Nat) :
    s.AddrOnly (writeEngine r t o a v s) := by
  have plain := plainWrite_addrOnly (h a ha) v s
  unfold writeEngine
  refine .ite (fun _ => ?path) fun _ => .ite (fun _ => ?detector) fun _ =>
    .ite (fun _ => via_regWrite_addrOnly alive (h _ (by unfold R.COEF; omega)) ..) fun _ => plain
  case path =>
    dsimp only
    split
    · exact execFpConfigWrite_addrOnly alive v h _ _ 0
    · exact execFpConfigWrite_addrOnly alive v h _ _ 1
    · exact execFpConfigWrite_addrOnly alive v h _ _ 2
    · exact execFpConfigWrite_addrOnly alive v h _ _ 3
    · exact via_regWrite_addrOnly alive (h _ (by unfold R.FP_FADE; omega)) ..
    · exact plain
  case detector =>
    dsimp only
    split
    · exact execDetCtlWrite_addrOnly alive v h _ _ 0
    · exact execDetCtlWrite_addrOnly alive v h _ _ 1
    · exact execDetCtlWrite_addrOnly alive v h _ _ 2
    · exact plain

theorem writeTile_addrOnly (h : NoWrites r 0x200000 0x380000) {a : Nat} (ha : 0x200000 ≤ a ∧ a < 0x380000) :
    s.AddrOnly (writeTile r a v s) := by
  unfold writeTile
  exact .ite (fun _ => writeTileReg_addrOnly alive v h ha _ _) fun _ => writeEngine_addrOnly alive v h ha _ _

omit alive in
theorem mayNotWrite_memAddr (h : NoWrites r 0x400000 0x800000) {m : Nat} (hm : m < 16) (t : MemTarget) : MayNotWrite r (memAddr m t) := by
  refine h _ ?_
  cases t <;> simp only [memAddr, imem, dmem, R.MC_ENTRY, R.MC_TVEC] <;> omega

theorem writeMason_addrOnly (h : NoWrites r 0x400000 0x800000) {a : Nat} (ha : 0x400000 ≤ a ∧ a < 0x800000) :
    s.AddrOnly (writeMason r a v s) := by
  have hm : (a - 0x400000) / 0x40000 < 16 := by omega
  have mem (t) : s.AddrOnly (s.memWrite r ((a - 0x400000) / 0x40000) t v) := memWrite_addrOnly v (mayNotWrite_memAddr h hm t)
  have plain := plainWrite_addrOnly (h a ha) v s
  unfold writeMason
  refine .ite (fun _ => plain) fun _ => .ite (fun _ => mem _) fun _ => .ite (fun _ => mem _) fun _ => ?registers
  split
  · exact regWrite_addrOnly (h _ (by unfold R.MC_CTL; omega)) ..
  · exact mem _
  · exact mem _
  · exact via_regWrite_addrOnly alive (h _ (by unfold R.MC_DOORBELL; omega)) ..
  · exact plain

/-! ### The whole map -/

/-- An aligned write without the right to it, wherever it goes: each region asks the map before it does anything. -/
theorem writeReg_addrOnly_of_mayNotWrite {a : Nat} (h : MayNotWrite r a) : s.AddrOnly (s.writeReg r a v) := by
  have region {lo hi : Nat} (ha : lo ≤ a ∧ a < hi) (gap : ∀ n ∈ regionBounds, n ≤ lo ∨ hi ≤ n) : NoWrites r lo hi :=
    noWrites_of_mem h ha gap
  have time (ha : 0x20000 ≤ a ∧ a < 0x40000) : NoWrites r 0x20000 0x40000 := region ha (by decide)
  have trig (ha : 0x40000 ≤ a ∧ a < 0x70000) : NoWrites r 0x40000 0x70000 := region ha (by decide)
  unfold State.writeReg
  exact
    .ite (fun _ => plainWrite_addrOnly h ..) fun _ =>
    .ite (fun hi => writeGlobal_addrOnly alive v (region ⟨Nat.zero_le a, hi⟩ (by decide)) hi) fun _ =>
    .ite (fun _ => writeRpc_addrOnly alive v (region (by omega) (by decide)) (by omega)) fun _ =>
    .ite (fun _ => writeTime_addrOnly alive v (time (by omega)) (by omega)) fun _ =>
    .ite (fun _ => writeHkc_addrOnly alive v (time (by omega)) (by omega)) fun _ =>
    .ite (fun _ => writeTrig_addrOnly alive v (trig (by omega)) (by omega)) fun _ =>
    .ite (fun _ => writePress_addrOnly alive v (trig (by omega)) (by omega)) fun _ =>
    .ite (fun _ => writeYard_addrOnly alive v (trig (by omega)) (by omega)) fun _ =>
    .ite (fun _ => writeLog_addrOnly alive v h) fun _ =>
    .ite (fun _ => writeLanes_addrOnly alive v (region (by omega) (by decide)) (by omega)) fun _ =>
    .ite (fun _ => writePorts_addrOnly alive v h) fun _ =>
    .ite (fun _ => writeKiln_addrOnly alive v h) fun _ =>
    .ite (fun _ => writeCs_addrOnly alive v h) fun _ =>
    .ite (fun _ => writePallet_addrOnly alive v (region (by omega) (by decide)) (by omega)) fun _ =>
    .ite (fun ha => writeStreams_addrOnly alive v (region ha (by decide)) ha) fun _ =>
    .ite (fun ha => writeTile_addrOnly alive v (region ha (by decide)) ha) fun _ =>
    .ite (fun ha => writeMason_addrOnly alive v (region ha (by decide)) ha) fun _ =>
    plainWrite_addrOnly h ..

/-- A write that the map refuses with ADDR, a misaligned one among them, has no effect (R2, R29). -/
theorem writeReg_addrOnly {a : Nat} (h : s.mapStop r a true = some .addr) : s.AddrOnly (s.writeReg r a v) := by
  rcases Nat.eq_zero_or_pos (a % 4) with h4 | h4
  · exact writeReg_addrOnly_of_mayNotWrite alive v (mayNotWrite_of_mapStop h4 h)
  · rw [State.writeReg, if_pos (by omega), plainWrite, checkedWrite, regWrite_map _ _ _ _ _ _ rfl h]
    exact s.fin_addrOnly

end

/-! ### The rows -/

theorem act_addrOnly {s : State} (alive : s.alive = true) {f : State → State} (h : s.AddrOnly (f s)) :
    ∃ n, act f s = .next { s.fin .addr with free := n } := by
  obtain ⟨n, e⟩ := h
  exact ⟨n, by rw [act_alive _ _ alive, e]⟩

theorem readWord_addrOnly {s : State} {r : Req} {a : Nat} (h : s.mapStop r a false = some .addr) (bad : Bool) :
    s.AddrOnly (s.readWord r a bad) := by
  rw [State.readWord, h]
  exact s.fin_addrOnly

/-- An address that no region gives the requester is refused with ADDR, misaligned or not. -/
theorem mapStop_of_no {s : State} {r : Req} {a : Nat} {write : Bool} (h : accOf r a = .no) : s.mapStop r a write = some .addr := by
  rcases Nat.eq_zero_or_pos (a % 4) with h4 | h4
  · exact State.mapStop_no h4 h
  · exact State.mapStop_misaligned (by omega)

/-- Settles O25: a refused read ends at the map, and a refused write meets the map first in whatever command its address belongs to. -/
theorem refusedAccessChangesNoRegister : Obligations.RefusedAccessChangesNoRegister := by
  intro r a v bad s alive refused
  have write (h : s.mapStop r a.toNat true = some .addr) : refused (exec (.registerWrite r a v) s) :=
    act_addrOnly (f := fun s => s.writeReg r a.toNat v) alive (writeReg_addrOnly alive v h)
  have read (h : accOf r a.toNat = .no) (bad : Bool) : refused (act (fun s => s.readWord r a.toNat bad) s) :=
    act_addrOnly alive (readWord_addrOnly (mapStop_of_no h) bad)
  exact ⟨fun no => ⟨write (mapStop_of_no no), read no bad, read no false⟩,
    fun ro lt => write (mapStop_of_mayNotWrite (.inr ⟨ro, lt⟩) s), write⟩

end Sys2Proof.Machine
end

section
/-!
PROOFS. The vector store and the register load of a mason (R233, R234).
-/

namespace Sys2Proof.Machine

theorem exec_vst (m : Fin 16) (vs : Fin 8) (ga : Fin 32) (off : BitVec 16) (s : State) :
    exec (.vst m vs ga off) s = store m 0x19 vs ga off 64 4 (fun s a x => s.dstores m a (x.vec vs)) s := rfl

theorem exec_rld (m : Fin 16) (gd ga : Fin 32) (off : BitVec 16) (s : State) : exec (.rld m gd ga off) s = execRld m gd ga off s := rfl

section

variable {s : State} {m : Fin 16} {gd ga : Fin 32} {off : BitVec 16} (hi : s.issues m (encGI 0x1A gd ga off.toNat))
include hi

theorem execRld_of_mapStop_none (h : s.mapStop (.mason m) ((s.mason m).addr ga off) false = none) :
    let rd := s.readReg (.mason m) ((s.mason m).addr ga off) false
    execRld m gd ga off s =
      .next (({ rd.1 with cpl := s.cpl }.setMason m ((rd.1.mason m).put gd rd.2)).retire m ((s.mason m).pc + 4)) := by
  rw [execRld, isa_of_issues hi]; simp only [h]; rfl

theorem execRld_of_mapStop_some {c : Status} (h : s.mapStop (.mason m) ((s.mason m).addr ga off) false = some c) :
    execRld m gd ga off s = .next (s.trap m 4 ((s.mason m).addr ga off)) := by
  rw [execRld, isa_of_issues hi]; simp only [h]; rfl

end

/-- Settles O11: vst is a store of sixteen words, and rld a read that the map refuses or lets through. -/
theorem vectorMemoryAndRegisterLoad : Obligations.VectorMemoryAndRegisterLoad := by
  intro s m gd ga vs off x a rd
  rw [exec_vst, exec_rld]
  refine ⟨fun hi h k => store_of_fits hi _ ⟨h, k⟩, fun hi => (store_traps hi _).1, fun hi => (store_traps hi _).2,
    fun hi h => execRld_of_mapStop_none hi h, fun hi h => ?refused⟩
  obtain ⟨c, hc⟩ := Option.ne_none_iff_exists'.mp h
  exact execRld_of_mapStop_some hi hc

end Sys2Proof.Machine
end

section
/-!
PROOFS. The hub tree (R19 to R25, R365 to R368): HELLO, the routes, and the hods that pass down and up.
-/

namespace Sys2Proof.Machine

/-- PL_PEER as a HELLO leaves it (R365). -/
def peerWord (host primary : Bool) (depth port : BitVec 4) (hid : BitVec 14) : Word :=
  BitVec.ofNat 32 (2 ^ 31 + b2n host * 2 ^ 30 + b2n primary * 2 ^ 29 + depth.toNat * 2 ^ 24 + port.toNat * 2 ^ 20 + hid.toNat)

section

variable {s : State} {p : Fin 16} (alive : s.alive = true) (up : s.portUp p = true)
include alive up

/-- A partner that is not this hub's parent and uses the link as its primary is a child. -/
theorem exec_hello_of_child (host : Bool) (depth port : BitVec 4) (hid : BitVec 14)
    (h : ((s.thaw p).setW (R.PL_PEER p) (peerWord host true depth port hid)).role p ≠ 1) :
    exec (.hello p host true depth port hid) s =
      .next (((s.thaw p).setW (R.PL_PEER p) (peerWord host true depth port hid)).addRoutes p [hid.toNat]) := by
  change execHello _ _ _ _ _ _ s = _
  rw [execHello, act_alive _ _ alive]
  unfold peerWord at h ⊢
  simp only [up, Bool.not_true, Bool.false_eq_true, if_false, if_neg h, if_true]

theorem exec_routeAdd (hids : List (BitVec 14)) (h : s.role p = 2) :
    exec (.routeAdd p hids) s = .next ((s.thaw p).addRoutes p (hids.map BitVec.toNat)) :=
  (act_alive _ _ alive).trans (congrArg _ (if_pos ⟨up, h⟩))

theorem exec_routeDel (hids : List (BitVec 14)) (h : s.role p = 2) :
    exec (.routeDel p hids) s = .next ((s.thaw p).delRoutes p fun i => (hids.map BitVec.toNat).contains i) :=
  (act_alive _ _ alive).trans (congrArg _ (if_pos ⟨up, h⟩))

section

variable {header : BitVec 64} {payload : List Word} (role : s.role p = 1) (other : (hodOf header payload).hid ≠ s.hid)
include role other

omit alive in
/-- A hod for another hub that arrives on an UP port reaches the descendant table. -/
theorem downstreamRoute_passes : ¬((!s.portUp p) = true ∨ s.role p ≠ 1 ∨ (hodOf header payload).hid = s.hid) := by
  simp [up, role, other]

theorem exec_downstreamRoute_of_some {k : Nat}
    (h : s.descs.find? (fun i => s.f (F.DESC_HID i) == (hodOf header payload).hid) = some k) :
    exec (.downstreamRoute p header payload) s = .next (s.enqueue (s.f (F.DESC_PORT k)) (some p) (hodOf header payload)) := by
  change execDownstreamRoute _ _ _ s = _
  rw [execDownstreamRoute, act_alive _ _ alive]
  dsimp only
  rw [if_neg (downstreamRoute_passes up role other), h]

theorem exec_downstreamRoute_of_none
    (h : s.descs.find? (fun i => s.f (F.DESC_HID i) == (hodOf header payload).hid) = none) :
    exec (.downstreamRoute p header payload) s =
      .next (((s.bumpW R.UNROUTE_CNT 1).raiseBit R.LINK_EVT 7 0x0912 p (hodOf header payload).hid).freeBuf p
        (s.inClass p (hodOf header payload))) := by
  change execDownstreamRoute _ _ _ s = _
  rw [execDownstreamRoute, act_alive _ _ alive]
  dsimp only
  rw [if_neg (downstreamRoute_passes up role other), h]

end

theorem exec_relayHod (header : BitVec 64) (payload : List Word) (ok : Bool) (role : s.role p = 2) (free : (s.port p).conflict = false) :
    exec (.relayHod p ok header payload) s =
      .next (if ok then s.relay p (hodOf header payload) else s.abortRelay p (hodOf header payload)) := by
  change execRelayHod _ _ _ _ s = _
  rw [execRelayHod, act_alive _ _ alive]
  simp only [up, role, free]
  rfl

end

/-- A relayed hod whose copy has begun to leave when its checks fail (R368). -/
theorem abortRelay_of_begun {s : State} {p : Nat} {h : Hod} (may : s.maySend s.primary ⟨3, some p, 0, h⟩ = true)
    (first : ((s.port s.primary).waiting.any fun w => w.cls == 3) = false) :
    s.abortRelay p h = s.putFrame s.primary { h with lseq := s.f (F.PL_STAT_TX_NEXT s.primary) }.aborted := by
  simp only [State.abortRelay, State.when, may, first]
  rfl

/-- Settles O32: each clause is one branch of its command's meaning. -/
theorem routesOfTheTree : Obligations.RoutesOfTheTree := by
  intro s p host depth port hid hids header payload k h peer alive up
  have word : peer = peerWord host true depth port hid := by simp only [peer, peerWord, b2n, if_true, Nat.one_mul]
  rw [word]
  refine ⟨fun _ => exec_hello_of_child alive up host depth port hid, exec_routeAdd alive up hids, exec_routeDel alive up hids,
    fun role other => exec_downstreamRoute_of_some alive up role other, exec_downstreamRoute_of_none alive up, exec_relayHod alive up header payload true,
    fun role free may first => ?aborted⟩
  rw [exec_relayHod alive up header payload false role free, ← abortRelay_of_begun may first]
  rfl

end Sys2Proof.Machine
end

section
/-!
PROOFS. The outputs of paths and detectors, and the writes of a detector's registers (R123, R128, R137, R139, R140).
-/

namespace Sys2Proof.Machine

/-! ### FILTER_OUTPUT -/

section

variable {s : State} (alive : s.alive = true) (t : Fin 24) (p : Fin 8)
include alive

theorem exec_filterOutput_nil (h : (s.path (8 * t + p)).due = []) : exec (.filterOutput t p) s = .next s := by
  change execFilterOutput t p s = _
  rw [execFilterOutput, act_alive _ _ alive]
  simp only [h]

/-- The oldest awaited course leaves a path once it is ready and no phase of a fade must begin first. -/
theorem exec_filterOutput_cons {c : Due} {cs : List Due} (h : (s.path (8 * t + p)).due = c :: cs) :
    exec (.filterOutput t p) s = .next
      (if !s.courseReady t p c || (s.path (8 * t + p)).fade.any fun f => f.turns (s.f (F.FP_STAT_STATE t p)) then s
      else (s.setPath (8 * t + p) { s.path (8 * t + p) with due := cs }).pathCourse t p c) := by
  change execFilterOutput t p s = _
  rw [execFilterOutput, act_alive _ _ alive]
  simp only [h]
  cases (s.path (8 * t + p)).fade <;> rfl

end

/-! ### DETECT_OUTPUT -/

section

variable {s : State} (alive : s.alive = true) (t : Fin 24) (d : Fin 32)
include alive

theorem exec_detectOutput_nil (h : (s.det (32 * t + d)).ready = []) : exec (.detectOutput t d) s = .next s := by
  change execDetectOutput t d s = _
  rw [execDetectOutput, act_alive _ _ alive]
  simp only [h]

theorem exec_detectOutput_cons {o : DetOut} {os : List DetOut} (h : (s.det (32 * t + d)).ready = o :: os) :
    exec (.detectOutput t d) s =
      .next ((s.setDet (32 * t + d) { s.det (32 * t + d) with ready := os }).detDeliver t d o) := by
  change execDetectOutput t d s = _
  rw [execDetectOutput, act_alive _ _ alive]
  simp only [h]

end

/-! ### The registers of a detector -/

/-- A register of a detector that is taken while the detector is disabled and the hub that results is within its limits. -/
def State.detPut (s : State) (t d a : Nat) (w : Word) (ok : State → Bool) : State :=
  if s.b (F.DET_CTL_EN t d) then s.fin .busy else if !ok (s.setW a w) then s.fin .unsupported else (s.setW a w).fin .ok

section

variable {s : State} {r : Req} {t : Fin 24} {d : Fin 32} (v : Word)

theorem act_regWrite_of_takes {a : Nat} (h : s.takes r a) (eff : State → State) : act (regWrite r a noLock eff) s = .next (eff s) := by
  obtain ⟨alive, map, test⟩ := h
  rw [act_alive _ _ alive, regWrite_eff _ _ noLock _ _ rfl map test]

theorem exec_detCtlWrite_ctl (h : s.takes r (R.DET_CTL t d)) : exec (.detCtlWrite r t d 0 v) s = .next (s.detCtl t d v) :=
  act_regWrite_of_takes h fun s => s.detCtl t d v

theorem exec_detCtlWrite_win (h : s.takes r (R.DET_WIN t d)) :
    exec (.detCtlWrite r t d 1 v) s = .next (s.detPut t d (R.DET_WIN t d) (v &&& 0xFFFF) fun s => s.packerOk t && s.pressOk) :=
  act_regWrite_of_takes h fun s => s.detPut t d (R.DET_WIN t d) (v &&& 0xFFFF) fun s => s.packerOk t && s.pressOk

theorem exec_detCtlWrite_env (h : s.takes r (R.DET_ENV t d)) :
    exec (.detCtlWrite r t d 2 v) s = .next (s.detPut t d (R.DET_ENV t d) v fun _ => true) :=
  act_regWrite_of_takes h fun s => s.detPut t d (R.DET_ENV t d) v fun _ => true

end

section

variable {s : State} {t d a : Nat} {v w : Word} {ok : State → Bool}

theorem State.detPut_enabled (h : s.b (F.DET_CTL_EN t d) = true) : s.detPut t d a w ok = s.fin .busy := if_pos h

theorem State.detPut_over (h : s.b (F.DET_CTL_EN t d) = false) (k : ok (s.setW a w) = false) :
    s.detPut t d a w ok = s.fin .unsupported := by
  simp only [State.detPut, h, k]; rfl

theorem State.detPut_taken (h : s.b (F.DET_CTL_EN t d) = false) (k : ok (s.setW a w) = true) :
    s.detPut t d a w ok = (s.setW a w).fin .ok := by
  simp only [State.detPut, h, k]; rfl

theorem State.detCtl_type3 (h : bits v.toNat 25 24 = 3) : s.detCtl t d v = s.fin .unsupported := if_pos h

theorem State.detCtl_enabled (h : bits v.toNat 25 24 ≠ 3) (was : s.b (F.DET_CTL_EN t d) = true) (on : wbit v 31 = true) :
    s.detCtl t d v = s.fin .busy := by
  rw [wbit] at on
  simp only [State.detCtl, if_neg h, was, on]; rfl

theorem State.detCtl_off (h : bits v.toNat 25 24 ≠ 3) (was : s.b (F.DET_CTL_EN t d) = false) (off : wbit v 31 = false) :
    s.detCtl t d v = (((s.setW (R.DET_CTL t d) (v &&& 0x8307000F)).setDet (32 * t + d) Det.init).refreshUnits).fin .ok := by
  rw [wbit] at off
  simp only [State.detCtl, if_neg h, was, off]; rfl

end

/-- Settles O47: an output takes the head of its list, and each write is one branch of `detPut` or `detCtl`. -/
theorem courseOutputsAndDetectors : Obligations.CourseOutputsAndDetectors := by
  intro s r t p d v o os c cs pa turns x win
  refine ⟨fun alive h ready noTurn => ?leaves, fun alive h => exec_filterOutput_nil alive t p h, fun alive h stays => ?stays,
    fun tk off pk px => ?windowTaken, fun tk off beyond => ?windowOver, fun tk on => ?windowBusy, fun tk off => ?envelopeTaken,
    fun tk h => ?type3, fun tk h was on => ?enabled, fun tk h was off => ?disabled,
    fun alive h => exec_detectOutput_cons alive t d h, fun alive h => exec_detectOutput_nil alive t d h⟩
  case leaves =>
    have out : (!s.courseReady t p c || turns) = false := by rw [ready, noTurn]; rfl
    rw [exec_filterOutput_cons alive t p h, if_neg (ne_true_of_eq_false out)]
  case stays =>
    have waits : (!s.courseReady t p c || turns) = true := by rcases stays with e | e <;> rw [e] <;> simp
    rw [exec_filterOutput_cons alive t p h, if_pos waits]
  case windowTaken =>
    have fits : (win.packerOk t && win.pressOk) = true := by rw [pk, px]; rfl
    rw [exec_detCtlWrite_win v tk, State.detPut_taken off fits]
  case windowOver =>
    have exceeds : (win.packerOk t && win.pressOk) = false := by rcases beyond with e | e <;> rw [e] <;> simp
    rw [exec_detCtlWrite_win v tk, State.detPut_over off exceeds]
  case windowBusy => rw [exec_detCtlWrite_win v tk, State.detPut_enabled on]
  case envelopeTaken => rw [exec_detCtlWrite_env v tk, State.detPut_taken off rfl]
  case type3 => rw [exec_detCtlWrite_ctl v tk, State.detCtl_type3 h]
  case enabled => rw [exec_detCtlWrite_ctl v tk, State.detCtl_enabled h was on]
  case disabled => rw [exec_detCtlWrite_ctl v tk, State.detCtl_off h was off]

end Sys2Proof.Machine
end

section
/-!
PROOFS. Errors of a block's storage: what a scrub counts, and the entry to SAFE (R11, R74, R142, R172, R203, R218, R281, R302, R411, R480).
-/

namespace Sys2Proof.Machine

/-! ### What an event leaves unchanged (R362, R363, R477) -/

/-- `t` is `s` but for registers, the marks of words in error and the EVENT queue. -/
def State.EventOnly (s t : State) : Prop :=
  ∃ regs bad evtq dropped, t = { s with regs := regs, bad := bad, evtq := evtq, evtDropped := dropped }

theorem State.EventOnly.trans {s t u : State} (h : s.EventOnly t) (k : t.EventOnly u) : s.EventOnly u := by
  obtain ⟨_, _, _, _, rfl⟩ := h
  obtain ⟨_, _, _, _, rfl⟩ := k
  exact ⟨_, _, _, _, rfl⟩

theorem State.setW_eventOnly (s : State) (a : Nat) (v : Word) : s.EventOnly (s.setW a v) := ⟨_, _, _, _, rfl⟩

theorem State.setWs_eventOnly (s : State) (a : Nat) (l : List Word) : s.EventOnly (s.setWs a l) := by
  induction l generalizing s a with
  | nil => exact ⟨_, _, _, _, rfl⟩
  | cons v l ih => exact (s.setW_eventOnly a v).trans (ih _ _)

theorem State.logEntry_eventOnly (s : State) (code src detail : Nat) : s.EventOnly (s.logEntry code src detail) := by
  unfold State.logEntry
  obtain ⟨_, _, _, _, e⟩ := s.setWs_eventOnly (R.LOG_ENT ((s.w R.LOG_HEAD).toNat % 1024)) (s.logWords code src detail)
  dsimp only
  rw [e]
  split <;> exact ⟨_, _, _, _, rfl⟩

theorem State.raise1_eventOnly (s : State) (code src detail : Nat) : s.EventOnly (s.raise1 code src detail) := by
  refine (s.logEntry_eventOnly code src detail).trans ?_
  unfold State.raise1
  dsimp only
  split
  · exact ⟨_, _, _, _, rfl⟩
  · split <;> exact ⟨_, _, _, _, rfl⟩

theorem State.raise_eventOnly (s : State) (code src detail : Nat) : s.EventOnly (s.raise code src detail) := by
  unfold State.raise
  split
  · split
    · exact ((s.raise1_eventOnly ..).trans (State.setW_eventOnly ..)).trans (State.raise1_eventOnly ..)
    · exact ((s.setW_eventOnly ..).trans (State.raise1_eventOnly ..)).trans (State.raise1_eventOnly ..)
  · exact s.raise1_eventOnly ..

theorem State.csEvent_eventOnly (s : State) (i code src detail : Nat) : s.EventOnly (s.csEvent i code src detail) :=
  (s.setW_eventOnly ..).trans (State.raise_eventOnly ..)

/-! ### The cornerstone (R410, R411) -/

/-- A running hub outside DORMANT runs the cornerstone's clock (R410). -/
theorem csRuns_of_alive {s : State} (alive : s.alive = true) (h : s.mode ≠ 0) : s.csRuns = true := by
  simp only [State.alive, Bool.and_eq_true, Bool.not_eq_true'] at alive
  obtain ⟨⟨aon, -⟩, scan⟩ := alive
  simp [State.csRuns, aon, scan, h]

theorem csRuns_of_dormant {s : State} (h : s.mode = 0) : s.csRuns = false := by
  simp [State.csRuns, h]

/-- The cornerstone after its event, with its metering and its enables stopped, before a batch of its own ends. -/
def State.csStopped (s : State) : State := { s.csEvent 7 0x0B08 0 0 with csStop := true, enDue := none }

/-- Every interval in progress is dropped. -/
def State.csHalt (s : State) : State := s.each s.metering fun s j => s.setMeter j { s.meter j with start := none }

theorem State.csUncorr_eq (s : State) :
    s.csUncorr =
      if s.csStopped.csAbandon.csHalt.rstLow then { s.csStopped.csAbandon.csHalt with safeNext := some 0x0B08 }
      else s.csStopped.csAbandon.csHalt.faultSafe 0x0B08 := rfl

theorem State.csStopped_eventOnly (s : State) : ({ s with csStop := true, enDue := none } : State).EventOnly s.csStopped := by
  obtain ⟨_, _, _, _, e⟩ := s.csEvent_eventOnly 7 0x0B08 0 0
  rw [State.csStopped, e]
  exact ⟨_, _, _, _, rfl⟩

section

variable (s : State)

@[simp] theorem State.csStopped_nv : s.csStopped.nv = s.nv := by
  obtain ⟨_, _, _, _, e⟩ := s.csStopped_eventOnly; rw [e]

@[simp] theorem State.csStopped_owed : s.csStopped.owed = s.owed := by
  obtain ⟨_, _, _, _, e⟩ := s.csStopped_eventOnly; rw [e]

@[simp] theorem State.csStopped_nvm : s.csStopped.nvm = s.nvm := by
  obtain ⟨_, _, _, _, e⟩ := s.csStopped_eventOnly; rw [e]

end

section

variable (s : State) (c : Bool) (x : Status)

/-! The end of a command of the cornerstone, where there is one, changes a register and the completion alone. -/

theorem State.when_csEnd_nv : (s.when c fun s => s.csEnd x).nv = s.nv := by cases c <;> rfl
theorem State.when_csEnd_owed : (s.when c fun s => s.csEnd x).owed = s.owed := by cases c <;> rfl
theorem State.when_csEnd_csPend : (s.when c fun s => s.csEnd x).csPend = s.csPend := by cases c <;> rfl
theorem State.when_csEnd_nvm : (s.when c fun s => s.csEnd x).nvm = s.nvm := by cases c <;> rfl

end

/-- A batch that is not the cornerstone's goes on. -/
theorem State.csAbandon_of_other {s : State} (h : ∀ x : Batch, s.nv = some x → x.writer < 5) : s.csAbandon = s := by
  unfold State.csAbandon
  split
  · next b e => exact if_pos (h b e)
  · rfl

/-- A batch of the cornerstone for which no access waits ends, with its change and without a row written. -/
theorem State.csAbandon_of_own {s : State} {x : Batch} (h : s.nv = some x) (own : 5 ≤ x.writer) (free : s.owed = none) :
    s.csAbandon.nv = none ∧ s.csAbandon.csPend = none ∧ s.csAbandon.nvm = s.nvm := by
  unfold State.csAbandon
  simp only [h, if_neg (Nat.not_lt.mpr own), State.when_csEnd_owed, State.setF_owed, free, State.when_csEnd_nv, State.when_csEnd_csPend,
    State.when_csEnd_nvm, State.setF_nvm, and_self]

/-- The cornerstone's own check asks for its clock and its supply, not for a running hub (R410, R411). -/
theorem exec_csUncorr {s : State} (runs : s.csRuns = true) (on : s.csOn = true) : exec .csUncorr s = .next s.csUncorr := by
  change execCsUncorr s = _
  rw [execCsUncorr, csAct, if_pos runs, if_pos on]

theorem exec_crossingUncorr_cornerstone {s : State} (alive : s.alive = true) (on : s.csOn = true) :
    exec (.crossingUncorr .cornerstone) s = .next s.csUncorr := by
  change execCrossingUncorr .cornerstone s = _
  rw [execCrossingUncorr, act_alive _ _ alive]
  exact congrArg _ (if_pos on)

/-! ### The other blocks -/

/-- Only a fault of the yard or of the press ends a drain besides (R269, R455). -/
theorem State.faultSafe_of_other {c : Nat} (h : (c / 256 == 6 || c / 256 == 7) = false) (s : State) : s.faultSafe c = s.enterSafe c := by
  rw [State.faultSafe, h]; rfl

section

variable {s : State} (alive : s.alive = true)
include alive

theorem exec_pqUncorr (q : Fin 64) : exec (.pqUncorr q) s = .next ((s.raise 0x0C08 q 0).faultSafe 0x0C08) := by
  rw [State.faultSafe_of_other (by decide)]
  exact act_alive (fun s => (s.raise 0x0C08 q 0).enterSafe 0x0C08) s alive

theorem exec_masonUncorr_inbox (m : Fin 16) :
    exec (.masonUncorr m .inbox) s = .next ((s.raiseBit (R.MC_EVT m) 3 0x0C04 m 0).faultSafe 0x0C04) := by
  rw [State.faultSafe_of_other (by decide)]
  exact act_alive (fun s => (s.raiseBit (R.MC_EVT m) 3 0x0C04 m 0).enterSafe 0x0C04) s alive

theorem exec_masonUncorr_streams (m : Fin 16) : exec (.masonUncorr m .streams) s = .next ((s.raise 0x0C07 0 0).faultSafe 0x0C07) := by
  rw [State.faultSafe_of_other (by decide)]
  exact act_alive (fun s => (s.raise 0x0C07 0 0).enterSafe 0x0C07) s alive

end

/-! ### Scrub -/

theorem satAdd_eq_min (w a b : Nat) : satAdd w a b = min (a + b) (2 ^ w - 1) := by
  unfold satAdd
  split <;> omega

theorem State.bumpW_w_same (s : State) (a n : Nat) : (s.bumpW a n).w a = BitVec.ofNat 32 (min ((s.w a).toNat + n) 0xFFFFFFFF) := by
  rw [State.bumpW, State.setW_w_same, satAdd_eq_min]; rfl

theorem State.bumpW_w_other (s : State) {a i : Nat} (n : Nat) (h : i ≠ a) : (s.bumpW a n).w i = s.w i := State.setW_w_other _ _ _ _ h

/-- A block is scrubbed: the cornerstone with its clock and supply, the log in every mode, another block outside DORMANT. -/
def State.scrubs (s : State) (b : Blk) : Bool :=
  if b = .cornerstone then s.csRuns && s.csOn else s.alive && (s.mode != 0 || b == .log)

theorem scrubs_of_alive {s : State} {b : Blk} (alive : s.alive = true) (h : s.mode ≠ 0 ∨ b = .log) (on : b = .cornerstone → s.csOn = true) :
    s.scrubs b = true := by
  unfold State.scrubs
  split
  · next e =>
    subst e
    have m : s.mode ≠ 0 := h.resolve_right nofun
    rw [csRuns_of_alive alive m, on rfl]; rfl
  · rcases h with m | rfl
    · simp [alive, m]
    · simp [alive]

theorem scrubs_of_dormant {s : State} {b : Blk} (h : s.mode = 0) (hb : b ≠ .log) : s.scrubs b = false := by
  unfold State.scrubs
  split
  · rw [csRuns_of_dormant h]; rfl
  · simp [h, hb]

theorem exec_scrub_of_not {s : State} {b : Blk} (h : s.scrubs b = false) (n : Word) (e : Option (Fin 1024)) : exec (.scrub b n e) s = .next s :=
  congrArg _ (if_pos (by rw [← State.scrubs, h]; rfl))

theorem exec_scrub_counts {s : State} {b : Blk} {a : Nat} (h : s.scrubs b = true) (ha : fixReg b = some a) (n : Word) :
    exec (.scrub b n none) s = .next (s.bumpW a n.toNat) := by
  refine (congrArg _ (if_neg (by rw [← State.scrubs, h]; decide))).trans ?_
  rw [ha]
  cases b <;> rfl

theorem exec_scrub_lane (s : State) (l : Fin 32) (n : Word) : exec (.scrub (.lane l) n none) s = .next s := congrArg _ (ite_self _)

/-- An entry of the log that cannot be corrected is marked besides (R480). -/
theorem exec_scrub_log {s : State} (alive : s.alive = true) (n : Word) (e : Fin 1024) :
    exec (.scrub .log n (some e)) s = .next ((s.bumpW R.LOG_FIX n.toNat).logUncorr e) := by
  have runs : s.scrubs .log = true := scrubs_of_alive alive (.inr rfl) nofun
  exact congrArg _ (if_neg (by rw [← State.scrubs, runs]; decide))

/-- Settles O35: a scrub adds to one counter or to none, and an uncorrectable error is its block's event and the entry to SAFE. -/
theorem storageErrors : Obligations.StorageErrors := by
  intro s t p m q b a n e k d l fault z stopped left halted
  refine ⟨fun runs on => exec_scrub_counts ?csScrubs rfl n, fun runs on low => ?csHeld, fun other => State.csAbandon_of_other ?otherBatch,
    fun x hx own free => ?ownBatch, fun alive => ?running⟩
  case csScrubs => rw [State.scrubs, if_pos rfl, runs, on]; rfl
  case csHeld => rw [exec_csUncorr runs on, State.csUncorr_eq]; exact congrArg _ (if_pos low)
  case otherBatch => rwa [← s.csStopped_nv] at other
  case ownBatch =>
    rw [← s.csStopped_nv] at hx
    rw [← s.csStopped_owed] at free
    rw [← s.csStopped_nvm]
    exact State.csAbandon_of_own hx own free
  have run (f : State → State) : act f s = .next (f s) := act_alive f s alive
  refine ⟨fun mode on ha => ?scrub, exec_scrub_lane s l n, fun mode hb => exec_scrub_of_not (scrubs_of_dormant mode hb) n none,
    exec_scrub_log alive n e, run fun s => s.tileUncorr t, run fun s => s.tileUncorr t, run fun s => s.feUncorr t p, run fun s => s.feUncorr t p,
    run State.trigUncorr, run State.trigUncorr, run State.pressUncorr, run State.pressUncorr,
    exec_pqUncorr alive q, run fun s => (s.raise 0x0C08 q 0).faultSafe 0x0C08, run State.rsvUncorr, run State.rsvUncorr,
    exec_masonUncorr_streams alive m, run fun s => (s.raise 0x0C07 0 0).faultSafe 0x0C07,
    exec_masonUncorr_inbox alive m, run fun s => (s.raiseBit (R.MC_EVT m) 3 0x0C04 m 0).faultSafe 0x0C04, fun on mode high => ?csSafe,
    run fun s => { s with bad := insNat (imem m + 4 * k) s.bad }, run fun s => { s with bad := insNat (dmem m + 4 * d) s.bad }⟩
  case scrub =>
    exact ⟨_, exec_scrub_counts (scrubs_of_alive alive mode on) ha n, State.bumpW_w_same .., fun i => State.bumpW_w_other s n.toNat⟩
  case csSafe =>
    rw [exec_csUncorr (csRuns_of_alive alive mode) on, exec_crossingUncorr_cornerstone alive on, State.csUncorr_eq]
    exact ⟨rfl, congrArg _ (if_neg (ne_true_of_eq_false high))⟩

end Sys2Proof.Machine
end

section
/-!
PROOFS. Writes of a tile's registers: gain codes, TILE_CTL, TILE_ILV, TILE_APPLY and the excitation output (R34, R37, R38, R40, R42, R46, R47, R53,
R66 to R68, R399).
-/

namespace Sys2Proof.Machine

/-! ### Conditional steps, and registers with a lock -/

@[simp] theorem State.when_true (s : State) (f : State → State) : s.when true f = f s := rfl

@[simp] theorem State.when_false (s : State) (f : State → State) : s.when false f = s := rfl

section

variable {s : State} {r : Req} {a : Nat} {locked : State → Bool}

/-- Where the lock is open, a write that the hub takes has the register's own effect. -/
theorem act_regWrite_of_open (h : s.takes r a) (free : locked s = false) (eff : State → State) :
    act (regWrite r a locked eff) s = .next (eff s) := by
  obtain ⟨alive, map, test⟩ := h
  rw [act_alive _ _ alive, regWrite_eff _ _ _ _ _ free map test]

/-- Where it is shut, a requester with the right to write is answered LOCKED (R399). -/
theorem act_regWrite_of_shut (alive : s.alive = true) (acc : accOf r a = .rw) (shut : locked s = true) (eff : State → State) :
    act (regWrite r a locked eff) s = .next (s.fin .locked) := by
  rw [act_alive _ _ alive, regWrite_locked _ _ _ _ _ shut acc]

end

/-! ### Gain codes -/

section

variable {s : State} {t i g : Nat}

theorem State.setGain_of_unchanged (h : s.tileActive t = false ∨ g = s.f (F.TILE_PGA_GAIN t i)) :
    s.setGain t i g = (s.setF (F.TILE_PGA_GAIN t i) g).gainOverlap t i := by
  have same : (s.tileActive t && g != s.f (F.TILE_PGA_GAIN t i)) = false := by rcases h with e | e <;> simp [e]
  rw [State.setGain, same, State.when_false]

theorem State.setGain_of_changed (active : s.tileActive t = true) (h : g ≠ s.f (F.TILE_PGA_GAIN t i)) :
    s.setGain t i g =
      ((((s.setF (F.TILE_PGA_GAIN t i) g).setF (F.CH_STAT_UNSETTLED t i) 1).disturb t i 3 (u5 s.st)).gainOverlap t i) := by
  have changed : (s.tileActive t && g != s.f (F.TILE_PGA_GAIN t i)) = true := by simp [active, h]
  rw [State.setGain, changed]; rfl

end

section

variable {s : State} {r : Req} {t : Fin 24} {i : Fin 16} {v : Word}

theorem exec_gainChange_of_metered (alive : s.alive = true) (acc : accOf r (R.TILE_PGA t i) = .rw) (h : s.metered t i = true) :
    exec (.gainChange r t i v) s = .next (s.fin .locked) :=
  act_regWrite_of_shut (locked := fun s => s.metered t i) alive acc h _

/-- A gain code of a channel that is not metered: 5 or more is no code. -/
theorem exec_gainChange_of_open (tk : s.takes r (R.TILE_PGA t i)) (free : s.metered t i = false) :
    exec (.gainChange r t i v) s =
      .next (if 5 ≤ bits v.toNat 2 0 then s.fin .unsupported else (s.setGain t i (bits v.toNat 2 0)).fin .ok) :=
  act_regWrite_of_open (locked := fun s => s.metered t i) tk free _

theorem exec_gainChange_of_legal (tk : s.takes r (R.TILE_PGA t i)) (free : s.metered t i = false) (legal : bits v.toNat 2 0 < 5) :
    exec (.gainChange r t i v) s = .next ((s.setGain t i (bits v.toNat 2 0)).fin .ok) := by
  rw [exec_gainChange_of_open tk free, if_neg (by omega)]

end

/-! ### The divider and the pairs -/

section

variable {s : State} {t : Nat} {v : Word}

theorem State.tileCtl_of_same (h : bits v.toNat 13 8 = s.f (F.TILE_CTL_RDIV t)) :
    s.tileCtl t v = (s.setW (R.TILE_CTL t) (v &&& 0x3F03)).fin .ok := by
  simp [State.tileCtl, h]

/-- A new divider is checked for its range, for a tile in SLEEP, and for the limits of the hub that results, in this order. -/
theorem State.tileCtl_of_new (h : bits v.toNat 13 8 ≠ s.f (F.TILE_CTL_RDIV t)) :
    s.tileCtl t v =
      if bits v.toNat 13 8 = 0 ∨ 40 < bits v.toNat 13 8 then s.fin .unsupported
      else if s.f (F.TILE_STAT_PSTATE t) ≠ 0 then s.fin .busy
      else if (s.setW (R.TILE_CTL t) (v &&& 0x3F03)).tileOk t = false then s.fin .unsupported
      else ((s.setW (R.TILE_CTL t) (v &&& 0x3F03)).rateCheck t).fin .ok := by
  have changed : (bits v.toNat 13 8 != s.f (F.TILE_CTL_RDIV t)) = true := by simp [h]
  simp [State.tileCtl, changed]

theorem State.tileIlv_of_same (h : bits v.toNat 7 0 = s.f (F.TILE_ILV_ILV t)) : s.tileIlv t v = s.fin .ok := if_pos h

/-- New pairs are checked for a tile in SLEEP, then for the limits of the hub that results. -/
theorem State.tileIlv_of_new (h : bits v.toNat 7 0 ≠ s.f (F.TILE_ILV_ILV t)) :
    s.tileIlv t v =
      if s.f (F.TILE_STAT_PSTATE t) ≠ 0 then s.fin .busy
      else if (s.setF (F.TILE_ILV_ILV t) (bits v.toNat 7 0)).tileOk t = false then s.fin .unsupported
      else (((s.setF (F.TILE_ILV_ILV t) (bits v.toNat 7 0)).showPairs t).failBad t).fin .ok := by
  simp [State.tileIlv, h]

end

section

variable {s : State} {t : Nat} {v : Word}

/-- Whether a write of TILE_CTL would give a metered tile a new divider (R399). -/
def State.locksRdiv (s : State) (t : Nat) (v : Word) : Bool := s.tileMetered t && bits v.toNat 13 8 != s.f (F.TILE_CTL_RDIV t)

/-- Whether a write of TILE_ILV would give a metered tile new pairs (R399). -/
def State.locksPairs (s : State) (t : Nat) (v : Word) : Bool := s.tileMetered t && bits v.toNat 7 0 != s.f (F.TILE_ILV_ILV t)

theorem State.locksRdiv_of_same (h : bits v.toNat 13 8 = s.f (F.TILE_CTL_RDIV t)) : s.locksRdiv t v = false := by simp [State.locksRdiv, h]

theorem State.locksRdiv_of_unmetered (h : s.tileMetered t = false) : s.locksRdiv t v = false := by simp [State.locksRdiv, h]

theorem State.locksRdiv_of_new (h : s.tileMetered t = true) (new : bits v.toNat 13 8 ≠ s.f (F.TILE_CTL_RDIV t)) : s.locksRdiv t v = true := by
  simp [State.locksRdiv, h, new]

theorem State.locksPairs_of_same (h : bits v.toNat 7 0 = s.f (F.TILE_ILV_ILV t)) : s.locksPairs t v = false := by simp [State.locksPairs, h]

theorem State.locksPairs_of_unmetered (h : s.tileMetered t = false) : s.locksPairs t v = false := by simp [State.locksPairs, h]

theorem State.locksPairs_of_new (h : s.tileMetered t = true) (new : bits v.toNat 7 0 ≠ s.f (F.TILE_ILV_ILV t)) : s.locksPairs t v = true := by
  simp [State.locksPairs, h, new]

end

section

variable {s : State} {r : Req} {t : Fin 24} {v : Word}

theorem exec_tileCtlWrite_ctl (tk : s.takes r (R.TILE_CTL t)) (free : s.locksRdiv t v = false) :
    exec (.tileCtlWrite r t false v) s = .next (s.tileCtl t v) :=
  act_regWrite_of_open (locked := fun s => s.locksRdiv t v) tk free fun s => s.tileCtl t v

theorem exec_tileCtlWrite_ctl_locked (alive : s.alive = true) (acc : accOf r (R.TILE_CTL t) = .rw) (shut : s.locksRdiv t v = true) :
    exec (.tileCtlWrite r t false v) s = .next (s.fin .locked) :=
  act_regWrite_of_shut (locked := fun s => s.locksRdiv t v) alive acc shut fun s => s.tileCtl t v

theorem exec_tileCtlWrite_ilv (tk : s.takes r (R.TILE_ILV t)) (free : s.locksPairs t v = false) :
    exec (.tileCtlWrite r t true v) s = .next (s.tileIlv t v) :=
  act_regWrite_of_open (locked := fun s => s.locksPairs t v) tk free fun s => s.tileIlv t v

theorem exec_tileCtlWrite_ilv_locked (alive : s.alive = true) (acc : accOf r (R.TILE_ILV t) = .rw) (shut : s.locksPairs t v = true) :
    exec (.tileCtlWrite r t true v) s = .next (s.fin .locked) :=
  act_regWrite_of_shut (locked := fun s => s.locksPairs t v) alive acc shut fun s => s.tileIlv t v

end

/-! ### Staged corrections -/

theorem exec_tileApply {s : State} {r : Req} {t : Fin 24} (tk : s.takes r (R.TILE_APPLY t)) (v : Word) :
    exec (.tileApply r t v) s =
      .next ((s.when (wbit v 0) fun s => s.each (range' 0 16) fun u i => u.applyChan t i).fin .ok) :=
  act_regWrite_of_takes tk _

section

variable {s : State} {t i : Nat}

theorem State.applyChan_of_metered (h : s.metered t i = true) : s.applyChan t i = s := by simp [State.applyChan, h]

/-- Noting that a tile has applied a channel's values leaves the registers alone. -/
theorem State.when_setTile_w (s : State) (c : Bool) (k : Nat) (f : State → Tile) (a : Nat) :
    (s.when c fun s => s.setTile k (f s)).w a = s.w a := by
  cases c <;> rfl

theorem State.applyChan_w_in_use (free : s.metered t i = false) :
    (s.applyChan t i).w (R.CH_OFF_ACT t i) = s.w (R.CH_OFF t i) ∧ (s.applyChan t i).w (R.CH_GAIN_ACT t i) = s.w (R.CH_GAIN t i) := by
  unfold State.applyChan
  simp only [free, Bool.false_or]
  split
  next h =>
    obtain ⟨off, gain⟩ : s.w (R.CH_OFF t i) = s.w (R.CH_OFF_ACT t i) ∧ s.w (R.CH_GAIN t i) = s.w (R.CH_GAIN_ACT t i) := by simpa using h
    exact ⟨off.symm, gain.symm⟩
  next =>
    have apart : R.CH_OFF_ACT t i ≠ R.CH_GAIN_ACT t i := by simp only [R.CH_OFF_ACT, R.CH_GAIN_ACT]; omega
    rw [State.when_setTile_w, State.when_setTile_w, State.setW_w_other _ _ _ _ apart, State.setW_w_same, State.setW_w_same]
    exact ⟨rfl, rfl⟩

end

/-! ### The excitation output -/

/-- The fields of EXC_CTL as a write that has an effect leaves them (R66). -/
def State.excPut (s : State) (t : Nat) (v : Word) : State :=
  (s.setF (F.EXC_CTL_RAMP t) (bits v.toNat 31 16)).setF (F.EXC_CTL_EN t) (b2n (wbit v 0))

/-- A write of EXC_CTL (R66 to R68). -/
def State.excCtl (s : State) (t : Nat) (v : Word) : State :=
  if wbit v 0 && !s.live then s.fin .mode
  else if wbit v 0 && s.b (F.EXC_STAT_FAULT t) then s.fin .ok
  else
    (((s.excPut t v).when (wbit v 0 && !(s.excPut t v).b (F.EXC_STAT_CONNECTED t)) fun s =>
      (s.setF (F.EXC_STAT_CONNECTED t) 1).setF (F.EXC_STAT_NOW t) 0).excSettle t).fin .ok

section

variable {s : State} {t : Nat} {v : Word}

theorem State.excCtl_of_off (off : wbit v 0 = false) : s.excCtl t v = ((s.excPut t v).excSettle t).fin .ok := by
  simp [State.excCtl, off]

theorem State.excCtl_of_mode (on : wbit v 0 = true) (dead : s.live = false) : s.excCtl t v = s.fin .mode := by
  simp [State.excCtl, on, dead]

theorem State.excCtl_of_fault (on : wbit v 0 = true) (live : s.live = true) (fault : s.b (F.EXC_STAT_FAULT t) = true) :
    s.excCtl t v = s.fin .ok := by
  simp [State.excCtl, on, live, fault]

theorem State.excCtl_of_on (on : wbit v 0 = true) (live : s.live = true) (sound : s.b (F.EXC_STAT_FAULT t) = false) :
    s.excCtl t v = (((s.excPut t v).when (!(s.excPut t v).b (F.EXC_STAT_CONNECTED t)) fun s =>
      (s.setF (F.EXC_STAT_CONNECTED t) 1).setF (F.EXC_STAT_NOW t) 0).excSettle t).fin .ok := by
  simp [State.excCtl, on, live, sound]

end

section

variable {s : State} {r : Req} {t : Fin 24} {v : Word}

theorem exec_excCtlWrite_lvl (tk : s.takes r (R.EXC_LVL t)) :
    exec (.excCtlWrite r t true v) s = .next (((s.setF (F.EXC_LVL_LVL t) v.toNat).excSettle t).fin .ok) :=
  act_regWrite_of_takes tk fun s => ((s.setF (F.EXC_LVL_LVL t) v.toNat).excSettle t).fin .ok

theorem exec_excCtlWrite_ctl (tk : s.takes r (R.EXC_CTL t)) : exec (.excCtlWrite r t false v) s = .next (s.excCtl t v) :=
  act_regWrite_of_takes tk fun s => s.excCtl t v

end

/-- Settles O36: each write is its register's effect behind the lock, and each clause one branch of that effect. -/
theorem tileRegisterWrites : Obligations.TileRegisterWrites := by
  intro s r t i v g a b rdiv ilv ctl paired same exc
  refine ⟨fun tk free legal h => ?gainKept, fun tk free legal active h => ?gainChanged, exec_gainChange_of_metered, fun tk free h => ?gainOver,
    fun tk h => ?ctlSame, fun tk free new lo hi sleeps fits => ?ctlTaken, fun tk free new range => ?ctlRange,
    fun tk free new lo hi awake => ?ctlBusy, fun tk free new lo hi sleeps exceeds => ?ctlLimits, fun alive acc metered new => ?ctlLocked,
    fun tk h => ?ilvSame, fun tk free new sleeps fits => ?ilvTaken, fun tk free new sleeps exceeds => ?ilvLimits,
    fun tk free new awake => ?ilvBusy, fun alive acc metered new => ?ilvLocked,
    fun tk on => ?apply, fun tk off => ?applyNot, State.applyChan_w_in_use, State.applyChan_of_metered,
    exec_excCtlWrite_lvl, fun tk on live sound apart => ?connects, fun tk on live sound joined => ?connected,
    fun tk off => ?disables, fun tk on dead => ?excMode, fun tk on live fault => ?excFault⟩
  case gainKept => rw [exec_gainChange_of_legal tk free legal, State.setGain_of_unchanged h]
  case gainChanged => rw [exec_gainChange_of_legal tk free legal, State.setGain_of_changed active h]; rfl
  case gainOver => rw [exec_gainChange_of_open tk free, if_pos h]
  case ctlSame => rw [exec_tileCtlWrite_ctl tk (State.locksRdiv_of_same h), State.tileCtl_of_same h]
  case ctlTaken =>
    rw [exec_tileCtlWrite_ctl tk (State.locksRdiv_of_unmetered free), State.tileCtl_of_new new, if_neg (by omega), if_neg (not_not_intro sleeps),
      if_neg (ne_false_of_eq_true fits)]
  case ctlRange => rw [exec_tileCtlWrite_ctl tk (State.locksRdiv_of_unmetered free), State.tileCtl_of_new new, if_pos range]
  case ctlBusy => rw [exec_tileCtlWrite_ctl tk (State.locksRdiv_of_unmetered free), State.tileCtl_of_new new, if_neg (by omega), if_pos awake]
  case ctlLimits =>
    rw [exec_tileCtlWrite_ctl tk (State.locksRdiv_of_unmetered free), State.tileCtl_of_new new, if_neg (by omega), if_neg (not_not_intro sleeps),
      if_pos exceeds]
  case ctlLocked => exact exec_tileCtlWrite_ctl_locked alive acc (State.locksRdiv_of_new metered new)
  case ilvSame => rw [exec_tileCtlWrite_ilv tk (State.locksPairs_of_same h), State.tileIlv_of_same h]
  case ilvTaken =>
    rw [exec_tileCtlWrite_ilv tk (State.locksPairs_of_unmetered free), State.tileIlv_of_new new, if_neg (not_not_intro sleeps),
      if_neg (ne_false_of_eq_true fits)]
  case ilvLimits => rw [exec_tileCtlWrite_ilv tk (State.locksPairs_of_unmetered free), State.tileIlv_of_new new, if_neg (not_not_intro sleeps), if_pos exceeds]
  case ilvBusy => rw [exec_tileCtlWrite_ilv tk (State.locksPairs_of_unmetered free), State.tileIlv_of_new new, if_pos awake]
  case ilvLocked => exact exec_tileCtlWrite_ilv_locked alive acc (State.locksPairs_of_new metered new)
  case apply => rw [exec_tileApply tk, on, State.when_true]
  case applyNot => rw [exec_tileApply tk, off, State.when_false]
  case connects =>
    have unjoined : (s.excPut t v).b (F.EXC_STAT_CONNECTED t) = false := apart
    rw [exec_excCtlWrite_ctl tk, State.excCtl_of_on on live sound, unjoined]; rfl
  case connected =>
    have joined : (s.excPut t v).b (F.EXC_STAT_CONNECTED t) = true := joined
    rw [exec_excCtlWrite_ctl tk, State.excCtl_of_on on live sound, joined]; rfl
  case disables => rw [exec_excCtlWrite_ctl tk, State.excCtl_of_off off]; rfl
  case excMode => rw [exec_excCtlWrite_ctl tk, State.excCtl_of_mode on dead]
  case excFault => rw [exec_excCtlWrite_ctl tk, State.excCtl_of_fault on live fault]

end Sys2Proof.Machine
end

section
/-!
PROOFS. What moves a tile without a write: its power states, the settling of a gain, the drive of its excitation output and its skew trims (R37, R38,
R53, R58, R59, R66, R67, R70 to R72).
-/

namespace Sys2Proof.Machine

/-! ### Power states -/

section

variable {s : State} {t : Nat} (runs : s.smplRuns = true) (legal : s.rateOk t = true)
include runs legal

/-- A rate in range clears RATE_ERR (R38). -/
theorem State.rateCheck_of_legal : s.rateCheck t = s.setF (F.TILE_STAT_RATE_ERR t) 0 := by simp [State.rateCheck, runs, legal]

theorem State.rateCheck_f_RATE_ERR : (s.rateCheck t).f (F.TILE_STAT_RATE_ERR t) = 0 := by
  rw [State.rateCheck_of_legal runs legal]
  exact State.setF_f_same s (F.TILE_STAT_RATE_ERR t) 0 (le_refl 10) (by decide : 10 < 32)

theorem State.rateCheck_mgp : (s.rateCheck t).mgp = s.mgp := by rw [State.rateCheck_of_legal runs legal]; rfl

end

section

variable {s : State} {t : Fin 24} (alive : s.alive = true)
include alive

theorem exec_tileWake (sleeps : s.f (F.TILE_STAT_PSTATE t) = 0) (live : s.live = true) (runs : s.smplRuns = true) (wanted : s.wanted t = true) :
    exec (.tileWake t) s =
      .next (if s.rateOk t then ((s.rateCheck t).setF (F.TILE_STAT_PSTATE t) 1).setF (F.TILE_STAT_IDLE t) 0 else s.rateCheck t) := by
  change execTileWake t s = _
  rw [execTileWake, act_alive _ _ alive]
  simp [sleeps, live, runs, wanted]

/-- A waking tile takes the trims of its calibration unless it is frozen, and is then ready (R70 to R72). -/
theorem exec_tileReady (trims : List Trim) (wakes : s.f (F.TILE_STAT_PSTATE t) = 1) :
    exec (.tileReady t trims) s = .next
      (let u := ((s.when (!s.b (F.TILE_STAT_CAL_FROZEN t)) fun s => s.each ((range' 0 17).zip trims) fun u x => u.setTrim t x.1 x.2).setF
        (F.TILE_STAT_PSTATE t) 2).setF (F.TILE_STAT_READY t) 1
      (u.setTile t { u.tile t with perLog := u.f (F.TILE_ROT_PERIOD_LOG2 t) }).restartWake t) := by
  change execTileReady t trims s = _
  rw [execTileReady, act_alive _ _ alive]
  simp only [wakes]
  rfl

theorem exec_tileSleep_of_active (active : s.f (F.TILE_STAT_PSTATE t) = 2) (idle : s.wanted t = false) :
    exec (.tileSleep t) s = .next (s.tileStop t 0) := by
  change execTileSleep t s = _
  rw [execTileSleep, act_alive _ _ alive]
  simp [active, idle]

/-! ### The settling of a gain -/

/-- The disturbance of a settled channel ends, and an overlap that its gain change holds starts again (R37, R53). -/
theorem exec_gainSettleDone {i : Fin 16} (moves : s.b (F.CH_STAT_UNSETTLED t i) = true) :
    exec (.gainSettleDone t i) s = .next
      (let u := (s.setF (F.CH_STAT_UNSETTLED t i) 0).settleUntil t i (u5 (s.setF (F.CH_STAT_UNSETTLED t i) 0).st)
      u.when ((u.tile t).ovHold && u.inputOf t (u.tile t).nextK == i) fun s => s.setTile t { (s.tile t).restart with ovHold := false }) := by
  change execGainSettleDone t i s = _
  rw [execGainSettleDone, act_alive _ _ alive]
  simp only [moves]
  rfl

/-! ### The drive of the excitation output -/

theorem exec_excRampStep_of_ramping (iload : BitVec 12) (ramping : s.b (F.EXC_STAT_RAMPING t) = true) :
    exec (.excRampStep t iload) s = .next (((s.setF (F.EXC_STAT_ILOAD t) iload.toNat).setF (F.EXC_STAT_NOW t)
      (if s.f (F.EXC_STAT_NOW t) < s.excTarget t then s.f (F.EXC_STAT_NOW t) + 1 else s.f (F.EXC_STAT_NOW t) - 1)).excSettle t) := by
  change execExcRampStep t iload s = _
  rw [execExcRampStep, act_alive _ _ alive]
  simp [ramping]

theorem exec_excFault_of_over (iload : BitVec 12) (joined : s.b (F.EXC_STAT_CONNECTED t) = true) (high : 3000 < iload.toNat) :
    exec (.excFault t iload) s = .next
      ((((s.setF (F.EXC_STAT_ILOAD t) iload.toNat).excCut t).setF (F.EXC_STAT_FAULT t) 1).raiseBit (R.TILE_EVT t) 5 0x030A t 0) := by
  change execExcFault t iload s = _
  rw [execExcFault, act_alive _ _ alive]
  simp [joined, high]

/-! ### The skew of a pair -/

section

variable {k : Fin 8} (active : s.tileActive t = true) (pair : s.pairEven t (2 * k) = true)
include active pair

/-- A quiet period holds the trim (R58). -/
theorem exec_skewUpdate_of_quiet (est : Int) : exec (.skewUpdate t k true est) s = .next (s.setF (F.SKEW_HOLD t k) 1) := by
  change execSkewUpdate t k true est s = _
  rw [execSkewUpdate, act_alive _ _ alive]
  simp [active, pair]

/-- An estimate above 25 moves the trim by a step in its direction, up to the limit (R58, R59). -/
theorem exec_skewUpdate_of_large {est : Int} (large : 25 < est.natAbs) :
    exec (.skewUpdate t k false est) s = .next
      (let low := s.setF (F.SKEW_HOLD t k) 0
      let n := if 0 < est then sx 8 (low.f (F.SKEW_TRIM t k)) + 1 else sx 8 (low.f (F.SKEW_TRIM t k)) - 1
      if n < -127 ∨ 127 < n then (low.setF (F.SKEW_LIMIT t k) 1).raiseBit (R.TILE_EVT t) 6 0x0309 t k
      else low.setF (F.SKEW_TRIM t k) (wrap 8 n)) := by
  change execSkewUpdate t k false est s = _
  have moves : ¬iabs est ≤ 25 := not_le_of_gt large
  rw [execSkewUpdate, act_alive _ _ alive]
  simp [active, pair, moves]

end

end

/-- Settles O37: each command has one effect in a running hub, whose branch the clause's premises choose. -/
theorem tilePowerAndDrive : Obligations.TilePowerAndDrive := by
  intro s t i k trims iload est low n alive
  refine ⟨fun sleeps live runs legal wanted => ?wakes, fun runs legal => ⟨State.rateCheck_f_RATE_ERR runs legal, State.rateCheck_mgp runs legal⟩,
    fun sleeps live runs illegal wanted => ?sleepsOn, fun wakes frozen => ?readyFrozen, fun wakes thawed => ?readyCalibrated,
    exec_tileSleep_of_active alive, exec_gainSettleDone alive, exec_excRampStep_of_ramping alive iload, exec_excFault_of_over alive iload,
    fun active pair => exec_skewUpdate_of_quiet alive active pair est, fun active pair large lo hi => ?skewMoves⟩
  case wakes => rw [exec_tileWake alive sleeps live runs wanted, if_pos legal]
  case sleepsOn => rw [exec_tileWake alive sleeps live runs wanted, if_neg (ne_true_of_eq_false illegal)]
  case readyFrozen => rw [exec_tileReady alive trims wakes, frozen]; rfl
  case readyCalibrated => rw [exec_tileReady alive trims wakes, thawed]; rfl
  case skewMoves =>
    have within : ¬(n < -127 ∨ 127 < n) := by omega
    exact (exec_skewUpdate_of_large alive active pair large).trans (congrArg _ (if_neg within))

end Sys2Proof.Machine
end

section
/-!
PROOFS. The rotation of a tile's spare: how an overlap ends, and what the calibrations between them leave (R48 to R50, R54, R55, R57).
-/

namespace Sys2Proof.Machine

section

variable {s : State} {t : Fin 24} (alive : s.alive = true)
include alive

/-- A period boundary that finds the rotation idle and allowed starts it (R48). -/
theorem exec_rotationBoundary_of_idle (active : s.tileActive t = true) (idle : s.f (F.TILE_STAT_PHASE t) = 0)
    (free : s.f (F.TILE_STAT_SPARE_POS t) = 16) (on : s.b (F.TILE_CTL_ROT_EN t) = true) (thawed : s.b (F.TILE_STAT_CAL_FROZEN t) = false) :
    exec (.rotationBoundary t) s =
      .next ((s.setTile t { s.tile t with perLog := s.f (F.TILE_ROT_PERIOD_LOG2 t) }).startRotation t) := by
  change execRotationBoundary t s = _
  rw [execRotationBoundary, act_alive _ _ alive]
  simp [active, idle, free, on, thawed]

/-! ### The first overlap -/

section

variable (phase : s.f (F.TILE_STAT_PHASE t) = 1) (full : (s.tile t).ovCount = 256)
include phase full

theorem exec_handIn_of_within (within : iabs (s.tile t).ovSum ≤ 256 * s.tol t) :
    exec (.handIn t) s =
      .next ((((s.setF (F.TILE_STAT_PHASE t) 2).setF (F.TILE_STAT_SPARE_POS t) (s.tile t).nextK).setSrc t (s.tile t).nextK 16).setTile t
        { (s.tile t).restart with rSum := (s.tile t).ovSum, aborts := 0, repeated := false, cals := 0 }) := by
  change execHandIn t s = _
  rw [execHandIn, act_alive _ _ alive]
  simp [phase, full, within]

/-- An aborted hand-in is counted, and the third in a row freezes the rotation (R54). -/
theorem exec_handIn_of_beyond (beyond : 256 * s.tol t < iabs (s.tile t).ovSum) :
    exec (.handIn t) s =
      .next (((((s.bump (F.TILE_HO_ABORT_IN t) 1).raiseBit (R.TILE_EVT t) 0 0x0302 t (s.tile t).nextK).setF (F.TILE_STAT_PHASE t) 4).setTile t
        { (s.tile t).restart with spareCal := true, cals := 0, aborts := (s.tile t).aborts + 1 }).when
          (decide (2 ≤ (s.tile t).aborts)) fun s => s.freeze t) := by
  change execHandIn t s = _
  rw [execHandIn, act_alive _ _ alive]
  simp [phase, full, Nat.not_le_of_gt beyond]

end

/-! ### The slice's calibration and the second overlap -/

theorem exec_sliceCalDone_of_in_cal (trim : Trim) (phase : s.f (F.TILE_STAT_PHASE t) = 2 ∨ s.f (F.TILE_STAT_PHASE t) = 5) :
    exec (.sliceCalDone t trim) s = .next
      (let u := (s.setTrim t (s.tile t).nextK trim).setF (F.TILE_STAT_PHASE t) 3
      u.setTile t { (u.tile t).restart with ovWait := 16, cals := (u.tile t).cals + 1 }) :=
  (act_alive _ _ alive).trans (congrArg _ (if_pos phase))

section

variable (phase : s.f (F.TILE_STAT_PHASE t) = 3) (full : (s.tile t).ovCount = 256)
include phase full

theorem exec_handBack_of_within (within : iabs (s.tile t).ovSum ≤ 256 * s.tol t) :
    exec (.handBack t) s =
      .next ((((s.setF (F.TILE_STAT_PHASE t) 4).setF (F.TILE_STAT_SPARE_POS t) 16).setSrc t (s.tile t).nextK (s.tile t).nextK).setTile t
        { (s.tile t).restart with
          fade := some ((s.tile t).nextK, (s.tile t).ovSum, 0), rSum := 0, nextK := ((s.tile t).nextK + 1) % 16, repeated := false,
          spareCal := false }) := by
  change execHandBack t s = _
  rw [execHandBack, act_alive _ _ alive]
  simp [phase, full, within]

/-- A hand-back outside the tolerance is repeated once; the second retires the slice (R55, R61). -/
theorem exec_handBack_of_beyond (beyond : 256 * s.tol t < iabs (s.tile t).ovSum) :
    exec (.handBack t) s = .next
      (let k := (s.tile t).nextK
      let u := (s.bump (F.TILE_HO_ABORT_BACK t) 1).raiseBit (R.TILE_EVT t) 0 0x0302 t k
      if (s.tile t).repeated then
        ((((u.setF (F.TILE_STAT_PHASE t) 0).setBit (R.TILE_RETIRE t) k).raiseBit (R.TILE_EVT t) 1 0x0303 t k).countCals t 0).freeze t
      else (u.setF (F.TILE_STAT_PHASE t) 5).setTile t { (s.tile t).restart with repeated := true }) := by
  change execHandBack t s = _
  rw [execHandBack, act_alive _ _ alive]
  simp [phase, full, Nat.not_le_of_gt beyond]

end

/-! ### The residual and the spare's calibration -/

theorem exec_fadeResidualDone_of_faded {k m : Nat} {e : Int} (fade : (s.tile t).fade = some (k, e, m)) (done : 4096 ≤ m) :
    exec (.fadeResidualDone t) s = .next (s.setTile t { s.tile t with fade := none }) := by
  change execFadeResidualDone t s = _
  rw [execFadeResidualDone, act_alive _ _ alive]
  simp [fade, done]

theorem exec_spareCalDone_of_in_cal (trim : Trim) (phase : s.f (F.TILE_STAT_PHASE t) = 4) :
    exec (.spareCalDone t trim) s = .next (((s.setTrim t 16 trim).setF (F.TILE_STAT_PHASE t) 0).countCals t 1) := by
  change execSpareCalDone t trim s = _
  rw [execSpareCalDone, act_alive _ _ alive]
  simp [phase]

end

/-- Settles O38: each step of a rotation acts in its own phase, and the sum of the overlap against the tolerance chooses its branch. -/
theorem handoverOfASlice : Obligations.HandoverOfASlice := by
  intro s t trim k m e x fresh alive
  refine ⟨exec_rotationBoundary_of_idle alive, exec_handIn_of_within alive, fun phase full beyond few => ?handInAborted,
    fun phase => exec_sliceCalDone_of_in_cal alive trim (.inl phase), exec_handBack_of_within alive,
    fun phase full beyond first => ?handBackAborted, exec_fadeResidualDone_of_faded alive, exec_spareCalDone_of_in_cal alive trim,
    fun phase full beyond again => ?retired⟩
  case handInAborted => rw [exec_handIn_of_beyond alive phase full beyond, decide_eq_false (Nat.not_le_of_gt few), State.when_false]
  case handBackAborted => exact (exec_handBack_of_beyond alive phase full beyond).trans (congrArg _ (if_neg (ne_true_of_eq_false first)))
  case retired => exact (exec_handBack_of_beyond alive phase full beyond).trans (congrArg _ (if_pos again))

end Sys2Proof.Machine
end

section
/-!
PROOFS. How the sample of a slice becomes the word of its channel (R38, R39, R43 to R45, R50).
-/

namespace Sys2Proof.Machine

/-- A slice that no residual fades for has its trimmed word left as it is (R50). -/
theorem Tile.handoverWord_of_slice {x : Tile} {sl : Nat} (slice : sl ≠ 16) (still : x.fade = none) (v : Int) : x.handoverWord sl v = v := by
  rw [Tile.handoverWord, if_neg slice, still]

theorem Tile.fadeStep_of_still {x : Tile} (still : x.fade = none) (sl : Nat) : x.fadeStep sl = x := by
  rw [Tile.fadeStep, still]

/-- The word of channel `i` noted as clipped or not, and counted where it is (R45). -/
def State.noteClip (s : State) (t i : Nat) (clips : Bool) : State :=
  (s.setTile t { s.tile t with clip := setBitTo (s.tile t).clip i clips }).when clips fun z => z.clip t i

/-- Outside an overlap, a slice that delivers its input and for which no residual fades gives the corrected word of its trimmed code. -/
theorem exec_convertSample_of_delivers {s : State} {t : Fin 24} {sl : Fin 17} {code : BitVec 16} {edge tau k : Nat} (alive : s.alive = true)
    (active : s.tileActive t = true) (counted : s.samples t edge = true) (place : s.placeOf t sl = some k)
    (sound : s.b (F.CH_STAT_FAILED t (s.inputOf t k)) = false) (apart : s.overlap t = false) (delivers : s.delivers t sl k = true)
    (slice : sl.val ≠ 16) (still : (s.tile t).fade = none) :
    exec (.convertSample t sl code edge tau) s = .next
      (let i := s.inputOf t k
      let y := s.corrected t i (s.sliceTrim t sl code)
      let w := s.noteClip t i (endCode code || satS 24 y != y)
      w.channelWord t i (w.sampleAt t sl k edge tau) edge (w.pairOdd t k) (satS 24 y)) := by
  change execConvertSample t sl code edge tau s = _
  rw [execConvertSample, act_alive _ _ alive]
  simp only [active, counted, place, sound, apart, Bool.false_and, State.when_false, delivers, Tile.handoverWord_of_slice slice still,
    Tile.fadeStep_of_still still]
  rfl

/-- Settles O39: the converted word is the one of `exec_convertSample_of_delivers`, written out. -/
theorem conversionsBecomeChannelWords : Obligations.ConversionsBecomeChannelWords := by
  intro s t sl code edge tau k i x y clips u w alive active counted place sound apart delivers slice still
  exact exec_convertSample_of_delivers alive active counted place sound apart delivers slice still

end Sys2Proof.Machine
end

section
/-!
PROOFS. What passes with no command (R80, R84, R476).
-/

namespace Sys2Proof.Machine

/-! ### What leaves ST where it stands -/

section

variable (s : State)

@[simp] theorem State.bump_st (x : Fld) (n : Nat) : (s.bump x n).st = s.st := rfl
@[simp] theorem State.bumpW_st (a n : Nat) : (s.bumpW a n).st = s.st := rfl
@[simp] theorem State.setTwo_st (a n : Nat) : (s.setTwo a n).st = s.st := rfl
@[simp] theorem State.setLane_st (n : Nat) (x : Lane) : (s.setLane n x).st = s.st := rfl
@[simp] theorem State.setPrbs_st (q : Nat) (x : Prbs) : (s.setPrbs q x).st = s.st := rfl

theorem State.when_st {f : State → State} (c : Bool) (h : ∀ t, (f t).st = t.st) : (s.when c f).st = s.st := by
  cases c
  · rfl
  · exact h s

theorem State.each_st {α : Type} {f : State → α → State} (xs : List α) (h : ∀ t x, (f t x).st = t.st) : (s.each xs f).st = s.st := by
  induction xs generalizing s with
  | nil => rfl
  | cons x xs ih => exact (ih (f s x)).trans (h s x)

end

/-! ### The calendar clock beside SYS -/

/-- The RTC moves alone but for VALID, which a value taken sets (R102 to R104). -/
theorem State.passRtc_cases (s : State) (n : Nat) : ∃ rtc phase load,
    s.passRtc n = { s with rtc := rtc, rtcPhase := phase, rtcLoad := load } ∨
    s.passRtc n = { s with rtc := rtc, rtcPhase := phase, rtcLoad := load }.setF F.RTC_STAT_VALID 1 := by
  unfold State.passRtc
  dsimp only
  split
  · exact ⟨_, _, _, .inl rfl⟩
  split
  · exact ⟨_, _, _, .inl rfl⟩
  unfold State.aonTicks
  split
  · exact ⟨_, _, _, .inr rfl⟩
  · exact ⟨_, _, _, .inl rfl⟩

@[simp] theorem State.passRtc_st (s : State) (n : Nat) : (s.passRtc n).st = s.st := by
  obtain ⟨_, _, _, e | e⟩ := s.passRtc_cases n <;> simp only [e, State.setF_st]

/-- Whether SYS runs rests on nothing of RTC_STAT. -/
theorem State.setF_RTC_STAT_VALID_sysRunning (s : State) (n : Nat) : (s.setF F.RTC_STAT_VALID n).sysRunning = s.sysRunning := by
  have mode : F.MODE_MODE.addr ≠ F.RTC_STAT_VALID.addr := by decide
  have seeded : F.TIME_STAT_SEEDED.addr ≠ F.RTC_STAT_VALID.addr := by decide
  unfold State.sysRunning State.mode State.b
  rw [State.setF_f_other _ _ _ _ mode, State.setF_f_other _ _ _ _ seeded, State.setF_alive,
    State.setF_rel]

@[simp] theorem State.passRtc_sysRunning (s : State) (n : Nat) : (s.passRtc n).sysRunning = s.sysRunning := by
  obtain ⟨_, _, _, e | e⟩ := s.passRtc_cases n <;> rw [e]
  · rfl
  · exact State.setF_RTC_STAT_VALID_sysRunning _ _

/-! ### SYS cycles -/

theorem State.passMason_st (n : Nat) (s : State) (m : Nat) : (s.passMason n m).st = s.st := State.when_st _ _ fun _ => rfl

theorem State.countBad_st (s : State) (n : Nat) (ys : List Sym) : (s.countBad n ys).st = s.st := by
  rw [State.countBad, apply_ite State.st, State.setF_st, State.bump_st, State.bump_st]
  exact ite_self _

theorem State.checkBits_st (s : State) (q : Nat) (bs : List Bool) : (s.checkBits q bs).st = s.st := by
  unfold State.checkBits
  dsimp only
  split
  · rfl
  · have lost (t : State) : (t.setF (F.PRBS_STAT_LOCK_LOST (4 * q)) 1).st = t.st := State.setF_st ..
    rw [State.setTwo_st, State.bumpW_st, State.when_st _ _ lost, State.setF_st, State.setPrbs_st]

/-- A word of a pattern generator reaches lanes, its checker and their registers (R332 to R335). -/
theorem State.prbsWord_st (q : Nat) (s : State) : (State.prbsWord q s).st = s.st := by
  have heard (t : State) (gs : List (BitVec 10)) (bs : List Bool) : ((t.hearSelf (4 * q) gs).checkBits q bs).st = t.st := by
    rw [State.checkBits_st, State.hearSelf, State.countBad_st, State.setLane_st]
  unfold State.prbsWord State.putPrbs
  dsimp only
  rw [State.when_st _ _ (fun t => heard t _ _), State.when_st, State.when_st, State.setPrbs_st] <;> exact fun _ => rfl

theorem State.prbsWords_st (q k : Nat) (s : State) : (State.prbsWords q k s).st = s.st := by
  induction k generalizing s with
  | zero => rfl
  | succ k ih => exact (ih _).trans (State.prbsWord_st q s)

theorem State.passPrbs_st (n : Nat) (s : State) (q : Nat) : (s.passPrbs n q).st = s.st := by
  unfold State.passPrbs
  split
  · exact State.prbsWords_st ..
  · rfl

/-- ST takes 4 ns in every SYS cycle (R80). -/
theorem State.passSys_st (n : Nat) (s : State) : (s.passSys n).st = (s.st + n * (4 * nsU)) % stMod :=
  (State.each_st _ _ (State.passPrbs_st n)).trans (State.each_st _ _ (State.passMason_st n))

theorem State.pxScanned_st (s : State) : s.pxScanned.st = s.st := by
  unfold State.pxScanned
  dsimp only
  split
  · split <;> rfl
  · rfl

/-! ### The tick -/

theorem State.tick_of_scan {s : State} (h : s.scan = true) : s.tick = s := if_pos h

theorem State.tick_of_running {s : State} (apart : s.scan = false) (runs : s.sysRunning = true) :
    s.tick = ((s.passRtc 1).passSys 1).pxScanned := by
  rw [State.tick, if_neg (ne_true_of_eq_false apart)]
  exact if_pos ((s.passRtc_sysRunning 1).trans runs)

theorem State.tick_st_of_stopped {s : State} (stands : s.sysRunning = false) : s.tick.st = s.st := by
  have stopped : ¬(s.passRtc 1).sysRunning = true := by rw [State.passRtc_sysRunning, stands]; decide
  unfold State.tick
  split
  · rfl
  · exact (congrArg State.st (if_neg stopped)).trans (s.passRtc_st 1)

/-- Settles O2: the step is the tick, which moves ST by one SYS cycle where SYS runs. -/
theorem emptyQueuePassesOneSysCycle : Obligations.EmptyQueuePassesOneSysCycle := by
  intro s idle
  have ticks : step s = .next s.tick := by simp only [step, idle]
  refine ⟨s.tick, ticks, (State.tick_keeps (Keeps.refl s)).queue.trans idle, State.tick_of_scan, fun apart runs => ?_, State.tick_st_of_stopped⟩
  rw [State.tick_of_running apart runs, State.pxScanned_st, State.passSys_st, State.passRtc_st]
  rfl

end Sys2Proof.Machine
end

section
/-!
PROOFS. The load of system time, the registers of the course grids and the SYNC commands (R82, R87 to R89, R91).
-/

namespace Sys2Proof.Machine

/-! ### Fields of words put together -/

section

variable {a b : Word} {h l k : Nat}

theorem bits_or_of_clear (clear : bits b.toNat h l = 0) : bits (a ||| b).toNat h l = bits a.toNat h l := by
  rw [BitVec.toNat_or, bits_or, clear, Nat.or_zero]

theorem bits_and_of_clear (clear : bits b.toNat h l = 0) : bits (a &&& b).toNat h l = 0 := by
  rw [BitVec.toNat_and, bits_and, clear, Nat.and_zero]

theorem wbit_or_of_clear (clear : wbit b k = false) : wbit (a ||| b) k = wbit a k := by rw [wbit_or, clear, Bool.or_false]

theorem wbit_or_of_set (set : wbit b k = true) : wbit (a ||| b) k = true := by rw [wbit_or, set, Bool.or_true]

theorem wbit_and_of_set (set : wbit b k = true) : wbit (a &&& b) k = wbit a k := by rw [wbit_and, set, Bool.and_true]

end

/-! ### ST_LOAD -/

/-- A load is refused outside BRINGUP and HOLD, then while a grid runs (R82). -/
theorem exec_stLoad {s : State} {r : Req} {v : Word} (takes : s.takes r R.ST_LOAD) (go : wbit v 0 = true) :
    exec (.stLoad r v) s = .next
      (let z := (s.meterLoad (s.time4 R.ST_SET)).moveSmpl ((s.time4 R.ST_SET : Int) - s.st)
      if s.mode ≠ 1 ∧ s.mode ≠ 2 then s.fin .mode
      else if s.gridsStopped then ({ z with st := s.time4 R.ST_SET, pps := { z.pps with mark := none } }.servoReset).fin .ok
      else s.fin .busy) := by
  refine (act_regWrite_of_takes takes _).trans (congrArg _ ?_)
  cases s.gridsStopped <;> simp [go]

/-! ### GRID_PER_NS and GRID_PER_FRAC -/

/-- A word of a grid's period, with its refusals in their order (R14, R15, R87; notes/assumptions/14.md). -/
def State.putPeriod (s : State) (g a : Nat) (v : Word) : State :=
  if s.gstate g != 0 then s.fin .busy
  else if (s.setW a v).per g < 25 * 2 ^ 31 then s.fin .unsupported
  else if !(s.setW a v).periodFits g then s.fin .unsupported
  else (s.setW a v).fin .ok

theorem exec_gridPerWrite {s : State} {r : Req} {g : Fin 4} {frac : Bool}
    (h : s.takes r (if frac then R.GRID_PER_FRAC g.val else R.GRID_PER_NS g.val)) (v : Word) :
    exec (.gridPerWrite r g frac v) s = .next (s.putPeriod g (if frac then R.GRID_PER_FRAC g.val else R.GRID_PER_NS g.val) v) :=
  act_regWrite_of_takes h fun s => s.putPeriod g (if frac then R.GRID_PER_FRAC g.val else R.GRID_PER_NS g.val) v

section

variable {s : State} {g a : Nat} {v : Word}

theorem State.putPeriod_of_moving (h : s.gstate g ≠ 0) : s.putPeriod g a v = s.fin .busy := by simp [State.putPeriod, h]

theorem State.putPeriod_of_short (h : s.gstate g = 0) (short : (s.setW a v).per g < 25 * 2 ^ 31) :
    s.putPeriod g a v = s.fin .unsupported := by
  simp only [State.putPeriod, h, if_pos short]; rfl

theorem State.putPeriod_of_unfit (h : s.gstate g = 0) (unfit : (s.setW a v).periodFits g = false) :
    s.putPeriod g a v = s.fin .unsupported := by
  rw [State.putPeriod, if_neg (by simp [h]), unfit, Bool.not_false, if_pos rfl, ite_self]

theorem State.putPeriod_taken (h : s.gstate g = 0) (legal : 25 * 2 ^ 31 ≤ (s.setW a v).per g) (fits : (s.setW a v).periodFits g = true) :
    s.putPeriod g a v = (s.setW a v).fin .ok := by
  rw [State.putPeriod, if_neg (by simp [h]), if_neg (Nat.not_lt.mpr legal), if_neg (by simp [fits])]

end

/-! ### GRID_CTL -/

/-- TYPE and CDIV of a grid as a write of GRID_CTL gives them. -/
def State.gridConfig (s : State) (g : Nat) (v : Word) : State :=
  (s.setF (F.GRID_CTL_TYPE g) (b2n (wbit v 0))).setF (F.GRID_CTL_CDIV g) (bits v.toNat 27 16)

section

variable {s : State} {g : Nat} {v : Word} (divides : bits v.toNat 27 16 ≠ 0)
include divides

/-- A STOP of a grid in use is refused, whatever TYPE and CDIV are written (R91). -/
theorem State.gridCtl_of_used (stop : wbit v 1 = true) (moving : s.gstate g ≠ 0) (used : s.gridUsed g = true) :
    s.gridCtl g v = s.fin .busy := by
  have held : (bit v.toNat 1 && s.gstate g != 0 && s.gridUsed g) = true := by
    rw [wbit] at stop
    simp [stop, moving, used]
  simp only [State.gridCtl, if_neg divides, held, if_true]
  exact ite_self _

/-- TYPE and CDIV of a STOPPED grid are taken, and those that a grid has already; a STOP where no active stream uses the grid (R87, R88, R91). -/
theorem State.gridCtl_of_free
    (still : s.gstate g = 0 ∨ s.f (F.GRID_CTL_TYPE g) = b2n (wbit v 0) ∧ s.f (F.GRID_CTL_CDIV g) = bits v.toNat 27 16)
    (free : wbit v 1 = false ∨ s.gstate g = 0 ∨ s.gridUsed g = false) :
    s.gridCtl g v = ((s.gridConfig g v).when (wbit v 1) fun s => s.stopGrid g).fin .ok := by
  have unchanged : ((b2n (bit v.toNat 0) != s.f (F.GRID_CTL_TYPE g) || bits v.toNat 27 16 != s.f (F.GRID_CTL_CDIV g)) && s.gstate g != 0) = false := by
    rcases still with e | ⟨e, e'⟩
    · simp [e]
    · simp [e, e', wbit]
  have unheld : (bit v.toNat 1 && s.gstate g != 0 && s.gridUsed g) = false := by
    rw [wbit] at free
    rcases free with e | e | e <;> simp [e]
  simp only [State.gridCtl, if_neg divides, unchanged, unheld]
  rfl

end

section

variable {s : State} {r : Req} {g : Fin 4} (h : s.takes r (R.GRID_CTL g)) (v : Word)
include h

theorem exec_gridCtlWrite : exec (.gridCtlWrite r g v) s = .next (s.gridCtl g v) :=
  act_regWrite_of_takes h fun s => s.gridCtl g v

theorem exec_gridStop : exec (.gridStop r g v) s = .next (s.gridCtl g (v ||| 2)) :=
  act_regWrite_of_takes h fun s => s.gridCtl g (v ||| 2)

end

/-! A word with the STOP bit set as well writes the same TYPE and CDIV. -/

section

variable (v : Word)

theorem bits_cdiv_or_stop : bits (v ||| 2).toNat 27 16 = bits v.toNat 27 16 := bits_or_of_clear rfl

theorem wbit_type_or_stop : wbit (v ||| 2) 0 = wbit v 0 := wbit_or_of_clear rfl

theorem wbit_or_stop : wbit (v ||| 2) 1 = true := wbit_or_of_set rfl

theorem State.gridConfig_or_stop (s : State) (g : Nat) : s.gridConfig g (v ||| 2) = s.gridConfig g v := by
  rw [State.gridConfig, bits_cdiv_or_stop, wbit_type_or_stop]; rfl

end

section

variable {s : State} {r : Req} {g : Fin 4} {v : Word} (h : s.takes r (R.GRID_CTL g)) (divides : bits v.toNat 27 16 ≠ 0)
include h divides

/-- GRID_STOP is refused of a grid in use that is not STOPPED (R91). -/
theorem exec_gridStop_of_used (moving : s.gstate g ≠ 0) (used : s.gridUsed g = true) : exec (.gridStop r g v) s = .next (s.fin .busy) := by
  rw [exec_gridStop h, State.gridCtl_of_used ((bits_cdiv_or_stop v).trans_ne divides) (wbit_or_stop v) moving used]

/-- GRID_STOP of a STOPPED grid, and of one that no active stream uses, is taken (R88, R91). -/
theorem exec_gridStop_of_free (typ : s.f (F.GRID_CTL_TYPE g) = b2n (wbit v 0)) (cdiv : s.f (F.GRID_CTL_CDIV g) = bits v.toNat 27 16)
    (free : s.gstate g = 0 ∨ s.gridUsed g = false) :
    exec (.gridStop r g v) s = .next (((s.gridConfig g v).stopGrid g).fin .ok) := by
  have same : s.f (F.GRID_CTL_TYPE g) = b2n (wbit (v ||| 2) 0) ∧ s.f (F.GRID_CTL_CDIV g) = bits (v ||| 2).toNat 27 16 := by
    rw [wbit_type_or_stop, bits_cdiv_or_stop]
    exact ⟨typ, cdiv⟩
  rw [exec_gridStop h, State.gridCtl_of_free ((bits_cdiv_or_stop v).trans_ne divides) (.inr same) (.inr free), wbit_or_stop,
    State.when_true, State.gridConfig_or_stop]

end

/-! A grid that is STOPPED and holds no SYNC is left as it is by a STOP with the TYPE and CDIV that it has. -/

section

variable {s : State} {g : Nat} {v : Word}

theorem State.gridConfig_w (typ : s.f (F.GRID_CTL_TYPE g) = b2n (wbit v 0)) (cdiv : s.f (F.GRID_CTL_CDIV g) = bits v.toNat 27 16) (a : Nat) :
    (s.gridConfig g v).w a = s.w a := by
  have kept : (s.setF (F.GRID_CTL_TYPE g) (b2n (wbit v 0))).f (F.GRID_CTL_CDIV g) = bits v.toNat 27 16 := by
    rw [State.f, State.setF_w_of_f _ _ _ (le_refl 0) typ]
    exact cdiv
  rw [State.gridConfig, State.setF_w_of_f _ _ _ (by decide : 16 ≤ 27) kept, State.setF_w_of_f _ _ _ (le_refl 0) typ]

theorem State.stopGrid_w (stopped : s.gstate g = 0) (a : Nat) : (s.stopGrid g).w a = s.w a :=
  State.setF_w_of_f (s.setGrid g { s.grid g with sync := none }) (F.GRID_STAT_STATE g) 0 (by decide : 0 ≤ 1) stopped a

theorem State.gridConfig_grid (k : Nat) : (s.gridConfig g v).grid k = s.grid k := by
  rw [State.gridConfig, State.grid, State.setF_grids, State.setF_grids, State.grid]

theorem State.stopGrid_grid (free : (s.grid g).sync = none) (k : Nat) : (s.stopGrid g).grid k = s.grid k := by
  have same : { s.grid g with sync := none } = s.grid g := by rw [← free]
  rw [State.stopGrid, State.grid, State.setF_grids, same]
  rcases eq_or_ne k g with rfl | n
  · exact Tab.get_set_same ..
  · exact Tab.get_set_other _ _ _ _ _ n

end

/-- Settles O24: the two refusals and acceptances of a STOP, by the state of the grid. -/
theorem stopOfAGridInUseOrStopped : Obligations.StopOfAGridInUseOrStopped := by
  intro s r g v h divides typ cdiv
  refine ⟨exec_gridStop_of_used h divides, fun stopped free => ?_⟩
  refine ⟨_, exec_gridStop_of_free h divides typ cdiv (.inl stopped), rfl, fun a => ?_, fun k => ?_, ?_⟩
  · have still : (s.gridConfig g v).gstate g = 0 := by rw [State.gstate, State.f, State.gridConfig_w typ cdiv]; exact stopped
    rw [State.fin_w, State.stopGrid_w still, State.gridConfig_w typ cdiv]
  · have free' : ((s.gridConfig g v).grid g).sync = none := by rw [State.gridConfig_grid]; exact free
    rw [State.grid, State.fin_grids, ← State.grid, State.stopGrid_grid free', State.gridConfig_grid]
  · rw [State.fin_pending, State.stopGrid, State.setF_pending, State.setGrid, State.gridConfig, State.setF_pending, State.setF_pending]

/-! ### GRID_SYNC_CMD -/

/-- A SYNC at least 100 µs ahead arms the grids named, where no MACHINE grid among them waits for MCLK (R89). -/
theorem State.armGrids_of_future {s : State} {gs : List Nat} {t : Nat} (live : s.live = true) (future : s.st + 100000 * nsU ≤ t)
    (locked : s.machineUnlocked gs = false) : s.armGrids gs t = (s.each gs fun u k => u.armGrid k t).fin .ok := by
  simp [State.armGrids, live, locked, Nat.not_lt.mpr future]

section

variable {s : State} {r : Req} (h : s.takes r R.GRID_SYNC_CMD) (live : s.live = true)
include h live

theorem exec_gridSyncCancel (m : BitVec 4) :
    exec (.gridSyncCancel r m) s = .next ((s.each (maskGrids m) fun u k => u.disarm k).fin .ok) := by
  refine (act_regWrite_of_takes h _).trans (congrArg _ ?_)
  rw [live]
  rfl

section

variable {m : BitVec 4} (locked : s.machineUnlocked (maskGrids m) = false)
include locked

theorem exec_gridSyncAt (future : s.st + 100000 * nsU ≤ s.two R.GRID_SYNC_SEC % 2 ^ 48 * secU + (s.w R.GRID_SYNC_NS).toNat * nsU) :
    exec (.gridSyncAt r m) s = .next
      ((s.each (maskGrids m) fun u k => u.armGrid k (s.two R.GRID_SYNC_SEC % 2 ^ 48 * secU + (s.w R.GRID_SYNC_NS).toNat * nsU)).fin .ok) :=
  (act_regWrite_of_takes h _).trans (congrArg _ (State.armGrids_of_future live future locked))

/-- The whole second that NEXT_SEC names is far enough ahead by its choice (R89). -/
theorem exec_gridSyncNextSec :
    exec (.gridSyncNextSec r m) s = .next
      ((s.each (maskGrids m) fun u k => u.armGrid k (ceilDiv (s.st + 100000 * nsU) secU * secU)).fin .ok) :=
  (act_regWrite_of_takes h _).trans
    (congrArg _ (State.armGrids_of_future live (le_ceilDiv_mul _ _ (by decide : 0 < secU)) locked))

end

end

/-- Settles O40: each clause is one branch of its command's meaning. -/
theorem systemTimeAndGrids : Obligations.SystemTimeAndGrids := by
  intro s r g frac v m a at_ sec cdiv idleCtl
  refine ⟨fun h go mode stopped => ?loads, fun h go m1 m2 => ?loadMode, fun h go mode moving => ?loadBusy,
    fun h legal stopped fits => ?period, fun h stay divides stopped => ?configures,
    fun h divides typ same free => exec_gridStop_of_free h divides typ same (.inr free),
    fun h moving used divides stop => ?stopBusy, fun h live future locked => exec_gridSyncAt h live locked future,
    fun h live locked => exec_gridSyncNextSec h live locked, fun h live => exec_gridSyncCancel h live m,
    fun h moving => ?periodBusy, fun h stopped short => ?periodShort, fun h stopped unfit => ?periodUnfit⟩
  case loads => rw [exec_stLoad h go, if_neg (by omega), if_pos stopped]
  case loadMode => rw [exec_stLoad h go, if_pos ⟨m1, m2⟩]
  case loadBusy => rw [exec_stLoad h go, if_neg (by omega), if_neg (ne_true_of_eq_false moving)]
  case period => rw [exec_gridPerWrite h, State.putPeriod_taken stopped legal fits]
  case configures => rw [exec_gridCtlWrite h, State.gridCtl_of_free divides (.inl stopped) (.inl stay), stay, State.when_false]; rfl
  case stopBusy => rw [exec_gridCtlWrite h, State.gridCtl_of_used divides stop moving used]
  case periodBusy => rw [exec_gridPerWrite h, State.putPeriod_of_moving moving]
  case periodShort => rw [exec_gridPerWrite h, State.putPeriod_of_short stopped short]
  case periodUnfit => rw [exec_gridPerWrite h, State.putPeriod_of_unfit stopped unfit]

end Sys2Proof.Machine
end

section
/-!
PROOFS. The SYNC instant of a grid and its next course (R86, R88 to R90, R92, R93, R95, R130, R159, R169).
-/

namespace Sys2Proof.Machine

/-! ### The SYNC instant -/

/-- A grid at its SYNC instant: the paths of its channels begin again after a tail, its groups start afresh, and it runs with its courses numbered anew
(R88, R90, R130, R159). -/
def State.beginGrid (s : State) (g edge t : Nat) (at0 : Option Nat) : State :=
  let begun := ((s.reach t).each (s.gridPaths g) fun u q => u.restartPath q.1 q.2 1).syncGroups g
  ((begun.setF (F.GRID_STAT_STATE g) 2).setF (F.GRID_STAT_WRAPS g) 0).setGrid g ((begun.grid g).renumber (s.running g) edge at0)

theorem State.sameEdge_of_time {s : State} {g : Nat} (time : s.machine g = false) (t edge : Nat) : s.sameEdge g t edge = true := by
  rw [State.sameEdge, time]

theorem State.sameEdge_of_machine {s : State} {g t edge : Nat} (h : s.smpl.sync = none ∨ s.smpl.sync = some (t, edge)) :
    s.sameEdge g t edge = true := by
  rcases h with e | e <;> rw [State.sameEdge, e] <;> cases s.machine g <;> simp

theorem State.sameEdge_of_taken {s : State} {g t edge e : Nat} (machine : s.machine g = true) (taken : s.smpl.sync = some (t, e)) (other : e ≠ edge) :
    s.sameEdge g t edge = false := by
  rw [State.sameEdge, machine, taken]
  simp [other]

section

variable {s : State} {g : Fin 4} {edge t : Nat} (alive : s.alive = true)
include alive

theorem exec_gridSyncInstant_of_unarmed (h : s.armed g = false) : exec (.gridSyncInstant g edge) s = .next s := by
  change execGridSyncInstant g edge s = _
  rw [execGridSyncInstant, act_alive _ _ alive]
  simp only [h]

section

variable (armed : s.armed g = true) (sync : (s.grid g).sync = some t)
include armed sync

theorem exec_gridSyncInstant_of_other_edge (other : s.sameEdge g t edge = false) : exec (.gridSyncInstant g edge) s = .next s := by
  change execGridSyncInstant g edge s = _
  rw [execGridSyncInstant, act_alive _ _ alive]
  simp only [armed, sync, other]
  rfl

theorem exec_gridSyncInstant_of_time (time : s.machine g = false) :
    exec (.gridSyncInstant g edge) s = .next (((s.beginGrid g edge t none).setTime4 (R.GRID_EPOCH g) t).syncBreaks g) := by
  change execGridSyncInstant g edge s = _
  rw [execGridSyncInstant, act_alive _ _ alive]
  simp only [armed, sync, time, State.sameEdge_of_time time]
  rfl

theorem exec_gridSyncInstant_of_machine (machine : s.machine g = true) (same : s.sameEdge g t edge = true) :
    exec (.gridSyncInstant g edge) s = .next (((s.beginGrid g edge t (some t)).noteSync t edge).syncBreaks g) := by
  change execGridSyncInstant g edge s = _
  rw [execGridSyncInstant, act_alive _ _ alive]
  simp only [armed, sync, machine, same]
  rfl

end

end

/-! ### The next course -/

/-- The instant of a grid's next course: computed of a TIME grid, measured of a MACHINE grid (R86, R92). -/
def State.courseAt (s : State) (g edge tau : Nat) : Nat :=
  if s.machine g then (s.edgeTime edge tau).toNat else s.instant5 g (s.grid g).next

/-- The pending SYNC of an armed grid has come: no course of the old numbering falls any more (R88). -/
def Grid.ends (x : Grid) (armed : Bool) (at_ : Nat) : Bool :=
  match x.sync with
  | some t => armed && decide (u5 t ≤ at_)
  | none => false

/-- A course of a MACHINE grid falls on its own edge of a running SMPL (R92). -/
def State.onEdge (s : State) (g edge at_ : Nat) : Bool :=
  !s.machine g || (s.smplRuns && edge == (s.grid g).nextEdge (s.f (F.GRID_CTL_CDIV g)) && s.firstEdge (s.grid g) at_)

theorem Grid.ends_of_none {x : Grid} (h : x.sync = none) (armed : Bool) (at_ : Nat) : x.ends armed at_ = false := by rw [Grid.ends, h]

theorem Grid.ends_of_some {x : Grid} {t : Nat} (h : x.sync = some t) (armed : Bool) (at_ : Nat) :
    x.ends armed at_ = (armed && decide (u5 t ≤ at_)) := by rw [Grid.ends, h]

/-- The next course of a running grid falls, wrapped where its number would pass 2^48 − 1, unless a SYNC has ended the numbering or the edge is not the
course's. -/
theorem exec_courseInstant {s u : State} {g : Fin 4} (edge tau : Nat) (alive : s.alive = true)
    (e : (s.when (decide (2 ^ 48 ≤ (s.grid g).next)) fun s => s.wrapCourse g) = u) :
    exec (.courseInstant g edge tau) s = .next
      (if !s.running g || (u.grid g).ends (s.armed g) (u.courseAt g edge tau) || !u.onEdge g edge (u.courseAt g edge tau) then s
      else u.courseFalls g (u.courseAt g edge tau) edge) := by
  subst e
  change execCourseInstant g edge tau s = _
  rw [execCourseInstant, act_alive _ _ alive]
  rfl

section

variable {s : State} {g : Fin 4} {edge tau : Nat}

theorem State.when_wrap_of_lt (h : (s.grid g).next < 2 ^ 48) : (s.when (decide (2 ^ 48 ≤ (s.grid g).next)) fun s => s.wrapCourse g) = s := by
  rw [decide_eq_false (Nat.not_le.mpr h), State.when_false]

theorem State.when_wrap_of_le (h : 2 ^ 48 ≤ (s.grid g).next) :
    (s.when (decide (2 ^ 48 ≤ (s.grid g).next)) fun s => s.wrapCourse g) = s.wrapCourse g := by
  rw [decide_eq_true h, State.when_true]

section

variable {u : State} (alive : s.alive = true) (e : (s.when (decide (2 ^ 48 ≤ (s.grid g).next)) fun s => s.wrapCourse g) = u)
include alive e

theorem exec_courseInstant_of_stopped (h : s.running g = false) : exec (.courseInstant g edge tau) s = .next s := by
  rw [exec_courseInstant edge tau alive e, h]
  rfl

theorem exec_courseInstant_of_ended (h : (u.grid g).ends (s.armed g) (u.courseAt g edge tau) = true) :
    exec (.courseInstant g edge tau) s = .next s := by
  rw [exec_courseInstant edge tau alive e, h, Bool.or_true, Bool.true_or, if_pos rfl]

theorem exec_courseInstant_of_off_edge (h : u.onEdge g edge (u.courseAt g edge tau) = false) :
    exec (.courseInstant g edge tau) s = .next s := by
  rw [exec_courseInstant edge tau alive e, h, Bool.not_false, Bool.or_true, if_pos rfl]

theorem exec_courseInstant_of_falls (running : s.running g = true) (goes : (u.grid g).ends (s.armed g) (u.courseAt g edge tau) = false)
    (on : u.onEdge g edge (u.courseAt g edge tau) = true) :
    exec (.courseInstant g edge tau) s = .next (u.courseFalls g (u.courseAt g edge tau) edge) := by
  rw [exec_courseInstant edge tau alive e, running, goes, on]
  rfl

end

theorem State.courseAt_of_time (time : s.machine g = false) : s.courseAt g edge tau = s.instant5 g (s.grid g).next :=
  if_neg (ne_true_of_eq_false time)

theorem State.courseAt_of_machine (machine : s.machine g = true) : s.courseAt g edge tau = (s.edgeTime edge tau).toNat := if_pos machine

theorem State.onEdge_of_time (time : s.machine g = false) (at_ : Nat) : s.onEdge g edge at_ = true := by
  rw [State.onEdge, time]; rfl

theorem State.onEdge_of_machine (machine : s.machine g = true) (at_ : Nat) :
    s.onEdge g edge at_ = true ↔
      s.smplRuns = true ∧ edge = (s.grid g).edge0 + s.f (F.GRID_CTL_CDIV g) * (s.grid g).next ∧ s.firstEdge (s.grid g) at_ = true := by
  simp [State.onEdge, machine, Grid.nextEdge, and_assoc]

end

section

variable {s : State} {x : Grid} {t : Nat} {at_ : Int} (h : x.at0 = some t)
include h

theorem State.firstEdge_of_early (early : at_ < u5 t) : s.firstEdge x at_ = false := by
  simp [State.firstEdge, h, early]

theorem State.firstEdge_of_late (late : u5 t + s.widestSmpl ≤ at_) : s.firstEdge x at_ = false := by
  simp [State.firstEdge, h, late]

end

/-! ### The wrap of the course numbers -/

/-- The numbers of a grid's courses begin again at 0, with WRAPS counted; the positions and edges go on (R93). -/
def State.wrapNumbers (s : State) (g : Nat) : State :=
  (s.bump (F.GRID_STAT_WRAPS g) 1).setGrid g
    { s.grid g with
      next := 0, prev := 2 ^ 48 - 1, base := (s.grid g).base + 2 ^ 48, edge0 := (s.grid g).edge0 + s.f (F.GRID_CTL_CDIV g) * 2 ^ 48 }

theorem State.wrapCourse_eq (s : State) (g : Nat) :
    s.wrapCourse g =
      ((s.wrapNumbers g).when (!(s.wrapNumbers g).machine g) fun s => s.setTime4 (R.GRID_EPOCH g) ((s.epoch g + s.per g * 2 ^ 32) % stMod)).raiseBit
        R.TIME_EVT 7 0x0208 0 g := rfl

theorem State.grid_of_eventOnly {s t : State} (h : s.EventOnly t) (g : Nat) : t.grid g = s.grid g := by
  obtain ⟨_, _, _, _, rfl⟩ := h
  rfl

theorem State.raiseBit_grid (s : State) (a i code src detail g : Nat) : (s.raiseBit a i code src detail).grid g = s.grid g :=
  State.grid_of_eventOnly ((s.setW_eventOnly ..).trans (State.raise_eventOnly ..)) g

theorem State.setTime4_grid (s : State) (a t g : Nat) : (s.setTime4 a t).grid g = s.grid g := State.grid_of_eventOnly (s.setWs_eventOnly ..) g

theorem State.wrapCourse_grid (s : State) (g : Nat) : (s.wrapCourse g).grid g = (s.wrapNumbers g).grid g := by
  rw [State.wrapCourse_eq, State.raiseBit_grid]
  cases (s.wrapNumbers g).machine g
  · rw [Bool.not_false, State.when_true, State.setTime4_grid]
  · rw [Bool.not_true, State.when_false]

theorem State.wrapNumbers_grid (s : State) (g : Nat) :
    (s.wrapNumbers g).grid g =
      { s.grid g with
        next := 0, prev := 2 ^ 48 - 1, base := (s.grid g).base + 2 ^ 48, edge0 := (s.grid g).edge0 + s.f (F.GRID_CTL_CDIV g) * 2 ^ 48 } :=
  Tab.get_set_same ..

/-- Settles O41: the SYNC of an armed grid by its kind and edge; the next course by the branches of `exec_courseInstant`. -/
theorem coursesAndTheSyncInstant : Obligations.CoursesAndTheSyncInstant := by
  intro s g edge tau t e x n at_ w z begun first falls alive
  refine ⟨fun armed sync time => exec_gridSyncInstant_of_time alive armed sync time,
    fun armed sync machine same => exec_gridSyncInstant_of_machine alive armed sync machine (State.sameEdge_of_machine same),
    fun armed sync machine taken other => exec_gridSyncInstant_of_other_edge alive armed sync (State.sameEdge_of_taken machine taken other),
    exec_gridSyncInstant_of_unarmed alive,
    fun stopped lt => exec_courseInstant_of_stopped alive (State.when_wrap_of_lt lt) stopped,
    fun running lt time free => ?timeFree, fun running lt time sync before => ?timeBefore, fun running lt time armed sync after => ?timeAfter,
    fun running le time free => ?wrapped, ⟨?next, ?base⟩, fun time => ?wraps, fun running lt machine free runs own first => ?machineFalls,
    fun running lt machine off => ?machineOff,
    fun at0 early => State.firstEdge_of_early at0 (by exact_mod_cast early), fun at0 late => State.firstEdge_of_late at0 late⟩
  case timeFree =>
    rw [exec_courseInstant_of_falls alive (State.when_wrap_of_lt lt) running (Grid.ends_of_none free ..) (State.onEdge_of_time time _),
      State.courseAt_of_time time]
    rfl
  case timeBefore =>
    have goes : (s.grid g).ends (s.armed g) (s.courseAt g edge tau) = false := by
      rw [State.courseAt_of_time time, Grid.ends_of_some sync, decide_eq_false (Nat.not_le.mpr before), Bool.and_false]
    rw [exec_courseInstant_of_falls alive (State.when_wrap_of_lt lt) running goes (State.onEdge_of_time time _), State.courseAt_of_time time]
    rfl
  case timeAfter =>
    refine exec_courseInstant_of_ended alive (State.when_wrap_of_lt lt) ?_
    rw [State.courseAt_of_time time, Grid.ends_of_some sync, armed, decide_eq_true after]
    rfl
  case wrapped =>
    rw [exec_courseInstant_of_falls alive (State.when_wrap_of_le le) running (Grid.ends_of_none free ..) (State.onEdge_of_time time _),
      State.courseAt_of_time time]
    rfl
  case next => rw [State.wrapCourse_grid, State.wrapNumbers_grid]
  case base => rw [State.wrapCourse_grid, State.wrapNumbers_grid]
  case wraps =>
    have time : (s.wrapNumbers g).machine g = false := time
    refine (s.wrapCourse_eq g).trans ?_
    rw [time]
    rfl
  case machineFalls =>
    have at_eq : s.courseAt g edge tau = at_ := State.courseAt_of_machine machine
    have on : s.onEdge g edge (s.courseAt g edge tau) = true := by
      rw [at_eq, State.onEdge_of_machine machine]
      exact ⟨runs, own, first⟩
    rw [exec_courseInstant_of_falls alive (State.when_wrap_of_lt lt) running (Grid.ends_of_none free ..) on, at_eq]
    rfl
  case machineOff =>
    refine exec_courseInstant_of_off_edge alive (State.when_wrap_of_lt lt) (eq_false_of_ne_true ?_)
    rw [State.courseAt_of_machine machine, State.onEdge_of_machine machine]
    rintro ⟨runs, own, first⟩
    rcases off with h | h | h
    · exact h own
    · exact absurd runs (ne_true_of_eq_false h)
    · exact absurd first (ne_true_of_eq_false h)

end Sys2Proof.Machine
end

section
/-!
PROOFS. The sampling clock and its reference MCLK (R96 to R98, R115, R503).
-/

namespace Sys2Proof.Machine

/-! ### SMPL_CTL -/

/-- VDIV and SRC as a write of SMPL_CTL gives them. -/
def State.smplConfig (s : State) (v : Word) : State :=
  (s.setF F.SMPL_CTL_VDIV (bits v.toNat 12 0)).setF F.SMPL_CTL_SRC (b2n (wbit v 16))

/-- The locks after a change of SRC (notes/assumptions/29.md). -/
def State.sourceChanged (s : State) (mclk : Bool) : State :=
  ((s.setF F.MCLK_STAT_LOCK 0).setF F.MCLK_STAT_HOLDOVER 0).setF F.TIME_STAT_SMPL_LOCK (b2n (!mclk))

theorem exec_smplCtlWrite {s : State} {r : Req} (h : s.takes r R.SMPL_CTL) (unmetered : s.anyMetered = false) (v : Word) :
    exec (.smplCtlWrite r false v) s = .next (s.smplCtl v) :=
  act_regWrite_of_open (locked := fun s => s.anyMetered) h unmetered fun s => s.smplCtl v

section

variable {s : State} {v : Word}

theorem State.smplCtl_of_working (work : s.tilesQuiet = false) : s.smplCtl v = s.fin .busy := by
  simp [State.smplCtl, work]

section

variable (quiet : s.tilesQuiet = true)
include quiet

theorem State.smplCtl_of_range (h : bits v.toNat 12 0 < 125 ∨ 5000 < bits v.toNat 12 0) : s.smplCtl v = s.fin .unsupported := by
  simp [State.smplCtl, quiet, h]

theorem State.smplCtl_of_source (h : s.sourceOk (wbit v 16) = false) : s.smplCtl v = s.fin .unsupported := by
  simp [State.smplCtl, quiet, h]

/-- What is taken has SMPL lock anew and the tiles' rates checked (R38, R96). -/
theorem State.smplCtl_taken (low : 125 ≤ bits v.toNat 12 0) (high : bits v.toNat 12 0 ≤ 5000) (h : s.sourceOk (wbit v 16) = true) :
    s.smplCtl v =
      ((s.smplConfig v).when (wbit v 16 != s.b F.SMPL_CTL_SRC) fun s => s.sourceChanged (wbit v 16)).smplLock.rateChecks.fin .ok := by
  rw [State.smplCtl, quiet, if_neg (by decide), if_neg (by omega), h]
  rfl

end

end

/-! ### SMPL_PHASE -/

theorem exec_smplPhaseWrite {s : State} {r : Req} (h : s.takes r R.SMPL_PHASE) (v : Word) :
    exec (.smplPhaseWrite r v) s = .next
      (if bits v.toNat 18 0 < 64 * s.f F.SMPL_CTL_VDIV then (s.smplNow.setF F.SMPL_PHASE_STEPS (bits v.toNat 18 0)).fin .ok
      else s.fin .unsupported) :=
  act_regWrite_of_takes h _

/-! ### MCLK_CTL -/

section

variable {s : State} {r : Req} (h : s.takes r R.MCLK_CTL) (v : Word)
include h

theorem exec_mclkCtlWrite : exec (.smplCtlWrite r true v) s = .next (s.mclkCtl v) := act_regWrite_of_takes h fun s => s.mclkCtl v

theorem exec_mclkRelock : exec (.mclkRelock r v) s = .next (s.mclkCtl (v ||| 1)) := act_regWrite_of_takes h fun s => s.mclkCtl (v ||| 1)

end

/-- The multiplier that MCLK has already is taken; RELOCK acts in a holdover whose reference is there and in range (R98; notes/assumptions/38.md). -/
theorem State.mclkCtl_of_same {s : State} {v : Word} {m : Nat} (mul : bits v.toNat 28 16 = m) (low : 50 ≤ m) (high : m ≤ 5000)
    (same : s.f F.MCLK_CTL_MMUL = m) (sound : wbit v 0 = false ∨ s.b F.MCLK_STAT_LOS = false) :
    s.mclkCtl v =
      (let u := s.setF F.MCLK_CTL_MMUL m
      (u.when (wbit v 0 && u.b F.SMPL_CTL_SRC && u.b F.MCLK_STAT_HOLDOVER && u.productOk (u.f F.MCLK_STAT_FREQ)) State.relock).fin .ok) := by
  have there : (wbit v 0 && s.b F.MCLK_STAT_LOS) = false := by rcases sound with e | e <;> simp [e]
  have unchanged : (m != s.f F.MCLK_CTL_MMUL) = false := by simp [same]
  simp only [State.mclkCtl, mul, unchanged, there]
  rw [if_neg (by omega), if_neg (by simp), if_neg (by simp)]
  rfl

/-! ### The states of MCLK -/

/-- The VCO holds: HOLDOVER, no lock and event 0x0205 (R98, R503). -/
def State.holdover (s : State) : State :=
  (((s.setF F.MCLK_STAT_HOLDOVER 1).setF F.MCLK_STAT_LOCK 0).setF F.TIME_STAT_SMPL_LOCK 0).raiseBit R.TIME_EVT 4 0x0205 0 0

section

variable {s : State} {freq : BitVec 24} (alive : s.alive = true) (awake : s.mode ≠ 0)
include alive awake

omit alive in
theorem State.sysOn_of_awake : s.sysOn = true := by simp [State.sysOn, awake]

theorem exec_mclkLockAcquired (src : s.b F.SMPL_CTL_SRC = true) (lock : s.b F.MCLK_STAT_LOCK = false) (hold : s.b F.MCLK_STAT_HOLDOVER = false)
    (los : s.b F.MCLK_STAT_LOS = false) (inRange : s.productOk freq.toNat = true) :
    exec (.mclkLockAcquired freq) s =
      .next ((((s.setF F.MCLK_STAT_FREQ freq.toNat).setF F.MCLK_STAT_LOCK 1).setF F.TIME_STAT_SMPL_LOCK 1).smplLock.rateChecks) := by
  change execMclkLockAcquired freq s = _
  rw [execMclkLockAcquired, act_alive _ _ alive]
  simp only [State.sysOn_of_awake awake, src, lock, hold, los, inRange]
  rfl

theorem exec_mclkReturn : exec (.mclkReturn freq) s = .next ((s.setF F.MCLK_STAT_LOS 0).setF F.MCLK_STAT_FREQ freq.toNat) :=
  (act_alive _ _ alive).trans (congrArg _ (if_pos (State.sysOn_of_awake awake)))

/-- A locked VCO that loses its reference, or whose reference leaves the range, holds the frequency that it had. -/
theorem exec_mclkLoss_of_locked {los : Bool} (lock : s.b F.MCLK_STAT_LOCK = true) {u : State}
    (e : u = if los then s.smplHold.setF F.MCLK_STAT_LOS 1 else s.smplHold.setF F.MCLK_STAT_FREQ freq.toNat)
    (lost : los = true ∨ u.productOk freq.toNat = false) : exec (.mclkLoss los freq) s = .next u.holdover := by
  have locked : u.b F.MCLK_STAT_LOCK = true := by
    rw [← lock, e]
    unfold State.b
    cases los
    · exact congrArg (· != 0) (State.setF_f_apart s.smplHold F.MCLK_STAT_FREQ F.MCLK_STAT_LOCK freq.toNat (by decide) (by decide) (by decide) (by decide))
    · exact congrArg (· != 0) (State.setF_f_apart s.smplHold F.MCLK_STAT_LOS F.MCLK_STAT_LOCK 1 (by decide) (by decide) (by decide) (by decide))
  have gone : (los || !u.productOk freq.toNat) = true := by rcases lost with h | h <;> simp [h]
  change execMclkLoss los freq s = _
  rw [execMclkLoss, act_alive _ _ alive, State.sysOn_of_awake awake, lock]
  simp only [State.when_true, ← e, locked, gone]
  rfl

end

/-- Settles O42: the branches of `smplCtl` and `mclkCtl`, and the events of MCLK. -/
theorem sampleClockAndReference : Obligations.SampleClockAndReference := by
  intro s r v freq vdiv mul held
  refine ⟨fun h free low high same quiet fits => ?same, fun h free low high other quiet fits => ?changed,
    fun h free quiet low high unfit => ?source, fun h free quiet range => ?range, fun h low high same off => ?multiplier,
    fun h below => ?phase, fun h beyond => ?phaseRange, fun alive awake => exec_mclkLockAcquired alive awake,
    fun alive awake lock => exec_mclkLoss_of_locked alive awake lock rfl (.inl rfl),
    fun alive awake lock out => exec_mclkLoss_of_locked alive awake lock rfl (.inr out), ⟨rfl, rfl, rfl⟩, exec_mclkReturn,
    fun h low high same there src hold inRange => ?relock, fun h free work => ?working⟩
  case same =>
    have kept : (wbit v 16 != s.b F.SMPL_CTL_SRC) = false := by simp [same]
    rw [exec_smplCtlWrite h free, State.smplCtl_taken quiet low high fits, kept]
    rfl
  case changed =>
    have changes : (wbit v 16 != s.b F.SMPL_CTL_SRC) = true := bne_iff_ne.mpr other.symm
    rw [exec_smplCtlWrite h free, State.smplCtl_taken quiet low high fits, changes]
    rfl
  case source => rw [exec_smplCtlWrite h free, State.smplCtl_of_source quiet unfit]
  case range => rw [exec_smplCtlWrite h free, State.smplCtl_of_range quiet range]
  case multiplier =>
    rw [exec_mclkCtlWrite h, State.mclkCtl_of_same rfl low high same (.inl off), off]
    rfl
  case phase => rw [exec_smplPhaseWrite h, if_pos below]
  case phaseRange => rw [exec_smplPhaseWrite h, if_neg (Nat.not_lt.mpr beyond)]
  case relock =>
    rw [exec_mclkRelock h, State.mclkCtl_of_same (bits_or_of_clear rfl) low high same (.inr there)]
    dsimp only
    rw [wbit_or_of_set (a := v) (b := 1) (k := 0) rfl, src, hold, inRange, Bool.and_self, Bool.and_self, Bool.and_self, State.when_true]
  case working => rw [exec_smplCtlWrite h free, State.smplCtl_of_working work]

end Sys2Proof.Machine
end

section
/-!
PROOFS. The root's inputs PPS_IN and TOD_RX, PPS_OUT, and the calendar clock (R99 to R104).
-/

namespace Sys2Proof.Machine

/-! ### PPS_IN -/

/-- The instant of a PPS_IN edge as its stamp counts it, in whole steps of 250 ps (R99). -/
def ppsInstant (t : Nat) : Nat := t / ppsStep * ppsStep

/-- The stamp of a PPS_IN edge, less PPS_IN_ADJ. -/
def State.ppsStamp (s : State) (t : Nat) : Nat := moveT (ppsInstant t) (-((s.reach t).sw R.PPS_IN_ADJ) * nsU)

/-- The hub at a PPS_IN edge, with its stamp in PPS_IN_STAMP. -/
def State.ppsStamped (s : State) (t : Nat) : State := (s.reach t).setTime4 R.PPS_IN_STAMP (s.ppsStamp t)

/-- When the edge came, by `State.cyc`. -/
def State.ppsCyc (s : State) (t : Nat) : Nat := (s.reach t).cycAt (ppsInstant t)

/-- An edge lies within 100 µs of its place, a second after the last accepted one, or is the first (R99). -/
def Pps.inside (x : Pps) (c : Nat) : Bool :=
  match x.last with
  | some l => decide (l + secU ≤ c + 100000 * nsU) && decide (c ≤ l + secU + 100000 * nsU)
  | none => true

/-- An edge at `c` taken as accepted, the `run`-th in a row with a time-of-day message before it. -/
def State.ppsTaken (s : State) (c run : Nat) : State :=
  { s with pps := { s.pps with last := some c, from_ := c, run := s.pps.run + 1, missed := false, tod := none, todRun := run } }

/-- PPS_OK from the second accepted edge in a row on, and TOD_OK from the second one with its message (R99, R100). -/
def State.ppsAccepted (s : State) (c run : Nat) : State :=
  (s.ppsTaken c run).rootOks ((s.ppsTaken c run).b F.TIME_STAT_PPS_OK || decide (2 ≤ s.pps.run + 1)) (decide (2 ≤ run))

theorem Pps.inside_of_first {x : Pps} (h : x.last = none) (c : Nat) : x.inside c = true := by rw [Pps.inside, h]

theorem Pps.inside_iff {x : Pps} {l : Nat} (h : x.last = some l) (c : Nat) :
    x.inside c = true ↔ l + secU ≤ c + 100000 * nsU ∧ c ≤ l + secU + 100000 * nsU := by
  rw [Pps.inside, h]
  simp

/-- What an edge of the chosen polarity does, stamped already (R99, R100). -/
def State.ppsEdge (s : State) (c stamp : Nat) : State :=
  if !s.pps.inside c then
    ({ s with pps := { s.pps with run := 0 } }.rootOks false (s.b F.TIME_STAT_TOD_OK)).raiseBit R.TIME_EVT 2 0x0203 0 0
  else
    let z := s.ppsAccepted c (if s.pps.tod.isSome then s.pps.todRun + 1 else 0)
    match s.pps.tod with
    | some sec =>
      z.when (z.f F.TIME_CTL_SRC == 1 && z.b F.TIME_STAT_TOD_OK) fun u => (u.measure ((stamp : Int) - (sec * secU : Nat))).tryHold
    | none => z

section

variable {s : State} {c stamp : Nat}

theorem State.ppsEdge_of_outside (h : s.pps.inside c = false) :
    s.ppsEdge c stamp =
      ({ s with pps := { s.pps with run := 0 } }.rootOks false (s.b F.TIME_STAT_TOD_OK)).raiseBit R.TIME_EVT 2 0x0203 0 0 := by
  rw [State.ppsEdge, h]
  exact if_pos rfl

theorem State.ppsEdge_of_untimed (h : s.pps.inside c = true) (untimed : s.pps.tod = none) : s.ppsEdge c stamp = s.ppsAccepted c 0 := by
  rw [State.ppsEdge, h, untimed]
  exact if_neg (by decide)

/-- An edge with a time-of-day message for its second gives a root a measurement, once TOD_OK stands (R99, R100). -/
theorem State.ppsEdge_of_timed {sec : Nat} (h : s.pps.inside c = true) (timed : s.pps.tod = some sec)
    (root : (s.ppsAccepted c (s.pps.todRun + 1)).f F.TIME_CTL_SRC = 1) (ok : (s.ppsAccepted c (s.pps.todRun + 1)).b F.TIME_STAT_TOD_OK = true) :
    s.ppsEdge c stamp = ((s.ppsAccepted c (s.pps.todRun + 1)).measure ((stamp : Int) - (sec * secU : Nat))).tryHold := by
  rw [State.ppsEdge, h, timed, if_neg (by decide)]
  simp only [Option.isSome_some, if_true, root, ok]
  exact State.when_true _ _

end

section

variable {s : State} {t : Nat} {falling : Bool} (alive : s.alive = true)
include alive

theorem exec_ppsInEdge_of_other_polarity (other : s.b F.PPS_CTL_IN_POL ≠ falling) : exec (.ppsInEdge t falling) s = .next s := by
  have skips : (!s.sysOn || falling != s.b F.PPS_CTL_IN_POL) = true := by simp [other.symm]
  change execPpsInEdge t falling s = _
  rw [execPpsInEdge, act_alive _ _ alive, skips, if_pos rfl]

theorem exec_ppsInEdge (awake : s.mode ≠ 0) (pol : s.b F.PPS_CTL_IN_POL = falling) :
    exec (.ppsInEdge t falling) s = .next ((s.ppsStamped t).ppsEdge (s.ppsCyc t) (s.ppsStamp t)) := by
  have chosen : (!s.sysOn || falling != s.b F.PPS_CTL_IN_POL) = false := by simp [State.sysOn_of_awake awake, pol]
  change execPpsInEdge t falling s = _
  rw [execPpsInEdge, act_alive _ _ alive, chosen, if_neg (by decide)]
  unfold State.ppsStamped State.ppsCyc State.ppsStamp ppsInstant
  dsimp only
  generalize (s.reach t).cycAt (t / ppsStep * ppsStep) = c
  generalize moveT (t / ppsStep * ppsStep) (-((s.reach t).sw R.PPS_IN_ADJ) * nsU) = stamp
  generalize (s.reach t).setTime4 R.PPS_IN_STAMP stamp = u
  unfold State.ppsEdge
  refine congrArg _ (if_congr ?_ rfl ?_)
  · unfold Pps.inside
    cases u.pps.last <;> rfl
  · dsimp only
    cases u.pps.tod <;> rfl

/-- 1.1 s without an accepted edge (R99). -/
theorem exec_ppsMiss (awake : s.mode ≠ 0) (waits : s.pps.missed = false) :
    exec .ppsMiss s = .next
      (let u := s.passTo (s.pps.from_ + secU + secU / 10)
      ({ u with pps := { u.pps with run := 0, missed := true } }.rootOks false (u.b F.TIME_STAT_TOD_OK)).raiseBit R.TIME_EVT 1 0x0202 0 0) := by
  change execPpsMiss s = _
  rw [execPpsMiss, act_alive _ _ alive, State.sysOn_of_awake awake, waits, if_neg (by decide)]

/-! ### TOD_RX -/

section

variable {bytes : List Byte} {err : Bool} (awake : s.mode ≠ 0) (on : s.b F.TOD_CTL_EN = true)
include awake on

theorem exec_todMessage_of_valid (valid : todValid bytes = true) :
    exec (.todMessage bytes false) s = .next
      (let u := (s.bump F.TOD_STAT_GOOD 1).setTwo R.TOD_SEC (beNat ((bytes.drop 2).take 6))
      { u with pps := { u.pps with tod := some (beNat ((bytes.drop 2).take 6)) } }) := by
  change execTodMessage bytes false s = _
  rw [execTodMessage, act_alive _ _ alive, State.sysOn_of_awake awake, on, valid, if_neg (by decide), if_pos (by decide)]

theorem exec_todMessage_of_bad (bad : todValid bytes = false ∨ err = true) :
    exec (.todMessage bytes err) s = .next ((s.bump F.TOD_STAT_BAD 1).raiseBit R.TIME_EVT 3 0x0204 0 0) := by
  have invalid : (todValid bytes && !err) = false := by rcases bad with e | e <;> simp [e]
  change execTodMessage bytes err s = _
  rw [execTodMessage, act_alive _ _ alive, State.sysOn_of_awake awake, on, invalid, if_neg (by decide), if_neg (by decide)]

end

/-! ### PPS_OUT -/

/-- PPS_OUT rises at a whole second plus PPS_OUT_ADJ (R101). -/
def State.ppsRises (s : State) (k : Nat) : State :=
  let t := ((k * secU : Nat) + s.sw R.PPS_OUT_ADJ * nsU).toNat
  { s.reach t with pps := { (s.reach t).pps with out := some ((s.reach t).cycAt t), mark := some k } }

/-- The next second of PPS_OUT, by ST. -/
def State.ppsNext (s : State) : Nat := (((s.st : Int) - s.sw R.PPS_OUT_ADJ * nsU + (secU - 1 : Nat)) / (secU : Nat)).toNat

/-- The second marked is the next one, and later than the last one marked, which ST may have stepped back behind (R101, R385). -/
theorem exec_ppsOutRise (live : s.live = true) (on : s.b F.PPS_CTL_OUT_EN = true) (low : s.pps.out = none) :
    exec .ppsOutRise s = .next (s.ppsRises (s.pps.mark.elim s.ppsNext fun l => max s.ppsNext (l + 1))) := by
  change execPpsOutRise s = _
  rw [execPpsOutRise, act_alive _ _ alive, live, on, low]
  cases s.pps.mark <;> rfl

theorem exec_ppsOutFall {c : Nat} (high : s.pps.out = some c) :
    exec .ppsOutFall s = .next (s.passTo (c + s.f F.PPS_CTL_WIDTH * (secU / 1000))).ppsLow := by
  change execPpsOutFall s = _
  rw [execPpsOutFall, act_alive _ _ alive]
  simp only [high]

/-! ### The calendar clock -/

theorem exec_rtcFollow (awake : s.mode ≠ 0) (follow : s.b F.RTC_CTL_FOLLOW = true) (locked : s.f F.TIME_STAT_QUALITY = 0) :
    exec .rtcFollow s = .next { s.reach (ceilDiv s.st secU * secU) with rtcLoad := some (ceilDiv s.st secU % 2 ^ 40 * 2 ^ 15) } := by
  change execRtcFollow s = _
  rw [execRtcFollow, act_alive _ _ alive, State.sysOn_of_awake awake, follow, locked]
  rfl

end

theorem exec_rtcGo {s : State} {r : Req} (h : s.takes r R.RTC_CTL) (v : Word) :
    exec (.rtcGo r v) s = .next
      ({ s.setF F.RTC_CTL_FOLLOW (b2n (wbit v 1)) with
        rtcLoad := some (s.two R.RTC_SET_SEC % 2 ^ 40 * 2 ^ 15 + s.f F.RTC_SET_SUB_V) }.fin .ok) := by
  refine (act_regWrite_of_takes h fun s => s.rtcCtl (v ||| 1)).trans (congrArg _ ?_)
  have follow : wbit (v ||| 1) 1 = wbit v 1 := wbit_or_of_clear rfl
  have go : wbit (v ||| 1) 0 = true := wbit_or_of_set rfl
  rw [State.rtcCtl, follow, go]
  rfl

section

variable {s : State} {k : Nat}

/-- The first of some AON ticks takes the value that waits (R103, R104). -/
theorem State.aonTicks_of_load {t : Nat} (waits : s.rtcLoad = some t) :
    s.aonTicks (k + 1) = { s with rtc := (t + k) % 2 ^ 55, rtcLoad := none }.setF F.RTC_STAT_VALID 1 := by
  rw [State.aonTicks, waits]
  rfl

theorem State.aonTicks_of_none (empty : s.rtcLoad = none) : s.aonTicks k = { s with rtc := (s.rtc + k) % 2 ^ 55 } := by
  rw [State.aonTicks, empty]

section

variable (powered : s.aon = true ∨ s.vbat = true)
include powered

theorem State.passRtc_of_within (h : s.rtcPhase + 131072 * k < 1000000000) :
    s.passRtc k = { s with rtcPhase := s.rtcPhase + 131072 * k } := by
  have runs : (!(s.aon || s.vbat)) = false := by rcases powered with e | e <;> simp [e]
  rw [State.passRtc, runs]
  exact (if_pos h).trans (by rw [Nat.mod_eq_of_lt h])

theorem State.passRtc_of_ticks (h : 1000000000 ≤ s.rtcPhase + 131072 * k) :
    s.passRtc k =
      { s with rtcPhase := (s.rtcPhase + 131072 * k) % 1000000000 }.aonTicks ((s.rtcPhase + 131072 * k) / 1000000000) := by
  have runs : (!(s.aon || s.vbat)) = false := by rcases powered with e | e <;> simp [e]
  rw [State.passRtc, runs]
  exact if_neg (Nat.not_lt.mpr h)

end

end

/-- Settles O43: the branches of `ppsEdge`, and the equations of the other inputs and of the calendar clock. -/
theorem secondPulseTimeOfDayAndCalendar : Obligations.SecondPulseTimeOfDayAndCalendar := by
  intro s r v t l sec k falling err bytes u s0 c stamp s1 fresh whole adj k0 rises taken
  refine ⟨fun alive awake pol last out => ?outside, fun alive awake pol last lo hi untimed => ?within,
    fun alive awake pol first untimed => ?first, fun alive awake pol first timed root ok => ?timed, exec_ppsInEdge_of_other_polarity, exec_ppsMiss,
    fun alive awake on valid second => ?good, fun alive awake on bad => exec_todMessage_of_bad alive awake on bad,
    fun alive live on low unmarked => ?rises, fun alive live on low marked => ?risesLater,
    fun alive high => exec_ppsOutFall alive high, fun h => exec_rtcGo h v, exec_rtcFollow, rfl, fun waits => ?load, State.aonTicks_of_none,
    State.passRtc_of_within, State.passRtc_of_ticks⟩
  case outside =>
    have refused : (s.ppsStamped t).pps.inside (s.ppsCyc t) = false := by
      refine eq_false_of_ne_true fun h => ?_
      have near : l + secU ≤ c + 100000 * nsU ∧ c ≤ l + secU + 100000 * nsU := (Pps.inside_iff last _).mp h
      omega
    exact (exec_ppsInEdge alive awake pol).trans (congrArg _ (State.ppsEdge_of_outside refused))
  case within =>
    exact (exec_ppsInEdge alive awake pol).trans
      (congrArg _ (State.ppsEdge_of_untimed ((Pps.inside_iff last _).mpr ⟨lo, hi⟩) untimed))
  case first =>
    exact (exec_ppsInEdge alive awake pol).trans (congrArg _ (State.ppsEdge_of_untimed (Pps.inside_of_first first _) untimed))
  case timed =>
    exact (exec_ppsInEdge alive awake pol).trans (congrArg _ (State.ppsEdge_of_timed (Pps.inside_of_first first _) timed root ok))
  case good =>
    rw [exec_todMessage_of_valid alive awake on valid, second]
  case rises =>
    rw [exec_ppsOutRise alive live on low, unmarked]
    rfl
  case risesLater =>
    rw [exec_ppsOutRise alive live on low, marked]
    rfl
  case load =>
    rw [State.aonTicks_of_load waits]
    exact ⟨State.setF_rtc .., State.setF_rtcLoad .., State.setF_f_same _ F.RTC_STAT_VALID 1 (by decide) (by decide)⟩

end Sys2Proof.Machine
end

section
/-!
PROOFS. The steps of system time, and the writes of the servo's registers (R99, R380, R381, R383 to R385, R387, R390, R402).
-/

namespace Sys2Proof.Machine

/-! ### TT_STEP -/

/-- A step given in TT_DELTA waits for its instant (R383). -/
def State.stepWaits (s : State) (at_ : Nat) : State :=
  { s with servo := { s.servo with pend := some ⟨at_, some (s.offset4 R.TT_DELTA)⟩ } }.setF F.TT_STAT_STEP_PEND 1

/-- No step waits. -/
def State.stepNone (s : State) : State := { s with servo := { s.servo with pend := none } }.setF F.TT_STAT_STEP_PEND 0

section

variable {s : State} {w : Word}

/-- SLEW without a step is taken in JUMP alone (R387). -/
theorem State.ttStep_of_slew (slew : wbit w 0 = true) (mode : bits w.toNat 9 8 = 0) (ungiven : wbit w 4 = false) :
    s.ttStep w = if s.f F.TT_STAT_STATE = 4 then s.forcedSlew.fin .ok else s.fin .busy := by
  simp [State.ttStep, slew, mode, ungiven]

section

variable (unslewed : wbit w 0 = false) (live : s.live = true)
include unslewed live

theorem State.ttStep_of_cancel (mode : bits w.toNat 9 8 = 2) : s.ttStep w = s.stepNone.fin .ok := by
  simp only [State.ttStep, unslewed, mode, live, Bool.or_true]
  rfl

section

variable (given : wbit w 4 = true) (idle : s.servo.pend = none)
include given idle

/-- A given step while no other waits: a zero one is nothing to wait for (R383). -/
theorem State.ttStep_of_given {md at_ : Nat} (mode : bits w.toNat 9 8 = md) (early : md < 2)
    (due : (if md = 0 then s.st + 20000 * nsU else ceilDiv (s.st + 100000 * nsU) secU * secU) = at_) :
    s.ttStep w = if s.offset4 R.TT_DELTA = 0 then s.fin .ok else (s.stepWaits at_).fin .ok := by
  subst due
  have free : ¬(s.servo.pend.isSome = true ∨ (!true && !s.freshTheta) = true) := by simp [idle]
  simp only [State.ttStep, unslewed, given, mode, live, Bool.or_true, if_neg free]
  rw [if_neg (by decide), if_neg (by omega), if_neg (by decide), if_neg (by omega)]
  simp only [Bool.true_and, beq_iff_eq]
  refine congrArg _ ?_
  split <;> rfl

end

end

end

/-! The commands give the written word their own MODE and keep the rest of it, SLEW and GIVEN among it. -/

theorem bits_mode_of_masked (v m : Word) : bits (v &&& 0xFFFFFCFF ||| m).toNat 9 8 = bits m.toNat 9 8 := by
  have cleared : bits (v &&& 0xFFFFFCFF).toNat 9 8 = 0 := bits_and_of_clear rfl
  rw [BitVec.toNat_or, bits_or, cleared, Nat.zero_or]

theorem wbit_of_masked {v m : Word} {k : Nat} (kept : wbit 0xFFFFFCFF k = true) (clear : wbit m k = false) :
    wbit (v &&& 0xFFFFFCFF ||| m) k = wbit v k :=
  (wbit_or_of_clear clear).trans (wbit_and_of_set kept)

section

variable {s : State} {r : Req} {v : Word} (h : s.takes r R.TT_STEP)
include h

theorem act_ttStepWrite (w : Word) : act (ttStepWrite r w) s = .next (s.ttStep w) := act_regWrite_of_takes h fun s => s.ttStep w

theorem exec_forcedSlew (mode : bits v.toNat 9 8 = 0) (ungiven : wbit v 4 = false) :
    exec (.forcedSlew r v) s = .next (if s.f F.TT_STAT_STATE = 4 then s.forcedSlew.fin .ok else s.fin .busy) :=
  (act_ttStepWrite h (v ||| 1)).trans
    (congrArg _ (State.ttStep_of_slew (wbit_or_of_set rfl) ((bits_or_of_clear rfl).trans mode) ((wbit_or_of_clear rfl).trans ungiven)))

section

variable (unslewed : wbit v 0 = false) (live : s.live = true)
include unslewed live

theorem exec_ttStepCancel : exec (.ttStepCancel r v) s = .next (s.stepNone.fin .ok) :=
  (act_ttStepWrite h (v &&& 0xFFFFFCFF ||| 0x200)).trans
    (congrArg _ (State.ttStep_of_cancel ((wbit_of_masked rfl rfl).trans unslewed) live (bits_mode_of_masked v 0x200)))

section

variable (given : wbit v 4 = true) (idle : s.servo.pend = none)
include given idle

theorem exec_ttStepImmediate :
    exec (.ttStepImmediate r v) s = .next
      (if s.offset4 R.TT_DELTA = 0 then s.fin .ok else (s.stepWaits (s.st + 20000 * nsU)).fin .ok) :=
  (act_ttStepWrite h (v &&& 0xFFFFFCFF)).trans (congrArg _ (State.ttStep_of_given ((wbit_and_of_set rfl).trans unslewed) live
    ((wbit_and_of_set rfl).trans given) idle (bits_and_of_clear rfl) (by decide) (if_pos rfl)))

theorem exec_ttStepNextSec :
    exec (.ttStepNextSec r v) s = .next
      (if s.offset4 R.TT_DELTA = 0 then s.fin .ok else (s.stepWaits (ceilDiv (s.st + 100000 * nsU) secU * secU)).fin .ok) :=
  (act_ttStepWrite h (v &&& 0xFFFFFCFF ||| 0x100)).trans (congrArg _ (State.ttStep_of_given ((wbit_of_masked rfl rfl).trans unslewed) live
    ((wbit_of_masked rfl rfl).trans given) idle (bits_mode_of_masked v 0x100) (by decide) (if_neg (by decide))))

end

end

end

/-! ### The step instant -/

section

variable {s : State} (alive : s.alive = true)
include alive

theorem exec_timeStep_of_none (idle : s.servo.pend = none) : exec .timeStep s = .next s := by
  change execTimeStep s = _
  rw [execTimeStep, act_alive _ _ alive, idle]
  cases s.sysOn <;> rfl

/-- A given step that is not zero moves ST and all that moves with it, between the metering intervals (R384, R385, R402). -/
theorem exec_timeStep_of_given {t : Nat} {d : Int} (awake : s.mode ≠ 0) (pend : s.servo.pend = some ⟨t, some d⟩) (moves : d ≠ 0) :
    exec .timeStep s = .next ((((s.stepNone.reach t).meterStep t).stepTime t d).meterShift d) := by
  change execTimeStep s = _
  rw [execTimeStep, act_alive _ _ alive, State.sysOn_of_awake awake, pend]
  exact congrArg _ (if_neg moves)

end

/-! ### The servo's registers -/

section

variable {s : State} {r : Req} (v : Word)

/-- A source below 3 resets the servo; a hub that becomes ROOT compares PPS_IN anew (R99, R381). -/
theorem exec_timeSrcWrite (h : s.takes r R.TIME_CTL) :
    exec (.timeSrcWrite r v) s = .next
      (if bits v.toNat 1 0 = 3 then s.fin .unsupported
      else (((s.setF F.TIME_CTL_SRC (bits v.toNat 1 0)).when (bits v.toNat 1 0 == 1 && s.f F.TIME_CTL_SRC != 1) fun s =>
        { s with pps := { s.pps with last := none, from_ := s.cyc, run := 0, missed := false } }).servoReset.fin .ok)) :=
  act_regWrite_of_takes h _

section

variable {second : Bool} (h : s.takes r (if second then R.TT_ASYM2 else R.TT_ASYM))
include h

theorem exec_ttAsymWrite_of_beyond (beyond : 1000000 < iabs v.toInt) : exec (.ttAsymWrite r second v) s = .next (s.fin .unsupported) :=
  (act_regWrite_of_takes h _).trans (congrArg _ (if_pos beyond))

/-- Outside ROUTE a legal asymmetry is stored and nothing else (R390). -/
theorem exec_ttAsymWrite_of_within (within : iabs v.toInt ≤ 1000000)
    (settled : (s.setW (if second then R.TT_ASYM2 else R.TT_ASYM) v).f F.TT_STAT_STATE ≠ 5) :
    exec (.ttAsymWrite r second v) s = .next ((s.setW (if second then R.TT_ASYM2 else R.TT_ASYM) v).fin .ok) := by
  have stays : (!second && (s.setW (if second then R.TT_ASYM2 else R.TT_ASYM) v).f F.TT_STAT_STATE == 5) = false := by simp [settled]
  refine (act_regWrite_of_takes h _).trans (congrArg _ ((if_neg (Nat.not_lt.mpr within)).trans ?_))
  dsimp only
  rw [stays, State.when_false]

end

section

variable (h : s.takes r R.TT_CTL)
include h

theorem exec_ttCtlWrite_of_beyond (beyond : bits v.toNat 24 16 = 0 ∨ 500 < bits v.toNat 24 16 ∨ 10 < bits v.toNat 11 8) :
    exec (.ttCtlWrite r v) s = .next (s.fin .unsupported) :=
  (act_regWrite_of_takes h _).trans (congrArg _ (if_pos beyond))

theorem exec_ttCtlWrite_of_thawed (within : ¬(bits v.toNat 24 16 = 0 ∨ 500 < bits v.toNat 24 16 ∨ 10 < bits v.toNat 11 8))
    (thawed : wbit v 1 = false) : exec (.ttCtlWrite r v) s = .next ((s.setW R.TT_CTL (v &&& 0x01FF0F07)).fin .ok) := by
  rw [wbit] at thawed
  refine (act_regWrite_of_takes h _).trans (congrArg _ ((if_neg within).trans ?_))
  dsimp only
  rw [thawed, Bool.false_and, State.when_false]

end

end

/-- Settles O45: the branches of `ttStep`, the step instant, and the servo's registers. -/
theorem stepsAndTheServo : Obligations.StepsAndTheServo := by
  intro s r v second t d delta a waits none_
  refine ⟨fun h unslewed given live idle moves => ?immediate, fun h unslewed given live idle zero => ?zero,
    fun h unslewed given live idle moves => ?nextSec,
    exec_ttStepCancel, fun h mode ungiven jump => ?slews, fun h mode ungiven other => ?slewBusy,
    fun alive awake pend moves => exec_timeStep_of_given alive awake pend moves, exec_timeStep_of_none,
    fun h third => ?source3, fun h other => ?source, fun h root was => ?rootStays, fun h root new => ?rootBegins,
    exec_ttAsymWrite_of_beyond v, exec_ttAsymWrite_of_within v, exec_ttCtlWrite_of_beyond v,
    fun h lo hi log thawed => exec_ttCtlWrite_of_thawed v h (by omega) thawed⟩
  case immediate =>
    rw [exec_ttStepImmediate h unslewed live given idle, if_neg moves]
    rfl
  case zero => rw [exec_ttStepImmediate h unslewed live given idle, if_pos zero]
  case nextSec =>
    rw [exec_ttStepNextSec h unslewed live given idle, if_neg moves]
    rfl
  case slews => rw [exec_forcedSlew h mode ungiven, if_pos jump]
  case slewBusy => rw [exec_forcedSlew h mode ungiven, if_neg other]
  case source3 => rw [exec_timeSrcWrite v h, if_pos third]
  case source =>
    have notRoot : (bits v.toNat 1 0 == 1 && s.f F.TIME_CTL_SRC != 1) = false := by rcases other with e | e <;> simp [e]
    rw [exec_timeSrcWrite v h, if_neg (by omega), notRoot, State.when_false]
  case rootStays =>
    have stays : (bits v.toNat 1 0 == 1 && s.f F.TIME_CTL_SRC != 1) = false := by simp [was]
    rw [exec_timeSrcWrite v h, if_neg (by omega), stays, State.when_false, root]
  case rootBegins =>
    have begins : (bits v.toNat 1 0 == 1 && s.f F.TIME_CTL_SRC != 1) = true := by simp [root, new]
    rw [exec_timeSrcWrite v h, if_neg (by omega), begins, State.when_true, root]
    rfl

end Sys2Proof.Machine
end

section
/-!
PROOFS. The writes of a path's configuration, coefficients and fade, and the turns of a fade (R113 to R121, R135 to R137).
-/

namespace Sys2Proof.Machine

/-! ### The configuration of a path -/

section

variable {s s1 : State} {t p : Nat} {ok : Bool}

theorem State.fpTry_of_busy (busy : s.pathIdle t p = false) : s.fpTry t p ok s1 = s.fin .busy := by
  rw [State.fpTry, busy]; rfl

/-- An IDLE path refuses a change that leaves a range, the grid of its entries or a limit (R113 to R121). -/
theorem State.fpTry_of_misfit (idle : s.pathIdle t p = true) (misfit : ok = false ∨ s1.gridMatch t p = false ∨ s1.pathFits t p = false) :
    s.fpTry t p ok s1 = s.fin .unsupported := by
  have refused : (ok && s1.gridMatch t p && s1.pathFits t p) = false := by
    simpa only [Bool.and_eq_false_iff, or_assoc] using misfit
  rw [State.fpTry, idle, refused]; rfl

theorem State.fpTry_of_fits (idle : s.pathIdle t p = true) (legal : ok = true) (grid : s1.gridMatch t p = true) (fits : s1.pathFits t p = true) :
    s.fpTry t p ok s1 = s1.fin .ok := by
  rw [State.fpTry, idle, legal, grid, fits]; rfl

end

section

variable {s : State} {r : Req} {t : Fin 24} {p : Fin 8} {v : Word}

theorem exec_fpConfigWrite_ctl (h : s.takes r (R.FP_CTL t p)) :
    exec (.fpConfigWrite r t p 0 v) s = .next
      (s.fpTry t p (fpCtlRange v.toNat && (s.setW (R.FP_CTL t p) (v &&& 0xB73F3700)).ctlOk t p) (s.setW (R.FP_CTL t p) (v &&& 0xB73F3700))) :=
  act_regWrite_of_takes h _

theorem exec_fpConfigWrite_cic (h : s.takes r (R.FP_CIC t p)) :
    exec (.fpConfigWrite r t p 1 v) s = .next
      (s.fpTry t p (within (bits v.toNat 12 0) 1 4096 && (s.setF (F.FP_CIC_RATIO t p) v.toNat).cicOk t p) (s.setF (F.FP_CIC_RATIO t p) v.toNat)) :=
  act_regWrite_of_takes h _

theorem exec_fpConfigWrite_taps (h : s.takes r (R.FP_TAPS t p)) :
    exec (.fpConfigWrite r t p 2 v) s = .next
      (s.fpTry t p (within (bits v.toNat 8 0) 1 256 && within (bits v.toNat 24 16) 1 256) (s.fpTaps t p v.toNat)) :=
  act_regWrite_of_takes h _

theorem exec_fpConfigWrite_gd (h : s.takes r (R.FP_GD t p)) :
    exec (.fpConfigWrite r t p 3 v) s = .next
      (s.fpTry t p (decide (bits v.toNat 15 0 ≤ (s.f (F.FP_TAPS_TAPS0 t p) - 1) * 128) &&
        decide (bits v.toNat 31 16 ≤ (s.f (F.FP_TAPS_TAPS1 t p) - 1) * 128)) (s.setW (R.FP_GD t p) v)) :=
  act_regWrite_of_takes h _

end

/-! ### The coefficients of a path -/

section

variable {s : State} {r : Req} {t : Fin 24} {p : Fin 8} {b : Fin 2} {k : Fin 256} {v : Word} (h : s.takes r (R.COEF t p b k))
include h

/-- A coefficient is shut while a fade runs, and in the active bank of a path that is not IDLE (R135). -/
theorem exec_coefWrite :
    exec (.coefWrite r t p b k v) s = .next
      (if s.fading t p || (b.val == s.f (F.FP_STAT_ACT t p) && !s.pathIdle t p) then s.fin .busy
      else (s.setF (F.COEF_COEF t p b k) v.toNat).fin .ok) :=
  act_regWrite_of_takes h _

theorem exec_coefWrite_of_open (still : s.fading t p = false) (free : s.f (F.FP_STAT_ACT t p) ≠ b ∨ s.pathIdle t p = true) :
    exec (.coefWrite r t p b k v) s = .next ((s.setF (F.COEF_COEF t p b k) v.toNat).fin .ok) := by
  have inactive : (b.val == s.f (F.FP_STAT_ACT t p) && !s.pathIdle t p) = false := by
    rcases free with other | idle
    · rw [beq_false_of_ne other.symm, Bool.false_and]
    · rw [idle, Bool.not_true, Bool.and_false]
  rw [exec_coefWrite h, still, inactive]; rfl

theorem exec_coefWrite_of_fading (fades : s.fading t p = true) : exec (.coefWrite r t p b k v) s = .next (s.fin .busy) := by
  rw [exec_coefWrite h, fades]; rfl

theorem exec_coefWrite_of_active (active : s.f (F.FP_STAT_ACT t p) = b) (busy : s.pathIdle t p = false) :
    exec (.coefWrite r t p b k v) s = .next (s.fin .busy) := by
  rw [exec_coefWrite h, active, busy, beq_self_eq_true, Bool.not_false, Bool.and_true, Bool.or_true, if_pos rfl]

end

/-! ### FP_FADE -/

/-- Without a FIR, or with a new bank over its limit, no fade is legal (R136). -/
theorem State.fadeBad_of_fir_or_bank {s : State} {t p : Nat} (len : Nat)
    (h : s.b (F.FP_CTL_FIR_EN t p) = false ∨ s.bankOk t p (1 - s.f (F.FP_STAT_ACT t p)) = false) : s.fadeBad t p len = true := by
  rcases h with h | h <;> simp [State.fadeBad, h]

section

variable {s : State} {r : Req} {t : Fin 24} {p : Fin 8} {v : Word} (h : s.takes r (R.FP_FADE t p))
include h

theorem exec_fadeGo_of_zero (zero : bits v.toNat 15 0 = 0) : exec (.fadeGo r t p v) s = .next (s.fin .unsupported) :=
  (act_regWrite_of_takes h _).trans (congrArg _ (if_pos zero))

section

variable (len : bits v.toNat 15 0 ≠ 0)
include len

theorem exec_fadeGo_of_stage (stage : wbit v 31 = false) :
    exec (.fadeGo r t p v) s = .next ((s.setF (F.FP_FADE_LEN t p) (bits v.toNat 15 0)).fin .ok) :=
  (act_regWrite_of_takes h _).trans (congrArg _ ((if_neg len).trans (if_pos (by rw [stage]; rfl))))

/-- A GO is refused as UNSUPPORTED before it is refused as BUSY (R136). -/
theorem exec_fadeGo_of_go (go : wbit v 31 = true) :
    exec (.fadeGo r t p v) s = .next
      (if s.fadeBad t p (bits v.toNat 15 0) then s.fin .unsupported
      else if s.fading t p || s.pathSettling t p then s.fin .busy
      else ((s.setF (F.FP_FADE_LEN t p) (bits v.toNat 15 0)).fadeStart t p (bits v.toNat 15 0)).fin .ok) :=
  (act_regWrite_of_takes h _).trans (congrArg _ ((if_neg len).trans (if_neg (by rw [go]; decide))))

end

end

/-! ### The turns of a fade -/

section

variable {s : State} {t : Fin 24} {p : Fin 8} {fd : Fade} (alive : s.alive = true) (fade : (s.path (8 * t + p)).fade = some fd)
include alive fade

/-- The blend begins once the courses before n_g and the warm-up have passed (R137). -/
theorem exec_fadeBlendStart_of_warm (unblended : s.f (F.FP_STAT_STATE t p) ≠ 3) (pre : fd.pre = 0) (warm : fd.warm = 0) :
    exec (.fadeBlendStart t p) s = .next (s.startBlend t p (s.nextCourse t p)) := by
  have turns : fd.turns 2 = true := by rw [Fade.turns, pre, warm]; rfl
  change execFadeBlendStart t p s = _
  rw [execFadeBlendStart, act_alive _ _ alive]
  simp only [fade]
  rw [if_pos ⟨unblended, turns⟩]

/-- The banks change places after LEN blended courses (R137). -/
theorem exec_fadeDone_of_blended (blends : s.f (F.FP_STAT_STATE t p) = 3) (full : fd.m = fd.len) :
    exec (.fadeDone t p) s = .next (s.endFade t p) := by
  change execFadeDone t p s = _
  rw [execFadeDone, act_alive _ _ alive]
  simp only [fade]
  rw [if_pos ⟨blends, full⟩]

end

/-- Settles O46: a configuration write is one branch of `fpTry`, and a coefficient, a GO and a turn of a fade are one branch of their commands. -/
theorem filterConfiguration : Obligations.FilterConfiguration := by
  intro s r t p b k v fd ctl cic gd len staged
  refine ⟨fun h idle range => ?ctlRange, fun h busy => ?ctlBusy, fun h range idle form grid fits => ?ctlTaken,
    fun h range idle form grid fits => ?cicTaken, fun h range0 range1 idle grid fits => ?tapsTaken,
    fun h range0 range1 idle grid fits => ?gdTaken, fun h still idle => exec_coefWrite_of_open h still (.inr idle),
    fun h still other => exec_coefWrite_of_open h still (.inl other), exec_coefWrite_of_fading,
    fun h long go bad => ?goBad, State.fadeBad_of_fir_or_bank len, fun h long go legal settles => ?goSettling,
    fun h idle misfit => ?ctlMisfit, exec_coefWrite_of_active, exec_fadeGo_of_zero, exec_fadeGo_of_stage,
    fun h long go legal still settled => ?goStarts, fun h long go legal fades => ?goFading,
    exec_fadeBlendStart_of_warm, exec_fadeDone_of_blended, fun h busy => ?cicBusy, fun h busy => ?tapsBusy, fun h busy => ?gdBusy⟩
  case ctlRange => rw [exec_fpConfigWrite_ctl h, State.fpTry_of_misfit idle (.inl (by rw [range, Bool.false_and]))]
  case ctlBusy => rw [exec_fpConfigWrite_ctl h, State.fpTry_of_busy busy]
  case ctlTaken => rw [exec_fpConfigWrite_ctl h, State.fpTry_of_fits idle (Bool.and_eq_true_iff.mpr ⟨range, form⟩) grid fits]
  case ctlMisfit =>
    rw [exec_fpConfigWrite_ctl h, State.fpTry_of_misfit idle (misfit.imp_left fun form => by rw [form, Bool.and_false])]
  case cicTaken => rw [exec_fpConfigWrite_cic h, State.fpTry_of_fits idle (Bool.and_eq_true_iff.mpr ⟨range, form⟩) grid fits]
  case cicBusy => rw [exec_fpConfigWrite_cic h, State.fpTry_of_busy busy]
  case tapsTaken => rw [exec_fpConfigWrite_taps h, State.fpTry_of_fits idle (Bool.and_eq_true_iff.mpr ⟨range0, range1⟩) grid fits]
  case tapsBusy => rw [exec_fpConfigWrite_taps h, State.fpTry_of_busy busy]
  case gdTaken =>
    have range := Bool.and_eq_true_iff.mpr ⟨decide_eq_true range0, decide_eq_true range1⟩
    rw [exec_fpConfigWrite_gd h, State.fpTry_of_fits idle range grid fits]
  case gdBusy => rw [exec_fpConfigWrite_gd h, State.fpTry_of_busy busy]
  case goBad => rw [exec_fadeGo_of_go h long go, if_pos bad]
  case goSettling =>
    rw [exec_fadeGo_of_go h long go, if_neg (ne_true_of_eq_false legal), settles, Bool.or_true, if_pos rfl]
  case goFading => rw [exec_fadeGo_of_go h long go, if_neg (ne_true_of_eq_false legal), fades, Bool.true_or, if_pos rfl]
  case goStarts =>
    rw [exec_fadeGo_of_go h long go, if_neg (ne_true_of_eq_false legal), still, settled, Bool.or_self, if_neg Bool.false_ne_true]

end Sys2Proof.Machine
end

section
/-!
PROOFS. Trigger units, trigger groups, the window store and the trigger pins (R145 to R163, R496).
-/

namespace Sys2Proof.Machine

/-! ### TU_CTL and TU_SRC -/

/-- TU_CTL as a write leaves it where it is taken. -/
def State.tuKinds (s : State) (u : Nat) (v : Word) : State := s.setW (R.TU_CTL u) (v &&& 0x83BF3000)

section

variable {s : State} {u : Nat} {v : Word}

theorem State.tuCtl_of_kind3 (h : bits v.toNat 25 24 = 3 ∨ bits v.toNat 13 12 = 3) : s.tuCtl u v = s.fin .unsupported := if_pos h

section

variable (source : bits v.toNat 25 24 ≠ 3) (edge : bits v.toNat 13 12 ≠ 3)
include source edge

/-- What is left of a write of TU_CTL once the kinds are legal: EN = 1 is for a disabled unit, and for a source that exists (R146). -/
theorem State.tuCtl_of_legal :
    s.tuCtl u v =
      if s.b (F.TU_CTL_EN u) && wbit v 31 then s.fin .busy
      else if wbit v 31 && !(s.tuKinds u v).unitOk u then s.fin .unsupported
      else (((s.tuKinds u v).unitFresh u).setF (F.TU_STAT_SRC_IDLE u) (b2n (wbit v 31 && !(s.tuKinds u v).unitSource u))).fin .ok :=
  if_neg (not_or.mpr ⟨source, edge⟩)

theorem State.tuCtl_of_off (off : wbit v 31 = false) :
    s.tuCtl u v = (((s.tuKinds u v).unitFresh u).setF (F.TU_STAT_SRC_IDLE u) 0).fin .ok := by
  rw [State.tuCtl_of_legal source edge, off, Bool.and_false]; rfl

theorem State.tuCtl_of_enabled (was : s.b (F.TU_CTL_EN u) = true) (on : wbit v 31 = true) : s.tuCtl u v = s.fin .busy := by
  rw [State.tuCtl_of_legal source edge, was, on]; rfl

section

variable (was : s.b (F.TU_CTL_EN u) = false) (on : wbit v 31 = true)
include was on

theorem State.tuCtl_of_sourceless (bad : (s.tuKinds u v).unitOk u = false) : s.tuCtl u v = s.fin .unsupported := by
  rw [State.tuCtl_of_legal source edge, was, on, bad]; rfl

theorem State.tuCtl_of_source (ok : (s.tuKinds u v).unitOk u = true) :
    s.tuCtl u v =
      (((s.tuKinds u v).unitFresh u).setF (F.TU_STAT_SRC_IDLE u) (b2n (!(s.tuKinds u v).unitSource u))).fin .ok := by
  rw [State.tuCtl_of_legal source edge, was, on, ok]; rfl

end

end

end

section

variable {s : State} {r : Req} {u : Fin 64} {v : Word}

theorem exec_tuCtlWrite_ctl (h : s.takes r (R.TU_CTL u)) : exec (.tuCtlWrite r u false v) s = .next (s.tuCtl u v) :=
  act_regWrite_of_takes h fun s => s.tuCtl u v

theorem exec_tuCtlWrite_src (h : s.takes r (R.TU_SRC u)) :
    exec (.tuCtlWrite r u true v) s = .next
      (if s.b (F.TU_CTL_EN u) then s.fin .busy else (s.setW (R.TU_SRC u) (v &&& 0x1F1F1FFF)).fin .ok) :=
  act_regWrite_of_takes h fun s => if s.b (F.TU_CTL_EN u) then s.fin .busy else (s.setW (R.TU_SRC u) (v &&& 0x1F1F1FFF)).fin .ok

end

/-! ### The courses of a unit -/

/-- A unit without the values of courses that it has passed (R147). -/
def State.unitLeft (s : State) (u : Nat) : Tu :=
  match s.unitDone u with
  | some d => (s.tu u).drop fun v => decide (v.p ≤ d)
  | none => s.tu u

theorem State.unitLeft_of_none {s : State} {u : Nat} (h : s.unitDone u = none) : s.unitLeft u = s.tu u := by
  rw [State.unitLeft, h]

theorem State.unitLeft_of_some {s : State} {u d : Nat} (h : s.unitDone u = some d) :
    s.unitLeft u = (s.tu u).drop fun v => decide (v.p ≤ d) := by
  rw [State.unitLeft, h]

section

variable {s : State} (u p : Nat)

theorem State.unitCourse_nil :
    s.unitCourse u p [] = s.setTu u { s.tu u with vals := [], done := some p, na := some ((s.tu u).na.getD p) } := rfl

theorem State.unitCourse_cons_of_due {v : TuVal} {vs : List TuVal} (h : v.p = p) :
    s.unitCourse u p (v :: vs) =
      (s.setTu u { s.tu u with vals := vs, done := some p, na := some ((s.tu u).na.getD p) }).unitValue u v := if_pos h

end

section

variable {s : State} {u : Fin 64} {n p : Nat} (alive : s.alive = true) (acquire : s.mode = 3)
include alive acquire

omit acquire in
theorem exec_tuEvaluate (next : s.nextEval (s.unitGrid u) (s.unitDone u) n = p) :
    exec (.tuEvaluate u n) s = .next
      (if !(s.mode == 3 && s.b (F.TU_CTL_EN u) && c48 p == n && ((s.unitDone u).isSome || (s.unitLeft u).vals.all fun v => decide (p ≤ v.p))
          && s.coursePast (s.unitGrid u) p) || (!((s.unitLeft u).vals.any fun v => v.p == p) && s.awaits u p) then s
      else (s.setTu u (s.unitLeft u)).unitCourse u p (s.unitLeft u).vals) := by
  subst next
  change execTuEvaluate u n s = _
  rw [execTuEvaluate, act_alive _ _ alive]
  rfl

/-- An enabled unit evaluates a course that its grid has produced, once the value for it is there or is not owed (R147). -/
theorem exec_tuEvaluate_of_due (on : s.b (F.TU_CTL_EN u) = true) (next : s.nextEval (s.unitGrid u) (s.unitDone u) n = p)
    (number : c48 p = n) (past : s.coursePast (s.unitGrid u) p = true)
    (first : ((s.unitDone u).isSome || (s.unitLeft u).vals.all fun v => decide (p ≤ v.p)) = true)
    (there : ((s.unitLeft u).vals.any fun v => v.p == p) = true ∨ s.awaits u p = false) :
    exec (.tuEvaluate u n) s = .next ((s.setTu u (s.unitLeft u)).unitCourse u p (s.unitLeft u).vals) := by
  have served : (!((s.unitLeft u).vals.any fun v => v.p == p) && s.awaits u p) = false := by
    rcases there with e | e <;> rw [e] <;> simp
  rw [exec_tuEvaluate alive next, acquire, on, number, first, past, served, beq_self_eq_true, beq_self_eq_true]
  rfl

theorem exec_tuAutoForce_of_due (done : (s.tu u).done = some n) (waits : (s.tg (s.f (F.TU_CTL_GROUP u))).done = none)
    (on : s.b (F.TU_CTL_EN u) = true) (due : s.autoDue u n = true) :
    exec (.tuAutoForce u) s = .next (s.acceptTrig u n false (s.qualAt (s.unitGrid u) n)) := by
  change execTuAutoForce u s = _
  rw [execTuAutoForce, act_alive _ _ alive]
  simp only [done, waits, acquire, on, due]
  rfl

end

theorem exec_holdoffEnd_of_passed {s : State} {u : Fin 64} {t d : Nat} (alive : s.alive = true) (trig : (s.tu u).trig = some t)
    (done : (s.tu u).done = some d) (passed : t + s.f (F.TU_HOLDOFF_V u) ≤ d) :
    exec (.holdoffEnd u) s = .next (s.setF (F.TU_STAT_HOLDOFF u) 0) := by
  change execHoldoffEnd u s = _
  rw [execHoldoffEnd, act_alive _ _ alive]
  simp only [trig, done, if_pos passed]

/-! ### Groups -/

/-- The triggers that a group's units accepted at a course. -/
def State.groupHits (s : State) (g p : Nat) : List (Nat × Hit) :=
  (s.groupUnits g).filterMap fun u => ((s.tu u).hits.find? fun h => h.p == p).map fun h => (u, h)

/-- A group has evaluated a course: the triggers up to it wait no longer. -/
def State.groupPast (s : State) (g p : Nat) : State :=
  (s.setTg g { s.tg g with done := some p }).each (s.groupUnits g) fun s u =>
    s.setTu u { s.tu u with hits := (s.tu u).hits.filter fun h => decide (p < h.p) }

section

variable {s : State} {g : Fin 64} {n p : Nat} (alive : s.alive = true) (next : s.nextEval (s.f (F.TG_CTL_GRID g)) (s.tg g).done n = p)
include alive next

theorem exec_groupEvaluate :
    exec (.groupEvaluate g n) s = .next
      (if !(s.mode == 3 && c48 p == n && s.groupReady g p) then s
      else (s.groupPast g p).when (s.groupHits g p != []) fun t => t.takeTrig g p (s.groupHits g p)) := by
  subst next
  change execGroupEvaluate g n s = _
  rw [execGroupEvaluate, act_alive _ _ alive]
  rfl

/-- A group takes the triggers of a course, if there are any (R155, R160). -/
theorem exec_groupEvaluate_of_ready (acquire : s.mode = 3) (number : c48 p = n) (ready : s.groupReady g p = true) :
    exec (.groupEvaluate g n) s = .next
      (if s.groupHits g p = [] then s.groupPast g p else (s.groupPast g p).takeTrig g p (s.groupHits g p)) := by
  rw [exec_groupEvaluate alive next, acquire, number, ready, beq_self_eq_true, beq_self_eq_true]
  by_cases quiet : s.groupHits g p = []
  · rw [if_pos quiet, quiet]; rfl
  · rw [if_neg quiet, bne_iff_ne.mpr quiet]; rfl

end

theorem exec_windowClose_of_past {s : State} {g : Fin 64} {a b d : Nat} {ws : List (Nat × Nat)} (alive : s.alive = true)
    (wins : (s.tg g).wins = (a, b) :: ws) (done : (s.tg g).done = some d) (past : b < d) :
    exec (.windowClose g) s = .next (s.setF (F.TG_STAT_WIN g) 0) := by
  change execWindowClose g s = _
  rw [execWindowClose, act_alive _ _ alive]
  simp only [wins, done, if_pos past]

/-! ### The window store and the pins -/

theorem exec_storeRelease_of_past {s : State} {sid : Fin 8192} {l d : Nat} {h : Held} {hs : List Held} (alive : s.alive = true)
    (acquire : s.mode = 3) (link : s.linkOf sid = some l) (held : (s.str sid).held = h :: hs)
    (done : (s.tg (s.f (F.WS_LINK_GROUP l))).done = some d) (past : h.p + s.f (F.TG_CTL_PRE (s.f (F.WS_LINK_GROUP l))) ≤ d) :
    exec (.storeRelease sid) s =
      .next ((s.setStr sid { s.str sid with held := hs }).reduce sid h ((s.tg (s.f (F.WS_LINK_GROUP l))).covers h.p)) := by
  change execStoreRelease sid s = _
  rw [execStoreRelease, act_alive _ _ alive]
  simp only [link, held, done, acquire, decide_eq_true past]
  rfl

theorem exec_trigioPulseEnd_of_pulse {s : State} {k : Fin 4} {t : Nat} (alive : s.alive = true)
    (pulse : Tab.get (fun _ => none) s.pulses k = some t) :
    exec (.trigioPulseEnd k) s = .next { s.passTo t with pulses := Tab.set (fun _ => none) s.pulses k none } := by
  change execTrigioPulseEnd k s = _
  rw [execTrigioPulseEnd, act_alive _ _ alive]
  simp only [pulse]

/-- A valid link names an active stream, which holds it (R156). -/
def State.linkBusy (s : State) (l : Nat) : Bool :=
  s.b (F.WS_LINK_VALID l) && s.b (F.SE_CTL_VALID (s.f (F.WS_LINK_SID l))) && s.b (F.SE_CTL_ACT (s.f (F.WS_LINK_SID l)))

section

variable {s u : State} {r : Req} {l : Fin 1024} {v : Word} (h : s.takes r (R.WS_LINK l)) (linked : s.setW (R.WS_LINK l) (v &&& 0xBF001FFF) = u)
include h linked

theorem exec_wsLinkWrite :
    exec (.wsLinkWrite r l v) s = .next
      (if wbit v 31 && !u.linkOk l then s.fin .unsupported else if s.linkBusy l || u.linkBusy l then s.fin .busy else u.fin .ok) := by
  subst linked
  exact act_regWrite_of_takes h _

theorem exec_wsLinkWrite_of_illegal (valid : wbit v 31 = true) (illegal : u.linkOk l = false) :
    exec (.wsLinkWrite r l v) s = .next (s.fin .unsupported) := by
  rw [exec_wsLinkWrite h linked, valid, illegal]; rfl

/-- A withdrawal needs no legal link (R156). -/
theorem exec_wsLinkWrite_of_free (legal : wbit v 31 = false ∨ u.linkOk l = true) (free : s.linkBusy l = false) (free' : u.linkBusy l = false) :
    exec (.wsLinkWrite r l v) s = .next (u.fin .ok) := by
  have taken : (wbit v 31 && !u.linkOk l) = false := by rcases legal with e | e <;> simp [e]
  rw [exec_wsLinkWrite h linked, taken, free, free']; rfl

end

/-- Settles O48: each clause is one branch of its command, taken by the lemma on that branch. -/
theorem triggerUnitsAndGroups : Obligations.TriggerUnitsAndGroups := by
  intro s r u g n e tr d b ws v sid l k h hs tv tvs x kinds left y linked q0 g0 busy taken
  refine ⟨fun tk source edge on was ok => ?enabled, fun tk source edge on was bad => ?sourceless, fun tk source edge off => ?disabled,
    fun tk was => ?source, fun tk kind3 => ?kind3, fun tk source edge was on => ?busy, fun alive acquire on done number vals past owes => ?noValue,
    fun alive acquire on done number vals at_ past => ?value, exec_holdoffEnd_of_passed, exec_tuAutoForce_of_due,
    fun alive acquire done number ready => ?firstCourse, fun alive acquire done number ready => ?nextCourse,
    exec_windowClose_of_past, exec_storeRelease_of_past, fun tk => exec_wsLinkWrite_of_illegal tk rfl,
    fun tk _ legal => exec_wsLinkWrite_of_free tk rfl (.inr legal), fun tk off => exec_wsLinkWrite_of_free tk rfl (.inl off),
    exec_trigioPulseEnd_of_pulse⟩
  case enabled => exact (exec_tuCtlWrite_ctl tk).trans (congrArg _ (State.tuCtl_of_source source edge was on ok))
  case sourceless => exact (exec_tuCtlWrite_ctl tk).trans (congrArg _ (State.tuCtl_of_sourceless source edge was on bad))
  case disabled => exact (exec_tuCtlWrite_ctl tk).trans (congrArg _ (State.tuCtl_of_off source edge off))
  case source => rw [exec_tuCtlWrite_src tk, was]; rfl
  case kind3 => rw [exec_tuCtlWrite_ctl tk, State.tuCtl_of_kind3 kind3]
  case busy => rw [exec_tuCtlWrite_ctl tk, State.tuCtl_of_enabled source edge was on]
  case noValue =>
    have unread : (s.unitLeft u).vals = [] := by rw [State.unitLeft_of_none done]; exact vals
    have next : s.nextEval (s.unitGrid u) (s.unitDone u) n = q0 := by rw [done]; rfl
    rw [exec_tuEvaluate_of_due alive acquire on next number past (by rw [unread]; simp) (.inr owes), unread, State.unitCourse_nil,
      State.setTu_same, State.unitLeft_of_none done]
  case value =>
    have unread : (s.unitLeft u).vals = tv :: tvs := by rw [State.unitLeft_of_some done]; exact vals
    have next : s.nextEval (s.unitGrid u) (s.unitDone u) n = d + 1 := by rw [done]; rfl
    rw [exec_tuEvaluate_of_due alive acquire on next number past (by rw [done]; rfl) (.inl (by rw [unread]; simp [at_])), unread,
      State.unitCourse_cons_of_due _ _ at_, State.setTu_same, State.unitLeft_of_some done]
  case firstCourse =>
    have next : s.nextEval (s.f (F.TG_CTL_GRID g)) (s.tg g).done n = g0 := by rw [done]; rfl
    exact exec_groupEvaluate_of_ready alive next acquire number ready
  case nextCourse =>
    have next : s.nextEval (s.f (F.TG_CTL_GRID g)) (s.tg g).done n = d + 1 := by rw [done]; rfl
    exact exec_groupEvaluate_of_ready alive next acquire number ready

end Sys2Proof.Machine
end

section
/-!
PROOFS. The writes of trigger groups, reduction profiles and stream entries, STREAM_ADD, STREAM_DEL and the heartbeat (R154, R165 to R182).
-/

namespace Sys2Proof.Machine

/-! ### Trigger groups -/

/-- A group that an enabled unit or an active linked stream uses (R154). -/
def State.groupUsed (s : State) (g : Nat) : Bool := s.groupUnits g != [] || s.groupStreams g != []

theorem State.groupUsed_eq_false {s : State} {g : Nat} (h : s.groupUnits g = [] ∧ s.groupStreams g = []) : s.groupUsed g = false := by
  obtain ⟨units, streams⟩ := h
  rw [State.groupUsed, units, streams]; rfl

theorem State.groupUsed_eq_true {s : State} {g : Nat} (h : s.groupUnits g ≠ [] ∨ s.groupStreams g ≠ []) : s.groupUsed g = true := by
  simpa [State.groupUsed] using h

section

variable {s : State} {r : Req} {g : Fin 64} {v : Word}

theorem exec_tgCtlWrite_post (h : s.takes r (R.TG_POST g)) :
    exec (.tgCtlWrite r g true v) s = .next (if s.groupUsed g then s.fin .busy else (s.setF (F.TG_POST_V g) v.toNat).fin .ok) :=
  act_regWrite_of_takes h fun s => if s.groupUsed g then s.fin .busy else (s.setF (F.TG_POST_V g) v.toNat).fin .ok

theorem exec_tgCtlWrite_ctl (h : s.takes r (R.TG_CTL g)) :
    exec (.tgCtlWrite r g false v) s = .next
      (if 4096 < bits v.toNat 12 0 then s.fin .unsupported
      else if s.groupUsed g then s.fin .busy else (s.setW (R.TG_CTL g) (v &&& 0x30001FFF)).fin .ok) :=
  act_regWrite_of_takes h fun s => if 4096 < bits v.toNat 12 0 then s.fin .unsupported
    else if s.groupUsed g then s.fin .busy else (s.setW (R.TG_CTL g) (v &&& 0x30001FFF)).fin .ok

end

/-! ### Reduction profiles -/

/-- A word of a profile that is taken while no active stream names the profile (R166). -/
def State.rpPut (s : State) (p : Nat) (bad : Bool) (a : Nat) (w : Word) : State :=
  if bad then s.fin .unsupported else if s.profileUsed p then s.fin .busy else (s.setW a w).fin .ok

section

variable {s : State} {r : Req} {q : Fin 64} {v : Word}

theorem exec_rpWrite_ctl (h : s.takes r (R.RP_CTL q)) :
    exec (.rpWrite r q 0 v) s = .next (s.rpPut q (decide (3 < bits v.toNat 2 0)) (R.RP_CTL q) (v &&& 0x17)) :=
  act_regWrite_of_takes h fun s => s.rpPut q (decide (3 < bits v.toNat 2 0)) (R.RP_CTL q) (v &&& 0x17)

theorem exec_rpWrite_db (h : s.takes r (R.RP_DB q)) : exec (.rpWrite r q 1 v) s = .next (s.rpPut q false (R.RP_DB q) (v &&& 0xFFFFFF)) :=
  act_regWrite_of_takes h fun s => s.rpPut q false (R.RP_DB q) (v &&& 0xFFFFFF)

theorem exec_rpWrite_dec (h : s.takes r (R.RP_DEC q)) : exec (.rpWrite r q 2 v) s = .next (s.rpPut q false (R.RP_DEC q) (v &&& 0xFFFF)) :=
  act_regWrite_of_takes h fun s => s.rpPut q false (R.RP_DEC q) (v &&& 0xFFFF)

theorem exec_rpWrite_hb (h : s.takes r (R.RP_HB q)) :
    exec (.rpWrite r q 3 v) s = .next (s.rpPut q (v.toNat % 65536 == 0) (R.RP_HB q) (v &&& 0xFFFF)) :=
  act_regWrite_of_takes h fun s => s.rpPut q (v.toNat % 65536 == 0) (R.RP_HB q) (v &&& 0xFFFF)

end

section

variable {s : State} {p a : Nat} {bad : Bool} {w : Word}

theorem State.rpPut_of_bad (h : bad = true) : s.rpPut p bad a w = s.fin .unsupported := if_pos h

theorem State.rpPut_of_used (legal : bad = false) (used : s.profileUsed p = true) : s.rpPut p bad a w = s.fin .busy := by
  rw [State.rpPut, legal, used]; rfl

theorem State.rpPut_of_unused (legal : bad = false) (unused : s.profileUsed p = false) : s.rpPut p bad a w = (s.setW a w).fin .ok := by
  rw [State.rpPut, legal, unused]; rfl

end

/-! ### Requests of a port that has none before them -/

/-- A REQ hod that arrives where none waits, and whose effect leaves the hub in state `z`, while it is outstanding (R356 to R358). -/
def State.answered (s : State) (p op tag : Nat) (z : State) : State :=
  (s.pushReq p ⟨1, op, tag, false⟩).runReq p ⟨1, op, tag, false⟩ (fun _ => z) fun t => t.answer p op tag

/-- An effect that begins no MRAM batch is answered at once, and the requests behind it are served (R358). -/
theorem State.answered_of_done {s z : State} {p op tag : Nat} {rs : List Reqd}
    (done : (s.pushReq p ⟨1, op, tag, false⟩).began z = false) (oldest : (z.port p).reqs = ⟨1, op, tag, false⟩ :: rs) :
    s.answered p op tag z = ((z.popReq p).answer p op tag).serve p := by
  have same : Reqd.same ⟨1, op, tag, false⟩ ⟨1, op, tag, false⟩ = true := by simp [Reqd.same]
  simp only [State.answered, State.runReq, done, oldest, same]
  rfl

section

variable {s : State} {p op tag : Nat} (eff : State → State) (empty : (s.port p).reqs = []) (run : s.mode ≠ 0) (run' : s.mode ≠ 4)
include empty run run'

theorem request_of_turn (fresh : s.tagsOut.contains tag = false) (up : s.role p ≠ 2) :
    request 1 p op tag eff s = s.answered p op tag (eff (s.pushReq p ⟨1, op, tag, false⟩)) := by
  have new : ¬((s.role p ≠ 2 && s.tagsOut.contains tag && !(s.port p).reqs.any (Reqd.same ⟨1, op, tag, false⟩)) = true) := by
    rw [fresh, Bool.and_false]; exact Bool.false_ne_true
  rw [request, if_neg (not_or.mpr ⟨run, run'⟩), if_neg new, inTurn, empty]
  exact if_neg up

/-- On a DOWN port a request is in the wrong direction (R351). -/
theorem request_of_down (down : s.role p = 2) : request 1 p op tag eff s = s.misdirect p s.hid := by
  have new : ¬((s.role p ≠ 2 && s.tagsOut.contains tag && !(s.port p).reqs.any (Reqd.same ⟨1, op, tag, false⟩)) = true) := by
    simp [down]
  rw [request, if_neg (not_or.mpr ⟨run, run'⟩), if_neg new, inTurn, empty]
  exact if_pos down

end

/-! ### STREAM_ADD -/

/-- What STREAM_ADD answers once its bits are legal in a mode that has streams (R178 to R180). -/
def State.addEnds (s : State) (ctl src rep : Word) : State :=
  match s.addStream ctl src rep with
  | .error c => s.fin c
  | .ok (t, k) => t.finData [BitVec.ofNat 32 k]

section

variable {s : State} {ctl src rep : Word} {k : Nat} (kind : bits ctl.toNat 28 27 ≠ 3) (free : s.freeSid 8192 0 = some k)
  (untested : (s.newEntry k ctl src rep).pressTest k = false) (legal : (s.newEntry k ctl src rep).entryOk k = true)
include kind free untested legal

theorem State.addStream_of_inactive (off : wbit ctl 30 = false) : s.addStream ctl src rep = .ok (s.newEntry k ctl src rep, k) := by
  simp only [State.addStream, if_neg kind, free, untested, legal, off]
  rfl

theorem State.addStream_of_active (on : wbit ctl 30 = true)
    (starts : s.actStop ((s.newEntry k ctl src rep).setF (F.SE_CTL_ACT k) 1) k = none) :
    s.addStream ctl src rep = .ok ((s.newEntry k ctl src rep).startStream k, k) := by
  simp only [State.addStream, if_neg kind, free, untested, legal, on, starts]
  rfl

end

section

variable {s : State} {p : Fin 16} {tag : BitVec 7} (alive : s.alive = true) (empty : (s.port p).reqs = []) (run : s.mode ≠ 0) (run' : s.mode ≠ 4)
include alive empty run run'

theorem exec_streamAdd_of_down (ws : List Word) (down : s.role p = 2) : exec (.streamAdd p tag ws) s = .next (s.misdirect p s.hid) :=
  (act_alive _ _ alive).trans (congrArg _ (request_of_down _ empty run run' down))

theorem exec_streamDel_of_down (ws : List Word) (down : s.role p = 2) : exec (.streamDel p tag ws) s = .next (s.misdirect p s.hid) :=
  (act_alive _ _ alive).trans (congrArg _ (request_of_down _ empty run run' down))

variable (fresh : s.tagsOut.contains tag.toNat = false) (up : s.role p ≠ 2)
include fresh up

theorem exec_streamAdd_of_bits {ctl src rep : Word} (ok : addBitsOk ctl src rep = true)
    (live : (s.pushReq p ⟨1, 0x10, tag.toNat, false⟩).live = true) :
    exec (.streamAdd p tag [ctl, src, rep]) s =
      .next (s.answered p 0x10 tag.toNat ((s.pushReq p ⟨1, 0x10, tag.toNat, false⟩).addEnds ctl src rep)) := by
  change execStreamAdd p tag [ctl, src, rep] s = _
  rw [execStreamAdd, act_alive _ _ alive, request_of_turn _ empty run run' fresh up]
  simp only [ok, live]
  rfl

/-! ### STREAM_DEL and SID_FREE -/

/-- An entry that is inactive and that nothing names is retired (R182). -/
theorem exec_streamDel_of_unused {w : Word} {k : Nat} {d : State} (pushed : s.pushReq p ⟨1, 0x11, tag.toNat, false⟩ = d) (range : w.toNat < 2 ^ 13)
    (sid : bits w.toNat 12 0 = k) (valid : d.b (F.SE_CTL_VALID k) = true) (off : d.b (F.SE_CTL_ACT k) = false) (unnamed : d.namedElsewhere k = false) :
    exec (.streamDel p tag [w]) s =
      .next (s.answered p 0x11 tag.toNat ((((d.dropTdisc k).setF (F.SE_CTL_VALID k) 0).setF (F.SE_STAT_RETIRING k) 1).fin .ok)) := by
  change execStreamDel p tag [w] s = _
  rw [execStreamDel, act_alive _ _ alive, request_of_turn _ empty run run' fresh up, pushed]
  simp only [sid, if_neg (Nat.not_le.mpr range), valid, off, unnamed]
  rfl

end

theorem exec_sidFree_of_gone {s : State} {sid : Fin 8192} (alive : s.alive = true) (retiring : s.b (F.SE_STAT_RETIRING sid) = true)
    (gone : s.sidInYard sid = false) : exec (.sidFree sid) s = .next (s.setF (F.SE_STAT_RETIRING sid) 0) :=
  (act_alive _ _ alive).trans (congrArg _ (if_pos (by rw [retiring, gone]; rfl)))

/-! ### The words of an entry -/

/-- A word of an entry once the configuration in `v` has been taken into it (R177). -/
def seTaken (w : Nat) (old v : Word) : Word := (old &&& ~~~(seMask w)) ||| (v &&& seMask w)

section

variable {s : State} {k w : Nat} {v : Word}

theorem State.seWrite_of_invalid (invalid : s.b (F.SE_CTL_VALID k) = false) : s.seWrite k w v = s.fin .addr := by
  rw [State.seWrite, invalid]; rfl

section

variable (valid : s.b (F.SE_CTL_VALID k) = true)
include valid

theorem State.seWrite_src {t : State} (put : s.setW (R.SE_SRC k) (seTaken 1 (s.w (R.SE_SRC k)) v) = t) :
    s.seWrite k 1 v =
      if (v &&& seMask 1) != (s.w (R.SE_SRC k) &&& seMask 1) && (s.b (F.SE_CTL_ACT k) || s.namedElsewhere k) then s.fin .busy
      else if (v &&& seMask 1) != (s.w (R.SE_SRC k) &&& seMask 1) && t.pressTest k then s.fin .busyTest
      else if (v &&& seMask 1) != (s.w (R.SE_SRC k) &&& seMask 1) && !t.entryOk k then s.fin .unsupported
      else t.fin .ok := by
  subst put
  rw [State.seWrite, valid]
  rfl

/-- A change of the configuration of an entry in use is refused (R177). -/
theorem State.seWrite_src_of_used (change : v &&& seMask 1 ≠ s.w (R.SE_SRC k) &&& seMask 1)
    (used : s.b (F.SE_CTL_ACT k) = true ∨ s.namedElsewhere k = true) : s.seWrite k 1 v = s.fin .busy := by
  rw [State.seWrite_src valid rfl, bne_iff_ne.mpr change, Bool.or_eq_true_iff.mpr used]
  rfl

/-- An entry that nothing uses takes a configuration that keeps the rules (R176, R177). -/
theorem State.seWrite_src_of_legal {t : State}
    (put : s.setW (R.SE_SRC k) (seTaken 1 (s.w (R.SE_SRC k)) v) = t) (off : s.b (F.SE_CTL_ACT k) = false)
    (unnamed : s.namedElsewhere k = false) (untested : t.pressTest k = false) (legal : t.entryOk k = true) :
    s.seWrite k 1 v = t.fin .ok := by
  rw [State.seWrite_src valid put, off, unnamed, untested, legal, Bool.or_false, Bool.not_true, Bool.and_false]
  rfl

section

variable (kind : bits v.toNat 28 27 ≠ 3) (same : v &&& seMask 0 = s.w (R.SE_CTL k) &&& seMask 0) {z : State}
  (put : s.setW (R.SE_CTL k) (seTaken 0 (s.w (R.SE_CTL k)) (s.w (R.SE_CTL k))) = z)
include kind same put

/-- A write of SE_CTL that changes no configuration activates, deactivates, or does nothing (R180, R181). -/
theorem State.seWrite_ctl_of_same :
    s.seWrite k 0 v =
      if wbit v 30 && !s.b (F.SE_CTL_ACT k) then
        match s.actStop (z.setF (F.SE_CTL_ACT k) 1) k with
        | some c => s.fin c
        | none => (z.startStream k).fin .ok
      else if !wbit v 30 && s.b (F.SE_CTL_ACT k) then (z.stopStream k).fin .ok
      else z.fin .ok := by
  subst put
  have kept : ((0 : Nat) == 0 && bits v.toNat 28 27 == 3) = false := by simp [kind]
  simp only [State.seWrite, valid, if_true, kept, same, bne_self_eq_false, Bool.false_and]
  rfl

theorem State.seWrite_ctl_of_start (on : wbit v 30 = true) (off : s.b (F.SE_CTL_ACT k) = false)
    (starts : s.actStop (z.setF (F.SE_CTL_ACT k) 1) k = none) : s.seWrite k 0 v = (z.startStream k).fin .ok := by
  rw [State.seWrite_ctl_of_same valid kind same put, on, off, starts]; rfl

theorem State.seWrite_ctl_of_stop (off : wbit v 30 = false) (on : s.b (F.SE_CTL_ACT k) = true) : s.seWrite k 0 v = (z.stopStream k).fin .ok := by
  rw [State.seWrite_ctl_of_same valid kind same put, on, off]; rfl

end

end

end

/-! The commands give the written word their own ACT and keep its configuration. -/

theorem and_seMask_of_set_act (v : Word) : (v ||| 0x40000000) &&& seMask 0 = v &&& seMask 0 := by
  have apart : (0x40000000 : Word) &&& seMask 0 = 0 := rfl
  rw [BitVec.and_or_distrib_right, apart]
  exact BitVec.or_zero

theorem and_seMask_of_clear_act (v : Word) : (v &&& 0xBFFFFFFF) &&& seMask 0 = v &&& seMask 0 := by
  rw [BitVec.and_assoc]; rfl

theorem bits_kind_of_clear_act (v : Word) : bits (v &&& 0xBFFFFFFF).toNat 28 27 = bits v.toNat 28 27 := by
  have whole : bits (0xBFFFFFFF : Word).toNat 28 27 = 2 ^ 2 - 1 := rfl
  rw [BitVec.toNat_and, bits_and, whole, Nat.and_two_pow_sub_one_eq_mod]
  exact Nat.mod_mod ..

section

variable {s : State} {r : Req} {sid : Fin 8192} {v : Word}

theorem exec_seConfigWrite_src (h : s.takes r (R.SE_CTL sid + 4)) : exec (.seConfigWrite r sid 1 v) s = .next (s.seWrite sid 1 v) :=
  act_regWrite_of_takes (a := R.SE_CTL sid + 4 * (1 : Fin 3).val) h fun s => s.seWrite sid 1 v

theorem exec_streamActivate (h : s.takes r (R.SE_CTL sid)) : exec (.streamActivate r sid v) s = .next (s.seWrite sid 0 (v ||| 0x40000000)) :=
  act_regWrite_of_takes h fun s => s.seWrite sid 0 (v ||| 0x40000000)

theorem exec_streamDeactivate (h : s.takes r (R.SE_CTL sid)) : exec (.streamDeactivate r sid v) s = .next (s.seWrite sid 0 (v &&& 0xBFFFFFFF)) :=
  act_regWrite_of_takes h fun s => s.seWrite sid 0 (v &&& 0xBFFFFFFF)

end

/-! ### The heartbeat -/

/-- The profile that a stream is reduced with now (R169). -/
def State.profileOf (s : State) (k : Nat) : Nat := if (s.str k).fb then s.f (F.SE_REP_FALLBACK k) else s.f (F.SE_REP_NORMAL k)

/-- The entry of a heartbeat: the course handled last, `gone` courses after the last stored one (R167). -/
def beatVal (h : Held) (fb : Bool) (gone : Nat) : Cur := { oneVal 2 h.n 0 h.x h.settling false fb false h.q 0 0 with vals := [(h.x, gone)] }

/-- A heartbeat stored is the new reference (R167). -/
def State.putBeat (s : State) (k : Nat) (h : Held) (v : Cur) : State :=
  (s.putValue k v).setStr k { (s.putValue k v).str k with ref := some (h.x, h.n) }

theorem exec_deltaHeartbeat_of_due {s : State} {sid : Fin 8192} {h : Held} {x : Int} {i : Nat} {b : Cur} (alive : s.alive = true)
    (acquire : s.mode = 3) (last : (s.str sid).last = some h) (ref : (s.str sid).ref = some (x, i)) (cur : (s.str sid).cur = some b)
    (delta : b.typ = 2) (later : h.n ≠ i) (rep : s.f (F.RP_CTL_REP (s.profileOf sid)) = 1)
    (due : s.f (F.RP_HB_V (s.profileOf sid)) ≤ c48 (h.n + 2 ^ 48 - i)) :
    exec (.deltaHeartbeat sid) s = .next (s.putBeat sid h (beatVal h (s.str sid).fb (c48 (h.n + 2 ^ 48 - i)))) := by
  have now : (s.mode == 3 && (b.typ == 2 && s.f (F.RP_CTL_REP (s.profileOf sid)) == 1
      && decide (s.f (F.RP_HB_V (s.profileOf sid)) ≤ c48 (h.n + 2 ^ 48 - i)) && h.n != i)) = true := by
    rw [acquire, delta, rep, decide_eq_true due, bne_iff_ne.mpr later]; rfl
  change execDeltaHeartbeat sid s = _
  rw [execDeltaHeartbeat, act_alive _ _ alive]
  simp only [last, ref, cur]
  exact congrArg _ (if_neg (by rw [Bool.not_eq_true', Bool.not_eq_false]; exact now))

/-- Settles O49: each write is its register's effect, a request takes effect in its turn, and each clause is one branch of that effect. -/
theorem profilesAndStreams : Obligations.ProfilesAndStreams := by
  intro s r g q v ctl src rep w p tag sid k i c h b t used unused free req u d answers st old src1 rec_ legal cfg
  have add : ∀ {z : State}, s.alive = true → free → u.live = true → addBitsOk ctl src rep = true → u.addEnds ctl src rep = z →
      exec (.streamAdd p tag [ctl, src, rep]) s = .next (answers 0x10 z) := by
    intro z alive ⟨fresh, empty, up, run, run'⟩ live ok ends
    subst ends
    exact exec_streamAdd_of_bits alive empty run run' fresh up ok live
  refine ⟨fun tk idle => ?postTaken, fun tk busy => ?postBusy, fun tk range idle => ?tgTaken, fun tk range => ?tgRange,
    fun tk range idle => ?rpTaken, fun tk range => ?rpRange, fun tk some_ idle => ?hbTaken, fun tk idle => ?dbTaken, fun tk busy => ?dbBusy,
    fun tk idle => ?decTaken, fun tk zero => ?hbZero, fun alive fr live ok kind sid_ lg off => add alive fr live ok ?addInactive,
    fun alive fr live ok kind sid_ lg on starts => add alive fr live ok ?addActive, fun alive fr live ok fails => add alive fr live ok ?addFails,
    fun empty alive down run run' => ⟨exec_streamAdd_of_down alive empty run run' _ down, exec_streamDel_of_down alive empty run run' _ down⟩,
    State.answered_of_done, fun alive fr range sid_ valid off unnamed => ?del, exec_sidFree_of_gone, fun tk invalid => ?seInvalid,
    fun tk valid off unnamed untested ok => ?seTaken, fun tk valid change held => ?seBusy, fun tk valid kind same off => ?starts,
    fun tk valid kind same on => ?stops, fun alive acquire last ref cur delta later => exec_deltaHeartbeat_of_due alive acquire last ref cur delta later⟩
  case postTaken => rw [exec_tgCtlWrite_post tk, State.groupUsed_eq_false idle]; rfl
  case postBusy => rw [exec_tgCtlWrite_post tk, State.groupUsed_eq_true busy]; rfl
  case tgTaken => rw [exec_tgCtlWrite_ctl tk, if_neg (Nat.not_lt.mpr range), State.groupUsed_eq_false idle]; rfl
  case tgRange => rw [exec_tgCtlWrite_ctl tk, if_pos range]
  case rpTaken => rw [exec_rpWrite_ctl tk, State.rpPut_of_unused (decide_eq_false (Nat.not_lt.mpr range)) idle]
  case rpRange => rw [exec_rpWrite_ctl tk, State.rpPut_of_bad (decide_eq_true range)]
  case hbTaken => rw [exec_rpWrite_hb tk, State.rpPut_of_unused (beq_false_of_ne some_) idle]
  case dbTaken => rw [exec_rpWrite_db tk, State.rpPut_of_unused rfl idle]
  case dbBusy => rw [exec_rpWrite_db tk, State.rpPut_of_used rfl busy]
  case decTaken => rw [exec_rpWrite_dec tk, State.rpPut_of_unused rfl idle]
  case hbZero => rw [exec_rpWrite_hb tk, State.rpPut_of_bad (beq_iff_eq.mpr zero)]
  case addInactive =>
    obtain ⟨untested, ok⟩ := lg
    rw [State.addEnds, State.addStream_of_inactive kind sid_ untested ok off]
  case addActive =>
    obtain ⟨untested, ok⟩ := lg
    rw [State.addEnds, State.addStream_of_active kind sid_ untested ok on starts]
  case addFails => rw [State.addEnds, fails]
  case del =>
    obtain ⟨fresh, empty, up, run, run'⟩ := fr
    exact exec_streamDel_of_unused alive empty run run' fresh up rfl range sid_ valid off unnamed
  case seInvalid => rw [exec_seConfigWrite_src tk, State.seWrite_of_invalid invalid]
  case seTaken => rw [exec_seConfigWrite_src tk, State.seWrite_src_of_legal (t := cfg) valid rfl off unnamed untested ok]
  case seBusy => rw [exec_seConfigWrite_src tk, State.seWrite_src_of_used valid change held]
  case starts =>
    intro z starts
    have kind' : bits (v ||| 0x40000000).toNat 28 27 ≠ 3 := by rwa [bits_or_of_clear rfl]
    rw [exec_streamActivate tk, State.seWrite_ctl_of_start (z := z) valid kind' ((and_seMask_of_set_act v).trans same) rfl (wbit_or_of_set rfl) off starts]
  case stops =>
    have kind' : bits (v &&& 0xBFFFFFFF).toNat 28 27 ≠ 3 := by rwa [bits_kind_of_clear_act]
    have off : wbit (v &&& 0xBFFFFFFF) 30 = false := by rw [wbit_and]; exact Bool.and_false _
    exact (exec_streamDeactivate tk).trans
      (congrArg _ (State.seWrite_ctl_of_stop valid kind' ((and_seMask_of_clear_act v).trans same) rfl off on))

end Sys2Proof.Machine
end

section
/-!
PROOFS. How an instruction of a mason ends (R222, R225, R240, R248), the targets of the transfers of control (R235, R236), and trap
entry (R200 to R203).
-/

namespace Sys2Proof.Machine

/-! ### The ways an instruction ends -/

section

variable {s t : State} {m : Fin 16} {w : Word} {f : State → Mason → Turn} (h : s.issues m w)
include h

theorem isa_of_next (ends : f s (s.mason m) = .next t) : isa m w f s = .next (t.retire m ((s.mason m).pc + 4)) := by
  rw [isa_of_issues h, ends]; rfl

theorem isa_of_goto {pc : Nat} (ends : f s (s.mason m) = .goto t pc) : isa m w f s = .next (t.retire m pc) := by
  rw [isa_of_issues h, ends]; rfl

theorem isa_of_trap {c v : Nat} (ends : f s (s.mason m) = .trap c v) : isa m w f s = .next (s.trap m c v) := by
  rw [isa_of_issues h, ends]; rfl

theorem isa_of_stall (ends : f s (s.mason m) = .stall) : isa m w f s = .next (s.setF (F.MC_STAT_STALLED m) 1) := by
  rw [isa_of_issues h, ends]; rfl

theorem isa_of_gate (ends : f s (s.mason m) = .gate t) : isa m w f s = .next t := by
  rw [isa_of_issues h, ends]; rfl

/-- ILLEGAL, with the instruction word in TVAL (R200, R248). -/
theorem isa_of_illegal (ends : f s (s.mason m) = illegal w) : isa m w f s = .next (s.trap m 0 w.toNat) := isa_of_trap h ends

/-- An ST instruction completes with its status and retires (R240). -/
theorem isa_of_stDone {c : Status} (ends : f s (s.mason m) = stDone m c t) :
    isa m w f s = .next ((t.setMason m ((t.mason m).status c)).retire m ((s.mason m).pc + 4)) := isa_of_next h ends

end

/-! ### Targets and conditions of the transfers of control -/

theorem jump_of_misaligned {n : Nat} (misaligned : n % 4 ≠ 0) (s : State) : jump s n = .trap 3 n := if_pos misaligned

theorem jump_of_outside {n : Nat} (aligned : n % 4 = 0) (outside : 65536 ≤ n) (s : State) : jump s n = .trap 1 n := by
  rw [jump, if_neg (not_not_intro aligned), if_pos outside]

/-- A transfer to a bad target traps, whatever its link would have written (R236). -/
theorem isa_of_jump {s t : State} {m : Fin 16} {w : Word} {f : State → Mason → Turn} {n : Nat} (h : s.issues m w)
    (ends : f s (s.mason m) = jump t n) :
    (n % 4 ≠ 0 → isa m w f s = .next (s.trap m 3 n)) ∧ (n % 4 = 0 → 65536 ≤ n → isa m w f s = .next (s.trap m 1 n)) :=
  ⟨fun misaligned => isa_of_trap h (ends.trans (jump_of_misaligned misaligned t)),
    fun aligned outside => isa_of_trap h (ends.trans (jump_of_outside aligned outside t))⟩

theorem Mason.cond_eq_none {k : Nat} (beyond : 12 ≤ k) (x : Mason) : x.cond k = none := by
  obtain ⟨j, rfl⟩ := Nat.exists_eq_add_of_le' beyond
  rfl

/-- Settles O13: the conditions row by row, and each transfer ends as a jump to its target does. -/
theorem branchConditionsAndBadTargets : Obligations.BranchConditionsAndBadTargets := by
  refine ⟨?conditions, fun s m gd ga cond off => ?transfers⟩
  case conditions =>
    intro x z n c v k b row
    simp only [List.mem_cons, Prod.mk.injEq, List.not_mem_nil, or_false] at row
    rcases row with ⟨rfl, rfl⟩ | ⟨rfl, rfl⟩ | ⟨rfl, rfl⟩ | ⟨rfl, rfl⟩ | ⟨rfl, rfl⟩ | ⟨rfl, rfl⟩ | ⟨rfl, rfl⟩ | ⟨rfl, rfl⟩ | ⟨rfl, rfl⟩ |
      ⟨rfl, rfl⟩ | ⟨rfl, rfl⟩ | ⟨rfl, rfl⟩ <;> rfl
  case transfers =>
    intro x g dest bad
    refine ⟨fun h => ?jr, fun h => ?jalr, fun h holds => ?taken, fun h beyond => ?noRow, fun h => ?bl⟩
    case jr => change bad g (execJr m ga s); exact isa_of_jump h rfl
    case jalr => change bad g (execJalr m gd ga s); exact isa_of_jump h rfl
    case taken => change bad dest (execBCond m cond off s); rw [execBCond]; exact isa_of_jump h (by simp only [x, holds]; rfl)
    case noRow => change execBCond m cond off s = _; rw [execBCond]; exact isa_of_illegal h (by simp only [Mason.cond_eq_none beyond])
    case bl => change bad dest (execBl m off s); exact isa_of_jump h rfl

/-! ### Trap entry -/

/-- The state in which a trap is entered: an error in a word that an access meets is logged first, and no stall stands (R203, R225). -/
def State.trapStart (s : State) (m cause tval : Nat) : State :=
  (if cause = 5 then (s.setF (F.MC_EVT_UNCORR m) 1).raise 0x0C04 m tval else s).setF (F.MC_STAT_STALLED m) 0

theorem State.trap_eq (s : State) (m cause tval : Nat) :
    s.trap m cause tval =
      if (s.trapStart m cause tval).b (F.MC_STAT_IN_TRAP m) then (s.trapStart m cause tval).doubleFault m cause tval
      else (s.trapStart m cause tval).firstTrap m cause tval := by
  simp only [State.trap, State.trapStart, State.when, beq_iff_eq]
  rfl

/-- A first trap's registers, and PC at the trap vector (R201). -/
def State.trapEntered (s : State) (m cause tval : Nat) : State :=
  ((((s.setF (F.MC_EPC_V m) ((s.mason m).pc % 65536)).setF (F.MC_CAUSE_V m) cause).setW (R.MC_TVAL m) (BitVec.ofNat 32 tval)).setF
    (F.MC_STAT_IN_TRAP m) 1).setMason m { s.mason m with pc := s.f (F.MC_TVEC_V m) }

section

variable {m cause tval : Nat} (s : State)

/-- The registers that a trap saves leave the trap vector as it stands. -/
theorem State.tvec_of_saved (pc : Nat) (w : Word) :
    (((s.setF (F.MC_EPC_V m) pc).setF (F.MC_CAUSE_V m) cause).setW (R.MC_TVAL m) w).f (F.MC_TVEC_V m) = s.f (F.MC_TVEC_V m) := by
  rw [State.setW_f_other, State.setF_f_other, State.setF_f_other] <;>
    simp only [F.MC_TVEC_V, F.MC_CAUSE_V, F.MC_EPC_V, R.MC_TVEC, R.MC_TVAL, R.MC_CAUSE, R.MC_EPC] <;> omega

theorem State.firstTrap_eq :
    s.firstTrap m cause tval = (s.trapEntered m cause tval).when (decide (cause ≤ 5)) fun t =>
      (t.setF (F.MC_EVT_TRAP m) 1).raise 0x0C01 m (cause * 2 ^ 32 + (s.mason m).pc % 65536) := by
  simp only [State.firstTrap, State.tvec_of_saved]
  rfl

/-- The detail of a double fault: its cause, the address and TVAL (R202). -/
def State.faultDetail (s : State) (m cause tval : Nat) : Nat := cause * 2 ^ 56 + (s.mason m).pc % 65536 * 2 ^ 32 + tval % 2 ^ 32

/-- A double fault that has been reported, with the rows after which its reset would cut a batch (R202). -/
def State.faultDrawn (s : State) (m cause tval : Nat) : State × Nat :=
  ((s.setF (F.MC_EVT_DFAULT m) 1).raise 0x0C02 m (s.faultDetail m cause tval)).draw 6

theorem State.doubleFault_eq :
    s.doubleFault m cause tval =
      ((s.faultDrawn m cause tval).1.lockup m (s.faultDetail m cause tval) (s.faultDrawn m cause tval).2).when
        ((s.faultDrawn m cause tval).1.b F.RST_CTL_LOCKUP_ACT) fun t => (t.handSlots m).setF (F.MC_STAT_STATE m) 4 := by
  simp only [State.doubleFault, State.faultDrawn, State.faultDetail]

/-- A lockup that the hub lives through puts the mason into FAULT (R202, R437). -/
theorem State.doubleFault_of_event (lockupAct : (s.faultDrawn m cause tval).1.b F.RST_CTL_LOCKUP_ACT = true) :
    s.doubleFault m cause tval =
      (((s.faultDrawn m cause tval).1.raiseBit R.RPC_EVT 4 0x0105 m (s.faultDetail m cause tval)).handSlots m).setF (F.MC_STAT_STATE m) 4 := by
  rw [State.doubleFault_eq, lockupAct, State.when_true, State.lockup, if_pos lockupAct]

theorem State.doubleFault_of_reset (lockupAct : (s.faultDrawn m cause tval).1.b F.RST_CTL_LOCKUP_ACT = false) :
    s.doubleFault m cause tval = ((s.faultDrawn m cause tval).1.cutBatch (s.faultDrawn m cause tval).2).hubReset 7 := by
  rw [State.doubleFault_eq, lockupAct, State.when_false, State.lockup, lockupAct, if_neg Bool.false_ne_true, State.deferredReset]

end

/-- Settles O21: a trap outside a trap is a first trap, which causes 0 to 5 report; one inside a trap is a double fault. -/
theorem trapEntry : Obligations.TrapEntry := by
  intro s m imm cause tval s0 pc saved first detail twice
  have outside (free : s0.b (F.MC_STAT_IN_TRAP m) = false) : s.trap m cause tval = s0.firstTrap m cause tval :=
    (s.trap_eq m cause tval).trans (if_neg (Bool.eq_false_iff.mp free))
  have inside (held : s0.b (F.MC_STAT_IN_TRAP m) = true) : s.trap m cause tval = s0.doubleFault m cause tval :=
    (s.trap_eq m cause tval).trans (if_pos held)
  refine ⟨fun free event => ?event, fun free six => ?silent, fun held lockupAct => (inside held).trans (s0.doubleFault_of_event lockupAct),
    fun held lockupAct => (inside held).trans (s0.doubleFault_of_reset lockupAct), fun h => ?instruction⟩
  case instruction => change execTrap m imm s = _; exact isa_of_trap h rfl
  case event => rw [outside free, State.firstTrap_eq, decide_eq_true event]; rfl
  case silent => rw [outside free, State.firstTrap_eq, decide_eq_false (by omega)]; rfl

end Sys2Proof.Machine
end

section
/-!
PROOFS. The ST instructions of a mason: courses, time, hods and pallet queues (R192 to R195, R211 to R217, R240 to R245).
-/

namespace Sys2Proof.Machine

/-! ### Courses and time -/

theorem popCourse_of_inbox {s : State} {m : Nat} {p : List Word} {ps : List (List Word)} (oldest : (s.mason m).inbox = p :: ps) (gd vd : Nat) :
    popCourse m gd vd s p =
      stDone m .ok (s.setMason m (({ s.mason m with inbox := ps }.puts gd (p.take 4)).setVec vd (p.drop 4))) := by
  rw [popCourse, oldest]; rfl

/-- Settles O17: each clause is one branch of the instruction. -/
theorem courseAndTimeInstructions : Obligations.CourseAndTimeInstructions := by
  intro s m gd ga vd p ps x done popped sec g n
  refine ⟨fun h legal oldest => ?course, fun h legal empty => ?courseEmpty, fun h legal oldest => ?courseW, fun h legal empty => ?courseWEmpty,
    fun h legal => ?tget, fun h legal inside runs => ?tgetc⟩
  case course =>
    change execCourse m gd vd s = _
    rw [execCourse]
    exact isa_of_stDone h (by simp only [legal, x, oldest]; exact popCourse_of_inbox oldest gd vd)
  case courseEmpty =>
    change execCourse m gd vd s = _
    rw [execCourse]
    exact isa_of_stDone h (by simp only [legal, x, empty]; rfl)
  case courseW =>
    change execCourseW m gd vd s = _
    rw [execCourseW]
    exact isa_of_stDone h (by simp only [legal, x, oldest]; exact popCourse_of_inbox oldest gd vd)
  case courseWEmpty =>
    change execCourseW m gd vd s = _
    rw [execCourseW]
    exact isa_of_stall h (by simp only [legal, x, empty]; rfl)
  case tget =>
    change execTget m gd s = _
    rw [execTget]
    exact isa_of_stDone h (by simp only [legal]; rfl)
  case tgetc =>
    change execTgetc m gd ga s = _
    rw [execTgetc]
    simp only [g, x] at inside runs
    exact isa_of_stDone h (by simp only [legal, if_neg (Nat.not_lt.mpr inside), runs]; rfl)

/-! ### Hods -/

/-- A hod with a record appended, and the courses that a GAP record gives up counted as lost (R194, R260). -/
def State.recAdded (s : State) (m k : Nat) (h : Open) (r : Rec) (values dec : Nat) : State :=
  (s.setMason m ((s.mason m).setSlot k (some (h.add r values dec)))).when (r.typ == 4) fun t =>
    t.setTwo (R.SE_LOST h.sid) (t.two (R.SE_LOST h.sid) + r.cover)

theorem appendRec_of_fits {s : State} {h : Open} {r : Rec} (fits : recWords h.recs + r.words.length ≤ s.hodLimit h.sid) (m k values dec : Nat) :
    appendRec m k h r values dec s = stDone m .ok (s.recAdded m k h r values dec) :=
  if_neg (Nat.not_lt.mpr fits)

section

variable {s : State} {m : Fin 16} {ga gb gc : Fin 32} {h : Open}

/-- A record that passes the checks of R193 before the last waits for the crossing FIFO. -/
theorem exec_hput_of_checked (hi : s.issues m (encST 0x09 0 ga gb gc)) {k a n : Nat} (hk : ((s.mason m).get ga).toNat = k)
    (ha : ((s.mason m).get gb).toNat = a) (hn : ((s.mason m).get gc).toNat = n) (listed : k ≤ 3) (some_ : 1 ≤ n) (short : n ≤ 1022)
    (aligned : a % 4 = 0) (inside : a + 4 * n ≤ 131072) (open_ : (s.mason m).slot k = some h) (good : s.badRange (dmem m + a) (4 * n) = false)
    (counted : bits ((s.dwords m a n).headD 0).toNat 27 16 = n - 1)
    (typed : masonType (bits ((s.dwords m a n).headD 0).toNat 31 28) = true) (room : recWords h.recs + n ≤ s.hodLimit h.sid) :
    exec (.hput m ga gb gc) s =
      .next (s.turn m (if s.hputFull then .stall else hputRec m k h (s.dwords m a n) s)) := by
  change execHput m ga gb gc s = _
  rw [execHput, isa_of_issues hi]
  simp only [hk, ha, hn, State.dataTrap_none (read := false) aligned inside rfl, open_, good, counted, typed, if_neg (Nat.not_lt.mpr listed),
    if_neg (show ¬(n = 0 ∨ 1022 < n) by omega), if_neg (Nat.not_lt.mpr room), ne_eq, not_true_eq_false, Bool.not_true, Bool.false_eq_true,
    if_false]

end

/-- The crossing FIFO with a record's words behind those in it, at the rate of the stream's engine (R193, R287). -/
def State.crossing (s : State) (h : Open) (ws : List Word) : State :=
  { s with hputs := s.hputs ++ [(1000000 * ws.length, if s.pressed h.sid then some (s.f (F.SE_REP_ENG h.sid)) else none)] }

/-- A record that fits enters the crossing FIFO with its words and joins the hod (R193). -/
theorem hputRec_of_fits {s : State} {h : Open} {ws : List Word} {r : Rec × Nat × Nat}
    (parsed : parseRec (s.grid (s.f (F.SE_CTL_GRID h.sid))).next h.cursor ws = r)
    (fits : recWords h.recs + r.1.words.length ≤ s.hodLimit h.sid) (m k : Nat) :
    hputRec m k h ws s = stDone m .ok ((s.crossing h ws).recAdded m k h r.1 r.2.1 r.2.2) := by
  subst parsed
  exact appendRec_of_fits (s := s.crossing h ws) fits m k _ _

/-- Settles O18: each clause is the branch of the instruction that all its checks leave. -/
theorem hodInstructions : Obligations.HodInstructions := by
  intro s m ga gb gc gd h k x done a b c ws fits added rec_ mark_ gap_
  refine ⟨fun hi acquire sid valid active written mine unopened slot => ?hopen,
    fun hi listed some_ short aligned inside open_ good counted typed room fit space => ?hput,
    fun hi listed some_ short aligned inside open_ good counted typed room full => ?stall, fun hi listed open_ => ?hclose,
    fun hi group pair pair' listed open_ fit => ?mark, fun hi pair listed some_ open_ fit => ?gap⟩
  case hopen =>
    change execHopen m gd ga gb s = _
    rw [execHopen]
    exact isa_of_stDone hi (by simp [x, a, b, acquire, valid, active, written, mine, unopened, slot, Nat.not_le.mpr sid])
  case hput =>
    rw [exec_hput_of_checked hi rfl rfl rfl listed some_ short aligned inside open_ good counted typed room, space,
      if_neg Bool.false_ne_true]
    exact congrArg (fun y => Host.Outcome.next (s.turn m y)) (hputRec_of_fits rfl fit m a)
  case stall =>
    rw [exec_hput_of_checked hi rfl rfl rfl listed some_ short aligned inside open_ good counted typed room, State.hputFull, decide_eq_true full]
    rfl
  case hclose =>
    change execHclose m ga s = _
    exact isa_of_stDone hi (if_neg (by simp [x, a, open_, listed]))
  case mark =>
    change execMark m ga gb gc gd s = _
    rw [execMark]
    exact isa_of_stDone hi (by
      simp only [group, pair, pair', if_neg (Nat.not_lt.mpr listed), x, b, open_]
      exact appendRec_of_fits fit m b 0 0)
  case gap =>
    change execGap m ga gb gc s = _
    rw [execGap]
    exact isa_of_stDone hi (by
      simp only [pair, if_neg (Nat.not_lt.mpr listed), if_neg some_, x, a, c, open_]
      exact appendRec_of_fits fit m a 0 0)

/-! ### Pallet queues -/

theorem State.pqPop_of_words {s : State} {q : Nat} {w : Word} {ws : List Word} (words : (s.pq q).words = w :: ws) :
    s.pqPop q = (s.setPq q { s.pq q with words := ws, last := w }, w, true) := by
  simp only [State.pqPop, words]

theorem State.pqPop_of_empty {s : State} {q : Nat} (words : (s.pq q).words = []) : s.pqPop q = (s.pqFlag q 4, (s.pq q).last, false) := by
  simp only [State.pqPop, words]

theorem State.pqClose_of_item {s : State} {q tag : Nat} {ws : List Word} (item : (s.pq q).item = some (tag, ws)) :
    s.pqClose q =
      (s.setPq q { s.pq q with words := (s.pq q).words ++ BitVec.ofNat 32 (tag * 65536 + ws.length) :: ws, item := none }, .ok) := by
  simp only [State.pqClose, item]

theorem State.pqClose_of_none {s : State} {q : Nat} (item : (s.pq q).item = none) :
    s.pqClose q =
      if (s.pq q).orphan then ((s.setPq q { s.pq q with orphan := false }).pqFlag q 6, .ok) else (s.pqFlag q 7, .busy) := by
  simp only [State.pqClose, item]

section

variable {s : State} {m : Fin 16} {w : Word} {ga : Fin 32} {f : State → Mason → Nat → Turn} (h : s.issues m w)
include h

theorem pqIsa_of_beyond (beyond : 63 < ((s.mason m).get ga).toNat) :
    pqIsa m w ga f s = .next ((s.setMason m ((s.mason m).status .addr)).retire m ((s.mason m).pc + 4)) :=
  isa_of_stDone h (if_pos beyond)

variable (listed : ((s.mason m).get ga).toNat ≤ 63)
include listed

theorem pqIsa_of_stDone {c : Status} {t : State} (ends : f s (s.mason m) ((s.mason m).get ga).toNat = stDone m c t) :
    pqIsa m w ga f s = .next ((t.setMason m ((t.mason m).status c)).retire m ((s.mason m).pc + 4)) :=
  isa_of_stDone h ((if_neg (Nat.not_lt.mpr listed)).trans ends)

theorem pqIsa_of_stall (ends : f s (s.mason m) ((s.mason m).get ga).toNat = .stall) :
    pqIsa m w ga f s = .next (s.setF (F.MC_STAT_STALLED m) 1) :=
  isa_of_stall h ((if_neg (Nat.not_lt.mpr listed)).trans ends)

end

/-- Settles O19: each clause is the queue's operation in one of its cases. -/
theorem palletInstructions : Obligations.PalletInstructions := by
  intro s m gd ga gb w ws tag it x done q y
  refine ⟨fun h listed words => ?get, fun h listed free => ?put, fun h listed full => ?putFull, fun h listed free => ?putn,
    fun h listed full => ?putnFull, fun h listed item free => ?open_, fun h listed item => ?close, fun h listed => ?flush, fun h listed => ?cnt,
    fun h listed words => ?getEmpty, fun h listed item => ?openItem, fun h listed item full => ?openFull, fun h listed item orphan => ?closeNone,
    fun h listed item orphan => ?closeOrphan, fun h beyond => ?getBeyond, fun h beyond => ?putBeyond,
    fun h beyond => ?putnBeyond, fun h beyond => ?openBeyond, fun h beyond => ?closeBeyond, fun h beyond => ?flushBeyond,
    fun h beyond => ?cntBeyond⟩
  case get =>
    change execPqget m gd ga s = _
    exact pqIsa_of_stDone h listed (by rw [State.pqPop_of_words words]; rfl)
  case put =>
    change execPqput m ga gb s = _
    exact pqIsa_of_stDone h listed (if_neg (Bool.eq_false_iff.mp free))
  case putFull =>
    change execPqput m ga gb s = _
    exact pqIsa_of_stall h listed (if_pos full)
  case putn =>
    change execPqputn m ga gb s = _
    exact pqIsa_of_stDone h listed (if_neg (Bool.eq_false_iff.mp free))
  case putnFull =>
    change execPqputn m ga gb s = _
    exact pqIsa_of_stDone h listed (if_pos full)
  case open_ =>
    change execPqopen m ga gb s = _
    exact pqIsa_of_stDone h listed (by simp only [y, q, x, item, free]; rfl)
  case close =>
    change execPqclose m ga s = _
    exact pqIsa_of_stDone h listed (by rw [State.pqClose_of_item item])
  case flush =>
    change execPqflush m ga s = _
    exact pqIsa_of_stDone h listed rfl
  case cnt =>
    change execPqcnt m gd ga s = _
    exact pqIsa_of_stDone h listed rfl
  case getEmpty =>
    change execPqget m gd ga s = _
    exact pqIsa_of_stDone h listed (by rw [State.pqPop_of_empty words]; rfl)
  case openItem =>
    change execPqopen m ga gb s = _
    exact pqIsa_of_stDone h listed (if_pos (Option.isSome_iff_ne_none.mpr item))
  case openFull =>
    change execPqopen m ga gb s = _
    exact pqIsa_of_stall h listed (by simp only [y, q, x, item, full]; rfl)
  case closeNone =>
    change execPqclose m ga s = _
    exact pqIsa_of_stDone h listed (by rw [State.pqClose_of_none item, if_neg (Bool.eq_false_iff.mp orphan)]; rfl)
  case closeOrphan =>
    change execPqclose m ga s = _
    exact pqIsa_of_stDone h listed (by rw [State.pqClose_of_none item, if_pos orphan]; rfl)
  case getBeyond => change execPqget m gd ga s = _; exact pqIsa_of_beyond h beyond
  case putBeyond => change execPqput m ga gb s = _; exact pqIsa_of_beyond h beyond
  case putnBeyond => change execPqputn m ga gb s = _; exact pqIsa_of_beyond h beyond
  case openBeyond => change execPqopen m ga gb s = _; exact pqIsa_of_beyond h beyond
  case closeBeyond => change execPqclose m ga s = _; exact pqIsa_of_beyond h beyond
  case flushBeyond => change execPqflush m ga s = _; exact pqIsa_of_beyond h beyond
  case cntBeyond => change execPqcnt m gd ga s = _; exact pqIsa_of_beyond h beyond

end Sys2Proof.Machine
end

section
/-!
PROOFS. The SYS instructions of a mason (R198 to R201, R224, R246, R247), and the forms that are no instructions (R229, R248).
-/

namespace Sys2Proof.Machine

/-- An instruction that changes the mason alone retires with it as it leaves it (R222). -/
theorem isaReg_of_issues {s : State} {m : Fin 16} {w : Word} (h : s.issues m w) (f : Mason → Mason) :
    isaReg m w f s = .next (s.retiredAs m (f (s.mason m))) :=
  isa_of_issues h _

/-- An evt waits where the mason's last lies less than 1 µs back (R198). -/
def State.evtSoon (s : State) (x : Mason) : Bool :=
  match x.evtAt with
  | some t => decide (s.cyc < t + 1000 * nsU)
  | none => false

theorem State.evtSoon_of_passed {s : State} {x : Mason} (passed : ∀ t, x.evtAt = some t → t + 1000 * 65536 ≤ s.cyc) : s.evtSoon x = false := by
  cases at_ : x.evtAt with
  | none => simp only [State.evtSoon, at_]
  | some t =>
    simp only [State.evtSoon, at_]
    exact decide_eq_false (Nat.not_lt.mpr (passed t at_))

section

variable {s : State} {m : Fin 16} {ga : Fin 32} {code : Fin 128} (h : s.issues m (encSYS 1 0 ga code))
include h

theorem exec_evt :
    exec (.evt m ga code) s = .next (s.turn m (if s.evtSoon (s.mason m) then .stall
      else .next ((s.setMason m { s.mason m with evtAt := some s.cyc }).raise (0x0C80 + code) m ((s.mason m).get ga).toNat))) := by
  change execEvt m ga code s = _
  rw [execEvt, isa_of_issues h]
  rfl

end

theorem State.special_eq_none {n : Nat} (beyond : 5 < n) (s : State) (m : Nat) : s.special m n = none := by
  obtain ⟨j, rfl⟩ := Nat.exists_eq_add_of_le' beyond
  rfl

/-- Settles O20: each clause is one branch of the instruction. -/
theorem systemInstructions : Obligations.SystemInstructions := by
  intro s m gd ga src code n v x a goes expiry
  refine ⟨fun h legal true_ => ?wait, fun h legal false_ => ?gate, fun h passed => ?evt, fun t h last soon => ?evtStall,
    fun h epc scratch => ?sprwIllegal, fun h held => ?rft, fun h => ?mff, fun h => ?mtf, fun h special => ?sprd, fun h => ?sprwEpc,
    fun h => ?sprwScratch⟩
  case wait =>
    change execWait m gd ga src s = _
    rw [execWait]
    exact isa_of_next h (by simp only [legal]; exact if_pos true_)
  case gate =>
    change execWait m gd ga src s = _
    rw [execWait]
    exact isa_of_gate h (by simp only [legal]; exact if_neg (not_not_intro false_))
  case evt => rw [exec_evt h, State.evtSoon_of_passed passed]; rfl
  case evtStall =>
    have soon' : s.evtSoon (s.mason m) = true := by simp only [State.evtSoon, last, x]; exact decide_eq_true soon
    rw [exec_evt h, soon']
    rfl
  case sprwIllegal =>
    change execSprw m ga n s = _
    rw [execSprw]
    exact isa_of_illegal h ((if_neg epc).trans (if_neg scratch))
  case rft =>
    change execRft m s = _
    rw [execRft]
    exact isa_of_goto h (if_pos held)
  case mff => change execMff m gd s = _; exact isaReg_of_issues h _
  case mtf => change execMtf m ga s = _; exact isaReg_of_issues h _
  case sprd =>
    change execSprd m gd n s = _
    rw [execSprd]
    exact isa_of_next h (by simp only [special]; rfl)
  case sprwEpc => change execSprw m ga 1 s = _; rw [execSprw]; exact isa_of_next h rfl
  case sprwScratch => change execSprw m ga 4 s = _; rw [execSprw]; exact isa_of_next h rfl

/-- Settles O22: the check of its registers is the first of each instruction. -/
theorem illegalFormsTrap : Obligations.IllegalFormsTrap := by
  intro s m gd ga gb gc vd src n illegal_
  refine ⟨fun h bad => ?course, fun h bad => ?courseW, fun h bad => ?tget, fun h bad => ?tgetc, fun h bad => ?mark, fun h bad => ?gap,
    fun h bad => ?wait, fun h outside => ?rft, fun h beyond => ?sprd⟩
  case course => change execCourse m gd vd s = _; rw [execCourse]; exact isa_of_illegal h (by simp only [bad]; rfl)
  case courseW => change execCourseW m gd vd s = _; rw [execCourseW]; exact isa_of_illegal h (by simp only [bad]; rfl)
  case tget => change execTget m gd s = _; rw [execTget]; exact isa_of_illegal h (by simp only [bad]; rfl)
  case tgetc => change execTgetc m gd ga s = _; rw [execTgetc]; exact isa_of_illegal h (by simp only [bad]; rfl)
  case mark => change execMark m ga gb gc gd s = _; rw [execMark]; exact isa_of_illegal h (by simp only [bad]; rfl)
  case gap => change execGap m ga gb gc s = _; rw [execGap]; exact isa_of_illegal h (by simp only [bad]; rfl)
  case wait => change execWait m gd ga src s = _; rw [execWait]; exact isa_of_illegal h (by simp only [bad]; rfl)
  case rft => change execRft m s = _; rw [execRft]; exact isa_of_illegal h (if_neg (Bool.eq_false_iff.mp outside))
  case sprd => change execSprd m gd n s = _; rw [execSprd]; exact isa_of_illegal h (by simp only [State.special_eq_none beyond])

end Sys2Proof.Machine
end

section
/-!
PROOFS. The control of a mason, its memories, vectors and doorbell, its wake and the trap of its fetch (R184, R186, R187, R199, R200, R407), and the
pallet queues as the host reaches them (R213 to R217).
-/

namespace Sys2Proof.Machine

/-! ### MC_CTL -/

section

variable {s : State} {m : Nat} {v : Word}

theorem State.mcCtl_of_go (go : wbit v 0 = true) (halt : wbit v 1 = false) (stop : wbit v 2 = false) :
    s.mcCtl m v = (s.masonStart m).1.fin (s.masonStart m).2 := by
  rw [State.mcCtl, go, halt, stop]; rfl

theorem State.mcCtl_of_halt (go : wbit v 0 = false) (halt : wbit v 1 = true) (stop : wbit v 2 = false) (on : s.masonOn m = true) :
    s.mcCtl m v = (s.setMason m { s.mason m with haltReq := true }).fin .ok := by
  simp only [State.mcCtl, go, halt, stop, on, Bool.false_eq_true, if_false, Bool.and_self, if_true]

theorem State.mcCtl_of_stop (go : wbit v 0 = false) (halt : wbit v 1 = false) (stop : wbit v 2 = true) :
    s.mcCtl m v = (s.masonReset m).fin .ok := by
  rw [State.mcCtl, go, halt, stop]; rfl

theorem State.masonStart_of_reset (live : s.live = true) (reset : s.f (F.MC_STAT_STATE m) = 0) : s.masonStart m = (s.masonGo m, .ok) := by
  simp only [State.masonStart, live, reset]
  rfl

theorem State.masonStart_of_halted (live : s.live = true) (halted : s.f (F.MC_STAT_STATE m) = 3) :
    s.masonStart m = (s.setF (F.MC_STAT_STATE m) 1, .ok) := by
  simp only [State.masonStart, live, halted]
  rfl

theorem State.masonStart_of_other (live : s.live = true) (other : s.f (F.MC_STAT_STATE m) ≠ 0) (other' : s.f (F.MC_STAT_STATE m) ≠ 3) :
    s.masonStart m = (s, .busy) := by
  simp only [State.masonStart, live, if_neg other, if_neg other']
  rfl

theorem State.masonStart_of_dead (dead : s.live = false) : s.masonStart m = (s, .mode) := by
  rw [State.masonStart, dead]; rfl

end

section

variable {s : State} {r : Req} {m : Fin 16} {v : Word} (h : s.takes r (R.MC_CTL m))
include h

theorem exec_mcGo (halt : wbit v 1 = false) (stop : wbit v 2 = false) :
    exec (.mcGo r m v) s = .next ((s.masonStart m).1.fin (s.masonStart m).2) :=
  (act_regWrite_of_takes h fun s => s.mcCtl m (v ||| 1)).trans
    (congrArg _ (State.mcCtl_of_go (wbit_or_of_set rfl) ((wbit_or_of_clear rfl).trans halt) ((wbit_or_of_clear rfl).trans stop)))

theorem exec_mcHalt (go : wbit v 0 = false) (stop : wbit v 2 = false) (on : s.masonOn m = true) :
    exec (.mcHalt r m v) s = .next ((s.setMason m { s.mason m with haltReq := true }).fin .ok) :=
  (act_regWrite_of_takes h fun s => s.mcCtl m (v ||| 2)).trans
    (congrArg _ (State.mcCtl_of_halt ((wbit_or_of_clear rfl).trans go) (wbit_or_of_set rfl) ((wbit_or_of_clear rfl).trans stop) on))

theorem exec_mcStop (go : wbit v 0 = false) (halt : wbit v 1 = false) :
    exec (.mcStop r m v) s = .next ((s.masonReset m).fin .ok) :=
  (act_regWrite_of_takes h fun s => s.mcCtl m (v ||| 4)).trans
    (congrArg _ (State.mcCtl_of_stop ((wbit_or_of_clear rfl).trans go) ((wbit_or_of_clear rfl).trans halt) (wbit_or_of_set rfl)))

end

section

variable {s : State} {m : Fin 16} (alive : s.alive = true)
include alive

theorem exec_masonHalted_of_on (on : s.masonOn m = true) (asked : (s.mason m).haltReq = true) :
    exec (.masonHalted m) s = .next (s.masonHalt m) :=
  (act_alive _ _ alive).trans (congrArg _ (if_pos (by rw [on, asked]; rfl)))

theorem exec_masonHalted_of_unasked (unasked : (s.mason m).haltReq = false) : exec (.masonHalted m) s = .next s :=
  (act_alive _ _ alive).trans (congrArg _ (if_neg (by rw [unasked, Bool.and_false]; exact Bool.false_ne_true)))

end

/-! ### Memories and vectors -/

section

variable {s : State} {r : Req} {m : Fin 16} {t : MemTarget} {v : Word}

section

variable (h : s.takes r (memAddr m t)) (free : s.memLocked m t = false)
include h free

/-- A word of a memory is written while its mason does not run (R187). -/
theorem exec_masonMemWrite_of_memory (memory : (∃ i, t = .imem i) ∨ ∃ j, t = .dmem j) :
    exec (.masonMemWrite r m t v) s = .next (if s.masonOn m then s.fin .busy else (s.memStore (memAddr m t) v).fin .ok) := by
  obtain ⟨alive, map, test⟩ := h
  change execMasonMemWrite r m t v s = _
  rw [execMasonMemWrite, act_alive _ _ alive, State.memWrite, free, Bool.false_and, if_neg Bool.false_ne_true,
    regWrite_eff _ _ noLock _ _ rfl map test]
  obtain ⟨i, rfl⟩ | ⟨j, rfl⟩ := memory <;> rfl

/-- A vector is a multiple of 4, and is written while its mason does not run (R187). -/
theorem exec_masonMemWrite_of_vector (vector : t = .entry ∨ t = .tvec) :
    exec (.masonMemWrite r m t v) s = .next
      (if v.toNat % 4 ≠ 0 then s.fin .unsupported
      else if s.masonOn m then s.fin .busy
      else (s.setW (memAddr m t) (BitVec.ofNat 32 (v.toNat % 65536))).fin .ok) := by
  obtain ⟨alive, map, test⟩ := h
  change execMasonMemWrite r m t v s = _
  rw [execMasonMemWrite, act_alive _ _ alive, State.memWrite, free, Bool.false_and, if_neg Bool.false_ne_true,
    regWrite_eff _ _ noLock _ _ rfl map test]
  obtain rfl | rfl := vector <;> rfl

end

/-- The cornerstone's lock comes before everything else (R407). -/
theorem exec_masonMemWrite_of_locked (alive : s.alive = true) (acc : accOf r (memAddr m t) = .rw) (locked : s.memLocked m t = true) :
    exec (.masonMemWrite r m t v) s = .next ((s.csRefuse 0 .locked).fin .locked) := by
  change execMasonMemWrite r m t v s = _
  rw [execMasonMemWrite, act_alive _ _ alive, State.memWrite, locked, acc]
  rfl

/-- The cornerstone locks no word of a data memory (R407). -/
theorem State.memLocked_dmem (s : State) (m : Nat) (j : Fin 32768) : s.memLocked m (.dmem j) = false := Bool.and_false _

end

/-! ### Doorbell, wake and the trap of a fetch -/

section

variable {s : State} {m : Fin 16} (alive : s.alive = true)
include alive

section

variable {src expiry gd : Nat} (waits : (s.mason m).wait = some (src, expiry, gd))
include waits

theorem exec_masonWake :
    exec (.masonWake m) s = .next
      (if s.f (F.MC_STAT_STATE m) = 2 ∧ !(s.mason m).haltReq ∧ s.wakeBits m src expiry ≠ 0 then
        ((s.endWait m src expiry gd).setF (F.MC_STAT_STATE m) 1).retire m ((s.mason m).pc + 4)
      else s) := by
  change execMasonWake m s = _
  rw [execMasonWake, act_alive _ _ alive]
  simp only [waits]

end

theorem exec_trapTaken (runs : s.f (F.MC_STAT_STATE m) = 1) (goes : (s.mason m).haltReq = false) {c tv : Nat}
    (bad : s.fetchTrap m = some (c, tv)) : exec (.trapTaken m) s = .next (s.trap m c tv) := by
  change execTrapTaken m s = _
  rw [execTrapTaken, act_alive _ _ alive, if_neg (by simp [runs, goes]), bad]

theorem exec_trapTaken_of_good (good : s.fetchTrap m = none) : exec (.trapTaken m) s = .next s := by
  change execTrapTaken m s = _
  rw [execTrapTaken, act_alive _ _ alive, good, ite_self]

end

/-! ### Pallet queues -/

section

variable {s : State} {r : Req} {q : Fin 64} {v : Word}

theorem exec_pqPush (h : s.takes r (R.PQ_PUSH q)) :
    exec (.pqPush r q v) s = .next (if (s.pq q).full then (s.pqFlag q 5).fin .ok else (s.setPq q ((s.pq q).push v)).fin .ok) :=
  act_regWrite_of_takes h _

theorem exec_pqPop (alive : s.alive = true) (map : s.mapStop r (R.PQ_POP q) false = none) (test : s.underTest (R.PQ_POP q) = false) :
    exec (.pqPop r q) s = .next ((s.pqPop q).1.finData [(s.pqPop q).2.1]) := by
  change execPqPop r q s = _
  rw [execPqPop, act_alive _ _ alive]
  simp only [map, test]
  rfl

theorem State.pqCtl_of_flush {s : State} {k : Nat} (flush : wbit v 0 = true) (open_ : wbit v 1 = false) (close : wbit v 2 = false) :
    s.pqCtl k v = (s.setPq k (s.pq k).flush).fin .ok := by
  rw [State.pqCtl, flush, open_, close]; rfl

theorem State.pqCtl_of_open {s : State} {k : Nat} (flush : wbit v 0 = false) (open_ : wbit v 1 = true) (close : wbit v 2 = false) :
    s.pqCtl k v = (s.pqOpen k (bits v.toNat 31 16)).fin .ok := by
  rw [State.pqCtl, flush, open_, close]; rfl

theorem State.pqCtl_of_close {s : State} {k : Nat} (flush : wbit v 0 = false) (open_ : wbit v 1 = false) (close : wbit v 2 = true) :
    s.pqCtl k v = (s.pqClose k).1.fin .ok := by
  rw [State.pqCtl, flush, open_, close]; rfl

variable (h : s.takes r (R.PQ_CTL q))
include h

theorem exec_pqFlush (open_ : wbit v 1 = false) (close : wbit v 2 = false) :
    exec (.pqFlush r q v) s = .next ((s.setPq q (s.pq q).flush).fin .ok) :=
  (act_regWrite_of_takes h fun s => s.pqCtl q (v ||| 1)).trans
    (congrArg _ (State.pqCtl_of_flush (wbit_or_of_set rfl) ((wbit_or_of_clear rfl).trans open_) ((wbit_or_of_clear rfl).trans close)))

theorem exec_pqOpen (flush : wbit v 0 = false) (close : wbit v 2 = false) :
    exec (.pqOpen r q v) s = .next ((s.pqOpen q (bits v.toNat 31 16)).fin .ok) := by
  refine (act_regWrite_of_takes h fun s => s.pqCtl q (v ||| 2)).trans (congrArg _ ?_)
  rw [State.pqCtl_of_open ((wbit_or_of_clear rfl).trans flush) (wbit_or_of_set rfl) ((wbit_or_of_clear rfl).trans close), bits_or_of_clear rfl]

theorem exec_pqClose (flush : wbit v 0 = false) (open_ : wbit v 1 = false) :
    exec (.pqClose r q v) s = .next ((s.pqClose q).1.fin .ok) :=
  (act_regWrite_of_takes h fun s => s.pqCtl q (v ||| 4)).trans
    (congrArg _ (State.pqCtl_of_close ((wbit_or_of_clear rfl).trans flush) ((wbit_or_of_clear rfl).trans open_) (wbit_or_of_set rfl)))

end

/-- Settles O50: each write is its register's effect, and each clause one branch of that effect. -/
theorem masonControlMemoryAndPallet : Obligations.MasonControlMemoryAndPallet := by
  intro s r m v i j mt src expiry c gd tv q x y st
  refine ⟨fun tk halt stop live reset => ?goReset, fun tk halt stop live halted => ?goHalted, fun tk halt stop live other other' => ?goBusy,
    fun tk halt stop dead => ?goDead, exec_mcHalt, exec_mcStop, exec_masonHalted_of_on, exec_masonHalted_of_unasked,
    fun tk free off => ?imem, fun tk free on => ?imemBusy, fun tk off => ?dmem, fun tk on => ?dmemBusy,
    fun vector tk free misaligned => ?vectorMisaligned, fun vector tk free aligned on => ?vectorBusy, fun vector tk free aligned off => ?vector,
    exec_masonMemWrite_of_locked, fun tk => act_regWrite_of_takes tk _, fun alive waits gated goes true_ => ?wake, fun alive waits false_ => ?sleep,
    fun alive runs goes bad => exec_trapTaken alive runs goes bad, fun alive _ good => exec_trapTaken_of_good alive good,
    fun tk free => ?push, fun tk full => ?pushFull, exec_pqPop, exec_pqFlush, exec_pqOpen, exec_pqClose⟩
  case goReset => rw [exec_mcGo tk halt stop, State.masonStart_of_reset live reset]
  case goHalted => rw [exec_mcGo tk halt stop, State.masonStart_of_halted live halted]
  case goBusy => rw [exec_mcGo tk halt stop, State.masonStart_of_other live other other']
  case goDead => rw [exec_mcGo tk halt stop, State.masonStart_of_dead dead]
  case imem => rw [exec_masonMemWrite_of_memory tk free (.inl ⟨i, rfl⟩), if_neg (Bool.eq_false_iff.mp off)]
  case imemBusy => rw [exec_masonMemWrite_of_memory tk free (.inl ⟨i, rfl⟩), if_pos on]
  case dmem => rw [exec_masonMemWrite_of_memory tk (s.memLocked_dmem m j) (.inr ⟨j, rfl⟩), if_neg (Bool.eq_false_iff.mp off)]
  case dmemBusy => rw [exec_masonMemWrite_of_memory tk (s.memLocked_dmem m j) (.inr ⟨j, rfl⟩), if_pos on]
  case vectorMisaligned => rw [exec_masonMemWrite_of_vector tk free vector, if_pos misaligned]
  case vectorBusy => rw [exec_masonMemWrite_of_vector tk free vector, if_neg (not_not_intro aligned), if_pos on]
  case vector =>
    rw [exec_masonMemWrite_of_vector tk free vector, if_neg (not_not_intro aligned), if_neg (Bool.eq_false_iff.mp off)]
  case wake =>
    have unasked : (!(s.mason m).haltReq) = true := by rw [goes]; rfl
    rw [exec_masonWake alive waits, if_pos ⟨gated, unasked, true_⟩]
  case sleep => rw [exec_masonWake alive waits, if_neg fun ⟨_, _, true_⟩ => true_ false_]
  case push => rw [exec_pqPush tk, if_neg (Bool.eq_false_iff.mp free)]
  case pushFull => rw [exec_pqPush tk, if_pos full]

end Sys2Proof.Machine
end

section
/-!
PROOFS. The load session of PROGRAM hods: BEGIN, DATA, COMMIT and ABORT, and the turns that requests take (R207 to R209, R221, R348, R351, R354 to
R358).
-/

namespace Sys2Proof.Machine

/-! ### What an image's installation leaves unchanged -/

theorem State.each_nv {α : Type} {s : State} {f : State → α → State} (xs : List α) (h : ∀ t x, (f t x).nv = t.nv) : (s.each xs f).nv = s.nv := by
  induction xs generalizing s with
  | nil => rfl
  | cons x xs ih => exact ih.trans (h s x)

theorem State.setBytes_nv (s : State) (a : Nat) (l : List Byte) : (s.setBytes a l).nv = s.nv := by
  induction l generalizing s a with
  | nil => rfl
  | cons b l ih => exact ih _ _

theorem State.memStore_nv (s : State) (a : Nat) (v : Word) : (s.memStore a v).nv = s.nv := s.setBytes_nv a _

theorem State.memStores_nv (s : State) (a : Nat) (l : List Word) : (s.memStores a l).nv = s.nv := by
  induction l generalizing s a with
  | nil => rfl
  | cons v l ih => exact (ih _ _).trans (s.memStore_nv a v)

theorem State.fillMason_nv (s : State) (x : Image) (m : Nat) : (s.fillMason x m).nv = s.nv := by
  refine (State.each_nv x.sects fun t c => ?_).trans rfl
  split
  · exact t.memStores_nv ..
  · exact t.memStores_nv ..
  · rfl

/-- An image written to each of its masons (R208). -/
def State.imagePlaced (s : State) (x : Image) : State := s.each x.targets fun t m => t.fillMason x m

theorem State.imagePlaced_nv (s : State) (x : Image) : (s.imagePlaced x).nv = s.nv := State.each_nv _ fun t m => t.fillMason_nv x m

/-- Where the MRAM's batch is as it was, none has begun. -/
theorem State.began_of_nv {s t : State} (same : t.nv = s.nv) : s.began t = false := by
  rw [State.began, same]
  cases s.nv <;> rfl

/-! ### The steps of R208 -/

section

variable {s : State} {x : Image} {vh : Nat}

theorem State.install_of_plain (legal : x.legal = false) (held : x.targets.any s.holdsLegal = false) (entries : x.entries = []) :
    s.install x none vh = (s.imagePlaced x, none) := by
  simp only [State.install, legal, held, State.place, entries]
  rfl

theorem State.commitImage_of_plain {bs : List Byte} (image : readImage bs = .ok x) (live : s.live = true)
    (untested : (x.targets.any fun m => s.kilnTest == some (3, m)) = false)
    (stopped : (x.targets.any fun m => s.f (F.MC_STAT_STATE m) != 0) = false) (legal : x.legal = false)
    (held : x.targets.any s.holdsLegal = false) (entries : x.entries = []) :
    s.commitImage bs vh = (s.imagePlaced x, x.source, none) := by
  simp only [State.commitImage, image, live, untested, stopped, State.install_of_plain legal held entries]
  rfl

end

/-- The staged words of a session, in order (R207). -/
def Prog.staged (x : Prog) : List Word := (range' 0 (ceilDiv x.len 4)).map fun k => (x.word k).getD 0

theorem State.commitSteps_of_none {s : State} (none_ : s.prog = none) (vh : Nat) : s.commitSteps vh = (s, 0, some (.unsupported, 1)) := by
  simp only [State.commitSteps, none_]

section

variable {s : State} {x : Prog} (open_ : s.prog = some x)
  (complete : ((range' 0 (ceilDiv x.len 4)).any fun k => (x.word k).isNone) = false) (vh : Nat)
include open_ complete

theorem State.commitSteps_of_bytes (raw : x.comp = false) : s.commitSteps vh = s.commitImage ((wordsToBytes x.staged).take x.len) vh := by
  simp only [State.commitSteps, open_, complete, raw]
  rfl

theorem State.commitSteps_of_tested (comp : x.comp = true) (test : s.kilnTest = some (5, 0)) :
    s.commitSteps vh = (s, 0, some (.busyTest, 3)) := by
  simp only [State.commitSteps, open_, complete, comp, test]
  rfl

variable (comp : x.comp = true) (untested : s.kilnTest ≠ some (5, 0)) {t : State}
include comp untested

theorem State.commitSteps_of_expanded {bs : List Byte} (expands : s.pxJobEnd.expandStage x.staged = (t, .ok bs)) :
    s.commitSteps vh = t.commitImage bs vh := by
  rw [Prog.staged] at expands
  simp only [State.commitSteps, open_, complete, comp, beq_false_of_ne untested, expands]
  rfl

theorem State.commitSteps_of_unexpanded {c : Status} (expands : s.pxJobEnd.expandStage x.staged = (t, .error c)) :
    s.commitSteps vh = (t, 0, some (c, 3)) := by
  rw [Prog.staged] at expands
  simp only [State.commitSteps, open_, complete, comp, beq_false_of_ne untested, expands]
  rfl

end

/-! ### The turn of a request -/

/-- A PROGRAM hod that arrives where none waits, and whose effect leaves the hub in state `z`, while it is outstanding (R356 to R358). -/
def State.programmed (s : State) (p op tag : Nat) (z : State) : State :=
  (s.pushReq p ⟨8, op, tag, false⟩).runReq p ⟨8, op, tag, false⟩ (fun _ => z) fun t => t.answer p op tag

@[simp] theorem State.pushReq_prog (s : State) (p : Nat) (r : Reqd) : (s.pushReq p r).prog = s.prog := rfl

theorem Reqd.same_eq_true {r z : Reqd} (typ : z.typ = r.typ) (op : z.op = r.op) (tag : z.tag = r.tag) : r.same z = true := by
  simp [Reqd.same, typ, op, tag]

theorem Reqd.same_eq_false {r z : Reqd} (other : ¬(z.typ = r.typ ∧ z.op = r.op ∧ z.tag = r.tag)) : r.same z = false := by
  simpa [Reqd.same, and_assoc] using other

/-- A request that begins no MRAM batch and is the oldest of its port leaves its place, and is answered (R348, R358). -/
theorem State.runReq_of_done {s z : State} {p : Nat} {r q : Reqd} {qs : List Reqd} {eff fin_ : State → State} (ends : eff s = z)
    (done : s.began z = false) (oldest : (z.port p).reqs = q :: qs) (same : r.same q = true) :
    s.runReq p r eff fin_ = (fin_ (z.popReq p)).serve p := by
  simp only [State.runReq, ends, done, oldest, same]
  rfl

section

variable {s : State} {typ p op tag : Nat} {eff : State → State} (run : s.mode ≠ 0) (run' : s.mode ≠ 4)
include run run'

theorem request_of_unanswered (outstanding : s.tagsOut.contains tag = true) (up : s.role p ≠ 2)
    (new : (s.port p).reqs.any (Reqd.same ⟨typ, op, tag, false⟩) = false) :
    request typ p op tag eff s = (s.fin .tag).answer p op tag := by
  rw [request, if_neg (not_or.mpr ⟨run, run'⟩), outstanding, new, decide_eq_true up]
  rfl

/-- A request that is no second use of an unanswered TAG has its turn (R357, R358). -/
theorem request_of_inTurn
    (h : s.role p = 2 ∨ s.tagsOut.contains tag = false ∨ (s.port p).reqs.any (Reqd.same ⟨typ, op, tag, false⟩) = true) :
    request typ p op tag eff s = inTurn p ⟨typ, op, tag, false⟩ eff (fun t => t.answer p op tag) s := by
  rw [request, if_neg (not_or.mpr ⟨run, run'⟩)]
  refine if_neg ?_
  rcases h with down | fresh | waits
  · simp [down]
  · rw [fresh, Bool.and_false, Bool.false_and]; exact Bool.false_ne_true
  · simp [waits]

theorem request_of_fresh (fresh : s.tagsOut.contains tag = false) (empty : (s.port p).reqs = []) (up : s.role p ≠ 2) :
    request typ p op tag eff s =
      (s.pushReq p ⟨typ, op, tag, false⟩).runReq p ⟨typ, op, tag, false⟩ eff fun t => t.answer p op tag := by
  rw [request_of_inTurn run run' (.inr (.inl fresh)), inTurn, empty]
  exact if_neg up

theorem request_of_misdirected (empty : (s.port p).reqs = []) (down : s.role p = 2) : request typ p op tag eff s = s.misdirect p s.hid := by
  rw [request_of_inTurn run run' (.inl down), inTurn, empty]
  exact if_pos down

/-- A request behind another waits (R358). -/
theorem request_of_behind {q : Reqd} {qs : List Reqd} (fresh : s.tagsOut.contains tag = false) (up : s.role p ≠ 2)
    (reqs : (s.port p).reqs = q :: qs) (other : Reqd.same ⟨typ, op, tag, false⟩ q = false)
    (others : qs.any (Reqd.same ⟨typ, op, tag, false⟩) = false) :
    request typ p op tag eff s = s.pushReq p ⟨typ, op, tag, false⟩ := by
  rw [request_of_inTurn run run' (.inr (.inl fresh)), inTurn, reqs]
  simp only [other, others, if_neg up, Bool.false_eq_true, if_false]

/-- One that has arrived takes effect when it is the oldest of its port (R358). -/
theorem request_of_oldest {q : Reqd} {qs : List Reqd} (reqs : (s.port p).reqs = q :: qs) (mine : Reqd.same ⟨typ, op, tag, false⟩ q = true)
    (open_ : s.owed ≠ some p) :
    request typ p op tag eff s = s.runReq p ⟨typ, op, tag, false⟩ eff fun t => t.answer p op tag := by
  rw [request_of_inTurn run run' (.inr (.inr (by rw [reqs, List.any_cons, mine]; rfl))), inTurn, reqs]
  simp only [mine, if_neg open_, if_true]

end

/-! ### BEGIN, DATA, COMMIT and ABORT -/

section

variable {s : State} {p : Fin 16} {tag : BitVec 7} (alive : s.alive = true) (run : s.mode ≠ 0) (run' : s.mode ≠ 4)
include alive run run'

section

variable (fresh : s.tagsOut.contains tag.toNat = false) (empty : (s.port p).reqs = []) (up : s.role p ≠ 2)
include fresh empty up

/-- An operation on a port where no request waits is answered with what its effect makes of the hub (R356 to R358). -/
theorem act_request_of_fresh {op : Nat} {eff : State → State} {z : State} (ends : eff (s.pushReq p ⟨8, op, tag.toNat, false⟩) = z) :
    act (request 8 p op tag.toNat eff) s = .next (s.programmed p op tag.toNat z) := by
  subst ends
  rw [act_alive _ _ alive, request_of_fresh run run' fresh empty up]
  rfl

theorem exec_begin_of_idle {l c : Word} (reserved : bits c.toNat 30 0 = 0) (idle : s.prog = none) :
    exec (.begin p tag [l, c]) s = .next (s.programmed p 0 tag.toNat
      (if l.toNat = 0 ∨ 524288 < l.toNat then (s.pushReq p ⟨8, 0, tag.toNat, false⟩).fin .length
      else { s.pushReq p ⟨8, 0, tag.toNat, false⟩ with prog := some ⟨l.toNat, wbit c 31, []⟩ }.fin .ok)) := by
  change execBegin p tag [l, c] s = _
  rw [execBegin]
  refine act_request_of_fresh alive run run' fresh empty up ?_
  simp only [reserved, State.pushReq_prog, idle]
  rfl

theorem exec_begin_of_session {l c : Word} {x : Prog} (reserved : bits c.toNat 30 0 = 0) (open_ : s.prog = some x) :
    exec (.begin p tag [l, c]) s = .next (s.programmed p 0 tag.toNat ((s.pushReq p ⟨8, 0, tag.toNat, false⟩).fin .busy)) := by
  change execBegin p tag [l, c] s = _
  rw [execBegin]
  refine act_request_of_fresh alive run run' fresh empty up ?_
  simp only [reserved, State.pushReq_prog, open_]
  rfl

theorem exec_data_of_session {o d : Word} {ds : List Word} {x : Prog} (open_ : s.prog = some x) :
    exec (.data p tag (o :: d :: ds)) s = .next (s.programmed p 1 tag.toNat
      (if o.toNat % 4 ≠ 0 then (s.pushReq p ⟨8, 1, tag.toNat, false⟩).fin .addr
      else if 4 * ceilDiv x.len 4 < o.toNat + 4 * (ds.length + 1) then (s.pushReq p ⟨8, 1, tag.toNat, false⟩).fin .length
      else { s.pushReq p ⟨8, 1, tag.toNat, false⟩ with prog := some (x.stage (o.toNat / 4) (d :: ds)) }.fin .ok)) := by
  change execData p tag (o :: d :: ds) s = _
  rw [execData]
  refine act_request_of_fresh alive run run' fresh empty up ?_
  simp only [State.pushReq_prog, open_]

theorem exec_commit_of_failure {vh : BitVec 16} {t : State} {m k : Nat} {c : Status}
    (steps : (s.pushReq p ⟨8, 2, tag.toNat, false⟩).commitSteps vh.toNat = (t, m, some (c, k))) :
    exec (.commit p tag [] vh) s = .next (s.programmed p 2 tag.toNat ((t.raise 0x0C06 m (c.code * 2 ^ 32 + k)).fin c)) := by
  change execCommit p tag [] vh s = _
  rw [execCommit]
  refine act_request_of_fresh alive run run' fresh empty up ?_
  simp only [steps]
  rfl

theorem exec_commit_of_success {vh : BitVec 16} {t : State} {m : Nat}
    (steps : (s.pushReq p ⟨8, 2, tag.toNat, false⟩).commitSteps vh.toNat = (t, m, none))
    (saved : (s.pushReq p ⟨8, 2, tag.toNat, false⟩).began t = false) :
    exec (.commit p tag [] vh) s = .next (s.programmed p 2 tag.toNat (t.commitDone m)) := by
  change execCommit p tag [] vh s = _
  rw [execCommit]
  refine act_request_of_fresh alive run run' fresh empty up ?_
  simp only [steps, saved]
  rfl

theorem exec_abort_of_session {x : Prog} (open_ : s.prog = some x) :
    exec (.abort p tag []) s = .next (s.programmed p 3 tag.toNat ({ s.pushReq p ⟨8, 3, tag.toNat, false⟩ with prog := none }.fin .ok)) := by
  change execAbort p tag [] s = _
  rw [execAbort]
  refine act_request_of_fresh alive run run' fresh empty up ?_
  simp only [State.pushReq_prog, open_]
  rfl

theorem exec_abort_of_idle (idle : s.prog = none) :
    exec (.abort p tag []) s = .next (s.programmed p 3 tag.toNat ((s.pushReq p ⟨8, 3, tag.toNat, false⟩).fin .unsupported)) := by
  change execAbort p tag [] s = _
  rw [execAbort]
  refine act_request_of_fresh alive run run' fresh empty up ?_
  simp only [State.pushReq_prog, idle]
  rfl

end

/-- An ABORT that a hod has brought ends the session in its turn (R358). -/
theorem exec_abort_of_oldest {q : Reqd} {qs : List Reqd} {x : Prog} (reqs : (s.port p).reqs = q :: qs)
    (mine : Reqd.same ⟨8, 3, tag.toNat, false⟩ q = true) (unowed : s.owed ≠ some p.val) (open_ : s.prog = some x) :
    exec (.abort p tag []) s = .next (((({ s with prog := none }.fin .ok).popReq p).answer p 3 tag.toNat).serve p) := by
  change execAbort p tag [] s = _
  rw [execAbort, act_alive _ _ alive, request_of_oldest run run' reqs mine unowed]
  have unbegun : s.began ({ s with prog := none }.fin .ok) = false := State.began_of_nv rfl
  have oldest : (({ s with prog := none }.fin .ok).port p).reqs = q :: qs := reqs
  refine congrArg Host.Outcome.next (State.runReq_of_done (fin_ := fun t => t.answer p 3 tag.toNat) ?_ unbegun oldest mine)
  simp only [open_]
  rfl

end

/-- Settles O51: a request has its turn, and each clause is one branch of its effect or of the steps of R208. -/
theorem programHods : Obligations.ProgramHods := by
  intro s t p tag l c o d ds x y vh m k st h q qs bs free req at_ answers u idxs staged bytes idle plain placed done mine alive run run'
  refine ⟨fun ⟨fresh, empty, up⟩ reserved none_ some_ short => ?begin, fun ⟨fresh, empty, up⟩ reserved open_ => ?beginBusy,
    fun ⟨fresh, empty, up⟩ reserved none_ bad => ?beginLength, fun ⟨fresh, empty, up⟩ open_ aligned inside => ?data,
    fun ⟨fresh, empty, up⟩ open_ misaligned => ?dataAddr,
    fun ⟨fresh, empty, up⟩ open_ raw complete image live ⟨untested, stopped⟩ ⟨legal, held, entries⟩ => ?commit,
    fun ⟨fresh, empty, up⟩ open_ comp complete pxFree expands image live ⟨untested, stopped⟩ ⟨legal, held, entries⟩ saved => ?commitComp,
    fun ⟨fresh, empty, up⟩ open_ comp complete pxFree expands => ?commitUnexpanded,
    fun ⟨fresh, empty, up⟩ open_ comp complete test => ?commitTested,
    fun ⟨fresh, empty, up⟩ steps => exec_commit_of_failure alive run run' fresh empty up steps, fun ⟨fresh, empty, up⟩ none_ => ?commitIdle,
    fun ⟨fresh, empty, up⟩ open_ => exec_abort_of_session alive run run' fresh empty up open_,
    fun ⟨fresh, empty, up⟩ none_ => exec_abort_of_idle alive run run' fresh empty up none_,
    fun saved oldest => State.runReq_of_done rfl saved oldest (Reqd.same_eq_true rfl rfl rfl),
    fun reqs unowed open_ => exec_abort_of_oldest alive run run' reqs (Reqd.same_eq_true rfl rfl rfl) unowed open_,
    fun fresh up reqs other others => ?waits, fun outstanding up new => ?tag, fun empty down => ?misdirected⟩
  case begin =>
    rw [exec_begin_of_idle alive run run' fresh empty up reserved none_, if_neg (by omega)]
    rfl
  case beginBusy => exact exec_begin_of_session alive run run' fresh empty up reserved open_
  case beginLength =>
    rw [exec_begin_of_idle alive run run' fresh empty up reserved none_, if_pos bad]
    rfl
  case data =>
    rw [exec_data_of_session alive run run' fresh empty up open_, if_neg (not_not_intro aligned), if_neg (Nat.not_lt.mpr inside)]
    rfl
  case dataAddr =>
    rw [exec_data_of_session alive run run' fresh empty up open_, if_pos misaligned]
    rfl
  case commit =>
    have steps : u.commitSteps vh.toNat = (u.imagePlaced y, y.source, none) :=
      (State.commitSteps_of_bytes (s := u) open_ complete _ raw).trans (State.commitImage_of_plain image live untested stopped legal held entries)
    exact exec_commit_of_success alive run run' fresh empty up steps (State.began_of_nv (u.imagePlaced_nv y))
  case commitComp =>
    have steps : u.commitSteps vh.toNat = (t.imagePlaced y, y.source, none) :=
      (State.commitSteps_of_expanded (s := u) open_ complete _ comp pxFree expands).trans
        (State.commitImage_of_plain image live untested stopped legal held entries)
    exact exec_commit_of_success alive run run' fresh empty up steps saved
  case commitUnexpanded =>
    exact exec_commit_of_failure alive run run' fresh empty up (State.commitSteps_of_unexpanded (s := u) open_ complete _ comp pxFree expands)
  case commitTested => exact exec_commit_of_failure alive run run' fresh empty up (State.commitSteps_of_tested (s := u) open_ complete _ comp test)
  case commitIdle => exact exec_commit_of_failure alive run run' fresh empty up (State.commitSteps_of_none (s := u) none_ _)
  case waits =>
    have others' : qs.any (Reqd.same ⟨8, 3, tag.toNat, false⟩) = false :=
      List.any_eq_false.mpr fun z hz => Bool.eq_false_iff.mp (Reqd.same_eq_false (others z hz))
    exact (act_alive _ _ alive).trans (congrArg _ (request_of_behind run run' fresh up reqs (Reqd.same_eq_false other) others'))
  case tag => exact (act_alive _ _ alive).trans (congrArg _ (request_of_unanswered run run' outstanding up new))
  case misdirected => exact (act_alive _ _ alive).trans (congrArg _ (request_of_misdirected run run' empty down))

end Sys2Proof.Machine
end

section
/-!
PROOFS. The scalar and vector instructions of a mason: what each writes (R222 to R224, R230 to R232, R237 to R239), where the transfers of control
take PC (R230, R235, R236), and the status with which an ST instruction completes (R224, R240).
-/

namespace Sys2Proof.Machine

/-! ### FL.STATUS and F (R224, R240) -/

theorem Status.code_lt (c : Status) : c.code < 2 ^ 8 := by
  cases c <;> decide

theorem b2n_ne_ok (c : Status) : b2n (c != .ok) = if c = .ok then 0 else 1 := by
  cases c <;> rfl

/-- Settles O23: STATUS and F are two fields apart from each other and from the rest of FL. -/
theorem stStatusHelperWritesFl : Obligations.StStatusHelperWritesFl := by
  intro x c
  have fl : (x.status c).fl = putBits (putBits x.fl 15 8 c.code) 4 4 (b2n (c != .ok)) := rfl
  rw [fl]
  refine ⟨?status, ?f, ?zncv, ?between, rfl, rfl, rfl⟩
  case status =>
    rw [bits_putBits_above _ _ _ _ _ _ (by decide) (by decide), bits_putBits_same _ _ _ _ (by decide)]
    exact Nat.mod_eq_of_lt c.code_lt
  case f =>
    rw [bits_putBits_same _ _ _ _ (by decide), b2n_ne_ok]
    exact Nat.mod_eq_of_lt (by split <;> decide)
  case zncv =>
    rw [bits_putBits_below _ _ _ _ _ _ (by decide) (by decide) (by decide), bits_putBits_below _ _ _ _ _ _ (by decide) (by decide) (by decide)]
  case between =>
    rw [bits_putBits_above _ _ _ _ _ _ (by decide) (by decide), bits_putBits_below _ _ _ _ _ _ (by decide) (by decide) (by decide)]

/-! ### Comparisons of words (R230, R231, R238) -/

theorem ite_slt {α : Type} (a b : Word) (p q : α) : (if a.slt b then p else q) = if a.toInt < b.toInt then p else q :=
  if_congr BitVec.slt_iff_toInt_lt rfl rfl

theorem ite_ult {α : Type} (a b : Word) (p q : α) : (if a.ult b then p else q) = if a.toNat < b.toNat then p else q :=
  if_congr BitVec.ult_iff_toNat_lt rfl rfl

/-! ### G3 and GI (R230, R231) -/

section

variable {s : State} {m : Fin 16} {gd ga gb sh : Fin 32} {func : Nat} {v : Word}

theorem g3_of_issues {f : Word → Word → Word} (h : s.issues m (encG3 func gd ga gb 0))
    (result : f ((s.mason m).get ga) ((s.mason m).get gb) = v) :
    g3 m func gd ga gb f s = .next (s.retiredAs m ((s.mason m).put gd v)) := by
  subst result
  exact isaReg_of_issues h _

theorem g3sh_of_issues {f : Word → Nat → Word} (h : s.issues m (encG3 func gd ga 0 sh)) (result : f ((s.mason m).get ga) sh = v) :
    g3sh m func gd ga sh f s = .next (s.retiredAs m ((s.mason m).put gd v)) := by
  subst result
  exact isaReg_of_issues h _

theorem g3one_of_issues {f : Word → Word} (h : s.issues m (encG3 func gd ga 0 0)) (result : f ((s.mason m).get ga) = v) :
    g3one m func gd ga f s = .next (s.retiredAs m ((s.mason m).put gd v)) := by
  subst result
  exact isaReg_of_issues h _

theorem gi_of_issues {op : Nat} {imm : BitVec 16} {f : Word → Word} (h : s.issues m (encGI op gd ga imm.toNat))
    (result : f ((s.mason m).get ga) = v) : gi m op gd ga imm f s = .next (s.retiredAs m ((s.mason m).put gd v)) := by
  subst result
  exact isaReg_of_issues h _

end

/-- Settles O6: each row is an operation on its registers or on SH; the comparisons are those of the values as numbers. -/
theorem scalarInstructionsWriteTheirResult : Obligations.ScalarInstructionsWriteTheirResult := by
  intro s m gd ga gb x a b writes
  refine ⟨fun h => ?add, fun h => ?sub, fun h => ?and, fun h => ?or, fun h => ?xor, fun h => ?sll, fun h => ?srl, fun h => ?sra, fun h => ?slt,
    fun h => ?sltu, fun h => ?min, fun h => ?max, fun h => ?minu, fun h => ?mul, fun h => ?mulh, fun h => ?mulhu, fun h => ?maxu,
    fun sh h => ?slli, fun sh h => ?srli, fun sh h => ?srai, fun h => ?ctz, fun h => ?clz, fun h => ?popc⟩
  case add => change execAdd m gd ga gb s = _; exact g3_of_issues h rfl
  case sub => change execSub m gd ga gb s = _; exact g3_of_issues h rfl
  case and => change execAnd m gd ga gb s = _; exact g3_of_issues h rfl
  case or => change execOr m gd ga gb s = _; exact g3_of_issues h rfl
  case xor => change execXor m gd ga gb s = _; exact g3_of_issues h rfl
  case sll => change execSll m gd ga gb s = _; exact g3_of_issues h rfl
  case srl => change execSrl m gd ga gb s = _; exact g3_of_issues h rfl
  case sra => change execSra m gd ga gb s = _; exact g3_of_issues h rfl
  case slt => change execSlt m gd ga gb s = _; exact g3_of_issues h (ite_slt ..)
  case sltu => change execSltu m gd ga gb s = _; exact g3_of_issues h (ite_ult ..)
  case min => change execMin m gd ga gb s = _; exact g3_of_issues h (ite_slt ..)
  case max => change execMax m gd ga gb s = _; exact g3_of_issues h (ite_slt ..)
  case minu => change execMinu m gd ga gb s = _; exact g3_of_issues h (ite_ult ..)
  case mul => change execMul m gd ga gb s = _; exact g3_of_issues h rfl
  case mulh => change execMulh m gd ga gb s = _; exact g3_of_issues h rfl
  case mulhu => change execMulhu m gd ga gb s = _; exact g3_of_issues h rfl
  case maxu => change execMaxu m gd ga gb s = _; exact g3_of_issues h (ite_ult ..)
  case slli => change execSlli m gd ga sh s = _; exact g3sh_of_issues h rfl
  case srli => change execSrli m gd ga sh s = _; exact g3sh_of_issues h rfl
  case srai => change execSrai m gd ga sh s = _; exact g3sh_of_issues h rfl
  case ctz => change execCtz m gd ga s = _; exact g3one_of_issues h rfl
  case clz => change execClz m gd ga s = _; exact g3one_of_issues h rfl
  case popc => change execPopc m gd ga s = _; exact g3one_of_issues h rfl

/-- Settles O7: the flags that `Mason.compare` and `Mason.test` set are the whole effect of each row. -/
theorem compareAndTestSetTheFlags : Obligations.CompareAndTestSetTheFlags := by
  intro s m ga gb imm x a b i sets ovf
  refine ⟨fun h => ?cmp, fun h => ?tst, fun h => ?cmpi⟩
  case cmp => change execCmp m ga gb s = _; exact isaReg_of_issues h _
  case tst => change execTst m ga gb s = _; exact isaReg_of_issues h _
  case cmpi => change execCmpi m ga imm s = _; exact isaReg_of_issues h _

/-- Settles O8: each row is an operation on ga and the extended immediate; the comparisons are those of the values as numbers. -/
theorem immediateInstructionsWriteTheirResult : Obligations.ImmediateInstructionsWriteTheirResult := by
  intro s m gd ga imm x a s16 z16 writes
  refine ⟨fun h => ?addi, fun h => ?andi, fun h => ?ori, fun h => ?xori, fun h => ?slti, fun h => ?sltiu, fun h => ?lui⟩
  case addi => change execAddi m gd ga imm s = _; exact gi_of_issues h rfl
  case andi => change execAndi m gd ga imm s = _; exact gi_of_issues h rfl
  case ori => change execOri m gd ga imm s = _; exact gi_of_issues h rfl
  case xori => change execXori m gd ga imm s = _; exact gi_of_issues h rfl
  case slti => change execSlti m gd ga imm s = _; exact gi_of_issues h (ite_slt ..)
  case sltiu => change execSltiu m gd ga imm s = _; exact gi_of_issues h (ite_ult ..)
  case lui => change execLui m gd imm s = _; exact isaReg_of_issues h _

/-! ### Transfers of control (R235, R236) -/

theorem jump_of_inside {n : Nat} (aligned : n % 4 = 0) (inside : n < 65536) (s : State) : jump s n = .goto s n := by
  rw [jump, if_neg (not_not_intro aligned), if_neg (Nat.not_le.mpr inside)]

theorem isa_of_jump_inside {s t : State} {m : Fin 16} {w : Word} {f : State → Mason → Turn} {n : Nat} (h : s.issues m w)
    (inside : n % 4 = 0 ∧ n < 65536) (ends : f s (s.mason m) = jump t n) : isa m w f s = .next (t.retire m n) :=
  isa_of_goto h (ends.trans (jump_of_inside inside.1 inside.2 t))

/-- Settles O12: each transfer ends as a jump to its target does, from the state in which its link stands. -/
theorem transfersOfControl : Obligations.TransfersOfControl := by
  intro s m gd ga cond off x g link dest inside
  refine ⟨fun h good => ?jr, fun h good => ?jalr, fun h holds good => ?taken, fun h fails => ?passed, fun h good => ?bl⟩
  case jr => change execJr m ga s = _; exact isa_of_jump_inside h good rfl
  case jalr => change execJalr m gd ga s = _; exact isa_of_jump_inside h good rfl
  case taken => change execBCond m cond off s = _; rw [execBCond]; exact isa_of_jump_inside h good (by simp only [x, holds]; rfl)
  case passed => change execBCond m cond off s = _; rw [execBCond]; exact isa_of_next h (by simp only [x, fails])
  case bl => change execBl m off s = _; exact isa_of_jump_inside h good rfl

/-! ### V3 and VS (R237 to R239) -/

section

variable {s : State} {m : Fin 16} {vd va vb : Fin 8} {func : Nat}

theorem v3_of_issues {f g : Word → Word → Word} (h : s.issues m (encV3 func vd va vb)) (lane : ∀ a b, f a b = g a b) :
    v3 m func vd va vb f s = .next (s.retiredAs m ((s.mason m).setVec vd (List.zipWith g ((s.mason m).vec va) ((s.mason m).vec vb)))) := by
  obtain rfl : f = g := funext₂ lane
  exact isaReg_of_issues h _

theorem vsh_of_issues {sh : Fin 32} (h : s.issues m (encVS func vd va 0 sh)) (f : Word → Nat → Word) :
    vsh m func vd va sh f s = .next (s.retiredAs m ((s.mason m).setVec vd (((s.mason m).vec va).map fun a => f a sh))) :=
  isaReg_of_issues h _

theorem v3sat_of_issues (h : s.issues m (encV3 func vd va vb)) (f : Int → Int → Int) :
    v3sat m func vd va vb f s = .next (s.retiredAs m
      ((s.mason m).clampVec vd 32 (List.zipWith (fun a b => f a.toInt b.toInt) ((s.mason m).vec va) ((s.mason m).vec vb)))) :=
  isaReg_of_issues h _

theorem vred_of_issues {gd : Fin 32} (h : s.issues m (encVS func 0 va gd 0)) (f : List Word → Word) :
    vred m func gd va f s = .next (s.retiredAs m ((s.mason m).put gd (f ((s.mason m).vec va)))) :=
  isaReg_of_issues h _

end

/-- Settles O14: each row is an operation on the lanes of its sources; the comparisons are those of the values as numbers. -/
theorem vectorInstructionsWriteTheirLanes : Obligations.VectorInstructionsWriteTheirLanes := by
  intro s m vd va vb x writes
  refine ⟨fun h => ?vadd, fun h => ?vsub, fun h => ?vmul, fun h => ?vmin, fun h => ?vmax, fun h => ?vand, fun h => ?vor, fun h => ?vxor,
    fun h => ?vcgt, fun h => ?vceq, fun h => ?vpair, fun h => ?vmov, fun sh h => ?vslli, fun sh h => ?vsrai, fun sh h => ?vsrli⟩
  case vadd => change execVadd m vd va vb s = _; exact v3_of_issues h fun _ _ => rfl
  case vsub => change execVsub m vd va vb s = _; exact v3_of_issues h fun _ _ => rfl
  case vmul => change execVmul m vd va vb s = _; exact v3_of_issues h fun _ _ => rfl
  case vmin => change execVmin m vd va vb s = _; exact v3_of_issues h fun a b => ite_slt a b _ _
  case vmax => change execVmax m vd va vb s = _; exact v3_of_issues h fun a b => ite_slt a b _ _
  case vand => change execVand m vd va vb s = _; exact v3_of_issues h fun _ _ => rfl
  case vor => change execVor m vd va vb s = _; exact v3_of_issues h fun _ _ => rfl
  case vxor => change execVxor m vd va vb s = _; exact v3_of_issues h fun _ _ => rfl
  case vcgt => change execVcgt m vd va vb s = _; exact v3_of_issues h fun a b => ite_slt b a _ _
  case vceq => change execVceq m vd va vb s = _; exact v3_of_issues h fun _ _ => if_congr beq_iff_eq rfl rfl
  case vpair => change execVpair m vd va s = _; exact isaReg_of_issues h _
  case vmov => change execVmov m vd va s = _; exact isaReg_of_issues h _
  case vslli => change execVslli m vd va sh s = _; exact vsh_of_issues h fun a n => a <<< n
  case vsrai => change execVsrai m vd va sh s = _; exact vsh_of_issues h fun a n => a.sshiftRight n
  case vsrli => change execVsrli m vd va sh s = _; exact vsh_of_issues h fun a n => a >>> n

theorem abs_eq_ite_neg (i : Int) : |i| = if i < 0 then -i else i := by
  split
  case isTrue negative => exact abs_of_neg negative
  case isFalse other => exact abs_of_nonneg (not_lt.mp other)

/-- Settles O15: each row gives `Mason.clampVec`, and vredsum its one value, the exact results. -/
theorem saturatingVectorInstructions : Obligations.SaturatingVectorInstructions := by
  intro s m vd va vb x clamps
  refine ⟨fun h => ?vadds, fun h => ?vsubs, fun h => ?vmulq, fun h => ?vabs, fun h => ?vsat24, fun gd h => ?vredsum⟩
  case vadds => change execVadds m vd va vb s = _; exact v3sat_of_issues h fun a b => a + b
  case vsubs => change execVsubs m vd va vb s = _; exact v3sat_of_issues h fun a b => a - b
  case vmulq => change execVmulq m vd va vb s = _; exact v3sat_of_issues h fun a b => divEven (a * b) (2 ^ 23)
  case vabs =>
    simp only [abs_eq_ite_neg]
    change execVabs m vd va s = _
    exact isaReg_of_issues h _
  case vsat24 => change execVsat24 m vd va s = _; exact isaReg_of_issues h _
  case vredsum => change execVredsum m gd va s = _; exact isaReg_of_issues h _

/-- Settles O16: each row writes its lanes, or the one value that it takes from them. -/
theorem vectorScalarInstructions : Obligations.VectorScalarInstructions := by
  intro s m vd va gd ga lane x next
  refine ⟨fun h => ?vsplat, fun h => ?vext, fun h => ?vins, fun h => ?vmask, fun h => ?vmovmsk, fun h => ?vredmax, fun h => ?vredmin,
    fun h => ?vargmax, fun h => ?vaddg, fun h => ?vcgtg⟩
  case vsplat => change execVsplat m vd ga s = _; exact isaReg_of_issues h _
  case vext => change execVext m gd va lane s = _; exact isaReg_of_issues h _
  case vins => change execVins m vd ga lane s = _; exact isaReg_of_issues h _
  case vmask => change execVmask m vd ga s = _; exact isaReg_of_issues h _
  case vmovmsk => change execVmovmsk m gd va s = _; exact vred_of_issues h _
  case vredmax => change execVredmax m gd va s = _; exact vred_of_issues h maxLane
  case vredmin => change execVredmin m gd va s = _; exact vred_of_issues h minLane
  case vargmax => change execVargmax m gd va s = _; exact vred_of_issues h fun vs => BitVec.ofNat 32 (vs.idxOf (maxLane vs))
  case vaddg => change execVaddg m vd va ga s = _; exact isaReg_of_issues h _
  case vcgtg =>
    simp only [← ite_slt]
    change execVcgtg m vd va ga s = _
    exact isaReg_of_issues h _

end Sys2Proof.Machine
end

section
/-!
PROOFS. The yard: hand-on, admission, transmission, HORIZON and REWIND, the reserve, the drain and the scrub (R263, R265, R268 to R273, R277, R278,
R280, R282).
-/

namespace Sys2Proof.Machine

/-! ### Hand-on and admission -/

section

variable {s : State} (alive : s.alive = true)
include alive

section

variable {sid : Fin 8192}

theorem exec_hodHandOn_of_due (straight : s.masonWritten sid = false) (due : s.handOnDue sid = true) :
    exec (.hodHandOn sid) s = .next (s.handOn sid) :=
  (act_alive _ _ alive).trans (congrArg _ (if_pos (by rw [straight, due]; rfl)))

theorem exec_hodHandOn_of_early (early : s.handOnDue sid = false) : exec (.hodHandOn sid) s = .next s :=
  (act_alive _ _ alive).trans (congrArg _ (if_neg (by rw [early, Bool.and_false]; exact Bool.false_ne_true)))

theorem exec_yardFlushExpire_of_past {o : Open} (open_ : s.openOf (s.hodKey sid) sid = some o) (straight : s.masonWritten sid = false)
    (past : o.opened + (s.w R.YARD_FLUSH).toNat * 1000 * nsU ≤ s.cyc) : exec (.yardFlushExpire sid) s = .next (s.flushHod sid) := by
  change execYardFlushExpire sid s = _
  rw [execYardFlushExpire, act_alive _ _ alive]
  simp only [open_, straight, decide_eq_true past]
  rfl

end

theorem exec_hodAdmit_of_next {h : Handed} {hs : List Handed} (admits : s.admits = true) (next : s.nextHanded [] s.handed = some (h, hs)) :
    exec .hodAdmit s = .next ({ s with handed := hs }.yardTake h) := by
  refine (act_alive _ _ alive).trans (congrArg _ ?_)
  rw [State.admitNext, admits, next]
  rfl

theorem exec_hodAdmit_of_closed (closed : s.admits = false) : exec .hodAdmit s = .next s := by
  refine (act_alive _ _ alive).trans (congrArg _ ?_)
  rw [State.admitNext, closed]
  rfl

end

/-! ### Transmission -/

/-- Hods of a ring, the one of YSEQ `y` marked as sent (R270). -/
def markSent (hods : List RHod) (y : Nat) : List RHod := hods.map fun z => if z.yseq = y then { z with sent := true } else z

theorem map_sent_beq (hods : List RHod) (y : Nat) :
    (hods.map fun k => if k.yseq == y then { k with sent := true } else k) = markSent hods y := by
  simp only [markSent, beq_iff_eq]

/-- A ring whose hod of YSEQ `y` has left by its port: TSEQ stands at the next one (R270). -/
def State.ringAdvanced (s : State) (p y : Nat) : State :=
  (s.setRing p { s.ring p with hods := markSent (s.ring p).hods y }).setW (R.RING_TSEQ p) (BitVec.ofNat 32 (y + 1))

section

variable {s : State} {p : Fin 16} (alive : s.alive = true)
include alive

/-- A hod that leaves for the first time with no sent one behind it ends a rewinding (R270, R273). -/
theorem exec_streamHodTransmit_of_unsent {x : RHod} {y : Nat} {u : State} (up : s.role p = 1) (acts : s.mode ≠ 5) (credit : s.canSend p 2 = true)
    (noEvent : s.eventDue p = false) (tseq : (s.w (R.RING_TSEQ p)).toNat = y) (found : (s.ring p).find y = some x) (unsent : x.sent = false)
    (good : (s.ringHod p x).flags % 4 ≠ 2) (sends : s.sendHod p 2 (s.ringHod p x) = u)
    (last : (markSent (u.ring p).hods y).any (fun k => k.yseq == (y + 1) % 2 ^ 32 && k.sent) = false) :
    exec (.streamHodTransmit p) s = .next (((u.ringAdvanced p y).setF (F.RING_STAT_REWINDING p) 0).pump p) := by
  have clear : ¬(s.role p ≠ 1 ∨ s.mode = 5 ∨ (!s.canSend p 2) = true ∨ s.eventDue p = true) := by simp [up, acts, credit, noEvent]
  change execStreamHodTransmit p s = _
  rw [execStreamHodTransmit, act_alive _ _ alive, if_neg clear]
  simp only [tseq, found, unsent, beq_false_of_ne good, sends, State.when_false, map_sent_beq, last, Bool.not_false, State.when_true]
  rfl

theorem exec_streamHodTransmit_of_blocked (blocked : s.role p ≠ 1 ∨ s.mode = 5 ∨ s.canSend p 2 = false ∨ s.eventDue p = true) :
    exec (.streamHodTransmit p) s = .next s := by
  rw [← Bool.not_eq_true'] at blocked
  change execStreamHodTransmit p s = _
  rw [execStreamHodTransmit, act_alive _ _ alive, if_pos blocked]

end

/-! ### A HORIZON or REWIND where no request waits (R271, R277) -/

section

variable {s : State} {p : Fin 16} {r : Reqd} {eff : State → State} (alive : s.alive = true) (run : s.mode ≠ 0) (run' : s.mode ≠ 4)
  (empty : (s.port p).reqs = [])
include alive run run' empty

/-- It takes effect at once, and is outstanding meanwhile (R348, R358). -/
theorem act_inTurn_of_empty (up : s.role p ≠ 2) {z : State} (ends : eff (s.pushReq p r) = z) :
    act (fun s => if s.mode = 0 ∨ s.mode = 4 then s else inTurn p r eff (fun y => y) s) s =
      .next ((s.pushReq p r).runReq p r (fun _ => z) fun y => y) := by
  subst ends
  rw [act_alive _ _ alive, if_neg (not_or.mpr ⟨run, run'⟩), inTurn, empty]
  exact congrArg _ (if_neg up)

/-- On a DOWN port it is in the wrong direction (R277, R351). -/
theorem act_inTurn_of_down (down : s.role p = 2) :
    act (fun s => if s.mode = 0 ∨ s.mode = 4 then s else inTurn p r eff (fun y => y) s) s = .next (s.misdirect p s.hid) := by
  rw [act_alive _ _ alive, if_neg (not_or.mpr ⟨run, run'⟩), inTurn, empty]
  exact congrArg _ (if_pos down)

end

/-! ### HORIZON (R271, R272) -/

/-- How many hods a HORIZON of YSEQ `n` covers: from the oldest that the ring holds up to `n` (R272). -/
def State.horizonSpan (s : State) (q n : Nat) : Nat := (n + 1 + 2 ^ 32 - (s.w (R.RING_HSEQ q)).toNat) % 2 ^ 32

/-- A HORIZON that does not lie within the sent hods is counted and reported (R271). -/
def State.badHorizon (s : State) (p : Nat) (ws : List Word) : State :=
  (s.bump (F.RING_BAD_HORIZON (badRing p ws)) 1).raiseBit R.YARD_EVT 4 0x0605 (badRing p ws) (ws.getD 1 0).toNat

/-- What a HORIZON that arrived on port `p` does in its turn (R271, R272). -/
def State.horizonEff (s : State) (p : Nat) (ws : List Word) : State := match s.ringArg ws with
  | none => s.badHorizon p ws
  | some (q, n) => if s.horizonSpan q n ≤ (s.ring q).sentCount then s.horizon q (s.horizonSpan q n) else s.badHorizon p ws

section

variable {s : State} {p q n : Nat} {ws : List Word}

theorem State.horizonEff_of_sent (arg : s.ringArg ws = some (q, n)) (sent : s.horizonSpan q n ≤ (s.ring q).sentCount) :
    s.horizonEff p ws = s.horizon q (s.horizonSpan q n) := by
  simp only [State.horizonEff, arg, if_pos sent]

theorem State.horizonEff_of_bad (bad : s.ringArg ws = none ∨ (s.ringArg ws = some (q, n) ∧ (s.ring q).sentCount < s.horizonSpan q n)) :
    s.horizonEff p ws = s.badHorizon p ws := by
  obtain none_ | ⟨arg, beyond⟩ := bad
  · simp only [State.horizonEff, none_]
  · simp only [State.horizonEff, arg, if_neg (Nat.not_le.mpr beyond)]

end

/-! ### REWIND (R271, R273) -/

/-- How far a YSEQ lies behind the oldest hod that a ring holds. -/
def State.pastHorizon (s : State) (q n : Nat) : Nat := (n + 2 ^ 32 - (s.w (R.RING_HSEQ q)).toNat) % 2 ^ 32

/-- A REWIND outside its range is counted and reported (R271). -/
def State.badRewind (s : State) (p : Nat) (ws : List Word) : State :=
  (s.bump (F.RING_BAD_REWIND (badRing p ws)) 1).raiseBit R.YARD_EVT 5 0x0606 (badRing p ws) (ws.getD 1 0).toNat

/-- A ring sends again from YSEQ `n`; it is rewinding while a sent hod is still to go (R273). -/
def State.rewound (s : State) (q n : Nat) : State :=
  (s.setW (R.RING_TSEQ q) (BitVec.ofNat 32 n)).setF (F.RING_STAT_REWINDING q) (if s.pastHorizon q n < (s.ring q).sentCount then 1 else 0)

/-- What a REWIND that arrived on port `p` does in its turn (R271, R273). -/
def State.rewindEff (s : State) (p : Nat) (ws : List Word) : State := match s.ringArg ws with
  | none => s.badRewind p ws
  | some (q, n) => if s.pastHorizon q n ≤ s.pastHorizon q (s.w (R.RING_TSEQ q)).toNat then s.rewound q n else s.badRewind p ws

section

variable {s : State} {p q n : Nat} {ws : List Word}

theorem State.rewindEff_of_range (arg : s.ringArg ws = some (q, n)) (range : s.pastHorizon q n ≤ s.pastHorizon q (s.w (R.RING_TSEQ q)).toNat) :
    s.rewindEff p ws = s.rewound q n := by
  simp only [State.rewindEff, arg, if_pos range]

theorem State.rewindEff_of_bad
    (bad : s.ringArg ws = none ∨ (s.ringArg ws = some (q, n) ∧ s.pastHorizon q (s.w (R.RING_TSEQ q)).toNat < s.pastHorizon q n)) :
    s.rewindEff p ws = s.badRewind p ws := by
  obtain none_ | ⟨arg, beyond⟩ := bad
  · simp only [State.rewindEff, none_]
  · simp only [State.rewindEff, arg, if_neg (Nat.not_le.mpr beyond)]

end

/-! ### The two commands -/

theorem b2n_decide (c : Prop) [Decidable c] : b2n (decide c) = if c then 1 else 0 := by
  simp only [b2n, decide_eq_true_eq]

section

variable {s : State} {p : Fin 16} {ws : List Word} (alive : s.alive = true) (run : s.mode ≠ 0) (run' : s.mode ≠ 4) (empty : (s.port p).reqs = [])
include alive run run' empty

theorem exec_horizon_of_down (down : s.role p = 2) : exec (.horizon p ws) s = .next (s.misdirect p s.hid) :=
  act_inTurn_of_down alive run run' empty down

theorem exec_rewind_of_down (down : s.role p = 2) : exec (.rewind p ws) s = .next (s.misdirect p s.hid) :=
  act_inTurn_of_down alive run run' empty down

variable (up : s.role p ≠ 2) {z : State}
include up

theorem exec_horizon_of_empty (ends : (s.pushReq p ⟨6, 0, 0, false⟩).horizonEff p ws = z) :
    exec (.horizon p ws) s = .next ((s.pushReq p ⟨6, 0, 0, false⟩).runReq p ⟨6, 0, 0, false⟩ (fun _ => z) fun y => y) :=
  act_inTurn_of_empty alive run run' empty up ends

theorem exec_rewind_of_empty (ends : (s.pushReq p ⟨7, 0, 0, false⟩).rewindEff p ws = z) :
    exec (.rewind p ws) s = .next ((s.pushReq p ⟨7, 0, 0, false⟩).runReq p ⟨7, 0, 0, false⟩ (fun _ => z) fun y => y) := by
  refine act_inTurn_of_empty alive run run' empty up (Eq.trans ?_ ends)
  simp only [b2n_decide]
  rfl

end

/-! ### The reserve, the drain, the scrub and self-refresh -/

section

variable {s : State} (alive : s.alive = true)
include alive

theorem exec_reserveHodWrite_of_resumed {p : Fin 16} {sid : Fin 8192} (admits : s.admits = true)
    (resumed : s.resumed.contains (sid.val, p.val) = true) : exec (.reserveHodWrite p sid) s = .next (s.writeReserve p sid) :=
  (act_alive _ _ alive).trans (congrArg _ (if_pos (by rw [admits, resumed]; rfl)))

theorem exec_drainEnd_of_empty (draining : s.draining = true) (empty : s.handed = []) : exec .drainEnd s = .next { s with draining := false } :=
  (act_alive _ _ alive).trans (congrArg _ (if_pos (by rw [draining, empty]; rfl)))

section

variable (on : s.mode ≠ 0)
include on

theorem exec_yardScrub_of_none (fixed : Word) : exec (.yardScrub fixed none) s = .next (s.bumpW R.YARD_FIX fixed.toNat) := by
  change execYardScrub fixed none s = _
  rw [execYardScrub, act_alive _ _ alive, if_neg on]

theorem exec_yardScrub_of_some (fixed : Word) (i : BitVec 26) :
    exec (.yardScrub fixed (some i)) s = .next { s.bumpW R.YARD_FIX fixed.toNat with
      bad := insNat (0x20000000 + 8 * i.toNat) (insNat (0x20000004 + 8 * i.toNat) (s.bumpW R.YARD_FIX fixed.toNat).bad) } := by
  change execYardScrub fixed (some i) s = _
  rw [execYardScrub, act_alive _ _ alive, if_neg on]

theorem exec_yardSrefEnter_of_idle (ready : s.b F.YARD_STAT_READY = true) (empty : s.yardEmpty = true) (inactive : s.activeSids = [])
    (settled : s.inFlight = false) : exec .yardSrefEnter s = .next (s.setF F.YARD_STAT_SREF 1) :=
  (act_alive _ _ alive).trans (congrArg _ (if_pos (by rw [bne_iff_ne.mpr on, ready, empty, inactive, settled]; rfl)))

end

end

/-- Settles O52: a HORIZON or REWIND has its turn, and each clause is one branch of its command or of the hod's effect. -/
theorem ringsAndHodsOfTheYard : Obligations.RingsAndHodsOfTheYard := by
  intro s p sid ws q n h hs o fixed i x z h_ r_ free hEnds rEnds hseq k j tseq bad second alive
  refine ⟨exec_hodHandOn_of_due alive, exec_hodHandOn_of_early alive, exec_yardFlushExpire_of_past alive, exec_hodAdmit_of_next alive,
    exec_hodAdmit_of_closed alive,
    fun up acts credit noEvent found unsent good last =>
      exec_streamHodTransmit_of_unsent alive up acts credit noEvent rfl found unsent good rfl last,
    exec_streamHodTransmit_of_blocked alive, fun ⟨run, run', empty, up⟩ arg sent => ?horizon, fun ⟨run, run', empty, up⟩ isBad => ?badHorizon,
    fun ⟨run, run', empty, up⟩ arg range => ?rewind, fun ⟨run, run', empty, up⟩ isBad => ?badRewind,
    fun unbegun oldest => State.runReq_of_done rfl unbegun oldest (Reqd.same_eq_true rfl rfl rfl),
    fun run run' empty down => ⟨exec_horizon_of_down alive run run' empty down, exec_rewind_of_down alive run run' empty down⟩,
    exec_reserveHodWrite_of_resumed alive, exec_drainEnd_of_empty alive, fun on => exec_yardScrub_of_none alive on fixed,
    fun on => exec_yardScrub_of_some alive on fixed i, exec_yardSrefEnter_of_idle alive⟩
  case horizon => exact exec_horizon_of_empty alive run run' empty up (State.horizonEff_of_sent (s := h_) arg sent)
  case badHorizon => exact exec_horizon_of_empty alive run run' empty up (State.horizonEff_of_bad (s := h_) isBad)
  case rewind => exact exec_rewind_of_empty alive run run' empty up (State.rewindEff_of_range (s := r_) arg range)
  case badRewind => exact exec_rewind_of_empty alive run run' empty up (State.rewindEff_of_bad (s := r_) isBad)

end Sys2Proof.Machine
end

section
/-!
PROOFS. The writes of the ring sizes, of the packers' widths and of the press, and the jobs of the expander (R257, R267, R287, R289, R292, R293,
R297 to R301).
-/

namespace Sys2Proof.Machine

/-! ### Ring sizes (R267, R268) -/

/-- What the other rings hold of the yard, in MiB. -/
def State.otherRings (s : State) (p : Nat) : Nat := ((range' 0 16).map fun q => if q = p then 0 else s.f (F.RING_CFG_SIZE q)).sum

/-- An active stream names a port. -/
def State.portNamed (s : State) (p : Nat) : Bool := s.activeSids.any fun i => s.portOf i == p

/-- A ring of `n` MiB taken: the rings laid out anew, and its numbers set to zero (R267). -/
def State.ringSized (s : State) (p n : Nat) : State :=
  ((((((s.setF (F.RING_CFG_SIZE p) n).setBases).each (range' 0 16) fun u q => u.setRing q ⟨[], 0⟩).setW (R.RING_WSEQ p) 0).setW
    (R.RING_TSEQ p) 0).setW (R.RING_HSEQ p) 0).fin .ok

/-- A size of `n` MiB for the ring of a port, with the refusals in their order (R267, R268). -/
def State.ringCfg (s : State) (p n : Nat) : State :=
  if s.mode ≠ 1 ∧ s.mode ≠ 2 then s.fin .mode
  else if 512 < n + s.otherRings p then s.fin .unsupported
  else if !s.yardEmpty ∨ (n = 0 ∧ s.portNamed p) then s.fin .busy
  else s.ringSized p n

section

variable {s : State} {p n : Nat}

theorem State.ringCfg_of_mode (other : s.mode ≠ 1) (other' : s.mode ≠ 2) : s.ringCfg p n = s.fin .mode := if_pos ⟨other, other'⟩

section

variable (mode : s.mode = 1 ∨ s.mode = 2)
include mode

theorem State.ringCfg_of_beyond (beyond : 512 < n + s.otherRings p) : s.ringCfg p n = s.fin .unsupported := by
  rw [State.ringCfg, if_neg (by omega), if_pos beyond]

variable (fits : n + s.otherRings p ≤ 512)
include fits

theorem State.ringCfg_of_used (used : s.yardEmpty = false ∨ (n = 0 ∧ s.portNamed p = true)) : s.ringCfg p n = s.fin .busy := by
  rw [State.ringCfg, if_neg (by omega), if_neg (Nat.not_lt.mpr fits), if_pos (used.imp_left (Bool.not_eq_true' _).mpr)]

theorem State.ringCfg_of_fits (empty : s.yardEmpty = true) (unnamed : n ≠ 0 ∨ s.portNamed p = false) : s.ringCfg p n = s.ringSized p n := by
  have unused : ¬((!s.yardEmpty) = true ∨ (n = 0 ∧ s.portNamed p = true)) := by
    rintro (held | ⟨zero, named⟩)
    · simp [empty] at held
    · exact unnamed.elim (· zero) (Bool.eq_false_iff.mp · named)
  rw [State.ringCfg, if_neg (by omega), if_neg (Nat.not_lt.mpr fits), if_neg unused]

end

end

theorem exec_ringCfgWrite {s : State} {r : Req} {p : Fin 16} {v : Word} (h : s.takes r (R.RING_CFG p)) :
    exec (.ringCfgWrite r p v) s = .next (s.ringCfg p (bits v.toNat 9 0)) :=
  act_regWrite_of_takes h fun s => s.ringCfg p (bits v.toNat 9 0)

/-! ### Packer widths (R257) -/

/-- An active STRAIGHT stream takes its samples from a channel of tile `t` whose bit in `d` is set. -/
def State.sampled (s : State) (t d : Nat) : Bool := s.activeSids.any fun i =>
  !s.masonWritten i && s.f (F.SE_CTL_SRC_KIND i) == 0 && s.f (F.SE_SRC_CH i) / 16 == t && bit d (s.f (F.SE_SRC_CH i) % 16)

theorem exec_pkCtlWrite {s : State} {r : Req} {t : Fin 24} {v : Word} (h : s.takes r (R.PK_CTL t)) :
    exec (.pkCtlWrite r t v) s = .next
      (if s.sampled t (Nat.xor (bits v.toNat 15 0) (bits (s.w (R.PK_CTL t)).toNat 15 0)) then s.fin .busy
      else (s.setW (R.PK_CTL t) (v &&& 0xFFFF)).fin .ok) :=
  act_regWrite_of_takes h fun s => if s.sampled t (Nat.xor (bits v.toNat 15 0) (bits (s.w (R.PK_CTL t)).toNat 15 0)) then s.fin .busy
    else (s.setW (R.PK_CTL t) (v &&& 0xFFFF)).fin .ok

/-! ### Engines (R287, R289, R292, R293) -/

section

variable {s : State} {r : Req} {e : Fin 4} {v : Word}

theorem exec_blockEnd (alive : s.alive = true) :
    exec (.blockEnd e) s = .next { (s.codeHanded e s.handed).1 with handed := (s.codeHanded e s.handed).2 } :=
  act_alive (fun s => s.blockEnd e) _ alive

theorem exec_pcCtlWrite (h : s.takes r (R.PC_CTL e)) :
    exec (.pcCtlWrite r e v) s = .next
      (if bits v.toNat 25 16 < 16 ∨ 1020 < bits v.toNat 25 16 then s.fin .unsupported
      else if s.engineUsed e then s.fin .busy else (s.setW (R.PC_CTL e) (v &&& 0x03FF0001)).fin .ok) :=
  act_regWrite_of_takes h fun s => if bits v.toNat 25 16 < 16 ∨ 1020 < bits v.toNat 25 16 then s.fin .unsupported
    else if s.engineUsed e then s.fin .busy else (s.setW (R.PC_CTL e) (v &&& 0x03FF0001)).fin .ok

theorem exec_pcMresWrite (h : s.takes r (R.PC_MRES e)) :
    exec (.pcMresWrite r e v) s = .next
      (if (s.setW (R.PC_MRES e) v).pressOk then (s.setW (R.PC_MRES e) v).fin .ok else s.fin .unsupported) :=
  act_regWrite_of_takes h fun s => if (s.setW (R.PC_MRES e) v).pressOk then (s.setW (R.PC_MRES e) v).fin .ok else s.fin .unsupported

end

/-! ### Jobs of the expander (R297 to R301) -/

theorem exec_pxGo_of_go {s : State} {r : Req} {v : Word} (h : s.takes r R.PX_CTL) (go : wbit v 0 = true) :
    exec (.pxGo r v) s = .next
      (if s.f F.PX_STAT_STATE ≠ 0 ∨ s.b F.PX_STAT_OWNER then s.fin .busy
      else (((s.setF F.PX_STAT_VALID 0).setF F.PX_STAT_STATUS 0).setF F.PX_STAT_STATE 1).fin .ok) := by
  refine (act_regWrite_of_takes h _).trans (congrArg _ (if_neg ?_))
  rw [go]
  exact Bool.false_ne_true

/-- The words of a job's input (R297). -/
def State.pxInput (s : State) : List Word := (range' 0 (s.f F.PX_JOB_IN_LEN)).map fun i => s.w (R.PX_INBUF i)

section

variable {s : State}

theorem State.pxJobEnd_of_idle (idle : s.f F.PX_STAT_STATE = 0) : s.pxJobEnd = s := if_pos idle

section

variable (busy : s.f F.PX_STAT_STATE ≠ 0)
include busy

theorem State.pxJobEnd_of_scan_error {err : ScanErr} {k : Nat}
    (fails : scanBlocks (s.f F.PX_JOB_IN_LEN + 1) 0 (s.f F.PX_JOB_OUT_LIMIT) s.pxInput = .error (err, k)) :
    s.pxJobEnd = (s.pxEnd err.status []).pxReject err.status k := by
  rw [State.pxInput] at fails
  simp only [State.pxJobEnd, if_neg busy, fails]

theorem State.pxJobEnd_of_expanded {bs : List PBlock} {out : List Byte}
    (scans : scanBlocks (s.f F.PX_JOB_IN_LEN + 1) 0 (s.f F.PX_JOB_OUT_LIMIT) s.pxInput = .ok bs)
    (expands : expandBlocks bs (s.f F.PX_JOB_OUT_LIMIT) 0 [] = ⟨out, none⟩) : s.pxJobEnd = s.pxEnd .ok out := by
  rw [State.pxInput] at scans
  simp only [State.pxJobEnd, if_neg busy, scans, expands]

end

theorem exec_pxJobEnd (alive : s.alive = true) : exec .pxJobEnd s = .next s.pxJobEnd := act_alive _ _ alive

end

/-- Settles O53: each write is its register's effect, and each clause one branch of that effect or of the end of a job. -/
theorem ringAndPressConfiguration : Obligations.RingAndPressConfiguration := by
  intro s r p t e v bs out err k n rest m laid differs hit input
  refine ⟨fun tk mode some_ fits empty => ?ringTaken, fun tk mode zero fits empty unnamed => ?ringOff, fun tk mode fits used => ?ringBusy,
    fun tk other other' => ?ringMode, fun tk mode beyond => ?ringBeyond, fun tk used => ?pkBusy, fun tk unused => ?pkTaken, exec_blockEnd,
    fun tk low high unused => ?pcTaken, fun tk low high used => ?pcBusy, fun tk range => ?pcRange, fun tk ok => ?mresTaken,
    fun tk heavy => ?mresOver, fun tk go idle free => ?goTaken, fun tk go busy => ?goBusy, fun alive busy scans expands => ?expanded,
    fun alive busy fails => ?scanFails, fun alive idle => ?idle⟩
  case ringTaken => exact (exec_ringCfgWrite tk).trans (congrArg _ (State.ringCfg_of_fits mode fits empty (.inl some_)))
  case ringOff =>
    have fits' : n + s.otherRings p ≤ 512 := by rwa [zero, Nat.zero_add]
    exact (exec_ringCfgWrite tk).trans (congrArg _ (State.ringCfg_of_fits mode fits' empty (.inr unnamed)))
  case ringBusy => exact (exec_ringCfgWrite tk).trans (congrArg _ (State.ringCfg_of_used mode fits used))
  case ringMode => rw [exec_ringCfgWrite tk, State.ringCfg_of_mode other other']
  case ringBeyond => exact (exec_ringCfgWrite tk).trans (congrArg _ (State.ringCfg_of_beyond mode beyond))
  case pkBusy => exact (exec_pkCtlWrite tk).trans (congrArg _ (if_pos used))
  case pkTaken => exact (exec_pkCtlWrite tk).trans (congrArg _ (if_neg (Bool.eq_false_iff.mp unused)))
  case pcTaken => rw [exec_pcCtlWrite tk, if_neg (by omega), if_neg (Bool.eq_false_iff.mp unused)]
  case pcBusy => rw [exec_pcCtlWrite tk, if_neg (by omega), if_pos used]
  case pcRange => rw [exec_pcCtlWrite tk, if_pos range]
  case mresTaken => rw [exec_pcMresWrite tk, if_pos ok]
  case mresOver => rw [exec_pcMresWrite tk, if_neg (Bool.eq_false_iff.mp heavy)]
  case goTaken => rw [exec_pxGo_of_go tk go, if_neg (not_or.mpr ⟨not_not_intro idle, Bool.eq_false_iff.mp free⟩)]
  case goBusy => rw [exec_pxGo_of_go tk go, if_pos busy]
  case expanded => rw [exec_pxJobEnd alive, State.pxJobEnd_of_expanded busy scans expands]
  case scanFails =>
    rw [exec_pxJobEnd alive, State.pxJobEnd_of_scan_error busy fails]
    rfl
  case idle => rw [exec_pxJobEnd alive, State.pxJobEnd_of_idle idle]

end Sys2Proof.Machine
end

section
/-!
PROOFS. The hods that a port's lanes receive, by their sequence number and their check (R339, R343, R344).
-/

namespace Sys2Proof.Machine

section

variable {u : State} {p : Nat} {a : Arrival}

theorem State.arrive_of_abort (aborted : a.abort = true) : u.arrive p a = u.bump (F.PL_MISC_ABORT p) 1 := if_pos aborted

section

variable (complete : a.abort = false)
include complete

theorem State.arrive_of_crc (broken : a.crcOk = false) : u.arrive p a = (u.bump (F.PL_ERR_CRC p) 1).nak p := by
  simp only [State.arrive, complete, broken]
  rfl

variable (sound : a.crcOk = true) (link : (hodOf a.header a.payload).typ ≠ 0) (time : (hodOf a.header a.payload).typ ≠ 4)
include sound link time

/-- Of a sequenced hod the number alone decides: the next one, a duplicate, or one out of order (R343). -/
theorem State.arrive_of_sequenced :
    u.arrive p a =
      if (hodOf a.header a.payload).lseq = u.f (F.PL_STAT_RX_NEXT p) then u.accept p a
      else if (u.f (F.PL_STAT_RX_NEXT p) + 4096 - (hodOf a.header a.payload).lseq) % 4096 ≤ 128 then
        (u.freeBuf p (u.inClass p (hodOf a.header a.payload))).sendLink p false
      else u.nak p := by
  simp only [State.arrive, complete, sound, link, time]
  rfl

theorem State.arrive_of_next (next : (hodOf a.header a.payload).lseq = u.f (F.PL_STAT_RX_NEXT p)) : u.arrive p a = u.accept p a := by
  rw [State.arrive_of_sequenced complete sound link time, if_pos next]

variable (other : (hodOf a.header a.payload).lseq ≠ u.f (F.PL_STAT_RX_NEXT p))
include other

theorem State.arrive_of_duplicate (before : (u.f (F.PL_STAT_RX_NEXT p) + 4096 - (hodOf a.header a.payload).lseq) % 4096 ≤ 128) :
    u.arrive p a = (u.freeBuf p (u.inClass p (hodOf a.header a.payload))).sendLink p false := by
  rw [State.arrive_of_sequenced complete sound link time, if_neg other, if_pos before]

theorem State.arrive_of_gap (beyond : 128 < (u.f (F.PL_STAT_RX_NEXT p) + 4096 - (hodOf a.header a.payload).lseq) % 4096) :
    u.arrive p a = u.nak p := by
  rw [State.arrive_of_sequenced complete sound link time, if_neg other, if_neg (Nat.not_le.mpr beyond)]

end

end

/-- Groups that hold one hod are decoded, and then that hod is taken (R311, R313). -/
theorem exec_hodArrival_of_one {s u : State} {p : Fin 16} {lines : List LineIn} {a : Arrival} (alive : s.alive = true)
    (up : s.portUp p = true) (got : s.rxPort p lines = (u, [a])) : exec (.hodArrival p lines) s = .next (u.arrive p a) := by
  change execHodArrival p lines s = _
  rw [execHodArrival, act_alive _ _ alive]
  simp only [up, got]
  rfl

/-- Settles O33: the one hod is taken as its abort, its CRC and the distance of its number from the expected one say. -/
theorem sequencedArrivals : Obligations.SequencedArrivals := by
  intro s u p lines a h e alive up got
  rw [exec_hodArrival_of_one alive up got]
  exact ⟨fun aborted => congrArg _ (State.arrive_of_abort aborted),
    fun complete broken => congrArg _ (State.arrive_of_crc complete broken),
    fun complete sound link time next => congrArg _ (State.arrive_of_next complete sound link time next),
    fun complete sound link time other before => congrArg _ (State.arrive_of_duplicate complete sound link time other before),
    fun complete sound link time other beyond => congrArg _ (State.arrive_of_gap complete sound link time other beyond)⟩

end Sys2Proof.Machine
end

section
/-!
PROOFS. The training of lanes (R320 to R328), and the writes of QUAD_CTL (R305 to R309, R330).
-/

namespace Sys2Proof.Machine

/-! ### DETECT -/

section

variable {s : State} {n : Fin 32} (alive : s.alive = true)
include alive

/-- A lane of a port leaves DETECT once it hears a signal and its quad's PLL is locked (R327). -/
theorem exec_detectDone :
    exec (.detectDone n) s = .next
      (if s.lst n == 0 && (s.lanePort n).isSome && (!s.b (F.LANE_STAT_LOS n) && !s.b (F.LANE_STAT_LOL n)) && s.b (F.QUAD_STAT_PLL_LOCK (n / 4))
      then s.toLst n 1 else s) :=
  act_alive _ _ alive

theorem exec_detectDone_of_signal {i : Nat} (mine : s.lanePort n = some i) (state : s.lst n = 0) (los : s.b (F.LANE_STAT_LOS n) = false)
    (lol : s.b (F.LANE_STAT_LOL n) = false) (pll : s.b (F.QUAD_STAT_PLL_LOCK (n / 4)) = true) :
    exec (.detectDone n) s = .next (s.toLst n 1) := by
  rw [exec_detectDone alive, mine, state, los, lol, pll]
  rfl

theorem exec_detectDone_of_los (los : s.b (F.LANE_STAT_LOS n) = true) : exec (.detectDone n) s = .next s := by
  rw [exec_detectDone alive, los, Bool.not_true, Bool.false_and, Bool.and_false, Bool.false_and, if_neg Bool.false_ne_true]

end

/-! ### Training sets -/

/-- The symbols of a training set bear data (R320, R321). -/
theorem State.thawLane_tsFill (s : State) (n : Nat) : s.thawLane n tsFill = s.setF (F.LANE_EQ_FROZEN n) 0 := rfl

section

variable {s : State} {p n late : Nat} {x : TsRead}

theorem State.tsValid_of_order (state : s.lst n = 3) : s.tsValid p n late x = s.tsLearn n late x := by
  simp only [State.tsValid, state]

theorem State.tsValid_of_rate (state : s.lst n = 4) : s.tsValid p n late x = s.tsRate p n x := by
  simp only [State.tsValid, state]

theorem State.tsValid_of_eq (state : s.lst n = 5) : s.tsValid p n late x = s.tsEq p n x := by
  simp only [State.tsValid, state]

/-- In UP a set that the partner sent before it was UP says that it trains again (R329). -/
theorem State.tsValid_of_up (state : s.lst n = 6) (earlier : x.state < 6) : s.tsValid p n late x = s.leaveUp p 4 true := by
  simp only [State.tsValid, state, if_pos earlier]

end

section

variable {s u : State} {n : Fin 32} {i : Nat} {ts : TrainSet} (alive : s.alive = true) (thawed : s.setF (F.LANE_EQ_FROZEN n) 0 = u)
  (mine : s.lanePort n = some i)
include alive thawed mine

theorem exec_trainingSet_of_align (state : u.lst n = 1) : exec (.trainingSet n ts) s = .next (u.tsAlign n ts) := by
  subst thawed
  change execTrainingSet n ts s = _
  rw [execTrainingSet, act_alive _ _ alive]
  simp only [mine, State.thawLane_tsFill, state]

theorem exec_trainingSet_of_polarity (state : u.lst n = 2) :
    exec (.trainingSet n ts) s = .next (u.tsPolar n ts.late (u.readSet n ts)) := by
  subst thawed
  change execTrainingSet n ts s = _
  rw [execTrainingSet, act_alive _ _ alive]
  simp only [mine, State.thawLane_tsFill, state]

/-! From ORDER onward. -/

section

variable {k : Nat} (state : u.lst n = k + 3)
include state

theorem exec_trainingSet_of_valid {x : TsRead} (valid : u.readSet n ts = some x) :
    exec (.trainingSet n ts) s = .next (u.tsValid i n ts.late x) := by
  subst thawed
  change execTrainingSet n ts s = _
  rw [execTrainingSet, act_alive _ _ alive]
  simp only [mine, State.thawLane_tsFill, state, valid]

theorem exec_trainingSet_of_invalid (invalid : u.readSet n ts = none) : exec (.trainingSet n ts) s = .next u := by
  subst thawed
  change execTrainingSet n ts s = _
  rw [execTrainingSet, act_alive _ _ alive]
  simp only [mine, State.thawLane_tsFill, state, invalid]

end

end

/-! ### ORDER -/

section

variable {s : State} {p : Nat}

theorem State.partnerMap_of_widths (differ : ((s.lanesIn p 3).all fun k => (s.lane k).width == s.widthCode p) = false) :
    s.partnerMap p = .error 5 := by
  simp only [State.partnerMap, differ]
  rfl

section

variable {timeUp : Bool} (trained : s.lanesIn p 3 ≠ [])
include trained

theorem State.orderDecide_of_error {c : Nat} (unfit : s.partnerMap p = .error c) : s.orderDecide p timeUp = s.failPort p c := by
  simp only [State.orderDecide, if_neg trained, unfit]

section

variable {rev : Bool} (fits : s.partnerMap p = .ok rev)
include fits

/-- The DOWN end waits for the rest of its lanes (R325). -/
theorem State.orderDecide_of_wait (down : s.role p = 2) (few : (s.lanesIn p 3).length < 2 ^ s.widthCode p) : s.orderDecide p false = s := by
  simp [State.orderDecide, trained, fits, down, few]

section

variable (decides : s.role p ≠ 2 ∨ timeUp = true ∨ 2 ^ s.widthCode p ≤ (s.lanesIn p 3).length)
include decides

omit trained fits in
theorem State.orderDecide_waits_not :
    ¬((decide (s.role p = 2) && !timeUp && decide ((s.lanesIn p 3).length < 2 ^ s.widthCode p)) = true) := by
  rcases decides with other | passed | all <;> simp [*]

theorem State.orderDecide_of_chosen {js : List Nat} (chosen : s.chooseLanes p = some js) :
    s.orderDecide p timeUp = s.passOrder p rev js := by
  simp only [State.orderDecide, if_neg trained, fits, if_neg (State.orderDecide_waits_not decides), chosen]

end

/-- A port without a group to take fails when the limit passes (R325). -/
theorem State.orderDecide_of_none (nothing : s.chooseLanes p = none) : s.orderDecide p true = s.failPort p 3 := by
  simp only [State.orderDecide, if_neg trained, fits, if_neg (State.orderDecide_waits_not (.inr (.inl rfl))), nothing, if_true]

end

end

/-! The limit of R325, by the role of the port. -/

theorem State.orderUp_of_down {first own : Nat} (down : s.role p = 2) : s.orderUp p first own = decide (2000 ≤ first) := if_pos down

theorem State.orderUp_of_passed {first own : Nat} (passed : if s.role p = 2 then 2000 ≤ first else 4000 ≤ own) :
    s.orderUp p first own = true := by
  by_cases down : s.role p = 2
  · rw [State.orderUp_of_down down, decide_eq_true (by rwa [if_pos down] at passed)]
  · rw [State.orderUp, if_neg down, decide_eq_true (by rwa [if_neg down] at passed)]

end

theorem exec_orderDecide {s : State} (alive : s.alive = true) (p : Fin 16) (first own : Nat) :
    exec (.orderDecide p first own) s = .next (s.orderDecide p (s.orderUp p first own)) :=
  act_alive (fun s => s.orderDecide p (s.orderUp p first own)) _ alive

/-! ### Time-outs -/

section

variable {s : State} {n : Fin 32} {i : Nat} (alive : s.alive = true) (mine : s.lanePort n = some i)
include alive mine

theorem exec_trainTimeout_of_order (state : s.lst n = 3) : exec (.trainTimeout n) s = .next (s.orderDecide i true) := by
  change execTrainTimeout n s = _
  rw [execTrainTimeout, act_alive _ _ alive]
  simp only [mine, state]

theorem exec_trainTimeout_of_rate (state : s.lst n = 4) :
    exec (.trainTimeout n) s = .next (s.failPort i (if 0 < (s.lane n).badRole then 7 else 6)) := by
  change execTrainTimeout n s = _
  rw [execTrainTimeout, act_alive _ _ alive]
  simp only [mine, state]

/-- ALIGN, POLARITY and EQ have a cause each (R327). -/
theorem exec_trainTimeout_of_cause {c : Nat} (cause : (s.lst n, c) ∈ [(1, 1), (2, 2), (5, 8)]) :
    exec (.trainTimeout n) s = .next (s.failPort i c) := by
  change execTrainTimeout n s = _
  rw [execTrainTimeout, act_alive _ _ alive]
  simp only [List.mem_cons, Prod.mk.injEq, List.not_mem_nil, or_false] at cause
  rcases cause with ⟨state, rfl⟩ | ⟨state, rfl⟩ | ⟨state, rfl⟩ <;> simp only [mine, state]

end

/-- A lane ends the silence of the back-off, if it keeps one: it sends from the start of a set again (R312, R315, R328). -/
def State.unquiet (s : State) (n : Nat) : State :=
  if (s.lane n).quiet then s.setLane n { s.lane n with quiet := false, grout := 0, slot := 0, txNeg := true, part := [], tx := [] } else s

theorem exec_backoffExpire {s : State} (alive : s.alive = true) (p : Fin 16) :
    exec (.backoffExpire p) s = .next (s.each (s.portLanes p) State.unquiet) :=
  act_alive (fun s => s.each (s.portLanes p) State.unquiet) _ alive

/-! ### The equaliser and grout -/

/-- The settings at which an equaliser that adapts has settled (R320). -/
def State.equalised (s : State) (n : Nat) (ctle : BitVec 4) (dfe : BitVec 30) : State :=
  (s.setF (F.LANE_EQ_CTLE n) ctle.toNat).setW (R.LANE_DFE n) (BitVec.ofNat 32 dfe.toNat)

section

variable {s : State} {n : Nat} {ctle : BitVec 4} {dfe : BitVec 30}

theorem State.adapt_of_held (held : s.b (F.LANE_EQ_HOLD n) = true) : s.adapt n ctle dfe = s := by
  rw [State.adapt, held, Bool.true_or, if_pos rfl]

theorem State.adapt_of_free (free : s.b (F.LANE_EQ_HOLD n) = false) (thawed : s.b (F.LANE_EQ_FROZEN n) = false) :
    s.adapt n ctle dfe = s.equalised n ctle dfe := by
  rw [State.adapt, free, thawed]
  rfl

end

section

variable {s u : State} {n : Fin 32} {i : Nat} {ctle : BitVec 4} {dfe : BitVec 30} (alive : s.alive = true) (mine : s.lanePort n = some i)
  (settings : s.adapt n ctle dfe = u)
include alive mine settings

/-- In EQ a lane that has converged, or whose adaptation is held, sends DONE (R320, R327). -/
theorem exec_eqConverged_of_eq (state : s.lst n = 5) (done : s.b (F.LANE_EQ_HOLD n) = true ∨ s.b (F.LANE_EQ_FROZEN n) = false) :
    exec (.eqConverged n ctle dfe) s = .next ((u.setLane n { u.lane n with done := true }).tryUp i) := by
  subst settings
  change execEqConverged n ctle dfe s = _
  rw [execEqConverged, act_alive _ _ alive]
  rw [← Bool.not_eq_true'] at done
  simp only [mine, state, done]
  rfl

theorem exec_eqConverged_of_up (state : s.lst n = 6) : exec (.eqConverged n ctle dfe) s = .next u := by
  subst settings
  change execEqConverged n ctle dfe s = _
  rw [execEqConverged, act_alive _ _ alive]
  simp only [mine, state, if_true]

end

theorem exec_groutSend_of_sending {s : State} {n : Fin 32} {i : Nat} (alive : s.alive = true) (mine : s.lanePort n = some i)
    (sends : (s.sending i).contains n.val = true) : exec (.groutSend n) s = .next (s.each (s.sending i) (State.sendGrout i)) := by
  change execGroutSend n s = _
  rw [execGroutSend, act_alive _ _ alive]
  simp only [mine, sends, State.when_true]

/-! ### QUAD_CTL -/

section

variable {s : State} {r : Req} {q : Fin 8} {v : Word} (h : s.takes r (R.QUAD_CTL q))
include h

omit h in
theorem exec_quadCtlWrite : exec (.quadCtlWrite r q v) s = act (quadCtl r q v) s := rfl

omit h in
/-- A write of QUAD_CTL that carries a RETRAIN bit has a row of its own (R330). -/
theorem exec_portRetrain : exec (.portRetrain r q v) s = act (quadCtl r q v) s := rfl

theorem act_quadCtl_of_stop {st : Status} (stop : s.quadStop q v = some st) : act (quadCtl r q v) s = .next (s.fin st) := by
  refine (act_regWrite_of_takes h _).trans ?_
  simp only [stop]

/-- A legal write that takes no role from a port: both ports then act on their roles and RETRAIN bits, and a quad whose ports are both OFF has
lost its PLL (R309, R330, R458). -/
theorem act_quadCtl_of_kept (legal : s.quadStop q v = none) (kept0 : s.role (2 * q.val) = 0 ∨ bits v.toNat 13 12 = s.role (2 * q.val))
    (kept1 : s.role (2 * q.val + 1) = 0 ∨ bits v.toNat 15 14 = s.role (2 * q.val + 1)) :
    act (quadCtl r q v) s = .next
      ((((((s.setW (R.QUAD_CTL q) (v &&& 0x0003FF07)).when (bits v.toNat 15 12 == 0) fun s => s.setF (F.QUAD_STAT_PLL_LOCK q) 0).roleWritten
        (2 * q.val) (s.role (2 * q.val)) (wbit v 24)).roleWritten (2 * q.val + 1) (s.role (2 * q.val + 1)) (wbit v 25))).fin .ok) := by
  have stays0 : (s.role (2 * q.val) != 0 && bits v.toNat 13 12 != s.role (2 * q.val)) = false := by
    rcases kept0 with e | e <;> simp [e]
  have stays1 : (s.role (2 * q.val + 1) != 0 && bits v.toNat 15 14 != s.role (2 * q.val + 1)) = false := by
    rcases kept1 with e | e <;> simp [e]
  refine (act_regWrite_of_takes h _).trans ?_
  simp only [legal, stays0, stays1, State.when_false]

end

/-- Settles O54: each clause is one branch of its command, chosen by the lane's state, by what ORDER knows, or by the roles. -/
theorem lanesTrain : Obligations.LanesTrain := by
  intro s r q v st syms n p i ts x first own ctle dfe js c rev p0 base off mine u took alive
  refine ⟨exec_detectDone_of_signal alive, exec_detectDone_of_los alive, exec_trainingSet_of_align alive rfl,
    exec_trainingSet_of_polarity alive rfl, fun mine state valid => ?order, fun mine state valid => ?rate, fun mine state valid => ?eq,
    fun mine state valid earlier => ?up, fun mine low _ invalid => ?invalid, fun trained unfit => ?unfit, State.partnerMap_of_widths,
    fun trained fits decides chosen => ?chosen, fun trained fits down early few => ?waits, fun trained fits nothing passed => ?nothing,
    exec_trainTimeout_of_order alive, fun mine state => exec_trainTimeout_of_cause alive mine (by simp [state]),
    fun mine state => exec_trainTimeout_of_cause alive mine (by simp [state]), fun mine state bad => ?timeRole,
    fun mine state good => ?timeRate, fun mine state => exec_trainTimeout_of_cause alive mine (by simp [state]), exec_backoffExpire alive p,
    fun mine state free thawed => exec_eqConverged_of_eq alive mine (State.adapt_of_free free thawed) state (.inr thawed),
    fun mine state held => exec_eqConverged_of_eq alive mine (State.adapt_of_held held) state (.inl held),
    fun mine state free thawed => exec_eqConverged_of_up alive mine (State.adapt_of_free free thawed) state,
    exec_groutSend_of_sending alive, fun state long => (act_alive _ _ alive).trans (congrArg _ (if_pos ⟨state, long⟩)),
    fun tk stop => exec_quadCtlWrite.trans (act_quadCtl_of_stop tk stop), fun tk legal off0 off1 on => ?roles,
    fun tk legal off0 off1 off => ?bothOff, fun tk legal same0 same1 on => ?retrain⟩
  case order => rw [exec_trainingSet_of_valid alive rfl mine state valid, State.tsValid_of_order state]
  case rate => rw [exec_trainingSet_of_valid alive rfl mine state valid, State.tsValid_of_rate state]
  case eq => rw [exec_trainingSet_of_valid alive rfl mine state valid, State.tsValid_of_eq state]
  case up => rw [exec_trainingSet_of_valid alive rfl mine state valid, State.tsValid_of_up state earlier]
  case invalid =>
    obtain ⟨k, state⟩ := Nat.exists_eq_add_of_le' low
    exact exec_trainingSet_of_invalid alive rfl mine state invalid
  case unfit => rw [exec_orderDecide alive, State.orderDecide_of_error trained unfit]
  case chosen =>
    have decides' : s.role p ≠ 2 ∨ s.orderUp p first own = true ∨ 2 ^ s.widthCode p ≤ (s.lanesIn p 3).length := by
      by_cases down : s.role p = 2
      · rwa [State.orderUp_of_down down, decide_eq_true_eq]
      · exact .inl down
    rw [exec_orderDecide alive, State.orderDecide_of_chosen trained fits decides' chosen]
  case waits =>
    rw [exec_orderDecide alive, State.orderUp_of_down down, decide_eq_false (Nat.not_le.mpr early), State.orderDecide_of_wait trained fits down few]
  case nothing => rw [exec_orderDecide alive, State.orderUp_of_passed passed, State.orderDecide_of_none trained fits nothing]
  case timeRole => rw [exec_trainTimeout_of_rate alive mine state, if_pos bad]
  case timeRate => rw [exec_trainTimeout_of_rate alive mine state, if_neg (by omega)]
  case roles =>
    rw [exec_quadCtlWrite, act_quadCtl_of_kept tk legal (.inl off0) (.inl off1), off0, off1, beq_false_of_ne on]
    rfl
  case bothOff =>
    rw [exec_quadCtlWrite, act_quadCtl_of_kept tk legal (.inl off0) (.inl off1), off0, off1, off]
    rfl
  case retrain =>
    rw [exec_portRetrain, act_quadCtl_of_kept tk legal (.inr same0) (.inr same1), beq_false_of_ne on]
    rfl

end Sys2Proof.Machine
end

section
/-!
PROOFS. Lanes in operation: what takes a port down, grout, slips and errors (R307, R314 to R318, R329, R331), loopback and PRBS (R332 to R335).
-/

namespace Sys2Proof.Machine

theorem exec_laneDown {s : State} (alive : s.alive = true) (p : Fin 16) (cause : Fin 5) :
    exec (.laneDown p cause) s = .next (s.leaveUp p (cause.val + 1) true) :=
  act_alive (fun s => s.leaveUp p (cause.val + 1) true) _ alive

/-! ### LOS -/

section

variable {s : State} {n mv : Nat}

theorem State.losNow_of_low (low : mv < 40 + 10 * s.f (F.LANE_CTL_LOS_THR n)) : s.losNow n mv = true := if_pos low

theorem State.losNow_of_high (high : 40 + 10 * s.f (F.LANE_CTL_LOS_THR n) < mv) : s.losNow n mv = false :=
  (if_neg (Nat.lt_asymm high)).trans (if_pos high)

end

section

variable {s u : State} {n : Fin 32} {mv : Nat} {lol : Bool} (alive : s.alive = true)
  (heard : (s.setF (F.LANE_STAT_LOS n) (b2n (s.losNow n mv))).setF (F.LANE_STAT_LOL n) (b2n lol) = u)
include alive heard

theorem exec_losChange_of_portless (portless : u.lanePort n = none) : exec (.losChange n mv lol) s = .next u := by
  subst heard
  change execLosChange n mv lol s = _
  rw [execLosChange, act_alive _ _ alive]
  simp only [portless]

theorem exec_losChange_of_signal (signal : (s.losNow n mv || lol) = false) : exec (.losChange n mv lol) s = .next u := by
  subst heard
  change execLosChange n mv lol s = _
  rw [execLosChange, act_alive _ _ alive]
  simp only [signal]
  split <;> rfl

section

variable {i : Nat} (mine : u.lanePort n = some i) (loss : (s.losNow n mv || lol) = true)
include mine loss

/-- A lost signal takes down a port that is UP (R329). -/
theorem exec_losChange_of_up (state : u.lst n = 6) : exec (.losChange n mv lol) s = .next (u.leaveUp i 1 true) := by
  subst heard
  change execLosChange n mv lol s = _
  rw [execLosChange, act_alive _ _ alive]
  simp only [mine, loss, state]
  rfl

/-- A lost signal fails a port that trains (R327). -/
theorem exec_losChange_of_training (low : 1 ≤ u.lst n) (high : u.lst n ≤ 5) : exec (.losChange n mv lol) s = .next (u.failPort i 9) := by
  subst heard
  change execLosChange n mv lol s = _
  rw [execLosChange, act_alive _ _ alive]
  simp only [mine, loss, if_neg (Nat.ne_of_lt (Nat.lt_succ_of_le high)), if_pos (And.intro low high)]
  rfl

end

end

/-! ### The PLL of a quad -/

/-- What a port does as its quad's PLL loses lock (R307). -/
def State.pllLost (s : State) (p : Nat) : State :=
  if s.portUp p then s.leaveUp p 5 true else if s.pstate p = 1 then s.toDetect p false else s

section

variable {s : State} {q : Fin 8} (alive : s.alive = true) (on : s.lanesOn = true)
include alive on

theorem exec_qpllLoss_of_lanesOn (refclk : Bool) :
    exec (.qpllLoss q refclk) s = .next
      ((((s.setF (F.QUAD_STAT_PLL_LOCK q) 0).setF (F.QUAD_STAT_REFCLK_OK q) (b2n refclk)).each [2 * q.val, 2 * q.val + 1] State.pllLost).raiseBit
        (R.QUAD_EVT q) 4 0x0806 q 0) := by
  change execQpllLoss q refclk s = _
  rw [execQpllLoss, act_alive _ _ alive]
  simp only [on]
  rfl

theorem exec_quadPllLock_of_lanesOn :
    exec (.quadPllLock q) s = .next
      (if s.quadOn q then (s.setF (F.QUAD_STAT_PLL_LOCK q) 1).setF (F.QUAD_STAT_REFCLK_OK q) 1 else s) := by
  change execQuadPllLock q s = _
  rw [execQuadPllLock, act_alive _ _ alive]
  simp only [on, Bool.true_and]

end

theorem State.quadOn_eq_true {s : State} {q : Nat} : s.quadOn q = true ↔ s.role (2 * q) ≠ 0 ∨ s.role (2 * q + 1) ≠ 0 := by
  simp [State.quadOn]

theorem State.quadOn_eq_false {s : State} {q : Nat} : s.quadOn q = false ↔ s.role (2 * q) = 0 ∧ s.role (2 * q + 1) = 0 := by
  simp [State.quadOn]

/-! ### Code errors -/

/-- One error more on a lane that counts: of the code, or of the disparity (R314). -/
theorem State.countBad_one {s : State} {n : Nat} (counts : s.laneCounts n = true) (disp : Bool) :
    s.countBad n [.bad disp] =
      ((s.bump (F.LANE_ERR_CODE n) (b2n !disp)).bump (F.LANE_ERR_DISP n) (b2n disp)).setF (F.LANE_EVT_CODE_ERR n) 1 := by
  cases disp <;> simp only [State.countBad, counts] <;> rfl

theorem State.sendBack_of_near {s : State} {n : Nat} (near : s.farEnd n = false) (ys : List Sym) : s.sendBack n ys = s := by
  rw [State.sendBack, near, State.when_false]

section

variable {s : State} {n : Fin 32} (alive : s.alive = true) (l : LineIn)
include alive

theorem exec_codeError_of_nearEnd (inside : s.nearEnd n = true) : exec (.codeError n l) s = .next s := by
  change execCodeError n l s = _
  rw [execCodeError, act_alive _ _ alive]
  simp only [inside, if_true]

/-- One group from outside that is an error is counted, and is no data (R314, R320). -/
theorem exec_codeError_of_one {disp : Bool} {u : State} (counts : s.laneCounts n = true) (outside : s.nearEnd n = false)
    (word : readLine (s.b (F.LANE_STAT_RX_INV n)) l.neg l.groups = [.bad disp])
    (counted : ((s.bump (F.LANE_ERR_CODE n) (b2n !disp)).bump (F.LANE_ERR_DISP n) (b2n disp)).setF (F.LANE_EVT_CODE_ERR n) 1 = u)
    (near : u.farEnd n = false) : exec (.codeError n l) s = .next u := by
  have undata : u.thawLane n [.bad disp] = u := rfl
  change execCodeError n l s = _
  rw [execCodeError, act_alive _ _ alive]
  simp only [word, outside, State.countBad_one counts, counted, undata, State.sendBack_of_near near]
  rfl

end

/-! ### Grout and the elastic buffer -/

/-- A lane at a grout set: its elastic buffer adjusted, and its adaptation resumed where data came before the set (R316, R317, R320). -/
def State.atGrout (s : State) (n : Nat) (data : Bool) (fill : Nat) : State :=
  if data then (s.ebAdjust n fill).setF (F.LANE_EQ_FROZEN n) 0 else s.ebAdjust n fill

section

variable {s e : State} {n : Fin 32} {g : GroutAt} {data : Bool} {fill : Fin 33} (alive : s.alive = true)
include alive

theorem exec_groutReceive_of_nearEnd (inside : s.nearEnd n = true) : exec (.groutReceive n g data fill) s = .next s := by
  change execGroutReceive n g data fill s = _
  rw [execGroutReceive, act_alive _ _ alive]
  simp only [inside, Bool.or_true, if_true]

/-- In UP a set is held to the place of the one before it, and the lane to the others of its port (R318, R324). -/
theorem exec_groutReceive_of_up {i m : Nat} {got : State} (on : s.lst n ≠ 7) (outside : s.nearEnd n = false) (adjusted : s.atGrout n data fill = e)
    (near : e.farEnd n = false) (mine : e.lanePort n = some i) (state : e.lst n = 6)
    (misses : (if 1022 ≤ g.dist ∧ g.dist ≤ 1026 then 0 else (s.lane n).miss + 1) = m)
    (noted : e.setLane n { e.lane n with miss := m, late := g.late } = got) :
    exec (.groutReceive n g data fill) s = .next
      (if m = 4 then got.leaveUp i 2 true else if !got.skewOk (got.lanesIn i 6) then got.leaveUp i 3 true else got) := by
  have thawed : ((s.ebAdjust n fill).when data fun s => s.thawLane n [.d 0]) = e := by rw [← adjusted]; cases data <;> rfl
  have unsent (k : Nat) : e.groutBack n k = e := by rw [State.groutBack, near, State.when_false]
  have hears : ((s.lst n == 7 && s.f (F.LANE_CTL_LB n) == 0) || s.nearEnd n) = false := by
    rw [outside, beq_false_of_ne on, Bool.false_and, Bool.or_self]
  change execGroutReceive n g data fill s = _
  rw [execGroutReceive, act_alive _ _ alive]
  simp only [hears, thawed, unsent, mine, state, misses, noted, ne_eq, not_true_eq_false, Bool.false_eq_true, if_false]

/-- A slip empties the elastic buffer (R317). -/
theorem exec_ebSlip_of_first {slip : State} (on : s.lst n ≠ 7) (first : s.b (F.LANE_EVT_EB_SLIP n) = false)
    (emptied : ((s.setLane n { s.lane n with slipped := true }).setF (F.LANE_EB_FILL n) 0).bump (F.LANE_EB_SLIP n) 1 = slip) :
    exec (.ebSlip n) s = .next (slip.raiseBit (R.LANE_EVT n) 2 0x0803 n 0) := by
  subst emptied
  change execEbSlip n s = _
  rw [execEbSlip, act_alive _ _ alive]
  simp only [beq_false_of_ne on, first, Bool.false_and, Bool.false_eq_true, if_false]

end

/-! ### LANE_CTL -/

section

variable {s : State} {r : Req} {n : Fin 32} {v : Word} (h : s.takes r (R.LANE_CTL n)) (tx : bits v.toNat 15 12 ≤ 12) (rx : bits v.toNat 11 8 ≤ 12)
include h tx rx

/-- A write whose equaliser settings are in range: a lane in use takes no loopback, and a change of LB starts the lane afresh (R332). -/
theorem exec_laneCtlWrite_of_range :
    exec (.laneCtlWrite r n v) s = .next
      (if bits v.toNat 5 4 ≠ 0 ∧ s.laneBusy n then s.fin .busy
      else ((s.when (bits v.toNat 5 4 != s.f (F.LANE_CTL_LB n)) fun s => s.setLane n { s.lane n with tx := [], txNeg := true, rxNeg := true }).setW
        (R.LANE_CTL n) (v &&& 0x000FFF31)).fin .ok) :=
  (act_regWrite_of_takes h _).trans (congrArg _ (if_neg (not_or.mpr ⟨Nat.not_lt.mpr tx, Nat.not_lt.mpr rx⟩)))

theorem exec_laneCtlWrite_of_busy (loops : bits v.toNat 5 4 ≠ 0) (busy : s.laneBusy n = true) :
    exec (.laneCtlWrite r n v) s = .next (s.fin .busy) := by
  rw [exec_laneCtlWrite_of_range h tx rx, if_pos ⟨loops, busy⟩]

variable (idle : s.laneBusy n = false)
include idle

theorem exec_laneCtlWrite_of_same (same : bits v.toNat 5 4 = s.f (F.LANE_CTL_LB n)) :
    exec (.laneCtlWrite r n v) s = .next ((s.setW (R.LANE_CTL n) (v &&& 0x000FFF31)).fin .ok) := by
  rw [exec_laneCtlWrite_of_range h tx rx, idle, if_neg (fun e => Bool.false_ne_true e.2), bne_eq_false_iff_eq.mpr same, State.when_false]

theorem exec_laneCtlWrite_of_change (change : bits v.toNat 5 4 ≠ s.f (F.LANE_CTL_LB n)) :
    exec (.laneCtlWrite r n v) s = .next
      (((s.setLane n { s.lane n with tx := [], txNeg := true, rxNeg := true }).setW (R.LANE_CTL n) (v &&& 0x000FFF31)).fin .ok) := by
  rw [exec_laneCtlWrite_of_range h tx rx, idle, if_neg (fun e => Bool.false_ne_true e.2), bne_iff_ne.mpr change, State.when_true]

end

/-! ### PRBS -/

theorem State.lineBits_of_outside {s : State} {q : Nat} (outside : s.nearEnd (4 * q) = false) (bs : List Bool) :
    s.lineBits q bs = s.checkBits q bs := by
  rw [State.lineBits, outside, if_neg Bool.false_ne_true]

theorem State.lineBits_of_nearEnd {s : State} {q : Nat} (inside : s.nearEnd (4 * q) = true) (bs : List Bool) : s.lineBits q bs = s :=
  if_pos inside

section

variable {s : State} {q : Fin 8} (alive : s.alive = true) (bs : List Bool)
include alive

theorem exec_prbsLock : exec (.prbsLock ⟨q, bs⟩) s = .next (s.lineBits q bs) := act_alive (fun s => s.lineBits q bs) _ alive

theorem exec_prbsLockLost (bs2 : List Bool) : exec (.prbsLockLost q bs bs2) s = .next (s.lineBits q (bs ++ bs2)) :=
  act_alive (fun s => s.lineBits q (bs ++ bs2)) _ alive

end

/-! ### PRBS_CTL -/

/-- The injections that a write of PRBS_CTL asks for, INJ1 before INJB (R335). -/
def injections (v : Word) : List Nat := (if wbit v 8 then [1] else []) ++ if wbit v 9 then [bits v.toNat 23 16] else []

theorem injections_of_none {v : Word} (one : wbit v 8 = false) (burst : wbit v 9 = false) : injections v = [] := by
  rw [injections, one, burst]
  rfl

theorem injections_of_inj1 {v : Word} (burst : wbit v 9 = false) : injections (v ||| 0x100) = [1] := by
  rw [injections, wbit_or_of_set rfl, (wbit_or_of_clear rfl).trans burst]
  rfl

theorem injections_of_injb {v : Word} (one : wbit v 8 = false) : injections (v ||| 0x200) = [bits v.toNat 23 16] := by
  rw [injections, (wbit_or_of_clear rfl).trans one, wbit_or_of_set rfl, bits_or_of_clear rfl]
  rfl

section

variable {s : State} {r : Req} {q : Fin 8} {v : Word} (h : s.takes r (R.PRBS_CTL (4 * q.val)))
include h

omit h in
theorem exec_prbsCtlWrite : exec (.prbsCtlWrite r q v) s = act (prbsCtl r q v) s := rfl

omit h in
/-- INJ1 and INJB are writes of PRBS_CTL with a row of their own (R335). -/
theorem exec_inj1 : exec (.inj1 r q v) s = act (prbsCtl r q (v ||| 0x100)) s := rfl

omit h in
theorem exec_injb : exec (.injb r q v) s = act (prbsCtl r q (v ||| 0x200)) s := rfl

theorem act_prbsCtl_of_stop {c : Status} (stop : s.prbsStop (4 * q.val) v = some c) : act (prbsCtl r q v) s = .next (s.fin c) := by
  refine (act_regWrite_of_takes h _).trans ?_
  simp only [stop]

section

variable (legal : s.prbsStop (4 * q.val) v = none)
include legal

/-- CHK_EN written again to a checker that runs clears its counts, and the lock stays (R334). -/
theorem act_prbsCtl_of_recount (none_ : injections v = []) (gen : wbit v 0 = false) (chk : wbit v 1 = true)
    (running : s.b (F.PRBS_CTL_CHK_EN (4 * q.val)) = true) :
    act (prbsCtl r q v) s = .next
      ((((s.setW (R.PRBS_CTL (4 * q.val)) (v &&& 0x00FF0073)).setW (R.PRBS_ERR (4 * q.val)) 0).setTwo (R.PRBS_BITS (4 * q.val)) 0).fin .ok) := by
  rw [injections] at none_
  refine (act_regWrite_of_takes h _).trans ?_
  simp only [legal, none_, gen, chk, running, bne_self_eq_false, Bool.and_false, Bool.not_true, Bool.or_self, State.when_false, State.when_true]

/-- A generator that runs takes an injection; CHK_EN = 0 stops the checker (R333 to R335). -/
theorem act_prbsCtl_of_injection {j : Nat} (asked : injections v = [j]) (chk : wbit v 1 = false)
    (running : s.b (F.PRBS_CTL_GEN_EN (4 * q.val)) = true) :
    act (prbsCtl r q v) s = .next
      (((((s.setF (F.PRBS_STAT_INJ_PEND (4 * q.val)) 1).setPrbs q { s.prbsOf q with inject := [j] }).setW (R.PRBS_CTL (4 * q.val))
        (v &&& 0x00FF0073)).setF (F.PRBS_STAT_LOCK (4 * q.val)) 0).fin .ok) := by
  rw [injections] at asked
  refine (act_regWrite_of_takes h _).trans ?_
  simp only [legal, asked, chk, running]
  rfl

end

end

/-- Settles O55: each clause is one branch of its command, chosen by the signal, the lane's loopback and state, or the bits written. -/
theorem lanesInOperation : Obligations.LanesInOperation := by
  intro s r q n p i dist late mv v lol neg data ref g bs bs2 fill cause c lost low seen e m k misplaced got p0 slip bad word alive
  have lossOf : low → s.losNow n mv = true := State.losNow_of_low
  refine ⟨exec_laneDown alive p cause, fun weak mine state => ?lossUp, fun weak mine above below => ?lossTraining, fun weak portless => ?lossPortless,
    fun strong => ?signal, fun on => exec_qpllLoss_of_lanesOn alive on ref, fun on off0 off1 => ?unpowered, fun on roles => ?locks,
    exec_codeError_of_nearEnd alive _, fun counts outside word => exec_codeError_of_one alive _ counts outside word rfl,
    fun counts outside word => exec_codeError_of_one alive _ counts outside word rfl,
    fun on outside near mine state away fourth => ?fourth, fun on outside near mine state place even => ?inPlace,
    fun on outside near mine state place skewed => ?skewed, exec_groutReceive_of_nearEnd alive,
    fun on first => exec_ebSlip_of_first alive on first rfl, fun tk tx rx loops busy => exec_laneCtlWrite_of_busy tk tx rx loops busy,
    fun tk tx rx idle same => exec_laneCtlWrite_of_same tk tx rx idle same, fun tk tx rx idle change => exec_laneCtlWrite_of_change tk tx rx idle change,
    fun outside => ?lock, fun outside => ?lockLost, fun inside => ?inside, fun tk stop => exec_prbsCtlWrite.trans (act_prbsCtl_of_stop tk stop),
    fun tk legal one burst gen chk running =>
      exec_prbsCtlWrite.trans (act_prbsCtl_of_recount tk legal (injections_of_none one burst) gen chk running),
    fun tk legal burst chk running => ?inj1, fun tk legal one chk running => ?injb⟩
  case lossUp => exact exec_losChange_of_up alive (by rw [lossOf weak]; rfl) mine (by rw [lossOf weak]; rfl) state
  case lossTraining =>
    exact exec_losChange_of_training alive (by rw [lossOf weak]; rfl) mine (by rw [lossOf weak]; rfl) above below
  case lossPortless => exact exec_losChange_of_portless alive (by rw [lossOf weak]; rfl) portless
  case signal =>
    have heard := State.losNow_of_high strong
    exact exec_losChange_of_signal alive (by rw [heard]; rfl) (by rw [heard]; rfl)
  case unpowered => rw [exec_quadPllLock_of_lanesOn alive on, State.quadOn_eq_false.mpr ⟨off0, off1⟩, if_neg Bool.false_ne_true]
  case locks => rw [exec_quadPllLock_of_lanesOn alive on, State.quadOn_eq_true.mpr roles, if_pos rfl]
  case fourth =>
    have misses : (if 1022 ≤ dist ∧ dist ≤ 1026 then 0 else (s.lane n).miss + 1) = m := if_neg (by omega)
    rw [exec_groutReceive_of_up (got := got m) alive on outside rfl near mine state misses rfl, if_pos fourth]
  case inPlace =>
    have misses : (if 1022 ≤ dist ∧ dist ≤ 1026 then 0 else (s.lane n).miss + 1) = 0 := if_pos (by omega)
    rw [exec_groutReceive_of_up (got := got 0) alive on outside rfl near mine state misses rfl, if_neg (Nat.zero_ne_add_one 3), even,
      Bool.not_true, if_neg Bool.false_ne_true]
  case skewed =>
    have misses : (if 1022 ≤ dist ∧ dist ≤ 1026 then 0 else (s.lane n).miss + 1) = 0 := if_pos (by omega)
    rw [exec_groutReceive_of_up (got := got 0) alive on outside rfl near mine state misses rfl, if_neg (Nat.zero_ne_add_one 3), skewed,
      Bool.not_false, if_pos rfl]
  case lock => rw [exec_prbsLock alive, State.lineBits_of_outside outside]
  case lockLost => rw [exec_prbsLockLost alive, State.lineBits_of_outside outside]
  case inside => rw [exec_prbsLock alive, State.lineBits_of_nearEnd inside]
  case inj1 =>
    exact exec_inj1.trans (act_prbsCtl_of_injection tk legal (injections_of_inj1 burst) ((wbit_or_of_clear rfl).trans chk) running)
  case injb =>
    exact exec_injb.trans (act_prbsCtl_of_injection tk legal (injections_of_injb one) ((wbit_or_of_clear rfl).trans chk) running)

end Sys2Proof.Machine
end

section
/-!
PROOFS. The requests READ and WRITE of the link (R351, R353 to R360): what each does in its turn, and how it is answered.
-/

namespace Sys2Proof.Machine

/-! ### A port's link layer -/

@[simp] theorem State.setPort_same (s : State) (p : Nat) (x : Port) : (s.setPort p x).port p = x := Tab.get_set_same ..

theorem State.port_of_ports {s t : State} (same : t.ports = s.ports) (p : Nat) : t.port p = s.port p := by
  rw [State.port, same, State.port]

theorem State.setPort_takes {s : State} {p a : Nat} {x : Port} {r : Req} : (s.setPort p x).takes r a ↔ s.takes r a := Iff.rfl

theorem State.setPort_mapStop (s : State) (p a : Nat) (x : Port) (r : Req) (write : Bool) :
    (s.setPort p x).mapStop r a write = s.mapStop r a write := rfl

/-! ### The turn of a request that is alone on its port (R356 to R358) -/

theorem State.pushReq_of_empty {s : State} {p : Nat} (empty : (s.port p).reqs = []) (r : Reqd) :
    s.pushReq p r = s.setPort p { s.port p with reqs := [r] } := by
  rw [State.pushReq, empty, List.nil_append]

/-- The one request of a port, which no buffer holds, leaves its place (R348). -/
theorem State.popReq_of_single {z : State} {p : Nat} {r : Reqd} (single : (z.port p).reqs = [r]) (unheld : r.held = false) :
    z.popReq p = z.setPort p { z.port p with reqs := [] } := by
  rw [State.popReq, single]
  simp only [unheld, State.when_false]

section

variable {s : State} {p : Fin 16} {op tag : Nat} (alive : s.alive = true) (run : s.mode ≠ 0) (run' : s.mode ≠ 4)
include alive run run'

/-- A request whose effect leaves it outstanding and begins no batch is answered with the completion that the effect left. -/
theorem act_request_of_alone {eff : State → State} {u z : State} (fresh : s.tagsOut.contains tag = false) (empty : (s.port p).reqs = [])
    (up : s.role p ≠ 2) (pushed : s.setPort p { s.port p with reqs := [⟨1, op, tag, false⟩] } = u) (ends : eff u = z)
    (done : u.began z = false) (single : (z.port p).reqs = [⟨1, op, tag, false⟩]) :
    act (request 1 p op tag eff) s = .next (((z.setPort p { z.port p with reqs := [] }).answer p op tag).serve p) := by
  rw [act_alive _ _ alive, request_of_fresh run run' fresh empty up, State.pushReq_of_empty empty, pushed,
    State.runReq_of_done ends done single (Reqd.same_eq_true rfl rfl rfl), State.popReq_of_single single rfl]

theorem act_request_of_outstanding {eff : State → State} (outstanding : s.tagsOut.contains tag = true) (up : s.role p ≠ 2)
    (new : (s.port p).reqs.any (Reqd.same ⟨1, op, tag, false⟩) = false) :
    act (request 1 p op tag eff) s = .next ((s.fin .tag).answer p op tag) := by
  rw [act_alive _ _ alive, request_of_unanswered run run' outstanding up new]

theorem act_request_of_down {eff : State → State} (empty : (s.port p).reqs = []) (down : s.role p = 2) :
    act (request 1 p op tag eff) s = .next (s.misdirect p s.hid) := by
  rw [act_alive _ _ alive, request_of_misdirected run run' empty down]

end

/-! ### The effect of READ (R354) -/

section

variable {u : State} {a c : Word} {n : Nat} (count : bits c.toNat 8 0 = n)
include count

theorem State.readHod_of_stop {e : Status} (stop : rangeStop a.toNat n (bits c.toNat 31 9) 2 0 = some e) : u.readHod [a, c] = u.fin e := by
  simp only [State.readHod, List.length_nil, count, stop]

theorem State.readHod_of_taken {t : State} {ws : List Word} (range : rangeStop a.toNat n (bits c.toNat 31 9) 2 0 = none)
    (map : u.mapStop .host a.toNat false = none) (words : u.readWords .host a.toNat n = (t, ws)) : u.readHod [a, c] = t.finData ws := by
  simp only [State.readHod, List.length_nil, count, range, map, words]

end

theorem State.readWords_one_of_plainReg {a : Nat} (plain : plainReg a) (u : State) (r : Req) :
    u.readWords r a 1 = ((u.plainRead r a).1, [(u.plainRead r a).2]) := by
  simp only [State.readWords, State.readReg_of_plainReg plain]

@[simp] theorem State.setShadows_nv (s : State) (r : Req) (a : Nat) (l : List Word) : (s.setShadows r a l).nv = s.nv := by
  induction l generalizing s a with
  | nil => rfl
  | cons v l ih => exact ih _ _

@[simp] theorem State.setShadows_ports (s : State) (r : Req) (a : Nat) (l : List Word) : (s.setShadows r a l).ports = s.ports := by
  induction l generalizing s a with
  | nil => rfl
  | cons v l ih => exact ih _ _

theorem State.plainRead_nv (s : State) (r : Req) (a : Nat) : (s.plainRead r a).1.nv = s.nv := by
  rw [State.plainRead_fst]
  split <;> simp

theorem State.plainRead_ports (s : State) (r : Req) (a : Nat) : (s.plainRead r a).1.ports = s.ports := by
  rw [State.plainRead_fst]
  split <;> simp

/-! ### The effect of WRITE (R355) -/

/-- Where the words of a WRITE may go: one word anywhere, several within one memory (R355). -/
def writeFits (a n : Nat) : Prop := n ≤ 1 ∨ ∃ b e, bulkOf a = some (b, e) ∧ a + 4 * n ≤ e

section

variable {u : State} {a c v : Word} {vs : List Word} {n : Nat} {t1 : State} (count : bits c.toNat 8 0 = n)
  (range : rangeStop a.toNat n (bits c.toNat 31 9) (3 + vs.length) n = none) (fits : writeFits a.toNat n)
  (first : u.writeReg .host a.toNat v = t1)
include count range fits first

/-- Of a WRITE that passes its checks, the first word decides whether the others follow. -/
theorem State.writeHod_of_fits :
    u.writeHod (a :: c :: v :: vs) = if u.began t1 ∨ t1.cpl.status ≠ .ok then t1
      else match t1.writeWords .host (a.toNat + 4) vs with
        | (t2, .ok) => t2.fin .ok
        | (_, e) => u.fin e := by
  have length : 2 + (vs.length + 1) = 3 + vs.length := by omega
  have inside : ¬(1 < n ∧ (!match bulkOf a.toNat with
      | some (_, e) => decide (a.toNat + 4 * n ≤ e)
      | none => false) = true) := by
    rintro ⟨several, outside⟩
    obtain one | ⟨b, e, bulk, within⟩ := fits
    · omega
    · simp [bulk, within] at outside
  simp only [State.writeHod, List.length_cons, length, count, range, List.headD_cons, first, List.tail_cons]
  exact if_neg inside

theorem State.writeHod_of_refused (refused : t1.cpl.status ≠ .ok) : u.writeHod (a :: c :: v :: vs) = t1 := by
  rw [State.writeHod_of_fits count range fits first, if_pos (.inr refused)]

theorem State.writeHod_of_taken {t2 : State} (taken : t1.cpl.status = .ok) (held : u.began t1 = false)
    (others : t1.writeWords .host (a.toNat + 4) vs = (t2, .ok)) : u.writeHod (a :: c :: v :: vs) = t2.fin .ok := by
  have goes : ¬(u.began t1 = true ∨ t1.cpl.status ≠ .ok) := by simp [held, taken]
  rw [State.writeHod_of_fits count range fits first, if_neg goes, others]

end

theorem State.writeReg_EVT_MASK {s : State} {r : Req} (h : s.takes r R.EVT_MASK) (v : Word) :
    s.writeReg r R.EVT_MASK v = (s.store R.EVT_MASK v).fin .ok := plainWrite_of_takes h v

theorem State.store_nv (s : State) (a : Nat) (v : Word) : (s.store a v).nv = s.nv := by
  rw [State.store]
  split <;> rfl

theorem State.store_ports (s : State) (a : Nat) (v : Word) : (s.store a v).ports = s.ports := by
  rw [State.store]
  split <;> rfl

/-- The event mask takes a WRITE of its one word (R362). -/
theorem State.writeHod_EVT_MASK {u : State} (h : u.takes .host R.EVT_MASK) (v : Word) :
    u.writeHod [BitVec.ofNat 32 R.EVT_MASK, 1, v] = (u.store R.EVT_MASK v).fin .ok := by
  have address : (BitVec.ofNat 32 R.EVT_MASK).toNat = R.EVT_MASK := rfl
  have range : rangeStop (BitVec.ofNat 32 R.EVT_MASK).toNat 1 (bits (1 : Word).toNat 31 9) 3 1 = none := by decide
  have write : u.writeReg .host (BitVec.ofNat 32 R.EVT_MASK).toNat v = (u.store R.EVT_MASK v).fin .ok := by
    rw [address, State.writeReg_EVT_MASK h]
  have held : u.began ((u.store R.EVT_MASK v).fin .ok) = false := State.began_of_nv (u.store_nv _ v)
  exact State.writeHod_of_taken (n := 1) (t2 := (u.store R.EVT_MASK v).fin .ok) rfl range (.inl le_rfl) write rfl held rfl

/-! ### The commands READ and WRITE -/

theorem exec_read (p : Fin 16) (tag : BitVec 7) (ws : List Word) (s : State) :
    exec (.read p tag ws) s = act (request 1 p 0 tag.toNat fun s => s.readHod ws) s := rfl

theorem exec_write (p : Fin 16) (tag : BitVec 7) (ws : List Word) (s : State) :
    exec (.write p tag ws) s = act (request 1 p 1 tag.toNat fun s => s.writeHod ws) s := rfl

/-- Settles O29: a request that is alone on its port is answered at once with what its effect, READ's or WRITE's, leaves; an outstanding tag and a DOWN
port are met before the effect. -/
theorem readAndWriteTransactions : Obligations.ReadAndWriteTransactions := by
  intro s t2 p tag a c v vs e n r u gone answers held read one t1 free alive run run'
  have turn {op : Nat} {eff : State → State} {z : State} (h : free) (ends : eff (u op) = z) (kept : held op z) :
      act (request 1 p op tag.toNat eff) s = answers op z := by
    obtain ⟨fresh, empty, up⟩ := h
    obtain ⟨done, single⟩ := kept
    exact act_request_of_alone alive run run' fresh empty up rfl ends done single
  have untouched {op : Nat} {z : State} (nv : z.nv = (u op).nv) (ports : z.ports = (u op).ports) : held op z :=
    ⟨State.began_of_nv nv, by rw [State.port_of_ports ports, State.setPort_same]⟩
  rw [exec_read, exec_write, exec_write, exec_write]
  refine ⟨fun h range map kept => turn h (State.readHod_of_taken rfl range map rfl) kept, fun h single range map plain => ?register,
    fun h single range ok kept => turn h (State.writeHod_of_taken single range (.inl le_rfl) rfl ok kept.1 rfl) kept,
    fun h single range refused kept => turn h (State.writeHod_of_refused single range (.inl le_rfl) rfl refused) kept,
    fun h single takes => ?eventMask,
    fun h range bulk ok began others kept => turn h (State.writeHod_of_taken rfl range (.inr bulk) rfl ok began others) kept,
    fun h stop => turn h (State.readHod_of_stop rfl stop) (untouched rfl rfl),
    fun up outstanding new => act_request_of_outstanding alive run run' outstanding up new,
    fun empty down => ⟨act_request_of_down alive run run' empty down, act_request_of_down alive run run' empty down⟩⟩
  case register =>
    exact turn h (State.readHod_of_taken single range ((s.setPort_mapStop ..).trans map) (State.readWords_one_of_plainReg plain _ .host))
      (untouched ((u 0).plainRead_nv ..) ((u 0).plainRead_ports ..))
  case eventMask =>
    subst single
    exact turn h (State.writeHod_EVT_MASK (State.setPort_takes.mpr takes) v) (untouched ((u 1).store_nv ..) ((u 1).store_ports ..))

end Sys2Proof.Machine
end

section
/-!
PROOFS. LINK hods, the timers of the link layer, the events that leave, and LINK_CFG (R345 to R349, R352, R362, R364).
-/

namespace Sys2Proof.Machine

/-! ### LINK (R345 to R348) -/

/-- The link layer of a port once a LINK hod has named the last entry that the partner has, and its limits (R346, R348). -/
def Port.told (x : Port) (last : Nat) (lim : Tab Nat) : Port :=
  { (match ackList last x.replay with
      | some rs => { x with replay := rs, fails := 0 }
      | none => x) with gotLink := true, lim := lim }

section

variable {s : State} {p : Fin 16} (alive : s.alive = true) (up : s.portUp p = true)
include alive up

section

variable (seq : BitVec 12) (l0 l1 l2 l3 : BitVec 16) {lim : Tab Nat}
  (limits : setCnt (setCnt (setCnt (setCnt [] 0 l0.toNat) 1 l1.toNat) 2 l2.toNat) 3 l3.toNat = lim)
include limits

theorem exec_link_of_ack : exec (.link p false seq l0 l1 l2 l3) s =
    .next (((s.thaw p).setPort p (((s.thaw p).port p).told seq.toNat lim)).pump p) := by
  change execLink p false seq l0 l1 l2 l3 s = _
  rw [execLink, act_alive _ _ alive]
  simp only [up, limits, Bool.not_true, Bool.false_eq_true, if_false]
  rfl

/-- A NAK resends before the hods that wait may leave. -/
theorem exec_link_of_nak : exec (.link p true seq l0 l1 l2 l3) s =
    .next ((((s.thaw p).setPort p (((s.thaw p).port p).told ((seq.toNat + 4095) % 4096) lim)).resend p).pump p) := by
  change execLink p true seq l0 l1 l2 l3 s = _
  rw [execLink, act_alive _ _ alive]
  simp only [up, limits, Bool.not_true, Bool.false_eq_true, if_false, if_true]
  rfl

end

/-! ### The timers (R344, R346) -/

theorem exec_linkHodSend_of_up : exec (.linkHodSend p) s = .next (s.sendLink p false) :=
  (act_alive _ _ alive).trans (congrArg _ (if_pos up))

theorem exec_replayTimeout_of_up : exec (.replayTimeout p) s = .next (s.resend p) :=
  (act_alive _ _ alive).trans (congrArg _ (if_pos up))

theorem exec_linkSilent_of_up : exec (.linkSilent p) s = .next ((s.leaveUp p 6 false).raiseBit R.LINK_EVT 3 0x0904 p 0) :=
  (act_alive _ _ alive).trans (congrArg _ (if_pos up))

end

/-! ### EVENT (R349, R362) -/

/-- An EVENT hod of this hub (R362). -/
def State.eventHod (s : State) (ws : List Word) : Hod :=
  { typ := 3, vc := 0, flags := 0, hid := s.hid, sub := 0, lseq := 0, payload := ws }

theorem State.eventDue_of_credit {s : State} (queued : s.evtq ≠ []) (role : s.role s.primary = 1) (credit : s.canSend s.primary 0 = true) :
    s.eventDue s.primary = true := by
  simp [State.eventDue, queued, role, credit]

theorem exec_eventHodSend_of_due {s : State} {ws : List Word} {q : List EvtHod} (alive : s.alive = true) (queue : s.evtq = ws :: q)
    (due : s.eventDue s.primary = true) (first : s.before s.primary = false) :
    exec .eventHodSend s = .next (({ s with evtq := q }.sendHod s.primary 0 (s.eventHod ws)).eventGone s.primary) := by
  change execEventHodSend s = _
  rw [execEventHodSend, act_alive _ _ alive]
  simp only [queue, due, first, Bool.not_false, Bool.and_self, if_true, State.eventHod]

/-! ### LINK_CFG (R364) -/

/-- A new primary port is taken while neither port is UP; there is no second one. -/
theorem exec_linkCfgWrite_of_taken {s : State} {r : Req} {v : Word} (h : s.takes r R.LINK_CFG) (timer : bits v.toNat 23 16 ≠ 0)
    (role : s.role (bits v.toNat 3 0) = 1) (single : wbit v 12 = false) (oldDown : s.portUp s.primary = false)
    (newDown : s.portUp (bits v.toNat 3 0) = false) :
    exec (.linkCfgWrite r v) s = .next (((s.setW R.LINK_CFG (v &&& 0x00FF1F0F)).movePrimary s.primary).fin .ok) := by
  have legal : ¬(bits v.toNat 23 16 = 0 ∨ s.role (bits v.toNat 3 0) ≠ 1 ∨
      (wbit v 12 = true ∧ (s.role (bits v.toNat 11 8) ≠ 1 ∨ bits v.toNat 11 8 = bits v.toNat 3 0))) := by
    simp [timer, role, single]
  have idle : ¬(bits v.toNat 3 0 ≠ s.primary ∧ (s.portUp s.primary = true ∨ s.portUp (bits v.toNat 3 0) = true)) := by
    simp [oldDown, newDown]
  change execLinkCfgWrite r v s = _
  rw [execLinkCfgWrite, act_regWrite_of_takes h]
  dsimp only
  rw [if_neg legal, if_neg idle]

/-- Settles O34: what each command of the link layer does on a port that is UP, and LINK_CFG while neither primary port is. -/
theorem linkControl : Obligations.LinkControl := by
  intro s p seq l0 l1 l2 l3 r v ws q x lim told
  exact ⟨fun alive up => exec_link_of_ack alive up seq l0 l1 l2 l3 rfl, fun alive up => exec_link_of_nak alive up seq l0 l1 l2 l3 rfl,
    exec_linkHodSend_of_up, exec_replayTimeout_of_up, exec_linkSilent_of_up,
    fun alive queue role credit first =>
      exec_eventHodSend_of_due alive queue (State.eventDue_of_credit (queue ▸ List.cons_ne_nil ws q) role credit) first,
    exec_linkCfgWrite_of_taken⟩

end Sys2Proof.Machine
end

section
/-!
PROOFS. What holds of every step and of the state after reset: the command at the front of the queue, its completion, and the reset state.
-/

namespace Sys2Proof.Machine

/-- Settles O1: a step takes the front of the queue by its definition. -/
theorem stepRunsTheFrontCommand : Obligations.StepRunsTheFrontCommand := fun _ _ _ => rfl

/-- Settles O3: every command answers a next state that keeps the queue. -/
theorem everyCommandCompletesAndLeavesTheQueue : Obligations.EveryCommandCompletesAndLeavesTheQueue := by
  intro c s
  obtain ⟨t, next, keeps⟩ := exec_next c s
  exact ⟨t, next, keeps.queue⟩

/-- After reset no register is listed, so each reads its reset value. -/
theorem State.reset_w (a : Nat) : State.reset.w a = resetWord a := rfl

/-- Settles O5: after reset every table is empty, so that it is canonical and each register reads its reset value. -/
theorem resetIsCanonicalAndHasReleasePending : Obligations.ResetIsCanonicalAndHasReleasePending := by
  have mode : State.reset.mode = 1 := by
    change bits (resetWord F.MODE_MODE.addr).toNat _ _ = 1
    decide
  exact ⟨rfl, ⟨rfl, rfl⟩, rfl, rfl, State.reset_w, mode, rfl, rfl, rfl, rfl⟩

end Sys2Proof.Machine
end

section
/-!
PROOFS. The exchange of TIME hods, PROBEs and the stamp queues (R371 to R376, R378, R379, R381).
-/

namespace Sys2Proof.Machine

theorem exec_tReqSend_of_upstream {s : State} (alive : s.alive = true) (upstream : s.f F.TIME_CTL_SRC = 2) (role : s.role s.primary = 1)
    (credit : s.canTime s.primary = true) (t1 : Nat) :
    exec (.tReqSend false t1) s = .next ((s.setXch s.primary { s.xch s.primary with
        tsid := ((s.xch s.primary).tsid + 1) % 256, sent := some ((s.xch s.primary).tsid, s.txStamp s.primary t1) }).sendTime s.primary
      (s.timeHod s.primary 0 (s.xch s.primary).tsid [0]) t1) :=
  (act_alive _ _ alive).trans (congrArg _ (if_pos ⟨upstream, rfl, role, credit⟩))

/-! ### T_REQ (R375) -/

/-- The port as a TIME hod that arrives on it leaves it: its lanes thawed, its buffer free again. -/
abbrev State.timeTaken (s : State) (p : Nat) : State := (s.thaw p).freeBuf p 1

/-- Whether the port's last answer is less than 50 us old (R375). -/
def State.answeredSoon (s : State) (p : Nat) : Bool :=
  match (s.xch p).answered with
  | some t => decide (s.cyc < t + 50000 * nsU)
  | none => false

theorem State.answeredSoon_of_none {s : State} {p : Nat} (h : (s.xch p).answered = none) : s.answeredSoon p = false := by
  rw [State.answeredSoon, h]

theorem State.answeredSoon_of_some {s : State} {p t : Nat} (h : (s.xch p).answered = some t) (soon : s.cyc < t + 50000 * nsU) :
    s.answeredSoon p = true := by
  rw [State.answeredSoon, h]
  exact decide_eq_true soon

/-- The T_RESP that answers a T_REQ: the quality and the step count, the receive stamp and the transmit stamp (R375). -/
def State.tRespHod (u : State) (p tsid t2 t3 : Nat) : Hod :=
  u.timeHod p 1 tsid (BitVec.ofNat 32 (u.f F.TT_CNT_STEPS % 256 * 256 + u.f F.TIME_STAT_QUALITY) ::
    (stampWords (u.rxStamp p t2) ++ stampWords t3))

section

variable {s : State} {p : Fin 16} (alive : s.alive = true) (up : s.portUp p = true)
include alive up

theorem exec_tReq_of_served (hid : BitVec 14) (tsid : BitVec 8) (t2 t3 : Nat) (role : (s.timeTaken p).role p = 2)
    (serve : (s.timeTaken p).b F.TT_CTL_SERVE = true) (seeded : (s.timeTaken p).b F.TIME_STAT_SEEDED = true) (live : (s.timeTaken p).live = true)
    (first : s.answeredSoon p = false) :
    exec (.tReq p hid tsid t2 t3) s = .next
      (((s.timeTaken p).setXch p { (s.timeTaken p).xch p with answered := some (s.timeTaken p).cyc }).putTime p
        ((s.timeTaken p).tRespHod p tsid.toNat t2 t3) t3) := by
  change execTReq p hid tsid t2 t3 s = _
  rw [execTReq, act_alive _ _ alive]
  refine congrArg _ ((if_neg (by rw [up]; decide)).trans (if_pos ⟨role, serve, seeded, Or.inr (Or.inl live), ?_⟩))
  exact congrArg (!·) first

theorem exec_tReq_of_soon (hid : BitVec 14) (tsid : BitVec 8) (t2 t3 : Nat) (soon : s.answeredSoon p = true) :
    exec (.tReq p hid tsid t2 t3) s = .next (s.timeTaken p) := by
  change execTReq p hid tsid t2 t3 s = _
  rw [execTReq, act_alive _ _ alive]
  refine congrArg _ ((if_neg (by rw [up]; decide)).trans (if_neg ?_))
  rintro ⟨-, -, -, -, late⟩
  exact absurd ((congrArg (!·) soon).symm.trans late) (by decide)

/-! ### T_RESP (R375, R376) -/

section

variable (parent : (s.timeTaken p).role p = 1)
include parent

theorem exec_tResp_of_unasked (tsid steps : BitVec 8) (q : BitVec 2) (t2 t3 t4 : Nat) (sent : (s.xch p).sent = none) :
    exec (.tResp p tsid steps q t2 t3 t4) s = .next (s.timeTaken p).badResp := by
  change execTResp p tsid steps q t2 t3 t4 s = _
  rw [execTResp, act_alive _ _ alive]
  refine congrArg _ ((if_neg (by rw [up]; decide)).trans ?_)
  dsimp only
  rw [parent, sent]
  rfl

theorem exec_tResp_of_other_tsid {tsid : BitVec 8} (steps : BitVec 8) (q : BitVec 2) (t2 t3 t4 : Nat) {ts t1 : Nat} (sent : (s.xch p).sent = some (ts, t1))
    (other : ts ≠ tsid.toNat) :
    exec (.tResp p tsid steps q t2 t3 t4) s = .next (s.timeTaken p).badResp := by
  change execTResp p tsid steps q t2 t3 t4 s = _
  rw [execTResp, act_alive _ _ alive]
  refine congrArg _ ((if_neg (by rw [up]; decide)).trans ?_)
  dsimp only
  rw [parent, sent]
  exact if_pos other

/-- An answer whose step counts are the first that the hub notes, within 200 us, of the primary parent: a measurement. -/
theorem exec_tResp_of_measured (steps : BitVec 8) (q : BitVec 2) (t2 t3 t4 : Nat) {tsid : BitVec 8} {t1 : Nat} {u2 : State}
    (sent : (s.xch p).sent = some (tsid.toNat, t1)) (unnoted : (s.xch p).steps = none) (short : stampDiff (s.rxStamp p t4) t1 ≤ 200000 * (nsU : Int))
    (noted : (s.timeTaken p).setXch p { s.xch p with steps := some (steps.toNat, (s.timeTaken p).f F.TT_CNT_STEPS) } = u2)
    (upstream : u2.f F.TIME_CTL_SRC = 2) (primary : p = u2.primary) :
    exec (.tResp p tsid steps q t2 t3 t4) s = .next
      ((u2.primaryMeas q.toNat (exchange t1 t2 t3 (s.rxStamp p t4)).1 (exchange t1 t2 t3 (s.rxStamp p t4)).2).tryHold) := by
  change execTResp p tsid steps q t2 t3 t4 s = _
  rw [execTResp, act_alive _ _ alive]
  refine congrArg _ ((if_neg (by rw [up]; decide)).trans ?_)
  have kept : ¬(!true || decide (200000 * (nsU : Int) < stampDiff (s.rxStamp p t4) t1)) = true :=
    ne_true_of_eq_false (decide_eq_false (Int.not_lt.mpr short))
  subst noted
  generalize s.xch p = x at sent unnoted upstream primary ⊢
  obtain ⟨_, _, _, _⟩ := x
  cases sent
  cases unnoted
  dsimp only
  rw [parent]
  exact (if_neg fun h => h rfl).trans ((if_neg kept).trans ((if_neg fun h => h upstream).trans (if_pos primary)))

end

end

/-! ### The loss of the source (R381) -/

theorem exec_srcLost_of_upstream {s : State} (alive : s.alive = true) (awake : s.mode ≠ 0) {t : Nat} (measured : s.servo.measAt = some t)
    (upstream : s.f F.TIME_CTL_SRC = 2) : exec .srcLost s = .next ((s.passTo (t + 16 * s.intv)).srcLost) := by
  change execSrcLost s = _
  rw [execSrcLost, act_alive _ _ alive]
  simp only [measured]
  rw [if_pos ⟨State.sysOn_of_awake awake, upstream⟩]

/-! ### TT_PROBE (R379) -/

section

variable {s : State} {r : Req} {v : Word} (h : s.takes r R.TT_PROBE) (t : Nat)
include h

theorem exec_ttProbe_of_tsid0 (zero : bits v.toNat 7 0 = 0) : exec (.ttProbe r v t) s = .next (s.fin .unsupported) :=
  (act_regWrite_of_takes h _).trans (congrArg _ (if_pos zero))

variable (tsid : bits v.toNat 7 0 ≠ 0)
include tsid

theorem exec_ttProbe_of_down (down : s.portUp (bits v.toNat 27 24) = false) : exec (.ttProbe r v t) s = .next (s.fin .busy) :=
  (act_regWrite_of_takes h _).trans (congrArg _ ((if_neg tsid).trans (if_pos (by rw [down]; rfl))))

theorem exec_ttProbe_of_live (up : s.portUp (bits v.toNat 27 24) = true) (live : s.live = true) :
    exec (.ttProbe r v t) s = .next ((s.putTime (bits v.toNat 27 24) (s.timeHod (bits v.toNat 27 24) 2 (bits v.toNat 7 0) [0]) t).fin .ok) :=
  (act_regWrite_of_takes h _).trans
    (congrArg _ ((if_neg tsid).trans ((if_neg (by rw [up]; decide)).trans (if_neg (by simp [live])))))

end

/-! ### TSQ_POP (R378) -/

theorem exec_tsqPop_of_open {s : State} {r : Req} {p : Fin 16} (alive : s.alive = true) (open_ : s.mapStop r (R.TSQ_POP p) false = none) :
    exec (.tsqPop r p) s = .next (s.tsqPop r p) := by
  change execTsqPop r p s = _
  rw [execTsqPop, act_alive _ _ alive, open_]

theorem State.tsqPop_of_empty {s : State} {p : Nat} (empty : Tab.get (fun _ => []) s.tsq p = []) (r : Req) :
    s.tsqPop r p = (s.setShadows r (R.TSQ_NS p) [0, 0]).finData [0] := by
  rw [State.tsqPop, empty]

theorem State.tsqPop_of_oldest {s : State} {p ts t : Nat} {ex : Bool} {l : List (Bool × Nat × Nat)}
    (oldest : Tab.get (fun _ => []) s.tsq p = (ex, ts, t) :: l) (r : Req) :
    s.tsqPop r p = ((({ s with tsq := Tab.set (fun _ => []) s.tsq p l } : State).setShadows r (R.TSQ_NS p)
      [BitVec.ofNat 32 (t % secU / nsU), BitVec.ofNat 32 (t / secU)]).finData [BitVec.ofNat 32 (2 ^ 31 + b2n ex * 2 ^ 30 + ts * 65536 + t % nsU)]) := by
  rw [State.tsqPop, oldest]

/-- Settles O44: who sends and answers, which answer measures, what TT_PROBE refuses, and what a pop takes. -/
theorem timeExchanges : Obligations.TimeExchanges := by
  intro s r v p hid tsid steps q t1 t2 t3 t4 ts0 t l ex
  exact ⟨fun alive upstream role credit => exec_tReqSend_of_upstream alive upstream role credit t1,
    fun alive up fresh role serve seeded live =>
      exec_tReq_of_served alive up hid tsid t2 t3 role serve seeded live (State.answeredSoon_of_none fresh),
    fun alive up answered soon => exec_tReq_of_soon alive up hid tsid t2 t3 (State.answeredSoon_of_some answered soon),
    fun alive up parent sent => exec_tResp_of_unasked alive up parent tsid steps q t2 t3 t4 sent,
    fun alive up parent sent other => exec_tResp_of_other_tsid alive up parent steps q t2 t3 t4 sent other,
    fun alive up parent sent unnoted short upstream primary =>
      exec_tResp_of_measured alive up parent steps q t2 t3 t4 sent unnoted short rfl upstream primary,
    fun alive awake measured upstream => exec_srcLost_of_upstream alive awake measured upstream,
    fun h => exec_ttProbe_of_tsid0 h t, fun h => exec_ttProbe_of_down h t, fun h => exec_ttProbe_of_live h t,
    fun alive open_ empty => (exec_tsqPop_of_open alive open_).trans (congrArg _ (State.tsqPop_of_empty empty r)),
    fun alive open_ oldest => (exec_tsqPop_of_open alive open_).trans (congrArg _ (State.tsqPop_of_oldest oldest r))⟩

end Sys2Proof.Machine
end

section
/-!
PROOFS. The management port: its frames, the access of the pending request, and the load of a response (R414 to R418).
-/

namespace Sys2Proof.Machine

/-! ### Frames (R415, R416, R418) -/

theorem exec_mgpNop {s : State} (alive : s.alive = true) (f : BitVec 72) (n : Nat) : exec (.mgpNop f n) s = .next (s.mgpFrame f n) :=
  act_alive (fun s => s.mgpFrame f n) s alive

theorem exec_mgpRepeat {s : State} (alive : s.alive = true) (f : BitVec 72) (n : Nat) : exec (.mgpRepeat f n) s = .next (s.mgpFrame f n) :=
  act_alive (fun s => s.mgpFrame f n) s alive

theorem exec_mgpRead {s : State} (alive : s.alive = true) (f : BitVec 72) (n : Nat) : exec (.mgpRead f n) s = .next (s.mgpFrame f n) :=
  act_alive (fun s => s.mgpFrame f n) s alive

theorem exec_mgpWrite {s : State} (alive : s.alive = true) (f : BitVec 72) (n : Nat) : exec (.mgpWrite f n) s = .next (s.mgpFrame f n) :=
  act_alive (fun s => s.mgpFrame f n) s alive

/-- The hub as the rising edge of MSCS_N leaves it. -/
abbrev State.mgpDeselected (s : State) : State := { s with mgp := { s.mgp with sel := false } }

/-- A discarded frame counted in `c`, with the event of bit `i` of MGP_EVT where the bit rises. -/
def State.mgpCounted (s : State) (i code : Nat) (c : Fld) : State :=
  (s.bump c 1).when (!wbit ((s.bump c 1).w R.MGP_EVT) i) fun z => (z.setBit R.MGP_EVT i).raise code 0 0

theorem State.mgpCounted_eq {s : State} {c : Fld} (apart : c.addr ≠ R.MGP_EVT) (i code : Nat) :
    s.mgpCounted i code c = if wbit (s.w R.MGP_EVT) i then s.bump c 1 else (s.bump c 1).raiseBit R.MGP_EVT i code 0 0 := by
  have kept : (s.bump c 1).w R.MGP_EVT = s.w R.MGP_EVT := State.setF_w_other _ _ _ _ apart.symm
  rw [State.mgpCounted, kept]
  cases wbit (s.w R.MGP_EVT) i <;> rfl

theorem State.mgpDiscard_crc (s : State) : s.mgpDiscard 0 = s.mgpCounted 0 0x0E01 F.MGP_CNT_CRC :=
  (State.mgpCounted_eq (by decide) ..).symm

theorem State.mgpDiscard_frame (s : State) : s.mgpDiscard 1 = s.mgpCounted 1 0x0E02 F.MGP_CNT_FRAME :=
  (State.mgpCounted_eq (by decide) ..).symm

theorem State.mgpDiscard_overrun (s : State) : s.mgpDiscard 2 = s.mgpCounted 2 0x0E03 F.MGP_CNT_OVERRUN :=
  (State.mgpCounted_eq (by decide) ..).symm

theorem State.mgpCounted_eventOnly (s : State) (i code : Nat) (c : Fld) : s.EventOnly (s.mgpCounted i code c) := by
  rw [State.mgpCounted, State.when]
  split
  · exact (s.setW_eventOnly ..).trans ((State.setW_eventOnly ..).trans (State.raise_eventOnly ..))
  · exact s.setW_eventOnly ..

/-- A discarded frame is reported where no request is pending and no result waits (R418). -/
def State.mgpRejected (s z : State) (c : Status) : State :=
  if s.mgp.pend = none ∧ s.mgp.res = none then { z with mgp := { z.mgp with rej := some c.code } } else z

theorem State.mgpReject_of_counted (s : State) (i code : Nat) (x : Fld) (c : Status) :
    (s.mgpDeselected.mgpCounted i code x).mgpReject c = s.mgpRejected (s.mgpDeselected.mgpCounted i code x) c := by
  obtain ⟨_, _, _, _, e⟩ := s.mgpDeselected.mgpCounted_eventOnly i code x
  rw [e]
  simp only [State.mgpReject, State.when, State.mgpRejected, Bool.and_eq_true, Option.isNone_iff_eq_none]

section

variable {s : State} {f : BitVec 72}

theorem State.mgpFrame_of_edges {n : Nat} (edges : n ≠ 72) :
    s.mgpFrame f n = s.mgpRejected (s.mgpDeselected.mgpCounted 1 0x0E02 F.MGP_CNT_FRAME) .length := by
  rw [State.mgpFrame, if_pos edges, State.mgpDiscard_frame, State.mgpReject_of_counted]

theorem State.mgpFrame_of_crc (bad : ¬crc8 (natBE 8 (f.toNat / 256)) = f.toNat % 256) :
    s.mgpFrame f 72 = s.mgpRejected (s.mgpDeselected.mgpCounted 0 0x0E01 F.MGP_CNT_CRC) .crc := by
  rw [State.mgpFrame, if_neg fun h => h rfl, if_pos bad, State.mgpDiscard_crc, State.mgpReject_of_counted]

variable (good : crc8 (natBE 8 (f.toNat / 256)) = f.toNat % 256)
include good

/-- A NOP: its field 1 asks for the last response again. -/
theorem State.mgpFrame_of_nop (nop : bits f.toNat 71 64 = 0) : s.mgpFrame f 72 =
    if bits f.toNat 39 8 = 1 then { s with mgp := { s.mgp with rep := true, sel := false } } else s.mgpDeselected := by
  rw [State.mgpFrame, if_neg fun h => h rfl, if_neg fun h => h good, if_pos nop]

variable (request : bits f.toNat 71 64 ≠ 0)
include request

theorem State.mgpFrame_of_request (idle : s.mgp.pend = none) : s.mgpFrame f 72 =
    { s with mgp := { s.mgp with pend := some (bits f.toNat 71 64, bits f.toNat 63 40, bits f.toNat 39 8), res := none, sel := false } } := by
  have free : ¬s.mgp.pend.isSome = true := by simp [idle]
  rw [State.mgpFrame, if_neg fun h => h rfl, if_neg fun h => h good, if_neg request, if_neg free]

theorem State.mgpFrame_of_overrun (pending : s.mgp.pend ≠ none) :
    s.mgpFrame f 72 = s.mgpDeselected.mgpCounted 2 0x0E03 F.MGP_CNT_OVERRUN := by
  have busy : s.mgp.pend.isSome = true := Option.isSome_iff_ne_none.mpr pending
  rw [State.mgpFrame, if_neg fun h => h rfl, if_neg fun h => h good, if_neg request, if_pos busy, State.mgpDiscard_overrun]

end

/-! ### The pending request (R417) -/

theorem State.setShadows_mgp (s : State) (r : Req) (a : Nat) (l : List Word) : (s.setShadows r a l).mgp = s.mgp := by
  induction l generalizing s a with
  | nil => rfl
  | cons v l ih => exact (ih _ _).trans rfl

theorem State.plainRead_mgp (s : State) (r : Req) (a : Nat) : (s.plainRead r a).1.mgp = s.mgp := by
  rw [State.plainRead_fst]
  split
  · exact s.setShadows_mgp ..
  · exact s.setShadows_mgp ..

/-- A response waits as the result of the request that was pending. -/
def Mgp.answered (x : Mgp) (b : List Byte) : Mgp := { x with pend := none, res := some b, last := some b }

theorem State.mgpResult_of_pend {s : State} {cmd wa data : Nat} (pend : s.mgp.pend = some (cmd, wa, data)) : s.mgpResult = { s with
    mgp := s.mgp.answered (mgpResp 2 (cmd / 16) s.cpl.status.code wa (if cmd = 0x10 then (s.cpl.data.headD 0).toNat else 0)) } := by
  rw [State.mgpResult, pend]
  rfl

theorem State.mgpResult_of_none {s : State} (idle : s.mgp.pend = none) : s.mgpResult = s := by
  rw [State.mgpResult, idle]

section

variable {s : State} (alive : s.alive = true) {wa data : Nat} (unheld : s.owed ≠ some 16)
include alive unheld

/-- The pending request takes its access; a batch that begins with it holds its response back (R417, R449). -/
theorem exec_mgpAccessDone {cmd : Nat} (pend : s.mgp.pend = some (cmd, wa, data)) :
    exec .mgpAccessDone s = .next (if s.began (s.mgpAccess cmd wa data) = true then { s.mgpAccess cmd wa data with owed := some 16 }
      else (s.mgpAccess cmd wa data).mgpResult) := by
  change execMgpAccessDone s = _
  rw [execMgpAccessDone, act_alive _ _ alive]
  simp only [pend]
  rw [if_neg unheld]

section

variable (pend : s.mgp.pend = some (0x10, wa, data))
include pend

theorem exec_mgpAccessDone_of_refused {c : Status} (refused : s.mapStop .manager (4 * wa) false = some c) :
    exec .mgpAccessDone s = .next { s.fin c with mgp := s.mgp.answered (mgpResp 2 1 c.code wa 0) } := by
  have access : s.mgpAccess 0x10 wa data = s.fin c := (if_pos rfl).trans (by rw [State.readWord, refused])
  have calm : s.began (s.fin c) = false := State.began_of_nv rfl
  have pend' : (s.fin c).mgp.pend = some (0x10, wa, data) := pend
  rw [exec_mgpAccessDone alive unheld pend, access, calm, if_neg Bool.false_ne_true, State.mgpResult_of_pend pend']
  rfl

theorem exec_mgpAccessDone_of_read (open_ : s.mapStop .manager (4 * wa) false = none) (plain : plainReg (4 * wa)) :
    exec .mgpAccessDone s = .next { ((s.plainRead .manager (4 * wa)).1.finData [(s.plainRead .manager (4 * wa)).2]) with
      mgp := s.mgp.answered (mgpResp 2 1 0 wa (s.plainRead .manager (4 * wa)).2.toNat) } := by
  have access : s.mgpAccess 0x10 wa data = (s.plainRead .manager (4 * wa)).1.finData [(s.plainRead .manager (4 * wa)).2] :=
    (if_pos rfl).trans (State.readWord_of_plainReg open_ plain false)
  have calm : s.began ((s.plainRead .manager (4 * wa)).1.finData [(s.plainRead .manager (4 * wa)).2]) = false :=
    State.began_of_nv (s.plainRead_nv ..)
  have mgp : ((s.plainRead .manager (4 * wa)).1.finData [(s.plainRead .manager (4 * wa)).2]).mgp = s.mgp := s.plainRead_mgp ..
  rw [exec_mgpAccessDone alive unheld pend, access, calm, if_neg Bool.false_ne_true,
    State.mgpResult_of_pend (mgp ▸ pend), mgp]
  rfl

end

theorem exec_mgpAccessDone_of_write {w : State} (pend : s.mgp.pend = some (0x20, wa, data))
    (write : s.writeReg .manager (4 * wa) (BitVec.ofNat 32 data) = w) (owner : w.mgp.pend = s.mgp.pend ∨ w.mgp.pend = none) :
    exec .mgpAccessDone s = .next (if s.began w = true then { w with owed := some 16 } else if w.mgp.pend = none then w
      else { w with mgp := w.mgp.answered (mgpResp 2 2 w.cpl.status.code wa 0) }) := by
  have access : s.mgpAccess 0x20 wa data = w := (if_neg (by decide)).trans ((if_pos rfl).trans write)
  have result : w.mgpResult = if w.mgp.pend = none then w else { w with mgp := w.mgp.answered (mgpResp 2 2 w.cpl.status.code wa 0) } := by
    rcases owner with same | reset
    · have pend' := same.trans pend
      have some_ : w.mgp.pend ≠ none := pend' ▸ Option.some_ne_none _
      rw [State.mgpResult_of_pend pend', if_neg some_]
      rfl
    · rw [State.mgpResult_of_none reset, if_pos reset]
  rw [exec_mgpAccessDone alive unheld pend, access, result]

end

/-! ### The load of a response (R414, R418) -/

theorem exec_mgpResponseLoad {s : State} (alive : s.alive = true) : exec .mgpResponseLoad s = .next { s with mgp := { s.mgp with
    shift := s.mgp.response.1, sel := true, rep := false, rej := none, res := if s.mgp.response.2 then none else s.mgp.res } } := by
  change execMgpResponseLoad s = _
  rw [execMgpResponseLoad, act_alive _ _ alive]

/-- Settles O30: what each frame is taken for, what the pending request answers, and what a load takes. -/
theorem managementPortFrames : Obligations.ManagementPortFrames := by
  intro s f x good pends u counted rejected alive
  refine ⟨fun ok nop other => ?nop, fun ok nop asks => ?again, fun ok read idle => ⟨_, exec_mgpRead alive f 72, ?read⟩,
    fun ok write idle => ⟨_, exec_mgpWrite alive f 72, ?write⟩,
    fun wa data pend unheld open_ plain _ => ⟨_, exec_mgpAccessDone_of_read alive unheld pend open_ plain, rfl, s.plainRead_mem ..⟩,
    fun wa data c pend unheld refused => exec_mgpAccessDone_of_refused alive unheld pend refused,
    fun wa data pend unheld owner => exec_mgpAccessDone_of_write alive unheld pend rfl owner,
    fun n edges => ⟨?edgesRead, ?edgesWrite⟩, fun bad => ⟨?crcRead, ?crcWrite⟩, fun ok request pending => ⟨?overRead, ?overWrite⟩,
    _, exec_mgpResponseLoad alive, rfl, rfl, rfl, rfl⟩
  case nop => rw [exec_mgpNop alive, State.mgpFrame_of_nop ok nop, if_neg other]
  case again => rw [exec_mgpRepeat alive, State.mgpFrame_of_nop ok nop, if_pos asks]
  case read => exact State.mgpFrame_of_request ok (by rw [read]; decide) idle
  case write => exact State.mgpFrame_of_request ok (by rw [write]; decide) idle
  case edgesRead => exact (exec_mgpRead alive f n).trans (congrArg _ (State.mgpFrame_of_edges edges))
  case edgesWrite => exact (exec_mgpWrite alive f n).trans (congrArg _ (State.mgpFrame_of_edges edges))
  case crcRead => exact (exec_mgpRead alive f 72).trans (congrArg _ (State.mgpFrame_of_crc bad))
  case crcWrite => exact (exec_mgpWrite alive f 72).trans (congrArg _ (State.mgpFrame_of_crc bad))
  case overRead => exact (exec_mgpRead alive f 72).trans (congrArg _ (State.mgpFrame_of_overrun ok request pending))
  case overWrite => exact (exec_mgpWrite alive f 72).trans (congrArg _ (State.mgpFrame_of_overrun ok request pending))

end Sys2Proof.Machine
end

section
/-!
PROOFS. The ownership of MODE: who takes, forces, releases and loses it (R421 to R423, R498).
-/

namespace Sys2Proof.Machine

/-- The manager puts the owner `old` out of its place. -/
def State.ownerForced (s : State) : State :=
  ((s.setF F.MODE_OWNER_OWNER 2).raiseBit R.MGP_EVT 3 0x0E04 0 (s.f F.MODE_OWNER_OWNER)).fin .ok

section

variable {s : State} {r : Req} {own : Nat}

theorem State.ownerWrite_of_manager : s.ownerWrite .manager own true = s.ownerForced := rfl

theorem State.ownerWrite_of_force (other : r ≠ .manager) : s.ownerWrite r own true = s.fin .unsupported := if_neg other

theorem State.ownerWrite_of_owned (owned : s.f F.MODE_OWNER_OWNER ≠ 0) (other : s.f F.MODE_OWNER_OWNER ≠ reqCode r) :
    s.ownerWrite r own false = s.fin .busy := if_pos ⟨owned, other⟩

/-- A free ownership, or one's own: it is claimed with one's own name and released with 0 (R421). -/
theorem State.ownerWrite_of_own (free : s.f F.MODE_OWNER_OWNER = 0 ∨ s.f F.MODE_OWNER_OWNER = reqCode r) :
    s.ownerWrite r own false = if own = 0 ∨ own = reqCode r then (s.setF F.MODE_OWNER_OWNER own).fin .ok else s.fin .unsupported :=
  if_neg fun ⟨owned, other⟩ => free.elim owned other

end

section

variable {s : State} {r : Req} (h : s.takes r R.MODE_OWNER)
include h

theorem exec_modeOwnerWrite (v : Word) : exec (.modeOwnerWrite r v) s = .next (s.ownerWrite r (bits v.toNat 1 0) (wbit v 8)) :=
  act_regWrite_of_takes h _

theorem exec_ownerForced (own : BitVec 2) : exec (.ownerForced r own) s = .next (s.ownerWrite r own.toNat true) :=
  act_regWrite_of_takes h _

end

section

variable {s : State} (alive : s.alive = true)
include alive

theorem State.tapTo_of_alive (i : Nat) : s.tapTo i = { s with tap := i } := by
  simp only [State.alive, Bool.and_eq_true, Bool.not_eq_true'] at alive
  obtain ⟨⟨aon, held⟩, scan⟩ := alive
  simp [State.tapTo, aon, held, scan]

theorem exec_ownerReleased_of_host (host : s.f F.MODE_OWNER_OWNER = 1) (down : s.portUp s.primary = false) :
    exec (.ownerReleased false) s = .next ((s.setF F.MODE_OWNER_OWNER 0).raiseBit R.MGP_EVT 4 0x0E05 0 1) := by
  have lost : (s.alive && s.f F.MODE_OWNER_OWNER == 1 && !s.portUp s.primary) = true := by rw [alive, host, down]; rfl
  exact congrArg Host.Outcome.next ((if_neg Bool.false_ne_true).trans (if_pos lost))

theorem exec_ownerReleased_of_tap : exec (.ownerReleased true) s = .next
    (if s.f F.MODE_OWNER_OWNER = 3 then (({ s with tap := 2 } : State).setF F.MODE_OWNER_OWNER 0).raiseBit R.MGP_EVT 4 0x0E05 0 3
      else { s with tap := 2 }) := by
  refine congrArg Host.Outcome.next ((if_pos rfl).trans ?_)
  rw [State.tapTo_of_alive alive, alive, Bool.true_and]
  simp only [beq_iff_eq]
  rfl

end

/-- Settles O31: the rows of a MODE_OWNER write in order, and the two ways in which the ownership is lost. -/
theorem modeOwnership : Obligations.ModeOwnership := by
  intro s r v own old me forced
  refine ⟨fun h calm free self => ?claim, fun h calm free other named => ?names, fun h calm owned other => ?owned, fun h force => ?manager,
    fun h other force => ?force, fun h => exec_ownerForced h own, fun h other => ?forced, exec_ownerReleased_of_host,
    fun alive jtag => (exec_ownerReleased_of_tap alive).trans (congrArg _ (if_pos jtag)),
    fun alive other => (exec_ownerReleased_of_tap alive).trans (congrArg _ (if_neg other))⟩
  case claim => rw [exec_modeOwnerWrite h, calm, State.ownerWrite_of_own free, if_pos self.symm]
  case names => rw [exec_modeOwnerWrite h, calm, State.ownerWrite_of_own free, if_neg (not_or.mpr ⟨named, other⟩)]
  case owned => rw [exec_modeOwnerWrite h, calm, State.ownerWrite_of_owned owned other]
  case manager =>
    rw [exec_modeOwnerWrite h, force]
    rfl
  case force => rw [exec_modeOwnerWrite h, force, State.ownerWrite_of_force other]
  case forced => rw [exec_ownerForced h, State.ownerWrite_of_force other]

end Sys2Proof.Machine
end

section
/-!
PROOFS. The housekeeping converter and the pins: the guard scan, the sequencer, HK_CTL, HK_TRIG, ALERT_CTL and TRIGIO_CTL (R427 to R430, R460, R496).
-/

namespace Sys2Proof.Machine

/-! ### The guard scan (R427) -/

section

variable {s : State} (alive : s.alive = true) (k : Fin 28) (code : BitVec 12)
include alive

/-- The hub after a guard conversion of input `k` has stored its code, the next input in turn. -/
def State.guardStored (s : State) (k code : Nat) : State :=
  { s with hk := { s.hk with next := (k + 1) % 28 } }.setW (R.HK_GRD k) (BitVec.ofNat 32 (16 * code))

theorem exec_guardConversion_of_turn (runs : s.hkRuns = true) (turn : k.val = s.hk.next) :
    exec (.guardConversion k code) s = .next (if k.val < 12 then (s.guardStored k code.toNat).guardTemp k code.toNat
      else (s.guardStored k code.toNat).guardSupply k code.toNat) := by
  have taken : ¬(!s.hkRuns || k.val != s.hk.next) = true := by simp [runs, turn]
  change execGuardConversion k code s = _
  rw [execGuardConversion, act_alive _ _ alive, if_neg taken]
  rfl

theorem exec_guardConversion_of_other (other : k.val ≠ s.hk.next) : exec (.guardConversion k code) s = .next s := by
  have left : (!s.hkRuns || k.val != s.hk.next) = true := by simp [other]
  change execGuardConversion k code s = _
  rw [execGuardConversion, act_alive _ _ alive, if_pos left]

end

/-! ### Triggers (R429) -/

section

variable {s : State} {r : Req} {v : Word} (h : s.takes r R.HK_TRIG)
include h

theorem exec_hkGo : exec (.hkGo r v) s = .next (s.hkTrigWrite v) := act_regWrite_of_takes h fun s => s.hkTrigWrite v

theorem exec_hkGo_of_enabled (go : wbit v 0 = true) (on : s.b F.HK_CTL_EN = true) (triggered : s.f F.HK_CTL_TMODE ≠ 2) :
    exec (.hkGo r v) s = .next (s.hkTrigger.fin .ok) := by
  have starts : (wbit v 0 && s.b F.HK_CTL_EN && s.f F.HK_CTL_TMODE != 2) = true := by simp [go, on, triggered]
  rw [exec_hkGo h, State.hkTrigWrite, starts, State.when_true]

theorem exec_hkGo_of_disabled (off : s.b F.HK_CTL_EN = false) : exec (.hkGo r v) s = .next (s.fin .ok) := by
  have ignored : (wbit v 0 && s.b F.HK_CTL_EN && s.f F.HK_CTL_TMODE != 2) = false := by rw [off, Bool.and_false, Bool.false_and]
  rw [exec_hkGo h, State.hkTrigWrite, ignored, State.when_false]

end

section

variable {s : State} (alive : s.alive = true)
include alive

theorem exec_hkPeriodTick_of_timer (runs : s.hkRuns = true) (on : s.b F.HK_CTL_EN = true) (timer : s.f F.HK_CTL_TMODE = 1) :
    exec .hkPeriodTick s = .next s.hkTrigger := by
  change execHkPeriodTick s = _
  rw [execHkPeriodTick, act_alive _ _ alive, if_pos (by rw [runs, on, timer]; rfl)]

theorem exec_hkPeriodTick_of_other (other : s.f F.HK_CTL_TMODE ≠ 1) : exec .hkPeriodTick s = .next s := by
  have left : ¬(s.hkRuns && s.b F.HK_CTL_EN && s.f F.HK_CTL_TMODE == 1) = true := by simp [other]
  change execHkPeriodTick s = _
  rw [execHkPeriodTick, act_alive _ _ alive, if_neg left]

/-! ### The sequencer (R428, R430) -/

/-- The hub with the rounded mean of the entry in progress as its result (R428). -/
def State.hkMeasured (s : State) (sum : BitVec 19) : State :=
  s.hkResult (s.f F.HK_STAT_ENTRY) (min (divEven (16 * sum.toNat) (2 ^ s.f (F.HK_SEQ_AVG (s.f F.HK_STAT_ENTRY)))).toNat 65535)

theorem exec_hkSeqEntry_of_run (sum : BitVec 19) (runs : s.hkRuns = true) (on : s.b F.HK_CTL_EN = true) (run : s.b F.HK_STAT_RUN = true)
    (more : s.hk.done = false) (goes : s.hk.ending = false) :
    exec (.hkSeqEntry sum) s = .next
      (if s.f F.HK_STAT_ENTRY < s.f F.HK_CTL_LEN then (s.hkMeasured sum).setF F.HK_STAT_ENTRY (s.f F.HK_STAT_ENTRY + 1)
      else { s.hkMeasured sum with hk := { (s.hkMeasured sum).hk with done := true } }) := by
  change execHkSeqEntry sum s = _
  rw [execHkSeqEntry, act_alive _ _ alive, if_pos (by rw [runs, on, run, more, goes]; rfl)]
  rfl

theorem exec_hkSeqEntry_of_ending (sum : BitVec 19) (ends : s.hk.ending = true) : exec (.hkSeqEntry sum) s = .next s := by
  have left : ¬(s.hkRuns && s.b F.HK_CTL_EN && s.b F.HK_STAT_RUN && !s.hk.done && !s.hk.ending) = true := by simp [ends]
  change execHkSeqEntry sum s = _
  rw [execHkSeqEntry, act_alive _ _ alive, if_neg left]

/-- The hub as the end of a run leaves the sequencer. -/
abbrev State.hkIdle (s : State) : State := { s.setF F.HK_STAT_RUN 0 with hk := { s.hk with done := false, ending := false } }

/-- A run that ends is followed by the pending one, or in CONTINUOUS by the next, while EN is set (R429, R430). -/
theorem exec_hkRunEnd_of_over (run : s.b F.HK_STAT_RUN = true) (ends : s.hk.done = true ∨ s.hk.ending = true) :
    exec .hkRunEnd s = .next
      (if (!s.hkIdle.b F.HK_CTL_EN) = true then s.hkIdle.setF F.HK_STAT_ENTRY 0
      else if s.hkIdle.b F.HK_STAT_PEND = true then (s.hkIdle.setF F.HK_STAT_PEND 0).hkStart
      else if s.hkIdle.f F.HK_CTL_TMODE = 2 then s.hkIdle.hkStart else s.hkIdle) := by
  have ended : (s.b F.HK_STAT_RUN && (s.hk.done || s.hk.ending)) = true := by rw [run, Bool.true_and, Bool.or_eq_true]; exact ends
  change execHkRunEnd s = _
  rw [execHkRunEnd, act_alive _ _ alive, if_pos ended]

end

/-! ### HK_CTL (R429, R430, R435) -/

section

variable {s : State} {r : Req} {v : Word}

theorem exec_hkCtlWrite (h : s.takes r R.HK_CTL) : exec (.hkCtlWrite r v) s = .next (s.hkCtlWrite v) :=
  act_regWrite_of_takes h fun s => s.hkCtlWrite v

theorem State.hkCtlWrite_of_bad (bad : bits v.toNat 31 16 = 0 ∨ bits v.toNat 5 4 = 3) : s.hkCtlWrite v = s.fin .unsupported := if_pos bad

variable (period : bits v.toNat 31 16 ≠ 0) (mode : bits v.toNat 5 4 ≠ 3)
include period mode

theorem State.hkCtlWrite_of_change (on : s.b F.HK_CTL_EN = true) (change : v &&& 0xFFFF1F30 ≠ s.w R.HK_CTL &&& 0xFFFF1F30) :
    s.hkCtlWrite v = s.fin .busy :=
  (if_neg (not_or.mpr ⟨period, mode⟩)).trans (if_pos ⟨on, change⟩)

/-- EN set: in CONTINUOUS the first run begins, if none is in progress. -/
theorem State.hkCtlWrite_of_enable (off : s.b F.HK_CTL_EN = false) (en : wbit v 0 = true) :
    s.hkCtlWrite v = ((s.setW R.HK_CTL (v &&& 0xFFFF1F31)).when (!s.b F.HK_STAT_RUN && bits v.toNat 5 4 == 2) State.hkStart).fin .ok := by
  have keeps : ¬(s.b F.HK_CTL_EN = true ∧ v &&& 0xFFFF1F30 ≠ s.w R.HK_CTL &&& 0xFFFF1F30) := fun h => Bool.false_ne_true (off.symm.trans h.1)
  rw [State.hkCtlWrite, if_neg (not_or.mpr ⟨period, mode⟩), if_neg keeps, en, off]
  rfl

/-- EN clear: the sequencer ends after the conversion in progress. -/
theorem State.hkCtlWrite_of_disable (kept : s.b F.HK_CTL_EN = false ∨ v &&& 0xFFFF1F30 = s.w R.HK_CTL &&& 0xFFFF1F30) (dis : wbit v 0 = false) :
    s.hkCtlWrite v =
      ({ (s.setW R.HK_CTL (v &&& 0xFFFF1F31)).setF F.HK_STAT_PEND 0 with hk := { s.hk with ending := s.b F.HK_STAT_RUN } } : State).fin .ok := by
  have keeps : ¬(s.b F.HK_CTL_EN = true ∧ v &&& 0xFFFF1F30 ≠ s.w R.HK_CTL &&& 0xFFFF1F30) :=
    fun h => kept.elim (fun off => Bool.false_ne_true (off.symm.trans h.1)) h.2
  rw [State.hkCtlWrite, if_neg (not_or.mpr ⟨period, mode⟩), if_neg keeps, dis]
  rfl

end

/-! ### The pins (R460, R496) -/

section

variable {s : State} {r : Req} {v : Word}

theorem exec_alertCtlWrite (h : s.takes r R.ALERT_CTL) :
    exec (.alertCtlWrite r v) s = .next ((s.setF F.ALERT_CTL_READY (bits v.toNat 0 0)).fin .ok) :=
  act_regWrite_of_takes h _

theorem exec_trigioCtlWrite {k : Fin 4} (h : s.takes r (R.TRIGIO_CTL k)) : exec (.trigioCtlWrite r k v) s = .next (s.trigioWrite k v) :=
  act_regWrite_of_takes h fun s => s.trigioWrite k v

variable {k : Nat}

theorem State.trigioWrite_of_mode3 (three : bits v.toNat 9 8 = 3) : s.trigioWrite k v = s.fin .unsupported := if_pos three

theorem State.trigioWrite_of_dead (legal : bits v.toNat 9 8 ≠ 3) (active : bits v.toNat 9 8 ≠ 0) (dead : s.live = false) :
    s.trigioWrite k v = s.fin .mode :=
  (if_neg legal).trans (if_pos ⟨active, by rw [dead]; rfl⟩)

/-- A pin that is off, or active in HOLD or ACQUIRE: leaving MODE 2 ends its pulse (R496). -/
theorem State.trigioWrite_of_taken (legal : bits v.toNat 9 8 ≠ 3) (may : bits v.toNat 9 8 = 0 ∨ s.live = true) :
    s.trigioWrite k v = ((s.setW (R.TRIGIO_CTL k) (v &&& 0x003F0301)).when (bits v.toNat 9 8 != 2) fun s =>
      { s with pulses := Tab.set (fun _ => none) s.pulses k none }).fin .ok := by
  have open_ : ¬(bits v.toNat 9 8 ≠ 0 ∧ (!s.live) = true) := fun ⟨active, dead⟩ =>
    may.elim active fun live => Bool.false_ne_true ((congrArg (!·) live).symm.trans dead)
  exact (if_neg legal).trans (if_neg open_)

end

/-- Settles O57: each command of the converter and the pins by its cases. -/
theorem housekeepingAndPins : Obligations.HousekeepingAndPins := by
  intro s r k i code v sum g n res m idle pin
  refine ⟨fun alive runs turn low => ?temp, fun alive runs turn high => ?supply,
    fun alive other => exec_guardConversion_of_other alive k code other, exec_hkGo_of_enabled, fun h _ off => exec_hkGo_of_disabled h off,
    exec_hkPeriodTick_of_timer, exec_hkPeriodTick_of_other, fun alive runs on run more goes lt _ => ?entry,
    fun alive runs on run more goes last => ?last, fun alive ends => exec_hkSeqEntry_of_ending alive sum ends,
    fun alive run ends off => ?ended, fun alive run done on pend => ?pended, fun alive run done on unpend other => ?idle,
    fun h bad => (exec_hkCtlWrite h).trans (congrArg _ (State.hkCtlWrite_of_bad bad)),
    fun h period mode on change => (exec_hkCtlWrite h).trans (congrArg _ (State.hkCtlWrite_of_change period mode on change)),
    fun h period low off en => ?enable, fun h period cont off free en => ?continuous,
    fun h period mode kept dis => (exec_hkCtlWrite h).trans (congrArg _ (State.hkCtlWrite_of_disable period mode kept dis)),
    exec_alertCtlWrite, fun h three => (exec_trigioCtlWrite h).trans (congrArg _ (State.trigioWrite_of_mode3 three)),
    fun h legal active dead => (exec_trigioCtlWrite h).trans (congrArg _ (State.trigioWrite_of_dead legal active dead)),
    fun h two live => ?pulses, fun h off => ?off⟩
  case temp => exact (exec_guardConversion_of_turn alive k code runs turn).trans (congrArg _ (if_pos low))
  case supply => exact (exec_guardConversion_of_turn alive k code runs turn).trans (congrArg _ (if_neg (Nat.not_lt.mpr high)))
  case entry => exact (exec_hkSeqEntry_of_run alive sum runs on run more goes).trans (congrArg _ (if_pos lt))
  case last => exact (exec_hkSeqEntry_of_run alive sum runs on run more goes).trans (congrArg _ (if_neg (Nat.not_lt.mpr last.ge)))
  case ended =>
    have off : s.hkIdle.b F.HK_CTL_EN = false := off
    rw [exec_hkRunEnd_of_over alive run (.inr ends), off, if_pos (by rfl)]
  case pended =>
    have on : s.hkIdle.b F.HK_CTL_EN = true := on
    rw [exec_hkRunEnd_of_over alive run (.inl done), on, if_neg (by decide), if_pos pend]
  case idle =>
    have on : s.hkIdle.b F.HK_CTL_EN = true := on
    have unpend : s.hkIdle.b F.HK_STAT_PEND = false := unpend
    rw [exec_hkRunEnd_of_over alive run (.inl done), on, if_neg (by decide), unpend, if_neg Bool.false_ne_true, if_neg other]
  case enable =>
    have waits : (!s.b F.HK_STAT_RUN && bits v.toNat 5 4 == 2) = false := by rw [beq_false_of_ne (by omega), Bool.and_false]
    rw [exec_hkCtlWrite h, State.hkCtlWrite_of_enable period (by omega) off en, waits, State.when_false]
  case continuous =>
    have starts : (!s.b F.HK_STAT_RUN && bits v.toNat 5 4 == 2) = true := by rw [free, cont]; rfl
    rw [exec_hkCtlWrite h, State.hkCtlWrite_of_enable period (by omega) off en, starts, State.when_true]
  case pulses =>
    have two : bits v.toNat 9 8 = 2 := two
    rw [exec_trigioCtlWrite h, State.trigioWrite_of_taken (by omega) (.inr live), two]
    rfl
  case off =>
    have off : bits v.toNat 9 8 = 0 := off
    rw [exec_trigioCtlWrite h, State.trigioWrite_of_taken (by omega) (.inl off), off]
    rfl

end Sys2Proof.Machine
end

section
/-!
PROOFS. The cornerstone: CS_CMD, the end of its saves, the meters, the seal, the identity and the supply (R394, R397, R398, R402, R405 to R411, R474).
-/

namespace Sys2Proof.Machine

/-! ### What a write of CS_CMD meets (R407, R408) -/

section

variable {s : State} {r : Req} (h : s.takes r R.CS_CMD) {locked : State → Bool}
include h

theorem act_csCmd_of_open (free : locked s = false) (on : s.csOn = true) (refuse : Bool) (eff : State → State) :
    act (csCmd r locked refuse eff) s = .next (eff s) := by
  obtain ⟨alive, map, test⟩ := h
  have unlocked : ¬(locked s && accOf r R.CS_CMD == .rw) = true := by rw [free]; exact Bool.false_ne_true
  rw [act_alive _ _ alive, csCmd, if_neg unlocked, map]
  simp only [test, on, Bool.not_true, Bool.false_eq_true, if_false]

theorem act_csCmd_of_unsupplied (free : locked s = false) (off : s.csOn = false) (refuse : Bool) (eff : State → State) :
    act (csCmd r locked refuse eff) s = .next (s.fin .busy) := by
  obtain ⟨alive, map, test⟩ := h
  have unlocked : ¬(locked s && accOf r R.CS_CMD == .rw) = true := by rw [free]; exact Bool.false_ne_true
  rw [act_alive _ _ alive, csCmd, if_neg unlocked, map]
  simp only [test, off, Bool.not_false, Bool.false_eq_true, if_false, if_true]

/-- The host may write CS_CMD, so that a lock holds for it (R407). -/
theorem act_csCmd_of_locked (host : r = .host) (shut : locked s = true) (refuse : Bool) (eff : State → State) :
    act (csCmd r locked refuse eff) s = .next ((s.when refuse fun s => s.csRefuse 0 .locked).csEnd .locked) := by
  subst host
  have lock : (locked s && accOf .host R.CS_CMD == .rw) = true := by rw [shut]; decide
  rw [act_alive _ _ h.1, csCmd, if_pos lock]

end

/-! ### A legally relevant change (R407) -/

/-- The hub with the change `p` counted and its slot, that of `z`, on its way into the MRAM. -/
def State.csSaves (held z : State) (p : CsPend) : State :=
  { (held.setW R.CS_EVCNT (held.w R.CS_EVCNT + 1)).begin 5 (nvPar (saveSlot held.newestPar))
    (slotRows (z.setW R.CS_EVCNT (held.w R.CS_EVCNT + 1)).parBytes) with csPend := some p }

section

variable {s : State} {v : Nat} {next : State → State} {p : CsPend} (free : s.csBlocked = false)
include free

theorem State.csCommand_of_stopped (stopped : s.csStop = true) : s.csCommand v next p = (s.csRefuse 0 .busy).csEnd .busy := by
  rw [State.csCommand, State.csChange, free, if_neg Bool.false_ne_true, if_pos stopped]

variable (goes : s.csStop = false)
include goes

theorem State.csCommand_of_held (energy : (s.nvCheck 3 64 v).2 = true) :
    s.csCommand v next p = (s.nvCheck 3 64 v).1.csSaves (next (s.nvCheck 3 64 v).1) p := by
  rw [State.csCommand, State.csChange, free, goes, if_neg Bool.false_ne_true, if_neg Bool.false_ne_true]
  dsimp only
  rw [energy]
  rfl

theorem State.csCommand_of_unheld (empty : (s.nvCheck 3 64 v).2 = false) :
    s.csCommand v next p = ((s.nvCheck 3 64 v).1.csRefuse 0 .nvEnergy).csEnd .nvEnergy := by
  rw [State.csCommand, State.csChange, free, goes, if_neg Bool.false_ne_true, if_neg Bool.false_ne_true]
  dsimp only
  rw [empty]
  rfl

end

/-! ### APPLY (R398, R474) -/

/-- A set meters an input of a tile under test. -/
def State.meetsTest (s taken : State) : Bool := taken.csInputs.any fun i => s.testing == some (1, (taken.csPlace i).1)

section

variable {s : State} {r : Req} {arg vh : BitVec 16} (h : s.takes r R.CS_CMD)
include h

theorem exec_apply_of_blocked (blocked : s.csBlocked = true) (host : r = .host) :
    exec (.apply r arg vh) s = .next ((s.csRefuse 0 .locked).csEnd .locked) :=
  act_csCmd_of_locked h host blocked true _

variable (free : s.csBlocked = false) (on : s.csOn = true)
include free on

theorem exec_apply_of_bad (bad : (s.takeSet s.staged).csSetOk = false) : exec (.apply r arg vh) s = .next (s.csEnd .unsupported) := by
  refine (act_csCmd_of_open h free on true _).trans (congrArg _ ?_)
  dsimp only
  rw [bad]
  rfl

variable (ok : (s.takeSet s.staged).csSetOk = true)
include ok

theorem exec_apply_of_tested (test : s.meetsTest (s.takeSet s.staged) = true) : exec (.apply r arg vh) s = .next (s.csEnd .busyTest) := by
  rw [State.meetsTest] at test
  refine (act_csCmd_of_open h free on true _).trans (congrArg _ ?_)
  dsimp only
  rw [ok, test]
  rfl

theorem exec_apply_of_untested (untested : s.meetsTest (s.takeSet s.staged) = false) : exec (.apply r arg vh) s = .next
    (if s.nvBusy = true then s.csEnd .busy
    else s.csCommand vh.toNat (fun z => z.takeSet s.staged) (.set s.staged (bit arg.toNat 0) vh.toNat)) := by
  rw [State.meetsTest] at untested
  refine (act_csCmd_of_open h free on true _).trans (congrArg _ ?_)
  dsimp only
  rw [ok, untested]
  rfl

end

/-! ### RELOAD and the firmware (R408) -/

section

variable {s : State} {r : Req} (h : s.takes r R.CS_CMD)
include h

theorem exec_reload_of_supplied (on : s.csOn = true) :
    exec (.reload r) s = .next ((s.each csActive fun z a => z.setW (a + 0x400) (z.w a)).csEnd .ok) :=
  act_csCmd_of_open h rfl on false _

theorem exec_reload_of_unsupplied (off : s.csOn = false) : exec (.reload r) s = .next (s.fin .busy) :=
  act_csCmd_of_unsupplied h rfl off false _

variable {arg vh : BitVec 16}

theorem exec_fwBlock_of_sealed (sealed : s.b F.CS_STAT_SEALED = true) (host : r = .host) :
    exec (.fwBlock r arg vh) s = .next (s.csEnd .locked) :=
  act_csCmd_of_locked h host sealed false _

/-- A block of firmware goes to the other copy, in a batch. -/
theorem exec_fwBlock_of_held (unsealed : s.b F.CS_STAT_SEALED = false) (on : s.csOn = true) (inside : arg.toNat < 48) (idle : s.nvBusy = false)
    (goes : s.csStop = false) (energy : (s.nvCheck 5 64 vh.toNat).2 = true) :
    exec (.fwBlock r arg vh) s = .next ((s.nvCheck 5 64 vh.toNat).1.begin 7 (nvFw (!s.b F.CS_STAT_FW_COPY) + 4096 * arg.toNat)
      (nvRows 64 (wordsToBytes ((range' 0 1024).map fun i => s.w (R.CS_FWBUF i))))) := by
  refine (act_csCmd_of_open h unsealed on false _).trans (congrArg _ ?_)
  dsimp only
  rw [if_neg (Nat.not_le.mpr inside), idle, goes, energy]
  rfl

section

variable (free : s.csBlocked = false) (on : s.csOn = true)
include free on

theorem exec_fwCommit_of_length (outside : arg.toNat = 0 ∨ 48 < arg.toNat) : exec (.fwCommit r arg vh) s = .next (s.csEnd .length) :=
  (act_csCmd_of_open h free on true _).trans (congrArg _ (if_pos outside))

variable (some_ : arg.toNat ≠ 0) (few : arg.toNat ≤ 48)
include some_ few

theorem exec_fwCommit_of_inside : exec (.fwCommit r arg vh) s = .next
    (if sha256 (s.nvBytes (nvFw (!s.b F.CS_STAT_FW_COPY)) (4096 * arg.toNat)) != s.fwDig then s.csEnd .crc
    else if s.nvBusy then s.csEnd .busy
    else s.csCommand vh.toNat (fun s' => s'.setF F.CS_STAT_FW_COPY (b2n (!s.b F.CS_STAT_FW_COPY))) (.firmware (!s.b F.CS_STAT_FW_COPY))) :=
  (act_csCmd_of_open h free on true _).trans (congrArg _ (if_neg (not_or.mpr ⟨some_, Nat.not_lt.mpr few⟩)))

end

end

/-! ### The end of a batch (R407, R410, R442, R444) -/

theorem State.setNvBytes_eq (s : State) (a : Nat) (l : List Byte) : ∃ nvm, s.setNvBytes a l = { s with nvm := nvm } := by
  induction l generalizing s a with
  | nil => exact ⟨_, rfl⟩
  | cons x l ih =>
    obtain ⟨nvm, e⟩ := ih { s with nvm := cellSet 0xFF s.nvm a x } (a + 1)
    exact ⟨nvm, e⟩

/-- The end of a batch changes the MRAM, the batch and its bit of NV_STAT. -/
theorem State.batchOver_eq (s : State) (b : Batch) :
    ∃ nvm, s.batchOver b = ({ s with nvm := nvm, nv := none } : State).setF F.NV_STAT_BUSY 0 := by
  obtain ⟨nvm, e⟩ := s.setNvBytes_eq b.addr (b.rows.take b.rows.length).flatten
  exact ⟨nvm, congrArg (fun z : State => ({ z with nv := none } : State).setF F.NV_STAT_BUSY 0) e⟩

theorem State.batchOver_mode (s : State) (b : Batch) : (s.batchOver b).mode = s.mode := by
  obtain ⟨_, e⟩ := s.batchOver_eq b
  rw [e]
  exact State.setF_f_other _ _ F.MODE_MODE _ (by decide)

theorem State.batchOver_csRuns (s : State) (b : Batch) : (s.batchOver b).csRuns = s.csRuns := by
  have mode := s.batchOver_mode b
  obtain ⟨_, e⟩ := s.batchOver_eq b
  rw [State.csRuns, mode, e]
  rfl

theorem State.batchOver_csPend (s : State) (b : Batch) : (s.batchOver b).csPend = s.csPend := by
  obtain ⟨_, e⟩ := s.batchOver_eq b
  rw [e]
  rfl

theorem State.batchOver_rel (s : State) (b : Batch) : (s.batchOver b).rel = s.rel := by
  obtain ⟨_, e⟩ := s.batchOver_eq b
  rw [e]
  rfl

theorem State.batchOver_enDue (s : State) (b : Batch) : (s.batchOver b).enDue = s.enDue := by
  obtain ⟨_, e⟩ := s.batchOver_eq b
  rw [e]
  rfl

theorem State.nextSave_of_none {s : State} (none_ : s.enDue = none) : s.nextSave = s := by rw [State.nextSave, none_]

section

variable {s : State} (alive : s.alive = true) {b : Batch} (nv : s.nv = some b)
include alive nv

theorem exec_nvBatchDone_of_unowed (unowed : s.owed = none) :
    exec .nvBatchDone s = .next ((s.batchOver b).batchEffect b.writer).nextSave := by
  simp only [State.alive, Bool.and_eq_true, Bool.not_eq_true'] at alive
  obtain ⟨⟨aon, -⟩, scan⟩ := alive
  change execNvBatchDone s = _
  simp only [execNvBatchDone, aon, scan, nv, unowed, Bool.not_false, Bool.and_self]

theorem exec_nvBatchDone_of_owed {k : Nat} (owed : s.owed = some k) :
    exec .nvBatchDone s = .next (((s.batchOver b).batchEffect b.writer).endAccess k).nextSave := by
  simp only [State.alive, Bool.and_eq_true, Bool.not_eq_true'] at alive
  obtain ⟨⟨aon, -⟩, scan⟩ := alive
  change execNvBatchDone s = _
  simp only [execNvBatchDone, aon, scan, nv, owed, Bool.not_false, Bool.and_self]

variable (writer : b.writer = 5) (unowed : s.owed = none)
include writer unowed

theorem exec_nvBatchDone_of_dormant_save (dormant : s.mode = 0) : exec .nvBatchDone s = .next ((s.batchOver b).fin .busy).nextSave := by
  have stands : (s.batchOver b).csRuns = false := (s.batchOver_csRuns b).trans (csRuns_of_dormant dormant)
  rw [exec_nvBatchDone_of_unowed alive nv unowed, writer, State.batchEffect, stands]
  rfl

/-- A change whose slot is saved comes into force; its command completes (R407, R408). -/
theorem exec_nvBatchDone_of_save (awake : s.mode ≠ 0) {p : CsPend} (pend : s.csPend = some p) (own : ∀ bs boot vh, p ≠ .image bs boot vh) :
    exec .nvBatchDone s = .next ((((({ s.batchOver b with csPend := none } : State).csTake p).csChanged).csEnd .ok).nextSave) := by
  have runs : (s.batchOver b).csRuns = true := (s.batchOver_csRuns b).trans (csRuns_of_alive alive awake)
  have pend' : (s.batchOver b).csPend = some p := (s.batchOver_csPend b).trans pend
  rw [exec_nvBatchDone_of_unowed alive nv unowed, writer, State.batchEffect, runs, if_pos rfl, State.csSaved]
  simp only [pend']

end

/-! ### Meters (R397, R402, R403, R405) -/

section

variable {s : State} (alive : s.alive = true) (j : Fin 16)
include alive

/-- An edge of a meter in an interval whose tiles all deliver: a sample joins. -/
theorem exec_meterSample_of_delivered {edge tau t : Nat} {u : State} (due : (s.reach tau).closeUpTo j tau = u)
    (runs : s.meterRuns j = true) (own : edge % (s.f (F.TILE_CTL_RDIV (s.csPlace (s.f (F.CSM_CFG_VIN j))).1) * s.mdiv j) = 0)
    (start : (u.meter j).start = some t) (ready : ((s.meterInputs j).any fun i => !u.b (F.TILE_STAT_READY (u.csPlace i).1)) = false)
    (sound : ((s.meterInputs j).any fun i => u.b (F.CH_STAT_FAILED (u.csPlace i).1 (u.csPlace i).2)) = false) :
    exec (.meterSample j edge tau) s = .next
      (u.setMeter j ((u.meter j).sample (u.csWord (u.f (F.CSM_CFG_VIN j))) (if u.b (F.CSM_CFG_I_EN j) then u.csWord (u.f (F.CSM_CFG_IIN j)) else 0)
        ((s.meterInputs j).any fun i => bit (u.tile (u.csPlace i).1).clip (u.csPlace i).2) (u.f F.TIME_STAT_QUALITY))) := by
  have taken : ¬(!(s.meterRuns j && edge % (s.f (F.TILE_CTL_RDIV (s.csPlace (s.f (F.CSM_CFG_VIN j))).1) * s.mdiv j) == 0)) = true := by
    rw [runs, own]; decide
  change execMeterSample j edge tau s = _
  rw [execMeterSample, act_alive _ _ alive]
  dsimp only
  rw [if_neg taken, due, ready, sound, start]
  rfl

theorem exec_intervalEnd_of_due {t : Nat} (vh : BitVec 16) (start : (s.meter j).start = some t) (runs : s.meterRuns j = true)
    (due : s.boundaryAfter t ≤ s.st) :
    exec (.intervalEnd j vh) s = .next ((s.endInterval j (s.boundaryAfter t) false true vh.toNat).closeUpTo j s.st) := by
  change execIntervalEnd j vh s = _
  rw [execIntervalEnd, act_alive _ _ alive, start]
  exact congrArg _ (if_pos ⟨runs, due⟩)

theorem exec_intervalEnd_of_none (vh : BitVec 16) (idle : (s.meter j).start = none) : exec (.intervalEnd j vh) s = .next s := by
  change execIntervalEnd j vh s = _
  rw [execIntervalEnd, act_alive _ _ alive, idle]

theorem exec_meterRecordPlace_of_carrier {k : Nat} {ws : List Word} {more : List (List Word)} (on : s.csOn = true) (carrier : s.carrier j = some k)
    (oldest : (s.meter j).buf = ws :: more) :
    exec (.meterRecordPlace j) s = .next ((s.setMeter j { s.meter j with buf := more }).setStr k
      { (s.setMeter j { s.meter j with buf := more }).str k with
        ins := ((s.setMeter j { s.meter j with buf := more }).str k).ins ++ [(0, ⟨ws, 0, 0⟩)] }) := by
  change execMeterRecordPlace j s = _
  rw [execMeterRecordPlace, act_alive _ _ alive]
  simp only [on, carrier, oldest]

end

/-! ### The seal, the identity and the supply (R406, R409, R410) -/

section

variable {s : State} (runs : s.csRuns = true)
include runs

theorem csAct_of_runs (f : State → State) : csAct f s = .next (f s) := congrArg _ (if_pos runs)

theorem exec_sealOpen_of_sealed (sealed : s.b F.CS_STAT_SEALED = true) :
    exec .sealOpen s = .next (((s.setF F.CS_STAT_SEALED 0).each (range' 0 16) fun z i =>
      z.setMeter i { z.meter i with sealed := false }).csEvent 0 0x0B01 0 0) := by
  change execSealOpen s = _
  rw [execSealOpen, csAct_of_runs runs, sealed]
  rfl

theorem exec_sealClose_of_open (unsealed : s.b F.CS_STAT_SEALED = false) :
    exec .sealClose s = .next ((s.setF F.CS_STAT_SEALED 1).csEvent 1 0x0B02 0 0) := by
  change execSealClose s = _
  rw [execSealClose, csAct_of_runs runs, unsealed]
  rfl

theorem exec_identityDone_of_busy (on : s.csOn = true) (busy : s.b F.CS_STAT_ID_BUSY = true) :
    exec .identityDone s = .next ((s.setWs (R.CS_IDENT 0) (bytesToWords s.identity)).setF F.CS_STAT_ID_BUSY 0) :=
  (csAct_of_runs runs _).trans (congrArg _ (if_pos (by rw [on, busy]; rfl)))

end

section

variable {s : State} (stands : s.csRuns = false)
include stands

theorem csAct_of_stands (f : State → State) : csAct f s = .next s := congrArg _ (if_neg (ne_true_of_eq_false stands))

theorem exec_sealOpen_of_stands : exec .sealOpen s = .next s := by
  change execSealOpen s = _
  rw [execSealOpen, csAct_of_stands stands]

theorem exec_sealClose_of_stands : exec .sealClose s = .next s := by
  change execSealClose s = _
  rw [execSealClose, csAct_of_stands stands]

theorem exec_identityDone_of_stands : exec .identityDone s = .next s := by
  change execIdentityDone s = _
  rw [execIdentityDone, csAct_of_stands stands]

end

section

variable {s : State}

theorem exec_vddCstLoss_of_on (on : s.csOn = true) : exec .vddCstLoss s = .next ((s.setF F.PWR_STAT_CST 0).csClear) := congrArg _ (if_pos on)

theorem exec_vddCstReturn_of_on (on : s.csOn = true) : exec .vddCstReturn s = .next s := congrArg _ (if_pos on)

theorem State.setF_PWR_STAT_CST_csRuns (n : Nat) : (s.setF F.PWR_STAT_CST n).csRuns = s.csRuns := by
  have mode : (s.setF F.PWR_STAT_CST n).mode = s.mode := State.setF_f_other _ _ F.MODE_MODE _ (by decide)
  rw [State.csRuns, mode]
  rfl

/-- A cornerstone whose supply returns restores its state, or waits for its clock (R410). -/
theorem exec_vddCstReturn_of_off (off : s.csOn = false) : exec .vddCstReturn s = .next
    (if s.csRuns = true then (s.setF F.PWR_STAT_CST 1).csRestore else { s.setF F.PWR_STAT_CST 1 with csWait := true }) := by
  rw [← State.setF_PWR_STAT_CST_csRuns 1]
  exact congrArg _ (if_neg (ne_true_of_eq_false off))

end

/-- Settles O56: CS_CMD by its checks, the end of its saves, and what the meters, the seal and the supply do. -/
theorem cornerstoneCommandsAndMeters : Obligations.CornerstoneCommandsAndMeters := by
  intro s r arg vh j edge tau t k ws more b clear copy x taken bytes other runs u works held bound count untested saves batchEnd
  refine ⟨fun h free on bad => exec_apply_of_bad h free on bad, fun h blocked host => exec_apply_of_blocked h blocked host,
    fun h free on ok test => exec_apply_of_tested h free on ok (eq_true_of_ne_false test),
    fun h free on ok calm idle ⟨goes, energy⟩ => ?saved, fun h free on ok calm idle stopped => ?stopped,
    fun h free on ok calm idle goes empty => ?empty,
    fun alive dormant nv writer unowed => exec_nvBatchDone_of_dormant_save alive nv writer unowed dormant,
    fun alive awake nv writer unowed pend => ?setSaved, fun alive awake nv writer unowed pend => ?firmwareSaved,
    fun h free on ok calm busy => ?busy, exec_reload_of_supplied, exec_reload_of_unsupplied,
    fun h sealed host => exec_fwBlock_of_sealed h sealed host,
    fun h unsealed on inside idle goes energy => exec_fwBlock_of_held h unsealed on inside idle goes energy,
    fun h free on outside => exec_fwCommit_of_length h free on outside, fun h free on some_ few differs => ?crc,
    fun h free on some_ few same idle ⟨goes, energy⟩ => ?commit,
    fun alive ⟨on, own⟩ start ready sound => exec_meterSample_of_delivered alive j rfl on own start ready sound,
    fun alive start on due => exec_intervalEnd_of_due alive j vh start on due, fun alive idle => exec_intervalEnd_of_none alive j vh idle,
    fun alive on carrier oldest => exec_meterRecordPlace_of_carrier alive j on carrier oldest,
    exec_sealOpen_of_sealed, exec_sealClose_of_open,
    fun stands => ⟨exec_sealOpen_of_stands stands, exec_sealClose_of_stands stands, exec_identityDone_of_stands stands⟩, exec_identityDone_of_busy,
    exec_vddCstLoss_of_on, fun off clock => ?restored, fun off clock => ?waits, exec_vddCstReturn_of_on⟩
  case saved =>
    rw [exec_apply_of_untested h free on ok calm, idle, if_neg Bool.false_ne_true, State.csCommand_of_held free goes energy]
    rfl
  case stopped => rw [exec_apply_of_untested h free on ok calm, idle, if_neg Bool.false_ne_true, State.csCommand_of_stopped free stopped]
  case empty => rw [exec_apply_of_untested h free on ok calm, idle, if_neg Bool.false_ne_true, State.csCommand_of_unheld free goes empty]
  case setSaved =>
    rw [exec_nvBatchDone_of_save alive nv writer unowed awake pend fun _ _ _ => CsPend.noConfusion, State.csTake]
    rfl
  case firmwareSaved =>
    rw [exec_nvBatchDone_of_save alive nv writer unowed awake pend fun _ _ _ => CsPend.noConfusion, State.csTake]
    rfl
  case busy => rw [exec_apply_of_untested h free on ok calm, busy, if_pos rfl]
  case crc => rw [exec_fwCommit_of_inside h free on some_ few, if_pos (bne_iff_ne.mpr differs)]
  case commit =>
    have equal : ¬(sha256 (s.nvBytes (nvFw other) (4096 * arg.toNat)) != s.fwDig) = true := fun h => bne_iff_ne.mp h same
    rw [exec_fwCommit_of_inside h free on some_ few, if_neg equal, idle, if_neg Bool.false_ne_true, State.csCommand_of_held free goes energy]
    rfl
  case restored => exact (exec_vddCstReturn_of_off off).trans (congrArg _ (if_pos clock))
  case waits => exact (exec_vddCstReturn_of_off off).trans (congrArg _ (if_neg (ne_true_of_eq_false clock)))

end Sys2Proof.Machine
end

section
/-!
PROOFS. The eight sources of a reset, the watchdog, a lockup, and the supplies (R102, R436 to R442, R457, R485, R486).
-/

namespace Sys2Proof.Machine

/-! ### The supplies (R436, R437, R485, R486) -/

/-- The hub with the rails' levels in PWR_STAT. -/
abbrev State.railsSeen (s : State) (pg brown : Nat) : State :=
  ({ s with pgood := s.pgood && pg == 0x3F, brown := brown } : State).setF F.PWR_STAT_PG pg

/-- A rail falls below its brown-out level. -/
abbrev State.railFell (s : State) (brown : Nat) : Bool := (range' 0 6).any fun k => bit brown k && !bit s.brown k

section

variable {s : State} {pg brown : Nat}

theorem State.rails_of_fell (aon : s.aon = true) (apart : s.scan = false) (awake : s.mode ≠ 0) (fell : s.railFell brown = true) :
    s.rails pg brown = (s.railsSeen pg brown).finishBatch.hubReset 1 := by
  have bor : (s.aon && !s.scan && s.mode != 0 && s.railFell brown) = true := by rw [aon, apart, bne_iff_ne.mpr awake, fell]; rfl
  rw [State.rails, if_pos bor]

theorem State.rails_of_held (held : s.railFell brown = false ∨ s.mode = 0) : s.rails pg brown =
    if (!(s.railsSeen pg brown).pgood && (s.railsSeen pg brown).rel == 2) = true then { s.railsSeen pg brown with rel := 1 }
      else s.railsSeen pg brown := by
  have none_ : ¬(s.aon && !s.scan && s.mode != 0 && s.railFell brown) = true := by
    rcases held with e | e <;> simp [e]
  rw [State.rails, if_neg none_]

end

theorem exec_bor {s : State} {x : Rails} {pg brown : Nat} (levels : railMonitor x (s.f F.PWR_STAT_PG) s.brown = (pg, brown)) :
    exec (.bor x) s = .next (s.rails pg brown) := by
  change execBor x s = _
  rw [execBor, levels]

/-- The hub with its main supplies good. -/
abbrev State.mainRails (s : State) : State := { s.rails 0x3F 0 with pgood := true }

theorem exec_mainPowerGood (s : State) : exec .mainPowerGood s = .next (if s.mainRails.rel = 1 then { s.mainRails with rel := 2 } else s.mainRails) := rfl

/-- The hub with VDD_AON there. -/
abbrev State.aonUp (s : State) : State := { s with aon := true, vbat := true, rel := if s.mainGood then 2 else 1 }

section

variable {s : State}

theorem exec_por_of_on (aon : s.aon = true) : exec .por s = .next (({ s.finishBatch with aon := false } : State).hubReset 0) :=
  congrArg _ (if_pos aon)

theorem exec_vddAonPowerOn_of_on (aon : s.aon = true) : exec .vddAonPowerOn s = .next s := congrArg _ (if_pos aon)

theorem exec_vbatLoss_of_on (aon : s.aon = true) : exec .vbatLoss s = .next s := congrArg _ (if_pos aon)

variable (off : s.aon = false)
include off

theorem exec_vddAonPowerOn_of_off : exec .vddAonPowerOn s = .next (if s.aonUp.csOn = true then s.aonUp.csRestore else s.aonUp) :=
  congrArg _ (if_neg (ne_true_of_eq_false off))

theorem exec_vbatLoss_of_off : exec .vbatLoss s = .next
    (((({ s with vbat := false, rtc := 0, rtcPhase := 0, rtcLoad := none } : State).setW R.RTC_UTC_OFS (resetWord R.RTC_UTC_OFS)).setW
      R.RTC_CTL (resetWord R.RTC_CTL)).setF F.RTC_STAT_VALID 0) :=
  congrArg _ (if_neg (ne_true_of_eq_false off))

end

/-! ### Pins, clocks and the watchdog (R438 to R440) -/

section

variable {s : State} (alive : s.alive = true) (n : BitVec 7)
include alive

/-- A low of RST_N resets from 5 us on, may below that, and is ignored below 1 us. -/
theorem exec_pin (low : Nat) : exec (.pin ⟨low, n⟩) s = .next
    (if low < 1000 then s
    else if 5000 ≤ low then { (s.cutBatch n.toNat).hubReset 2 with rstLow := true }
    else if (s.draw 1).2 = 1 then { ((s.draw 1).1.cutBatch n.toNat).hubReset 2 with rstLow := true } else (s.draw 1).1) := by
  change execPin ⟨low, n⟩ s = _
  rw [execPin, act_alive _ _ alive]
  dsimp only [State.deferredReset]

theorem exec_clkf_of_awake (clock : Fin 3) (awake : s.mode ≠ 0) :
    exec (.clkf clock n) s = .next (((s.raiseBit R.RPC_EVT 12 0x010D clock.val 0).cutBatch n.toNat).hubReset 6) := by
  change execClkf clock n s = _
  rw [execClkf, act_alive _ _ alive, if_neg awake, State.deferredReset]

theorem exec_wdogExpire_of_expired {cycles : Nat} (live : s.live = true) (on : s.b F.WDT_CTL_EN = true) (period : s.wdtCycles ≤ cycles) :
    exec (.wdogExpire ⟨cycles, n⟩) s = .next (if s.b F.WDT_STAT_WARN = true then (s.cutBatch n.toNat).hubReset 3
      else (s.setF F.WDT_STAT_WARN 1).raiseBit R.RPC_EVT 3 0x0104 0 0) := by
  have expires : ¬(!(s.b F.WDT_CTL_EN && s.live && decide (s.wdtCycles ≤ cycles))) = true := by rw [on, live, decide_eq_true period]; decide
  change execWdogExpire ⟨cycles, n⟩ s = _
  rw [execWdogExpire, act_alive _ _ alive, if_neg expires, State.deferredReset]

theorem exec_wdogExpire_of_early {cycles : Nat} (early : s.b F.WDT_CTL_EN = false ∨ ¬s.wdtCycles ≤ cycles) :
    exec (.wdogExpire ⟨cycles, n⟩) s = .next s := by
  have goes : (!(s.b F.WDT_CTL_EN && s.live && decide (s.wdtCycles ≤ cycles))) = true := by rcases early with e | e <;> simp [e]
  change execWdogExpire ⟨cycles, n⟩ s = _
  rw [execWdogExpire, act_alive _ _ alive, if_pos goes]

end

theorem exec_wdtKick {s : State} {r : Req} (h : s.takes r R.WDT_KICK) (v : Word) : exec (.wdtKick r v) s = .next
    (if bits v.toNat 15 0 = 0x4B49 then (s.setF F.WDT_STAT_WARN 0).fin .ok else s.fin .unsupported) :=
  act_regWrite_of_takes h _

/-! ### Resets on request (R437, R441, R476) -/

/-- The hub with LOCKUP_ACT written. -/
def State.rstCtl (s : State) (v : Word) : State := (s.setF F.RST_CTL_LOCKUP_ACT (bits v.toNat 8 8)).fin .ok

section

variable {s : State} {r : Req} {v : Word} (h : s.takes r R.RST_CTL) (n : BitVec 7)
include h

theorem exec_soft : exec (.soft r v n) s = .next (s.writeRstCtl r v n.toNat) := act_regWrite_of_takes h fun s => s.writeRstCtl r v n.toNat

theorem exec_soft_of_owner (go : wbit v 0 = true) (owner : s.notOwner r = false) :
    exec (.soft r v n) s = .next (((s.rstCtl v).cutBatch n.toNat).hubReset 4) := by
  rw [exec_soft h, State.writeRstCtl, go, owner, if_neg (by decide)]
  dsimp only
  rw [State.when_true, State.deferredReset, State.rstCtl]

theorem exec_soft_of_other (go : wbit v 0 = true) (other : s.notOwner r = true) : exec (.soft r v n) s = .next (s.fin .busy) := by
  rw [exec_soft h, State.writeRstCtl, go, other, if_pos (by decide)]

theorem exec_soft_of_config (stays : wbit v 0 = false) : exec (.soft r v n) s = .next (s.rstCtl v) := by
  rw [exec_soft h, State.writeRstCtl, stays, Bool.false_and, if_neg Bool.false_ne_true]
  dsimp only
  rw [State.when_false, State.rstCtl]

end

theorem State.debugReset_of_free {s : State} (aon : s.aon = true) (free : s.rstLow = false) (n : Nat) :
    s.debugReset n = (s.cutBatch n).hubReset 5 := by
  rw [State.debugReset, aon, free, if_pos (by decide), State.deferredReset]

/-! ### What the completion of a port's request leaves: which access a batch holds open -/

section

variable (s : State)

theorem State.when_owed {f : State → State} (c : Bool) (h : ∀ t, (f t).owed = t.owed) : (s.when c f).owed = s.owed := by
  cases c
  · rfl
  · exact h s

theorem State.each_owed {α : Type} {f : State → α → State} (xs : List α) (h : ∀ t x, (f t x).owed = t.owed) : (s.each xs f).owed = s.owed := by
  induction xs generalizing s with
  | nil => rfl
  | cons x xs ih => exact (ih (f s x)).trans (h s x)

theorem State.bump_owed (x : Fld) (n : Nat) : (s.bump x n).owed = s.owed := rfl

theorem State.setPort_owed (p : Nat) (x : Port) : (s.setPort p x).owed = s.owed := rfl

theorem State.raiseBit_owed (a i code src detail : Nat) : (s.raiseBit a i code src detail).owed = s.owed := by
  obtain ⟨_, _, _, _, e⟩ := (s.setW_eventOnly ..).trans (State.raise_eventOnly (s.setBit a i) code src detail)
  rw [State.raiseBit, e]

theorem State.fillWord_owed (p n : Nat) : (s.fillWord p n).owed = s.owed := by
  unfold State.fillWord
  dsimp only
  split
  · rfl
  · split <;> rfl

theorem State.fillWords_owed (p n k : Nat) : (State.fillWords p n k s).owed = s.owed := by
  induction k generalizing s with
  | zero => rfl
  | succ k ih => exact (ih _).trans (s.fillWord_owed p n)

theorem State.sendShare_owed (n rows : Nat) (ws : List (List Sym)) : (s.sendShare n rows ws).owed = s.owed := rfl

theorem State.transmit_owed (p : Nat) (h : Hod) : (s.transmit p h).owed = s.owed := by
  rw [State.transmit, State.putLine, State.putFrame]
  refine (State.each_owed _ _ ?shares).trans (State.each_owed _ _ ?fills)
  case shares => exact fun t x => t.sendShare_owed ..
  case fills => exact fun t n => t.fillWords_owed p n _

theorem State.sendHod_owed (p c : Nat) (h : Hod) : (s.sendHod p c h).owed = s.owed := State.transmit_owed _ p _

theorem State.tsqPut_owed (p : Nat) (exch : Bool) (tsid stamp : Nat) : (s.tsqPut p exch tsid stamp).owed = s.owed := by
  unfold State.tsqPut
  dsimp only
  split
  · exact (State.when_owed _ _ fun t => t.raiseBit_owed ..).trans (s.bump_owed ..)
  · rfl

theorem State.sendTime_owed (p : Nat) (h : Hod) (t : Nat) : (s.sendTime p h t).owed = s.owed :=
  (State.when_owed _ _ fun t => t.tsqPut_owed ..).trans (State.transmit_owed _ p _)

theorem State.pumpGo_owed (p : Nat) (blocked : List Nat) (ws : List Wait) : (s.pumpGo p blocked ws).1.owed = s.owed := by
  induction ws generalizing s blocked with
  | nil => rfl
  | cons w ws ih =>
    unfold State.pumpGo
    dsimp only
    split
    · exact ih ..
    · split
      · refine (ih ..).trans ((State.sendTime_owed ..).trans ?_)
        rfl
      · refine (ih ..).trans ?_
        split
        · exact s.sendHod_owed ..
        · exact s.sendHod_owed ..

theorem State.pump_owed (p : Nat) : (s.pump p).owed = s.owed := by
  unfold State.pump
  exact (State.setPort_owed ..).trans (s.pumpGo_owed ..)

theorem State.enqueue_owed (p : Nat) (from_ : Option Nat) (h : Hod) : (s.enqueue p from_ h).owed = s.owed := by
  unfold State.enqueue
  split
  · exact s.when_owed _ fun t => t.bump_owed ..
  · exact (State.pump_owed ..).trans (s.setPort_owed ..)

theorem State.answer_owed (p op tag : Nat) : (s.answer p op tag).owed = s.owed := s.enqueue_owed ..

theorem State.popReq_owed (p : Nat) : (s.popReq p).owed = s.owed := by
  unfold State.popReq
  split
  · rfl
  · exact State.when_owed _ _ fun _ => rfl

theorem State.serveUnlisted_owed (p k : Nat) : (State.serveUnlisted p k s).owed = s.owed := by
  induction k generalizing s with
  | zero => rfl
  | succ k ih =>
    unfold State.serveUnlisted
    split
    · split
      · exact (ih _).trans ((State.answer_owed ..).trans (State.popReq_owed ..))
      · rfl
    · rfl

theorem State.serve_owed (p : Nat) : (s.serve p).owed = s.owed := s.serveUnlisted_owed ..

end

/-! ### A lockup (R234, R358, R417, R437) -/

/-- The hub with a lockup of the fabric logged and the completion BUSY at hand. -/
abbrev State.lockupLogged (s : State) : State := (s.fin .busy).raiseBit R.RPC_EVT 4 0x0105 16 0

/-- The access `who` that has lasted too long completes with the completion at hand. -/
def State.accessEnded (s : State) : Accessor → State
  | .port p => s.endAccess p.val
  | .manager => s.endAccess 16
  | .mason m => s.rldStuck m.val
  | .other => s

/-- In DORMANT only the manager's accesses can last too long. -/
def State.asleepFor (s : State) : Accessor → Bool
  | .manager => false
  | _ => s.mode == 0

/-- An access that a batch holds open is none any more once it has completed. -/
def State.closeAccess (s : State) (i : Nat) : State := s.when (s.owed == some i) fun w => { w with owed := none }

theorem State.endAccess_of_port {s : State} {p : Fin 16} {r : Reqd} {rs : List Reqd} (reqs : (s.port p).reqs = r :: rs) (tagged : r.tagged = true) :
    s.endAccess p = (((s.popReq p).answer p r.op r.tag).serve p).closeAccess p := by
  have port : p.val ≠ 16 := by omega
  have owed : (((s.popReq p).answer p r.op r.tag).serve p).owed = s.owed :=
    (State.serve_owed ..).trans ((State.answer_owed ..).trans (State.popReq_owed ..))
  rw [State.endAccess, if_neg port, State.closeAccess, owed, State.endReq, reqs]
  simp only [tagged, State.when_true]

theorem State.endAccess_of_manager {s : State} {cmd wa data : Nat} (pend : s.mgp.pend = some (cmd, wa, data)) :
    s.endAccess 16 = ({ s with
      mgp := s.mgp.answered (mgpResp 2 (cmd / 16) s.cpl.status.code wa (if cmd = 0x10 then (s.cpl.data.headD 0).toNat else 0)) } : State).closeAccess 16 := by
  rw [State.endAccess, if_pos rfl, State.mgpResult_of_pend pend]
  rfl

section

variable {s : State} (alive : s.alive = true) {who : Accessor} {us : Nat} (n : BitVec 7)
include alive

theorem exec_lockup_of_short (short : us < s.f F.FAB_TMO_V) : exec (.lockup ⟨who, us, n⟩) s = .next s := by
  change execLockup ⟨who, us, n⟩ s = _
  rw [execLockup, act_alive _ _ alive]
  exact congrArg _ (if_pos (by rw [decide_eq_true short, Bool.or_true]))

theorem exec_lockup_of_dormant (dormant : s.mode = 0) (other : who ≠ .manager) : exec (.lockup ⟨who, us, n⟩) s = .next s := by
  change execLockup ⟨who, us, n⟩ s = _
  rw [execLockup, act_alive _ _ alive, dormant]
  cases who with
  | manager => exact absurd rfl other
  | port p => rfl
  | mason m => rfl
  | other => rfl

variable (stuck : s.f F.FAB_TMO_V ≤ us) (may : s.mode ≠ 0 ∨ who = .manager)
include stuck may

/-- A lockup resets the hub, or with LOCKUP_ACT is logged and the access completes with BUSY. -/
theorem exec_lockup_of_stuck : exec (.lockup ⟨who, us, n⟩) s = .next
    (if s.b F.RST_CTL_LOCKUP_ACT = true then s.lockupLogged.accessEnded who else (s.cutBatch n.toNat).hubReset 7) := by
  have long : decide (us < s.f F.FAB_TMO_V) = false := decide_eq_false (Nat.not_lt.mpr stuck)
  have asleep : s.asleepFor who = false := by
    rcases may with awake | rfl
    · cases who <;> simp [State.asleepFor, awake]
    · rfl
  change execLockup ⟨who, us, n⟩ s = _
  rw [execLockup, act_alive _ _ alive]
  dsimp only
  refine congrArg _ ((if_neg (by rw [long, Bool.or_false]; exact ne_true_of_eq_false asleep)).trans ?_)
  by_cases logs : s.b F.RST_CTL_LOCKUP_ACT = true
  · have logged : (s.fin .busy).lockup 16 0 n.toNat = s.lockupLogged := by
      have logs : (s.fin .busy).b F.RST_CTL_LOCKUP_ACT = true := logs
      rw [State.lockup, if_pos logs]
    rw [if_pos logs, logs, if_neg (by decide), logged]
    cases who <;> rfl
  · have resets : s.lockup 16 0 n.toNat = (s.cutBatch n.toNat).hubReset 7 := by rw [State.lockup, if_neg logs, State.deferredReset]
    rw [if_neg logs, eq_false_of_ne_true logs, if_pos (by decide), resets]

end

/-- Settles O58: each source, the watchdog, the requests, a lockup, and the supplies. -/
theorem resetSourcesAndSupplies : Obligations.ResetSourcesAndSupplies := by
  intro s r v n x pg brown clock low cycles us who m h hs cmd wa data ps period stuck fired on seen fell good closes ctl aged
  refine ⟨exec_por_of_on, exec_bor, fun aon apart awake fell => State.rails_of_fell aon apart awake fell, fun held ok => ?railsKept,
    fun held bad waits => ?railsHeld, fun alive long => ?pinLong, fun alive short => ?pinShort, fun alive lo hi => ?pinBetween, rfl,
    fun alive live on warned period => ?watchdog, fun alive live on calm period => ?warning,
    fun alive early => exec_wdogExpire_of_early alive n early, fun h kick => ?kick, fun h other => ?noKick,
    fun h go owner => exec_soft_of_owner h n go owner, fun h go other => exec_soft_of_other h n go other, fun h stays => exec_soft_of_config h n stays,
    fun aon free => congrArg _ (State.debugReset_of_free aon free _), fun alive awake => exec_clkf_of_awake alive n clock awake,
    fun alive stuck may act_ => ?lockup, fun alive dormant other => exec_lockup_of_dormant alive n dormant other,
    fun alive short => exec_lockup_of_short alive n short, fun alive stuck awake act_ => ?other, fun alive stuck awake act_ => ?mason,
    fun alive stuck awake act_ reqs tagged => ?port, fun alive stuck act_ pend => ?manager,
    fun waits => (exec_mainPowerGood s).trans (congrArg _ (if_pos waits)), fun begun => (exec_mainPowerGood s).trans (congrArg _ (if_neg begun)), rfl,
    fun off lacks => ?aon, fun off has => (exec_vddAonPowerOn_of_off off).trans (congrArg _ (if_pos has)), exec_vddAonPowerOn_of_on,
    exec_vbatLoss_of_off, exec_vbatLoss_of_on⟩
  case railsKept =>
    have goes : ¬(!seen.pgood && seen.rel == 2) = true := by rcases ok with e | e <;> simp [e]
    exact (State.rails_of_held held).trans (if_neg goes)
  case railsHeld =>
    have waits : (!seen.pgood && seen.rel == 2) = true := by rw [bad, waits]; rfl
    exact (State.rails_of_held held).trans (if_pos waits)
  case pinLong => rw [exec_pin alive, if_neg (by omega), if_pos long]
  case pinShort => rw [exec_pin alive, if_pos short]
  case pinBetween => rw [exec_pin alive, if_neg (by omega), if_neg (by omega)]
  case watchdog => rw [exec_wdogExpire_of_expired alive n live on period, if_pos warned]
  case warning => rw [exec_wdogExpire_of_expired alive n live on period, calm, if_neg Bool.false_ne_true]
  case kick => rw [exec_wdtKick h, if_pos kick]
  case noKick => rw [exec_wdtKick h, if_neg other]
  case lockup => rw [exec_lockup_of_stuck alive n stuck may, act_, if_neg Bool.false_ne_true]
  case other =>
    rw [exec_lockup_of_stuck alive n stuck (.inl awake), if_pos act_]
    rfl
  case mason =>
    rw [exec_lockup_of_stuck alive n stuck (.inl awake), if_pos act_]
    rfl
  case port =>
    rw [exec_lockup_of_stuck alive n stuck (.inl awake), if_pos act_]
    exact congrArg _ (State.endAccess_of_port reqs tagged)
  case manager =>
    have busy : fired.cpl.status = .busy := by
      obtain ⟨_, _, _, _, e⟩ := ((s.fin .busy).setW_eventOnly ..).trans (State.raise_eventOnly ((s.fin .busy).setBit R.RPC_EVT 4) 0x0105 16 0)
      exact congrArg (fun z : State => z.cpl.status) e
    rw [exec_lockup_of_stuck alive n stuck (.inr rfl), if_pos act_]
    refine congrArg _ ((State.endAccess_of_manager pend).trans ?_)
    rw [busy]
    rfl
  case aon => exact (exec_vddAonPowerOn_of_off off).trans (congrArg _ (if_neg (ne_true_of_eq_false lacks)))

end Sys2Proof.Machine
end

section
/-!
PROOFS. The options, the MRAM's batches and the release: OPT_CMD, NV_CMD, the end of a batch, the option load, the release steps, step 7 of the release and
BLK_RST (R442 to R453, R471).
-/

namespace Sys2Proof.Machine

/-! ### An event leaves the registers of the kiln -/

theorem State.setWs_w_beyond (s : State) {a i : Nat} {l : List Word} (beyond : a + 4 * l.length ≤ i) : (s.setWs a l).w i = s.w i := by
  induction l generalizing s a with
  | nil => rfl
  | cons v l ih =>
    simp only [List.length_cons] at beyond
    rw [State.setWs, ih _ (by omega), State.setW_w_other _ _ _ _ (by omega)]

section

variable (s : State) (code src detail : Nat) {i : Nat} (beyond : R.KILN_CTL ≤ i)
include beyond

theorem State.logEntry_w_beyond : (s.logEntry code src detail).w i = s.w i := by
  have low : 0xA0000 ≤ i := beyond
  have entry : (s.setWs (R.LOG_ENT ((s.w R.LOG_HEAD).toNat % 1024)) (s.logWords code src detail)).w i = s.w i := by
    have last := Nat.mod_lt (s.w R.LOG_HEAD).toNat (by decide : 1024 > 0)
    refine s.setWs_w_beyond ?_
    rw [R.LOG_ENT, show (s.logWords code src detail).length = 8 from rfl]
    omega
  refine (State.setW_w_other _ R.LOG_HEAD i _ ?head).trans ?_
  case head => rw [R.LOG_HEAD]; omega
  split
  · exact (State.setF_w_other _ F.LOG_COUNT_V _ i (Nat.ne_of_gt (Nat.lt_of_lt_of_le (by decide) low))).trans entry
  · exact (State.setW_w_other _ R.LOG_OVWR i _ (by rw [R.LOG_OVWR]; omega)).trans entry

theorem State.raise1_w_beyond : (s.raise1 code src detail).w i = s.w i := by
  have low : 0xA0000 ≤ i := beyond
  have pend : ((s.logEntry code src detail).setBit R.MGP_PEND (code / 256)).w i = s.w i :=
    (State.setW_w_other _ R.MGP_PEND i _ (by rw [R.MGP_PEND]; omega)).trans (s.logEntry_w_beyond code src detail beyond)
  rw [State.raise1]
  split
  · exact pend
  · split
    · exact pend
    · exact (State.setW_w_other _ R.EVT_DROP i _ (by rw [R.EVT_DROP]; omega)).trans pend

theorem State.raise_w_beyond : (s.raise code src detail).w i = s.w i := by
  have low : 0xA0000 ≤ i := beyond
  have link : ∀ t : State, (t.setBit R.LINK_EVT 4).w i = t.w i := fun t => t.setW_w_other R.LINK_EVT i _ (by rw [R.LINK_EVT]; omega)
  rw [State.raise]
  split
  · split
    · rw [State.raise1_w_beyond _ _ _ _ beyond, link, State.raise1_w_beyond _ _ _ _ beyond]
    · rw [State.raise1_w_beyond _ _ _ _ beyond, State.raise1_w_beyond _ _ _ _ beyond, link]
  · exact s.raise1_w_beyond _ _ _ beyond

end

theorem State.raiseBit_f_KILN_STAT (s : State) (i code src detail : Nat) (x : Fld) (stat : x.addr = R.KILN_STAT) :
    (s.raiseBit R.KILN_EVT i code src detail).f x = s.f x := by
  have kept : (s.raiseBit R.KILN_EVT i code src detail).w x.addr = s.w x.addr := by
    rw [stat]
    exact (State.raise_w_beyond _ _ _ _ (by decide : R.KILN_CTL ≤ R.KILN_STAT)).trans
      (State.setW_w_other _ R.KILN_EVT _ _ (by decide))
  rw [State.f, kept, State.f]

theorem State.raiseBit_eventOnly (s : State) (a i code src detail : Nat) : s.EventOnly (s.raiseBit a i code src detail) :=
  (s.setW_eventOnly ..).trans (State.raise_eventOnly ..)

theorem State.EventOnly.nv {s t : State} (h : s.EventOnly t) : t.nv = s.nv := by
  obtain ⟨_, _, _, _, rfl⟩ := h
  rfl

theorem State.EventOnly.rel {s t : State} (h : s.EventOnly t) : t.rel = s.rel := by
  obtain ⟨_, _, _, _, rfl⟩ := h
  rfl

/-! ### The check before a batch (R443) -/

theorem State.nvCheck_eventOnly (s : State) (writer rows v : Nat) : s.EventOnly (s.nvCheck writer rows v).1 := by
  have measured : s.EventOnly (s.measureHold v) := (s.setW_eventOnly ..).trans (State.setW_eventOnly ..)
  rw [State.nvCheck]
  split
  · exact measured
  · exact measured.trans (State.raiseBit_eventOnly ..)

/-- Whether a check passes rests on the registers, on VHOLD and on the test in progress alone: not on the fault maps of a record. -/
theorem State.nvCheck_recMaps (s : State) (maps : Tab Nat) (writer rows v : Nat) :
    (({ s with recMaps := maps } : State).nvCheck writer rows v).2 = (s.nvCheck writer rows v).2 := by
  have same : (({ s with recMaps := maps } : State).measureHold v).holdOk rows v = (s.measureHold v).holdOk rows v := rfl
  rw [State.nvCheck, State.nvCheck, same]
  cases (s.measureHold v).holdOk rows v with
  | true => rw [if_pos rfl, if_pos rfl]
  | false => rw [if_neg Bool.false_ne_true, if_neg Bool.false_ne_true]

section

variable {s : State} {writer addr v : Nat} {rows : List (List Byte)}

theorem State.startBatch_of_held (held : (s.nvCheck (writer / 2) rows.length v).2 = true) :
    s.startBatch writer addr rows v = (s.nvCheck (writer / 2) rows.length v).1.begin writer addr rows := if_pos held

theorem State.startBatch_of_unheld (empty : (s.nvCheck (writer / 2) rows.length v).2 = false) : s.startBatch writer addr rows v =
    ((s.nvCheck (writer / 2) rows.length v).1.setF F.NV_STAT_STATUS Status.nvEnergy.code).fin .nvEnergy :=
  if_neg (ne_true_of_eq_false empty)

end

theorem nvRows_length (n : Nat) (bs : List Byte) : (nvRows n bs).length = n := by
  induction n generalizing bs with
  | zero => rfl
  | succ n ih => exact congrArg (· + 1) (ih _)

/-! ### The end of a batch of OPT_CMD or NV_CMD (R442, R444, R449) -/

/-- The writers below 4 are a copy of the option record and a boot image; the command that began the batch completes OK. -/
theorem State.batchEffect_of_command (s : State) {writer : Nat} (command : writer < 4) :
    s.batchEffect writer = (s.setF F.NV_STAT_STATUS 0).fin .ok := by
  match writer, command with
  | 0, _ => rfl
  | 1, _ => rfl
  | 2, _ => rfl
  | 3, _ => rfl

/-- The end of the batch that clears the kiln record's first row lets step 7 judge the record (R471). -/
theorem State.batchEffect_of_step7 {s : State} (bringup : s.mode = 1) (step : s.rel = 7) : s.batchEffect 4 = s.kilnJudge := by
  rw [State.batchEffect, if_neg (by rw [bringup]; omega), if_pos ⟨bringup, step⟩]

/-! ### The option load (R447, R453) -/

/-- The hub as step 2 of the release leaves it. -/
def State.optionsLoaded (s : State) (raw : Nat) (errA errB : Bool) : State :=
  let (src, ws, blank, fault) := s.chooseCopy errA errB
  let (s1, ws1) := (s.measureCfgr raw).loadResult src ws blank fault
  let (s2, ws2) := s1.applyStrap ws1 blank
  { (s2.inForce ws2).logRelease with rel := 3 }

section

variable {s : State} (alive : s.alive = true) (raw : BitVec 12) (errA errB : Bool)
include alive

theorem exec_optionLoad_of_step2 (step : s.rel = 2) : exec (.optionLoad raw errA errB) s = .next (s.optionsLoaded raw.toNat errA errB) := by
  change execOptionLoad raw errA errB s = _
  rw [execOptionLoad, act_alive _ _ alive, if_pos step]
  rfl

theorem exec_optionLoad_of_other (step : s.rel ≠ 2) : exec (.optionLoad raw errA errB) s = .next s := by
  change execOptionLoad raw errA errB s = _
  rw [execOptionLoad, act_alive _ _ alive, if_neg step]

end

/-! ### OPT_CMD and NV_CMD (R443, R449, R450) -/

section

variable {s : State} {r : Req}

section

variable (h : s.takes r R.OPT_CMD)
include h

theorem exec_readA : exec (.readA r) s = .next (readCopy false s) := act_regWrite_of_takes h (readCopy false)

theorem exec_readB : exec (.readB r) s = .next (readCopy true s) := act_regWrite_of_takes h (readCopy true)

theorem exec_writeA (vh : BitVec 16) : exec (.writeA r vh) s = .next (writeCopy false vh.toNat s) :=
  act_regWrite_of_takes h (writeCopy false vh.toNat)

theorem exec_writeB (vh : BitVec 16) : exec (.writeB r vh) s = .next (writeCopy true vh.toNat s) :=
  act_regWrite_of_takes h (writeCopy true vh.toNat)

end

theorem readCopy_of_idle (copy : Bool) (idle : s.nvBusy = false) :
    readCopy copy s = (s.setWs (R.OPT_STAGE 0) ((s.copyWords copy).map fun x => BitVec.ofNat 32 x)).fin .ok := if_neg (ne_true_of_eq_false idle)

theorem readCopy_of_busy (copy : Bool) (busy : s.nvBusy = true) : readCopy copy s = s.fin .busy := if_pos busy

/-- The record that staging holds, with its check value. -/
def State.stagedRecord (s : State) : List Nat := recSealed ((range' 0 31).map fun i => (s.w (R.OPT_STAGE i)).toNat)

theorem writeCopy_of_mode (copy : Bool) (v : Nat) (mode : s.nvMode = false) : writeCopy copy v s = s.fin .mode := if_pos (by rw [mode]; rfl)

section

variable (copy : Bool) (v : Nat) (mode : s.nvMode = true)
include mode

theorem writeCopy_of_bad (bad : recFields s.stagedRecord = false) : writeCopy copy v s = s.fin .unsupported :=
  (if_neg (by rw [mode]; decide)).trans (if_pos (by rw [Bool.not_eq_true']; exact bad))

/-- A staged record that keeps R446, with no batch in progress, goes to its copy in two rows. -/
theorem writeCopy_of_good (good : recFields s.stagedRecord = true) (idle : s.nvBusy = false) :
    writeCopy copy v s = s.startBatch (b2n copy) (nvOption copy) (nvRows 2 (s.stagedRecord.flatMap (natBE 4))) v :=
  (if_neg (by rw [mode]; decide)).trans ((if_neg (by rw [Bool.not_eq_true', Bool.not_eq_false]; exact good)).trans
    (if_neg (ne_true_of_eq_false idle)))

end

/-- Both copies count as writer 0 of the check, with two rows. -/
theorem State.nvCheck_copy (s : State) (copy : Bool) (bs : List Byte) (v : Nat) :
    s.nvCheck (b2n copy / 2) (nvRows 2 bs).length v = s.nvCheck 0 2 v := by
  cases copy <;> rfl

section

variable (copy : Bool) {v : Nat} (mode : s.nvMode = true) (good : recFields s.stagedRecord = true) (idle : s.nvBusy = false)
include mode good idle

theorem writeCopy_of_held (held : (s.nvCheck 0 2 v).2 = true) : writeCopy copy v s =
    (s.nvCheck 0 2 v).1.begin (b2n copy) (nvOption copy) (nvRows 2 (s.stagedRecord.flatMap (natBE 4))) := by
  rw [writeCopy_of_good copy v mode good idle, State.startBatch_of_held (by rw [State.nvCheck_copy]; exact held), State.nvCheck_copy]

theorem writeCopy_of_unheld (empty : (s.nvCheck 0 2 v).2 = false) : writeCopy copy v s =
    ((s.nvCheck 0 2 v).1.setF F.NV_STAT_STATUS Status.nvEnergy.code).fin .nvEnergy := by
  rw [writeCopy_of_good copy v mode good idle, State.startBatch_of_unheld (by rw [State.nvCheck_copy]; exact empty), State.nvCheck_copy]

end

section

variable {v : Word} (h : s.takes r R.NV_CMD) (mode : s.nvMode = true) (vh : BitVec 16)
include h mode

theorem exec_nvCmd_of_mode : exec (.nvCmd r v vh) s = .next (
    if bits v.toNat 29 28 < 2 then s.fin .unsupported
    else if 16384 < bits v.toNat 13 0 + (bits v.toNat 25 24 + 1) then s.fin .length
    else if s.nvBusy then s.fin .busy
    else s.startBatch (bits v.toNat 29 28) (nvBoot (bits v.toNat 29 28 == 3) + 64 * bits v.toNat 13 0)
      (nvRows (bits v.toNat 25 24 + 1) (wordsToBytes ((range' 0 64).map fun k => s.w (R.NV_BUF k)))) vh.toNat) :=
  (act_regWrite_of_takes h _).trans (congrArg _ (if_neg (by rw [mode]; decide)))

theorem exec_nvCmd_of_target (low : bits v.toNat 29 28 < 2) : exec (.nvCmd r v vh) s = .next (s.fin .unsupported) :=
  (exec_nvCmd_of_mode h mode vh).trans (congrArg _ (if_pos low))

variable (boot : 2 ≤ bits v.toNat 29 28)
include boot

theorem exec_nvCmd_of_length (beyond : 16384 < bits v.toNat 13 0 + (bits v.toNat 25 24 + 1)) :
    exec (.nvCmd r v vh) s = .next (s.fin .length) :=
  (exec_nvCmd_of_mode h mode vh).trans (congrArg _ ((if_neg (Nat.not_lt.mpr boot)).trans (if_pos beyond)))

/-- Both boot images count as writer 1 of the check. -/
theorem exec_nvCmd_of_held (inside : bits v.toNat 13 0 + (bits v.toNat 25 24 + 1) ≤ 16384) (idle : s.nvBusy = false)
    (held : (s.nvCheck 1 (bits v.toNat 25 24 + 1) vh.toNat).2 = true) : exec (.nvCmd r v vh) s = .next
      ((s.nvCheck 1 (bits v.toNat 25 24 + 1) vh.toNat).1.begin (bits v.toNat 29 28) (nvBoot (bits v.toNat 29 28 == 3) + 64 * bits v.toNat 13 0)
        (nvRows (bits v.toNat 25 24 + 1) (wordsToBytes ((range' 0 64).map fun k => s.w (R.NV_BUF k))))) := by
  have two_bits : bits v.toNat 29 28 < 4 := Nat.mod_lt _ (by decide)
  have image : bits v.toNat 29 28 / 2 = 1 := by omega
  rw [exec_nvCmd_of_mode h mode, if_neg (Nat.not_lt.mpr boot), if_neg (Nat.not_lt.mpr inside), if_neg (ne_true_of_eq_false idle),
    State.startBatch_of_held (by rw [nvRows_length, image]; exact held), nvRows_length, image]

end

end

/-! ### The release (R450, R453, R471) -/

section

variable {s : State} (alive : s.alive = true) (vh : BitVec 16)
include alive

theorem exec_releaseStep : exec (.releaseStep vh) s = .next (s.releaseStep vh.toNat) := act_alive (fun s => s.releaseStep vh.toNat) s alive

end

section

variable {s : State} (vh : Nat)

theorem State.releaseStep_of_step4 (step : s.rel = 4) : s.releaseStep vh = { s.smplUp with rel := 5 } := by
  simp only [State.releaseStep, step]

theorem State.releaseStep_of_step6 (step : s.rel = 6) : s.releaseStep vh = s.bootStep vh := by
  simp only [State.releaseStep, step]

theorem State.releaseStep_of_step7 (step : s.rel = 7) (idle : s.nvBusy = false) (decided : s.f F.KILN_STAT_STATE ≠ 2) :
    s.releaseStep vh = s.kilnStep vh := by
  have goes : (s.nvBusy || s.f F.KILN_STAT_STATE == 2) = false := by rw [idle, Bool.false_or, beq_eq_false_iff_ne]; exact decided
  rw [State.releaseStep, step]
  exact if_neg (ne_true_of_eq_false goes)

theorem State.bootStep_of_idle (idle : s.nvBusy = false) :
    s.bootStep vh = if s.began (s.boot vh) then s.boot vh else { s.boot vh with rel := 7 } := if_neg (ne_true_of_eq_false idle)

/-- A power-on test that is not skipped shows why, and runs its first segment (R471). -/
theorem State.kilnVerdict_of_run (s : State) {why : Nat} (runs : why ≠ 0) : s.kilnVerdict why =
    (((((s.setF F.KILN_STAT_REASON why).setF F.KILN_STAT_SKIPPED (b2n (why == 0))).raiseBit R.KILN_EVT 5 0x0A06 0 why).setF
      F.KILN_STAT_STATE 2).segStart 0) := if_neg runs

theorem State.keepView_f (s : State) (x : Fld) : s.keepView.f x = s.f x := rfl

theorem State.keepView_nv (s : State) : s.keepView.nv = s.nv := rfl

theorem State.kilnVerdict_stat (s : State) {why : Nat} (runs : why ≠ 0) (small : why < 8) :
    (s.kilnVerdict why).f F.KILN_STAT_REASON = why ∧ (s.kilnVerdict why).f F.KILN_STAT_STATE = 2 := by
  rw [State.kilnVerdict_of_run s runs]
  constructor
  · rw [State.segStart, State.keepView_f, State.setF_f_apart _ F.KILN_STAT_SEG F.KILN_STAT_REASON _ (by decide) (by decide) (by decide) (by decide),
      State.setF_f_apart _ F.KILN_STAT_STATE F.KILN_STAT_REASON _ (by decide) (by decide) (by decide) (by decide),
      State.raiseBit_f_KILN_STAT _ _ _ _ _ F.KILN_STAT_REASON rfl,
      State.setF_f_apart _ F.KILN_STAT_SKIPPED F.KILN_STAT_REASON _ (by decide) (by decide) (by decide) (by decide),
      State.setF_f_same _ F.KILN_STAT_REASON _ (by decide) (by decide)]
    exact Nat.mod_eq_of_lt small
  · rw [State.segStart, State.keepView_f, State.setF_f_apart _ F.KILN_STAT_SEG F.KILN_STAT_STATE _ (by decide) (by decide) (by decide) (by decide)]
    exact State.setF_f_same _ F.KILN_STAT_STATE 2 (by decide) (by decide)

theorem State.kilnVerdict_nv (s : State) {why : Nat} (runs : why ≠ 0) : (s.kilnVerdict why).nv = s.nv := by
  rw [State.kilnVerdict_of_run s runs, State.segStart, State.keepView_nv]
  exact ((((s.setW_eventOnly ..).trans (State.setW_eventOnly ..)).trans (State.raiseBit_eventOnly ..)).trans
    ((State.setW_eventOnly ..).trans (State.setW_eventOnly ..))).nv

/-- The fault maps of the tiles in a kiln record. -/
def kilnMaps (ws : List Nat) : Tab Nat :=
  (range' 0 24).foldl (fun t k => Tab.set (fun _ => 0) t k (bits (ws.getD (108 + k) 0) 17 0)) ([] : Tab Nat)

/-- The hub after the check before the batch that clears the record: the maps of the record are kept. -/
def State.kilnChecked (s : State) (vh : Nat) : State := (({ s with recMaps := kilnMaps s.kilnRecord } : State).nvCheck 2 1 vh).1

theorem State.kilnStep_of_invalid (invalid : kilnValid s.kilnRecord = false) :
    s.kilnStep vh = ({ s with recMaps := [] } : State).kilnVerdict 1 := if_pos (by rw [invalid]; rfl)

theorem State.kilnStep_of_held (valid : kilnValid s.kilnRecord = true) (held : (s.nvCheck 2 1 vh).2 = true) :
    s.kilnStep vh = { (s.kilnChecked vh).begin 4 nvKiln [List.replicate 64 0] with kilnWords := s.kilnRecord } := by
  have passes := (s.nvCheck_recMaps (kilnMaps s.kilnRecord) 2 1 vh).trans held
  rw [State.kilnStep, if_neg (by rw [valid]; decide)]
  exact if_neg (by rw [Bool.not_eq_true', Bool.not_eq_false]; exact passes)

theorem State.kilnStep_of_unheld (valid : kilnValid s.kilnRecord = true) (empty : (s.nvCheck 2 1 vh).2 = false) :
    s.kilnStep vh = (s.kilnChecked vh).kilnVerdict 2 := by
  have fails := (s.nvCheck_recMaps (kilnMaps s.kilnRecord) 2 1 vh).trans empty
  rw [State.kilnStep, if_neg (by rw [valid]; decide)]
  exact if_pos (by rw [Bool.not_eq_true']; exact fails)

end

/-! ### BLK_RST (R452) -/

/-- The hub after a block reset that no seal locks. -/
def State.blkRst (s : State) (kind i : Nat) : State :=
  match if kind ≤ 8 then kindCount kind else none with
  | none => s.fin .unsupported
  | some n =>
    if n ≤ i then s.fin .addr
    else if s.testing = some (kind, i) ∨ (kind = 8 ∧ s.testing = some (11, 0)) then s.fin .busyTest
    else if !s.blockIdle kind i then s.fin .busy
    else ((s.resetBlock kind i).raiseBit R.RPC_EVT 5 0x0106 kind i).fin .ok

section

variable {s : State} {kind i : Nat}

theorem State.blkRst_of_unknown (unknown : 8 < kind) : s.blkRst kind i = s.fin .unsupported := by
  rw [State.blkRst, if_neg (Nat.not_le.mpr unknown)]

variable (known : kind ≤ 8) {n : Nat} (count : kindCount kind = some n)
include known count

theorem State.blkRst_of_addr (outside : n ≤ i) : s.blkRst kind i = s.fin .addr := by
  rw [State.blkRst, if_pos known, count]
  exact if_pos outside

variable (inside : i < n)
include inside

theorem State.blkRst_of_tested (test : s.testing = some (kind, i)) : s.blkRst kind i = s.fin .busyTest := by
  rw [State.blkRst, if_pos known, count]
  exact (if_neg (Nat.not_le.mpr inside)).trans (if_pos (.inl test))

theorem State.blkRst_of_untested (untested : s.testing = none) : s.blkRst kind i =
    if !s.blockIdle kind i then s.fin .busy else ((s.resetBlock kind i).raiseBit R.RPC_EVT 5 0x0106 kind i).fin .ok := by
  rw [State.blkRst, if_pos known, count]
  exact (if_neg (Nat.not_le.mpr inside)).trans (if_neg (by rw [untested]; simp))

end

/-- A block reset of another kind than a mason's, which a seal may lock. -/
theorem exec_blkRst_of_other {s : State} {r : Req} {v : Word} (h : s.takes r R.BLK_RST) (other : bits v.toNat 27 24 ≠ 3) :
    exec (.blkRst r v) s = .next (s.blkRst (bits v.toNat 27 24) (bits v.toNat 7 0)) := by
  have unsealed : ¬(bits v.toNat 27 24 = 3 && s.legalSealed (bits v.toNat 7 0) && accOf r R.BLK_RST == .rw) = true := by simp [other]
  obtain ⟨alive, map, test⟩ := h
  change execBlkRst r v s = _
  rw [execBlkRst, act_alive _ _ alive, if_neg unsealed, regWrite_eff _ _ noLock _ _ rfl map test]
  rfl

/-- Settles O59: a batch's end by its writer, OPT_CMD and NV_CMD by the order of their refusals, the release by its steps, and BLK_RST by the kinds of
its blocks. -/
theorem optionsNonVolatileAndRelease : Obligations.OptionsNonVolatileAndRelease := by
  intro s r v vh b raw eA eB k
  dsimp only
  refine ⟨fun alive nv command unowed idle => ?command, fun alive nv command owed => ?held, fun alive nv writer unowed idle => ?firmware,
    fun alive nv => ?none_, fun alive => exec_optionLoad_of_step2 alive raw eA eB, fun alive => exec_optionLoad_of_other alive raw eA eB,
    fun h idle => (exec_readA h).trans (congrArg _ (readCopy_of_idle false idle)),
    fun h idle => (exec_readB h).trans (congrArg _ (readCopy_of_idle true idle)),
    fun h busy => (exec_readB h).trans (congrArg _ (readCopy_of_busy true busy)),
    fun h mode good idle held => ?writeA, fun h mode good idle held => ?writeB, fun h mode good idle empty => ?unheld,
    fun h mode bad => (exec_writeA h vh).trans (congrArg _ (writeCopy_of_bad false _ mode bad)),
    fun h mode => (exec_writeB h vh).trans (congrArg _ (writeCopy_of_mode true _ mode)),
    fun h mode boot inside idle held => exec_nvCmd_of_held h mode vh boot inside idle held,
    fun h mode low => exec_nvCmd_of_target h mode vh low, fun h mode boot beyond => exec_nvCmd_of_length h mode vh boot beyond,
    fun alive step => ?step3, fun alive step own => ?locked, fun alive step sys => ?locks, fun alive step => ?step5,
    fun alive step idle waits => ?boots, fun alive step idle waits => ?saves, fun alive step busy => ?step6busy,
    fun alive step idle decided => (exec_releaseStep alive vh).trans (congrArg _ (State.releaseStep_of_step7 _ step idle decided)),
    State.kilnStep_of_invalid _, fun valid held => ?clears, fun valid empty => ?keeps, fun alive nv writer unowed bringup step => ?judges,
    fun alive step => ?step8, fun alive step => ?step9,
    fun h other unknown => (exec_blkRst_of_other h other).trans (congrArg _ (State.blkRst_of_unknown unknown)),
    fun h other known count outside => (exec_blkRst_of_other h other).trans (congrArg _ (State.blkRst_of_addr known count outside)),
    fun h other known count inside untested busy => ?busy,
    fun h other known count inside test => (exec_blkRst_of_other h other).trans (congrArg _ (State.blkRst_of_tested known count inside test)),
    fun h other known count inside untested idle => ?resets⟩
  case command =>
    rw [exec_nvBatchDone_of_unowed alive nv unowed, State.batchEffect_of_command _ command]
    exact congrArg _ (State.nextSave_of_none ((s.batchOver_enDue b).trans idle))
  case held =>
    rw [exec_nvBatchDone_of_owed alive nv owed, State.batchEffect_of_command _ command]
    rfl
  case firmware =>
    rw [exec_nvBatchDone_of_unowed alive nv unowed, writer]
    exact congrArg _ (State.nextSave_of_none ((s.batchOver_enDue b).trans idle))
  case none_ =>
    change execNvBatchDone s = _
    rw [execNvBatchDone, nv]
    simp
  case writeA => exact (exec_writeA h vh).trans (congrArg _ (writeCopy_of_held false mode good idle held))
  case writeB => exact (exec_writeB h vh).trans (congrArg _ (writeCopy_of_held true mode good idle held))
  case unheld => exact (exec_writeA h vh).trans (congrArg _ (writeCopy_of_unheld false mode good idle empty))
  case step3 =>
    rw [exec_releaseStep alive]
    simp only [State.releaseStep, step]
  case locked =>
    rw [exec_releaseStep alive, State.releaseStep_of_step4 _ step, State.smplUp, own, Bool.not_true, State.when_false]
  case locks =>
    rw [exec_releaseStep alive, State.releaseStep_of_step4 _ step, State.smplUp, sys, Bool.not_false, State.when_true]
  case step5 =>
    rw [exec_releaseStep alive]
    simp only [State.releaseStep, step]
  case boots =>
    rw [exec_releaseStep alive, State.releaseStep_of_step6 _ step, State.bootStep_of_idle _ idle, waits, if_neg Bool.false_ne_true]
  case saves => rw [exec_releaseStep alive, State.releaseStep_of_step6 _ step, State.bootStep_of_idle _ idle, waits, if_pos rfl]
  case step6busy => rw [exec_releaseStep alive, State.releaseStep_of_step6 _ step, State.bootStep, if_pos busy]
  case clears =>
    rw [State.kilnStep_of_held _ valid held]
    exact ⟨rfl, rfl, (State.nvCheck_eventOnly ..).rel⟩
  case keeps =>
    rw [State.kilnStep_of_unheld _ valid empty]
    obtain ⟨reason, state⟩ := (s.kilnChecked vh.toNat).kilnVerdict_stat (why := 2) (by decide) (by decide)
    exact ⟨reason, state, (State.kilnVerdict_nv _ (by decide)).trans (State.nvCheck_eventOnly ..).nv⟩
  case judges =>
    have mode : (s.batchOver b).mode = 1 := (State.setF_f_other _ _ F.MODE_MODE _ (by decide)).trans bringup
    rw [exec_nvBatchDone_of_unowed alive nv unowed, writer, State.batchEffect_of_step7 mode ((s.batchOver_rel b).trans step)]
    rfl
  case step8 =>
    rw [exec_releaseStep alive]
    simp only [State.releaseStep, step]
  case step9 =>
    rw [exec_releaseStep alive]
    simp only [State.releaseStep, step]
  case busy => rw [exec_blkRst_of_other h other, State.blkRst_of_untested known count inside untested, busy, Bool.not_false, if_pos rfl]
  case resets => rw [exec_blkRst_of_other h other, State.blkRst_of_untested known count inside untested, idle, Bool.not_true, if_neg Bool.false_ne_true]

end Sys2Proof.Machine
end

section
/-!
PROOFS. The modes, the kiln, the trouble log's clear and the test access port (R422, R455, R456, R464 to R477, R479, R498).
-/

namespace Sys2Proof.Machine

/-! ### MODE writes (R422, R455, R456) -/

section

variable {s : State} {r : Req} (h : s.takes r R.MODE)
include h

theorem exec_modeAcquire : exec (.modeAcquire r) s = .next (s.modeWrite r 3 false false) :=
  act_regWrite_of_takes h fun s => s.modeWrite r 3 false false

theorem exec_modeHold : exec (.modeHold r) s = .next (s.modeWrite r 2 false false) :=
  act_regWrite_of_takes h fun s => s.modeWrite r 2 false false

theorem exec_modeSafe : exec (.modeSafe r) s = .next (s.modeWrite r 5 false false) :=
  act_regWrite_of_takes h fun s => s.modeWrite r 5 false false

theorem exec_modeDormant (nokiln discard : Bool) : exec (.modeDormant r nokiln discard) s = .next (s.modeWrite r 0 nokiln discard) :=
  act_regWrite_of_takes h fun s => s.modeWrite r 0 nokiln discard

theorem exec_modeBringup : exec (.modeBringup r) s = .next (s.modeWrite r 1 false false) :=
  act_regWrite_of_takes h fun s => s.modeWrite r 1 false false

end

section

variable {s : State} {r : Req} (owner : s.notOwner r = false)
include owner

theorem State.modeWrite_acquire (mode : s.mode = 2) : s.modeWrite r 3 false false = (s.toAcquire (reqCode r)).fin .ok := by
  simp [State.modeWrite, owner, mode]

theorem State.modeWrite_hold (mode : s.mode = 3) : s.modeWrite r 2 false false = ((s.leaveAcquire.modeTo 2 (reqCode r)).drain).fin .ok := by
  simp [State.modeWrite, owner, mode]

theorem State.modeWrite_safe (mode : s.mode = 2 ∨ s.mode = 3) : s.modeWrite r 5 false false = (s.toSafe (reqCode r) 0).fin .ok := by
  rcases mode with mode | mode <;> simp [State.modeWrite, owner, mode]

/-- With DISCARD the rings may hold hods that are lost. -/
theorem State.modeWrite_dormant (nokiln : Bool) (mode : s.mode = 2 ∨ s.mode = 5) (untested : s.kilnTest = none) :
    s.modeWrite r 0 nokiln true = (s.toDormant (reqCode r) nokiln).fin .ok := by
  rcases mode with mode | mode <;> simp [State.modeWrite, owner, mode, untested]

theorem State.modeWrite_dormant_of_acquire (nokiln discard : Bool) (mode : s.mode = 3) : s.modeWrite r 0 nokiln discard = s.fin .mode := by
  simp [State.modeWrite, owner, mode]

end

/-- Only the manager wakes a hub in DORMANT. -/
theorem State.modeWrite_bringup {s : State} (owner : s.notOwner .manager = false) (mode : s.mode = 0) :
    s.modeWrite .manager 1 false false = if !s.mainGood then s.fin .busy
      else ({ s.modeTo 1 (reqCode .manager) with rel := 2, relWake := true } : State).csWake.fin .ok := by
  simp [State.modeWrite, owner, mode]

/-! ### The end of a segment or a test (R464, R473) -/

/-- The segment running is over: its pattern set is complete or its budget spent, in the power-on test or else. -/
def State.segOver (s : State) (power : Bool) (us n : Nat) : Bool :=
  segEnded (segBudget power (s.f F.KILN_STAT_SEG)) (Config.kilnExp (s.f F.KILN_STAT_SEG)).toNat us n

section

variable {s : State} (alive : s.alive = true) (us : Nat) (ok bad : Bool) (pat : BitVec 24) (map : BitVec 18)
include alive

theorem exec_segmentEnd_of_test {k i : Nat} (test : s.kilnTest = some (k, i)) (other : k ≠ 8) : exec (.segmentEnd ⟨us, ok⟩ bad pat map) s =
    .next (if s.segOver false us pat.toNat then s.testNext k ok bad pat.toNat map.toNat else s) := by
  change execSegmentEnd ⟨us, ok⟩ bad pat map s = _
  simp only [execSegmentEnd, act_alive _ _ alive, test, if_neg other]
  rfl

/-- A test of a trigger unit has a pattern set and a budget of its own. -/
theorem exec_segmentEnd_of_unit_test {i : Nat} (test : s.kilnTest = some (8, i)) : exec (.segmentEnd ⟨us, ok⟩ bad pat map) s =
    .next (if segEnded 200 4096 us pat.toNat then s.testNext 8 ok bad pat.toNat map.toNat else s) := by
  change execSegmentEnd ⟨us, ok⟩ bad pat map s = _
  simp only [execSegmentEnd, act_alive _ _ alive, test, if_true]

variable (untested : s.kilnTest = none)
include untested

theorem exec_segmentEnd_of_shutdown (state : s.f F.KILN_STAT_STATE = 1) (more : s.kilnEnd = false) :
    exec (.segmentEnd ⟨us, ok⟩ bad pat map) s =
      .next (if s.segOver false us pat.toNat then s.segNext (s.f F.KILN_STAT_SEG) ok bad pat.toNat map.toNat else s) := by
  change execSegmentEnd ⟨us, ok⟩ bad pat map s = _
  simp only [execSegmentEnd, act_alive _ _ alive, untested, state, more, Bool.false_or]
  change Host.Outcome.next (if (!s.segOver false us pat.toNat) = true then _ else _) = _
  cases s.segOver false us pat.toNat with
  | true => rw [Bool.not_true, if_neg Bool.false_ne_true, if_pos rfl]
  | false => rw [Bool.not_false, if_pos rfl, if_neg Bool.false_ne_true]

theorem exec_segmentEnd_of_power (state : s.f F.KILN_STAT_STATE = 2) : exec (.segmentEnd ⟨us, ok⟩ bad pat map) s =
    .next (if s.segOver true us pat.toNat then s.segNext (s.f F.KILN_STAT_SEG) ok bad pat.toNat map.toNat else s) := by
  change execSegmentEnd ⟨us, ok⟩ bad pat map s = _
  simp only [execSegmentEnd, act_alive _ _ alive, untested, state]
  rfl

end

/-! ### The end of the shutdown kiln (R468 to R470) -/

section

variable {s : State} (alive : s.alive = true)
include alive

section

variable (vh : BitVec 16) (mode : s.mode = 4) (ended : s.kilnEnd = true) (idle : s.nvBusy = false)
include mode ended idle

theorem exec_kilnDone_of_held (held : (s.nvCheck 2 9 vh.toNat).2 = true) : exec (.kilnDone vh) s = .next
    ((s.nvCheck 2 9 vh.toNat).1.begin 4 nvKiln (nvRows 9 ((s.nvCheck 2 9 vh.toNat).1.newRecord.flatMap (natBE 4)))) := by
  change execKilnDone vh s = _
  rw [execKilnDone, act_alive _ _ alive, if_pos ⟨mode, ended, by rw [idle]; rfl⟩]
  exact congrArg _ (if_pos held)

theorem exec_kilnDone_of_unheld (empty : (s.nvCheck 2 9 vh.toNat).2 = false) :
    exec (.kilnDone vh) s = .next (s.nvCheck 2 9 vh.toNat).1.kilnOver := by
  change execKilnDone vh s = _
  rw [execKilnDone, act_alive _ _ alive, if_pos ⟨mode, ended, by rw [idle]; rfl⟩]
  exact congrArg _ (if_neg (ne_true_of_eq_false empty))

end

end

theorem State.batchEffect_of_kiln {s : State} (mode : s.mode = 4) (ended : s.kilnEnd = true) : s.batchEffect 4 = s.kilnOver :=
  if_pos ⟨mode, ended⟩

/-! ### KILN_CTL and LOG_CTL (R473, R479) -/

section

variable {s : State} {r : Req} {v : Word}

theorem exec_kilnGo (h : s.takes r R.KILN_CTL) : exec (.kilnGo r v) s = .next (s.kilnWrite v) := act_regWrite_of_takes h fun s => s.kilnWrite v

theorem State.kilnWrite_of_mode (go : wbit v 31 = true) (mode : s.live = false) : s.kilnWrite v = s.fin .mode :=
  (if_neg (by rw [go]; decide)).trans (if_pos (by rw [mode]; rfl))

/-- The hub as a test on demand of a block starts. -/
def State.testStarted (s : State) (kind i : Nat) : State :=
  ({ (s.setF F.KILN_STAT_STATE 3).setF F.KILN_STAT_SEG (kindSeg kind i) with kilnTest := some (kind, i) } : State).keepView

/-- A test of an idle block starts, where the block is neither the cornerstone nor a tile, which have conditions of their own. -/
theorem State.kilnWrite_of_idle {n : Nat} (go : wbit v 31 = true) (live : s.live = true) (count : kindCount (bits v.toNat 27 24) = some n)
    (inside : bits v.toNat 7 0 < n) (untested : s.kilnTest = none) (corner : bits v.toNat 27 24 ≠ 9) (tile : bits v.toNat 27 24 ≠ 1)
    (idle : s.blockIdle (bits v.toNat 27 24) (bits v.toNat 7 0) = true) :
    s.kilnWrite v = (s.testStarted (bits v.toNat 27 24) (bits v.toNat 7 0)).fin .ok := by
  rw [State.kilnWrite, if_neg (by rw [go]; decide), if_neg (by rw [live]; decide), count]
  dsimp only
  rw [if_neg (Nat.not_le.mpr inside), if_neg (by rw [untested]; decide), if_neg fun c => corner c.1,
    if_neg (by rw [idle]; simp [tile]), State.testStarted]

theorem exec_logClear_of_clear (h : s.takes r R.LOG_CTL) (clear : wbit v 0 = true) :
    exec (.logClear r v) s = .next (((s.setW R.LOG_COUNT 0).setW R.LOG_OVWR 0).fin .ok) :=
  (act_regWrite_of_takes h fun s => s.logWrite v).trans (congrArg _ (by rw [State.logWrite, clear, State.when_true]))

end

/-! ### The test access port (R476, R498) -/

section

variable {s : State} (alive : s.alive = true)
include alive

theorem exec_intscan_of_sealed (sealed : s.b F.CS_STAT_SEALED = true) :
    exec .intscan s = .next (({ s with tap := 0xFF } : State).raiseBit R.KILN_EVT 6 0x0A07 0 0) := by
  change execIntscan s = _
  rw [execIntscan, act_alive _ _ alive, if_pos sealed]

theorem exec_intscan_of_open (unsealed : s.b F.CS_STAT_SEALED = false) :
    exec .intscan s = .next { (s.setF F.SCAN_STAT_ZEROISED 1).raiseBit R.KILN_EVT 7 0x0A08 0 0 with
      tap := 0x20, scan := true, secret := List.replicate s.secret.length 0 } := by
  change execIntscan s = _
  rw [execIntscan, act_alive _ _ alive, if_neg (ne_true_of_eq_false unsealed)]

end

section

variable {s : State} (aon : s.aon = true) (free : s.rstLow = false)
include aon free

/-- The port keeps the instruction DBG_RESET through the reset that it raises. -/
theorem exec_dbgReset_of_free (n : BitVec 7) :
    exec (.dbgReset n) s = .next ((({ s with tap := 0x10 } : State).cutBatch n.toNat).hubReset 5) := by
  change execDbgReset n s = _
  rw [execDbgReset, if_neg (by rw [aon, free]; decide), State.debugReset_of_free (s := { s with tap := 0x10 }) aon free]

/-- Outside internal scan an instruction does nothing but stand in the port. -/
theorem State.tapTo_of_unscanned (apart : s.scan = false) (code : Nat) : s.tapTo code = { s with tap := code } := by
  simp [State.tapTo, aon, free, apart]

theorem State.bscan_of_unscanned (apart : s.scan = false) (code : Nat) (x y : BitVec 1472) :
    s.bscan code x y = { s with tap := code, bsrIn := x, bsrOut := y } := by
  rw [State.bscan, State.tapTo_of_unscanned aon free apart]
  exact if_pos rfl

end

/-- Settles O60: the rows of a MODE write, the segment running by what runs it, the end of the kiln by the hold-up check, and each instruction of the test
access port. -/
theorem modesKilnLogAndTap : Obligations.ModesKilnLogAndTap := by
  intro s r v vh cause n nk ok bad us pat map b i k x y
  dsimp only
  refine ⟨fun ⟨h, owner⟩ mode => (exec_modeAcquire h).trans (congrArg _ (State.modeWrite_acquire owner mode)),
    fun ⟨h, owner⟩ mode => (exec_modeHold h).trans (congrArg _ (State.modeWrite_hold owner mode)),
    fun ⟨h, owner⟩ mode => (exec_modeSafe h).trans (congrArg _ (State.modeWrite_safe owner mode)),
    fun ⟨h, owner⟩ mode untested => (exec_modeDormant h nk true).trans (congrArg _ (State.modeWrite_dormant owner nk mode untested)),
    fun ⟨h, owner⟩ mode => (exec_modeDormant h nk true).trans (congrArg _ (State.modeWrite_dormant_of_acquire owner nk true mode)),
    fun h owner mode good => ?wakes, fun h owner mode down => ?dark, fun alive => act_alive (fun s => s.faultSafe cause.toNat) s alive,
    fun alive test other => exec_segmentEnd_of_test alive us ok bad pat map test other,
    fun alive untested state more => exec_segmentEnd_of_shutdown alive us ok bad pat map untested state more,
    fun alive untested state => exec_segmentEnd_of_power alive us ok bad pat map untested state,
    fun alive test => exec_segmentEnd_of_unit_test alive us ok bad pat map test,
    fun alive mode ended idle held => exec_kilnDone_of_held alive vh mode ended idle held,
    fun alive mode ended idle empty => exec_kilnDone_of_unheld alive vh mode ended idle empty,
    fun alive nv writer unowed mode ended => ?recorded,
    fun h go live count inside untested corner tile idle =>
      (exec_kilnGo h).trans (congrArg _ (State.kilnWrite_of_idle go live count inside untested corner tile idle)),
    fun h go mode => (exec_kilnGo h).trans (congrArg _ (State.kilnWrite_of_mode go mode)), fun h clear => exec_logClear_of_clear h clear,
    fun alive sealed => exec_intscan_of_sealed alive sealed, fun alive unsealed => exec_intscan_of_open alive unsealed,
    fun aon free => exec_dbgReset_of_free aon free n,
    fun ⟨aon, free, apart⟩ => congrArg _ (State.bscan_of_unscanned aon free apart 0x00 x y),
    fun ⟨aon, free, apart⟩ => congrArg _ (State.bscan_of_unscanned aon free apart 0x01 x y),
    fun ⟨aon, free, apart⟩ => congrArg _ (State.tapTo_of_unscanned aon free apart 0x02),
    fun ⟨aon, free, apart⟩ => congrArg _ (State.tapTo_of_unscanned aon free apart 0x03),
    fun ⟨aon, free, apart⟩ => congrArg _ (State.tapTo_of_unscanned aon free apart 0x04),
    fun ⟨aon, free, apart⟩ => congrArg _ (State.bscan_of_unscanned aon free apart 0x05 x y),
    fun ⟨aon, free, apart⟩ => congrArg _ (State.bscan_of_unscanned aon free apart 0x06 x y),
    fun ⟨aon, free, apart⟩ => congrArg _ (State.tapTo_of_unscanned aon free apart 0xFF)⟩
  case wakes => rw [exec_modeBringup h, State.modeWrite_bringup owner mode, good, Bool.not_true, if_neg Bool.false_ne_true]
  case dark => rw [exec_modeBringup h, State.modeWrite_bringup owner mode, down, Bool.not_false, if_pos rfl]
  case recorded =>
    rw [exec_nvBatchDone_of_unowed alive nv unowed, writer]
    rw [State.batchEffect_of_kiln (s := s.batchOver b) mode ended]
    rfl

end Sys2Proof.Machine
end
